-- ==== Sys2Proof/Word.lean ====
section
/-!
DEFINITION. Bytes, 32-bit register words, and the sparse map in canonical form that holds everything addressed in State.
-/

namespace Sys2Proof

abbrev Byte := BitVec 8

/-- A BAR0 register word (R21). -/
abbrev Word := BitVec 32

/-- A sparse map: keys strictly rising, no entry equal to what an unlisted key reads as. -/
abbrev SMap (α : Type) := List (Nat × α)

/-- Read key k; d is what an unlisted key reads as. -/
def SMap.get {α : Type} (m : SMap α) (k : Nat) (d : α) : α :=
  match m with
  | [] => d
  | (j, v) :: r => if j = k then v else SMap.get r k d

/-- Put the entry (k, v) at its place, replacing the one there. -/
def SMap.insert {α : Type} (m : SMap α) (k : Nat) (v : α) : SMap α :=
  match m with
  | [] => [(k, v)]
  | (j, w) :: r =>
    if k < j then (k, v) :: (j, w) :: r
    else if k = j then (k, v) :: r
    else (j, w) :: SMap.insert r k v

/-- Remove what key k holds. -/
def SMap.erase {α : Type} (m : SMap α) (k : Nat) : SMap α :=
  match m with
  | [] => []
  | (j, w) :: r => if k = j then SMap.erase r k else (j, w) :: SMap.erase r k

/-- Write key k where d is what an unlisted key reads as: writing d removes the entry. -/
def SMap.set {α : Type} [DecidableEq α] (m : SMap α) (k : Nat) (v d : α) : SMap α :=
  if v = d then SMap.erase m k else SMap.insert m k v

/-- The keys rise strictly. -/
def SMap.sorted {α : Type} (m : SMap α) : Bool :=
  match m with
  | [] => true
  | [_] => true
  | (j, _) :: (k, w) :: r => decide (j < k) && SMap.sorted ((k, w) :: r)

end Sys2Proof
end

