-- ==== Sys2Proof/Syntax.lean ====
section
/-!
DEFINITION. The commands: one constructor for each row of spec/opcode_table.json, with the operands the row's rule gives
it. A command of a ring names its submission ring; the fields it uses stand in the ring's entry in host memory.
-/

namespace Sys2Proof

/-- How a DMA read fails (R297). -/
inductive DmaError where
  | timeout | urOrCa | poisoned
deriving DecidableEq, Repr

/-- The violations of R273 and R297 by an access or a TLP. -/
inductive BarViolation where
  | size | noBar | poisonedWrite | unexpectedCompletion
  /-- fatal: the severity that the host gave a malformed TLP -/
  | malformed (fatal : Bool)
deriving DecidableEq, Repr

/-- An access of the host: 4 or 8 bytes of BAR0 (R273), 4 bytes of BAR2 (R284), so many bytes of the BAR4 window after a wait in ns
(R331, R342), or a word of the configuration space (R271). -/
inductive BarKind where
  | word | pair | page | config
  | window (bytes wait : Nat)
deriving DecidableEq, Repr

/-- Host stores that reach host memory before a step. -/
abbrev Stores := List (Nat × List Byte)

/-- What H.265 decoding gave for one slice segment (R82, log 21): the cropped picture's size, component depths and chroma
format (3 for 4:0:0), its planes after the segment, the rows through the segment's last row, whether it ends the picture, whether
it was parsed to its end with every element in range and its whole payload consumed (R83), whether it is a dependent segment,
the picture order counts of its reference picture set, and an SPS that is unsupported or exceeds the stream's limits. -/
structure HevcSlice where
  w : Nat
  h : Nat
  depth : List Nat
  chroma : Nat
  planes : List (List (List Nat))
  through : Nat
  last : Bool
  parsed : Bool
  dependent : Bool
  refs : List Int
  limit : Bool
deriving DecidableEq, Repr

/-- What H.265 decoding gave for a whole picture: its picture order count, pic_output_flag, a picture hash that does not
match, the pictures output now, those that stay references, and the light-level and mastering SEI it carried. -/
structure HevcEnd where
  poc : Int
  output : Bool
  hashBad : Bool
  bump : List Int
  keep : List Int
  cll : Option (Nat × Nat)
  mdl : Option (Nat × Nat)
deriving DecidableEq, Repr

/-- What the board gives the device at power-on: TEST_MODE high, a 32.768 kHz crystal fitted, the EDITION pins, the flash: its size
in MiB, valid SFDP tables, and DTR reads; and the reference clocks that run, bit g for REFCLK_MGg (R385, R434 to R436). -/
structure Board where
  testMode : Bool
  x32 : Bool
  edition : Nat
  flashMib : Nat
  sfdp : Bool
  dtr : Bool
  refclk : Nat
deriving DecidableEq, Repr

inductive Instr where
  /-- SQ_DOORBELL_KICK (R284). BAR2 offset written, and the host stores posted before it (R285). -/
  | sqDoorbellKick (off : Nat) (stores : Stores)
  /-- SQ_POLL (R284). fails: host memory answers the record read with errors (R297). -/
  | sqPoll (sq : Nat) (stores : Stores) (fails : Bool)
  /-- SQ_ENGINE_SLEEP (R284). -/
  | sqEngineSleep (sq : Nat) (stores : Stores)
  /-- NOP (R286). -/
  | nop (sq : Nat)
  /-- DIAG_ECHO (R286). -/
  | diagEcho (sq : Nat)
  /-- DMA_DESCRIPTOR_DONE (R289). -/
  | dmaDescriptorDone (engine : Nat)
  /-- DMA_COMPLETION_TIMEOUT (R297). -/
  | dmaCompletionTimeout (engine : Nat) (kind : DmaError)
  /-- CQ_HELD_RELEASE (R280). -/
  | cqHeldRelease (cq : Nat) (stores : Stores)
  /-- VECTOR_MODERATION_TIMEOUT (R292). -/
  | vectorModerationTimeout (vector : Nat)
  /-- SQ_ENABLE (R275). -/
  | sqEnable (sq : Nat)
  /-- SQ_STOP (R290). enable: the ENABLE bit of the same write. -/
  | sqStop (sq : Nat) (enable : Bool)
  /-- SQ_DISABLE (R290). -/
  | sqDisable (sq : Nat)
  /-- CQ_ENABLE (R275). -/
  | cqEnable (cq depthExp vector : Nat)
  /-- CQ_DISABLE (R275). -/
  | cqDisable (cq : Nat)
  /-- MSIX_VECTOR_MASK (R295). -/
  | msixVectorMask (vector : Nat) (mask : Bool)
  /-- BAR0_UNMAPPED_ACCESS (R22). -/
  | bar0UnmappedAccess (off : Nat) (write : Bool)
  /-- GATED_DOMAIN_ACCESS (R23). write: the value written, none for a read. -/
  | gatedDomainAccess (off : Nat) (write : Option Nat)
  /-- BAR_ACCESS_INVALID (R273). -/
  | barAccessInvalid (kind : BarViolation) (off : Nat) (write : Bool)
  /-- FUNCTION_LEVEL_RESET (R274). -/
  | functionLevelReset
  /-- PCIE_HOT_RESET (R358). -/
  | pcieHotReset
  /-- D3HOT_ENTRY (R294). pmeEn: PME_En of the function's power-management register. -/
  | d3hotEntry (pmeEn : Bool)
  /-- D0_RETURN (R294). -/
  | d0Return
  /-- PCIE_LINK_DOWN (R296). aspm: the link goes to L1 or one of its substates, which is no loss of the link. -/
  | pcieLinkDown (aspm : Bool)
  /-- LAYER_SET (R41). -/
  | layerSet (sq : Nat)
  /-- VIEW_COMMIT (R44). -/
  | viewCommit (sq : Nat)
  /-- SURFACE_WRITE (R46). -/
  | surfaceWrite (sq : Nat)
  /-- SURFACE_WRITE_RESUME (R45). -/
  | surfaceWriteResume (surface : Nat)
  /-- GAZETTEER_UPDATE (R50). -/
  | gazetteerUpdate (sq : Nat)
  /-- SHEET_CAL_SET (R52). -/
  | sheetCalSet (sq : Nat)
  /-- PRJ_COEF_WRITE (R59). -/
  | prjCoefWrite (word value : Nat)
  /-- COMPOSITION_START (R33). -/
  | compositionStart (view : Nat)
  /-- COMPOSITION_LATEST_START (R33). -/
  | compositionLatestStart (view : Nat)
  /-- COMPOSITION_DONE (R33). -/
  | compositionDone (view : Nat)
  /-- LATITUDE_COMPOSE (R32). -/
  | latitudeCompose (view latitude : Nat)
  /-- SHEET_OUTPUT_START (R51). -/
  | sheetOutputStart (sheet : Nat)
  /-- UNIT_EMISSION_INSTANT (R188). -/
  | unitEmissionInstant (sheet unit : Nat)
  /-- STREAM_OPEN (R67). -/
  | streamOpen (sq : Nat)
  /-- STREAM_CLOSE (R70). -/
  | streamClose (sq : Nat)
  /-- STREAM_DATA (R75). -/
  | streamData (sq : Nat)
  /-- STREAM_DATA_RESUME (R75). -/
  | streamDataResume (stream : Nat)
  /-- STREAM_CONCEAL_SET (R87). -/
  | streamConcealSet (sq : Nat)
  /-- STREAM_PACKET_RECEIVE (R71). -/
  | streamPacketReceive (stream : Nat) (packet : List Byte)
  /-- REORDER_TIMEOUT (R72). -/
  | reorderTimeout (stream : Nat)
  /-- ST2110_BAND_COMMIT (R74). -/
  | st2110BandCommit (stream : Nat)
  /-- DISPATCH_PICTURE (R79). -/
  | dispatchPicture (core : Nat)
  /-- CONTEXT_SWITCH_DONE (R63). -/
  | contextSwitchDone (core : Nat)
  /-- SLICE_DECODE_DONE (R83). hevc: what H.265 decoding gave (log 21), for an HEVC stream. -/
  | sliceDecodeDone (core : Nat) (hevc : Option HevcSlice)
  /-- PICTURE_DECODE_DONE (R147). hevc: as above, for the whole picture. -/
  | pictureDecodeDone (core : Nat) (hevc : Option HevcEnd)
  /-- PICTURE_DEADLINE (R80). -/
  | pictureDeadline (stream : Nat)
  /-- CORE_ENABLE_WRITE (R79). -/
  | coreEnableWrite (value : Nat)
  /-- ENC_REFRESH (R153). -/
  | encRefresh (sheet : Nat) (all : Bool)
  /-- CELL_ROW_CODE (R161). -/
  | cellRowCode (sheet : Nat) (poisoned : Bool)
  /-- RC_CAPTURE (R170). -/
  | rcCapture (sq : Nat)
  /-- ROLLCALL (R181). -/
  | rollcall (sq : Nat)
  /-- ROLLCALL_RSP_RECEIVE (R180). -/
  | rollcallRspReceive (port : Nat) (frame : List Byte)
  /-- ROLLCALL_WINDOW_END (R181). -/
  | rollcallWindowEnd (port : Nat)
  /-- CAL_ACK_TIMEOUT (R181). -/
  | calAckTimeout (port : Nat)
  /-- BACKGROUND_PING (R181). -/
  | backgroundPing
  /-- NACK_REPORT_RECEIVE (R183). -/
  | nackReportReceive (port : Nat) (frame : List Byte)
  /-- PRESENT_SCHEDULE (R187). -/
  | presentSchedule (sq : Nat)
  /-- SCHEDULE_FIRST_PRESENT (R187). -/
  | scheduleFirstPresent
  /-- LAUNCH_IDLE_START (R192). -/
  | launchIdleStart (port : Nat)
  /-- PRESENT_LAUNCH (R192). -/
  | presentLaunch (port : Nat)
  /-- HOLD (R194). -/
  | hold (sq : Nat)
  /-- HOLD_INSTANT (R194). -/
  | holdInstant
  /-- RESUME_INSTANT (R194). -/
  | resumeInstant
  /-- MER_TIME_LATCH (R201). The other bits of the same write follow. -/
  | merTimeLatch (set step : Bool)
  /-- MER_TIME_SET (R202). -/
  | merTimeSet (latch step : Bool)
  /-- MER_TIME_STEP (R202). -/
  | merTimeStep (latch set : Bool)
  /-- MER_FREQ_ADJ_WRITE (R200). -/
  | merFreqAdjWrite (value : Nat)
  /-- MER_SERVO_OFFSET_WRITE (R213). -/
  | merServoOffsetWrite (upper : Nat)
  /-- SERVO_SAMPLE (R215). The offset in 1/16 ns. -/
  | servoSample (offset : Int)
  /-- HOLDOVER_TIMEOUT (R217). -/
  | holdoverTimeout
  /-- PTP_MESSAGE_RECEIVE (R212). stamp: the ingress stamp in 1/16 ns. -/
  | ptpMessageReceive (port : Nat) (frame : List Byte) (stamp : Int)
  /-- PTP_SYNC_INTERVAL (R207). -/
  | ptpSyncInterval (port : Nat)
  /-- PTP_ANNOUNCE_INTERVAL (R210). -/
  | ptpAnnounceInterval (port : Nat)
  /-- TRIGGER_ARM (R219). fields: the whole word written. -/
  | triggerArm (trigger fields : Nat)
  /-- TRIGGER_DISARM (R223). fields: the whole word written. -/
  | triggerDisarm (trigger fields : Nat)
  /-- TRIGGER_INSTANT (R218). -/
  | triggerInstant (trigger : Nat)
  /-- TRIGGER_PULSE_END (R220). -/
  | triggerPulseEnd (trigger : Nat)
  /-- PPS_OUT_PULSE (R224). -/
  | ppsOutPulse
  /-- PIN_EDGE_CAPTURE (R225). -/
  | pinEdgeCapture (sync falling : Bool)
  /-- MER_CAPTURE_POP (R225). -/
  | merCapturePop
  /-- PORT_CONFIG (R232). -/
  | portConfig (sq : Nat)
  /-- PORT_MEASURE (R235). -/
  | portMeasure (sq : Nat)
  /-- AUTO_NEGOTIATION_DONE (R233). The partner's abilities and FEC requests (log 22). -/
  | autoNegotiationDone (port ability fec : Nat)
  /-- LINK_TRAINING_DONE (R233). -/
  | linkTrainingDone (port : Nat)
  /-- LINK_TRAINING_TIMEOUT (R233). -/
  | linkTrainingTimeout (port : Nat)
  /-- LINK_LOCK_HELD (R233). -/
  | linkLockHeld (port : Nat)
  /-- LINK_LOSS (R233). -/
  | linkLoss (port : Nat)
  /-- LINK_FLAP_HOLD_END (R233). -/
  | linkFlapHoldEnd (port : Nat)
  /-- LANE_ADAPT_STEP (R416). The directions of the CTLE gain and of the DFE taps that the lane's own adaptation chose. -/
  | laneAdaptStep (lane : Nat) (ctle : Int) (dfe : List Int)
  /-- FRAME_LOOKUP (R243). fault: 0 none, 1 a bad FCS or error block, 2 touched by an uncorrectable codeword, 3 cut short as the link goes down; codewords corrected and uncorrectable since the last frame. -/
  | frameLookup (port : Nat) (frame : List Byte) (fault corrected uncorrectable : Nat)
  /-- PAUSE_FRAME_RECEIVE (R234). -/
  | pauseFrameReceive (port : Nat) (frame : List Byte)
  /-- TABLE_UPDATE (R245). -/
  | tableUpdate (sq : Nat)
  /-- TABLE_FENCE_REACHED (R246). -/
  | tableFenceReached (table : Nat)
  /-- TABLE_FENCE_TIMEOUT (R246). -/
  | tableFenceTimeout (table : Nat)
  /-- MIRROR_SET (R249). -/
  | mirrorSet (sq : Nat)
  /-- D2D_FLIT_RETRY (R13). -/
  | d2dFlitRetry (die : Nat)
  /-- DIE_LINK_DOWN (R14). -/
  | dieLinkDown (die : Nat)
  /-- DIE_LINK_RETRAIN (R14). -/
  | dieLinkRetrain (die : Nat)
  /-- DIE_LINK_RETURN (R14). -/
  | dieLinkReturn (die : Nat)
  /-- TM_FRAME_SELECT (R256). -/
  | tmFrameSelect (port : Nat)
  /-- SHAPER_SET (R260). -/
  | shaperSet (sq : Nat)
  /-- SHAPER_REFILL (R259). -/
  | shaperRefill (port cls : Nat)
  /-- WHEEL_OVERFLOW_SCAN (R259). -/
  | wheelOverflowScan
  /-- METER_SET (R263). -/
  | meterSet (sq : Nat)
  /-- GATE_LIST_SET (R267). -/
  | gateListSet (sq : Nat)
  /-- GATE_LIST_START (R267). -/
  | gateListStart (port : Nat)
  /-- GATE_ENTRY_CHANGE (R264). -/
  | gateEntryChange (port : Nat)
  /-- EVENT_DELIVER (R304). -/
  | eventDeliver
  /-- INT_EVQ_POP (R305). -/
  | intEvqPop
  /-- INT_SRC_ACK (R303). -/
  | intSrcAck (source : Nat)
  /-- HARDWARE_FAULT (R310). domain: the domain that holds the macro, for ECC_UC_SRAM; the location code. -/
  | hardwareFault (source domain : Nat) (location : List Byte)
  /-- UC_RESET_DONE (R311). The unit, as R300 numbers it. -/
  | ucResetDone (unit : Nat)
  /-- SURVEY_DONE (R318). dmaFails: a DMA write of the host survey failed. -/
  | surveyDone (dmaFails : Bool)
  /-- FLT_STICKY_CLEAR (R314). The word of FLT_STICKY and the value written. -/
  | fltStickyClear (word value : Nat)
  /-- FLT_FIRST_CLEAR (R314). -/
  | fltFirstClear
  /-- FLT_TEST (R315). -/
  | fltTest (cls : Nat)
  /-- SURVEY_ARM (R317). -/
  | surveyArm (sq : Nat)
  /-- SURVEY_READ (R321). -/
  | surveyRead (sq : Nat)
  /-- MERGE_READ_RETURN (R336). The stack, the code word, the narrow writes (offset, bytes) that joined its entry, the memory port, and how long the request waited, ns. -/
  | mergeReadReturn (stack word : Nat) (writes : Stores) (port wait : Nat)
  /-- MERGE_ENTRY_TIMEOUT (R336). -/
  | mergeEntryTimeout (stack : Nat)
  /-- RETRAIN_HOLD (R333). The requests waiting for the pseudo-channel, each with its memory port and its wait, ns; per byte lane the new read centre, write centre and eye. -/
  | retrainHold (stack : Nat) (waiting : List (Nat × Nat)) (lanes : List (Nat × Nat × Nat))
  /-- RETRAIN_DEFERRED (R334). -/
  | retrainDeferred (stack : Nat)
  /-- TMR_SWEEP (R338). -/
  | tmrSweep
  /-- HBM_SCRUB_STEP (R340). The stack, and how long the scrubber's request waited, ns. -/
  | hbmScrubStep (stack wait : Nat)
  /-- SRAM_SCRUB_STEP (R340). The macro's size in words and its domain; last: the step ends the pass over all macros. -/
  | sramScrubStep (macro_ words domain : Nat) (last : Bool)
  /-- ECC_FLIP_ARM (R339). The word written to ECC_FLIP_CTRL. -/
  | eccFlipArm (value : Nat)
  /-- POWER_ON_RESET (R358). -/
  | powerOnReset (board : Board)
  /-- TRO_JUDGMENT (R352). -/
  | troJudgment (count : Nat)
  /-- XO_JUDGMENT (R352). -/
  | xoJudgment (count : Nat)
  /-- XO_AMPLITUDE_TIMEOUT (R352). -/
  | xoAmplitudeTimeout
  /-- PLL_LOCK (R349). -/
  | pllLock (pll : Nat)
  /-- PLL_UNLOCK (R349). -/
  | pllUnlock (pll : Nat)
  /-- PLL_RELOCK_TIMEOUT (R349). -/
  | pllRelockTimeout (pll : Nat)
  /-- CLK_PLL_FREQ_WRITE (R348). n as CLK_PLL_CFG numbers the PLLs. -/
  | clkPllFreqWrite (pll mhz : Nat)
  /-- XO_LOSS (R355). -/
  | xoLoss
  /-- TRO_CHECK (R357). -/
  | troCheck (count : Nat)
  /-- CLK_MEAS_START (R351). The word written to CLK_MEAS_CTRL. -/
  | clkMeasStart (value : Nat)
  /-- CLK_MEAS_DONE (R351). -/
  | clkMeasDone (count : Nat)
  /-- CLK_MEAS_NO_CLOCK (R351). -/
  | clkMeasNoClock
  /-- CLOCK_GATE_IDLE_CLOSE (R350). -/
  | clockGateIdleClose (domain : Nat)
  /-- GATE_BUSY_TIMEOUT (R373). -/
  | gateBusyTimeout (domain : Nat)
  /-- DRAIN_REPLY_TIMEOUT (R374). -/
  | drainReplyTimeout (domain : Nat)
  /-- PERST_ASSERT (R359). -/
  | perstAssert
  /-- PERST_DEASSERT (R363). The levels of EDITION[1:0]. -/
  | perstDeassert (edition : Nat)
  /-- RST_WARM (R358). The word written to RST_CTRL. -/
  | rstWarm (value : Nat)
  /-- RST_DOMAIN_GO (R374). -/
  | rstDomainGo (domain : Nat)
  /-- FIRMWARE_VERIFIED (R390). -/
  | firmwareVerified
  /-- HBM_TRAINING_DONE (R332). Per stack: trained, and contents kept (restore training); per byte lane read centre, write centre, eye, repaired; the highest temperature of each stack, °C. -/
  | hbmTrainingDone (trained kept : Bool × Bool) (lanes : List (Nat × Nat × Nat × Bool)) (temps : Int × Int)
  /-- STARTUP_EDITION_APPLY (R396). -/
  | startupEditionApply
  /-- POWER_STATE (R381). -/
  | powerState (sq : Nat)
  /-- WATCH_CONFIG (R382). -/
  | watchConfig (sq : Nat)
  /-- POWER_UNIT_ANSWER (R371). The unit's domain and the µs it defers for, 0 for none; what R372 refuses is refused. -/
  | powerUnitAnswer (domain deferUs : Nat)
  /-- POWER_DEFER_RETRY (R371). -/
  | powerDeferRetry (domain : Nat)
  /-- ENTRY_WINDOW_TIMEOUT (R371). -/
  | entryWindowTimeout
  /-- AUTO_DOMAIN_GATE (R368). -/
  | autoDomainGate (domain : Nat)
  /-- DOMAIN_WAKE_DONE (R368). -/
  | domainWakeDone (domain : Nat)
  /-- WATCH_ENTRY_PROCEED (R376). -/
  | watchEntryProceed
  /-- WATCH_SAMPLE (R377). Temperatures in 0.25 °C and rails in mV, lanes with signal detect, an edge on SYNC_IN. -/
  | watchSample (temps rails : List Int) (lanes : List Nat) (sync : Bool)
  /-- RTC_ALARM (R378). -/
  | rtcAlarm
  /-- RTC_SECOND_LOAD (R378). -/
  | rtcSecondLoad
  /-- WAKE_EVENT (R379). The sources of one LPO cycle, and the FE fault source of source 6. -/
  | wakeEvent (sources : Nat) (fault : Option Nat)
  /-- WATCH_WAKE_DONE (R380). The count of the XO judgment. -/
  | watchWakeDone (xoCount : Nat)
  /-- EDITION_LOAD (R397). -/
  | editionLoad (sq : Nat)
  /-- EDITION_SELECT (R398). -/
  | editionSelect (sq : Nat)
  /-- EDITION_APPLY_INSTANT (R398). -/
  | editionApplyInstant
  /-- FW_STAGE (R391). -/
  | fwStage (sq : Nat)
  /-- FW_ACTIVATE (R392). -/
  | fwActivate (sq : Nat)
  /-- FW_ACTIVATE_RESET (R392). -/
  | fwActivateReset
  /-- ATTEST (R404). -/
  | attest (sq : Nat)
  /-- DIAG_LIFECYCLE (R401). -/
  | diagLifecycle (sq : Nat)
  /-- DIAG_OWNER_BIND (R402). -/
  | diagOwnerBind (sq : Nat)
  /-- DIAG_PATCH_LOAD (R409). -/
  | diagPatchLoad (sq : Nat)
  /-- CMP_WATCHDOG (R407). -/
  | cmpWatchdog
  /-- WEAR_CURVE_SET (R417). -/
  | wearCurveSet (sq : Nat)
  /-- AGE_UPDATE_NOW (R419). -/
  | ageUpdateNow
  /-- AGEING_PASS (R419). -/
  | ageingPass
  /-- DOSE_SAVE (R421). -/
  | doseSave (sq : Nat)
  /-- DOSE_LOAD (R421). -/
  | doseLoad (sq : Nat)
  /-- DIAG_BG_READ (R423). -/
  | diagBgRead (sq : Nat)
  /-- SUMMARY_WRITE (R422). -/
  | summaryWrite
  /-- FAULT_LOG_FLUSH (R422). -/
  | faultLogFlush
  /-- TELEMETRY_ARM (R424). -/
  | telemetryArm (sq : Nat)
  /-- TELEMETRY_RECORD (R424). -/
  | telemetryRecord
  /-- SENSOR_SAMPLE (R425). Temperatures in 0.25 °C and rails in mV. -/
  | sensorSample (temps rails : List Int)
  /-- SMBUS_SET_OFFSET (R437). -/
  | smbusSetOffset (offset : Nat)
  /-- SMBUS_READ (R437). -/
  | smbusRead
  /-- SMBUS_WRITE (R437). -/
  | smbusWrite (value : Nat)
  /-- SMBUS_WAKE (R437). -/
  | smbusWake
  /-- SMBUS_COLD_RESET (R437). -/
  | smbusColdReset
  /-- SMBUS_WARM_RESET (R437). -/
  | smbusWarmReset
  /-- REGISTER_WRITE (R4). The kind of access, the offset in its BAR, the value. -/
  | registerWrite (kind : BarKind) (off value : Nat)
  /-- RC_REGISTER_READ (R4). The kind of access and the offset in its BAR. -/
  | rcRegisterRead (kind : BarKind) (off : Nat)
  /-- XO_RETURN (R354). The XO count against TRO. -/
  | xoReturn (count : Nat)
  /-- D2D_LINK_LOSS (R208). -/
  | d2dLinkLoss (die : Nat)
  /-- PCIE_LINK_RETURN (R296). The negotiated speed and width. -/
  | pcieLinkReturn (speed width : Nat)
  /-- PAUSE_QUANTA_EXPIRY (R234). -/
  | pauseQuantaExpiry (port : Nat)
  /-- PTP_DELAY_REQ_INTERVAL (R212). -/
  | ptpDelayReqInterval (port : Nat)
  /-- FLASH_PROGRAM_DONE (R391). ok: erase, programming and read-back succeeded. -/
  | flashProgramDone (ok : Bool)
  /-- EDITION_STAGING_DONE (R398). -/
  | editionStagingDone
  /-- EQUALISER_ESTIMATE_DONE (R235). Per lane of the port, insertion loss and SNR estimated in 0.1 dB. -/
  | equaliserEstimateDone (port : Nat) (lanes : List (Nat × Nat))
  /-- AGEING_PASS_DONE (R419). -/
  | ageingPassDone
deriving DecidableEq, Repr

end Sys2Proof
end

