-- ==== Sys2Proof/Decode.lean ====
section
/-!
DEFINITION. Table words: spec/opcode_table.json gives none of its rows any bits, so no word spells a command.
-/

namespace Sys2Proof

def decodeTableWord (_nbits _w : Nat) : Option Instr := none

end Sys2Proof
end

