-- ==== Sys2Proof/Config.lean ====
section
/-!
DEFINITION. What an implementation fixes or the spec leaves open: constants without a body, so that no proof can see their
values. Each is named in the assumption log.
-/

namespace Sys2Proof.Config

/-- The n-th free value: a number nothing constrains (log 5). -/
opaque free : Nat → Nat

/-- Coefficients of the built-in filter banks but for phase 0 and the last tap: bank, phase, tap (R38, log 6). -/
opaque filterH : Nat → Nat → Nat → Int
opaque filterV : Nat → Nat → Nat → Int

/-- What a built-in table of R37 adds to its curve, before the bound of 2 codes: table, LINEAR_PEAK, SDR_WHITE, code
(log 11). -/
opaque curveDev : Nat → Nat → Nat → Nat → Int
/-- Which free value an HLG power table holds at 0 where its exponent is negative: table, LINEAR_PEAK (log 11). -/
opaque curveAt : Nat → Nat → Nat

/-- SM3 digest of a byte string, as a number of 256 bits (GB/T 32905, log 12). -/
opaque sm3 : List Byte → Nat
/-- SM2 verification: public key, message, signature (GB/T 32918, log 12). -/
opaque sm2Verify : List Byte → List Byte → List Byte → Bool
/-- SM2 signature with the device's identity key: message to 64 bytes, r then s (log 12). -/
opaque sm2Sign : List Byte → List Byte

/-- The hash of the MAC table, from VLAN and address to a bucket (R244, log 13). -/
opaque macHash : Nat → Nat

/-- ALPHA of the internal ports, which R241 does not give (log 15). -/
opaque internalAlpha : Nat

/-- What R209 to R212 leave to the device's PTP messages (log 16): the traffic class of the Compass's PTP frames, and the
announced clockAccuracy, offsetScaledLogVariance, currentUtcOffset and timeSource. -/
opaque ptpClass : Nat
opaque ptpAccuracy : Nat
opaque ptpVariance : Nat
opaque ptpUtcOffset : Nat
opaque ptpTimeSource : Nat

/-- What R209 leaves to the Compass's own messages in the profiles with both transports (log 16): the ports whose messages at
intervals go over UDP/IPv4, and the IPv4 source address of the device. -/
opaque ptpUdp : Nat → Bool
opaque ptpSrcIp : Nat

/-- What R405 and R406 leave out of the Compass's control store (log 69): the words of the mask ROM, and where a nanoword holds
its SEQ (0 NEXT, 1 JUMP, 2 BRANCH, 3 CALL, 4 RETURN), its safe-point bit and its condition selects, none for one unused. -/
opaque microRom : Nat → Nat
opaque nanoRom : Nat → Nat
opaque nanoSeq : Nat → Nat
opaque nanoSafe : Nat → Bool
opaque nanoSelect : Nat → Nat → Option Nat

/-- The parts of the configuration space that R271 does not give (log 31): Onmond's vendor identifier, the revision, and the other
words, by offset. -/
opaque vendorId : Nat
opaque revisionId : Nat
opaque configSpace : Nat → Nat

end Sys2Proof.Config
end

