-- ==== Sys2Proof/Machine/Events.lean ====
section
/-!
DEFINITION. The event sources of R299 by name, and the class of each (R300).
-/

namespace Sys2Proof.Machine

/-- The classes of R9 and R300; the numbers are INT_SRC_CFG.CLASS. -/
inductive EvClass where
  | event | ce | uc | fe
deriving DecidableEq, Repr

def EvClass.code : EvClass → Nat
  | .event => 0
  | .ce => 1
  | .uc => 2
  | .fe => 3

namespace Ev

def CLK_XO_LOSS : Nat := 0
def CLK_TRO_FAIL : Nat := 1
def CLK_COAST : Nat := 2
def CLK_PLL_UNLOCK_SPLL : Nat := 3
def CLK_PLL_UNLOCK_PPLL : Nat := 4
def CLK_PLL_UNLOCK_FPLL : Nat := 5
def CLK_PLL_UNLOCK_CPLL : Nat := 6
def CLK_PLL_UNLOCK_MPLL : Nat := 7
def CLK_PLL_UNLOCK_TPLL : Nat := 8
def CLK_MEASURE_DONE : Nat := 9
def RST_CLOCK_LOSS : Nat := 10
def RST_WARM : Nat := 11
def RST_PERST : Nat := 12
def RST_FLR : Nat := 13
def PWR_GATE_TIMEOUT : Nat := 64
def PWR_STANDIN_ACCESS : Nat := 65
def PWR_ENTRY_REFUSED : Nat := 66
def PWR_ENTRY_DEFERRED : Nat := 67
def PWR_WAKE : Nat := 68
def PWR_WATCH_MATCH : Nat := 69
def PWR_STATE_CHANGE : Nat := 70
def HIF_BAR0_UNMAPPED : Nat := 128
def HIF_BAR_ACCESS : Nat := 129
def HIF_RING_CONFIG : Nat := 130
def HIF_RING_ERROR : Nat := 131
def HIF_CQ_FULL : Nat := 132
def HIF_DOORBELL_INVALID : Nat := 133
def HIF_CPL_TIMEOUT : Nat := 134
def HIF_POISONED : Nat := 135
def HIF_LINK_DOWN : Nat := 136
def HIF_DMA_FAULT : Nat := 137
def HIF_CTL_FAULT : Nat := 138
def INT_EVQ_OVERFLOW : Nat := 192
def FLT_MERGED : Nat := 193
def FLT_UNIT_HELD : Nat := 194
def FLT_UNIT_RESTORED : Nat := 195
def FLT_SURVEY_DONE : Nat := 196
def FLT_SURVEY_FAILED : Nat := 197
def FLT_TEST_CE : Nat := 198
def FLT_TEST_UC : Nat := 199
def FLT_TEST_FE : Nat := 200
def MEM_TRAIN_FAIL : Nat := 256
def MEM_RETRAIN_DONE : Nat := 257
def MEM_RETRAIN_DEFERRED : Nat := 258
def MEM_TEMP_DRIFT : Nat := 259
def MEM_QOS_LATE : Nat := 260
def MEM_CHANNEL_FAULT_A0 : Nat := 272
def MEM_CHANNEL_FAULT_A1 : Nat := 273
def MEM_CHANNEL_FAULT_A2 : Nat := 274
def MEM_CHANNEL_FAULT_A3 : Nat := 275
def MEM_CHANNEL_FAULT_A4 : Nat := 276
def MEM_CHANNEL_FAULT_A5 : Nat := 277
def MEM_CHANNEL_FAULT_A6 : Nat := 278
def MEM_CHANNEL_FAULT_A7 : Nat := 279
def MEM_CHANNEL_FAULT_A8 : Nat := 280
def MEM_CHANNEL_FAULT_A9 : Nat := 281
def MEM_CHANNEL_FAULT_A10 : Nat := 282
def MEM_CHANNEL_FAULT_A11 : Nat := 283
def MEM_CHANNEL_FAULT_A12 : Nat := 284
def MEM_CHANNEL_FAULT_A13 : Nat := 285
def MEM_CHANNEL_FAULT_A14 : Nat := 286
def MEM_CHANNEL_FAULT_A15 : Nat := 287
def MEM_CHANNEL_FAULT_B0 : Nat := 288
def MEM_CHANNEL_FAULT_B1 : Nat := 289
def MEM_CHANNEL_FAULT_B2 : Nat := 290
def MEM_CHANNEL_FAULT_B3 : Nat := 291
def MEM_CHANNEL_FAULT_B4 : Nat := 292
def MEM_CHANNEL_FAULT_B5 : Nat := 293
def MEM_CHANNEL_FAULT_B6 : Nat := 294
def MEM_CHANNEL_FAULT_B7 : Nat := 295
def MEM_CHANNEL_FAULT_B8 : Nat := 296
def MEM_CHANNEL_FAULT_B9 : Nat := 297
def MEM_CHANNEL_FAULT_B10 : Nat := 298
def MEM_CHANNEL_FAULT_B11 : Nat := 299
def MEM_CHANNEL_FAULT_B12 : Nat := 300
def MEM_CHANNEL_FAULT_B13 : Nat := 301
def MEM_CHANNEL_FAULT_B14 : Nat := 302
def MEM_CHANNEL_FAULT_B15 : Nat := 303
def ECC_CE_SRAM : Nat := 320
def ECC_UC_SRAM : Nat := 321
def ECC_CE_HBM : Nat := 322
def ECC_UC_HBM : Nat := 323
def ECC_TMR_MISMATCH : Nat := 324
def ECC_TMR_FAIL : Nat := 325
def ECC_SCRUB_PASS : Nat := 326
def ECC_FLIP_DONE : Nat := 327
def ECC_MERGE_FAULT : Nat := 328
def SCR_STREAM_SYNC : Nat := 384
def SCR_EOS : Nat := 385
def SCR_PACKET_LOSS : Nat := 386
def SCR_INTAKE_PRESSURE : Nat := 387
def SCR_INPUT_OVERFLOW : Nat := 388
def SCR_SLICE_LOST : Nat := 389
def SCR_SLICE_ERROR : Nat := 390
def SCR_CRC_FAIL : Nat := 391
def SCR_HASH_MISMATCH : Nat := 392
def SCR_MISSING_REF : Nat := 393
def SCR_DEADLINE_MISS : Nat := 394
def SCR_PICTURE_SKIPPED : Nat := 395
def SCR_SHED : Nat := 396
def SCR_STREAM_LIMIT : Nat := 397
def SCR_RTP_INVALID : Nat := 398
def SCR_RTP_RESYNC : Nat := 399
def SCR_TIME_DISORDER : Nat := 400
def SCR_2110_INVALID : Nat := 401
def SCR_2110_NO_MARKER : Nat := 402
def SCR_CORE_RESET : Nat := 403
def SCR_RC_FLOOR : Nat := 404
def SCR_RC_REPEAT : Nat := 405
def SCR_ENC_CLOSED_EARLY : Nat := 406
def SCR_CORE_FAULT0 : Nat := 448
def SCR_CORE_FAULT1 : Nat := 449
def SCR_CORE_FAULT2 : Nat := 450
def SCR_CORE_FAULT3 : Nat := 451
def SCR_CORE_FAULT4 : Nat := 452
def SCR_CORE_FAULT5 : Nat := 453
def SCR_CORE_FAULT6 : Nat := 454
def SCR_CORE_FAULT7 : Nat := 455
def SCR_CORE_FAULT8 : Nat := 456
def SCR_CORE_FAULT9 : Nat := 457
def SCR_CORE_FAULT10 : Nat := 458
def SCR_CORE_FAULT11 : Nat := 459
def SCR_CORE_FAULT12 : Nat := 460
def SCR_CORE_FAULT13 : Nat := 461
def SCR_CORE_FAULT14 : Nat := 462
def SCR_CORE_FAULT15 : Nat := 463
def SCR_CORE_FAULT16 : Nat := 464
def SCR_CORE_FAULT17 : Nat := 465
def SCR_CORE_FAULT18 : Nat := 466
def SCR_CORE_FAULT19 : Nat := 467
def SCR_CORE_FAULT20 : Nat := 468
def SCR_CORE_FAULT21 : Nat := 469
def SCR_CORE_FAULT22 : Nat := 470
def SCR_CORE_FAULT23 : Nat := 471
def SCR_SHARED_FAULT : Nat := 472
def PRJ_LATE_LATITUDE : Nat := 512
def PRJ_SOURCE_LATE : Nat := 513
def PRJ_FRAME_LATE : Nat := 514
def PRJ_VIEW_APPLIED : Nat := 515
def PRJ_SOURCE_EMPTY : Nat := 516
def PRJ_DOSE_SATURATED : Nat := 517
def PRJ_SHEET_LATE : Nat := 518
def PRJ_COEF_BUSY : Nat := 519
def GZT_APPLIED : Nat := 520
def PRJ_LANE_FAULT0 : Nat := 544
def PRJ_LANE_FAULT1 : Nat := 545
def PRJ_LANE_FAULT2 : Nat := 546
def PRJ_LANE_FAULT3 : Nat := 547
def PRJ_CTL_FAULT : Nat := 548
def SHT_ROLLCALL_DONE : Nat := 576
def SHT_CABINET_SILENT : Nat := 577
def SHT_DELAY_CHANGED : Nat := 578
def SHT_CAPABILITY_MISMATCH : Nat := 579
def SHT_NACK : Nat := 580
def SHT_PRESENT_PARTIAL : Nat := 581
def SHT_LAUNCH_LATE : Nat := 582
def SHT_NO_DELAY : Nat := 583
def SHT_REPLY_INVALID : Nat := 584
def MER_STEP : Nat := 640
def MER_TS_INVALID : Nat := 641
def MER_SLEW : Nat := 642
def MER_SERVO_LOCK : Nat := 643
def MER_SERVO_UNLOCK : Nat := 644
def MER_HOLDOVER : Nat := 645
def MER_TRIG_INVALID : Nat := 646
def MER_TRIG_LATE : Nat := 647
def MER_TRIG_FIRED : Nat := 648
def MER_TRIG_OWNED : Nat := 649
def MER_CAPTURE_OVERFLOW : Nat := 650
def MER_LAUNCH_LATE : Nat := 651
def MER_LAUNCH_EMPTY : Nat := 652
def MER_PTP_INVALID : Nat := 653
def MER_PTP_GM_CHANGE : Nat := 654
def MER_FAULT : Nat := 672
def PRT_LINK_UP : Nat := 704
def PRT_LINK_DOWN : Nat := 705
def PRT_AN_FAIL : Nat := 706
def PRT_TRAIN_FAIL : Nat := 707
def PRT_LINK_FLAP : Nat := 708
def PRT_MEASURE_DONE : Nat := 709
def PRT_RX_ERROR : Nat := 710
def PRT_FEC_DEGRADE : Nat := 711
def PRT_MG_FAULT0 : Nat := 736
def PRT_MG_FAULT1 : Nat := 737
def PRT_MG_FAULT2 : Nat := 738
def PRT_MG_FAULT3 : Nat := 739
def PRT_D2D_RETRY_W : Nat := 740
def PRT_D2D_RETRY_E : Nat := 741
def PRT_D2D_DOWN_W : Nat := 742
def PRT_D2D_DOWN_E : Nat := 743
def SW_STOMP : Nat := 768
def SW_POOL_EMPTY : Nat := 769
def SW_TABLE_FENCE : Nat := 770
def SW_MCAST_EMPTY : Nat := 771
def SW_S1_FAULT : Nat := 800
def SW_S2_FAULT : Nat := 801
def TM_GATE_ACTIVE : Nat := 832
def TM_GATE_OVERSIZE : Nat := 833
def TM_WHEEL_LATE : Nat := 834
def TM_FAULT : Nat := 864
def SEC_AUTH_FAIL : Nat := 896
def SEC_LIFECYCLE_CHANGE : Nat := 897
def SEC_OTP_CE : Nat := 898
def SEC_FAULT : Nat := 899
def CMP_PATCH_APPLIED : Nat := 928
def CMP_STORE_CE : Nat := 929
def CMP_WATCHDOG : Nat := 930
def SNS_RAIL_LOW : Nat := 960
def SNS_RAIL_HIGH : Nat := 961
def SNS_TEMP_HIGH : Nat := 962
def SNS_RAIL_CRIT : Nat := 963
def SNS_TEMP_CRIT : Nat := 964

end Ev

/-- The FE sources of R299. -/
def feSources : List Nat := [0, 1, 5, 6, 7, 200, 256, 325, 930, 963, 964]

/-- The CE sources of R299. -/
def ceSources : List Nat := [198, 320, 322, 324, 740, 741, 898, 929]

/-- The UC sources of R299. -/
def ucSources : List Nat :=
  [3, 4, 8, 137, 138, 199] ++
  [272, 273, 274, 275, 276, 277, 278, 279, 280, 281, 282, 283, 284, 285, 286, 287, 288, 289, 290, 291, 292, 293, 294, 295, 296, 297, 298, 299, 300, 301, 302, 303, 321, 323, 328] ++
  [448, 449, 450, 451, 452, 453, 454, 455, 456, 457, 458, 459, 460, 461, 462, 463, 464, 465, 466, 467, 468, 469, 470, 471, 472, 544, 545, 546, 547, 548] ++
  [672, 736, 737, 738, 739, 742, 743, 800, 801, 864, 899]

/-- The numbers that R299 gives a name, as inclusive ranges; every other number is reserved. -/
def namedRanges : List (Nat × Nat) := [(0, 13), (64, 70), (128, 138), (192, 200), (256, 260), (272, 303), (320, 328), (384, 406), (448, 472), (512, 520), (544, 548), (576, 584), (640, 654), (672, 672), (704, 711), (736, 743), (768, 771), (800, 801), (832, 834), (864, 864), (896, 899), (928, 930), (960, 964)]

def sourceNamed (n : Nat) : Bool := namedRanges.any fun r => r.1 ≤ n && n ≤ r.2

/-- The fixed class of a source (R300). -/
def sourceClass (n : Nat) : EvClass :=
  if feSources.contains n then .fe
  else if ucSources.contains n then .uc
  else if ceSources.contains n then .ce
  else .event

end Sys2Proof.Machine
end

