-- ==== Sys2Proof/Machine/RegMap.lean ====
section
/-!
DEFINITION. The BAR0 register map, written out from the register tables of the chapters (R60, R90, R171, R198, R229,
R252, R253, R270, R298, R323, R324, R344, R365, R366, R384, R412 to R414, R428): every register with its offset, its
copies, its fields, their access types (R4) and reset values (R361).
-/

namespace Sys2Proof.Machine

/-- The access types of R4; RSV fields are the bits that no field names. -/
inductive Acc where
  | rw | ro | wo | w1c | w1s | rc
deriving DecidableEq, Repr

/-- How a field's reset value is given: one number, or a table of the chapter indexed by the copy. -/
inductive RstRule where
  | const (n : Nat)
  /-- c mod 4 (HIF_DMA_CH.ENGINE). -/
  | mod4
  /-- INT_SRC_CFG.CLASS, by R299. -/
  | srcClass
  /-- INT_SRC_CFG.EVQ_EN: 1 for the fault classes. -/
  | srcEvq
  /-- MEM_QOS_CFG.TARGET_NS, by R330. -/
  | qosTarget
  /-- CLK_PLL_CFG.FREQ_MHZ, by R346. -/
  | pllNominal
  /-- MER_TS_CORR.EGRESS and INGRESS, by R205 in 1/16 ns. -/
  | tsEgress
  | tsIngress
  /-- SNS_TEMP_THR.HIGH and CRIT on the -FC grade (log 3). -/
  | tempHigh
  | tempCrit
  /-- SNS_RAIL_THR fields: nominal in percent, rounded to the nearest mV. -/
  | rail (percent : Nat)
deriving DecidableEq, Repr

structure FieldD where
  name : String
  lo : Nat
  width : Nat
  acc : Acc
  reset : RstRule
deriving DecidableEq, Repr

/-- A register: offset of copy 0, outer stride and count, inner stride and count, width in 32-bit words, fields. -/
structure RegD where
  name : String
  base : Nat
  s1 : Nat
  n1 : Nat
  s2 : Nat
  n2 : Nat
  words : Nat
  fields : List FieldD
deriving DecidableEq, Repr

/-- A field's place: the register's offset, strides and counts of its copies, and the bits within it. -/
structure Fld where
  base : Nat
  s1 : Nat
  n1 : Nat
  s2 : Nat
  n2 : Nat
  lo : Nat
  width : Nat
deriving DecidableEq, Repr

def regTable0 : List RegD := [
    ⟨"PRJ_CTRL", 0x01C00000, 0, 1, 0, 1, 1, [
      ⟨"DOSE_EN", 0, 1, .rw, .const 1⟩,
      ⟨"GAIN_EN", 1, 1, .rw, .const 1⟩,
      ⟨"DITHER_TEMPORAL", 2, 1, .rw, .const 1⟩]⟩,
    ⟨"PRJ_POOL_BASE", 0x01C00008, 0, 1, 0, 1, 2, [
      ⟨"BASE", 0, 64, .ro, .const 0⟩]⟩,
    ⟨"PRJ_POOL", 0x01C00010, 0, 1, 0, 1, 1, [
      ⟨"SIZE", 0, 16, .ro, .const 0⟩,
      ⟨"FREE", 16, 16, .ro, .const 0⟩]⟩,
    ⟨"PRJ_LANE_LOAD", 0x01C00020, 0, 1, 4, 4, 1, [
      ⟨"SHEET_RATE", 0, 16, .ro, .const 0⟩,
      ⟨"COMP_RATE", 16, 16, .ro, .const 0⟩]⟩,
    ⟨"PRJ_VIEW_GEOM", 0x01C00100, 0, 1, 8, 8, 1, [
      ⟨"WIDTH", 0, 16, .ro, .const 0⟩,
      ⟨"HEIGHT", 16, 16, .ro, .const 0⟩]⟩,
    ⟨"PRJ_VIEW_STATE", 0x01C00104, 0, 1, 8, 8, 1, [
      ⟨"ENABLED", 0, 1, .ro, .const 0⟩,
      ⟨"THROUGH", 1, 1, .ro, .const 0⟩,
      ⟨"ENCODING", 2, 2, .ro, .const 0⟩,
      ⟨"LAYERS", 4, 5, .ro, .const 0⟩,
      ⟨"PICTURE", 16, 16, .ro, .const 0⟩]⟩,
    ⟨"PRJ_VIEW_LATE", 0x01C00140, 0, 1, 4, 8, 1, [
      ⟨"LATE_LATITUDES", 0, 16, .rc, .const 0⟩,
      ⟨"FRAME_LATE", 16, 16, .rc, .const 0⟩]⟩,
    ⟨"PRJ_COEF_SEL", 0x01C00200, 0, 1, 0, 1, 1, [
      ⟨"BANK", 0, 3, .rw, .const 0⟩]⟩,
    ⟨"PRJ_COEF_DATA", 0x01C01000, 0, 1, 4, 1024, 1, [
      ⟨"COEF", 0, 12, .rw, .const 0⟩]⟩,
    ⟨"GZT_STATUS", 0x01C08000, 0, 1, 0, 1, 1, [
      ⟨"ENABLED_SHEETS", 0, 13, .ro, .const 0⟩,
      ⟨"PENDING", 16, 1, .ro, .const 0⟩]⟩,
    ⟨"GZT_REJECT", 0x01C08004, 0, 1, 0, 1, 1, [
      ⟨"SHEET", 0, 12, .ro, .const 0⟩,
      ⟨"REASON", 16, 4, .ro, .const 0⟩,
      ⟨"VALID", 31, 1, .w1c, .const 0⟩]⟩,
    ⟨"GZT_ENTRY", 0x01C10000, 0, 1, 64, 4096, 16, [
      ⟨"ENTRY", 0, 512, .ro, .const 0⟩]⟩]

def regTable1 : List RegD := [
    ⟨"SCR_CORE_STATUS", 0x01800000, 0, 1, 4, 24, 1, [
      ⟨"STATE", 0, 3, .ro, .const 0⟩,
      ⟨"SHEET", 3, 1, .ro, .const 0⟩,
      ⟨"ID", 16, 12, .ro, .const 0⟩]⟩,
    ⟨"SCR_CORE_ENABLE", 0x01800080, 0, 1, 0, 1, 1, [
      ⟨"ENABLE", 0, 24, .rw, .const 16777215⟩]⟩,
    ⟨"SCR_DISPATCH_CTRL", 0x01800084, 0, 1, 0, 1, 1, [
      ⟨"SHED_AFTER", 0, 4, .rw, .const 8⟩,
      ⟨"SKIP_NONREF", 4, 1, .rw, .const 1⟩,
      ⟨"ADMIT_LIMIT", 16, 16, .rw, .const 22800⟩]⟩,
    ⟨"SCR_LOAD", 0x01800088, 0, 1, 0, 1, 1, [
      ⟨"ADMITTED", 0, 16, .ro, .const 0⟩,
      ⟨"MEASURED", 16, 16, .ro, .const 0⟩]⟩,
    ⟨"SCR_MISS_COUNT", 0x0180008C, 0, 1, 0, 1, 1, [
      ⟨"MISSES", 0, 32, .rc, .const 0⟩]⟩,
    ⟨"SCR_POOL_BASE", 0x01800090, 0, 1, 0, 1, 2, [
      ⟨"BASE", 0, 64, .ro, .const 0⟩]⟩,
    ⟨"SCR_POOL", 0x01800098, 0, 1, 0, 1, 1, [
      ⟨"SIZE", 0, 16, .ro, .const 0⟩,
      ⟨"FREE", 16, 16, .ro, .const 0⟩]⟩,
    ⟨"SCR_INTAKE_STATUS", 0x01800100, 0, 1, 0, 1, 1, [
      ⟨"CELLS", 0, 16, .ro, .const 0⟩,
      ⟨"HIGH_WATER", 16, 16, .rc, .const 0⟩]⟩,
    ⟨"SCR_INTAKE_DROP", 0x01800104, 0, 1, 0, 1, 1, [
      ⟨"DROPPED", 0, 32, .rc, .const 0⟩]⟩,
    ⟨"SCR_STREAM_SEL", 0x01800200, 0, 1, 0, 1, 1, [
      ⟨"STREAM", 0, 9, .rw, .const 0⟩]⟩,
    ⟨"SCR_STREAM_STATE", 0x01800204, 0, 1, 0, 1, 1, [
      ⟨"STATE", 0, 3, .ro, .const 0⟩,
      ⟨"CONCEALED", 3, 1, .ro, .const 0⟩,
      ⟨"MODE", 4, 2, .ro, .const 0⟩,
      ⟨"SHEDDING", 6, 1, .ro, .const 0⟩,
      ⟨"PICTURES", 16, 16, .ro, .const 0⟩]⟩,
    ⟨"SCR_STREAM_LOSS", 0x01800208, 0, 1, 0, 1, 1, [
      ⟨"PACKETS", 0, 16, .rc, .const 0⟩,
      ⟨"SLICES", 16, 16, .rc, .const 0⟩]⟩]

def regTable2 : List RegD := [
    ⟨"SCR_STREAM_LATE", 0x0180020C, 0, 1, 0, 1, 1, [
      ⟨"DEADLINE_MISS", 0, 16, .rc, .const 0⟩,
      ⟨"SKIPPED", 16, 16, .rc, .const 0⟩]⟩,
    ⟨"SCR_STREAM_COMMIT", 0x01800210, 0, 1, 0, 1, 1, [
      ⟨"ROWS", 0, 16, .ro, .const 0⟩,
      ⟨"PICTURE", 16, 16, .ro, .const 0⟩]⟩,
    ⟨"SCR_STREAM_CLL", 0x01800220, 0, 1, 0, 1, 1, [
      ⟨"MAX_CLL", 0, 16, .ro, .const 0⟩,
      ⟨"MAX_FALL", 16, 16, .ro, .const 0⟩]⟩,
    ⟨"SCR_STREAM_MDL", 0x01800224, 0, 1, 0, 1, 1, [
      ⟨"MAX_LUM", 0, 16, .ro, .const 0⟩,
      ⟨"MIN_LUM", 16, 16, .ro, .const 0⟩]⟩,
    ⟨"SCR_ENC_CTRL", 0x01880000, 0, 1, 0, 1, 1, [
      ⟨"I_PERIOD", 0, 8, .rw, .const 120⟩,
      ⟨"ANCHOR_MODE", 8, 1, .rw, .const 0⟩,
      ⟨"TS_EN", 9, 1, .rw, .const 0⟩,
      ⟨"ACT_STRENGTH", 10, 2, .rw, .const 2⟩,
      ⟨"QP_INIT", 12, 6, .rw, .const 32⟩,
      ⟨"TS_QP", 18, 6, .rw, .const 0⟩,
      ⟨"ME_EN", 24, 1, .rw, .const 1⟩]⟩,
    ⟨"SCR_RC_CTRL", 0x01880004, 0, 1, 0, 1, 1, [
      ⟨"TARGET_PCT", 0, 7, .rw, .const 75⟩]⟩,
    ⟨"SCR_ENC_REFRESH", 0x01880008, 0, 1, 0, 1, 1, [
      ⟨"SHEET", 0, 12, .wo, .const 0⟩,
      ⟨"ALL", 31, 1, .wo, .const 0⟩]⟩,
    ⟨"SCR_ENC_FLOOR_COUNT", 0x01880080, 0, 1, 0, 1, 1, [
      ⟨"FLOOR_PICTURES", 0, 16, .rc, .const 0⟩,
      ⟨"REPEAT_PICTURES", 16, 16, .rc, .const 0⟩]⟩,
    ⟨"SCR_ENC_EARLY_COUNT", 0x01880084, 0, 1, 0, 1, 1, [
      ⟨"CLOSED_EARLY", 0, 16, .rc, .const 0⟩,
      ⟨"ABANDONED_ROWS", 16, 16, .rc, .const 0⟩]⟩,
    ⟨"SCR_ENC_SEL", 0x01880100, 0, 1, 0, 1, 1, [
      ⟨"SHEET", 0, 12, .rw, .const 0⟩]⟩,
    ⟨"SCR_ENC_PIC", 0x01880104, 0, 1, 0, 1, 1, [
      ⟨"PICTURE", 0, 16, .ro, .const 0⟩,
      ⟨"TYPE", 16, 1, .ro, .const 0⟩,
      ⟨"CLOSED_EARLY", 17, 1, .ro, .const 0⟩,
      ⟨"MEAN_QP", 24, 6, .ro, .const 0⟩]⟩,
    ⟨"SCR_ENC_BYTES", 0x01880108, 0, 1, 0, 1, 1, [
      ⟨"BYTES", 0, 32, .ro, .const 0⟩]⟩]

def regTable3 : List RegD := [
    ⟨"SCR_ENC_ROWS", 0x0188010C, 0, 1, 0, 1, 1, [
      ⟨"FIRST_FLOOR", 0, 16, .ro, .const 65535⟩,
      ⟨"FIRST_REPEAT", 16, 16, .ro, .const 65535⟩]⟩,
    ⟨"SCR_ENC_FULLNESS", 0x01880110, 0, 1, 0, 1, 1, [
      ⟨"F", 0, 32, .ro, .const 0⟩]⟩,
    ⟨"SHT_CTRL", 0x02000000, 0, 1, 0, 1, 1, [
      ⟨"ETHERTYPE", 0, 16, .rw, .const 34997⟩,
      ⟨"PCP_DATA", 16, 3, .rw, .const 6⟩,
      ⟨"PCP_PRESENT", 19, 3, .rw, .const 7⟩,
      ⟨"PCP_MGMT", 22, 3, .rw, .const 1⟩,
      ⟨"NACK_REFRESH", 25, 1, .rw, .const 1⟩,
      ⟨"VLAN_EN", 26, 1, .rw, .const 0⟩]⟩,
    ⟨"SHT_VLAN", 0x02000004, 0, 1, 0, 1, 1, [
      ⟨"VID", 0, 12, .rw, .const 1⟩]⟩,
    ⟨"SHT_GUARD", 0x02000008, 0, 1, 0, 1, 1, [
      ⟨"GUARD_NS", 0, 24, .rw, .const 20000⟩]⟩,
    ⟨"SHT_LAUNCH", 0x0200000C, 0, 1, 0, 1, 1, [
      ⟨"MARGIN_NS", 0, 16, .rw, .const 2000⟩,
      ⟨"LEAD_US", 16, 16, .rw, .const 200⟩]⟩,
    ⟨"SHT_MAX_DATA", 0x02000010, 0, 1, 0, 1, 1, [
      ⟨"BYTES", 0, 14, .rw, .const 8192⟩]⟩,
    ⟨"SHT_SRC_MAC", 0x02000018, 0, 1, 0, 1, 2, [
      ⟨"ADDR", 0, 48, .rw, .const 0⟩]⟩,
    ⟨"SHT_SHEET_MAC", 0x02000020, 0, 1, 0, 1, 2, [
      ⟨"PREFIX", 0, 40, .rw, .const 14734875136⟩]⟩,
    ⟨"SHT_PING", 0x02000028, 0, 1, 0, 1, 1, [
      ⟨"PERIOD_S", 0, 8, .rw, .const 10⟩]⟩,
    ⟨"SHT_SCHED_STATUS", 0x02000030, 0, 1, 0, 1, 1, [
      ⟨"RUNNING", 0, 1, .ro, .const 0⟩,
      ⟨"VIEWS_M1", 1, 3, .ro, .const 0⟩,
      ⟨"HELD", 8, 8, .ro, .const 0⟩,
      ⟨"REJECT_PORT", 16, 7, .ro, .const 0⟩]⟩,
    ⟨"SHT_COUNTS", 0x02000034, 0, 1, 0, 1, 1, [
      ⟨"LAUNCH_LATE", 0, 16, .rc, .const 0⟩,
      ⟨"HELD_PICTURES", 16, 16, .rc, .const 0⟩]⟩]

def regTable4 : List RegD := [
    ⟨"SHT_NACK_COUNT", 0x02000038, 0, 1, 0, 1, 1, [
      ⟨"NACKS", 0, 16, .rc, .const 0⟩,
      ⟨"REPLY_INVALID", 16, 16, .rc, .const 0⟩]⟩,
    ⟨"SHT_PARTIAL", 0x02000040, 0, 1, 0, 1, 4, [
      ⟨"PORTS", 0, 128, .w1c, .const 0⟩]⟩,
    ⟨"SHT_CHAIN", 0x02000800, 0, 1, 4, 128, 1, [
      ⟨"CABINETS", 0, 5, .ro, .const 0⟩,
      ⟨"TIMED", 16, 16, .ro, .const 0⟩]⟩,
    ⟨"SHT_HOP_DELAY", 0x02001000, 64, 128, 4, 16, 1, [
      ⟨"DELAY_NS", 0, 24, .rw, .const 0⟩,
      ⟨"LOCK", 30, 1, .rw, .const 0⟩,
      ⟨"VALID", 31, 1, .ro, .const 0⟩]⟩,
    ⟨"SHT_CAB_RECORD", 0x02008000, 0, 1, 64, 2048, 16, [
      ⟨"RECORD", 0, 512, .ro, .const 0⟩]⟩,
    ⟨"MER_CTRL", 0x02400000, 0, 1, 0, 1, 1, [
      ⟨"SOURCE", 0, 3, .rw, .const 0⟩,
      ⟨"STEP_RUNNING", 3, 1, .rw, .const 0⟩,
      ⟨"TWO_STEP", 4, 1, .rw, .const 0⟩,
      ⟨"PPS_OUT_EN", 5, 1, .rw, .const 0⟩]⟩,
    ⟨"MER_STATUS", 0x02400004, 0, 1, 0, 1, 1, [
      ⟨"TIME_VALID", 0, 1, .ro, .const 0⟩,
      ⟨"LOCKED", 1, 1, .ro, .const 0⟩,
      ⟨"HOLDOVER", 2, 1, .ro, .const 0⟩,
      ⟨"SLEWING", 3, 1, .ro, .const 0⟩,
      ⟨"GRANDMASTER", 4, 1, .ro, .const 0⟩,
      ⟨"SLAVE_PORT", 8, 7, .ro, .const 0⟩,
      ⟨"SLAVE_VALID", 15, 1, .ro, .const 0⟩,
      ⟨"STEPS_REMOVED", 16, 8, .ro, .const 0⟩,
      ⟨"STEPS", 24, 8, .rc, .const 0⟩]⟩,
    ⟨"MER_TIME_CMD", 0x02400008, 0, 1, 0, 1, 1, [
      ⟨"LATCH", 0, 1, .wo, .const 0⟩,
      ⟨"SET", 1, 1, .wo, .const 0⟩,
      ⟨"STEP", 2, 1, .wo, .const 0⟩]⟩,
    ⟨"MER_MFT_SEC", 0x02400010, 0, 1, 0, 1, 2, [
      ⟨"SEC", 0, 48, .rw, .const 0⟩]⟩,
    ⟨"MER_MFT_SUB", 0x02400018, 0, 1, 0, 1, 2, [
      ⟨"FRAC", 0, 16, .rw, .const 0⟩,
      ⟨"NS", 16, 30, .rw, .const 0⟩]⟩,
    ⟨"MER_STEP", 0x02400020, 0, 1, 0, 1, 2, [
      ⟨"OFFSET_NS", 0, 64, .rw, .const 0⟩]⟩,
    ⟨"MER_MST", 0x02400028, 0, 1, 0, 1, 2, [
      ⟨"LIVE", 0, 32, .ro, .const 0⟩,
      ⟨"LATCHED", 32, 32, .ro, .const 0⟩]⟩]

def regTable5 : List RegD := [
    ⟨"MER_FREQ_ADJ", 0x02400030, 0, 1, 0, 1, 2, [
      ⟨"ADJ", 0, 40, .rw, .const 0⟩]⟩,
    ⟨"MER_SERVO_GAIN", 0x02400038, 0, 1, 0, 1, 1, [
      ⟨"KP", 0, 16, .rw, .const 16384⟩,
      ⟨"KI", 16, 16, .rw, .const 1024⟩]⟩,
    ⟨"MER_SERVO_LOCK", 0x0240003C, 0, 1, 0, 1, 1, [
      ⟨"LOCK_NS", 0, 11, .rw, .const 50⟩,
      ⟨"LOCK_COUNT", 11, 5, .rw, .const 16⟩,
      ⟨"UNLOCK_NS", 16, 11, .rw, .const 500⟩,
      ⟨"UNLOCK_COUNT", 27, 5, .rw, .const 4⟩]⟩,
    ⟨"MER_SERVO_STEP", 0x02400040, 0, 1, 0, 1, 1, [
      ⟨"STEP_US", 0, 16, .rw, .const 100⟩,
      ⟨"SLEW_PPM", 16, 8, .rw, .const 50⟩]⟩,
    ⟨"MER_SERVO_OFFSET", 0x02400048, 0, 1, 0, 1, 2, [
      ⟨"OFFSET", 0, 40, .rw, .const 0⟩,
      ⟨"LOG_INTERVAL", 40, 5, .rw, .const 0⟩]⟩,
    ⟨"MER_PPS_OUT", 0x02400050, 0, 1, 0, 1, 1, [
      ⟨"OFFSET_NS", 0, 24, .rw, .const 0⟩,
      ⟨"WIDTH_US", 24, 8, .rw, .const 100⟩]⟩,
    ⟨"MER_PIN_COMP", 0x02400054, 0, 1, 0, 1, 1, [
      ⟨"OUT_NS", 0, 8, .rw, .const 3⟩,
      ⟨"IN_NS", 8, 8, .rw, .const 2⟩]⟩,
    ⟨"MER_SYNC_IN", 0x02400058, 0, 1, 0, 1, 1, [
      ⟨"PERIOD_NS", 0, 31, .rw, .const 0⟩,
      ⟨"FALLING", 31, 1, .rw, .const 0⟩]⟩,
    ⟨"MER_CAPTURE", 0x02400060, 0, 1, 0, 1, 2, [
      ⟨"MST", 0, 32, .rc, .const 0⟩,
      ⟨"INPUT", 32, 1, .rc, .const 0⟩,
      ⟨"VALID", 63, 1, .rc, .const 0⟩]⟩,
    ⟨"MER_PTP_CTRL", 0x02400068, 0, 1, 0, 1, 1, [
      ⟨"PROFILE", 0, 2, .rw, .const 0⟩,
      ⟨"DOMAIN", 8, 8, .rw, .const 0⟩,
      ⟨"LOG_SYNC", 16, 4, .rw, .const 0⟩,
      ⟨"LOG_ANNOUNCE", 20, 4, .rw, .const 0⟩]⟩,
    ⟨"MER_PTP_CLOCK", 0x0240006C, 0, 1, 0, 1, 1, [
      ⟨"PRIORITY1", 0, 8, .rw, .const 128⟩,
      ⟨"PRIORITY2", 8, 8, .rw, .const 128⟩,
      ⟨"CLOCK_CLASS", 16, 8, .rw, .const 248⟩,
      ⟨"HOLDOVER_CLASS", 24, 8, .rw, .const 248⟩]⟩,
    ⟨"MER_PTP_STATUS", 0x02400070, 0, 1, 0, 1, 1, [
      ⟨"INVALID", 0, 16, .rc, .const 0⟩,
      ⟨"OVERLOAD", 16, 16, .rc, .const 0⟩]⟩]

def regTable6 : List RegD := [
    ⟨"MER_TS_CORR", 0x02400100, 0, 1, 4, 8, 1, [
      ⟨"EGRESS", 0, 16, .rw, .tsEgress⟩,
      ⟨"INGRESS", 16, 16, .rw, .tsIngress⟩]⟩,
    ⟨"MER_PORT_ASYM", 0x02400200, 0, 1, 4, 128, 1, [
      ⟨"ASYM", 0, 32, .rw, .const 0⟩]⟩,
    ⟨"MER_PTP_PORT", 0x02400400, 0, 1, 4, 128, 1, [
      ⟨"ROLE", 0, 2, .rw, .const 0⟩,
      ⟨"TC", 2, 1, .rw, .const 0⟩,
      ⟨"STATE", 8, 3, .ro, .const 0⟩]⟩,
    ⟨"MER_PTP_MPD", 0x02400600, 0, 1, 4, 128, 1, [
      ⟨"DELAY", 0, 31, .ro, .const 0⟩,
      ⟨"VALID", 31, 1, .ro, .const 0⟩]⟩,
    ⟨"MER_TRIG_START", 0x02401000, 0, 1, 32, 16, 1, [
      ⟨"START", 0, 32, .rw, .const 0⟩]⟩,
    ⟨"MER_TRIG_PERIOD", 0x02401008, 0, 1, 32, 16, 2, [
      ⟨"PERIOD_FRAC", 0, 16, .rw, .const 0⟩,
      ⟨"PERIOD_NS", 16, 31, .rw, .const 0⟩]⟩,
    ⟨"MER_TRIG_CTRL", 0x02401010, 0, 1, 32, 16, 1, [
      ⟨"ACTION", 0, 2, .rw, .const 0⟩,
      ⟨"PIN_MASK", 2, 4, .rw, .const 0⟩,
      ⟨"PORT", 6, 7, .rw, .const 0⟩,
      ⟨"CLASS", 13, 3, .rw, .const 0⟩,
      ⟨"WIDTH", 16, 15, .rw, .const 0⟩,
      ⟨"ARM", 31, 1, .rw, .const 0⟩]⟩,
    ⟨"MER_TRIG_COUNT", 0x02401014, 0, 1, 32, 16, 1, [
      ⟨"COUNT", 0, 32, .rw, .const 0⟩]⟩,
    ⟨"MER_TRIG_STATUS", 0x02401018, 0, 1, 32, 16, 1, [
      ⟨"MISSED", 0, 16, .rc, .const 0⟩,
      ⟨"FIRED", 16, 16, .rc, .const 0⟩]⟩,
    ⟨"MER_TRIG_LAST", 0x0240101C, 0, 1, 32, 16, 1, [
      ⟨"LAST", 0, 32, .ro, .const 0⟩]⟩,
    ⟨"PRT_STATUS", 0x02800000, 2097152, 2, 4096, 64, 1, [
      ⟨"STATE", 0, 3, .ro, .const 0⟩,
      ⟨"BOND_MEMBER", 3, 1, .ro, .const 0⟩,
      ⟨"RATE", 4, 4, .ro, .const 0⟩,
      ⟨"FEC_ACTIVE", 8, 1, .ro, .const 0⟩,
      ⟨"DOWN_COUNT", 16, 8, .rc, .const 0⟩]⟩,
    ⟨"PRT_CFG", 0x02800004, 2097152, 2, 4096, 64, 1, [
      ⟨"RATE", 0, 4, .ro, .const 0⟩,
      ⟨"AN_EN", 4, 1, .ro, .const 0⟩,
      ⟨"CASCADE", 5, 1, .ro, .const 0⟩,
      ⟨"PAUSE", 6, 1, .ro, .const 0⟩,
      ⟨"PFC", 7, 1, .ro, .const 0⟩,
      ⟨"CUT_THROUGH", 8, 8, .ro, .const 0⟩,
      ⟨"MAX_FRAME", 16, 14, .ro, .const 0⟩,
      ⟨"MEDIUM", 30, 2, .ro, .const 0⟩]⟩]

def regTable7 : List RegD := [
    ⟨"PRT_AN_PARTNER", 0x02800008, 2097152, 2, 4096, 64, 1, [
      ⟨"ABILITY", 0, 23, .ro, .const 0⟩,
      ⟨"FEC", 23, 4, .ro, .const 0⟩]⟩,
    ⟨"PRT_CHAN", 0x02800010, 2097152, 2, 4096, 64, 1, [
      ⟨"IL", 0, 16, .ro, .const 0⟩,
      ⟨"LEN_DM", 16, 16, .ro, .const 65535⟩]⟩,
    ⟨"PRT_RX_FRAMES", 0x02800040, 2097152, 2, 4096, 64, 1, [
      ⟨"FRAMES", 0, 32, .rc, .const 0⟩]⟩,
    ⟨"PRT_TX_FRAMES", 0x02800044, 2097152, 2, 4096, 64, 1, [
      ⟨"FRAMES", 0, 32, .rc, .const 0⟩]⟩,
    ⟨"PRT_RX_ERRORS", 0x02800048, 2097152, 2, 4096, 64, 1, [
      ⟨"FCS", 0, 16, .rc, .const 0⟩,
      ⟨"LENGTH", 16, 16, .rc, .const 0⟩]⟩,
    ⟨"PRT_FEC", 0x0280004C, 2097152, 2, 4096, 64, 1, [
      ⟨"CORRECTED", 0, 16, .rc, .const 0⟩,
      ⟨"UNCORRECTED", 16, 16, .rc, .const 0⟩]⟩,
    ⟨"PRT_FLUSHED", 0x02800050, 2097152, 2, 4096, 64, 1, [
      ⟨"FRAMES", 0, 32, .rc, .const 0⟩]⟩,
    ⟨"PRT_CHAN_CFG", 0x02900000, 0, 1, 2097152, 2, 1, [
      ⟨"HOST_LOSS", 0, 8, .rw, .const 35⟩,
      ⟨"PARTNER_LOSS", 8, 8, .rw, .const 30⟩]⟩,
    ⟨"PRT_LINK_UP", 0x02900008, 0, 1, 2097152, 2, 2, [
      ⟨"UP", 0, 64, .ro, .const 0⟩]⟩,
    ⟨"SW_CTRL", 0x02C00000, 0, 1, 0, 1, 1, [
      ⟨"UNKNOWN_TO_HOST", 0, 1, .rw, .const 1⟩,
      ⟨"LINK_LOCAL_TO_HOST", 1, 1, .rw, .const 1⟩,
      ⟨"FENCE_TIMEOUT_MS", 16, 16, .rw, .const 10⟩]⟩,
    ⟨"SW_POOL_CFG", 0x02C00004, 0, 1, 0, 1, 1, [
      ⟨"HEADROOM", 0, 18, .rw, .const 2048⟩]⟩,
    ⟨"SW_POOL_STATUS", 0x02C00008, 0, 1, 0, 1, 1, [
      ⟨"FREE", 0, 18, .ro, .const 196608⟩]⟩]

def regTable8 : List RegD := [
    ⟨"SW_POOL_SHARED", 0x02C0000C, 0, 1, 0, 1, 1, [
      ⟨"SHARED_SIZE", 0, 18, .ro, .const 120832⟩]⟩,
    ⟨"SW_EPOCH", 0x02C00010, 0, 1, 0, 1, 1, [
      ⟨"EPOCH", 0, 3, .ro, .const 0⟩,
      ⟨"FENCE_PENDING", 4, 3, .ro, .const 0⟩]⟩,
    ⟨"SW_DROP", 0x02C00020, 0, 1, 0, 1, 1, [
      ⟨"POOL_EMPTY", 0, 16, .rc, .const 0⟩,
      ⟨"THRESHOLD", 16, 16, .rc, .const 0⟩]⟩,
    ⟨"SW_DROP2", 0x02C00024, 0, 1, 0, 1, 1, [
      ⟨"MCAST_EMPTY", 0, 16, .rc, .const 0⟩,
      ⟨"FENCE_DROP", 16, 16, .rc, .const 0⟩]⟩,
    ⟨"SW_STOMP_COUNT", 0x02C00028, 0, 1, 0, 1, 1, [
      ⟨"STOMPED", 0, 32, .rc, .const 0⟩]⟩,
    ⟨"SW_MIRROR", 0x02C00030, 0, 1, 0, 1, 1, [
      ⟨"INSET", 0, 8, .ro, .const 255⟩,
      ⟨"ACTIVE", 8, 4, .ro, .const 0⟩,
      ⟨"DROPPED", 16, 16, .rc, .const 0⟩]⟩,
    ⟨"SW_TABLE_FILL", 0x02C00034, 0, 1, 0, 1, 1, [
      ⟨"MAC", 0, 16, .ro, .const 0⟩,
      ⟨"FLOW", 16, 14, .ro, .const 0⟩]⟩,
    ⟨"SW_USE", 0x02C01000, 32, 146, 4, 8, 1, [
      ⟨"CELLS", 0, 16, .ro, .const 0⟩,
      ⟨"HIGH_WATER", 16, 16, .rc, .const 0⟩]⟩,
    ⟨"TM_CTRL", 0x03000000, 0, 1, 0, 1, 1, [
      ⟨"GATE_LEAD_US", 0, 16, .rw, .const 10⟩,
      ⟨"METER_EN", 16, 1, .rw, .const 1⟩]⟩,
    ⟨"TM_WHEEL_STATUS", 0x03000004, 0, 1, 0, 1, 1, [
      ⟨"OVERFLOW", 0, 16, .ro, .const 0⟩,
      ⟨"LATE_SLOTS", 16, 16, .rc, .const 0⟩]⟩,
    ⟨"TM_SHAPER_SEL", 0x03000010, 0, 1, 0, 1, 1, [
      ⟨"PORT", 0, 8, .rw, .const 0⟩,
      ⟨"CLASS", 8, 3, .rw, .const 0⟩]⟩,
    ⟨"TM_SHAPER_STATE", 0x03000014, 0, 1, 0, 1, 1, [
      ⟨"CREDIT", 0, 16, .ro, .const 0⟩,
      ⟨"ENABLED", 16, 1, .ro, .const 0⟩,
      ⟨"PAUSED", 17, 1, .ro, .const 0⟩]⟩]

def regTable9 : List RegD := [
    ⟨"TM_SHAPER_RATE", 0x03000018, 0, 1, 0, 1, 1, [
      ⟨"RATE_PPS", 0, 32, .ro, .const 0⟩]⟩,
    ⟨"TM_METER_SEL", 0x03000020, 0, 1, 0, 1, 1, [
      ⟨"METER", 0, 12, .rw, .const 0⟩]⟩,
    ⟨"TM_METER_GREEN", 0x03000024, 0, 1, 0, 1, 1, [
      ⟨"PACKETS", 0, 32, .rc, .const 0⟩]⟩,
    ⟨"TM_METER_YELLOW", 0x03000028, 0, 1, 0, 1, 1, [
      ⟨"PACKETS", 0, 32, .rc, .const 0⟩]⟩,
    ⟨"TM_METER_RED", 0x0300002C, 0, 1, 0, 1, 1, [
      ⟨"PACKETS", 0, 32, .rc, .const 0⟩]⟩,
    ⟨"TM_METER_DROP", 0x03000030, 0, 1, 0, 1, 1, [
      ⟨"DROPPED", 0, 32, .rc, .const 0⟩]⟩,
    ⟨"TM_SCHED", 0x03001000, 0, 1, 64, 130, 1, [
      ⟨"STRICT", 0, 8, .rw, .const 192⟩,
      ⟨"DEFAULT_PCP", 8, 3, .rw, .const 0⟩]⟩,
    ⟨"TM_WEIGHT_LO", 0x03001004, 0, 1, 64, 130, 1, [
      ⟨"W0", 0, 8, .rw, .const 16⟩,
      ⟨"W1", 8, 8, .rw, .const 16⟩,
      ⟨"W2", 16, 8, .rw, .const 16⟩,
      ⟨"W3", 24, 8, .rw, .const 16⟩]⟩,
    ⟨"TM_WEIGHT_HI", 0x03001008, 0, 1, 64, 130, 1, [
      ⟨"W0", 0, 8, .rw, .const 16⟩,
      ⟨"W1", 8, 8, .rw, .const 16⟩,
      ⟨"W2", 16, 8, .rw, .const 16⟩,
      ⟨"W3", 24, 8, .rw, .const 16⟩]⟩,
    ⟨"TM_GATE_STATUS", 0x0300100C, 0, 1, 64, 130, 1, [
      ⟨"STATES", 0, 8, .ro, .const 255⟩,
      ⟨"PENDING", 8, 1, .ro, .const 0⟩,
      ⟨"OPERATIONAL", 9, 1, .ro, .const 0⟩,
      ⟨"LENGTH", 16, 9, .ro, .const 0⟩]⟩,
    ⟨"TM_GATE_START", 0x03001010, 0, 1, 64, 130, 1, [
      ⟨"START", 0, 32, .ro, .const 0⟩]⟩,
    ⟨"TM_QUEUE_STATE", 0x03001014, 0, 1, 64, 130, 1, [
      ⟨"NONEMPTY", 0, 8, .ro, .const 0⟩,
      ⟨"PAUSED", 8, 8, .ro, .const 0⟩,
      ⟨"SHAPER_WAIT", 16, 8, .ro, .const 0⟩,
      ⟨"GATE_WAIT", 24, 8, .ro, .const 0⟩]⟩]

def regTable10 : List RegD := [
    ⟨"TM_GATE_DROPS", 0x03001018, 0, 1, 64, 130, 1, [
      ⟨"OVERSIZE", 0, 16, .rc, .const 0⟩]⟩,
    ⟨"HIF_CTRL", 0x00C00000, 0, 1, 0, 1, 1, [
      ⟨"POLL_100NS", 0, 8, .rw, .const 10⟩,
      ⟨"IDLE_US", 8, 16, .rw, .const 50⟩]⟩,
    ⟨"HIF_STATUS", 0x00C00004, 0, 1, 0, 1, 1, [
      ⟨"SPEED", 0, 3, .ro, .const 0⟩,
      ⟨"WIDTH", 3, 5, .ro, .const 0⟩,
      ⟨"DSTATE", 8, 2, .ro, .const 0⟩,
      ⟨"L1", 10, 1, .ro, .const 0⟩,
      ⟨"LINK_DOWNS", 16, 16, .rc, .const 0⟩]⟩,
    ⟨"HIF_DBREC_BASE", 0x00C00008, 0, 1, 0, 1, 2, [
      ⟨"BASE", 12, 52, .rw, .const 0⟩]⟩,
    ⟨"HIF_UNMAPPED_ADDR", 0x00C00010, 0, 1, 0, 1, 1, [
      ⟨"OFFSET", 0, 26, .ro, .const 0⟩,
      ⟨"VALID", 31, 1, .w1c, .const 0⟩]⟩,
    ⟨"HIF_PM_CTRL", 0x00C00014, 0, 1, 0, 1, 1, [
      ⟨"WAKE_N_EN", 0, 1, .rw, .const 0⟩]⟩,
    ⟨"HIF_ERR_COUNT", 0x00C00018, 0, 1, 0, 1, 1, [
      ⟨"CPL_TIMEOUT", 0, 16, .rc, .const 0⟩,
      ⟨"POISONED", 16, 16, .rc, .const 0⟩]⟩,
    ⟨"HIF_SQ_BASE", 0x00C01000, 0, 1, 16, 64, 2, [
      ⟨"BASE", 12, 52, .rw, .const 0⟩]⟩,
    ⟨"HIF_SQ_CFG", 0x00C01008, 0, 1, 16, 64, 1, [
      ⟨"DEPTH_EXP", 0, 5, .rw, .const 0⟩,
      ⟨"CQ", 8, 6, .rw, .const 0⟩]⟩,
    ⟨"HIF_SQ_CTRL", 0x00C0100C, 0, 1, 16, 64, 1, [
      ⟨"ENABLE", 0, 1, .rw, .const 0⟩,
      ⟨"STOP", 1, 1, .w1s, .const 0⟩,
      ⟨"STATE", 2, 3, .ro, .const 0⟩,
      ⟨"CHANNEL", 8, 6, .ro, .const 0⟩,
      ⟨"HEAD", 16, 16, .ro, .const 0⟩]⟩,
    ⟨"HIF_CQ_BASE", 0x00C02000, 0, 1, 16, 64, 2, [
      ⟨"BASE", 12, 52, .rw, .const 0⟩]⟩,
    ⟨"HIF_CQ_CFG", 0x00C02008, 0, 1, 16, 64, 1, [
      ⟨"DEPTH_EXP", 0, 5, .rw, .const 0⟩,
      ⟨"VECTOR", 8, 8, .rw, .const 0⟩,
      ⟨"ENABLE", 16, 1, .rw, .const 0⟩]⟩]

def regTable11 : List RegD := [
    ⟨"HIF_CQ_STATUS", 0x00C0200C, 0, 1, 16, 64, 1, [
      ⟨"TAIL", 0, 16, .ro, .const 0⟩,
      ⟨"HELD", 16, 7, .ro, .const 0⟩]⟩,
    ⟨"HIF_VEC_MOD", 0x00C03000, 0, 1, 4, 256, 1, [
      ⟨"COUNT", 0, 8, .rw, .const 1⟩,
      ⟨"TIME_US", 8, 16, .rw, .const 0⟩,
      ⟨"PENDING", 24, 8, .ro, .const 0⟩]⟩,
    ⟨"HIF_DMA_CH", 0x00C04000, 0, 1, 4, 64, 1, [
      ⟨"ENGINE", 0, 2, .rw, .mod4⟩,
      ⟨"OWNER", 8, 8, .ro, .const 255⟩]⟩,
    ⟨"HIF_DMA_ENGINE", 0x00C04100, 0, 1, 4, 4, 1, [
      ⟨"DESCRIPTORS", 0, 16, .rc, .const 0⟩,
      ⟨"ACTIVE", 16, 7, .ro, .const 0⟩]⟩,
    ⟨"INT_SRC_CFG", 0x01000000, 0, 1, 4, 1024, 1, [
      ⟨"SENSE", 0, 3, .rw, .const 2⟩,
      ⟨"EVQ_EN", 3, 1, .rw, .srcEvq⟩,
      ⟨"VEC_EN", 4, 1, .rw, .const 0⟩,
      ⟨"AUTO_ACK", 5, 1, .rw, .const 1⟩,
      ⟨"VECTOR", 8, 8, .rw, .const 0⟩,
      ⟨"CLASS", 16, 2, .ro, .srcClass⟩,
      ⟨"STATE", 18, 2, .ro, .const 0⟩]⟩,
    ⟨"INT_SRC_LEVEL", 0x01001000, 0, 1, 4, 32, 1, [
      ⟨"LEVEL", 0, 32, .ro, .const 0⟩]⟩,
    ⟨"INT_SRC_ACK", 0x01001100, 0, 1, 0, 1, 1, [
      ⟨"SOURCE", 0, 10, .wo, .const 0⟩]⟩,
    ⟨"INT_EVQ_POP", 0x01002000, 0, 1, 0, 1, 1, [
      ⟨"PARAM", 0, 16, .rc, .const 0⟩,
      ⟨"SOURCE", 16, 10, .rc, .const 0⟩,
      ⟨"CLASS", 28, 2, .rc, .const 0⟩,
      ⟨"COLLAPSED", 30, 1, .rc, .const 0⟩,
      ⟨"VALID", 31, 1, .rc, .const 0⟩]⟩,
    ⟨"INT_EVQ_DATA", 0x01002004, 0, 1, 0, 1, 1, [
      ⟨"VALUE", 0, 32, .ro, .const 0⟩]⟩,
    ⟨"INT_EVQ_MST", 0x01002008, 0, 1, 0, 1, 1, [
      ⟨"VALUE", 0, 32, .ro, .const 0⟩]⟩,
    ⟨"INT_EVQ_STATUS", 0x0100200C, 0, 1, 0, 1, 1, [
      ⟨"COUNT", 0, 6, .ro, .const 0⟩,
      ⟨"STALLS", 16, 16, .rc, .const 0⟩]⟩,
    ⟨"FLT_STATE", 0x01008000, 0, 1, 0, 1, 1, [
      ⟨"STATE", 0, 2, .ro, .const 0⟩,
      ⟨"SURVEY", 2, 2, .ro, .const 0⟩,
      ⟨"DESTINATION", 4, 1, .ro, .const 0⟩,
      ⟨"UNITS_HELD", 8, 8, .ro, .const 0⟩]⟩]

def regTable12 : List RegD := [
    ⟨"FLT_CE_COUNT", 0x01008080, 0, 1, 0, 1, 1, [
      ⟨"COUNT", 0, 32, .rc, .const 0⟩]⟩,
    ⟨"FLT_MERGED", 0x01008084, 0, 1, 0, 1, 1, [
      ⟨"COUNT", 0, 32, .rc, .const 0⟩]⟩,
    ⟨"FLT_FIRST_SRC", 0x01008088, 0, 1, 0, 1, 1, [
      ⟨"SOURCE", 0, 10, .ro, .const 0⟩,
      ⟨"CLASS", 12, 2, .ro, .const 0⟩,
      ⟨"VALID", 31, 1, .w1c, .const 0⟩]⟩,
    ⟨"FLT_FIRST_MST", 0x0100808C, 0, 1, 0, 1, 1, [
      ⟨"MST", 0, 32, .ro, .const 0⟩]⟩,
    ⟨"FLT_POLICY", 0x01008090, 0, 1, 0, 1, 1, [
      ⟨"ACTION", 0, 1, .rw, .const 0⟩,
      ⟨"SIGN_FLASH", 1, 1, .rw, .const 0⟩,
      ⟨"UC_LIMIT", 8, 4, .rw, .const 4⟩]⟩,
    ⟨"FLT_TEST", 0x01008094, 0, 1, 0, 1, 1, [
      ⟨"CLASS", 0, 2, .wo, .const 0⟩]⟩,
    ⟨"FLT_SURVEY_ADDR", 0x010080A0, 0, 1, 0, 1, 2, [
      ⟨"ADDR", 0, 64, .ro, .const 0⟩]⟩,
    ⟨"FLT_SURVEY_SIZE", 0x010080A8, 0, 1, 0, 1, 1, [
      ⟨"ARMED", 0, 16, .ro, .const 0⟩,
      ⟨"WRITTEN", 16, 16, .ro, .const 0⟩]⟩,
    ⟨"FLT_STICKY", 0x01008100, 0, 1, 4, 32, 1, [
      ⟨"STICKY", 0, 32, .w1c, .const 0⟩]⟩,
    ⟨"FLT_FIRST_LOC", 0x01008200, 0, 1, 0, 1, 16, [
      ⟨"LOCATION", 0, 512, .ro, .const 0⟩]⟩,
    ⟨"MEM_STATUS", 0x01400000, 0, 1, 0, 1, 1, [
      ⟨"TRAINED_A", 0, 1, .ro, .const 0⟩,
      ⟨"TRAINED_B", 1, 1, .ro, .const 0⟩,
      ⟨"RETRAIN_A", 2, 1, .ro, .const 0⟩,
      ⟨"RETRAIN_B", 3, 1, .ro, .const 0⟩,
      ⟨"TEMP_A", 16, 8, .ro, .const 0⟩,
      ⟨"TEMP_B", 24, 8, .ro, .const 0⟩]⟩,
    ⟨"MEM_MAP", 0x01400004, 0, 1, 0, 1, 1, [
      ⟨"ORDER_A", 0, 2, .ro, .const 0⟩,
      ⟨"ORDER_B", 2, 2, .ro, .const 0⟩,
      ⟨"PENDING", 4, 1, .ro, .const 0⟩]⟩]

def regTable13 : List RegD := [
    ⟨"MEM_RETRAIN_CTRL", 0x01400008, 0, 1, 0, 1, 1, [
      ⟨"ENABLE", 0, 1, .rw, .const 1⟩,
      ⟨"THRESHOLD_C", 8, 8, .rw, .const 10⟩,
      ⟨"GUARD_US", 16, 8, .rw, .const 5⟩]⟩,
    ⟨"MEM_RETRAIN_STATUS", 0x0140000C, 0, 1, 0, 1, 1, [
      ⟨"HOLDS_A", 0, 6, .ro, .const 0⟩,
      ⟨"HOLDS_B", 8, 6, .ro, .const 0⟩,
      ⟨"DEFERRALS", 16, 16, .rc, .const 0⟩]⟩,
    ⟨"MEM_BAR4_CTRL", 0x01400010, 0, 1, 0, 1, 1, [
      ⟨"ENABLE_NEXT", 0, 1, .rw, .const 0⟩,
      ⟨"IMPLEMENTED", 1, 1, .ro, .const 0⟩,
      ⟨"BASE_GIB", 8, 6, .rw, .const 0⟩]⟩,
    ⟨"MEM_QOS_CFG", 0x01400100, 0, 1, 4, 16, 1, [
      ⟨"TARGET_NS", 0, 24, .rw, .qosTarget⟩]⟩,
    ⟨"MEM_QOS_STAT", 0x01400140, 0, 1, 4, 16, 1, [
      ⟨"LATE", 0, 16, .rc, .const 0⟩,
      ⟨"MAX_WAIT_100NS", 16, 16, .rc, .const 0⟩]⟩,
    ⟨"MEM_TRAIN_RESULT", 0x01401000, 0, 1, 4, 256, 1, [
      ⟨"READ_DLY", 0, 7, .ro, .const 0⟩,
      ⟨"WRITE_DLY", 8, 7, .ro, .const 0⟩,
      ⟨"EYE", 16, 7, .ro, .const 0⟩,
      ⟨"REPAIRED", 23, 1, .ro, .const 0⟩,
      ⟨"MARGINAL", 24, 1, .ro, .const 0⟩]⟩,
    ⟨"ECC_SCRUB_CTRL", 0x01600000, 0, 1, 0, 1, 1, [
      ⟨"HBM_PERIOD_H", 0, 8, .rw, .const 24⟩,
      ⟨"SRAM_PERIOD_MIN", 8, 8, .rw, .const 10⟩,
      ⟨"HBM_CAP_MBS", 16, 16, .rw, .const 64⟩]⟩,
    ⟨"ECC_SCRUB_STATUS", 0x01600004, 0, 1, 0, 1, 1, [
      ⟨"HBM_PASSES", 0, 16, .rc, .const 0⟩,
      ⟨"SRAM_PASSES", 16, 16, .rc, .const 0⟩]⟩,
    ⟨"ECC_COUNT_HBM", 0x01600010, 0, 1, 0, 1, 1, [
      ⟨"CE", 0, 16, .rc, .const 0⟩,
      ⟨"UC", 16, 16, .rc, .const 0⟩]⟩,
    ⟨"ECC_COUNT_SRAM", 0x01600014, 0, 1, 0, 1, 1, [
      ⟨"CE", 0, 16, .rc, .const 0⟩,
      ⟨"UC", 16, 16, .rc, .const 0⟩]⟩,
    ⟨"ECC_LAST_ADDR", 0x01600018, 0, 1, 0, 1, 2, [
      ⟨"ADDR", 0, 36, .ro, .const 0⟩,
      ⟨"UC", 62, 1, .ro, .const 0⟩,
      ⟨"VALID", 63, 1, .w1c, .const 0⟩]⟩,
    ⟨"ECC_TMR_STATUS", 0x01600020, 0, 1, 0, 1, 1, [
      ⟨"LAST_WORD", 0, 5, .ro, .const 0⟩,
      ⟨"MISMATCHES", 16, 16, .rc, .const 0⟩]⟩]

def regTable14 : List RegD := [
    ⟨"ECC_FLIP_CTRL", 0x01600030, 0, 1, 0, 1, 1, [
      ⟨"TARGET", 0, 3, .rw, .const 0⟩,
      ⟨"ANY", 3, 1, .rw, .const 0⟩,
      ⟨"MACRO", 4, 12, .rw, .const 0⟩,
      ⟨"ARM", 31, 1, .rw, .const 0⟩]⟩,
    ⟨"ECC_FLIP_ADDR", 0x01600038, 0, 1, 0, 1, 2, [
      ⟨"VALUE", 0, 64, .rw, .const 0⟩]⟩,
    ⟨"ECC_FLIP_MASK", 0x01600040, 0, 1, 0, 1, 2, [
      ⟨"VALUE", 0, 64, .rw, .const 0⟩]⟩,
    ⟨"ECC_FLIP_CHECK", 0x01600048, 0, 1, 0, 1, 2, [
      ⟨"VALUE", 0, 64, .rw, .const 0⟩]⟩,
    ⟨"ECC_LAST_LOC", 0x01600100, 0, 1, 0, 1, 16, [
      ⟨"LOCATION", 0, 512, .ro, .const 0⟩]⟩,
    ⟨"CLK_STATUS", 0x00400000, 0, 1, 0, 1, 1, [
      ⟨"XO_OK", 0, 1, .ro, .const 0⟩,
      ⟨"XO_FAIL", 1, 1, .ro, .const 0⟩,
      ⟨"COAST", 2, 1, .ro, .const 0⟩,
      ⟨"TRO_BAD", 3, 1, .ro, .const 0⟩,
      ⟨"X32_PRESENT", 4, 1, .ro, .const 0⟩,
      ⟨"PLL_LOCKED", 8, 6, .ro, .const 0⟩]⟩,
    ⟨"CLK_BOOT_STATUS", 0x00400004, 0, 1, 0, 1, 1, [
      ⟨"CODE", 0, 4, .ro, .const 0⟩,
      ⟨"TRO_TRIES", 8, 3, .ro, .const 0⟩]⟩,
    ⟨"CLK_JUDGE_TRO", 0x00400008, 0, 1, 0, 1, 1, [
      ⟨"COUNT", 0, 20, .ro, .const 0⟩]⟩,
    ⟨"CLK_JUDGE_XO", 0x0040000C, 0, 1, 0, 1, 1, [
      ⟨"COUNT", 0, 20, .ro, .const 0⟩]⟩,
    ⟨"CLK_PLL_CFG", 0x00400020, 0, 1, 4, 6, 1, [
      ⟨"FREQ_MHZ", 0, 12, .rw, .pllNominal⟩,
      ⟨"LOCKED", 12, 1, .ro, .const 0⟩,
      ⟨"UNLOCKS", 16, 8, .rc, .const 0⟩]⟩,
    ⟨"CLK_GATE_CTRL", 0x00400040, 0, 1, 0, 1, 1, [
      ⟨"IDLE_US", 0, 16, .rw, .const 10⟩,
      ⟨"FORCE_ON", 16, 4, .rw, .const 0⟩]⟩,
    ⟨"CLK_MEAS_CTRL", 0x00400050, 0, 1, 0, 1, 1, [
      ⟨"MEAS_SEL", 0, 5, .rw, .const 0⟩,
      ⟨"REF_SEL", 8, 5, .rw, .const 1⟩,
      ⟨"WINDOW_LOG2", 16, 5, .rw, .const 12⟩,
      ⟨"START", 24, 1, .w1s, .const 0⟩,
      ⟨"BUSY", 25, 1, .ro, .const 0⟩]⟩]

def regTable15 : List RegD := [
    ⟨"CLK_MEAS_RESULT", 0x00400058, 0, 1, 0, 1, 2, [
      ⟨"COUNT", 0, 32, .ro, .const 0⟩,
      ⟨"DONE", 32, 1, .ro, .const 0⟩,
      ⟨"NO_CLOCK", 33, 1, .ro, .const 0⟩]⟩,
    ⟨"CLK_MEAS_LANE", 0x00400060, 0, 1, 0, 1, 1, [
      ⟨"LANE", 0, 7, .rw, .const 0⟩]⟩,
    ⟨"RST_CAUSE", 0x00408000, 0, 1, 0, 1, 1, [
      ⟨"KIND", 0, 4, .ro, .const 0⟩,
      ⟨"HBM_KEPT", 4, 1, .ro, .const 0⟩,
      ⟨"HBM_LOST", 5, 1, .ro, .const 0⟩,
      ⟨"COUNT", 16, 16, .ro, .const 0⟩]⟩,
    ⟨"RST_CTRL", 0x00408004, 0, 1, 0, 1, 1, [
      ⟨"WARM", 0, 1, .w1s, .const 0⟩,
      ⟨"PERST_ISOLATE", 1, 1, .rw, .const 0⟩]⟩,
    ⟨"RST_DOMAIN", 0x00408008, 0, 1, 0, 1, 1, [
      ⟨"DOMAIN", 0, 7, .rw, .const 0⟩,
      ⟨"GO", 31, 1, .w1s, .const 0⟩]⟩,
    ⟨"RST_STATUS", 0x0040800C, 0, 1, 0, 1, 1, [
      ⟨"PHASE", 0, 4, .ro, .const 0⟩,
      ⟨"READY_MS", 16, 16, .ro, .const 0⟩]⟩,
    ⟨"PWR_CTRL", 0x00800000, 0, 1, 0, 1, 1, [
      ⟨"WAKE_IN_FALLING", 0, 1, .rw, .const 0⟩,
      ⟨"AUTO_HOLD_MS", 8, 8, .rw, .const 100⟩,
      ⟨"AUTO_WINDOW_MS", 16, 8, .rw, .const 10⟩]⟩,
    ⟨"PWR_STATE", 0x00800004, 0, 1, 0, 1, 1, [
      ⟨"STATE", 0, 3, .ro, .const 0⟩,
      ⟨"TARGET", 3, 3, .ro, .const 0⟩,
      ⟨"ENTERING", 6, 1, .ro, .const 0⟩,
      ⟨"REFUSE_DOMAIN", 8, 7, .ro, .const 0⟩,
      ⟨"REFUSE_REASON", 16, 4, .ro, .const 0⟩]⟩,
    ⟨"PWR_WAKE_EN", 0x00800008, 0, 1, 0, 1, 1, [
      ⟨"ENABLE", 0, 6, .ro, .const 0⟩,
      ⟨"FAULT", 6, 1, .ro, .const 1⟩]⟩,
    ⟨"PWR_WAKE_RECORD", 0x00800010, 0, 1, 0, 1, 2, [
      ⟨"SOURCE", 0, 3, .ro, .const 0⟩,
      ⟨"FROM", 4, 3, .ro, .const 0⟩,
      ⟨"VALID", 7, 1, .w1c, .const 0⟩,
      ⟨"SOURCES", 8, 8, .ro, .const 0⟩,
      ⟨"MST", 32, 32, .ro, .const 0⟩]⟩,
    ⟨"PWR_RTC", 0x00800018, 0, 1, 0, 1, 2, [
      ⟨"SUB", 0, 15, .ro, .const 0⟩,
      ⟨"SEC", 16, 48, .ro, .const 0⟩]⟩,
    ⟨"PWR_RTC_ALARM", 0x00800020, 0, 1, 0, 1, 2, [
      ⟨"SEC_LOW", 0, 32, .ro, .const 0⟩,
      ⟨"ARMED", 32, 1, .ro, .const 0⟩]⟩]

def regTable16 : List RegD := [
    ⟨"PWR_WATCH_CFG", 0x00800028, 0, 1, 0, 1, 1, [
      ⟨"PERIOD_MS", 0, 16, .ro, .const 1000⟩,
      ⟨"COMPARATORS", 16, 4, .ro, .const 0⟩]⟩,
    ⟨"PWR_WATCH_STATUS", 0x0080002C, 0, 1, 0, 1, 1, [
      ⟨"SAMPLES", 0, 24, .ro, .const 0⟩,
      ⟨"LAST_MATCH", 24, 3, .ro, .const 0⟩,
      ⟨"MATCHED", 31, 1, .ro, .const 0⟩]⟩,
    ⟨"PWR_WATCH_MATCHES", 0x00800030, 0, 1, 0, 1, 1, [
      ⟨"COUNT0", 0, 4, .rc, .const 0⟩,
      ⟨"COUNT1", 4, 4, .rc, .const 0⟩,
      ⟨"COUNT2", 8, 4, .rc, .const 0⟩,
      ⟨"COUNT3", 12, 4, .rc, .const 0⟩,
      ⟨"COUNT4", 16, 4, .rc, .const 0⟩,
      ⟨"COUNT5", 20, 4, .rc, .const 0⟩,
      ⟨"COUNT6", 24, 4, .rc, .const 0⟩,
      ⟨"COUNT7", 28, 4, .rc, .const 0⟩]⟩,
    ⟨"PWR_WATCH_CMP", 0x00800040, 0, 1, 8, 8, 2, [
      ⟨"RECORD", 0, 64, .ro, .const 0⟩]⟩,
    ⟨"PWR_DOMAIN", 0x00801000, 0, 1, 4, 80, 1, [
      ⟨"POLICY", 0, 2, .ro, .const 0⟩,
      ⟨"WAKE_ON_ACCESS", 2, 1, .rw, .const 0⟩,
      ⟨"USED", 3, 1, .ro, .const 0⟩,
      ⟨"STATE", 4, 3, .ro, .const 0⟩,
      ⟨"GATE_TIMEOUTS", 16, 8, .rc, .const 0⟩,
      ⟨"STANDIN_ACCESSES", 24, 8, .rc, .const 0⟩]⟩,
    ⟨"TOP_ID", 0x00000000, 0, 1, 0, 1, 1, [
      ⟨"DEVICE", 0, 16, .ro, .const 33064⟩,
      ⟨"STEPPING", 16, 8, .ro, .const 161⟩]⟩,
    ⟨"TOP_SERIAL", 0x00000008, 0, 1, 0, 1, 2, [
      ⟨"SERIAL", 0, 64, .ro, .const 0⟩]⟩,
    ⟨"TOP_FW_VERSION", 0x00000010, 0, 1, 0, 1, 1, [
      ⟨"BUILD", 0, 16, .ro, .const 0⟩,
      ⟨"MINOR", 16, 8, .ro, .const 0⟩,
      ⟨"MAJOR", 24, 8, .ro, .const 0⟩]⟩,
    ⟨"TOP_STATUS", 0x00000014, 0, 1, 0, 1, 1, [
      ⟨"LIFECYCLE", 0, 2, .ro, .const 0⟩,
      ⟨"SAFE", 2, 1, .ro, .const 0⟩,
      ⟨"RECOVERY", 3, 1, .ro, .const 0⟩,
      ⟨"TRIAL", 4, 1, .ro, .const 0⟩,
      ⟨"UNSIGNED_EDITION", 5, 1, .ro, .const 0⟩]⟩,
    ⟨"TOP_EDITION_STATUS", 0x00000018, 0, 1, 0, 1, 1, [
      ⟨"ACTIVE", 0, 2, .ro, .const 0⟩,
      ⟨"REQUESTED", 2, 2, .ro, .const 0⟩,
      ⟨"FALLBACK", 4, 3, .ro, .const 0⟩,
      ⟨"SELECT_PENDING", 7, 1, .ro, .const 0⟩]⟩,
    ⟨"TOP_EDITION_SERIAL", 0x00000020, 0, 1, 4, 4, 1, [
      ⟨"SERIAL", 0, 32, .ro, .const 0⟩]⟩,
    ⟨"SEC_STATUS", 0x03400000, 0, 1, 0, 1, 1, [
      ⟨"LIFECYCLE", 0, 2, .ro, .const 0⟩,
      ⟨"NEXT_LIFECYCLE", 2, 2, .ro, .const 0⟩,
      ⟨"OWNER_BOUND", 4, 1, .ro, .const 0⟩,
      ⟨"ALLOW_UNSIGNED", 5, 1, .ro, .const 0⟩,
      ⟨"JTAG_RESTRICTED", 6, 1, .ro, .const 0⟩,
      ⟨"ID_KEY_VALID", 7, 1, .ro, .const 0⟩,
      ⟨"FW_SVN", 8, 6, .ro, .const 0⟩,
      ⟨"AUTH_FAILS", 16, 16, .rc, .const 0⟩]⟩]

def regTable17 : List RegD := [
    ⟨"SEC_FW_STATUS", 0x03400004, 0, 1, 0, 1, 1, [
      ⟨"ACTIVE_SLOT", 0, 1, .ro, .const 0⟩,
      ⟨"TRIAL", 1, 1, .ro, .const 0⟩,
      ⟨"REVERTED", 2, 1, .w1c, .const 0⟩,
      ⟨"STAGED_VALID", 3, 1, .ro, .const 0⟩]⟩,
    ⟨"SEC_FW_STAGED", 0x03400008, 0, 1, 0, 1, 1, [
      ⟨"VERSION", 0, 32, .ro, .const 0⟩]⟩,
    ⟨"SEC_FLASH_INFO", 0x0340000C, 0, 1, 0, 1, 1, [
      ⟨"SIZE_MIB", 0, 16, .ro, .const 0⟩,
      ⟨"SFDP_OK", 16, 1, .ro, .const 0⟩,
      ⟨"DTR", 17, 1, .ro, .const 0⟩]⟩,
    ⟨"SEC_ROOT_HASH", 0x03400040, 0, 1, 0, 1, 8, [
      ⟨"HASH", 0, 256, .ro, .const 0⟩]⟩,
    ⟨"SEC_OWNER_HASH", 0x03400060, 0, 1, 0, 1, 8, [
      ⟨"HASH", 0, 256, .ro, .const 0⟩]⟩,
    ⟨"SEC_ID_CERT", 0x03400100, 0, 1, 0, 1, 64, [
      ⟨"CERT", 0, 2048, .ro, .const 0⟩]⟩,
    ⟨"CMP_STATUS", 0x03800000, 0, 1, 0, 1, 1, [
      ⟨"STATE", 0, 2, .ro, .const 0⟩,
      ⟨"PC", 2, 14, .ro, .const 0⟩,
      ⟨"PATCHES", 16, 7, .ro, .const 0⟩,
      ⟨"HOST_PATCHES", 23, 1, .ro, .const 0⟩]⟩,
    ⟨"CMP_SAFE_GAP", 0x03800004, 0, 1, 0, 1, 1, [
      ⟨"MAX_GAP", 0, 16, .rc, .const 0⟩]⟩,
    ⟨"CMP_STORE_ECC", 0x03800008, 0, 1, 0, 1, 1, [
      ⟨"CE", 0, 16, .rc, .const 0⟩]⟩,
    ⟨"CMP_PATCH", 0x03801000, 0, 1, 8, 64, 2, [
      ⟨"ADDR", 0, 14, .ro, .const 0⟩,
      ⟨"ENABLE", 15, 1, .ro, .const 0⟩,
      ⟨"MICROWORD", 16, 24, .ro, .const 0⟩]⟩,
    ⟨"SNS_BG_CAP", 0x03C00000, 0, 1, 0, 1, 1, [
      ⟨"CMP_PCT", 0, 8, .rw, .const 10⟩,
      ⟨"AGE_MBS", 8, 16, .rw, .const 256⟩]⟩,
    ⟨"SNS_AGE_CTRL", 0x03C00004, 0, 1, 0, 1, 1, [
      ⟨"ENABLE", 0, 1, .rw, .const 1⟩,
      ⟨"UPDATE_NOW", 1, 1, .w1s, .const 0⟩,
      ⟨"PERIOD_MIN", 8, 8, .rw, .const 60⟩,
      ⟨"FLOOR", 16, 16, .rw, .const 16384⟩]⟩]

def regTable18 : List RegD := [
    ⟨"SNS_AGE_STATUS", 0x03C00008, 0, 1, 0, 1, 1, [
      ⟨"CURVES_VALID", 0, 1, .ro, .const 0⟩,
      ⟨"RUNNING", 1, 1, .ro, .const 0⟩,
      ⟨"DOSE_CHANGED", 2, 1, .ro, .const 0⟩,
      ⟨"PASSES", 16, 16, .rc, .const 0⟩]⟩,
    ⟨"SNS_AGE_REF", 0x03C00010, 0, 1, 0, 1, 2, [
      ⟨"REF", 0, 48, .ro, .const 0⟩]⟩,
    ⟨"SNS_SUMMARY", 0x03C00018, 0, 1, 0, 1, 1, [
      ⟨"PERIOD_H", 0, 8, .rw, .const 24⟩,
      ⟨"SLOT", 8, 2, .ro, .const 0⟩,
      ⟨"TRUNCATED", 10, 1, .ro, .const 0⟩,
      ⟨"WRITES", 16, 16, .rc, .const 0⟩]⟩,
    ⟨"SNS_TELEMETRY", 0x03C00020, 0, 1, 0, 1, 2, [
      ⟨"SEQ", 0, 32, .ro, .const 0⟩,
      ⟨"LOST", 32, 32, .rc, .const 0⟩]⟩,
    ⟨"SNS_WALL_LOAD", 0x03C00040, 0, 1, 0, 1, 2, [
      ⟨"CABINETS", 0, 12, .ro, .const 0⟩,
      ⟨"POWER_KW", 16, 16, .ro, .const 0⟩,
      ⟨"KPIXELS", 32, 32, .ro, .const 0⟩]⟩,
    ⟨"SNS_POWER_BUDGET", 0x03C00048, 0, 1, 0, 1, 1, [
      ⟨"BUDGET_KW", 0, 16, .rw, .const 0⟩,
      ⟨"OVER", 16, 1, .ro, .const 0⟩]⟩,
    ⟨"SNS_TEMP", 0x03C00100, 0, 1, 4, 32, 1, [
      ⟨"VALUE", 0, 16, .ro, .const 0⟩,
      ⟨"HIGH", 16, 1, .ro, .const 0⟩,
      ⟨"CRIT", 17, 1, .ro, .const 0⟩]⟩,
    ⟨"SNS_TEMP_THR", 0x03C00180, 0, 1, 4, 32, 1, [
      ⟨"HIGH", 0, 16, .rw, .tempHigh⟩,
      ⟨"CRIT", 16, 16, .rw, .tempCrit⟩]⟩,
    ⟨"SNS_RAIL", 0x03C00200, 0, 1, 4, 12, 1, [
      ⟨"MV", 0, 16, .ro, .const 0⟩,
      ⟨"LOW", 16, 1, .ro, .const 0⟩,
      ⟨"HIGH", 17, 1, .ro, .const 0⟩,
      ⟨"CRIT", 18, 1, .ro, .const 0⟩]⟩,
    ⟨"SNS_RAIL_THR", 0x03C00280, 0, 1, 8, 12, 2, [
      ⟨"LOW_WARN", 0, 16, .rw, .rail 97⟩,
      ⟨"HIGH_WARN", 16, 16, .rw, .rail 103⟩,
      ⟨"LOW_CRIT", 32, 16, .rw, .rail 92⟩,
      ⟨"HIGH_CRIT", 48, 16, .rw, .rail 108⟩]⟩,
    ⟨"SNS_CHAIN_LOAD", 0x03C01000, 0, 1, 4, 128, 1, [
      ⟨"CABINETS", 0, 5, .ro, .const 0⟩,
      ⟨"POWER_CLASS", 8, 12, .ro, .const 0⟩]⟩]

/-- Every register of the register tables. -/
def regTable : List RegD :=
  regTable0 ++
  regTable1 ++
  regTable2 ++
  regTable3 ++
  regTable4 ++
  regTable5 ++
  regTable6 ++
  regTable7 ++
  regTable8 ++
  regTable9 ++
  regTable10 ++
  regTable11 ++
  regTable12 ++
  regTable13 ++
  regTable14 ++
  regTable15 ++
  regTable16 ++
  regTable17 ++
  regTable18

namespace Rg

def PRJ_CTRL_DOSE_EN : Fld := ⟨0x01C00000, 0, 1, 0, 1, 0, 1⟩
def PRJ_CTRL_GAIN_EN : Fld := ⟨0x01C00000, 0, 1, 0, 1, 1, 1⟩
def PRJ_CTRL_DITHER_TEMPORAL : Fld := ⟨0x01C00000, 0, 1, 0, 1, 2, 1⟩
def PRJ_POOL_BASE_BASE : Fld := ⟨0x01C00008, 0, 1, 0, 1, 0, 64⟩
def PRJ_POOL_SIZE : Fld := ⟨0x01C00010, 0, 1, 0, 1, 0, 16⟩
def PRJ_POOL_FREE : Fld := ⟨0x01C00010, 0, 1, 0, 1, 16, 16⟩
def PRJ_LANE_LOAD_SHEET_RATE : Fld := ⟨0x01C00020, 0, 1, 4, 4, 0, 16⟩
def PRJ_LANE_LOAD_COMP_RATE : Fld := ⟨0x01C00020, 0, 1, 4, 4, 16, 16⟩
def PRJ_VIEW_GEOM_WIDTH : Fld := ⟨0x01C00100, 0, 1, 8, 8, 0, 16⟩
def PRJ_VIEW_GEOM_HEIGHT : Fld := ⟨0x01C00100, 0, 1, 8, 8, 16, 16⟩
def PRJ_VIEW_STATE_ENABLED : Fld := ⟨0x01C00104, 0, 1, 8, 8, 0, 1⟩
def PRJ_VIEW_STATE_THROUGH : Fld := ⟨0x01C00104, 0, 1, 8, 8, 1, 1⟩
def PRJ_VIEW_STATE_ENCODING : Fld := ⟨0x01C00104, 0, 1, 8, 8, 2, 2⟩
def PRJ_VIEW_STATE_LAYERS : Fld := ⟨0x01C00104, 0, 1, 8, 8, 4, 5⟩
def PRJ_VIEW_STATE_PICTURE : Fld := ⟨0x01C00104, 0, 1, 8, 8, 16, 16⟩
def PRJ_VIEW_LATE_LATE_LATITUDES : Fld := ⟨0x01C00140, 0, 1, 4, 8, 0, 16⟩
def PRJ_VIEW_LATE_FRAME_LATE : Fld := ⟨0x01C00140, 0, 1, 4, 8, 16, 16⟩
def PRJ_COEF_SEL_BANK : Fld := ⟨0x01C00200, 0, 1, 0, 1, 0, 3⟩
def PRJ_COEF_DATA_COEF : Fld := ⟨0x01C01000, 0, 1, 4, 1024, 0, 12⟩
def GZT_STATUS_ENABLED_SHEETS : Fld := ⟨0x01C08000, 0, 1, 0, 1, 0, 13⟩
def GZT_STATUS_PENDING : Fld := ⟨0x01C08000, 0, 1, 0, 1, 16, 1⟩
def GZT_REJECT_SHEET : Fld := ⟨0x01C08004, 0, 1, 0, 1, 0, 12⟩
def GZT_REJECT_REASON : Fld := ⟨0x01C08004, 0, 1, 0, 1, 16, 4⟩
def GZT_REJECT_VALID : Fld := ⟨0x01C08004, 0, 1, 0, 1, 31, 1⟩
def GZT_ENTRY_ENTRY : Fld := ⟨0x01C10000, 0, 1, 64, 4096, 0, 512⟩
def SCR_CORE_STATUS_STATE : Fld := ⟨0x01800000, 0, 1, 4, 24, 0, 3⟩
def SCR_CORE_STATUS_SHEET : Fld := ⟨0x01800000, 0, 1, 4, 24, 3, 1⟩
def SCR_CORE_STATUS_ID : Fld := ⟨0x01800000, 0, 1, 4, 24, 16, 12⟩
def SCR_CORE_ENABLE_ENABLE : Fld := ⟨0x01800080, 0, 1, 0, 1, 0, 24⟩
def SCR_DISPATCH_CTRL_SHED_AFTER : Fld := ⟨0x01800084, 0, 1, 0, 1, 0, 4⟩
def SCR_DISPATCH_CTRL_SKIP_NONREF : Fld := ⟨0x01800084, 0, 1, 0, 1, 4, 1⟩
def SCR_DISPATCH_CTRL_ADMIT_LIMIT : Fld := ⟨0x01800084, 0, 1, 0, 1, 16, 16⟩
def SCR_LOAD_ADMITTED : Fld := ⟨0x01800088, 0, 1, 0, 1, 0, 16⟩
def SCR_LOAD_MEASURED : Fld := ⟨0x01800088, 0, 1, 0, 1, 16, 16⟩
def SCR_MISS_COUNT_MISSES : Fld := ⟨0x0180008C, 0, 1, 0, 1, 0, 32⟩
def SCR_POOL_BASE_BASE : Fld := ⟨0x01800090, 0, 1, 0, 1, 0, 64⟩
def SCR_POOL_SIZE : Fld := ⟨0x01800098, 0, 1, 0, 1, 0, 16⟩
def SCR_POOL_FREE : Fld := ⟨0x01800098, 0, 1, 0, 1, 16, 16⟩
def SCR_INTAKE_STATUS_CELLS : Fld := ⟨0x01800100, 0, 1, 0, 1, 0, 16⟩
def SCR_INTAKE_STATUS_HIGH_WATER : Fld := ⟨0x01800100, 0, 1, 0, 1, 16, 16⟩
def SCR_INTAKE_DROP_DROPPED : Fld := ⟨0x01800104, 0, 1, 0, 1, 0, 32⟩
def SCR_STREAM_SEL_STREAM : Fld := ⟨0x01800200, 0, 1, 0, 1, 0, 9⟩
def SCR_STREAM_STATE_STATE : Fld := ⟨0x01800204, 0, 1, 0, 1, 0, 3⟩
def SCR_STREAM_STATE_CONCEALED : Fld := ⟨0x01800204, 0, 1, 0, 1, 3, 1⟩
def SCR_STREAM_STATE_MODE : Fld := ⟨0x01800204, 0, 1, 0, 1, 4, 2⟩
def SCR_STREAM_STATE_SHEDDING : Fld := ⟨0x01800204, 0, 1, 0, 1, 6, 1⟩
def SCR_STREAM_STATE_PICTURES : Fld := ⟨0x01800204, 0, 1, 0, 1, 16, 16⟩
def SCR_STREAM_LOSS_PACKETS : Fld := ⟨0x01800208, 0, 1, 0, 1, 0, 16⟩
def SCR_STREAM_LOSS_SLICES : Fld := ⟨0x01800208, 0, 1, 0, 1, 16, 16⟩
def SCR_STREAM_LATE_DEADLINE_MISS : Fld := ⟨0x0180020C, 0, 1, 0, 1, 0, 16⟩
def SCR_STREAM_LATE_SKIPPED : Fld := ⟨0x0180020C, 0, 1, 0, 1, 16, 16⟩
def SCR_STREAM_COMMIT_ROWS : Fld := ⟨0x01800210, 0, 1, 0, 1, 0, 16⟩
def SCR_STREAM_COMMIT_PICTURE : Fld := ⟨0x01800210, 0, 1, 0, 1, 16, 16⟩
def SCR_STREAM_CLL_MAX_CLL : Fld := ⟨0x01800220, 0, 1, 0, 1, 0, 16⟩
def SCR_STREAM_CLL_MAX_FALL : Fld := ⟨0x01800220, 0, 1, 0, 1, 16, 16⟩
def SCR_STREAM_MDL_MAX_LUM : Fld := ⟨0x01800224, 0, 1, 0, 1, 0, 16⟩
def SCR_STREAM_MDL_MIN_LUM : Fld := ⟨0x01800224, 0, 1, 0, 1, 16, 16⟩
def SCR_ENC_CTRL_I_PERIOD : Fld := ⟨0x01880000, 0, 1, 0, 1, 0, 8⟩
def SCR_ENC_CTRL_ANCHOR_MODE : Fld := ⟨0x01880000, 0, 1, 0, 1, 8, 1⟩
def SCR_ENC_CTRL_TS_EN : Fld := ⟨0x01880000, 0, 1, 0, 1, 9, 1⟩
def SCR_ENC_CTRL_ACT_STRENGTH : Fld := ⟨0x01880000, 0, 1, 0, 1, 10, 2⟩
def SCR_ENC_CTRL_QP_INIT : Fld := ⟨0x01880000, 0, 1, 0, 1, 12, 6⟩
def SCR_ENC_CTRL_TS_QP : Fld := ⟨0x01880000, 0, 1, 0, 1, 18, 6⟩
def SCR_ENC_CTRL_ME_EN : Fld := ⟨0x01880000, 0, 1, 0, 1, 24, 1⟩
def SCR_RC_CTRL_TARGET_PCT : Fld := ⟨0x01880004, 0, 1, 0, 1, 0, 7⟩
def SCR_ENC_REFRESH_SHEET : Fld := ⟨0x01880008, 0, 1, 0, 1, 0, 12⟩
def SCR_ENC_REFRESH_ALL : Fld := ⟨0x01880008, 0, 1, 0, 1, 31, 1⟩
def SCR_ENC_FLOOR_COUNT_FLOOR_PICTURES : Fld := ⟨0x01880080, 0, 1, 0, 1, 0, 16⟩
def SCR_ENC_FLOOR_COUNT_REPEAT_PICTURES : Fld := ⟨0x01880080, 0, 1, 0, 1, 16, 16⟩
def SCR_ENC_EARLY_COUNT_CLOSED_EARLY : Fld := ⟨0x01880084, 0, 1, 0, 1, 0, 16⟩
def SCR_ENC_EARLY_COUNT_ABANDONED_ROWS : Fld := ⟨0x01880084, 0, 1, 0, 1, 16, 16⟩
def SCR_ENC_SEL_SHEET : Fld := ⟨0x01880100, 0, 1, 0, 1, 0, 12⟩
def SCR_ENC_PIC_PICTURE : Fld := ⟨0x01880104, 0, 1, 0, 1, 0, 16⟩
def SCR_ENC_PIC_TYPE : Fld := ⟨0x01880104, 0, 1, 0, 1, 16, 1⟩
def SCR_ENC_PIC_CLOSED_EARLY : Fld := ⟨0x01880104, 0, 1, 0, 1, 17, 1⟩
def SCR_ENC_PIC_MEAN_QP : Fld := ⟨0x01880104, 0, 1, 0, 1, 24, 6⟩
def SCR_ENC_BYTES_BYTES : Fld := ⟨0x01880108, 0, 1, 0, 1, 0, 32⟩
def SCR_ENC_ROWS_FIRST_FLOOR : Fld := ⟨0x0188010C, 0, 1, 0, 1, 0, 16⟩
def SCR_ENC_ROWS_FIRST_REPEAT : Fld := ⟨0x0188010C, 0, 1, 0, 1, 16, 16⟩
def SCR_ENC_FULLNESS_F : Fld := ⟨0x01880110, 0, 1, 0, 1, 0, 32⟩
def SHT_CTRL_ETHERTYPE : Fld := ⟨0x02000000, 0, 1, 0, 1, 0, 16⟩
def SHT_CTRL_PCP_DATA : Fld := ⟨0x02000000, 0, 1, 0, 1, 16, 3⟩
def SHT_CTRL_PCP_PRESENT : Fld := ⟨0x02000000, 0, 1, 0, 1, 19, 3⟩
def SHT_CTRL_PCP_MGMT : Fld := ⟨0x02000000, 0, 1, 0, 1, 22, 3⟩
def SHT_CTRL_NACK_REFRESH : Fld := ⟨0x02000000, 0, 1, 0, 1, 25, 1⟩
def SHT_CTRL_VLAN_EN : Fld := ⟨0x02000000, 0, 1, 0, 1, 26, 1⟩
def SHT_VLAN_VID : Fld := ⟨0x02000004, 0, 1, 0, 1, 0, 12⟩
def SHT_GUARD_GUARD_NS : Fld := ⟨0x02000008, 0, 1, 0, 1, 0, 24⟩
def SHT_LAUNCH_MARGIN_NS : Fld := ⟨0x0200000C, 0, 1, 0, 1, 0, 16⟩
def SHT_LAUNCH_LEAD_US : Fld := ⟨0x0200000C, 0, 1, 0, 1, 16, 16⟩
def SHT_MAX_DATA_BYTES : Fld := ⟨0x02000010, 0, 1, 0, 1, 0, 14⟩
def SHT_SRC_MAC_ADDR : Fld := ⟨0x02000018, 0, 1, 0, 1, 0, 48⟩
def SHT_SHEET_MAC_PREFIX : Fld := ⟨0x02000020, 0, 1, 0, 1, 0, 40⟩
def SHT_PING_PERIOD_S : Fld := ⟨0x02000028, 0, 1, 0, 1, 0, 8⟩
def SHT_SCHED_STATUS_RUNNING : Fld := ⟨0x02000030, 0, 1, 0, 1, 0, 1⟩
def SHT_SCHED_STATUS_VIEWS_M1 : Fld := ⟨0x02000030, 0, 1, 0, 1, 1, 3⟩
def SHT_SCHED_STATUS_HELD : Fld := ⟨0x02000030, 0, 1, 0, 1, 8, 8⟩
def SHT_SCHED_STATUS_REJECT_PORT : Fld := ⟨0x02000030, 0, 1, 0, 1, 16, 7⟩
def SHT_COUNTS_LAUNCH_LATE : Fld := ⟨0x02000034, 0, 1, 0, 1, 0, 16⟩
def SHT_COUNTS_HELD_PICTURES : Fld := ⟨0x02000034, 0, 1, 0, 1, 16, 16⟩
def SHT_NACK_COUNT_NACKS : Fld := ⟨0x02000038, 0, 1, 0, 1, 0, 16⟩
def SHT_NACK_COUNT_REPLY_INVALID : Fld := ⟨0x02000038, 0, 1, 0, 1, 16, 16⟩
def SHT_PARTIAL_PORTS : Fld := ⟨0x02000040, 0, 1, 0, 1, 0, 128⟩
def SHT_CHAIN_CABINETS : Fld := ⟨0x02000800, 0, 1, 4, 128, 0, 5⟩
def SHT_CHAIN_TIMED : Fld := ⟨0x02000800, 0, 1, 4, 128, 16, 16⟩
def SHT_HOP_DELAY_DELAY_NS : Fld := ⟨0x02001000, 64, 128, 4, 16, 0, 24⟩
def SHT_HOP_DELAY_LOCK : Fld := ⟨0x02001000, 64, 128, 4, 16, 30, 1⟩
def SHT_HOP_DELAY_VALID : Fld := ⟨0x02001000, 64, 128, 4, 16, 31, 1⟩
def SHT_CAB_RECORD_RECORD : Fld := ⟨0x02008000, 0, 1, 64, 2048, 0, 512⟩
def MER_CTRL_SOURCE : Fld := ⟨0x02400000, 0, 1, 0, 1, 0, 3⟩
def MER_CTRL_STEP_RUNNING : Fld := ⟨0x02400000, 0, 1, 0, 1, 3, 1⟩
def MER_CTRL_TWO_STEP : Fld := ⟨0x02400000, 0, 1, 0, 1, 4, 1⟩
def MER_CTRL_PPS_OUT_EN : Fld := ⟨0x02400000, 0, 1, 0, 1, 5, 1⟩
def MER_STATUS_TIME_VALID : Fld := ⟨0x02400004, 0, 1, 0, 1, 0, 1⟩
def MER_STATUS_LOCKED : Fld := ⟨0x02400004, 0, 1, 0, 1, 1, 1⟩
def MER_STATUS_HOLDOVER : Fld := ⟨0x02400004, 0, 1, 0, 1, 2, 1⟩
def MER_STATUS_SLEWING : Fld := ⟨0x02400004, 0, 1, 0, 1, 3, 1⟩
def MER_STATUS_GRANDMASTER : Fld := ⟨0x02400004, 0, 1, 0, 1, 4, 1⟩
def MER_STATUS_SLAVE_PORT : Fld := ⟨0x02400004, 0, 1, 0, 1, 8, 7⟩
def MER_STATUS_SLAVE_VALID : Fld := ⟨0x02400004, 0, 1, 0, 1, 15, 1⟩
def MER_STATUS_STEPS_REMOVED : Fld := ⟨0x02400004, 0, 1, 0, 1, 16, 8⟩
def MER_STATUS_STEPS : Fld := ⟨0x02400004, 0, 1, 0, 1, 24, 8⟩
def MER_TIME_CMD_LATCH : Fld := ⟨0x02400008, 0, 1, 0, 1, 0, 1⟩
def MER_TIME_CMD_SET : Fld := ⟨0x02400008, 0, 1, 0, 1, 1, 1⟩
def MER_TIME_CMD_STEP : Fld := ⟨0x02400008, 0, 1, 0, 1, 2, 1⟩
def MER_MFT_SEC_SEC : Fld := ⟨0x02400010, 0, 1, 0, 1, 0, 48⟩
def MER_MFT_SUB_FRAC : Fld := ⟨0x02400018, 0, 1, 0, 1, 0, 16⟩
def MER_MFT_SUB_NS : Fld := ⟨0x02400018, 0, 1, 0, 1, 16, 30⟩
def MER_STEP_OFFSET_NS : Fld := ⟨0x02400020, 0, 1, 0, 1, 0, 64⟩
def MER_MST_LIVE : Fld := ⟨0x02400028, 0, 1, 0, 1, 0, 32⟩
def MER_MST_LATCHED : Fld := ⟨0x02400028, 0, 1, 0, 1, 32, 32⟩
def MER_FREQ_ADJ_ADJ : Fld := ⟨0x02400030, 0, 1, 0, 1, 0, 40⟩
def MER_SERVO_GAIN_KP : Fld := ⟨0x02400038, 0, 1, 0, 1, 0, 16⟩
def MER_SERVO_GAIN_KI : Fld := ⟨0x02400038, 0, 1, 0, 1, 16, 16⟩
def MER_SERVO_LOCK_LOCK_NS : Fld := ⟨0x0240003C, 0, 1, 0, 1, 0, 11⟩
def MER_SERVO_LOCK_LOCK_COUNT : Fld := ⟨0x0240003C, 0, 1, 0, 1, 11, 5⟩
def MER_SERVO_LOCK_UNLOCK_NS : Fld := ⟨0x0240003C, 0, 1, 0, 1, 16, 11⟩
def MER_SERVO_LOCK_UNLOCK_COUNT : Fld := ⟨0x0240003C, 0, 1, 0, 1, 27, 5⟩
def MER_SERVO_STEP_STEP_US : Fld := ⟨0x02400040, 0, 1, 0, 1, 0, 16⟩
def MER_SERVO_STEP_SLEW_PPM : Fld := ⟨0x02400040, 0, 1, 0, 1, 16, 8⟩
def MER_SERVO_OFFSET_OFFSET : Fld := ⟨0x02400048, 0, 1, 0, 1, 0, 40⟩
def MER_SERVO_OFFSET_LOG_INTERVAL : Fld := ⟨0x02400048, 0, 1, 0, 1, 40, 5⟩
def MER_PPS_OUT_OFFSET_NS : Fld := ⟨0x02400050, 0, 1, 0, 1, 0, 24⟩
def MER_PPS_OUT_WIDTH_US : Fld := ⟨0x02400050, 0, 1, 0, 1, 24, 8⟩
def MER_PIN_COMP_OUT_NS : Fld := ⟨0x02400054, 0, 1, 0, 1, 0, 8⟩
def MER_PIN_COMP_IN_NS : Fld := ⟨0x02400054, 0, 1, 0, 1, 8, 8⟩
def MER_SYNC_IN_PERIOD_NS : Fld := ⟨0x02400058, 0, 1, 0, 1, 0, 31⟩
def MER_SYNC_IN_FALLING : Fld := ⟨0x02400058, 0, 1, 0, 1, 31, 1⟩
def MER_CAPTURE_MST : Fld := ⟨0x02400060, 0, 1, 0, 1, 0, 32⟩
def MER_CAPTURE_INPUT : Fld := ⟨0x02400060, 0, 1, 0, 1, 32, 1⟩
def MER_CAPTURE_VALID : Fld := ⟨0x02400060, 0, 1, 0, 1, 63, 1⟩
def MER_PTP_CTRL_PROFILE : Fld := ⟨0x02400068, 0, 1, 0, 1, 0, 2⟩
def MER_PTP_CTRL_DOMAIN : Fld := ⟨0x02400068, 0, 1, 0, 1, 8, 8⟩
def MER_PTP_CTRL_LOG_SYNC : Fld := ⟨0x02400068, 0, 1, 0, 1, 16, 4⟩
def MER_PTP_CTRL_LOG_ANNOUNCE : Fld := ⟨0x02400068, 0, 1, 0, 1, 20, 4⟩
def MER_PTP_CLOCK_PRIORITY1 : Fld := ⟨0x0240006C, 0, 1, 0, 1, 0, 8⟩
def MER_PTP_CLOCK_PRIORITY2 : Fld := ⟨0x0240006C, 0, 1, 0, 1, 8, 8⟩
def MER_PTP_CLOCK_CLOCK_CLASS : Fld := ⟨0x0240006C, 0, 1, 0, 1, 16, 8⟩
def MER_PTP_CLOCK_HOLDOVER_CLASS : Fld := ⟨0x0240006C, 0, 1, 0, 1, 24, 8⟩
def MER_PTP_STATUS_INVALID : Fld := ⟨0x02400070, 0, 1, 0, 1, 0, 16⟩
def MER_PTP_STATUS_OVERLOAD : Fld := ⟨0x02400070, 0, 1, 0, 1, 16, 16⟩
def MER_TS_CORR_EGRESS : Fld := ⟨0x02400100, 0, 1, 4, 8, 0, 16⟩
def MER_TS_CORR_INGRESS : Fld := ⟨0x02400100, 0, 1, 4, 8, 16, 16⟩
def MER_PORT_ASYM_ASYM : Fld := ⟨0x02400200, 0, 1, 4, 128, 0, 32⟩
def MER_PTP_PORT_ROLE : Fld := ⟨0x02400400, 0, 1, 4, 128, 0, 2⟩
def MER_PTP_PORT_TC : Fld := ⟨0x02400400, 0, 1, 4, 128, 2, 1⟩
def MER_PTP_PORT_STATE : Fld := ⟨0x02400400, 0, 1, 4, 128, 8, 3⟩
def MER_PTP_MPD_DELAY : Fld := ⟨0x02400600, 0, 1, 4, 128, 0, 31⟩
def MER_PTP_MPD_VALID : Fld := ⟨0x02400600, 0, 1, 4, 128, 31, 1⟩
def MER_TRIG_START_START : Fld := ⟨0x02401000, 0, 1, 32, 16, 0, 32⟩
def MER_TRIG_PERIOD_PERIOD_FRAC : Fld := ⟨0x02401008, 0, 1, 32, 16, 0, 16⟩
def MER_TRIG_PERIOD_PERIOD_NS : Fld := ⟨0x02401008, 0, 1, 32, 16, 16, 31⟩
def MER_TRIG_CTRL_ACTION : Fld := ⟨0x02401010, 0, 1, 32, 16, 0, 2⟩
def MER_TRIG_CTRL_PIN_MASK : Fld := ⟨0x02401010, 0, 1, 32, 16, 2, 4⟩
def MER_TRIG_CTRL_PORT : Fld := ⟨0x02401010, 0, 1, 32, 16, 6, 7⟩
def MER_TRIG_CTRL_CLASS : Fld := ⟨0x02401010, 0, 1, 32, 16, 13, 3⟩
def MER_TRIG_CTRL_WIDTH : Fld := ⟨0x02401010, 0, 1, 32, 16, 16, 15⟩
def MER_TRIG_CTRL_ARM : Fld := ⟨0x02401010, 0, 1, 32, 16, 31, 1⟩
def MER_TRIG_COUNT_COUNT : Fld := ⟨0x02401014, 0, 1, 32, 16, 0, 32⟩
def MER_TRIG_STATUS_MISSED : Fld := ⟨0x02401018, 0, 1, 32, 16, 0, 16⟩
def MER_TRIG_STATUS_FIRED : Fld := ⟨0x02401018, 0, 1, 32, 16, 16, 16⟩
def MER_TRIG_LAST_LAST : Fld := ⟨0x0240101C, 0, 1, 32, 16, 0, 32⟩
def PRT_STATUS_STATE : Fld := ⟨0x02800000, 2097152, 2, 4096, 64, 0, 3⟩
def PRT_STATUS_BOND_MEMBER : Fld := ⟨0x02800000, 2097152, 2, 4096, 64, 3, 1⟩
def PRT_STATUS_RATE : Fld := ⟨0x02800000, 2097152, 2, 4096, 64, 4, 4⟩
def PRT_STATUS_FEC_ACTIVE : Fld := ⟨0x02800000, 2097152, 2, 4096, 64, 8, 1⟩
def PRT_STATUS_DOWN_COUNT : Fld := ⟨0x02800000, 2097152, 2, 4096, 64, 16, 8⟩
def PRT_CFG_RATE : Fld := ⟨0x02800004, 2097152, 2, 4096, 64, 0, 4⟩
def PRT_CFG_AN_EN : Fld := ⟨0x02800004, 2097152, 2, 4096, 64, 4, 1⟩
def PRT_CFG_CASCADE : Fld := ⟨0x02800004, 2097152, 2, 4096, 64, 5, 1⟩
def PRT_CFG_PAUSE : Fld := ⟨0x02800004, 2097152, 2, 4096, 64, 6, 1⟩
def PRT_CFG_PFC : Fld := ⟨0x02800004, 2097152, 2, 4096, 64, 7, 1⟩
def PRT_CFG_CUT_THROUGH : Fld := ⟨0x02800004, 2097152, 2, 4096, 64, 8, 8⟩
def PRT_CFG_MAX_FRAME : Fld := ⟨0x02800004, 2097152, 2, 4096, 64, 16, 14⟩
def PRT_CFG_MEDIUM : Fld := ⟨0x02800004, 2097152, 2, 4096, 64, 30, 2⟩
def PRT_AN_PARTNER_ABILITY : Fld := ⟨0x02800008, 2097152, 2, 4096, 64, 0, 23⟩
def PRT_AN_PARTNER_FEC : Fld := ⟨0x02800008, 2097152, 2, 4096, 64, 23, 4⟩
def PRT_CHAN_IL : Fld := ⟨0x02800010, 2097152, 2, 4096, 64, 0, 16⟩
def PRT_CHAN_LEN_DM : Fld := ⟨0x02800010, 2097152, 2, 4096, 64, 16, 16⟩
def PRT_RX_FRAMES_FRAMES : Fld := ⟨0x02800040, 2097152, 2, 4096, 64, 0, 32⟩
def PRT_TX_FRAMES_FRAMES : Fld := ⟨0x02800044, 2097152, 2, 4096, 64, 0, 32⟩
def PRT_RX_ERRORS_FCS : Fld := ⟨0x02800048, 2097152, 2, 4096, 64, 0, 16⟩
def PRT_RX_ERRORS_LENGTH : Fld := ⟨0x02800048, 2097152, 2, 4096, 64, 16, 16⟩
def PRT_FEC_CORRECTED : Fld := ⟨0x0280004C, 2097152, 2, 4096, 64, 0, 16⟩
def PRT_FEC_UNCORRECTED : Fld := ⟨0x0280004C, 2097152, 2, 4096, 64, 16, 16⟩
def PRT_FLUSHED_FRAMES : Fld := ⟨0x02800050, 2097152, 2, 4096, 64, 0, 32⟩
def PRT_CHAN_CFG_HOST_LOSS : Fld := ⟨0x02900000, 0, 1, 2097152, 2, 0, 8⟩
def PRT_CHAN_CFG_PARTNER_LOSS : Fld := ⟨0x02900000, 0, 1, 2097152, 2, 8, 8⟩
def PRT_LINK_UP_UP : Fld := ⟨0x02900008, 0, 1, 2097152, 2, 0, 64⟩
def SW_CTRL_UNKNOWN_TO_HOST : Fld := ⟨0x02C00000, 0, 1, 0, 1, 0, 1⟩
def SW_CTRL_LINK_LOCAL_TO_HOST : Fld := ⟨0x02C00000, 0, 1, 0, 1, 1, 1⟩
def SW_CTRL_FENCE_TIMEOUT_MS : Fld := ⟨0x02C00000, 0, 1, 0, 1, 16, 16⟩
def SW_POOL_CFG_HEADROOM : Fld := ⟨0x02C00004, 0, 1, 0, 1, 0, 18⟩
def SW_POOL_STATUS_FREE : Fld := ⟨0x02C00008, 0, 1, 0, 1, 0, 18⟩
def SW_POOL_SHARED_SHARED_SIZE : Fld := ⟨0x02C0000C, 0, 1, 0, 1, 0, 18⟩
def SW_EPOCH_EPOCH : Fld := ⟨0x02C00010, 0, 1, 0, 1, 0, 3⟩
def SW_EPOCH_FENCE_PENDING : Fld := ⟨0x02C00010, 0, 1, 0, 1, 4, 3⟩
def SW_DROP_POOL_EMPTY : Fld := ⟨0x02C00020, 0, 1, 0, 1, 0, 16⟩
def SW_DROP_THRESHOLD : Fld := ⟨0x02C00020, 0, 1, 0, 1, 16, 16⟩
def SW_DROP2_MCAST_EMPTY : Fld := ⟨0x02C00024, 0, 1, 0, 1, 0, 16⟩
def SW_DROP2_FENCE_DROP : Fld := ⟨0x02C00024, 0, 1, 0, 1, 16, 16⟩
def SW_STOMP_COUNT_STOMPED : Fld := ⟨0x02C00028, 0, 1, 0, 1, 0, 32⟩
def SW_MIRROR_INSET : Fld := ⟨0x02C00030, 0, 1, 0, 1, 0, 8⟩
def SW_MIRROR_ACTIVE : Fld := ⟨0x02C00030, 0, 1, 0, 1, 8, 4⟩
def SW_MIRROR_DROPPED : Fld := ⟨0x02C00030, 0, 1, 0, 1, 16, 16⟩
def SW_TABLE_FILL_MAC : Fld := ⟨0x02C00034, 0, 1, 0, 1, 0, 16⟩
def SW_TABLE_FILL_FLOW : Fld := ⟨0x02C00034, 0, 1, 0, 1, 16, 14⟩
def SW_USE_CELLS : Fld := ⟨0x02C01000, 32, 146, 4, 8, 0, 16⟩
def SW_USE_HIGH_WATER : Fld := ⟨0x02C01000, 32, 146, 4, 8, 16, 16⟩
def TM_CTRL_GATE_LEAD_US : Fld := ⟨0x03000000, 0, 1, 0, 1, 0, 16⟩
def TM_CTRL_METER_EN : Fld := ⟨0x03000000, 0, 1, 0, 1, 16, 1⟩
def TM_WHEEL_STATUS_OVERFLOW : Fld := ⟨0x03000004, 0, 1, 0, 1, 0, 16⟩
def TM_WHEEL_STATUS_LATE_SLOTS : Fld := ⟨0x03000004, 0, 1, 0, 1, 16, 16⟩
def TM_SHAPER_SEL_PORT : Fld := ⟨0x03000010, 0, 1, 0, 1, 0, 8⟩
def TM_SHAPER_SEL_CLASS : Fld := ⟨0x03000010, 0, 1, 0, 1, 8, 3⟩
def TM_SHAPER_STATE_CREDIT : Fld := ⟨0x03000014, 0, 1, 0, 1, 0, 16⟩
def TM_SHAPER_STATE_ENABLED : Fld := ⟨0x03000014, 0, 1, 0, 1, 16, 1⟩
def TM_SHAPER_STATE_PAUSED : Fld := ⟨0x03000014, 0, 1, 0, 1, 17, 1⟩
def TM_SHAPER_RATE_RATE_PPS : Fld := ⟨0x03000018, 0, 1, 0, 1, 0, 32⟩
def TM_METER_SEL_METER : Fld := ⟨0x03000020, 0, 1, 0, 1, 0, 12⟩
def TM_METER_GREEN_PACKETS : Fld := ⟨0x03000024, 0, 1, 0, 1, 0, 32⟩
def TM_METER_YELLOW_PACKETS : Fld := ⟨0x03000028, 0, 1, 0, 1, 0, 32⟩
def TM_METER_RED_PACKETS : Fld := ⟨0x0300002C, 0, 1, 0, 1, 0, 32⟩
def TM_METER_DROP_DROPPED : Fld := ⟨0x03000030, 0, 1, 0, 1, 0, 32⟩
def TM_SCHED_STRICT : Fld := ⟨0x03001000, 0, 1, 64, 130, 0, 8⟩
def TM_SCHED_DEFAULT_PCP : Fld := ⟨0x03001000, 0, 1, 64, 130, 8, 3⟩
def TM_WEIGHT_LO_W0 : Fld := ⟨0x03001004, 0, 1, 64, 130, 0, 8⟩
def TM_WEIGHT_LO_W1 : Fld := ⟨0x03001004, 0, 1, 64, 130, 8, 8⟩
def TM_WEIGHT_LO_W2 : Fld := ⟨0x03001004, 0, 1, 64, 130, 16, 8⟩
def TM_WEIGHT_LO_W3 : Fld := ⟨0x03001004, 0, 1, 64, 130, 24, 8⟩
def TM_WEIGHT_HI_W0 : Fld := ⟨0x03001008, 0, 1, 64, 130, 0, 8⟩
def TM_WEIGHT_HI_W1 : Fld := ⟨0x03001008, 0, 1, 64, 130, 8, 8⟩
def TM_WEIGHT_HI_W2 : Fld := ⟨0x03001008, 0, 1, 64, 130, 16, 8⟩
def TM_WEIGHT_HI_W3 : Fld := ⟨0x03001008, 0, 1, 64, 130, 24, 8⟩
def TM_GATE_STATUS_STATES : Fld := ⟨0x0300100C, 0, 1, 64, 130, 0, 8⟩
def TM_GATE_STATUS_PENDING : Fld := ⟨0x0300100C, 0, 1, 64, 130, 8, 1⟩
def TM_GATE_STATUS_OPERATIONAL : Fld := ⟨0x0300100C, 0, 1, 64, 130, 9, 1⟩
def TM_GATE_STATUS_LENGTH : Fld := ⟨0x0300100C, 0, 1, 64, 130, 16, 9⟩
def TM_GATE_START_START : Fld := ⟨0x03001010, 0, 1, 64, 130, 0, 32⟩
def TM_QUEUE_STATE_NONEMPTY : Fld := ⟨0x03001014, 0, 1, 64, 130, 0, 8⟩
def TM_QUEUE_STATE_PAUSED : Fld := ⟨0x03001014, 0, 1, 64, 130, 8, 8⟩
def TM_QUEUE_STATE_SHAPER_WAIT : Fld := ⟨0x03001014, 0, 1, 64, 130, 16, 8⟩
def TM_QUEUE_STATE_GATE_WAIT : Fld := ⟨0x03001014, 0, 1, 64, 130, 24, 8⟩
def TM_GATE_DROPS_OVERSIZE : Fld := ⟨0x03001018, 0, 1, 64, 130, 0, 16⟩
def HIF_CTRL_POLL_100NS : Fld := ⟨0x00C00000, 0, 1, 0, 1, 0, 8⟩
def HIF_CTRL_IDLE_US : Fld := ⟨0x00C00000, 0, 1, 0, 1, 8, 16⟩
def HIF_STATUS_SPEED : Fld := ⟨0x00C00004, 0, 1, 0, 1, 0, 3⟩
def HIF_STATUS_WIDTH : Fld := ⟨0x00C00004, 0, 1, 0, 1, 3, 5⟩
def HIF_STATUS_DSTATE : Fld := ⟨0x00C00004, 0, 1, 0, 1, 8, 2⟩
def HIF_STATUS_L1 : Fld := ⟨0x00C00004, 0, 1, 0, 1, 10, 1⟩
def HIF_STATUS_LINK_DOWNS : Fld := ⟨0x00C00004, 0, 1, 0, 1, 16, 16⟩
def HIF_DBREC_BASE_BASE : Fld := ⟨0x00C00008, 0, 1, 0, 1, 12, 52⟩
def HIF_UNMAPPED_ADDR_OFFSET : Fld := ⟨0x00C00010, 0, 1, 0, 1, 0, 26⟩
def HIF_UNMAPPED_ADDR_VALID : Fld := ⟨0x00C00010, 0, 1, 0, 1, 31, 1⟩
def HIF_PM_CTRL_WAKE_N_EN : Fld := ⟨0x00C00014, 0, 1, 0, 1, 0, 1⟩
def HIF_ERR_COUNT_CPL_TIMEOUT : Fld := ⟨0x00C00018, 0, 1, 0, 1, 0, 16⟩
def HIF_ERR_COUNT_POISONED : Fld := ⟨0x00C00018, 0, 1, 0, 1, 16, 16⟩
def HIF_SQ_BASE_BASE : Fld := ⟨0x00C01000, 0, 1, 16, 64, 12, 52⟩
def HIF_SQ_CFG_DEPTH_EXP : Fld := ⟨0x00C01008, 0, 1, 16, 64, 0, 5⟩
def HIF_SQ_CFG_CQ : Fld := ⟨0x00C01008, 0, 1, 16, 64, 8, 6⟩
def HIF_SQ_CTRL_ENABLE : Fld := ⟨0x00C0100C, 0, 1, 16, 64, 0, 1⟩
def HIF_SQ_CTRL_STOP : Fld := ⟨0x00C0100C, 0, 1, 16, 64, 1, 1⟩
def HIF_SQ_CTRL_STATE : Fld := ⟨0x00C0100C, 0, 1, 16, 64, 2, 3⟩
def HIF_SQ_CTRL_CHANNEL : Fld := ⟨0x00C0100C, 0, 1, 16, 64, 8, 6⟩
def HIF_SQ_CTRL_HEAD : Fld := ⟨0x00C0100C, 0, 1, 16, 64, 16, 16⟩
def HIF_CQ_BASE_BASE : Fld := ⟨0x00C02000, 0, 1, 16, 64, 12, 52⟩
def HIF_CQ_CFG_DEPTH_EXP : Fld := ⟨0x00C02008, 0, 1, 16, 64, 0, 5⟩
def HIF_CQ_CFG_VECTOR : Fld := ⟨0x00C02008, 0, 1, 16, 64, 8, 8⟩
def HIF_CQ_CFG_ENABLE : Fld := ⟨0x00C02008, 0, 1, 16, 64, 16, 1⟩
def HIF_CQ_STATUS_TAIL : Fld := ⟨0x00C0200C, 0, 1, 16, 64, 0, 16⟩
def HIF_CQ_STATUS_HELD : Fld := ⟨0x00C0200C, 0, 1, 16, 64, 16, 7⟩
def HIF_VEC_MOD_COUNT : Fld := ⟨0x00C03000, 0, 1, 4, 256, 0, 8⟩
def HIF_VEC_MOD_TIME_US : Fld := ⟨0x00C03000, 0, 1, 4, 256, 8, 16⟩
def HIF_VEC_MOD_PENDING : Fld := ⟨0x00C03000, 0, 1, 4, 256, 24, 8⟩
def HIF_DMA_CH_ENGINE : Fld := ⟨0x00C04000, 0, 1, 4, 64, 0, 2⟩
def HIF_DMA_CH_OWNER : Fld := ⟨0x00C04000, 0, 1, 4, 64, 8, 8⟩
def HIF_DMA_ENGINE_DESCRIPTORS : Fld := ⟨0x00C04100, 0, 1, 4, 4, 0, 16⟩
def HIF_DMA_ENGINE_ACTIVE : Fld := ⟨0x00C04100, 0, 1, 4, 4, 16, 7⟩
def INT_SRC_CFG_SENSE : Fld := ⟨0x01000000, 0, 1, 4, 1024, 0, 3⟩
def INT_SRC_CFG_EVQ_EN : Fld := ⟨0x01000000, 0, 1, 4, 1024, 3, 1⟩
def INT_SRC_CFG_VEC_EN : Fld := ⟨0x01000000, 0, 1, 4, 1024, 4, 1⟩
def INT_SRC_CFG_AUTO_ACK : Fld := ⟨0x01000000, 0, 1, 4, 1024, 5, 1⟩
def INT_SRC_CFG_VECTOR : Fld := ⟨0x01000000, 0, 1, 4, 1024, 8, 8⟩
def INT_SRC_CFG_CLASS : Fld := ⟨0x01000000, 0, 1, 4, 1024, 16, 2⟩
def INT_SRC_CFG_STATE : Fld := ⟨0x01000000, 0, 1, 4, 1024, 18, 2⟩
def INT_SRC_LEVEL_LEVEL : Fld := ⟨0x01001000, 0, 1, 4, 32, 0, 32⟩
def INT_SRC_ACK_SOURCE : Fld := ⟨0x01001100, 0, 1, 0, 1, 0, 10⟩
def INT_EVQ_POP_PARAM : Fld := ⟨0x01002000, 0, 1, 0, 1, 0, 16⟩
def INT_EVQ_POP_SOURCE : Fld := ⟨0x01002000, 0, 1, 0, 1, 16, 10⟩
def INT_EVQ_POP_CLASS : Fld := ⟨0x01002000, 0, 1, 0, 1, 28, 2⟩
def INT_EVQ_POP_COLLAPSED : Fld := ⟨0x01002000, 0, 1, 0, 1, 30, 1⟩
def INT_EVQ_POP_VALID : Fld := ⟨0x01002000, 0, 1, 0, 1, 31, 1⟩
def INT_EVQ_DATA_VALUE : Fld := ⟨0x01002004, 0, 1, 0, 1, 0, 32⟩
def INT_EVQ_MST_VALUE : Fld := ⟨0x01002008, 0, 1, 0, 1, 0, 32⟩
def INT_EVQ_STATUS_COUNT : Fld := ⟨0x0100200C, 0, 1, 0, 1, 0, 6⟩
def INT_EVQ_STATUS_STALLS : Fld := ⟨0x0100200C, 0, 1, 0, 1, 16, 16⟩
def FLT_STATE_STATE : Fld := ⟨0x01008000, 0, 1, 0, 1, 0, 2⟩
def FLT_STATE_SURVEY : Fld := ⟨0x01008000, 0, 1, 0, 1, 2, 2⟩
def FLT_STATE_DESTINATION : Fld := ⟨0x01008000, 0, 1, 0, 1, 4, 1⟩
def FLT_STATE_UNITS_HELD : Fld := ⟨0x01008000, 0, 1, 0, 1, 8, 8⟩
def FLT_CE_COUNT_COUNT : Fld := ⟨0x01008080, 0, 1, 0, 1, 0, 32⟩
def FLT_MERGED_COUNT : Fld := ⟨0x01008084, 0, 1, 0, 1, 0, 32⟩
def FLT_FIRST_SRC_SOURCE : Fld := ⟨0x01008088, 0, 1, 0, 1, 0, 10⟩
def FLT_FIRST_SRC_CLASS : Fld := ⟨0x01008088, 0, 1, 0, 1, 12, 2⟩
def FLT_FIRST_SRC_VALID : Fld := ⟨0x01008088, 0, 1, 0, 1, 31, 1⟩
def FLT_FIRST_MST_MST : Fld := ⟨0x0100808C, 0, 1, 0, 1, 0, 32⟩
def FLT_POLICY_ACTION : Fld := ⟨0x01008090, 0, 1, 0, 1, 0, 1⟩
def FLT_POLICY_SIGN_FLASH : Fld := ⟨0x01008090, 0, 1, 0, 1, 1, 1⟩
def FLT_POLICY_UC_LIMIT : Fld := ⟨0x01008090, 0, 1, 0, 1, 8, 4⟩
def FLT_TEST_CLASS : Fld := ⟨0x01008094, 0, 1, 0, 1, 0, 2⟩
def FLT_SURVEY_ADDR_ADDR : Fld := ⟨0x010080A0, 0, 1, 0, 1, 0, 64⟩
def FLT_SURVEY_SIZE_ARMED : Fld := ⟨0x010080A8, 0, 1, 0, 1, 0, 16⟩
def FLT_SURVEY_SIZE_WRITTEN : Fld := ⟨0x010080A8, 0, 1, 0, 1, 16, 16⟩
def FLT_STICKY_STICKY : Fld := ⟨0x01008100, 0, 1, 4, 32, 0, 32⟩
def FLT_FIRST_LOC_LOCATION : Fld := ⟨0x01008200, 0, 1, 0, 1, 0, 512⟩
def MEM_STATUS_TRAINED_A : Fld := ⟨0x01400000, 0, 1, 0, 1, 0, 1⟩
def MEM_STATUS_TRAINED_B : Fld := ⟨0x01400000, 0, 1, 0, 1, 1, 1⟩
def MEM_STATUS_RETRAIN_A : Fld := ⟨0x01400000, 0, 1, 0, 1, 2, 1⟩
def MEM_STATUS_RETRAIN_B : Fld := ⟨0x01400000, 0, 1, 0, 1, 3, 1⟩
def MEM_STATUS_TEMP_A : Fld := ⟨0x01400000, 0, 1, 0, 1, 16, 8⟩
def MEM_STATUS_TEMP_B : Fld := ⟨0x01400000, 0, 1, 0, 1, 24, 8⟩
def MEM_MAP_ORDER_A : Fld := ⟨0x01400004, 0, 1, 0, 1, 0, 2⟩
def MEM_MAP_ORDER_B : Fld := ⟨0x01400004, 0, 1, 0, 1, 2, 2⟩
def MEM_MAP_PENDING : Fld := ⟨0x01400004, 0, 1, 0, 1, 4, 1⟩
def MEM_RETRAIN_CTRL_ENABLE : Fld := ⟨0x01400008, 0, 1, 0, 1, 0, 1⟩
def MEM_RETRAIN_CTRL_THRESHOLD_C : Fld := ⟨0x01400008, 0, 1, 0, 1, 8, 8⟩
def MEM_RETRAIN_CTRL_GUARD_US : Fld := ⟨0x01400008, 0, 1, 0, 1, 16, 8⟩
def MEM_RETRAIN_STATUS_HOLDS_A : Fld := ⟨0x0140000C, 0, 1, 0, 1, 0, 6⟩
def MEM_RETRAIN_STATUS_HOLDS_B : Fld := ⟨0x0140000C, 0, 1, 0, 1, 8, 6⟩
def MEM_RETRAIN_STATUS_DEFERRALS : Fld := ⟨0x0140000C, 0, 1, 0, 1, 16, 16⟩
def MEM_BAR4_CTRL_ENABLE_NEXT : Fld := ⟨0x01400010, 0, 1, 0, 1, 0, 1⟩
def MEM_BAR4_CTRL_IMPLEMENTED : Fld := ⟨0x01400010, 0, 1, 0, 1, 1, 1⟩
def MEM_BAR4_CTRL_BASE_GIB : Fld := ⟨0x01400010, 0, 1, 0, 1, 8, 6⟩
def MEM_QOS_CFG_TARGET_NS : Fld := ⟨0x01400100, 0, 1, 4, 16, 0, 24⟩
def MEM_QOS_STAT_LATE : Fld := ⟨0x01400140, 0, 1, 4, 16, 0, 16⟩
def MEM_QOS_STAT_MAX_WAIT_100NS : Fld := ⟨0x01400140, 0, 1, 4, 16, 16, 16⟩
def MEM_TRAIN_RESULT_READ_DLY : Fld := ⟨0x01401000, 0, 1, 4, 256, 0, 7⟩
def MEM_TRAIN_RESULT_WRITE_DLY : Fld := ⟨0x01401000, 0, 1, 4, 256, 8, 7⟩
def MEM_TRAIN_RESULT_EYE : Fld := ⟨0x01401000, 0, 1, 4, 256, 16, 7⟩
def MEM_TRAIN_RESULT_REPAIRED : Fld := ⟨0x01401000, 0, 1, 4, 256, 23, 1⟩
def MEM_TRAIN_RESULT_MARGINAL : Fld := ⟨0x01401000, 0, 1, 4, 256, 24, 1⟩
def ECC_SCRUB_CTRL_HBM_PERIOD_H : Fld := ⟨0x01600000, 0, 1, 0, 1, 0, 8⟩
def ECC_SCRUB_CTRL_SRAM_PERIOD_MIN : Fld := ⟨0x01600000, 0, 1, 0, 1, 8, 8⟩
def ECC_SCRUB_CTRL_HBM_CAP_MBS : Fld := ⟨0x01600000, 0, 1, 0, 1, 16, 16⟩
def ECC_SCRUB_STATUS_HBM_PASSES : Fld := ⟨0x01600004, 0, 1, 0, 1, 0, 16⟩
def ECC_SCRUB_STATUS_SRAM_PASSES : Fld := ⟨0x01600004, 0, 1, 0, 1, 16, 16⟩
def ECC_COUNT_HBM_CE : Fld := ⟨0x01600010, 0, 1, 0, 1, 0, 16⟩
def ECC_COUNT_HBM_UC : Fld := ⟨0x01600010, 0, 1, 0, 1, 16, 16⟩
def ECC_COUNT_SRAM_CE : Fld := ⟨0x01600014, 0, 1, 0, 1, 0, 16⟩
def ECC_COUNT_SRAM_UC : Fld := ⟨0x01600014, 0, 1, 0, 1, 16, 16⟩
def ECC_LAST_ADDR_ADDR : Fld := ⟨0x01600018, 0, 1, 0, 1, 0, 36⟩
def ECC_LAST_ADDR_UC : Fld := ⟨0x01600018, 0, 1, 0, 1, 62, 1⟩
def ECC_LAST_ADDR_VALID : Fld := ⟨0x01600018, 0, 1, 0, 1, 63, 1⟩
def ECC_TMR_STATUS_LAST_WORD : Fld := ⟨0x01600020, 0, 1, 0, 1, 0, 5⟩
def ECC_TMR_STATUS_MISMATCHES : Fld := ⟨0x01600020, 0, 1, 0, 1, 16, 16⟩
def ECC_FLIP_CTRL_TARGET : Fld := ⟨0x01600030, 0, 1, 0, 1, 0, 3⟩
def ECC_FLIP_CTRL_ANY : Fld := ⟨0x01600030, 0, 1, 0, 1, 3, 1⟩
def ECC_FLIP_CTRL_MACRO : Fld := ⟨0x01600030, 0, 1, 0, 1, 4, 12⟩
def ECC_FLIP_CTRL_ARM : Fld := ⟨0x01600030, 0, 1, 0, 1, 31, 1⟩
def ECC_FLIP_ADDR_VALUE : Fld := ⟨0x01600038, 0, 1, 0, 1, 0, 64⟩
def ECC_FLIP_MASK_VALUE : Fld := ⟨0x01600040, 0, 1, 0, 1, 0, 64⟩
def ECC_FLIP_CHECK_VALUE : Fld := ⟨0x01600048, 0, 1, 0, 1, 0, 64⟩
def ECC_LAST_LOC_LOCATION : Fld := ⟨0x01600100, 0, 1, 0, 1, 0, 512⟩
def CLK_STATUS_XO_OK : Fld := ⟨0x00400000, 0, 1, 0, 1, 0, 1⟩
def CLK_STATUS_XO_FAIL : Fld := ⟨0x00400000, 0, 1, 0, 1, 1, 1⟩
def CLK_STATUS_COAST : Fld := ⟨0x00400000, 0, 1, 0, 1, 2, 1⟩
def CLK_STATUS_TRO_BAD : Fld := ⟨0x00400000, 0, 1, 0, 1, 3, 1⟩
def CLK_STATUS_X32_PRESENT : Fld := ⟨0x00400000, 0, 1, 0, 1, 4, 1⟩
def CLK_STATUS_PLL_LOCKED : Fld := ⟨0x00400000, 0, 1, 0, 1, 8, 6⟩
def CLK_BOOT_STATUS_CODE : Fld := ⟨0x00400004, 0, 1, 0, 1, 0, 4⟩
def CLK_BOOT_STATUS_TRO_TRIES : Fld := ⟨0x00400004, 0, 1, 0, 1, 8, 3⟩
def CLK_JUDGE_TRO_COUNT : Fld := ⟨0x00400008, 0, 1, 0, 1, 0, 20⟩
def CLK_JUDGE_XO_COUNT : Fld := ⟨0x0040000C, 0, 1, 0, 1, 0, 20⟩
def CLK_PLL_CFG_FREQ_MHZ : Fld := ⟨0x00400020, 0, 1, 4, 6, 0, 12⟩
def CLK_PLL_CFG_LOCKED : Fld := ⟨0x00400020, 0, 1, 4, 6, 12, 1⟩
def CLK_PLL_CFG_UNLOCKS : Fld := ⟨0x00400020, 0, 1, 4, 6, 16, 8⟩
def CLK_GATE_CTRL_IDLE_US : Fld := ⟨0x00400040, 0, 1, 0, 1, 0, 16⟩
def CLK_GATE_CTRL_FORCE_ON : Fld := ⟨0x00400040, 0, 1, 0, 1, 16, 4⟩
def CLK_MEAS_CTRL_MEAS_SEL : Fld := ⟨0x00400050, 0, 1, 0, 1, 0, 5⟩
def CLK_MEAS_CTRL_REF_SEL : Fld := ⟨0x00400050, 0, 1, 0, 1, 8, 5⟩
def CLK_MEAS_CTRL_WINDOW_LOG2 : Fld := ⟨0x00400050, 0, 1, 0, 1, 16, 5⟩
def CLK_MEAS_CTRL_START : Fld := ⟨0x00400050, 0, 1, 0, 1, 24, 1⟩
def CLK_MEAS_CTRL_BUSY : Fld := ⟨0x00400050, 0, 1, 0, 1, 25, 1⟩
def CLK_MEAS_RESULT_COUNT : Fld := ⟨0x00400058, 0, 1, 0, 1, 0, 32⟩
def CLK_MEAS_RESULT_DONE : Fld := ⟨0x00400058, 0, 1, 0, 1, 32, 1⟩
def CLK_MEAS_RESULT_NO_CLOCK : Fld := ⟨0x00400058, 0, 1, 0, 1, 33, 1⟩
def CLK_MEAS_LANE_LANE : Fld := ⟨0x00400060, 0, 1, 0, 1, 0, 7⟩
def RST_CAUSE_KIND : Fld := ⟨0x00408000, 0, 1, 0, 1, 0, 4⟩
def RST_CAUSE_HBM_KEPT : Fld := ⟨0x00408000, 0, 1, 0, 1, 4, 1⟩
def RST_CAUSE_HBM_LOST : Fld := ⟨0x00408000, 0, 1, 0, 1, 5, 1⟩
def RST_CAUSE_COUNT : Fld := ⟨0x00408000, 0, 1, 0, 1, 16, 16⟩
def RST_CTRL_WARM : Fld := ⟨0x00408004, 0, 1, 0, 1, 0, 1⟩
def RST_CTRL_PERST_ISOLATE : Fld := ⟨0x00408004, 0, 1, 0, 1, 1, 1⟩
def RST_DOMAIN_DOMAIN : Fld := ⟨0x00408008, 0, 1, 0, 1, 0, 7⟩
def RST_DOMAIN_GO : Fld := ⟨0x00408008, 0, 1, 0, 1, 31, 1⟩
def RST_STATUS_PHASE : Fld := ⟨0x0040800C, 0, 1, 0, 1, 0, 4⟩
def RST_STATUS_READY_MS : Fld := ⟨0x0040800C, 0, 1, 0, 1, 16, 16⟩
def PWR_CTRL_WAKE_IN_FALLING : Fld := ⟨0x00800000, 0, 1, 0, 1, 0, 1⟩
def PWR_CTRL_AUTO_HOLD_MS : Fld := ⟨0x00800000, 0, 1, 0, 1, 8, 8⟩
def PWR_CTRL_AUTO_WINDOW_MS : Fld := ⟨0x00800000, 0, 1, 0, 1, 16, 8⟩
def PWR_STATE_STATE : Fld := ⟨0x00800004, 0, 1, 0, 1, 0, 3⟩
def PWR_STATE_TARGET : Fld := ⟨0x00800004, 0, 1, 0, 1, 3, 3⟩
def PWR_STATE_ENTERING : Fld := ⟨0x00800004, 0, 1, 0, 1, 6, 1⟩
def PWR_STATE_REFUSE_DOMAIN : Fld := ⟨0x00800004, 0, 1, 0, 1, 8, 7⟩
def PWR_STATE_REFUSE_REASON : Fld := ⟨0x00800004, 0, 1, 0, 1, 16, 4⟩
def PWR_WAKE_EN_ENABLE : Fld := ⟨0x00800008, 0, 1, 0, 1, 0, 6⟩
def PWR_WAKE_EN_FAULT : Fld := ⟨0x00800008, 0, 1, 0, 1, 6, 1⟩
def PWR_WAKE_RECORD_SOURCE : Fld := ⟨0x00800010, 0, 1, 0, 1, 0, 3⟩
def PWR_WAKE_RECORD_FROM : Fld := ⟨0x00800010, 0, 1, 0, 1, 4, 3⟩
def PWR_WAKE_RECORD_VALID : Fld := ⟨0x00800010, 0, 1, 0, 1, 7, 1⟩
def PWR_WAKE_RECORD_SOURCES : Fld := ⟨0x00800010, 0, 1, 0, 1, 8, 8⟩
def PWR_WAKE_RECORD_MST : Fld := ⟨0x00800010, 0, 1, 0, 1, 32, 32⟩
def PWR_RTC_SUB : Fld := ⟨0x00800018, 0, 1, 0, 1, 0, 15⟩
def PWR_RTC_SEC : Fld := ⟨0x00800018, 0, 1, 0, 1, 16, 48⟩
def PWR_RTC_ALARM_SEC_LOW : Fld := ⟨0x00800020, 0, 1, 0, 1, 0, 32⟩
def PWR_RTC_ALARM_ARMED : Fld := ⟨0x00800020, 0, 1, 0, 1, 32, 1⟩
def PWR_WATCH_CFG_PERIOD_MS : Fld := ⟨0x00800028, 0, 1, 0, 1, 0, 16⟩
def PWR_WATCH_CFG_COMPARATORS : Fld := ⟨0x00800028, 0, 1, 0, 1, 16, 4⟩
def PWR_WATCH_STATUS_SAMPLES : Fld := ⟨0x0080002C, 0, 1, 0, 1, 0, 24⟩
def PWR_WATCH_STATUS_LAST_MATCH : Fld := ⟨0x0080002C, 0, 1, 0, 1, 24, 3⟩
def PWR_WATCH_STATUS_MATCHED : Fld := ⟨0x0080002C, 0, 1, 0, 1, 31, 1⟩
def PWR_WATCH_MATCHES_COUNT0 : Fld := ⟨0x00800030, 0, 1, 0, 1, 0, 4⟩
def PWR_WATCH_MATCHES_COUNT1 : Fld := ⟨0x00800030, 0, 1, 0, 1, 4, 4⟩
def PWR_WATCH_MATCHES_COUNT2 : Fld := ⟨0x00800030, 0, 1, 0, 1, 8, 4⟩
def PWR_WATCH_MATCHES_COUNT3 : Fld := ⟨0x00800030, 0, 1, 0, 1, 12, 4⟩
def PWR_WATCH_MATCHES_COUNT4 : Fld := ⟨0x00800030, 0, 1, 0, 1, 16, 4⟩
def PWR_WATCH_MATCHES_COUNT5 : Fld := ⟨0x00800030, 0, 1, 0, 1, 20, 4⟩
def PWR_WATCH_MATCHES_COUNT6 : Fld := ⟨0x00800030, 0, 1, 0, 1, 24, 4⟩
def PWR_WATCH_MATCHES_COUNT7 : Fld := ⟨0x00800030, 0, 1, 0, 1, 28, 4⟩
def PWR_WATCH_CMP_RECORD : Fld := ⟨0x00800040, 0, 1, 8, 8, 0, 64⟩
def PWR_DOMAIN_POLICY : Fld := ⟨0x00801000, 0, 1, 4, 80, 0, 2⟩
def PWR_DOMAIN_WAKE_ON_ACCESS : Fld := ⟨0x00801000, 0, 1, 4, 80, 2, 1⟩
def PWR_DOMAIN_USED : Fld := ⟨0x00801000, 0, 1, 4, 80, 3, 1⟩
def PWR_DOMAIN_STATE : Fld := ⟨0x00801000, 0, 1, 4, 80, 4, 3⟩
def PWR_DOMAIN_GATE_TIMEOUTS : Fld := ⟨0x00801000, 0, 1, 4, 80, 16, 8⟩
def PWR_DOMAIN_STANDIN_ACCESSES : Fld := ⟨0x00801000, 0, 1, 4, 80, 24, 8⟩
def TOP_ID_DEVICE : Fld := ⟨0x00000000, 0, 1, 0, 1, 0, 16⟩
def TOP_ID_STEPPING : Fld := ⟨0x00000000, 0, 1, 0, 1, 16, 8⟩
def TOP_SERIAL_SERIAL : Fld := ⟨0x00000008, 0, 1, 0, 1, 0, 64⟩
def TOP_FW_VERSION_BUILD : Fld := ⟨0x00000010, 0, 1, 0, 1, 0, 16⟩
def TOP_FW_VERSION_MINOR : Fld := ⟨0x00000010, 0, 1, 0, 1, 16, 8⟩
def TOP_FW_VERSION_MAJOR : Fld := ⟨0x00000010, 0, 1, 0, 1, 24, 8⟩
def TOP_STATUS_LIFECYCLE : Fld := ⟨0x00000014, 0, 1, 0, 1, 0, 2⟩
def TOP_STATUS_SAFE : Fld := ⟨0x00000014, 0, 1, 0, 1, 2, 1⟩
def TOP_STATUS_RECOVERY : Fld := ⟨0x00000014, 0, 1, 0, 1, 3, 1⟩
def TOP_STATUS_TRIAL : Fld := ⟨0x00000014, 0, 1, 0, 1, 4, 1⟩
def TOP_STATUS_UNSIGNED_EDITION : Fld := ⟨0x00000014, 0, 1, 0, 1, 5, 1⟩
def TOP_EDITION_STATUS_ACTIVE : Fld := ⟨0x00000018, 0, 1, 0, 1, 0, 2⟩
def TOP_EDITION_STATUS_REQUESTED : Fld := ⟨0x00000018, 0, 1, 0, 1, 2, 2⟩
def TOP_EDITION_STATUS_FALLBACK : Fld := ⟨0x00000018, 0, 1, 0, 1, 4, 3⟩
def TOP_EDITION_STATUS_SELECT_PENDING : Fld := ⟨0x00000018, 0, 1, 0, 1, 7, 1⟩
def TOP_EDITION_SERIAL_SERIAL : Fld := ⟨0x00000020, 0, 1, 4, 4, 0, 32⟩
def SEC_STATUS_LIFECYCLE : Fld := ⟨0x03400000, 0, 1, 0, 1, 0, 2⟩
def SEC_STATUS_NEXT_LIFECYCLE : Fld := ⟨0x03400000, 0, 1, 0, 1, 2, 2⟩
def SEC_STATUS_OWNER_BOUND : Fld := ⟨0x03400000, 0, 1, 0, 1, 4, 1⟩
def SEC_STATUS_ALLOW_UNSIGNED : Fld := ⟨0x03400000, 0, 1, 0, 1, 5, 1⟩
def SEC_STATUS_JTAG_RESTRICTED : Fld := ⟨0x03400000, 0, 1, 0, 1, 6, 1⟩
def SEC_STATUS_ID_KEY_VALID : Fld := ⟨0x03400000, 0, 1, 0, 1, 7, 1⟩
def SEC_STATUS_FW_SVN : Fld := ⟨0x03400000, 0, 1, 0, 1, 8, 6⟩
def SEC_STATUS_AUTH_FAILS : Fld := ⟨0x03400000, 0, 1, 0, 1, 16, 16⟩
def SEC_FW_STATUS_ACTIVE_SLOT : Fld := ⟨0x03400004, 0, 1, 0, 1, 0, 1⟩
def SEC_FW_STATUS_TRIAL : Fld := ⟨0x03400004, 0, 1, 0, 1, 1, 1⟩
def SEC_FW_STATUS_REVERTED : Fld := ⟨0x03400004, 0, 1, 0, 1, 2, 1⟩
def SEC_FW_STATUS_STAGED_VALID : Fld := ⟨0x03400004, 0, 1, 0, 1, 3, 1⟩
def SEC_FW_STAGED_VERSION : Fld := ⟨0x03400008, 0, 1, 0, 1, 0, 32⟩
def SEC_FLASH_INFO_SIZE_MIB : Fld := ⟨0x0340000C, 0, 1, 0, 1, 0, 16⟩
def SEC_FLASH_INFO_SFDP_OK : Fld := ⟨0x0340000C, 0, 1, 0, 1, 16, 1⟩
def SEC_FLASH_INFO_DTR : Fld := ⟨0x0340000C, 0, 1, 0, 1, 17, 1⟩
def SEC_ROOT_HASH_HASH : Fld := ⟨0x03400040, 0, 1, 0, 1, 0, 256⟩
def SEC_OWNER_HASH_HASH : Fld := ⟨0x03400060, 0, 1, 0, 1, 0, 256⟩
def SEC_ID_CERT_CERT : Fld := ⟨0x03400100, 0, 1, 0, 1, 0, 2048⟩
def CMP_STATUS_STATE : Fld := ⟨0x03800000, 0, 1, 0, 1, 0, 2⟩
def CMP_STATUS_PC : Fld := ⟨0x03800000, 0, 1, 0, 1, 2, 14⟩
def CMP_STATUS_PATCHES : Fld := ⟨0x03800000, 0, 1, 0, 1, 16, 7⟩
def CMP_STATUS_HOST_PATCHES : Fld := ⟨0x03800000, 0, 1, 0, 1, 23, 1⟩
def CMP_SAFE_GAP_MAX_GAP : Fld := ⟨0x03800004, 0, 1, 0, 1, 0, 16⟩
def CMP_STORE_ECC_CE : Fld := ⟨0x03800008, 0, 1, 0, 1, 0, 16⟩
def CMP_PATCH_ADDR : Fld := ⟨0x03801000, 0, 1, 8, 64, 0, 14⟩
def CMP_PATCH_ENABLE : Fld := ⟨0x03801000, 0, 1, 8, 64, 15, 1⟩
def CMP_PATCH_MICROWORD : Fld := ⟨0x03801000, 0, 1, 8, 64, 16, 24⟩
def SNS_BG_CAP_CMP_PCT : Fld := ⟨0x03C00000, 0, 1, 0, 1, 0, 8⟩
def SNS_BG_CAP_AGE_MBS : Fld := ⟨0x03C00000, 0, 1, 0, 1, 8, 16⟩
def SNS_AGE_CTRL_ENABLE : Fld := ⟨0x03C00004, 0, 1, 0, 1, 0, 1⟩
def SNS_AGE_CTRL_UPDATE_NOW : Fld := ⟨0x03C00004, 0, 1, 0, 1, 1, 1⟩
def SNS_AGE_CTRL_PERIOD_MIN : Fld := ⟨0x03C00004, 0, 1, 0, 1, 8, 8⟩
def SNS_AGE_CTRL_FLOOR : Fld := ⟨0x03C00004, 0, 1, 0, 1, 16, 16⟩
def SNS_AGE_STATUS_CURVES_VALID : Fld := ⟨0x03C00008, 0, 1, 0, 1, 0, 1⟩
def SNS_AGE_STATUS_RUNNING : Fld := ⟨0x03C00008, 0, 1, 0, 1, 1, 1⟩
def SNS_AGE_STATUS_DOSE_CHANGED : Fld := ⟨0x03C00008, 0, 1, 0, 1, 2, 1⟩
def SNS_AGE_STATUS_PASSES : Fld := ⟨0x03C00008, 0, 1, 0, 1, 16, 16⟩
def SNS_AGE_REF_REF : Fld := ⟨0x03C00010, 0, 1, 0, 1, 0, 48⟩
def SNS_SUMMARY_PERIOD_H : Fld := ⟨0x03C00018, 0, 1, 0, 1, 0, 8⟩
def SNS_SUMMARY_SLOT : Fld := ⟨0x03C00018, 0, 1, 0, 1, 8, 2⟩
def SNS_SUMMARY_TRUNCATED : Fld := ⟨0x03C00018, 0, 1, 0, 1, 10, 1⟩
def SNS_SUMMARY_WRITES : Fld := ⟨0x03C00018, 0, 1, 0, 1, 16, 16⟩
def SNS_TELEMETRY_SEQ : Fld := ⟨0x03C00020, 0, 1, 0, 1, 0, 32⟩
def SNS_TELEMETRY_LOST : Fld := ⟨0x03C00020, 0, 1, 0, 1, 32, 32⟩
def SNS_WALL_LOAD_CABINETS : Fld := ⟨0x03C00040, 0, 1, 0, 1, 0, 12⟩
def SNS_WALL_LOAD_POWER_KW : Fld := ⟨0x03C00040, 0, 1, 0, 1, 16, 16⟩
def SNS_WALL_LOAD_KPIXELS : Fld := ⟨0x03C00040, 0, 1, 0, 1, 32, 32⟩
def SNS_POWER_BUDGET_BUDGET_KW : Fld := ⟨0x03C00048, 0, 1, 0, 1, 0, 16⟩
def SNS_POWER_BUDGET_OVER : Fld := ⟨0x03C00048, 0, 1, 0, 1, 16, 1⟩
def SNS_TEMP_VALUE : Fld := ⟨0x03C00100, 0, 1, 4, 32, 0, 16⟩
def SNS_TEMP_HIGH : Fld := ⟨0x03C00100, 0, 1, 4, 32, 16, 1⟩
def SNS_TEMP_CRIT : Fld := ⟨0x03C00100, 0, 1, 4, 32, 17, 1⟩
def SNS_TEMP_THR_HIGH : Fld := ⟨0x03C00180, 0, 1, 4, 32, 0, 16⟩
def SNS_TEMP_THR_CRIT : Fld := ⟨0x03C00180, 0, 1, 4, 32, 16, 16⟩
def SNS_RAIL_MV : Fld := ⟨0x03C00200, 0, 1, 4, 12, 0, 16⟩
def SNS_RAIL_LOW : Fld := ⟨0x03C00200, 0, 1, 4, 12, 16, 1⟩
def SNS_RAIL_HIGH : Fld := ⟨0x03C00200, 0, 1, 4, 12, 17, 1⟩
def SNS_RAIL_CRIT : Fld := ⟨0x03C00200, 0, 1, 4, 12, 18, 1⟩
def SNS_RAIL_THR_LOW_WARN : Fld := ⟨0x03C00280, 0, 1, 8, 12, 0, 16⟩
def SNS_RAIL_THR_HIGH_WARN : Fld := ⟨0x03C00280, 0, 1, 8, 12, 16, 16⟩
def SNS_RAIL_THR_LOW_CRIT : Fld := ⟨0x03C00280, 0, 1, 8, 12, 32, 16⟩
def SNS_RAIL_THR_HIGH_CRIT : Fld := ⟨0x03C00280, 0, 1, 8, 12, 48, 16⟩
def SNS_CHAIN_LOAD_CABINETS : Fld := ⟨0x03C01000, 0, 1, 4, 128, 0, 5⟩
def SNS_CHAIN_LOAD_POWER_CLASS : Fld := ⟨0x03C01000, 0, 1, 4, 128, 8, 12⟩

end Rg

end Sys2Proof.Machine
end

