-- ==== Sys2Proof/Machine/State.lean ====
section
/-!
DEFINITION. The state of the wall engine as plain data: the registers by BAR0 offset, and, unit by unit, everything the
spec gives the machine that no register holds; the queue of waiting commands; the state right after power-on reset.
-/

namespace Sys2Proof.Machine

/-- No command of the block stops the machine with a fault: every condition the spec names is a status, an event, a
sticky bit or a reaction (R297, R309). The type has no constructor. Safe. -/
inductive Fault where
deriving DecidableEq, Repr

/-- Why a command has no meaning. -/
inductive Refusal where
  /-- Raised by Dispatch.exec for a row that has no meaning yet. Safe. -/
  | notModelled (mnemonic : String)
deriving DecidableEq, Repr

/-- Something the device has sent on one of its interfaces (the model's own record, log 7). -/
inductive Emission where
  /-- The answer to a register read: BAR0 offset and value. -/
  | readData (off : Nat) (value : Nat)
  /-- An Unsupported Request answer (R273, R297). -/
  | unsupported (off : Nat)
  /-- The answer to a read of the BAR4 window: its bytes as a number, none for a poisoned completion (R342). -/
  | window (off : Nat) (value : Option Nat)
  /-- The answer to a read of the configuration space (R271). -/
  | config (off value : Nat)
  /-- An error message of AER, fatal or not as the host set its severity (R297). -/
  | pcieError (fatal : Bool)
  /-- An MSI-X write: vector, address, data (R292). -/
  | msix (vector addr data : Nat)
  /-- A PME message (R294). -/
  | pme
  /-- An Ethernet frame sent on a frame-switch port, without its FCS (R172). -/
  | frame (port : Nat) (bytes : List Byte)
  /-- A frame ended with an inverted CRC (R240). -/
  | stomped (port : Nat) (bytes : List Byte)
  /-- a frame that the switch hands to an intake port for a stream (R244) -/
  | intake (port stream : Nat) (bytes : List Byte)
  /-- A pause or PFC frame: port, classes, XOFF or XON (R234). -/
  | pfc (port cls : Nat) (xoff : Bool)
  /-- The answer to an SMBus command (R437). -/
  | smbus (bytes : List Byte)
deriving DecidableEq, Repr

/-! ### Host interface (11_host_interface.md) -/

/-- An entry fetched and not yet started, with its running count (R277, R284). -/
structure Fetched where
  count : Nat
  entry : List Byte
deriving DecidableEq, Repr

/-- A started command: where it came from, its entry as fetched, and its transfer (R279, R289, R290). -/
structure Cmd where
  id : Nat
  sq : Nat
  count : Nat
  entry : List Byte
  /-- next host address (or running offset of a circular range) to read and bytes left to read -/
  addr : Nat
  left : Nat
  /-- base and size of the circular buffer read from (R291), none for a plain range -/
  circ : Option (Nat × Nat)
  /-- bytes read so far -/
  data : List Byte
  /-- past its transfer: it has acted on its data and waits on something else (R290 step 4) -/
  past : Bool
  /-- the descriptor now running is the last one: the ring was stopped (R290 step 3) -/
  lastDesc : Bool
  /-- a DMA request failed while the link was down; completes DATA_ERROR on its return (R296) -/
  dmaFailed : Bool
  /-- the ring was disabled by FLR: runs to its end, completion discarded (R274) -/
  discard : Bool
deriving DecidableEq, Repr

/-- A submission ring beyond its registers (R275, R284, R296); STATE and CHANNEL are in HIF_SQ_CTRL. -/
structure SqRing where
  head : Nat
  queue : List Fetched
  wrongOwn : Nat
  failedReads : Nat
  idleSince : Option Nat
  disableAfter : Bool
deriving DecidableEq, Repr

def SqRing.init : SqRing := ⟨0, [], 0, 0, none, false⟩

/-- A completion not yet in host memory (R278, R280). -/
structure Completion where
  sq : Nat
  count : Nat
  opcode : Nat
  cid : Nat
  noInterrupt : Bool
  status : Nat
  result : Nat
  detail : Nat
deriving DecidableEq, Repr

/-- A completion ring beyond its registers: written count, the completions held (at most 64), those that wait in their
commands, and whether this full episode has raised HIF_CQ_FULL (R280). -/
structure CqRing where
  written : Nat
  held : List Completion
  waiting : List Completion
  full : Bool
deriving DecidableEq, Repr

def CqRing.init : CqRing := ⟨0, [], [], false⟩

/-- An MSI-X vector (R272, R292, R295): table entry, pending bit, and the start of its moderation timer. -/
structure Vec where
  addr : Nat
  data : Nat
  mask : Bool
  pend : Bool
  timerAt : Option Nat
deriving DecidableEq, Repr

def Vec.init : Vec := ⟨0, 0, true, false, none⟩

/-- Errors that AER has logged (R297): Unsupported Request, Poisoned TLP, Unexpected Completion as advisory, Malformed TLP. -/
structure Aer where
  unsupported : Bool
  poisoned : Bool
  unexpected : Bool
  malformed : Bool
deriving DecidableEq, Repr

def Aer.init : Aer := ⟨false, false, false, false⟩

structure Hif where
  sq : SMap SqRing
  cq : SMap CqRing
  /-- started commands that have not completed, oldest first -/
  cmds : List Cmd
  cmdSeq : Nat
  vecs : SMap Vec
  /-- last channel served by each DMA engine (R289) -/
  rr : SMap Nat
  linkUp : Bool
  pmeEn : Bool
  pmeStatus : Bool
  aer : Aer
deriving DecidableEq, Repr

/-! ### Events and faults (12_events_faults.md) -/

/-- The latest occurrence kept by a source (R303); its state is INT_SRC_CFG.STATE. -/
structure Src where
  collapsed : Bool
  param : Nat
  data : Nat
  mst : Nat
  /-- this delivery has been counted in INT_EVQ_STATUS.STALLS (R306) -/
  stalled : Bool
deriving DecidableEq, Repr

def Src.init : Src := ⟨false, 0, 0, 0, false⟩

/-- An entry of the event queue or a record of the event log (R305, R307). -/
structure EvRec where
  source : Nat
  collapsed : Bool
  param : Nat
  data : Nat
  mst : Nat
deriving DecidableEq, Repr

/-- A UC reaction in progress (R310, R311): its source, its unit, its PARAM, the domains being reset, its start. -/
structure Reaction where
  source : Nat
  unit : Nat
  param : Nat
  domains : List Nat
  start : Nat
  /-- absorbed by an FE reaction: the unit stays in reset until that has ended (R310) -/
  absorbed : Bool
deriving DecidableEq, Repr

structure SurveyBuf where
  addr : Nat
  len : Nat
  sign : Bool
deriving DecidableEq, Repr

/-- A survey being made (R317, R318): whether it goes to flash, and its buffer as armed when it began. -/
structure SurveyRun where
  toFlash : Bool
  buf : Option SurveyBuf
  clockLoss : Bool
deriving DecidableEq, Repr

structure Ev where
  srcs : SMap Src
  /-- sources whose lasting cause is present (R309, R447) -/
  levels : SMap Bool
  evq : List EvRec
  log : List EvRec
  reactions : List Reaction
  /-- start times of the UC reactions of a unit within the last second (R311) -/
  ucHist : SMap (List Nat)
  /-- units held in reset: unit, the source that held it and the domains -/
  held : List Reaction
  merged : Nat
  /-- location code of the first record, and its MFT: seconds, nanoseconds (R310, R319) -/
  firstLoc : List Byte
  firstMft : Nat × Nat
  surveyBuf : Option SurveyBuf
  survey : Option SurveyRun
  surveySeq : Nat
  flashSurvey : List Byte
deriving DecidableEq, Repr

/-! ### Clocks, reset and start-up (14_clocks_startup.md) -/

/-- Where clock start stands (R352 to R354, R362). -/
inductive ClkStage where
  | troJudge | xoWait | pllLock | done | hold
deriving DecidableEq, Repr

structure Clk where
  stage : ClkStage
  /-- earliest instant of the next TRO judgment (R353) -/
  troAt : Nat
  /-- when the XO driver was enabled (R352) -/
  xoAt : Nat
  /-- PERST_N is asserted (low) -/
  perst : Bool
  /-- T0; while start-up waits for the survey, the time it had taken so far -/
  t0At : Nat
  /-- the reset whose RST_ event is raised when it has ended (R358), as RST_CAUSE.KIND -/
  running : Option Nat
  /-- HBM training of the start-up in progress is restore training (R360) -/
  restore : Bool
  /-- start-up applies the active edition, not the one that the pins name (R358, R396) -/
  warmBoot : Bool
  /-- start-up waits for the survey that follows a clock-loss reset (R363) -/
  surveyWait : Bool
  /-- PLL relocks in progress: PLL, time the lock was lost or the relock began -/
  relock : SMap (Option Nat)
  /-- PLLs held off after UC_LIMIT reactions (R349) -/
  pllOff : SMap Bool
  /-- a domain reset asked of a die whose link is down (R14) -/
  domainWait : List Nat
  /-- die links that are down: instant of the loss or of the last retrain, and retrains made (R14) -/
  links : SMap (Option (Nat × Nat))
  measAt : Option Nat
  /-- units whose on-demand clock gate is closed (R350), by the unit's domain -/
  gated : SMap Bool
  /-- last time PWR_GATE_TIMEOUT was raised for a domain (R373) -/
  gateTimeoutAt : SMap (Option Nat)
deriving DecidableEq, Repr

/-! ### Power (15_power.md) -/

inductive PwrAnswer where
  | none | ack | defer (at_ : Nat)
deriving DecidableEq, Repr

/-- An entry handshake in progress (R371): what is entered and who has answered. -/
structure PwrEntry where
  /-- the device state being entered (code), for a device state -/
  target : Nat
  /-- the domain being gated and its policy, for a domain -/
  domain : Option (Nat × Nat)
  /-- id of the POWER_STATE command, none for an automatic gate -/
  cmd : Option Nat
  /-- units asked -/
  units : List Nat
  answers : SMap PwrAnswer
  deadline : Nat
  deferred : Bool
  forceDose : Bool
deriving DecidableEq, Repr

/-- A register access held for a waking domain (R23, R368). -/
structure HeldAccess where
  domain : Nat
  off : Nat
  write : Option Nat
deriving DecidableEq, Repr

structure Pwr where
  entry : Option PwrEntry
  /-- a committed entry to WATCH or DORMANT (R376): target state, time of the completion, ring and count of it -/
  committed : Option (Nat × Nat × Nat × Nat)
  /-- when a domain lost its last user, or its last automatic gate was abandoned (R368, R371) -/
  idleSince : SMap (Option Nat)
  held : List HeldAccess
  /-- comparators, period (ms) and wake enables in force: those the registers held at the last entry (R382) -/
  cmps : List Nat
  period : Nat
  wakeEn : Nat
  /-- consecutive matching samples of each comparator (R377) -/
  runs : SMap Nat
  /-- comparators that matched since the entry -/
  matched : List Nat
  /-- a wake in progress: the state woken from, and the FE source of PD00 that caused it, whose reaction follows (R322) -/
  waking : Option Nat
  wakeFault : Option Nat
  /-- the real-time clock in 1/32,768 s when it was last loaded, and when that was (R378) -/
  rtcBase : Nat
  rtcAt : Nat
deriving DecidableEq, Repr

/-! ### Pins (18_package.md) -/

structure Pins where
  faultN : Bool
  wakeN : Bool
  syncOut : List Bool
  ppsOut : Bool
  edition : Nat
  /-- Bit g: REFCLK_MGg runs (R435) -/
  refclk : Nat
  /-- When QSPI_RESET_N went low for 1 ms (R434) -/
  qspiAt : Nat
deriving DecidableEq, Repr

/-! ### Meridian (08_meridian_time.md) -/

/-- A trigger's series (R218, R219, R223): index of its next instant; a disarm that leaves one near instant to fire. -/
structure Trig where
  j : Nat
  lastOne : Bool
deriving DecidableEq, Repr

/-- A captured edge (R225). -/
structure Capture where
  mst : Nat
  sync : Bool
deriving DecidableEq, Repr

/-- The data set of the best Announce a port has heard (R210, IEEE 1588-2019). -/
structure Announce where
  prio1 : Nat
  clockClass : Nat
  accuracy : Nat
  variance : Nat
  prio2 : Nat
  gmId : Nat
  steps : Nat
  source : Nat
  at_ : Nat
deriving DecidableEq, Repr

/-- What the PTP engine keeps for one port (R209 to R212, R228). Times are in 1/16 ns. -/
structure PtpPort where
  best : Option Announce
  /-- a two-step Sync that waits for its Follow_Up: sequenceId, receive stamp, correction, arrival -/
  sync : Option (Nat × Int × Int × Nat)
  /-- master-to-slave difference t2 − t1 − corrections of the latest Sync -/
  ms : Option Int
  seq : Nat
  /-- outstanding Delay_Req or Pdelay_Req: sequenceId and egress stamp -/
  req : Option (Nat × Int)
  /-- Pdelay_Resp that waits for its follow-up: sequenceId, responder, receive stamp t4, request receipt t2 -/
  presp : Option (Nat × Nat × Int × Int)
  /-- responder of the latest Pdelay exchange; several make the port not asCapable -/
  responder : Option Nat
  multi : Bool
  count : Nat
  second : Nat
deriving DecidableEq, Repr

def PtpPort.init : PtpPort := ⟨none, none, none, 0, none, none, none, false, 0, 0⟩

structure Mer where
  sec : Nat
  ns : Nat
  /-- fraction of a nanosecond, 2^−48 ns -/
  frac : Nat
  /-- the servo's learned frequency, 2^−16 ppb (R215) -/
  integ : Int
  /-- latched MFT (R201): seconds, nanoseconds, fraction in 2^−16 ns; latched MST is MER_MST.LATCHED -/
  latSec : Nat
  latNs : Nat
  latFrac : Nat
  /-- staged SET (R202) -/
  setSec : Nat
  setNs : Nat
  setFrac : Nat
  /-- consecutive step-counting samples and their sign (R216) -/
  stepRun : Nat
  stepNeg : Bool
  lockRun : Nat
  unlockRun : Nat
  /-- when the last sample came, and its L (R217) -/
  sampleAt : Option Nat
  sampleL : Int
  trigs : SMap Trig
  captures : List Capture
  /-- pulses in progress on the SYNC_OUT pins, by trigger: end time and pins (R220) -/
  pulses : SMap (Option (Nat × Nat))
  /-- end of the PPS_OUT pulse in progress (R224) -/
  ppsEnd : Option Nat
  /-- per die: stamps are invalid until then (none: valid); raised once per outage (R208) -/
  tsBad : SMap (Option Nat)
  ptp : SMap PtpPort
  /-- identity of the current grandmaster (R228) -/
  gm : Nat
  /-- Compass messages in the current second, in and out, and those of them that are Delay_Req messages to master ports or
  their answers (R212) -/
  ptpIn : Nat
  ptpOut : Nat
  ptpReqIn : Nat
  ptpReqOut : Nat
  ptpSecond : Nat
  /-- when MER_PTP_INVALID was last raised for the once-per-second violations (R228) -/
  ptpInvalidAt : Option Nat
deriving DecidableEq, Repr

/-! ### Memory and data protection (13_memory.md) -/

/-- A 32-byte HBM code word: its data, the flips stored on it, and its poison bit (R335, R337, R339). -/
structure HbmWord where
  data : Nat
  flipData : Nat
  flipCheck : Nat
  poison : Bool
deriving DecidableEq, Repr

def HbmWord.init : HbmWord := ⟨0, 0, 0, false⟩

/-- A 64-bit SRAM word with the flips stored on it (R335, R339). -/
structure SramWord where
  data : Nat
  flipData : Nat
  flipCheck : Nat
deriving DecidableEq, Repr

def SramWord.init : SramWord := ⟨0, 0, 0⟩

/-- A merge-buffer entry (R336): its code word, its bytes, which of them writes have covered, whether the old word has returned,
poison, start. -/
structure MergeEntry where
  word : Nat
  bytes : SMap (Option Nat)
  written : List Nat
  filled : Bool
  poison : Bool
  since : Nat
deriving DecidableEq, Repr

/-- Retraining of one stack (R333, R334). -/
structure Retrain where
  active : Bool
  holds : Nat
  lastHold : Option Nat
  /-- highest temperature at the last completed training, °C -/
  temp : Int
  /-- since when the next pseudo-channel has sought a hold instant, and whether its deferral was raised -/
  seek : Nat
  deferred : Bool
  /-- highest temperature when the present count of holds began, 0.25 °C; MEM_TEMP_DRIFT raised since the last training -/
  began : Int
  drift : Bool
deriving DecidableEq, Repr

def Retrain.init : Retrain := ⟨false, 0, none, 0, 0, false, 0, false⟩

structure Mem where
  hbm : SMap HbmWord
  sram : SMap SramWord
  /-- merge buffers MERGEA (0) and MERGEB (1), oldest entry first -/
  merge : SMap (List MergeEntry)
  retrain : SMap Retrain
  /-- next code word of each stack's scrub, next word of each macro's scrub (R340) -/
  scrub : SMap Nat
  sramScrub : SMap Nat
  /-- the triplicated words, three copies each (R338) -/
  tmr : SMap (Nat × Nat × Nat)
  /-- when ECC_CE_HBM and ECC_CE_SRAM were last raised per memory (R335) -/
  ceAt : SMap (Option Nat)
  /-- stacks in self-refresh (R356, R376) -/
  selfRefresh : SMap Bool
  /-- lanes repaired with the redundant lane, by pseudo-channel -/
  redundant : SMap Bool
  /-- when MEM_QOS_LATE was last raised (R331) -/
  lateAt : Option Nat
deriving DecidableEq, Repr

/-! ### Projection (02_wall_model.md) -/

/-- R, G and B, or the three coded components. -/
abbrev Pix := Nat × Nat × Nat

/-- A stored picture (R65): size, depth of each component, chroma format (0 4:2:0, 1 4:2:2, 2 4:4:4), Contour's
colour_transform, and the three component planes row by row. -/
structure Picture where
  w : Nat
  h : Nat
  depth : List Nat
  chroma : Nat
  transform : Bool
  planes : List (List (List Nat))
deriving DecidableEq, Repr

/-- What a layer reads for one composition (R42, R45). -/
inductive LayerSource where
  | empty
  | picture (p : Picture)
  | surface (rows : List (List (Pix × Nat)))
deriving DecidableEq, Repr

/-- The applied parameters of a view (R43) with its 16 layer descriptors (R35). -/
structure ViewParams where
  w : Nat
  h : Nat
  through : Bool
  encoding : Nat
  bg : Pix
  peak : Nat
  white : Nat
  layers : List (List Byte)
deriving DecidableEq, Repr

def ViewParams.init : ViewParams := ⟨0, 0, false, 0, (0, 0, 0), 1, 1, List.replicate 16 []⟩

/-- A VIEW_COMMIT accepted and not yet applied (R44): its command and parameters. -/
structure Commit where
  cmd : Nat
  params : ViewParams
deriving DecidableEq, Repr

/-- A canvas: its rows and its latitude map (R30, R32). -/
structure Canvas where
  rows : List (List Pix)
  map : List Bool
deriving DecidableEq, Repr

/-- A presentation schedule (R184, R185): views, the period in 2^−16 ns, START, the records. -/
structure Sched where
  views : Nat
  period : Nat
  start : Nat
  recs : List (List Byte)
deriving DecidableEq, Repr

structure View where
  applied : ViewParams
  /-- descriptors staged by LAYER_SET, by slot (R41) -/
  staged : SMap (List Byte)
  commits : List Commit
  front : Canvas
  back : Canvas
  /-- picture started at the last boundary with its presentation time; whether one was started -/
  picture : Nat
  time : Nat
  started : Bool
  /-- the schedule that picture started under (R187) -/
  under : Option Sched
  /-- by port, T − E and the bytes that S counts of the pictures started at the last boundary (R188, R196) -/
  leads : SMap (Nat × Nat)
  /-- its number under the running schedule, once a boundary of that schedule has come -/
  k : Option Nat
  /-- the back canvas holds the whole picture (R33) -/
  backDone : Bool
  /-- sources latched by the composition in progress (R45) -/
  composing : Option (List LayerSource)
  /-- layers whose PRJ_SOURCE_EMPTY has been raised (R42) -/
  emptyRaised : SMap Bool
  /-- picture bound to the view's composition, by stream, with the number it was bound to (R77) -/
  bound : SMap (Option (Nat × Picture))
  /-- the last picture of a closed stream, kept by slot until the next VIEW_COMMIT (R59, R70) -/
  attached : SMap LayerSource
  /-- Meridian second of the last dose measurement, and whether the picture started is measured (R54) -/
  doseSec : Option Nat
  doseNow : Bool
  /-- latitudes of the picture already counted as late (R19) -/
  lateLats : SMap Bool
deriving DecidableEq, Repr

def View.init : View :=
  ⟨ViewParams.init, [], [], ⟨[], []⟩, ⟨[], []⟩, 0, 0, false, none, [], none, false, none, [], [], [], none, false, []⟩

/-- A surface (R45): its size, its two buffers, and the views whose running composition reads each. -/
structure Surface where
  w : Nat
  h : Nat
  front : List (List (Pix × Nat))
  back : List (List (Pix × Nat))
  readFront : List Nat
  readBack : List Nat
deriving DecidableEq, Repr

/-- Staged gazetteer entries of one command (R50): sheet and entry; MST of the last boundary used, if any, and of the last
application. -/
structure GztUpdate where
  cmd : Nat
  entries : List (Nat × List Byte)
  bound : Option Nat
  last : Nat
deriving DecidableEq, Repr

/-- Staged calibration matrices of one command (R52): MST of the last boundary used, if any, and of the last application. -/
structure CalUpdate where
  cmd : Nat
  entries : List (Nat × List Int)
  bound : Option Nat
  last : Nat
deriving DecidableEq, Repr

/-- A sheet picture in progress (R51): its number and T(k), whether it repeats the front canvas, whether it is the first of
its schedule (R187) or the first under an entry that restarts the encoder (R153), the settings that govern it (R31): entry,
view parameters, matrix, gains, and of its port T − E and the bytes of S (R188); the canvas it is cut from (none: the view's
back canvas), whether its dose is measured; the bands of 16 cabinet rows past stage 7 with their block means, and of a Contour
sheet their rows (its input buffer, R154) and the cell rows found late (R189), with
those of them that were never marked; units handed to framing, and whether
PRJ_SHEET_LATE and SCR_DEADLINE_MISS have been raised for it. -/
structure SheetPic where
  picture : Nat
  time : Nat
  repeated : Bool
  first : Bool
  restart : Bool
  entry : List Byte
  params : ViewParams
  cal : List Int
  gain : SMap Nat
  lead : Nat
  bytes : Nat
  canvas : Option Canvas
  dose : Bool
  bands : Nat
  means : List Nat
  rows : List (List Pix)
  lateRows : List Nat
  staged : List Nat
  sent : Nat
  late : Bool
  missed : Bool
deriving DecidableEq, Repr

structure Prj where
  views : SMap View
  surfaces : SMap (Option Surface)
  /-- applied gazetteer entries of 64 bytes (R47) -/
  gzt : SMap (List Byte)
  gztStaged : List GztUpdate
  /-- applied calibration matrices (R52); the identity where none was applied -/
  cal : SMap (List Int)
  calStaged : List CalUpdate
  /-- gain maps applied and staged, at 8 × dose sheet + view, by 3 × block + colour (R53, R419) -/
  gain : SMap (SMap Nat)
  gainStaged : List (Nat × SMap Nat)
  /-- dose maps by sheet: key 3 × block + colour (R54); sheets that have one, with their size -/
  dose : SMap (SMap Nat)
  doseSize : SMap (Option (Nat × Nat))
  /-- LFSR of each lane (R54) -/
  lfsr : SMap Nat
  /-- host filter bank (R38, R60) -/
  coef : SMap Nat
  /-- SURFACE_WRITE commands held because a composition reads the back buffer, with their data (R45) -/
  surfaceWait : List (Nat × List Byte)
  /-- sheet pictures in progress, oldest first -/
  sheets : SMap (List SheetPic)
  /-- block means of a sheet's latest pictures, for the measurement of a held picture (R54) -/
  means : SMap (List (Nat × List Nat))
deriving DecidableEq, Repr

/-! ### Ports (09_ports_switch.md) -/

/-- What the sender still waits for when a frame leaves. -/
inductive FrameTag where
  | plain
  /-- a roll-call request, whose egress stamp is t1 (R178) -/
  | rollcall
  /-- the last CAL_PUSH frame of a block (R181) -/
  | calEnd
  /-- a HOLD frame of a HOLD command (R194) -/
  | hold (cmd : Nat)
  /-- a PTP event message whose egress stamp is taken (R207) -/
  | ptp
  /-- a frame of a sheet's unit (R176) -/
  | sheet (n : Nat)
deriving DecidableEq, Repr

/-- A copy of a frame in an egress queue: bytes without the FCS, cells it counts, whether they are of the shared pool, the
epochs of its lookup (R246), yellow (R263), stomped at its end (R240), its ingress stamp in 1/16 ns (R205), its ingress port,
and the sequence number of its first cell between its input and output groups (R239). -/
structure QFrame where
  buf : Nat
  bytes : List Byte
  cells : Nat
  shared : Bool
  epochs : Nat
  yellow : Bool
  stomp : Bool
  stamp : Int
  src : Nat
  seq : Nat
  tag : FrameTag
deriving DecidableEq, Repr

/-- A frame that waits in a port's launch slot (R192, R226): the trigger that launched it, or none for a PRESENT; its
instant (MST), the frame, its class, and the margin past which it is late. -/
structure Launch where
  trigger : Option Nat
  at_ : Nat
  frame : QFrame
  cls : Nat
  margin : Nat
deriving DecidableEq, Repr

structure Port where
  /-- the PORT_CONFIG entry in force (R232); empty while the port is disabled -/
  cfg : List Byte
  /-- start of the bring-up stage, or when it is tried again (R233) -/
  since : Nat
  /-- rate last resolved since the port was last configured (R188) -/
  resolved : Option Nat
  /-- times of the latest link-down transitions (R233) -/
  downs : List Nat
  heldUntil : Nat
  rxErrAt : Option Nat
  /-- times of uncorrectable codewords (R250) -/
  fecTimes : List Nat
  /-- Meridian second, codewords corrected in it, and in the second before (R235) -/
  corrected : Nat × Nat × Nat
  snr : Nat
  /-- PORT_MEASUREs that wait for a new equaliser estimate -/
  measure : List Nat
  /-- per class, end of the pause a received frame gave (R234) -/
  pauses : SMap (Option Nat)
  /-- pause frames sent: classes in XOFF (8 for PAUSE) -/
  xoff : SMap Bool
  slot : List Launch
  /-- an idle period: the port starts no frame but of this class (R192), 8 none at all (R226), until the launch at this instant -/
  idle : Option (Nat × Nat)
  downAt : Option Nat
deriving DecidableEq, Repr

def Port.init : Port := ⟨[], 0, none, [], 0, none, [], (0, 0, 0), 0, [], [], [], [], none, none⟩

/-! ### Frame switch and traffic manager (09_ports_switch.md, 10_traffic_manager.md) -/

/-- A frame in the packet buffer (R241, R242): its ingress port and class, its cells (bank × 12,288 + cell), copies left. -/
structure Buf where
  src : Nat
  cls : Nat
  cells : List Nat
  refs : Nat
deriving DecidableEq, Repr

def Buf.init : Buf := ⟨0, 0, [], 0⟩

/-- A TABLE_UPDATE that waits: applied and fenced since a time, or behind another of its table (R246). -/
structure TableUpd where
  cmd : Nat
  table : Nat
  op : Nat
  data : List Byte
  /-- when its entries were applied; none while it waits its turn -/
  since : Option Nat
deriving DecidableEq, Repr

structure Mirror where
  kind : Nat
  flags : Nat
  source : Nat
  inset : Nat
  trunc : Nat
deriving DecidableEq, Repr

def Mirror.init : Mirror := ⟨0, 0, 0, 0, 0⟩

structure Sw where
  /-- MAC entries, at bucket × 4 + way; flow entries; multicast sets (R244) -/
  mac : SMap (List Byte)
  flow : SMap (List Byte)
  mcast : SMap (List Byte)
  updates : List TableUpd
  mirrors : SMap Mirror
  bufs : SMap Buf
  bufSeq : Nat
  /-- cells taken (R242) -/
  used : SMap Bool
  /-- shared cells of a port and class, at port × 8 + class (R241) -/
  shared : SMap Nat
  /-- next sequence number between an input and an output group, at input × 16 + output (R239) -/
  seq : SMap Nat
deriving DecidableEq, Repr

/-- A packet shaper (R259): times are 2^−16 ns; settings that wait for the next slot visit. -/
structure Shaper where
  enabled : Bool
  rate : Nat
  burst : Nat
  credit : Nat
  last : Nat
  overflow : Bool
  next : List (Nat × Nat)
deriving DecidableEq, Repr

def Shaper.init : Shaper := ⟨false, 0, 1, 0, 0, false, []⟩

/-- A meter (R262): buckets in 2^−16 packets with the remainders of their refills, counts by colour. -/
structure Meter where
  actYellow : Nat
  actRed : Nat
  cir : Nat
  pir : Nat
  cbs : Nat
  pbs : Nat
  tc : Nat
  tp : Nat
  remC : Nat
  remP : Nat
  last : Nat
  bindings : List (Nat × Nat)
  green : Nat
  yellow : Nat
  red : Nat
deriving DecidableEq, Repr

def Meter.init : Meter := ⟨0, 0, 0, 0, 0, 0, 0, 0, 0, 0, 0, [], 0, 0, 0⟩

/-- A gate control list (R264, R267): entries (states, ns), start and cycle in 2^−16 ns, the start as an MFT. -/
structure GateList where
  entries : List (Nat × Nat)
  start : Nat
  cycle : Nat
deriving DecidableEq, Repr

structure Tm where
  /-- queues, start tags of their head frames, finish tags and shapers at port × 8 + class; virtual times by port (R254, R257) -/
  queues : SMap (List QFrame)
  start : SMap Nat
  finish : SMap Nat
  vtime : SMap Nat
  shapers : SMap Shaper
  meters : SMap Meter
  gates : SMap (Option GateList)
  gatesNext : SMap (Option GateList)
  oversizeAt : SMap (Option Nat)
deriving DecidableEq, Repr

/-! ### Sheet transport and presentation (07_sheet_transport.md) -/

/-- A PRESENT_SCHEDULE that waits for T_0(0) (R187): its command, START, T_0(0), and whether the PRESENT of that picture was
refused on a port. -/
structure SchedWait where
  cmd : Nat
  start : Nat
  at_ : Nat
  refused : Bool
deriving DecidableEq, Repr

/-- A PRESENT prepared for one port and picture (R191): B, T, launch instant, waits, whether it is timed, CHAIN_LEN. -/
structure Present where
  port : Nat
  view : Nat
  picture : Nat
  bound : Nat
  time : Nat
  at_ : Nat
  timed : Bool
  waits : List Nat
  repeated : Bool
  /-- the first picture of the schedule's view 0 -/
  first : Bool
  /-- one more than the highest position with an entry of the view -/
  chain : Nat
deriving DecidableEq, Repr

/-- A HOLD command accepted (R194): its instant, and whether its frames have been queued and any was refused. -/
structure HoldCmd where
  cmd : Nat
  mask : Nat
  flags : Nat
  at_ : Nat
  issued : Bool
  refused : Bool
deriving DecidableEq, Repr

/-- A roll-call in progress on a port (R181): request, command (none for the background PING), t1 in 1/16 ns, responses by
position, positions discarded. -/
structure RollCall where
  kind : Nat
  cmd : Option Nat
  req : Nat
  sentAt : Nat
  t1 : Option Int
  lastAt : Option Nat
  rsps : SMap (List Byte)
  /-- delay word and record that a position had before (R197) -/
  old : SMap (Option (Nat × List Byte))
  bad : List Nat
deriving DecidableEq, Repr

/-- A calibration push that awaits its CAL_ACK (R181). -/
structure Push where
  cmd : Nat
  hop : Nat
  block : Nat
  crc : Nat
  lastAt : Option Nat
deriving DecidableEq, Repr

structure Sht where
  running : Option Sched
  /-- schedules accepted that wait for their START, earliest first (R187) -/
  next : List Sched
  waits : List SchedWait
  presents : List Present
  /-- last picture presented by a view (R174) -/
  shown : SMap Nat
  holds : List HoldCmd
  rollcalls : SMap (Option RollCall)
  pushes : SMap (Option Push)
  reqSeq : Nat
  pingAt : Nat
  /-- records by 16 × port + position (R179) -/
  recs : SMap (List Byte)
  /-- loss reports already taken under the schedule: sheet, picture number; picture of a sheet's last refresh by NACK (R183) -/
  nacks : List (Nat × Nat)
  nackRefresh : SMap (Option Nat)
  /-- SHT_NO_DELAY raised, by 16 × port + position (R196) -/
  noDelay : SMap Bool
  loopAt : SMap (Option Nat)
deriving DecidableEq, Repr

/-! ### Contour (04_contour_stream.md to 06_encoding_rate_control.md) -/

/-- The elements of a Contour picture header (R101, R102); depth is B. -/
structure PicHdr where
  ptype : Nat
  isRef : Bool
  anchorLoad : Bool
  anchorRef : Bool
  ct : Bool
  c422 : Bool
  ts : Bool
  qpDelta : Bool
  depth : Nat
  colour : Nat
  hint : Nat
  number : Nat
  w : Nat
  h : Nat
  sliceRows : Nat
deriving DecidableEq, Repr

/-- Three component planes of the coded area, row by row. -/
abbrev Planes := List (List (List Nat))

/-- What one coded or written cell row is reported as (R170). -/
structure RowRec where
  mode : Nat
  cause : Nat
  sliceBound : Bool
  qp : Nat
  meanQp : Nat
  bits : Nat
  target : Nat
  allowance : Nat
  skips : Nat
  inters : Nat
  intras : Nat
  activity : Nat
deriving DecidableEq, Repr

/-- A Contour sheet picture in progress (R151 to R168): its header, gazetteer entry, prepared source, reconstruction, budget
counts, mode flags and the rows of the open slice. -/
structure EncRun where
  hdr : PicHdr
  entry : List Byte
  view : Nat
  time : Nat
  repeated : Bool
  src : Planes
  recon : Planes
  row : Nat
  cp : Nat
  cs : Nat
  tp : Int
  nominal : Nat
  usedPic : Nat
  usedSlice : Nat
  opened : Bool
  floorPic : Bool
  floorSlc : Bool
  repPic : Bool
  repSlc : Bool
  body : List Bool
  qp0 : Int
  last : Option (Nat × Nat × Int)
  qps : List Nat
  acts : List Nat
  weights : List Nat
  firstFloor : Option Nat
  firstRep : Option Nat
  early : Bool
  fBefore : Int
  recs : List RowRec
deriving DecidableEq, Repr

/-- A RC_CAPTURE in progress (R170): its command, pictures still to record, first number, pictures with a FLOOR_ROW, and the
host address of the next record. -/
structure Capturing where
  cmd : Nat
  left : Nat
  first : Option Nat
  floors : Nat
  addr : Nat
deriving DecidableEq, Repr

/-- What the encoder keeps for one sheet from picture to picture (R149, R153, R163, R164) with its statistics (R171). -/
structure EncSheet where
  prev : Option Picture
  anchor : Option Picture
  fresh : Bool
  refresh : Bool
  sinceI : Nat
  fullness : Int
  prevBits : Option (Nat × Int)
  qpm : Option Nat
  acts : List Nat
  run : Option EncRun
  lastNumber : Nat
  lastI : Bool
  lastEarly : Bool
  lastMeanQp : Nat
  lastBytes : Nat
  lastFloor : Nat
  lastRep : Nat
  captures : List Capturing
deriving DecidableEq, Repr

def EncSheet.init : EncSheet :=
  ⟨none, none, true, false, 0, 0, none, none, [], none, 0, false, false, 0, 0, 0xFFFF, 0xFFFF, []⟩

/-! ### Streams and the scribe array (03_scribe_array.md) -/

/-- A network packet of a stream in its reorder window (R71): marker, RTP timestamp, payload, arrival as an MST and in
reference time. -/
structure Packet where
  mark : Bool
  ts : Nat
  payload : List Byte
  at_ : Nat
  seen : Nat
deriving DecidableEq, Repr

/-- An access unit (R73, R75, R118): its bytes with the ranges received, the places where units are marked to begin, its
NAL units (HEVC, with whether each is whole), RTP timestamp, arrival of its last byte and the instant it became ready (MST),
its picture time, whether its end has been seen, whether its packet loss has been reported, and whether its picture has
already been completed without the rest of it (R80), and when it began (MST). -/
structure Au where
  data : List Byte
  have_ : List (Nat × Nat)
  marks : List Nat
  nals : List (List Byte × Bool)
  ts : Option Nat
  arrived : Nat
  ready : Nat
  time : Option Nat
  whole : Bool
  reported : Bool
  dead : Bool
  began : Nat
deriving DecidableEq, Repr

/-- A picture on a core (R62, R83): its access unit, header (Contour), reconstruction, next byte of the unit, the slices seen,
rows reconstructed or concealed so far and committed, concealment settings taken at its start, its time if fixed. -/
structure Job where
  au : Au
  core : Nat
  hdr : Option PicHdr
  pic : Picture
  rec_ : Planes
  readPrev : Bool
  readAnchor : Bool
  missing : Bool
  next : Nat
  lastSlice : Option Nat
  rows : Nat
  committed : Nat
  lost : Bool
  start : Bool
  mode : Nat
  hashStrict : Bool
  freeze : Bool
  deadline : Nat
  /-- its stream has returned to SYNCING: it completes and updates nothing (R150) -/
  orphan : Bool
  /-- HEVC: the segments seen of the present slice have passed (R83); the rows that concealment has set (R84) -/
  sliceOk : Bool
  hidden : List (Nat × Nat)
  /-- bytes of the unit that belong to no slice have been told (R115) -/
  tail : Bool
deriving DecidableEq, Repr

/-- An ST 2110-20 picture being written (R74): planes, pixel groups that have arrived by row, rows committed, bands lost. -/
structure Raster where
  ts : Nat
  planes : Planes
  got : SMap (List Nat)
  topRow : Nat
  closed : Bool
  committed : Nat
  lost : Bool
  arrived : Nat
  /-- concealment settings at its start (R87), and when it began (MST) -/
  mode : Nat
  freeze : Bool
  began : Nat
deriving DecidableEq, Repr

/-- A delivered picture: its output form while a buffer holds it (R66), its picture time (MST), whether it may be bound, and
whether a later one has superseded it (R77, R87). -/
structure Delivered where
  pic : Option Picture
  time : Nat
  bindable : Bool
  late : Bool
deriving DecidableEq, Repr

structure Stream where
  /-- states of R64: 0 CLOSED, 1 SYNCING, 2 RUNNING, 3 ENDED, 4 CLOSING -/
  state : Nat
  /-- the STREAM_OPEN entry -/
  opened : List Byte
  mode : Nat
  freeze : Bool
  hashStrict : Bool
  /-- running offset of a host-fed stream (R75) -/
  offset : Nat
  /-- reorder window by key, its oldest outstanding key, when the first packet past the gap arrived (reference time) -/
  window : SMap (Option Packet)
  nextKey : Option Nat
  gapAt : Option Nat
  behind : Nat
  /-- the access unit being assembled, host bytes not yet in one, bytes of an oversize unit still to discard -/
  asm : Option Au
  bytes : List Byte
  discard : Nat
  /-- when those bytes were copied: lengths and MST of their pieces, in order (R76) -/
  chunks : List (Nat × Nat)
  /-- a Contour byte stream that searches for its next unit, whose CRC must match (R107) -/
  resync : Bool
  /-- packets have been lost with no picture open, and told (R72); fragments of a discarded NAL unit, and whether its slice has
  been counted (R73) -/
  lossTold : Bool
  fragment : Option Bool
  /-- NAL units of higher layers that were discarded (R82) -/
  layered : Nat
  /-- ranges that carry a TIME, by running offset from and to (R75); the previous picture time before its offset -/
  hostTimes : List (Nat × Nat × Nat)
  lastTime : Option Nat
  /-- time of the next picture that a running network stream should bring (R89) -/
  expected : Option Nat
  lastTs : Option Nat
  disorderAt : Option Nat
  eos : Bool
  /-- access units complete and not yet on a core, oldest first -/
  aus : List Au
  /-- STREAM_DATA commands that wait for room, with their data -/
  waits : List (Nat × List Byte)
  job : Option Job
  raster : Option Raster
  prev : Option Picture
  anchor : Option Picture
  prevTaint : Bool
  anchorTaint : Bool
  lastDecoded : Option Picture
  /-- the decoded picture buffer of an HEVC stream, by picture order count (R86) -/
  dpb : List (Int × Picture)
  /-- HEVC pictures that wait for output, by picture order count (R82) -/
  output : List (Int × Delivered)
  delivered : List Delivered
  concealed : Bool
  shedding : Bool
  misses : Nat
  pictures : Nat
  packetsLost : Nat
  slicesLost : Nat
  deadlineMiss : Nat
  skipped : Nat
  cll : Nat × Nat
  mdl : Nat × Nat
  limitRaised : Bool
  markerRaised : Bool
  /-- the STREAM_CLOSE that waits for the picture on a core -/
  closing : Option Nat
deriving DecidableEq, Repr

def Stream.init : Stream :=
  { state := 0, opened := [], mode := 0, freeze := false, hashStrict := false, offset := 0, window := [], nextKey := none,
    gapAt := none, behind := 0, asm := none, bytes := [], discard := 0, chunks := [], resync := false, lossTold := false,
    fragment := none, layered := 0, hostTimes := [], lastTime := none, expected := none, lastTs := none,
    disorderAt := none, eos := false, aus := [], waits := [], job := none, raster := none, prev := none, anchor := none,
    prevTaint := false, anchorTaint := false, lastDecoded := none, dpb := [], output := [], delivered := [], concealed := false,
    shedding := false, misses := 0, pictures := 0, packetsLost := 0, slicesLost := 0, deadlineMiss := 0, skipped := 0,
    cll := (0, 0), mdl := (0, 0), limitRaised := false, markerRaised := false, closing := none }

/-- A core's work: a stream's picture or a sheet's (true), its number, and since when; what it served last (R63); up to when its
busy time has been counted (R90). -/
structure Core where
  job : Option (Bool × Nat)
  since : Nat
  last : Option (Bool × Nat)
  counted : Nat
deriving DecidableEq, Repr

def Core.init : Core := ⟨none, 0, none, 0⟩

structure Scr where
  streams : SMap Stream
  cores : SMap Core
  /-- contexts in the cache, least recently used first (R63) -/
  cache : List (Bool × Nat)
  /-- sheets with a ready picture, and those with a closing job (R155, R168) -/
  readySheets : List Nat
  closing : List Nat
  /-- core busy time of the Meridian second and of the last one, ns (R90) -/
  busy : Nat × Nat × Nat
deriving DecidableEq, Repr

/-! ### Background services (17_background_services.md) -/

/-- The three decay curves, each of 16 points (dose, relative output) (R417). -/
abbrev Curves := List (List (Nat × Nat))

/-- A gain pass in progress (R419): the curves it runs under, its wall set, the references of its first sweep. -/
structure GainPass where
  curves : Curves
  sheets : List Nat
deriving DecidableEq, Repr

/-- The telemetry ring (R424): base, size, next SEQ. -/
structure Telemetry where
  addr : Nat
  size : Nat
  seq : Nat
deriving DecidableEq, Repr

/-- Consecutive samples past each threshold and whether the warning is latched until the value returns (R425). -/
structure Monitor where
  warn : Nat
  warned : Bool
  warn2 : Nat
  warned2 : Bool
  crit : Nat
deriving DecidableEq, Repr

def Monitor.init : Monitor := ⟨0, false, 0, false, 0⟩

/-- The receive equaliser of a lane (R416): CTLE gain, DFE taps, when it last moved. -/
structure Equaliser where
  ctle : Int
  dfe : List Int
  at_ : Option Nat
deriving DecidableEq, Repr

def Equaliser.init : Equaliser := ⟨0, [], none⟩

structure Bg where
  /-- curves in force; the empty list once they were removed, until the pass that follows (R417) -/
  curves : Option Curves
  pass : Option GainPass
  /-- a pass was asked for while one ran -/
  passAgain : Bool
  /-- when the last periodic pass began, real-time clock seconds -/
  passAt : Nat
  /-- DOSE_SAVE and DOSE_LOAD commands that wait for a pass to end -/
  doseWait : List Nat
  /-- dose maps changed since their last DOSE_SAVE (R372, R421) -/
  doseChanged : SMap Bool
  telemetry : Option Telemetry
  /-- Meridian seconds and reference time when the second of the last record ended (R424) -/
  teleAt : Option (Nat × Nat)
  /-- events of the second, for the telemetry record (R424) -/
  teleCounts : SMap Nat
  /-- fault-log records not yet in flash, and when the last write was (R422) -/
  faultBuf : List (List Byte)
  flushAt : Nat
  summaryAt : Nat
  temps : SMap Monitor
  rails : SMap Monitor
  equaliser : SMap Equaliser
deriving DecidableEq, Repr

def Bg.init : Bg :=
  { curves := none, pass := none, passAgain := false, passAt := 0, doseWait := [], doseChanged := [], telemetry := none, teleAt := none, teleCounts := [],
    faultBuf := [], flushAt := 0, summaryAt := 0, temps := [], rails := [], equaliser := [] }

/-! ### Security, flash and the Compass (16_editions_security_compass.md) -/

/-- The one-time-programmable fuses (R389). -/
structure Otp where
  rootHash : List Byte
  serial : Nat
  troTrim : Nat
  /-- burnt bits of the lifecycle thermometer -/
  lifecycle : Nat
  idKey : Bool
  idCert : List Byte
  /-- 32 bytes; all zeros until bound -/
  ownerHash : List Byte
  policy : Nat
  svn : Nat
deriving DecidableEq, Repr

/-- A directory copy (R387); its CRC is right. Digests by firmware slot and by edition slot, none for an empty slot. -/
structure Dir where
  seq : Nat
  active : Nat
  trial : Bool
  trialSlot : Nat
  fw : SMap (Option Nat)
  ed : SMap (Option Nat)
deriving DecidableEq, Repr

/-- A sector of the fault log or a slot of the dose summary (R422): sequence, erase count, contents. -/
structure FlashArea where
  seq : Nat
  erases : Nat
  body : List Byte
deriving DecidableEq, Repr

def FlashArea.init : FlashArea := ⟨0, 0, []⟩

/-- The QSPI flash (R385 to R387, R422): what its SFDP tables give, the directory's two copies, the slots, the background
area. The survey area is Ev.flashSurvey. -/
structure Flash where
  sizeMib : Nat
  sfdp : Bool
  dtr : Bool
  dirs : Dir × Dir
  fw : SMap (List Byte)
  ed : SMap (List Byte)
  log : SMap FlashArea
  summary : SMap FlashArea
deriving DecidableEq, Repr

/-- A slot being programmed (R391, R397): its command, whether it is an edition's, the slot, the image. -/
structure FlashJob where
  cmd : Nat
  edition : Bool
  slot : Nat
  image : List Byte
deriving DecidableEq, Repr

/-- An EDITION_SELECT in progress (R398): its command and slot, when reading began; the image once staged, with the index of
the view-0 boundary it waits for; its applied commands still waiting, the application instant and the sections that differed;
configuration commands that arrived since, with their data (R411). -/
structure Select where
  cmd : Nat
  slot : Nat
  since : Nat
  staged : Bool
  image : List Byte
  j : Nat
  waits : List Nat
  applied : Bool
  at_ : Nat
  differed : Nat
  deferred : List (Nat × List Byte)
deriving DecidableEq, Repr

structure Sec where
  otp : Otp
  flash : Flash
  /-- the running firmware's slot (none in recovery) and its SM3 digest (R390, R404) -/
  slot : Option Nat
  digest : Nat
  /-- FW_STAGE or EDITION_LOAD in its flash phase -/
  jobs : List FlashJob
  select : Option Select
  /-- when a warm reset follows FW_ACTIVATE NOW (R392) -/
  resetAt : Option Nat
  /-- the image of the active edition, empty where none is applied (R396) -/
  edition : List Byte
  /-- patch sets of the image and of the host (R408, R409) -/
  patches : List Byte
  hostPatches : Option (List Byte)
  /-- the control store (R405): microwords and nanowords -/
  micro : SMap Nat
  nano : SMap Nat
  /-- the sequencer: microword address and stack, latest first (R406); microinstructions since the last safe point (R407) -/
  pc : Nat
  stack : List Nat
  gap : Nat
  /-- SMBus access offset (R437) -/
  smbOffset : Nat
deriving DecidableEq, Repr

def Dir.init : Dir := ⟨0, 0, false, 0, [], []⟩

def Sec.init : Sec :=
  { otp := ⟨List.replicate 32 0, 0, 0, 0, false, List.replicate 256 0, List.replicate 32 0, 0, 0⟩
    flash := ⟨0, false, false, (Dir.init, Dir.init), [], [], [], []⟩
    slot := none, digest := 0, jobs := [], select := none, resetAt := none, edition := [], patches := List.replicate 1536 0
    hostPatches := none, micro := [], nano := [], pc := 0, stack := [], gap := 0, smbOffset := 0 }

structure State where
  /-- commands waiting, first in, first out -/
  pending : List Instr
  /-- reference time in nanoseconds, the model's own (log 2) -/
  now : Nat
  /-- index of the next free value, the model's own (log 5) -/
  freeCtr : Nat
  /-- everything sent so far, oldest first, the model's own (log 7) -/
  wire : List Emission
  /-- host memory -/
  host : List Host.Cell
  regs : SMap Word
  hif : Hif
  ev : Ev
  clk : Clk
  pwr : Pwr
  mer : Mer
  mem : Mem
  prj : Prj
  ports : SMap Port
  sw : Sw
  tm : Tm
  sht : Sht
  scr : Scr
  /-- Contour sheets, by sheet identifier -/
  enc : SMap EncSheet
  bg : Bg
  sec : Sec
  pins : Pins
deriving DecidableEq, Repr

/-! ### After power-on reset (R358, R361) -/

def Hif.init : Hif := ⟨[], [], [], 0, [], [], false, false, false, Aer.init⟩

def Ev.init : Ev :=
  { srcs := [], levels := [], evq := [], log := [], reactions := [], ucHist := [], held := [], merged := 0
    firstLoc := [], firstMft := (0, 0), surveyBuf := none, survey := none, surveySeq := 0, flashSurvey := [] }

/-- Clock start begins when power-on reset is released (R362); PERST_N is held low by the board until it releases it. -/
def Clk.init : Clk :=
  { stage := .troJudge, troAt := 0, xoAt := 0, perst := true, t0At := 0, running := none, restore := false, warmBoot := false
    surveyWait := false, relock := [], pllOff := [], domainWait := [], links := [], measAt := none, gated := [], gateTimeoutAt := [] }

def Pwr.init : Pwr :=
  { entry := none, committed := none, idleSince := [], held := [], cmps := [], period := 1000, wakeEn := 0
    runs := [], matched := [], waking := none, wakeFault := none, rtcBase := 0, rtcAt := 0 }

def Mer.init : Mer :=
  { sec := 0, ns := 0, frac := 0, integ := 0, latSec := 0, latNs := 0, latFrac := 0, setSec := 0, setNs := 0, setFrac := 0
    stepRun := 0, stepNeg := false, lockRun := 0, unlockRun := 0, sampleAt := none, sampleL := 0, trigs := [], captures := []
    pulses := [], ppsEnd := none, tsBad := [], ptp := [], gm := 0, ptpIn := 0, ptpOut := 0, ptpReqIn := 0, ptpReqOut := 0, ptpSecond := 0, ptpInvalidAt := none }

def Mem.init : Mem := ⟨[], [], [], [], [], [], [], [], [], [], none⟩

def Prj.init : Prj :=
  { views := [], surfaces := [], gzt := [], gztStaged := [], cal := [], calStaged := [], gain := [], gainStaged := [], dose := []
    doseSize := [], lfsr := [], coef := [], surfaceWait := [], sheets := [], means := [] }

def Sw.init : Sw := ⟨[], [], [], [], [], [], 0, [], [], []⟩
def Tm.init : Tm := ⟨[], [], [], [], [], [], [], [], []⟩

def Sht.init : Sht :=
  { running := none, next := [], waits := [], presents := [], shown := [], holds := [], rollcalls := [], pushes := []
    reqSeq := 0, pingAt := 0, recs := [], nacks := [], nackRefresh := [], noDelay := [], loopAt := [] }

def Scr.init : Scr := ⟨[], [], [], [], [], (0, 0, 0)⟩

def Pins.init : Pins := ⟨true, true, [false, false, false, false], false, 0, 15, 0⟩

/-- The machine right after power-on reset: registers at their reset values (none listed), units idle, clock start begun. -/
def State.reset : State :=
  { pending := [], now := 0, freeCtr := 0, wire := [], host := [], regs := [], hif := Hif.init, ev := Ev.init, clk := Clk.init
    pwr := Pwr.init, mer := Mer.init, mem := Mem.init, prj := Prj.init, ports := [], sw := Sw.init, tm := Tm.init
    sht := Sht.init, scr := Scr.init, enc := [], bg := Bg.init, sec := Sec.init, pins := Pins.init }

end Sys2Proof.Machine
end

