-- ==== Sys2Proof/Machine/Ops.lean ====
section
/-!
DEFINITION. The named operations over registers, host memory, time and domains that every command is written with.
-/

namespace Sys2Proof.Machine

/-! ### Registers: reset values (R361 and the register tables) -/

/-- Nominal rail voltages in mV (R425). -/
def railNominal : List Nat := [750, 750, 800, 750, 750, 900, 1200, 900, 1100, 400, 1800, 1800]

/-- The reset corrections of R205 in 1/16 ns: egress and ingress of rate codes 0 to 6; code 7 reads 0. -/
def tsEgressTable : List Nat := [614, 499, 1536, 1312, 1256, 1184, 1280, 0]
def tsIngressTable : List Nat := [845, 704, 3392, 3776, 3672, 3536, 3648, 0]

/-- Nominal MHz of SPLL, PPLL, FPLL, CPLL, MPLL and TPLL (R346). -/
def pllNominalTable : List Nat := [1250, 1250, 1000, 250, 1600, 1000]
/-- Lowest FREQ_MHZ and coast frequency of each PLL (R346). -/
def pllLowestTable : List Nat := [625, 625, 500, 125, 800, 500]

def resetOf (r : RstRule) (i : Nat) : Nat :=
  match r with
  | .const n => n
  | .mod4 => i % 4
  | .srcClass => (sourceClass i).code
  | .srcEvq => if sourceNamed i && (sourceClass i).code != 0 then 1 else 0
  | .qosTarget => [2000, 10000, 5000, 1000, 2000, 1000, 1000, 1000, 1000, 500, 500, 400, 400, 20000, 50000, 50000].getD i 0
  | .pllNominal => pllNominalTable.getD i 0
  | .tsEgress => tsEgressTable.getD i 0
  | .tsIngress => tsIngressTable.getD i 0
  | .tempHigh => if 12 ≤ i && i ≤ 15 then 340 else 360
  | .tempCrit => if 12 ≤ i && i ≤ 15 then 380 else 400
  | .rail p => (railNominal.getD i 0 * p + 50) / 100

/-- The copy of register r, and the byte within it, that an offset names. -/
def RegD.locate (r : RegD) (off : Nat) : Option (Nat × Nat) :=
  if off < r.base then none
  else
    let d := off - r.base
    let i1 := if r.n1 ≤ 1 then 0 else d / r.s1
    let d1 := d - i1 * r.s1
    let i2 := if r.n2 ≤ 1 then 0 else d1 / r.s2
    let d2 := d1 - i2 * r.s2
    if (r.n1 ≤ 1 || i1 < r.n1) && (r.n2 ≤ 1 || i2 < r.n2) && d2 < 4 * r.words then some (i1 * r.n2 + i2, d2) else none

def findReg (rs : List RegD) (off : Nat) : Option (RegD × Nat × Nat) :=
  match rs with
  | [] => none
  | r :: t =>
    match r.locate off with
    | some (i, b) => some (r, i, b)
    | none => findReg t off

/-- The whole reset value of copy i of a register. -/
def RegD.resetNat (r : RegD) (i : Nat) : Nat :=
  r.fields.foldl (fun a f => a + (resetOf f.reset i % 2 ^ f.width) * 2 ^ f.lo) 0

/-- What a word nothing has written reads as: its reset value; 0 where no register is. -/
def regDefault (off : Nat) : Word :=
  match findReg regTable off with
  | none => 0
  | some (r, i, b) => BitVec.ofNat 32 (r.resetNat i / 2 ^ (8 * b))

/-! ### Registers: access -/

def regW (s : State) (off : Nat) : Word := s.regs.get off (regDefault off)

def setW (s : State) (off : Nat) (v : Word) : State := { s with regs := s.regs.set off v (regDefault off) }

/-- n words from an offset as one number, the first least significant. -/
def regsNat (s : State) (off : Nat) : Nat → Nat
  | 0 => 0
  | n + 1 => (regW s off).toNat + 2 ^ 32 * regsNat s (off + 4) n

def setRegsNat (s : State) (off v : Nat) : Nat → State
  | 0 => s
  | n + 1 => setRegsNat (setW s off (BitVec.ofNat 32 v)) (off + 4) (v / 2 ^ 32) n

/-- BAR0 offset of copy i of a field's first word. -/
def fldAddr (f : Fld) (i : Nat) : Nat := f.base + f.s1 * (i / f.n2) + f.s2 * (i % f.n2) + 4 * (f.lo / 32)

def fldWords (f : Fld) : Nat := (f.lo % 32 + f.width + 31) / 32

/-- How many copies of the field's register there are. -/
def fldCount (f : Fld) : Nat := f.n1 * f.n2

/-- The value of copy i of a register field; a copy that does not exist reads 0. -/
def getF (s : State) (f : Fld) (i : Nat := 0) : Nat :=
  if i < fldCount f then regsNat s (fldAddr f i) (fldWords f) / 2 ^ (f.lo % 32) % 2 ^ f.width else 0

/-- A word with a run of bits replaced. -/
def replaced (old v l w : Nat) : Nat := old - old / 2 ^ l % 2 ^ w * 2 ^ l + v % 2 ^ w * 2 ^ l

/-- Set copy i of a register field; the other bits of its words are kept. A copy that does not exist takes no write. -/
def setF (s : State) (f : Fld) (i : Nat) (v : Nat) : State :=
  if i < fldCount f then
    setRegsNat s (fldAddr f i) (replaced (regsNat s (fldAddr f i) (fldWords f)) v (f.lo % 32) f.width) (fldWords f)
  else s

def getB (s : State) (f : Fld) (i : Nat := 0) : Bool := getF s f i != 0
def setB (s : State) (f : Fld) (i : Nat) (b : Bool) : State := setF s f i b.toNat

/-- A field read as a signed number (R2). -/
def getS (s : State) (f : Fld) (i : Nat := 0) : Int := (BitVec.ofNat f.width (getF s f i)).toInt
def setS (s : State) (f : Fld) (i : Nat) (v : Int) : State := setF s f i (BitVec.ofInt f.width v).toNat

/-- Add to a saturating counter field. -/
def addF (s : State) (f : Fld) (i : Nat := 0) (n : Nat := 1) : State :=
  setF s f i (min (getF s f i + n) (2 ^ f.width - 1))

/-- Count for the telemetry record of the second (R424). -/
def addT (s : State) (key : Nat) (n : Nat := 1) : State :=
  { s with bg := { s.bg with teleCounts := s.bg.teleCounts.set key (s.bg.teleCounts.get key 0 + n) 0 } }

/-- Keys of the telemetry counts: deadline misses, late latitudes and sheet rows, pictures with a FLOOR_ROW, PRESENT refusals,
NACK_REPORTs, switch drops, corrected memory errors; bytes sent and received and corrected codewords by port. -/
def teleMiss : Nat := 1
def teleLate : Nat := 2
def teleFloor : Nat := 3
def teleRefused : Nat := 4
def teleNack : Nat := 5
def teleDrop : Nat := 6
def teleCe : Nat := 7
def teleTx (port : Nat) : Nat := 256 + port
def teleRx (port : Nat) : Nat := 512 + port
def teleFec (port : Nat) : Nat := 768 + port

/-- Return every register word of [lo, hi) to its reset value. -/
def resetRegs (s : State) (lo hi : Nat) : State := { s with regs := s.regs.filter fun p => p.1 < lo || hi ≤ p.1 }

/-! ### Bytes, little-endian (R2) -/

def leNat (l : List Byte) : Nat :=
  match l with
  | [] => 0
  | b :: t => b.toNat + 256 * leNat t

/-- n bytes of a list from offset o as a little-endian number; bytes past the end read 0. -/
def leAt (l : List Byte) (o n : Nat) : Nat := leNat ((l.drop o).take n)

def leBytes : Nat → Nat → List Byte
  | 0, _ => []
  | n + 1, v => BitVec.ofNat 8 v :: leBytes n (v / 256)

/-- n bytes of v, most significant first (sheet frames and Contour, R2). -/
def beBytes (n v : Nat) : List Byte := (leBytes n v).reverse

def beAt (l : List Byte) (o n : Nat) : Nat := leNat ((l.drop o).take n).reverse

def bit (v i : Nat) : Bool := v / 2 ^ i % 2 == 1
def bits (v lo n : Nat) : Nat := v / 2 ^ lo % 2 ^ n

/-- A number of the given width read as signed (R2). -/
def signed (w v : Nat) : Int := (BitVec.ofNat w v).toInt
def unsigned (w : Nat) (v : Int) : Nat := (BitVec.ofInt w v).toNat

/-- Set element i of a list, if it has one. -/
def listSet {α : Type} (l : List α) (i : Nat) (v : α) : List α := l.set i v

def zeros (n : Nat) : List Byte := List.replicate n 0

/-- A record without its reserved bytes and bits, on which nothing acts (R5): each byte under its mask. -/
def kept (mask : List Nat) (b : List Byte) : List Byte := List.zipWith (fun m (x : Byte) => x &&& BitVec.ofNat 8 m) mask b

/-- n whole bytes of a mask. -/
def whole (n : Nat) : List Nat := List.replicate n 0xFF

/-- Overwrite bytes of a list from offset o. -/
def patch (l : List Byte) (o : Nat) (b : List Byte) : List Byte := l.take o ++ b ++ l.drop (o + b.length)

/-! ### CRC-32C (R106): polynomial 0x1EDC6F41 reflected, preset and final inversion -/

def crcBit (c : BitVec 32) : BitVec 32 := if c.getLsbD 0 then (c >>> 1) ^^^ 0x82F63B78#32 else c >>> 1

def crcByte (c : BitVec 32) (b : Byte) : BitVec 32 :=
  let c := c ^^^ b.setWidth 32
  crcBit (crcBit (crcBit (crcBit (crcBit (crcBit (crcBit (crcBit c)))))))

def crc32c (l : List Byte) : Nat := (~~~ (l.foldl crcByte 0xFFFFFFFF#32)).toNat

/-! ### Host memory (R276 to R281) -/

def memByte (m : List Host.Cell) (a : Nat) : Byte := SMap.get m a 0

def memWriteByte (m : List Host.Cell) (a : Nat) (b : Byte) : List Host.Cell := SMap.set m a b 0

def memRead (m : List Host.Cell) (a : Nat) : Nat → List Byte
  | 0 => []
  | n + 1 => memByte m a :: memRead m (a + 1) n

def memWrite (m : List Host.Cell) (a : Nat) (b : List Byte) : List Host.Cell :=
  match b with
  | [] => m
  | x :: t => memWrite (memWriteByte m a x) (a + 1) t

/-- The canonical form of a byte memory: addresses rise strictly, and no byte is listed that reads as unlisted. -/
def memWf (m : List Host.Cell) : Bool := SMap.sorted m && m.all fun c => c.2 != 0

/-- A host bus address is 64 bits wide. -/
def hostRead (s : State) (a n : Nat) : List Byte := memRead s.host a n
def hostWrite (s : State) (a : Nat) (b : List Byte) : State := { s with host := memWrite s.host a b }

/-- Host stores that reach host memory before the command's step (the host's side of the rings). -/
def hostStores (s : State) (st : List (Nat × List Byte)) : State := st.foldl (fun s p => hostWrite s p.1 p.2) s

/-! ### Emissions and time -/

def emit (s : State) (e : Emission) : State := { s with wire := s.wire ++ [e] }

/-- MST (R199). -/
def mst (s : State) : Nat := (s.mer.sec * 1000000000 + s.mer.ns) % 2 ^ 32

/-- The signed 32-bit difference a − b of two MST values (R204). -/
def mstDiff (a b : Nat) : Int := signed 32 (a + 2 ^ 32 - b % 2 ^ 32)

/-- An instant is reached when MST − X, signed, is 0 or more (R204). -/
def reached (s : State) (x : Nat) : Bool := 0 ≤ mstDiff (mst s) x

/-- Nanoseconds since a recorded instant of the reference time. -/
def elapsed (s : State) (since limit : Nat) : Bool := since + limit ≤ s.now

def usNs : Nat := 1000
def msNs : Nat := 1000000
def secNs : Nat := 1000000000

/-! ### Power domains -/

/-- Lanes: quad and MAC group domains (R27). -/
def quadDomain (lane : Nat) : Nat := let q := lane / 4; if q < 16 then 42 + q else 45 + q
def mgDomain (lane : Nat) : Nat := [58, 59, 77, 78].getD (lane / 32) 58
/-- Die of a lane: 0 West, 1 East, and its die-link domain (R28). -/
def laneDie (lane : Nat) : Nat := lane / 64
def dieLinkDomain (die : Nat) : Nat := if die = 0 then 60 else 79
def dieDomains (die : Nat) : List Nat := (List.range 19).map (· + if die = 0 then 42 else 61)

/-- The power domain that holds a BAR0 offset (R20, R27; PD00 for the always-on windows). -/
def domainOf (off : Nat) : Nat :=
  let w := off / 0x400000
  if w = 3 then 3
  else if w = 5 then (if off % 0x400000 < 0x200000 then 39 else 0)
  else if w = 6 then 30
  else if w = 7 ∨ w = 8 then 35
  else if w = 9 then 5
  else if w = 10 then
    let die := off / 0x200000 % 2
    let r := off % 0x200000
    if r < 0x40000 then quadDomain (64 * die + r / 0x1000) else dieLinkDomain die
  else if w = 11 then 36
  else if w = 12 then 38
  else if w = 13 then 2
  else if w = 14 then 1
  else 0

def domOn : Nat := 0
def domRetained : Nat := 1
def domOff : Nat := 2
def domWaking : Nat := 3
def domDraining : Nat := 4
def domReset : Nat := 5

def domainState (s : State) (d : Nat) : Nat := getF s Rg.PWR_DOMAIN_STATE d
def setDomain (s : State) (d st : Nat) : State := setF s Rg.PWR_DOMAIN_STATE d st
def domainOn (s : State) (d : Nat) : Bool := domainState s d == domOn

/-- The PLL of a clock is on its way to lock: the clock's units are stopped and their work waits (R348). -/
def relocking (s : State) (pll : Nat) : Bool := (s.clk.relock.get pll none).isSome

/-! ### Free values (log 5) -/

/-- Take the next free number: nothing constrains it. -/
def freshIndex (s : State) : Nat × State := (s.freeCtr, { s with freeCtr := s.freeCtr + 1 })

/-! ### Triplicated words (R338) -/

/-- The value at least two copies agree on; copy 0 where all differ. -/
def vote (c : Nat × Nat × Nat) : Nat :=
  if c.1 = c.2.1 ∨ c.1 = c.2.2 then c.1 else if c.2.1 = c.2.2 then c.2.1 else c.1

def getTmr (s : State) (w : Nat) : Nat := vote (s.mem.tmr.get w (0, 0, 0))

def setTmrCopies (s : State) (w : Nat) (c : Nat × Nat × Nat) : State :=
  { s with mem := { s.mem with tmr := s.mem.tmr.set w c (0, 0, 0) } }

/-! ### Small list helpers -/

def rangeFrom (a n : Nat) : List Nat := (List.range n).map (· + a)

def foldS {α : Type} (l : List α) (f : State → α → State) (s : State) : State := l.foldl f s

end Sys2Proof.Machine
end

