-- ==== Sys2Proof/Machine/Operands.lean ====
section
/-!
DEFINITION. The operand forms: the fields of a submission entry (R276), opcodes (R282), statuses (R283), and the DETAIL
word of INVALID_FIELD (R448).
-/

namespace Sys2Proof.Machine

/-! ### Submission entry (R276) -/

def eOpcode (e : List Byte) : Nat := leAt e 0 1
def eFence (e : List Byte) : Bool := bit (leAt e 1 1) 0
def eNoInt (e : List Byte) : Bool := bit (leAt e 1 1) 1
def eOwn (e : List Byte) : Nat := leAt e 1 1 / 128
def eCid (e : List Byte) : Nat := leAt e 2 2
def eTarget (e : List Byte) : Nat := leAt e 4 4
def eAddr (e : List Byte) : Nat := leAt e 8 8
def eLen (e : List Byte) : Nat := leAt e 16 4

/-- The pass value of a running count in a ring of depth 2^e (R277). -/
def passValue (n e : Nat) : Nat := 1 - n / 2 ^ e % 2

/-! ### Opcodes (R282) -/

namespace Op
def nop : Nat := 0x01
def editionLoad : Nat := 0x02
def editionSelect : Nat := 0x03
def streamOpen : Nat := 0x10
def streamClose : Nat := 0x11
def streamData : Nat := 0x12
def streamConcealSet : Nat := 0x13
def layerSet : Nat := 0x20
def surfaceWrite : Nat := 0x21
def viewCommit : Nat := 0x22
def gazetteerUpdate : Nat := 0x30
def sheetCalSet : Nat := 0x31
def rollcall : Nat := 0x32
def presentSchedule : Nat := 0x40
def hold : Nat := 0x41
def portConfig : Nat := 0x50
def portMeasure : Nat := 0x51
def tableUpdate : Nat := 0x60
def gateListSet : Nat := 0x61
def meterSet : Nat := 0x62
def shaperSet : Nat := 0x63
def mirrorSet : Nat := 0x64
def telemetryArm : Nat := 0x70
def doseSave : Nat := 0x71
def doseLoad : Nat := 0x72
def wearCurveSet : Nat := 0x73
def fwStage : Nat := 0x80
def fwActivate : Nat := 0x81
def attest : Nat := 0x82
def powerState : Nat := 0x90
def watchConfig : Nat := 0x91
def surveyArm : Nat := 0xA0
def diag : Nat := 0xF0

def all : List Nat :=
  [nop, editionLoad, editionSelect, streamOpen, streamClose, streamData, streamConcealSet, layerSet, surfaceWrite,
   viewCommit, gazetteerUpdate, sheetCalSet, rollcall, presentSchedule, hold, portConfig, portMeasure, tableUpdate,
   gateListSet, meterSet, shaperSet, mirrorSet, telemetryArm, doseSave, doseLoad, wearCurveSet, fwStage, fwActivate,
   attest, powerState, watchConfig, surveyArm, diag]
end Op

/-- Sub-functions of DIAG that a chapter defines, in byte 20 of the entry. -/
def diagSub (e : List Byte) : Nat := leAt e 20 1
def diagSubs : List Nat := [0x00, 0x30, 0x40, 0x50, 0x51, 0x60, 0x70]

/-! ### Statuses (R283) -/

namespace St
def ok : Nat := 0x00
def okZero : Nat := 0x01
def invalidOpcode : Nat := 0x02
def invalidField : Nat := 0x03
def noResource : Nat := 0x04
def busy : Nat := 0x05
def aborted : Nat := 0x06
def dataError : Nat := 0x07
def authFail : Nat := 0x08
def blockReset : Nat := 0x09
def timePast : Nat := 0x0A
def partly : Nat := 0x0B
def stateConflict : Nat := 0x0C
end St

/-! ### DETAIL of INVALID_FIELD (R448) -/

/-- A field of the i-th record of the host buffer at byte offset o. -/
def bufDetail (o i : Nat) : Nat := o % 256 + 256 + i % 65536 * 65536

/-- The first condition that fails, in the order given, as its DETAIL. -/
def firstBad (l : List (Bool × Nat)) : Option Nat :=
  match l with
  | [] => none
  | (good, d) :: r => if good then firstBad r else some d

/-- What a command answers before any of its host data is read. -/
inductive Begin where
  /-- complete at once: status, RESULT, DETAIL -/
  | finish (status result detail : Nat)
  /-- read host data first: address (or running offset), bytes, and the circular buffer if it is one (R291) -/
  | read (addr len : Nat) (circ : Option (Nat × Nat))
  /-- act at once: no host data -/
  | run
deriving DecidableEq, Repr

def invalid (detail : Nat) : Begin := .finish St.invalidField 0 detail

/-- Run the conditions of the submission entry, then go on (R448). -/
def checked (l : List (Bool × Nat)) (k : Begin) : Begin :=
  match firstBad l with
  | some d => invalid d
  | none => k

/-- A command with a buffer at HOST_ADDR: LENGTH 0 completes OK_ZERO; the range must end by 2^64 (R286). -/
def readBuffer (e : List Byte) : Begin :=
  if eLen e = 0 then .finish St.okZero 0 0
  else if 2 ^ 64 < eAddr e + eLen e then invalid 8
  else .read (eAddr e) (eLen e) none

end Sys2Proof.Machine
end

