-- ==== Sys2Proof/Machine/Flags.lean ====
section
/-!
DEFINITION. The status flags every unit shares: MSI-X vectors and their moderation (R292 to R295), the sensing of event
sources (R301 to R303, R447), sticky bits and counts of fault sources (R309), and the delivery of events (R304 to R307).
-/

namespace Sys2Proof.Machine

/-! ### MSI-X vectors -/

def getVec (s : State) (v : Nat) : Vec := s.hif.vecs.get v Vec.init
def setVec (s : State) (v : Nat) (x : Vec) : State :=
  { s with hif := { s.hif with vecs := s.hif.vecs.set v x Vec.init } }

/-- The link is up and the function in D0: host memory can be written and vectors sent (R294, R296). -/
def hostReachable (s : State) : Bool := s.hif.linkUp && getF s Rg.HIF_STATUS_DSTATE == 0

/-- Request a PME (R294). -/
def requestPme (s : State) : State :=
  let s := { s with hif := { s.hif with pmeStatus := true } }
  let s := if s.hif.pmeEn then emit s .pme else s
  if getB s Rg.HIF_PM_CTRL_WAKE_N_EN then { s with pins := { s.pins with wakeN := false } } else s

/-- A write toward the host brings a link in L1 or one of its substates to L0 (R294). -/
def exitL1 (s : State) : State := setF s Rg.HIF_STATUS_L1 0 0

/-- Send the vector's MSI-X write, or set its pending bit if it is masked or the host cannot be reached (R294, R295). -/
def sendVector (s : State) (v : Nat) : State :=
  let x := getVec s v
  if x.mask then setVec s v { x with pend := true }
  else if hostReachable s then emit (exitL1 (setVec s v { x with pend := false })) (.msix v x.addr x.data)
  else
    let s := setVec s v { x with pend := true }
    if getF s Rg.HIF_STATUS_DSTATE = 3 then requestPme s else s

/-- Firing clears the count and stops the timer (R292). -/
def fireVector (s : State) (v : Nat) : State :=
  let s := setF s Rg.HIF_VEC_MOD_PENDING v 0
  sendVector (setVec s v { getVec s v with timerAt := none }) v

/-- Count one occurrence toward a vector (R292, R304); with TIME_US 0 each counted one fires it (R287). -/
def countVector (s : State) (v : Nat) : State × Bool :=
  let n := getF s Rg.HIF_VEC_MOD_PENDING v
  let s1 := setF s Rg.HIF_VEC_MOD_PENDING v (min (n + 1) 255)
  if getF s1 Rg.HIF_VEC_MOD_TIME_US v = 0 ∨ getF s1 Rg.HIF_VEC_MOD_COUNT v ≤ n + 1 then (fireVector s1 v, true)
  else (if n = 0 then setVec s1 v { getVec s1 v with timerAt := some s1.now } else s1, false)

/-! ### Event sources -/

/-- Codes of INT_SRC_CFG.STATE (R303). -/
def srcIdle : Nat := 0
def srcPending : Nat := 1
def srcActive : Nat := 2
def srcActivePending : Nat := 3

def srcState (s : State) (n : Nat) : Nat := getF s Rg.INT_SRC_CFG_STATE n
def getSrc (s : State) (n : Nat) : Src := s.ev.srcs.get n Src.init
def setSrc (s : State) (n : Nat) (x : Src) : State :=
  { s with ev := { s.ev with srcs := s.ev.srcs.set n x Src.init } }

def srcEnabled (s : State) (n : Nat) : Bool := getB s Rg.INT_SRC_CFG_EVQ_EN n || getB s Rg.INT_SRC_CFG_VEC_EN n

/-- How a source's level moves at an occurrence: a one-cycle pulse, or a lasting cause beginning or ending (R447). -/
inductive Edge where
  | pulse | rise | fall
deriving DecidableEq, Repr

/-- SENSE codes: 0 LEVEL_HIGH, 1 LEVEL_LOW, 2 RISE, 3 FALL, 4 BOTH (R302, R447). -/
def senses (sense : Nat) (e : Edge) : Bool :=
  match e with
  | .pulse => sense != 1
  | .rise => sense == 0 || sense == 2 || sense == 4
  | .fall => sense == 1 || sense == 3 || sense == 4

/-- A sensed occurrence moves a delivered source (R303). -/
def senseSource (s : State) (n param data : Nat) : State :=
  let x := getSrc s n
  let st := srcState s n
  if st = srcIdle then
    setF (setSrc s n ⟨false, param, data, mst s, false⟩) Rg.INT_SRC_CFG_STATE n srcPending
  else if st = srcPending ∨ st = srcActivePending then
    setSrc s n { x with collapsed := true, param := param, data := data, mst := mst s }
  else
    setF (setSrc s n ⟨false, param, data, mst s, false⟩) Rg.INT_SRC_CFG_STATE n srcActivePending

/-- The INT_EVQ_POP word of an entry (R305, R323). -/
def evWord (r : EvRec) : Nat :=
  r.param % 65536 + 65536 * (r.source % 1024) + 2 ^ 28 * (sourceClass r.source).code + 2 ^ 30 * r.collapsed.toNat + 2 ^ 31

/-- A 16-byte record of the event log (R307) and of the fault log (R422). -/
def evBytes (r : EvRec) : List Byte := leBytes 4 (evWord r) ++ leBytes 4 r.data ++ leBytes 4 r.mst ++ zeros 4

/-- The event log keeps the last 4,096 occurrences (R307); the flash fault log takes every UC and FE and every RST_ event
(R422). -/
def logOccurrence (s : State) (n param data : Nat) : State :=
  let r : EvRec := ⟨n, (getSrc s n).collapsed, param, data, mst s⟩
  let s := { s with ev := { s.ev with log := (s.ev.log ++ [r]).drop (s.ev.log.length + 1 - 4096) } }
  if 2 ≤ (sourceClass n).code ∨ (Ev.RST_CLOCK_LOSS ≤ n ∧ n ≤ Ev.RST_FLR) then
    { s with bg := { s.bg with faultBuf := s.bg.faultBuf ++ [evBytes r] } }
  else s

/-- An occurrence of a source: logged whatever its enables, and sensed if it is delivered (R302, R307). Reserved
numbers never become active (R299). -/
def occur (s : State) (n param data : Nat) (e : Edge) : State :=
  if sourceNamed n then
    let s1 := if srcEnabled s n && senses (getF s Rg.INT_SRC_CFG_SENSE n) e then senseSource s n param data else s
    if e = .fall then s1 else logOccurrence s1 n param data
  else s

/-- Raise an EVENT source: a pulse of one CFGCLK cycle (R447). -/
def raiseEv (s : State) (n : Nat) (param : Nat := 0) (data : Nat := 0) : State := occur s n (param % 65536) (data % 2 ^ 32) .pulse

/-- Raise an EVENT at most once per second; at_ is when it was last raised. -/
def oncePerSecond (s : State) (last : Option Nat) : Bool :=
  match last with
  | none => true
  | some t => t + secNs ≤ s.now

/-! ### Fault sources: sticky bits, counts and lasting causes (R309) -/

def getSticky (s : State) (n : Nat) : Bool := bit (getF s Rg.FLT_STICKY_STICKY (n / 32)) (n % 32)
def setSticky (s : State) (n : Nat) (b : Bool) : State :=
  let w := getF s Rg.FLT_STICKY_STICKY (n / 32)
  let k := 2 ^ (n % 32)
  setF s Rg.FLT_STICKY_STICKY (n / 32) (w - w / k % 2 * k + b.toNat * k)

def isLevel (s : State) (n : Nat) : Bool := s.ev.levels.get n false
def setLevel (s : State) (n : Nat) (b : Bool) : State :=
  { s with ev := { s.ev with levels := s.ev.levels.set n b false } }

/-- Sources whose cause lasts (R309). -/
def lastingSources : List Nat := [0, 1, 3, 4, 5, 6, 7, 8, 256, 325, 742, 743, 963, 964]

/-- The record of a fault: sticky bit, event log, sensing; a lasting cause also raises its level (R309, R447). -/
def faultRecord (s : State) (n param data : Nat) : State :=
  let s := setSticky s n true
  if lastingSources.contains n then
    if isLevel s n then s else occur (setLevel s n true) n param data .rise
  else occur s n param data .pulse

/-- A lasting cause ends: its level falls (R447). -/
def causeEnds (s : State) (n : Nat) : State :=
  if isLevel s n then
    occur (setLevel s n false) n (getSrc s n).param (getSrc s n).data .fall
  else s

/-- A CE occurrence: counted, sticky, delivered if enabled; no reaction (R309, R310). -/
def raiseCe (s : State) (n : Nat) (param : Nat := 0) (data : Nat := 0) : State :=
  addF (faultRecord s n param data) Rg.FLT_CE_COUNT_COUNT

/-! ### Delivery (R304 to R306) -/

/-- Pending sources of one class, ascending. -/
def pendingOf (s : State) (c : EvClass) : List Nat :=
  (s.regs.filterMap fun p =>
    if 0x01000000 ≤ p.1 && p.1 < 0x01001000 && p.2.toNat / 2 ^ 18 % 4 == srcPending then some ((p.1 - 0x01000000) / 4) else none).filter
    fun n => sourceNamed n && sourceClass n == c

/-- Every pending source in class order FE, UC, CE, EVENT, ascending within a class (R304). -/
def pendingSources (s : State) : List Nat :=
  pendingOf s .fe ++ pendingOf s .uc ++ pendingOf s .ce ++ pendingOf s .event

def evqFull (s : State) : Bool := 32 ≤ s.ev.evq.length

/-- A source waits while it would write an entry and the queue is full (R306). -/
def blocked (s : State) (n : Nat) : Bool := getB s Rg.INT_SRC_CFG_EVQ_EN n && evqFull s

/-- Write a queue entry; INT_EVQ_OVERFLOW is raised when the queue becomes full (R306). -/
def pushEvq (s : State) (r : EvRec) : State :=
  let s := { s with ev := { s.ev with evq := if s.ev.evq.length < 32 then s.ev.evq ++ [r] else s.ev.evq } }
  if s.ev.evq.length = 32 then raiseEv s Ev.INT_EVQ_OVERFLOW else s

/-- Deliver one pending source: the entry first, then the vector; a fault class fires its vector at once (R304). -/
def deliverSource (s : State) (n : Nat) : State :=
  let x := getSrc s n
  let level := getF s Rg.INT_SRC_CFG_SENSE n ≤ 1
  let auto := getB s Rg.INT_SRC_CFG_AUTO_ACK n && !level
  let s := setF s Rg.INT_SRC_CFG_STATE n (if auto then srcIdle else srcActive)
  let s := if getB s Rg.INT_SRC_CFG_EVQ_EN n then pushEvq s ⟨n, x.collapsed, x.param, x.data, x.mst⟩ else s
  if getB s Rg.INT_SRC_CFG_VEC_EN n then
    let v := getF s Rg.INT_SRC_CFG_VECTOR n
    if sourceClass n = .event then (countVector s v).1 else fireVector s v
  else s

/-- Under level sense the level still holds (R303). -/
def levelHolds (s : State) (n : Nat) : Bool :=
  let sense := getF s Rg.INT_SRC_CFG_SENSE n
  (sense == 0 && isLevel s n) || (sense == 1 && lastingSources.contains n && !isLevel s n)

/-! ### Writes of triplicated words, with an armed flip (R338, R339) -/

/-- Write a critical word; a flip armed on copy 0 of it is stored with the write and ends (R339). -/
def writeTmr (s : State) (w v : Nat) : State :=
  let v := v % 2 ^ 32
  if getB s Rg.ECC_FLIP_CTRL_ARM && getF s Rg.ECC_FLIP_CTRL_TARGET == 4 && getF s Rg.ECC_FLIP_CTRL_MACRO % 32 == w then
    let s := setTmrCopies s w (v ^^^ (getF s Rg.ECC_FLIP_MASK_VALUE % 2 ^ 32), v, v)
    raiseEv (setB s Rg.ECC_FLIP_CTRL_ARM 0 false) Ev.ECC_FLIP_DONE
  else setTmrCopies s w (v, v, v)

/-! ### Waking (R370, R379) -/

/-- The wake record: lowest source, all sources, the state woken from and the MST, also in triplicated words 8 to 10. -/
def writeWakeRecord (s : State) (sources from_ m : Nat) : State :=
  let low := ((List.range 8).find? (bit sources ·)).getD 0
  let s := setF s Rg.PWR_WAKE_RECORD_SOURCE 0 low
  let s := setF s Rg.PWR_WAKE_RECORD_FROM 0 from_
  let s := setF s Rg.PWR_WAKE_RECORD_VALID 0 1
  let s := setF s Rg.PWR_WAKE_RECORD_SOURCES 0 sources
  let s := setF s Rg.PWR_WAKE_RECORD_MST 0 m
  let s := writeTmr s 8 (low + 256 * sources)
  let s := writeTmr s 9 m
  writeTmr s 10 from_

/-- From IDLE or NAP to RUN: PD06 to PD35 are ON again, and SPLL and PPLL run (R369, R370). -/
def shallowToRun (s : State) : State :=
  let s := if getF s Rg.PWR_STATE_STATE = 2 then
      let s := foldS (rangeFrom 6 30) (fun s d => if domainState s d = domRetained then setDomain s d domOn else s) s
      let on := [0, 1].filter fun n => !s.clk.pllOff.get n false
      let w := getF s Rg.CLK_STATUS_PLL_LOCKED
      let s := setF s Rg.CLK_STATUS_PLL_LOCKED 0 (w / 4 * 4 + (on.map (2 ^ ·)).sum)
      foldS on (fun s n => setF s Rg.CLK_PLL_CFG_LOCKED n 1) s
    else s
  setF s Rg.PWR_STATE_STATE 0 0

/-- A wake from IDLE or NAP by sources, one bit each (R370, R379). -/
def wakeShallow (s : State) (sources : Nat) : State :=
  raiseEv (shallowToRun (writeWakeRecord s sources (getF s Rg.PWR_STATE_STATE) (mst s))) Ev.PWR_WAKE

/-- A wake source during an entry to WATCH or DORMANT that is committed: it stops at its next step (R383). -/
def abortEntry (s : State) (sources : Nat) : State :=
  match s.pwr.committed with
  | none => s
  | some c =>
    let s := writeWakeRecord s sources c.1 (mst s)
    raiseEv { setF s Rg.PWR_STATE_ENTERING 0 0 with pwr := { s.pwr with committed := none } } Ev.PWR_WAKE

/-- IDLE, NAP or a committed entry. -/
def napping (s : State) : Bool :=
  getF s Rg.PWR_STATE_STATE == 1 || getF s Rg.PWR_STATE_STATE == 2 || s.pwr.committed.isSome

/-- Wake from any of them. -/
def wakeLight (s : State) (sources : Nat) : State :=
  if s.pwr.committed.isSome then
    let s := abortEntry s sources
    if getF s Rg.PWR_STATE_STATE = 0 then s else shallowToRun s
  else if napping s then wakeShallow s sources
  else s

/-- FE sources of PD00, which wake the device (R379): clocks, the event controller, the triplicated words, the sensors. -/
def aonFaults : List Nat := [0, 1, 5, 6, 7, 200, 325, 963, 964]

/-- A user of gated domains appears: they begin to wake (R368). -/
def wakeDomains (s : State) (ds : List Nat) : State :=
  foldS ds (fun s d => if domainState s d = domRetained ∨ domainState s d = domOff then setDomain s d domWaking else s) s

end Sys2Proof.Machine
end

