-- ==== Sys2Proof/Machine/Rings.lean ====
section
/-!
DEFINITION. Command rings: completions (R278, R280, R292, R293), fetching (R277, R281, R284, R296), the start of commands
in ring order (R279, R286, R290), and the rows of 11_host_interface.md that act on rings.
-/

namespace Sys2Proof.Machine

def getSq (s : State) (q : Nat) : SqRing := s.hif.sq.get q SqRing.init
def setSq (s : State) (q : Nat) (r : SqRing) : State :=
  { s with hif := { s.hif with sq := s.hif.sq.set q r SqRing.init } }
def getCq (s : State) (q : Nat) : CqRing := s.hif.cq.get q CqRing.init
def setCq (s : State) (q : Nat) (r : CqRing) : State :=
  { s with hif := { s.hif with cq := s.hif.cq.set q r CqRing.init } }

/-- Codes of HIF_SQ_CTRL.STATE (R298). -/
def sqDisabled : Nat := 0
def sqAwake : Nat := 1
def sqAsleep : Nat := 2
def sqStopping : Nat := 3
def sqStopped : Nat := 4
def sqError : Nat := 5

def sqState (s : State) (q : Nat) : Nat := getF s Rg.HIF_SQ_CTRL_STATE q
def setSqState (s : State) (q st : Nat) : State := setF s Rg.HIF_SQ_CTRL_STATE q st
def sqDepth (s : State) (q : Nat) : Nat := 2 ^ getF s Rg.HIF_SQ_CFG_DEPTH_EXP q
def sqBase (s : State) (q : Nat) : Nat := getF s Rg.HIF_SQ_BASE_BASE q * 4096
def cqBase (s : State) (q : Nat) : Nat := getF s Rg.HIF_CQ_BASE_BASE q * 4096
def cqOf (s : State) (q : Nat) : Nat := getF s Rg.HIF_SQ_CFG_CQ q
def dbrec (s : State) : Nat := getF s Rg.HIF_DBREC_BASE_BASE * 4096

/-! ### Doorbell records (R281) -/

def sqTail (s : State) (q : Nat) : Nat := leNat (hostRead s (dbrec s + 16 * q) 4)
def cqHead (s : State) (q : Nat) : Nat := leNat (hostRead s (dbrec s + 0x400 + 16 * q) 4)
def idleArmed (s : State) (q : Nat) : Bool := bit (leNat (hostRead s (dbrec s + 0x404 + 16 * q) 1)) 0
def writeSqHead (s : State) (q : Nat) : State := hostWrite s (dbrec s + 0x800 + 16 * q) (leBytes 4 (getSq s q).head)
def writeNeedsKick (s : State) (q : Nat) (b : Bool) : State :=
  hostWrite s (dbrec s + 0x804 + 16 * q) (leBytes 1 b.toNat)
def writeCqTail (s : State) (q : Nat) : State := hostWrite s (dbrec s + 0xC00 + 16 * q) (leBytes 4 (getCq s q).written)

/-! ### Completions -/

/-- The 16 bytes of a completion entry (R278). -/
def completionBytes (s : State) (q : Nat) (c : Completion) : List Byte :=
  leBytes 2 c.cid ++ leBytes 1 c.status ++
  leBytes 1 (passValue (getCq s q).written (getF s Rg.HIF_CQ_CFG_DEPTH_EXP q)) ++
  leBytes 1 c.sq ++ leBytes 1 c.opcode ++ leBytes 2 (getSq s c.sq).head ++ leBytes 4 c.result ++ leBytes 4 c.detail

/-- Full: the written count minus CQ_HEAD equals the depth (R280). -/
def cqFull (s : State) (q : Nat) : Bool :=
  2 ^ getF s Rg.HIF_CQ_CFG_DEPTH_EXP q ≤ ((getCq s q).written + 2 ^ 32 - cqHead s q) % 2 ^ 32

/-- After an entry that does not fire its vector: an armed record fires a vector with a count (R293). -/
def idleArmedCheck (s : State) (q : Nat) : State :=
  let v := getF s Rg.HIF_CQ_CFG_VECTOR q
  if idleArmed s q && getF s Rg.HIF_VEC_MOD_PENDING v != 0 then fireVector s v else s

/-- Write a completion entry and CQ_TAIL, then count it toward its vector (R278, R281, R292, R293). -/
def writeCompletion (s : State) (q : Nat) (c : Completion) : State :=
  let r := getCq s q
  let a := cqBase s q + 16 * (r.written % 2 ^ getF s Rg.HIF_CQ_CFG_DEPTH_EXP q)
  let s := hostWrite (exitL1 s) a (completionBytes s q c)
  let s := setCq s q { r with written := (r.written + 1) % 2 ^ 32 }
  let s := writeCqTail s q
  if c.noInterrupt then idleArmedCheck s q
  else
    let p := countVector s (getF s Rg.HIF_CQ_CFG_VECTOR q)
    if p.2 then p.1 else idleArmedCheck p.1 q

/-- Hold a completion, up to 64; beyond that it waits in its command (R280). -/
def holdCompletion (s : State) (q : Nat) (c : Completion) : State :=
  let r := getCq s q
  if r.held.length < 64 then setCq s q { r with held := r.held ++ [c] }
  else setCq s q { r with waiting := r.waiting ++ [c] }

/-- HIF_CQ_FULL once per full episode (R280). -/
def noteFull (s : State) (q : Nat) : State :=
  if cqFull s q then
    if (getCq s q).full then s else raiseEv (setCq s q { getCq s q with full := true }) Ev.HIF_CQ_FULL
  else setCq s q { getCq s q with full := false }

/-- Give a completion to its ring: written if it can be, held otherwise (R280, R294). A disabled ring takes none. -/
def postCompletion (s : State) (c : Completion) : State :=
  let q := cqOf s c.sq
  if !getB s Rg.HIF_CQ_CFG_ENABLE q then s
  else if !hostReachable s then
    let s := holdCompletion s q c
    if getF s Rg.HIF_STATUS_DSTATE = 3 then requestPme s else s
  else
    let r := getCq s q
    if cqFull s q || !r.held.isEmpty || !r.waiting.isEmpty then noteFull (holdCompletion s q c) q
    else noteFull (writeCompletion (noteFull s q) q c) q

def completionOf (sq count : Nat) (e : List Byte) (status result detail : Nat) : Completion :=
  ⟨sq, count, eOpcode e, eCid e, eNoInt e, status, result % 2 ^ 32, detail % 2 ^ 32⟩

def findCmd (s : State) (id : Nat) : Option Cmd := s.hif.cmds.find? (·.id == id)
def dropCmd (s : State) (id : Nat) : State :=
  { s with hif := { s.hif with cmds := s.hif.cmds.filter (·.id != id) } }
def putCmd (s : State) (c : Cmd) : State :=
  { s with hif := { s.hif with cmds := s.hif.cmds.map fun x => if x.id = c.id then c else x } }

/-! ### DMA channels (R288) -/

def ownerFree : Nat := 0xFF
def ownerTelemetry : Nat := 0x40
def ownerDose : Nat := 0x41

def freeChannel (s : State) : Option Nat := (List.range 64).find? fun c => getF s Rg.HIF_DMA_CH_OWNER c == ownerFree
def channelOf (s : State) (owner : Nat) : Option Nat := (List.range 64).find? fun c => getF s Rg.HIF_DMA_CH_OWNER c == owner
def takeChannel (s : State) (owner : Nat) : Option (Nat × State) :=
  match freeChannel s with
  | none => none
  | some c => some (c, setF s Rg.HIF_DMA_CH_OWNER c owner)
def releaseChannel (s : State) (owner : Nat) : State :=
  foldS (List.range 64) (fun s c => if getF s Rg.HIF_DMA_CH_OWNER c = owner then setF s Rg.HIF_DMA_CH_OWNER c ownerFree else s) s

/-- DOSE_SAVE and DOSE_LOAD hold a channel of their own while they run. -/
def doseOp (c : Cmd) : Bool := eOpcode c.entry == Op.doseSave || eOpcode c.entry == Op.doseLoad

/-- One channel of the dose commands is free again. -/
def releaseDose (s : State) : State :=
  match channelOf s ownerDose with
  | none => s
  | some ch => setF s Rg.HIF_DMA_CH_OWNER ch ownerFree

/-- Each dose command that runs holds a channel. -/
def takeDose (s : State) : State :=
  let held := ((List.range 64).filter fun c => getF s Rg.HIF_DMA_CH_OWNER c == ownerDose).length
  if held < (s.hif.cmds.filter doseOp).length then ((takeChannel s ownerDose).map (·.2)).getD s else s

/-- A started command ends: its completion goes to its ring, unless an FLR discarded it (R274). -/
def complete (s : State) (c : Cmd) (status : Nat) (result : Nat := 0) (detail : Nat := 0) : State :=
  match findCmd s c.id with
  | none => s
  | some k =>
    let s := dropCmd s c.id
    let s := if doseOp k then releaseDose s else s
    if k.discard then s else postCompletion s (completionOf c.sq c.count c.entry status result detail)

/-- Complete a started command known by its id. -/
def completeId (s : State) (id status : Nat) (result : Nat := 0) (detail : Nat := 0) : State :=
  match findCmd s id with
  | none => s
  | some c => complete s c status result detail

/-- An entry that never starts ends (INVALID_OPCODE, ABORTED). -/
def completeFetched (s : State) (q : Nat) (f : Fetched) (status : Nat) : State :=
  postCompletion s (completionOf q f.count f.entry status 0 0)

/-! ### Fetching -/

/-- A ring enters ERROR and HIF_RING_ERROR is raised (R296). -/
def ringError (s : State) (q : Nat) : State := raiseEv (setSqState s q sqError) Ev.HIF_RING_ERROR

/-- Every earlier command of the ring has its completion entry written (R279). -/
def fenceClear (s : State) (q : Nat) : Bool :=
  s.hif.cmds.all (·.sq != q) &&
  s.hif.cq.all fun p => p.2.held.all (·.sq != q) && p.2.waiting.all (·.sq != q)

/-- Whether the next entry of a ring may start now: fewer than 64 completions held, and FENCE satisfied (R279, R280). -/
def mayStart (s : State) (q : Nat) (e : List Byte) : Bool :=
  let st := sqState s q
  (st == sqAwake || st == sqAsleep || st == sqError) &&
  decide ((getCq s (cqOf s q)).held.length < 64) && (!eFence e || fenceClear s q)

/-- Entries at the front whose opcode is not in R282 complete INVALID_OPCODE in their turn. -/
def drainInvalid (s : State) (q : Nat) : Nat → State
  | 0 => s
  | n + 1 =>
    match (getSq s q).queue with
    | [] => s
    | f :: r =>
      if Op.all.contains (eOpcode f.entry) then s
      else if mayStart s q f.entry then
        drainInvalid (completeFetched (setSq s q { getSq s q with queue := r }) q f St.invalidOpcode) q n
      else s

/-- Fetch up to n entries, each only if its OWN equals its pass value (R277, R284, R296). -/
def fetchEntries (s : State) (q : Nat) : Nat → State
  | 0 => s
  | n + 1 =>
    let r := getSq s q
    let e := hostRead s (sqBase s q + 64 * (r.head % sqDepth s q)) 64
    if eOwn e = passValue r.head (getF s Rg.HIF_SQ_CFG_DEPTH_EXP q) then
      fetchEntries (setSq s q { r with head := (r.head + 1) % 2 ^ 32, queue := r.queue ++ [⟨r.head, e⟩], wrongOwn := 0,
                                       idleSince := none }) q n
    else
      let s := setSq s q { r with wrongOwn := r.wrongOwn + 1 }
      if 16 ≤ r.wrongOwn + 1 then ringError s q else s

/-- Read the doorbell record and fetch (R284, R296); fails: host memory answered with errors (R297). -/
def pollRing (s : State) (q : Nat) (fails : Bool) : State :=
  let r := getSq s q
  if fails || !s.hif.linkUp then
    let s := setSq s q { r with failedReads := r.failedReads + 1 }
    if 16 ≤ r.failedReads + 1 then ringError s q else s
  else
    let n := (sqTail s q + 2 ^ 32 - r.head) % 2 ^ 32
    let s := setSq s q { r with failedReads := 0 }
    if sqDepth s q < n then ringError s q
    else if n = 0 then
      setSq s q { getSq s q with idleSince := some ((getSq s q).idleSince.getD s.now) }
    else
      let s := fetchEntries s q (min n 8)
      drainInvalid (writeSqHead s q) q 16

/-! ### Which commands the device executes (R312, R354, R390, R396) -/

def phase (s : State) : Nat := getF s Rg.RST_STATUS_PHASE
def phReady : Nat := 6
def phSafe : Nat := 7
def phCoast : Nat := 8

/-- Commands begin once start-up has reached READY, SAFE or COAST_READY (log 10). -/
def running (s : State) : Bool := phase s == phReady || phase s == phSafe || phase s == phCoast

/-- The Compass can run: firmware or mask ROM executes, PD01 is out of reset (R318) and CFGCLK runs (R348). -/
def compassRuns (s : State) : Bool :=
  decide (2 ≤ phase s) && decide (phase s ≤ phCoast) && domainOn s 1 && !relocking s 3 && decide (getF s Rg.CMP_STATUS_STATE ≤ 1)

/-- Its background services pause while the security unit or the memory is lost (R15). -/
def servicesRun (s : State) : Bool := compassRuns s && [2, 39, 40].all (domainOn s)

def commandAllowed (s : State) (o : Nat) : Bool :=
  let fe := [Op.nop, Op.diag, Op.attest, Op.surveyArm]
  let coast := fe ++ [Op.fwStage, Op.fwActivate, Op.editionLoad, Op.powerState]
  (getF s Rg.FLT_STATE_STATE != 2 || fe.contains o) &&
  (phase s != phCoast || coast.contains o) &&
  (phase s != phSafe ||
    if getB s Rg.TOP_STATUS_RECOVERY then [Op.nop, Op.fwStage, Op.fwActivate].contains o
    else (Op.editionSelect :: coast).contains o)

/-- The domains of a port's lane: its quad, its MAC group, its die link (R27). -/
def laneDomains (p : Nat) : List Nat := if p < 128 then [quadDomain p, mgDomain p, dieLinkDomain (laneDie p)] else []

/-- The domains a command needs (R15, R251, R367); the Compass and the memory, which every command needs, apart. -/
def commandDomains (e : List Byte) : List Nat :=
  let o := eOpcode e
  if 0x10 ≤ o ∧ o ≤ 0x13 then [30]
  else if o = 0x32 then 35 :: laneDomains (eTarget e)
  else if (0x20 ≤ o ∧ o ≤ 0x22) ∨ o = 0x30 ∨ o = 0x31 ∨ o = 0x72 ∨ o = 0x71 ∨ o = 0x73 then [35]
  else if o = 0x40 ∨ o = 0x41 then [35, 5]
  else if o = 0x60 ∨ o = 0x64 then [36, 37]
  else if 0x61 ≤ o ∧ o ≤ 0x63 then [38]
  else if o = 0x02 ∨ o = 0x03 ∨ (0x80 ≤ o ∧ o ≤ 0x82) then [2]
  else if o = 0x50 ∨ o = 0x51 then laneDomains (eTarget e)
  else if o = Op.diag then
    if diagSub e = 0x30 then [30, 35] else if diagSub e = 0x50 ∨ diagSub e = 0x51 then [2] else []
  else []

/-- Of these, the domains that are woken before the command starts: a command of a port wakes the port's own when it acts. -/
def wakesFirst (e : List Byte) : List Nat :=
  let o := eOpcode e
  if o = 0x50 ∨ o = 0x51 then [] else if o = 0x32 then [35] else commandDomains e

/-- A command that needs a domain in reset completes BLOCK_RESET; the Compass carries it out, and the memory its data (R15). -/
def blockedByReset (s : State) (e : List Byte) : Bool := (1 :: 39 :: 40 :: commandDomains e).any fun d => domainState s d == domReset

/-- Commands that bring the device from IDLE or NAP to RUN first (R370). -/
def wakingOps : List Nat :=
  [Op.streamOpen, Op.streamData, Op.layerSet, Op.surfaceWrite, Op.viewCommit, Op.gazetteerUpdate, Op.sheetCalSet,
   Op.presentSchedule, Op.doseSave, Op.doseLoad, Op.wearCurveSet]

def beginWake (s : State) (o : Nat) : State :=
  if wakingOps.contains o && (getF s Rg.PWR_STATE_STATE == 1 || getF s Rg.PWR_STATE_STATE == 2) then wakeShallow s 128 else s

/-! ### The start and the execution of a command -/

/-- Register a started command (its transfer, if it reads host data) and answer it. -/
def addCmd (s : State) (q : Nat) (f : Fetched) (addr left : Nat) (circ : Option (Nat × Nat)) (past : Bool) : Cmd × State :=
  let c : Cmd := ⟨s.hif.cmdSeq, q, f.count, f.entry, addr, left, circ, [], past, false, false, false⟩
  (c, { s with hif := { s.hif with cmds := s.hif.cmds ++ [c], cmdSeq := s.hif.cmdSeq + 1 } })

def markPast (s : State) (c : Cmd) : State := putCmd s { c with past := true, data := [] }

/-- Configuration commands that an edition's sections stand for (R394). -/
def configOps : List Nat :=
  [Op.layerSet, Op.viewCommit, Op.gazetteerUpdate, Op.sheetCalSet, Op.portConfig, Op.tableUpdate, Op.gateListSet, Op.meterSet,
   Op.shaperSet, Op.mirrorSet, Op.watchConfig]

/-- One that arrives between EDITION_SELECT and its application instant waits, to act after the edition's sections (R411). -/
def mustDeferOp (s : State) (o : Nat) : Bool :=
  configOps.contains o && match s.sec.select with
    | none => false
    | some x => !x.applied

def deferCmd (s : State) (c : Cmd) (d : List Byte) : State :=
  match s.sec.select with
  | none => s
  | some x => { s with sec := { s.sec with select := some { x with deferred := x.deferred ++ [(c.id, d)] } } }

/-- The oldest started command of a row on a ring whose host data are in and which has not acted on them (R290). -/
def readyCmd (s : State) (q opcode : Nat) (sel : List Byte → Bool) : Option Cmd :=
  s.hif.cmds.find? fun c => c.sq == q && eOpcode c.entry == opcode && sel c.entry && c.left == 0 && !c.past && !c.dmaFailed

/-- One row of the opcode table: a command of the given opcode whose data are in acts; otherwise the entry at the front of
the ring, if it is of that row and may start, starts. start answers from the entry alone; run has the effect, given the
host data read, and either completes the command or leaves it waiting. -/
def ringRow (opcode : Nat) (sel : List Byte → Bool) (start : State → List Byte → Begin)
    (run : State → Cmd → List Byte → State) (q : Nat) (s : State) : State :=
  match readyCmd s q opcode sel with
  | some c => if mustDeferOp s opcode then deferCmd (markPast s c) c c.data else run (markPast s c) c c.data
  | none =>
    match (getSq s q).queue with
    | [] => s
    | f :: rest =>
      if eOpcode f.entry == opcode && sel f.entry && mayStart s q f.entry && running s then
        if !commandAllowed s opcode then
          drainInvalid (completeFetched (setSq s q { getSq s q with queue := rest }) q f St.stateConflict) q 16
        else
          let s := beginWake s opcode
          if blockedByReset s f.entry then
            drainInvalid (completeFetched (setSq s q { getSq s q with queue := rest }) q f St.blockReset) q 16
          else if (wakesFirst f.entry).any fun d => !domainOn s d then wakeDomains s (wakesFirst f.entry)
          else
            let s := setSq s q { getSq s q with queue := rest }
            let s := match start s f.entry with
              | .read a n circ => (addCmd s q f a n circ false).2
              | .finish st r d =>
                let p := addCmd s q f 0 0 none true
                if mustDeferOp s opcode then deferCmd p.2 p.1 [] else complete p.2 p.1 st r d
              | .run =>
                let p := addCmd s q f 0 0 none true
                if mustDeferOp s opcode then deferCmd p.2 p.1 [] else run p.2 p.1 []
            drainInvalid s q 16
      else s

/-- A row without a DIAG sub-function. -/
def anyEntry (_ : List Byte) : Bool := true

/-! ### DMA channels and engines (R288, R289) -/

/-- The channel a command transfers through: its ring's, or the one that DOSE_SAVE and DOSE_LOAD take. -/
def cmdChannel (s : State) (c : Cmd) : Option Nat :=
  if doseOp c then channelOf s ownerDose
  else
    let ch := getF s Rg.HIF_SQ_CTRL_CHANNEL c.sq
    if getF s Rg.HIF_DMA_CH_OWNER ch = c.sq then some ch else none

/-- A channel's transfer: the oldest started command of its ring with host data left to read. -/
def channelCmd (s : State) (ch : Nat) : Option Cmd :=
  s.hif.cmds.find? fun c => decide (0 < c.left) && cmdChannel s c == some ch && !c.dmaFailed

/-- Channels of an engine with descriptors waiting, in channel order. -/
def engineChannels (s : State) (e : Nat) : List Nat :=
  ((s.hif.cmds.filter fun c => decide (0 < c.left) && !c.dmaFailed).filterMap (cmdChannel s)).eraseDups.filter
    fun ch => getF s Rg.HIF_DMA_CH_ENGINE ch == e

/-- The channel an engine serves: the next one round robin after the last served (R289). -/
def engineNext (s : State) (e : Nat) : Option Nat :=
  let l := engineChannels s e
  let last := s.hif.rr.get e 63
  ((rangeFrom (last + 1) 64).map (· % 64)).find? fun ch => l.contains ch

/-- The bytes of a command's next descriptor: at most 64 KiB within one contiguous host range (R289, R291). -/
def descriptorLen (c : Cmd) : Nat :=
  let n := min c.left 65536
  match c.circ with
  | none => n
  | some (_, size) => min n (size - c.addr % size)

/-- Run one descriptor of a command: the bytes are read from host memory as it completes. -/
def runDescriptor (s : State) (c : Cmd) : Cmd :=
  let n := descriptorLen c
  let a := match c.circ with
    | none => c.addr
    | some (base, size) => base + c.addr % size
  { c with addr := c.addr + n, left := c.left - n, data := c.data ++ hostRead s a n }

/-! ### Stopping (R290) -/

/-- Commands with host data still to read. -/
def hasTransfer (s : State) (q : Nat) : Bool := s.hif.cmds.any fun c => c.sq == q && decide (0 < c.left)

/-- The ring has stopped: STOPPED, or DISABLED if ENABLE was cleared. -/
def finishStop (s : State) (q : Nat) : State :=
  if sqState s q = sqStopping ∧ !hasTransfer s q then
    if (getSq s q).disableAfter then
      let s := releaseChannel s q
      let s := setF (setSqState s q sqDisabled) Rg.HIF_SQ_CTRL_ENABLE q 0
      setF (setSq s q SqRing.init) Rg.HIF_SQ_CTRL_CHANNEL q 0
    else setSqState s q sqStopped
  else s

end Sys2Proof.Machine
end

