-- ==== Sys2Proof/Machine/TmOps.lean ====
section
/-!
DEFINITION. Operations over ports, packet buffer and egress queues: rates and time-stamps (R205), the packet buffer (R241,
R242), queues with their fair-queueing tags (R254 to R257), gates (R264), shapers (R259), pause (R234) and flushing (R248).
-/

namespace Sys2Proof.Machine

/-! ### Ports -/

def getPort (s : State) (p : Nat) : Port := s.ports.get p Port.init
def setPort (s : State) (p : Nat) (x : Port) : State := { s with ports := s.ports.set p x Port.init }

def prtDisabled : Nat := 0
def prtAn : Nat := 1
def prtTraining : Nat := 2
def prtWaitLock : Nat := 3
def prtUp : Nat := 4
def prtHeld : Nat := 5

def portState (s : State) (p : Nat) : Nat := getF s Rg.PRT_STATUS_STATE p
def portEnabled (s : State) (p : Nat) : Bool := portState s p != prtDisabled
/-- An egress port can send: an external port whose link is up, or an internal port. -/
def portUp (s : State) (p : Nat) : Bool := if p < 128 then portState s p == prtUp else true

/-- Fields of the PORT_CONFIG entry in force (R232). -/
def cfgRate (c : List Byte) : Nat := leAt c 21 1
def cfgFlags (c : List Byte) : Nat := leAt c 22 1
def cfgAn (c : List Byte) : Bool := bit (cfgFlags c) 0
def cfgLt (c : List Byte) : Bool := bit (cfgFlags c) 1
def cfgPause (c : List Byte) : Bool := bit (cfgFlags c) 2
def cfgPfc (c : List Byte) : Bool := bit (cfgFlags c) 3
def cfgCascade (c : List Byte) : Bool := leAt c 23 1 == 1
def cfgAdvertise (c : List Byte) : Nat := leAt c 24 1
def cfgCutThrough (c : List Byte) : Nat := leAt c 25 1
def cfgMaxFrame (c : List Byte) : Nat := leAt c 26 2
def cfgMedium (c : List Byte) : Nat := leAt c 28 1
def cfgCable (c : List Byte) : Nat := leAt c 29 1
def cfgAlpha (c : List Byte) : Nat := leAt c 30 1
def cfgPfcClasses (c : List Byte) : Nat := leAt c 31 1
def cfgGuar (c : List Byte) (k : Nat) : Nat := leAt c (32 + 2 * k) 2

def portCascade (s : State) (p : Nat) : Bool := decide (p < 128) && cfgCascade (getPort s p).cfg

/-- MAC rates by code in units of 10 Mbit/s (R230, R205). -/
def rate100 (code : Nat) : Nat := [1000, 2500, 2500, 5000, 10000, 20000, 5625].getD code 1000
def lanesOf (code : Nat) : Nat := if code = 4 then 2 else if code = 5 then 4 else 1

/-- The running rate code; while the link is down the last resolved one, else the configured or lowest advertised (R188). -/
def lowestAdvertised (c : List Byte) : Nat := ([1, 2, 3, 4, 5].find? (bit (cfgAdvertise c) ·)).getD 1
def lowestRate (c : List Byte) : Nat := if cfgAn c then lowestAdvertised c else cfgRate c
def portRate (s : State) (p : Nat) : Nat :=
  if portState s p = prtUp then getF s Rg.PRT_STATUS_RATE p
  else (getPort s p).resolved.getD (lowestRate (getPort s p).cfg)

/-- Transmission time of a frame of l bytes with FCS (R264). -/
def frameNs (s : State) (p l : Nat) : Nat := let r := rate100 (portRate s p); ((l + 20) * 800 + r - 1) / r

/-- The time to send a 9,216-byte frame (R192). -/
def tMax (s : State) (p : Nat) : Nat := frameNs s p 9216

/-! ### Time-stamps (R205), in 1/16 ns -/

/-- MFT in 2^−16 ns. -/
def mft16 (s : State) : Nat := (s.mer.sec * 1000000000 + s.mer.ns) * 65536 + s.mer.frac / 2 ^ 32
def stampNow (s : State) : Int := (mst s * 16 + s.mer.frac / 2 ^ 44 : Nat)
def egressStamp (s : State) (p : Nat) : Int := stampNow s + getF s Rg.MER_TS_CORR_EGRESS (portRate s p)
def ingressStamp (s : State) (p : Nat) : Int := stampNow s - getF s Rg.MER_TS_CORR_INGRESS (portRate s p)
/-- Difference of two stamps, across the MST wrap (36 bits). -/
def stampDiff (a b : Int) : Int := (BitVec.ofInt 36 (a - b)).toInt

/-! ### Frames -/

def tagged (b : List Byte) : Bool := beAt b 12 2 == 0x8100
def etherAt (b : List Byte) : Nat := if tagged b then 16 else 12
def etherType (b : List Byte) : Nat := beAt b (etherAt b) 2
/-- Offset of the first byte after the EtherType. -/
def payloadAt (b : List Byte) : Nat := etherAt b + 2
def frameVid (b : List Byte) : Nat := if tagged b then beAt b 14 2 % 4096 else 0
def framePcp (b : List Byte) : Nat := beAt b 14 2 / 8192
def frameDei (b : List Byte) : Bool := tagged b && bit (beAt b 14 2) 12
def frameDst (b : List Byte) : Nat := beAt b 0 6
def frameSrcMac (b : List Byte) : Nat := beAt b 6 6
def isUdp4 (b : List Byte) : Bool :=
  etherType b == 0x0800 && beAt b (payloadAt b + 9) 1 == 17 && beAt b (payloadAt b + 6) 2 % 8192 == 0
def udpAt (b : List Byte) : Nat := payloadAt b + 4 * (beAt b (payloadAt b) 1 % 16)
def udpPort (b : List Byte) : Nat := beAt b (udpAt b + 2) 2
def ipSrc (b : List Byte) : Nat := beAt b (payloadAt b + 12) 4
def ipDst (b : List Byte) : Nat := beAt b (payloadAt b + 16) 4
/-- Where the PTP message starts, if the frame carries one (R209). -/
def ptpAt (b : List Byte) : Option Nat :=
  if etherType b = 0x88F7 then some (payloadAt b)
  else if isUdp4 b && (udpPort b == 319 || udpPort b == 320) then some (udpAt b + 8) else none

/-- Cells of a frame given without its FCS: at most 36 (R241). -/
def cellsFor (bytes : Nat) : Nat := min 36 ((bytes + 4 + 255) / 256)

/-! ### Packet buffer (R241, R242) -/

def useKey (port cls : Nat) : Nat := 8 * port + cls
def poolCells : Nat := 196608

/-- Guaranteed cells of a port and class: 512 on internal ports; none on a disabled one. -/
def guar (s : State) (port cls : Nat) : Nat :=
  if 128 ≤ port then 512 else if portEnabled s port then cfgGuar (getPort s port).cfg cls else 0

def guarSum (c : List Byte) : Nat := ((List.range 8).map (cfgGuar c)).sum

/-- Σ GUAR of the enabled external ports. -/
def guarTotal (s : State) : Nat := (s.ports.map fun p => if portEnabled s p.1 then guarSum p.2.cfg else 0).sum

def sharedSizeWith (guarantees headroom : Nat) : Int := (poolCells : Int) - 73728 - guarantees - headroom
def sharedSize (s : State) : Int := sharedSizeWith (guarTotal s) (getF s Rg.SW_POOL_CFG_HEADROOM)
def sharedInUse (s : State) : Nat := (s.sw.shared.map (·.2)).sum

/-- How a frame is admitted at its first cell: from the guarantee (false), the shared pool (true), or not at all. -/
def admission (s : State) (port cls : Nat) : Option Bool :=
  if getF s Rg.SW_USE_CELLS (useKey port cls) < guar s port cls then some false
  else
    let alpha := if 128 ≤ port then Config.internalAlpha % 8 else cfgAlpha (getPort s port).cfg
    if (16 * s.sw.shared.get (useKey port cls) 0 : Int) < 2 ^ alpha * (sharedSize s - sharedInUse s) then some true else none

/-- Lowest free cell at or after c, below hi (R242). -/
def lowestFree (m : SMap Bool) (c hi : Nat) : Option Nat :=
  match m with
  | [] => if c < hi then some c else none
  | (k, _) :: r =>
    if k < c then lowestFree r c hi
    else if k = c then lowestFree r (c + 1) hi
    else if c < hi then some c else none

/-- The fabric group of a port, on the input and on the output side (R26, R238). -/
def inputGroup (p : Nat) : Nat := if p < 128 then p / 8 else if p = 128 then 0 else if p = 129 then 15 else p - 130

/-- Stage 1: the bank that input group g writes its next cell to in slot t (R238). -/
def stage1Bank (g t : Nat) : Nat := (g + t) % 16
/-- Stage 2: the output group whose queue's head cell bank m sends in slot t (R238). -/
def stage2Group (m t : Nat) : Nat := (m + t) % 16

/-- Take n cells for a frame of input group g, its k-th cell in slot t + k of the stage 1 pattern: the cells, the banks after,
and how many cells are lacking where a bank had none (R238, R242). -/
def takeCells (used : SMap Bool) (g t : Nat) : Nat → List Nat → List Nat × SMap Bool × Nat
  | 0, acc => (acc, used, 0)
  | n + 1, acc =>
    let bank := stage1Bank g (t + acc.length)
    match lowestFree used (bank * 12288) (bank * 12288 + 12288) with
    | none => (acc, used, n + 1)
    | some c => takeCells (used.set c true false) g t n (c :: acc)

def takeNow (s : State) (g cells : Nat) : List Nat × SMap Bool × Nat := takeCells s.sw.used g (s.now / 4) cells []

/-- The owner of cells that are no port's ingress cells: those of mirror copies (R234, R249). -/
def noIngress : Nat := 255

/-- Put a frame from input group g in the buffer for a number of copies; none when a bank has no free cell. -/
def bufferFrame (s : State) (g src cls cells copies : Nat) : Option (Nat × State) :=
  let r := takeNow s g cells
  if r.2.2 = 0 then
    let id := s.sw.bufSeq
    some (id, { s with sw := { s.sw with used := r.2.1, bufs := s.sw.bufs.insert id ⟨src, cls, r.1, copies⟩, bufSeq := id + 1 } })
  else none

/-- A bank had no free cell (R242). -/
def poolEmpty (s : State) : State := raiseEv (addF (addT s teleDrop) Rg.SW_DROP_POOL_EMPTY) Ev.SW_POOL_EMPTY

/-- Cells of the ingress class of a port now in the buffer (R234). -/
def ingressCells (s : State) (p cls : Nat) : Nat :=
  (s.sw.bufs.map fun b => if b.2.src = p ∧ b.2.cls = cls then b.2.cells.length else 0).sum

/-- One threshold pair: XOFF at 3/4 of the guarantee, XON at 1/2 (R234). -/
def pfcOne (s : State) (p k cells g : Nat) : State :=
  let x := getPort s p
  if x.xoff.get k false then
    if 2 * cells ≤ g then emit (setPort s p { x with xoff := x.xoff.set k false false }) (.pfc p k false) else s
  else if 0 < cells ∧ 3 * g ≤ 4 * cells then emit (setPort s p { x with xoff := x.xoff.set k true false }) (.pfc p k true)
  else s

/-- A CASCADE port sends XOFF or XON as its ingress cells cross the thresholds. -/
def pfcCheck (s : State) (p : Nat) : State :=
  let c := (getPort s p).cfg
  if !portCascade s p || !portUp s p || getF s Rg.FLT_STATE_STATE = 2 then s
  else if cfgPfc c then
    foldS ((List.range 8).filter (bit (cfgPfcClasses c) ·)) (fun s k => pfcOne s p k (ingressCells s p k) (cfgGuar c k)) s
  else if cfgPause c then pfcOne s p 8 ((List.range 8).map (ingressCells s p)).sum (guarSum c)
  else s

/-- A copy of a frame leaves the buffer; the last one frees its cells (R242). -/
def releaseFrame (s : State) (port cls : Nat) (f : QFrame) : State :=
  let k := useKey port cls
  let s := setF s Rg.SW_USE_CELLS k (getF s Rg.SW_USE_CELLS k - f.cells)
  let b := s.sw.bufs.get f.buf Buf.init
  let sh := if f.shared then s.sw.shared.set k (s.sw.shared.get k 0 - f.cells) 0 else s.sw.shared
  if b.refs ≤ 1 then
    pfcCheck { s with sw := { s.sw with shared := sh, bufs := s.sw.bufs.erase f.buf,
                                        used := b.cells.foldl (fun m c => m.erase c) s.sw.used } } b.src
  else { s with sw := { s.sw with shared := sh, bufs := s.sw.bufs.insert f.buf { b with refs := b.refs - 1 } } }

/-! ### Egress queues (R254, R257) -/

def getQueue (s : State) (port cls : Nat) : List QFrame := s.tm.queues.get (useKey port cls) []
def setQueue (s : State) (port cls : Nat) (l : List QFrame) : State :=
  { s with tm := { s.tm with queues := s.tm.queues.set (useKey port cls) l [] } }

/-- 48-bit tags compared by signed difference (R257). -/
def tagLt (a b : Nat) : Bool := (BitVec.ofNat 48 (a + 2 ^ 48 - b % 2 ^ 48)).toInt < 0
def tagMax (a b : Nat) : Nat := if tagLt a b then b else a

/-- Weight of a class on a port (R257). -/
def weight (s : State) (port cls : Nat) : Nat :=
  let v := if cls < 4 then getF s Rg.TM_WEIGHT_LO_W0 port + 256 * getF s Rg.TM_WEIGHT_LO_W1 port +
      65536 * getF s Rg.TM_WEIGHT_LO_W2 port + 16777216 * getF s Rg.TM_WEIGHT_LO_W3 port
    else getF s Rg.TM_WEIGHT_HI_W0 port + 256 * getF s Rg.TM_WEIGHT_HI_W1 port +
      65536 * getF s Rg.TM_WEIGHT_HI_W2 port + 16777216 * getF s Rg.TM_WEIGHT_HI_W3 port
  max 1 (v / 2 ^ (8 * (cls % 4)) % 256)

/-- The head frame of a queue gets its start tag, and the queue its finish tag. -/
def headArrives (s : State) (port cls : Nat) : State :=
  match getQueue s port cls with
  | [] => s
  | f :: _ =>
    let k := useKey port cls
    let st := tagMax (s.tm.vtime.get port 0) (s.tm.finish.get k 0)
    let fin := (st + (f.bytes.length + 4) * 256 / weight s port cls) % 2 ^ 48
    { s with tm := { s.tm with start := s.tm.start.set k st 0, finish := s.tm.finish.set k fin 0 } }

/-- The place of a frame among those that wait: frames of different sheets alternate, so that the i-th waiting frame of a sheet
stands behind every other sheet's i-th (R176, log 64); a frame that is no sheet's is not passed. -/
def placeFrame (q : List QFrame) (f : QFrame) : List QFrame :=
  match f.tag with
  | .sheet n =>
    let i := q.countP (·.tag == .sheet n)
    let stays (p : QFrame × Nat) : Bool := match p.1.tag with
      | .sheet m => decide ((q.take p.2).countP (·.tag == .sheet m) ≤ i)
      | _ => true
    let cut := ((q.zipIdx.filter stays).getLast?.map (·.2 + 1)).getD 0
    q.take cut ++ f :: q.drop cut
  | _ => q ++ [f]

/-- Add a frame to a queue: its cells are accounted, and take the next sequence numbers of their groups (R239). -/
def pushFrame (s : State) (port cls : Nat) (f : QFrame) : State :=
  let k := useKey port cls
  let n := getF s Rg.SW_USE_CELLS k + f.cells
  let s := setF s Rg.SW_USE_CELLS k n
  let s := setF s Rg.SW_USE_HIGH_WATER k (max n (getF s Rg.SW_USE_HIGH_WATER k))
  let sh := if f.shared then s.sw.shared.set k (s.sw.shared.get k 0 + f.cells) 0 else s.sw.shared
  let pair := inputGroup f.src * 16 + inputGroup port
  let seq := s.sw.seq.get pair 0
  let q := getQueue s port cls
  let s := setQueue { s with sw := { s.sw with shared := sh, seq := s.sw.seq.set pair (seq + f.cells) 0 } } port cls
    (placeFrame q { f with seq := seq })
  if q.isEmpty then headArrives s port cls else s

/-- Take the head frame out of a queue. -/
def popFrame (s : State) (port cls : Nat) : State :=
  match getQueue s port cls with
  | [] => s
  | f :: r => headArrives (setQueue (releaseFrame s port cls f) port cls r) port cls

/-- Frames refused by a port or flushed from it (R247, R248). -/
def countFlushed (s : State) (port n : Nat) : State := if port < 128 then addF (addT s teleDrop n) Rg.PRT_FLUSHED_FRAMES port n else s

/-- Whether a port and class can take a frame now. -/
def canTake (s : State) (port cls : Nat) : Bool := portUp s port && (admission s port cls).isSome

/-- The epoch bits that a frame carries from its lookup (R246). -/
def epochNow (s : State) : Nat := getF s Rg.SW_EPOCH_EPOCH

/-! ### Mirroring (R249) -/

def getMirror (s : State) (i : Nat) : Mirror := s.sw.mirrors.get i Mirror.init
def mirrorOn (s : State) (i : Nat) : Bool := bit (getF s Rg.SW_MIRROR_ACTIVE) i

def mirrorDropped (s : State) : State := addF (addT s teleDrop) Rg.SW_MIRROR_DROPPED

/-- A copy to the inset port's class 0, from the shared pool only; its cells are no port's ingress cells. -/
def mirrorCopy (s : State) (src i : Nat) (b : List Byte) (stomp : Bool) : State :=
  let x := getMirror s i
  let b := if bit x.flags 2 then b.take (x.trunc - 4) else b
  let n := cellsFor b.length
  let alpha := if 128 ≤ x.inset then Config.internalAlpha % 8 else cfgAlpha (getPort s x.inset).cfg
  let room := (16 * s.sw.shared.get (useKey x.inset 0) 0 : Int) < 2 ^ alpha * (sharedSize s - sharedInUse s)
  if !portUp s x.inset || !decide room then mirrorDropped s
  else
    match bufferFrame s (inputGroup src) noIngress 0 n 1 with
    | none => mirrorDropped s
    | some (id, s) => pushFrame s x.inset 0 ⟨id, b, n, true, epochNow s, false, stomp, 0, src, 0, .plain⟩

/-- The PORT sessions of a source port in one direction: bit 0 INGRESS, bit 1 EGRESS. -/
def portSessions (s : State) (port dir : Nat) : List Nat :=
  (List.range 4).filter fun i => mirrorOn s i && (getMirror s i).kind == 1 && bit (getMirror s i).flags dir && (getMirror s i).source == port

/-- Copies of a frame that enters or leaves at a port. -/
def portMirrors (s : State) (port dir : Nat) (b : List Byte) (stomp : Bool) : State :=
  foldS (portSessions s port dir) (fun s i => mirrorCopy s port i b stomp) s

/-- Queue a frame of the device's own (from the Compass or a sheet egress source) on one port; the copies of its source port's
sessions come after it. -/
def sendFrame (s : State) (port cls src : Nat) (bytes : List Byte) (tag : FrameTag) : Bool × State :=
  if !portUp s port then (false, portMirrors (countFlushed s port 1) src 0 bytes false)
  else
    match admission s port cls with
    | none => (false, portMirrors (addF (addT s teleDrop) Rg.SW_DROP_THRESHOLD) src 0 bytes false)
    | some sh =>
      let n := cellsFor bytes.length
      match bufferFrame s (inputGroup src) src cls n 1 with
      | none => (false, portMirrors (poolEmpty s) src 0 bytes false)
      | some (id, s) =>
        (true, portMirrors (pushFrame s port cls ⟨id, bytes, n, sh, epochNow s, false, false, 0, src, 0, tag⟩) src 0 bytes false)

/-! ### Frames that leave or are lost: what their sender waits for -/

def setShtPartial (s : State) (port : Nat) : State :=
  let v := getF s Rg.SHT_PARTIAL_PORTS
  if bit v port then s else setF s Rg.SHT_PARTIAL_PORTS 0 (v + 2 ^ port)

/-- HOLD frames of a command still in a queue or a launch slot. -/
def holdQueued (s : State) (cmd : Nat) : Bool :=
  (s.tm.queues.any fun q => q.2.any fun f => f.tag == .hold cmd) || s.ports.any fun p => p.2.slot.any fun l => l.frame.tag == .hold cmd

/-- HOLD commands whose frames have all left complete (R194). -/
def holdsProgress (s : State) : State :=
  foldS (s.sht.holds.filter fun h => h.issued && !holdQueued s h.cmd) (fun s h =>
    completeId { s with sht := { s.sht with holds := s.sht.holds.filter (·.cmd != h.cmd) } } h.cmd
      (if h.refused then St.partly else St.ok) h.at_) s

/-- A HOLD frame of a command could not leave on a port (R193, R194). -/
def holdRefused (s : State) (cmd port : Nat) : State :=
  setShtPartial { s with sht := { s.sht with
    holds := s.sht.holds.map fun h => if h.cmd = cmd then { h with refused := true } else h } } port

def frameLost (s : State) (port : Nat) (f : QFrame) : State :=
  match f.tag with
  | .hold c => holdRefused s c port
  | _ => s

/-- Flush every queue of a port (R248). -/
def flushPort (s : State) (port : Nat) : State :=
  let s := foldS (List.range 8) (fun s c =>
    let q := getQueue s port c
    let s := countFlushed s port q.length
    let s := foldS q (fun s f => frameLost (releaseFrame s port c f) port f) s
    setQueue s port c []) s
  holdsProgress s

/-! ### Gates (R264) -/

def getGate (s : State) (p : Nat) : Option GateList := s.tm.gates.get p none
def getGateNext (s : State) (p : Nat) : Option GateList := s.tm.gatesNext.get p none

/-- The entries as (states, 2^−16 ns), cut at the end of the cycle; the last one holds to its end. -/
def gateSegs (cycle : Nat) (l : List (Nat × Nat)) : List (Nat × Nat) :=
  match l with
  | [] => []
  | [(st, _)] => [(st, cycle)]
  | (st, d) :: r => if cycle ≤ d * 65536 then [(st, cycle)] else (st, d * 65536) :: gateSegs (cycle - d * 65536) r

/-- The states at a position. -/
def gateStateAt (l : List (Nat × Nat)) (pos : Nat) : Nat :=
  match l with
  | [] => 255
  | [(st, _)] => st
  | (st, d) :: r => if pos < d then st else gateStateAt r (pos - d)

/-- Distance from pos to the first moment the class's gate is closed. -/
def closedAfter (l : List (Nat × Nat)) (cls pos at_ : Nat) : Option Nat :=
  match l with
  | [] => none
  | (st, d) :: r =>
    if !bit st cls && pos < at_ + d then some (at_ - pos) else closedAfter r cls pos (at_ + d)

def gatePos (g : GateList) (t : Nat) : Nat := if g.cycle = 0 then 0 else (((t : Int) - g.start) % g.cycle).toNat

/-- Distance in 2^−16 ns from an MFT to the class's next closing under a list; none: never. -/
def listClosed (g : GateList) (cls t : Nat) : Option Nat :=
  let segs := gateSegs g.cycle g.entries
  closedAfter (segs ++ segs) cls (gatePos g t) 0

/-- The same under the operational list and, from its start, the pending one. -/
def gateClosed (s : State) (p cls : Nat) : Option Nat :=
  let t := mft16 s
  let now := match getGate s p with
    | none => none
    | some g => listClosed g cls t
  match getGateNext s p with
  | none => now
  | some g =>
    let d := g.start - t
    match now with
    | some c => if c < d then some c else (listClosed g cls g.start).map (· + d)
    | none => (listClosed g cls g.start).map (· + d)

/-- The gate of a class is open and stays open for a time in ns. -/
def gateOpenFor (s : State) (p cls ns : Nat) : Bool :=
  if 128 ≤ p then true
  else
    bit (getF s Rg.TM_GATE_STATUS_STATES p) cls &&
    (!domainOn s 5 || match gateClosed s p cls with
      | none => true
      | some d => ns * 65536 ≤ d)

/-- The longest open window of a class over the repeating list; none: never closed (R265). -/
def longestOpen (l : List (Nat × Nat)) (cls run best : Nat) : Nat :=
  match l with
  | [] => max run best
  | (st, d) :: r => if bit st cls then longestOpen r cls (run + d) best else longestOpen r cls 0 (max run best)

/-- The head frame fits no open window of its class over a whole cycle (R265). -/
def oversize (s : State) (p cls ns : Nat) : Bool :=
  match getGate s p with
  | none => false
  | some g =>
    let segs := gateSegs g.cycle g.entries
    segs.any (fun e => !bit e.1 cls) && decide (longestOpen (segs ++ segs) cls 0 0 < ns * 65536)

/-! ### Shapers (R258, R259) -/

def getShaper (s : State) (port cls : Nat) : Shaper := s.tm.shapers.get (useKey port cls) Shaper.init
def setShaper (s : State) (port cls : Nat) (x : Shaper) : State :=
  { s with tm := { s.tm with shapers := s.tm.shapers.set (useKey port cls) x Shaper.init } }

/-- I in 2^−16 ns. -/
def shaperInterval (rate : Nat) : Nat := 1000000000 * 65536 / rate
def hasCredit (x : Shaper) : Bool := !x.enabled || (x.rate != 0 && decide (1 ≤ x.credit))
/-- A refill is on the wheel or on the overflow list. -/
def refilling (x : Shaper) : Bool := x.enabled && x.rate != 0 && decide (x.credit < x.burst)
/-- The wheel's horizon in 2^−16 ns. -/
def wheelHorizon : Nat := 1048576 * 65536
/-- Place the next refill: on the wheel if it lies within the horizon, on the overflow list otherwise. -/
def placeShaper (s : State) (x : Shaper) : Shaper :=
  { x with overflow := refilling x && decide (s.now * 65536 + wheelHorizon ≤ x.last + shaperInterval x.rate) }

/-- Sending a frame takes one credit; from a full bucket the refill interval starts (R259). -/
def takeCredit (s : State) (port cls : Nat) : State :=
  let x := getShaper s port cls
  if x.enabled then
    let last := if x.credit = x.burst then s.now * 65536 else x.last
    setShaper s port cls (placeShaper s { x with credit := x.credit - 1, last := last })
  else s

/-! ### Eligibility (R256) -/

/-- Held by an armed LAUNCH trigger (R226). -/
def launchHeld (s : State) (port cls : Nat) : Bool :=
  (List.range 16).any fun n => getB s Rg.MER_TRIG_CTRL_ARM n && getF s Rg.MER_TRIG_CTRL_ACTION n == 2 &&
    getF s Rg.MER_TRIG_CTRL_PORT n == port && getF s Rg.MER_TRIG_CTRL_CLASS n == cls

def classPaused (s : State) (port cls : Nat) : Bool := ((getPort s port).pauses.get cls none).isSome

/-- The port's idle period before a launch admits no frame of this class (R192, R226). -/
def idleBlocks (s : State) (port cls : Nat) : Bool :=
  match (getPort s port).idle with
  | none => false
  | some (c, _) => c != cls

def eligible (s : State) (port cls : Nat) : Bool :=
  match getQueue s port cls with
  | [] => false
  | f :: _ =>
    gateOpenFor s port cls (frameNs s port (f.bytes.length + 4)) && hasCredit (getShaper s port cls) &&
    !classPaused s port cls && !launchHeld s port cls && !idleBlocks s port cls

/-- The queue R256 chooses: the highest eligible strict class, or the fair class with the smallest start tag. -/
def chooseQueue (s : State) (port : Nat) : Option Nat :=
  let strict := getF s Rg.TM_SCHED_STRICT port
  let down := [7, 6, 5, 4, 3, 2, 1, 0]
  match down.find? fun c => bit strict c && eligible s port c with
  | some c => some c
  | none =>
    (down.filter fun c => !bit strict c && eligible s port c).foldl (fun best c =>
      match best with
      | none => some c
      | some b => if tagLt (s.tm.start.get (useKey port c) 0) (s.tm.start.get (useKey port b) 0) then some c else some b) none

end Sys2Proof.Machine
end

