-- ==== Sys2Proof/Machine/Transmit.lean ====
section
/-!
DEFINITION. PTP messages (R207, R209 to R212, layouts of IEEE 1588-2019, log 16) and the transmission of a frame by a MAC:
time-stamps, one-step and transparent-clock corrections (R207, R211), colour (R263), and what the sender waits for.
-/

namespace Sys2Proof.Machine

/-! ### PTP settings -/

def getPtp (s : State) (p : Nat) : PtpPort := s.mer.ptp.get p PtpPort.init
def setPtp (s : State) (p : Nat) (x : PtpPort) : State := { s with mer := { s.mer with ptp := s.mer.ptp.set p x PtpPort.init } }

def ptpProfile (s : State) : Nat := getF s Rg.MER_PTP_CTRL_PROFILE
def ptpPeerDelay (s : State) : Bool := ptpProfile s == 1
/-- Two-step is forced for 802.1AS (R229). -/
def ptpTwoStep (s : State) : Bool := getB s Rg.MER_CTRL_TWO_STEP || ptpProfile s == 1
def clampI (lo hi x : Int) : Int := if x < lo then lo else if hi < x then hi else x
/-- LOG_SYNC and LOG_ANNOUNCE clipped to the profile's range (R209, R229). -/
def ptpLogSync (s : State) : Int :=
  let v := getS s Rg.MER_PTP_CTRL_LOG_SYNC
  if ptpProfile s = 0 then clampI (-4) 1 v else if ptpProfile s = 1 then clampI (-7) 0 v else clampI (-7) (-1) v
def ptpLogAnnounce (s : State) : Int :=
  let v := getS s Rg.MER_PTP_CTRL_LOG_ANNOUNCE
  if ptpProfile s = 0 then clampI 0 4 v else if ptpProfile s = 1 then 0 else clampI (-3) 1 v
/-- 2^L seconds in ns, for L from −7 to 4. -/
def logIntervalNs (l : Int) : Nat := 1000000000 * 2 ^ (l + 7).toNat / 128

/-- The clockIdentity: the EUI-64 of SHT_SRC_MAC (log 16). -/
def clockIdentity (s : State) : Nat :=
  let m := getF s Rg.SHT_SRC_MAC_ADDR
  m / 2 ^ 24 * 2 ^ 40 + 0xFFFE * 2 ^ 24 + m % 2 ^ 24

def portRole (s : State) (p : Nat) : Nat := getF s Rg.MER_PTP_PORT_ROLE p
def ptpState (s : State) (p : Nat) : Nat := getF s Rg.MER_PTP_PORT_STATE p
def ptpMaster : Nat := 2
def ptpSlave : Nat := 3

/-- Full time of a stamp near the present, in 1/16 ns since the PTP epoch. -/
def fullTime (s : State) (stamp : Int) : Int := (mft16 s / 4096 : Nat) + stampDiff stamp (stampNow s)

/-- A die's stamps are invalid while its link retrains and up to 1 ms after its return (R208). -/
def stampsValid (s : State) (p : Nat) : Bool :=
  (s.clk.links.get (laneDie p) none).isNone &&
    match s.mer.tsBad.get (laneDie p) none with
    | none => true
    | some t => decide (t ≤ s.now)

/-! ### Messages -/

/-- messageType codes. -/
def msgSync : Nat := 0
def msgDelayReq : Nat := 1
def msgPdelayReq : Nat := 2
def msgPdelayResp : Nat := 3
def msgFollowUp : Nat := 8
def msgDelayResp : Nat := 9
def msgPdelayFollowUp : Nat := 10
def msgAnnounce : Nat := 11

def mType (m : List Byte) : Nat := beAt m 0 1 % 16
def mSdo (m : List Byte) : Nat := beAt m 0 1 / 16
def mVersion (m : List Byte) : Nat := beAt m 1 1 % 16
def mLength (m : List Byte) : Nat := beAt m 2 2
def mDomain (m : List Byte) : Nat := beAt m 4 1
def mTwoStep (m : List Byte) : Bool := bit (beAt m 6 1) 1
/-- correctionField in 2^−16 ns, and in 1/16 ns. -/
def mCorr (m : List Byte) : Int := signed 64 (beAt m 8 8)
def mCorr16 (m : List Byte) : Int := mCorr m / 4096
def mSource (m : List Byte) : Nat := beAt m 20 10
def mSeq (m : List Byte) : Nat := beAt m 30 2
/-- A PTP timestamp of 10 bytes in 1/16 ns. -/
def mTime (m : List Byte) (o : Nat) : Int := ((beAt m o 6 * 1000000000 + beAt m (o + 6) 4) * 16 : Nat)

def timeBytes (t16 : Int) : List Byte :=
  let ns := (t16 / 16).toNat
  beBytes 6 (ns / 1000000000) ++ beBytes 4 (ns % 1000000000)

/-- The 34-byte header; flags are flagField's first octet. -/
def ptpHeader (s : State) (p type len flags seq : Nat) (corr log : Int) : List Byte :=
  beBytes 1 (type + 16 * (if ptpProfile s = 1 then 1 else 0)) ++ beBytes 1 2 ++ beBytes 2 len ++
  beBytes 1 (getF s Rg.MER_PTP_CTRL_DOMAIN) ++ zeros 1 ++ beBytes 1 flags ++ zeros 1 ++
  beBytes 8 (unsigned 64 corr) ++ zeros 4 ++ beBytes 8 (clockIdentity s) ++ beBytes 2 (p + 1) ++ beBytes 2 seq ++
  beBytes 1 (if type = 0 then 0 else if type = 1 then 1 else if type = 8 then 2 else if type = 9 then 3 else 5) ++
  beBytes 1 (unsigned 8 log)

/-- The one's complement sum of 16-bit words, before the carries are folded. -/
def sum16 : List Byte → Nat
  | a :: b :: t => a.toNat * 256 + b.toNat + sum16 t
  | [a] => a.toNat * 256
  | [] => 0

/-- An IPv4 header of 20 bytes for UDP, with its checksum; version 4, no options, TTL 1 (log 16). -/
def ipHeader (len src dst : Nat) : List Byte :=
  let a := beBytes 2 0x4500 ++ beBytes 2 (20 + len) ++ zeros 4 ++ beBytes 2 0x0111
  let b := beBytes 4 src ++ beBytes 4 dst
  let n := sum16 (a ++ b)
  let n := n % 65536 + n / 65536
  a ++ beBytes 2 (65535 - (n % 65536 + n / 65536)) ++ b

/-- Peer-delay messages, which use the link-local addresses. -/
def ptpPeer (t : Nat) : Bool := t == 2 || t == 3 || t == 10

/-- The frame of a message, over Layer 2 or UDP/IPv4: event messages to port 319, general ones to port 320, UDP checksum 0;
peer-delay messages and 802.1AS use the link-local addresses (R209, log 16). -/
def ptpFrame (s : State) (udp : Bool) (m : List Byte) : List Byte :=
  let t := mType m
  let src := beBytes 6 (getF s Rg.SHT_SRC_MAC_ADDR)
  let b :=
    if udp then
      let ip := if ptpPeer t then 0xE000006B else 0xE0000181
      let port := if t < 4 then 319 else 320
      beBytes 6 (0x01005E000000 + ip % 2 ^ 23) ++ src ++ beBytes 2 0x0800 ++ ipHeader (8 + m.length) (Config.ptpSrcIp % 2 ^ 32) ip ++
      beBytes 2 port ++ beBytes 2 port ++ beBytes 2 (8 + m.length) ++ zeros 2 ++ m
    else beBytes 6 (if ptpProfile s = 1 ∨ ptpPeer t = true then 0x0180C200000E else 0x011B19000000) ++ src ++ beBytes 2 0x88F7 ++ m
  b ++ zeros (60 - b.length)

/-- The transport of a frame that carries a PTP message. -/
def ptpOverUdp (b : List Byte) : Bool := etherType b != 0x88F7
/-- The transport of the messages that a port sends by itself. -/
def portOverUdp (s : State) (p : Nat) : Bool := ptpProfile s != 1 && Config.ptpUdp p

/-- The counts of messages are those of one second (R212). -/
def ptpSecondRoll (s : State) : State :=
  if s.mer.ptpSecond = s.now / secNs then s
  else { s with mer := { s.mer with ptpSecond := s.now / secNs, ptpIn := 0, ptpOut := 0, ptpReqIn := 0, ptpReqOut := 0 } }

def ptpOverload (s : State) : State := addF s Rg.MER_PTP_STATUS_OVERLOAD

/-- A message may be processed beside `total` others, of which `req` belong to Delay_Req messages of master ports: those are
dropped first, so they do not count against the others (R212, log 67). -/
def ptpAdmits (isReq : Bool) (total req : Nat) : Bool := decide ((if isReq then total else total - req) < 65536)

/-- The Compass sends a message: at most 65,536 in a second, answers to Delay_Req dropped first and counted (R212). -/
def sendPtp (s : State) (p : Nat) (m : List Byte) (tag : FrameTag) (udp : Bool) : State :=
  let s := ptpSecondRoll s
  let isReq := mType m == msgDelayResp
  if !ptpAdmits isReq s.mer.ptpOut s.mer.ptpReqOut then ptpOverload s
  else
    let s := { s with mer := { s.mer with ptpOut := s.mer.ptpOut + 1, ptpReqOut := s.mer.ptpReqOut + isReq.toNat } }
    (sendFrame s p (Config.ptpClass % 8) 129 (ptpFrame s udp m) tag).2

/-! ### Transmission -/

/-- Add to correctionField; over UDP/IPv4 the checksum is written as 0 (R207). -/
def addCorrection (b : List Byte) (o : Nat) (corr : Int) : List Byte :=
  let b := patch b (o + 8) (beBytes 8 (unsigned 64 (mCorr (b.drop o) + corr)))
  if etherType b = 0x88F7 then b else patch b (udpAt b + 6) (zeros 2)

/-- What the MAC writes into a PTP frame as it leaves: a one-step Sync's origin time, a transparent clock's residence
time (R207, R211). While the die's stamps are invalid it writes neither (R208, log 67). -/
def ptpOnEgress (s : State) (port : Nat) (stamp : Int) (f : QFrame) : List Byte :=
  match ptpAt f.bytes with
  | none => f.bytes
  | some o =>
    let m := f.bytes.drop o
    if !stampsValid s port then f.bytes
    else if f.src = 129 then
      if mType m = msgSync ∧ !mTwoStep m then
        let t := fullTime s stamp
        addCorrection (patch f.bytes (o + 34) (timeBytes t)) o (t % 16 * 4096)
      else f.bytes
    else if f.src < 128 ∧ port < 128 ∧ mType m < 4 then
      addCorrection f.bytes o (stampDiff stamp f.stamp * 4096)
    else f.bytes

/-- DEI of a tagged yellow frame on a CASCADE port (R263). -/
def markDei (s : State) (port : Nat) (f : QFrame) (b : List Byte) : List Byte :=
  if f.yellow && tagged b && portCascade s port then patch b 14 (beBytes 1 (beAt b 14 1 ||| 0x10)) else b

/-- The egress stamp of a PTP event message, for the Compass (R207, R212); follow-ups use the transport of their message. -/
def ptpStamped (s : State) (port : Nat) (t : Int) (m : List Byte) (udp : Bool) : State :=
  if mType m = msgSync ∧ mTwoStep m then
    sendPtp s port (ptpHeader s port msgFollowUp 44 0 (mSeq m) (fullTime s t % 16 * 4096) (ptpLogSync s) ++
      timeBytes (fullTime s t)) .plain udp
  else if mType m = msgDelayReq ∨ mType m = msgPdelayReq then setPtp s port { getPtp s port with req := some (mSeq m, t) }
  else if mType m = msgPdelayResp then
    sendPtp s port (ptpHeader s port msgPdelayFollowUp 54 0 (mSeq m) (fullTime s t % 16 * 4096) 127 ++
      timeBytes (fullTime s t) ++ (m.drop 44).take 10) .plain udp
  else s

/-- A frame leaves a port: its bytes on the wire, TX_FRAMES of good frames, its mirror copies, and what its sender waits for. The stamp is the
instant at which its message time-stamp point crosses the MDI; invalid stamps are discarded (R205, R208). -/
def transmit (s : State) (port : Nat) (stamp : Int) (f : QFrame) : State :=
  let valid := stampsValid s port
  let b := markDei s port f (ptpOnEgress s port stamp f)
  let s := emit s (if f.stomp then .stomped port b else .frame port b)
  let s := if port < 128 then addT s (teleTx port) (b.length + 4) else s
  let s := if port < 128 ∧ !f.stomp then addF s Rg.PRT_TX_FRAMES_FRAMES port else s
  let s := if f.stomp then raiseEv (addF s Rg.SW_STOMP_COUNT_STOMPED) Ev.SW_STOMP port else s
  let s := portMirrors s port 1 b f.stomp
  match f.tag with
  | .plain => s
  | .hold _ => s
  | .sheet _ => s
  | .rollcall =>
    match s.sht.rollcalls.get port none with
    | none => s
    | some r =>
      let t1 := if valid then some stamp else none
      { s with sht := { s.sht with rollcalls := s.sht.rollcalls.set port (some { r with t1 := t1, sentAt := s.now }) none } }
  | .calEnd =>
    match s.sht.pushes.get port none with
    | none => s
    | some r => { s with sht := { s.sht with pushes := s.sht.pushes.set port (some { r with lastAt := some s.now }) none } }
  | .ptp =>
    match ptpAt b with
    | none => s
    | some o => if valid then ptpStamped s port stamp (b.drop o) (ptpOverUdp b) else s

end Sys2Proof.Machine
end

