-- ==== Sys2Proof/Machine/Curves.lean ====
section
/-!
DEFINITION. The transfer curves of R37 as codes of 16 bits, evaluated in fixed point of 96 fraction bits, and the tables that
stand for them: each entry lies within 2 codes of its curve (log 11).
-/

namespace Sys2Proof.Machine

def clip3 (lo hi x : Int) : Int := if x < lo then lo else if hi < x then hi else x
def clip16 (x : Int) : Nat := (clip3 0 65535 x).toNat
def min16 (n : Nat) : Nat := min n 65535

/-! ### Fixed point of 96 fraction bits -/

def fixOne : Nat := 2 ^ 96
def fixMul (a b : Nat) : Nat := a * b / fixOne
/-- a ÷ b as a fixed-point number. -/
def fixRatio (a b : Nat) : Nat := a * fixOne / b

/-- Bits of the binary logarithm of a mantissa m in [1, 2), by squaring. -/
def log2Bits : Nat → Nat → Nat → Nat
  | 0, _, acc => acc
  | n + 1, m, acc =>
    let q := fixMul m m
    if 2 * fixOne ≤ q then log2Bits n (q / 2) (2 * acc + 1) else log2Bits n q (2 * acc)

/-- log2 of a positive fixed-point number. -/
def fixLog2 (x : Nat) : Int :=
  let e := Nat.log2 x
  (((e : Int) - 96) * (fixOne : Int)) + (log2Bits 96 (if e ≤ 96 then x * 2 ^ (96 - e) else x / 2 ^ (e - 96)) 0 : Nat)

/-- ln 2, log2 e and log10 2. -/
def fixLn2 : Nat := 54916777467707473351141471128
def fixLog2e : Nat := 114302077158074026402637675936
def fixLog10of2 : Nat := 23850053418134191015272426710

/-- Terms of e^y for y in [0, 1), the k-th being t. -/
def expTerms (y : Nat) : Nat → Nat → Nat → Nat
  | 0, _, _ => 0
  | n + 1, k, t => t + expTerms y n (k + 1) (fixMul t y / k)

/-- 2^y. -/
def fixExp2 (y : Int) : Nat :=
  let i := y >>> 96
  let f := (y - i * (fixOne : Int)).toNat
  let m := expTerms (fixMul f fixLn2) 32 1 fixOne
  if 0 ≤ i then m * 2 ^ i.toNat else m / 2 ^ (-i).toNat

/-- x^y, 0 where x is 0. -/
def fixPow (x : Nat) (y : Int) : Nat := if x = 0 then 0 else fixExp2 ((fixLog2 x * y) >>> 96)

/-- The code nearest a fixed-point number on the scale where 65,535 is 1. -/
def codeOf (v : Nat) : Nat := (v * 65535 + fixOne / 2) / fixOne
def ofCode (x : Nat) : Nat := fixRatio x 65535

/-! ### The curves -/

/-- The ST 2084 EOTF in units of 10,000 cd/m². -/
def pqCurve (e : Nat) : Nat :=
  let p := fixPow e (fixRatio 32 2523)
  fixPow ((p - fixRatio 3424 4096) * fixOne / (fixRatio 2413 128 - fixMul (fixRatio 2392 128) p)) (fixRatio 8192 1305)

/-- Its inverse. -/
def pqInverse (y : Nat) : Nat :=
  let p := fixPow y (fixRatio 1305 8192)
  fixPow ((fixRatio 3424 4096 + fixMul (fixRatio 2413 128) p) * fixOne / (fixOne + fixMul (fixRatio 2392 128) p)) (fixRatio 2523 32)

def bt1886Curve (v : Nat) : Nat := fixPow v (fixRatio 12 5)

def srgbCurve (v : Nat) : Nat :=
  if v ≤ fixRatio 4045 100000 then v * 100 / 1292
  else fixPow ((v + fixRatio 55 1000) * 1000 / 1055) (fixRatio 12 5)

/-- The HLG constants a, b and c of BT.2100. -/
def hlgA : Nat := fixRatio 17883277 100000000
def hlgB : Nat := fixRatio 28466892 100000000
def hlgC : Nat := fixRatio 55991073 100000000

/-- The HLG inverse OETF. -/
def hlgLinear (e : Nat) : Nat :=
  if e ≤ fixOne / 2 then fixMul e e / 3
  else (fixExp2 (((((e : Int) - hlgC) * (fixOne : Int) / hlgA) * fixLog2e) >>> 96) + hlgB) / 12

/-- The HLG OETF. -/
def hlgCoded (l : Nat) : Nat :=
  if 12 * l ≤ fixOne then fixPow (3 * l) (fixRatio 1 2)
  else (((((fixLog2 (12 * l - hlgB) * fixLn2) >>> 96) * hlgA) >>> 96) + hlgC).toNat

/-- γ − 1 of an HLG display with nominal peak luminance L_W. -/
def hlgGamma1 (peak : Nat) : Int :=
  (fixRatio 1 5 : Nat) + ((((fixLog2 (fixRatio (max 1 peak) 1000) * fixLog10of2) >>> 96) * (fixRatio 42 100 : Nat)) >>> 96)

/-- Luminance of a pixel of fixed-point components. -/
def hlgLuma (r g b : Nat) : Nat := (2627 * r + 6780 * g + 593 * b) / 10000

/-! ### The tables -/

/-- An entry of a table: the curve's code, at most 2 codes away; dev is what the table adds. -/
def tableCode (code : Nat) (dev : Int) : Nat := (max 0 ((code : Int) + clip3 (-2) 2 dev)).toNat

/-- EOTFs on the scale of LINEAR_PEAK: 1 PQ, 3 BT.1886, 4 sRGB (R37 step 2). -/
def eotfCode (transfer peak white x : Nat) : Nat :=
  let v := ofCode x
  let l := if transfer = 1 then pqCurve v * 10000 / max 1 peak
    else (if transfer = 3 then bt1886Curve v else srgbCurve v) * white / max 1 peak
  min16 (tableCode (codeOf l) (Config.curveDev transfer peak white x))

/-- The inverse of the ST 2084 EOTF from the scale of LINEAR_PEAK. -/
def pqCode (peak x : Nat) : Nat := min16 (tableCode (codeOf (pqInverse (ofCode x * peak / 10000))) (Config.curveDev 5 peak 0 x))

/-- The power function of an HLG OOTF by its table, in codes where 65,535 is 1; open at 0 where the exponent is negative. -/
def ootfCode (id peak y : Nat) (exponent : Int) : Nat :=
  if y = 0 ∧ exponent < 0 then Config.free (Config.curveAt id peak)
  else tableCode (codeOf (fixPow (ofCode y) exponent)) (Config.curveDev id peak 0 y)

/-- A product of two codes, whose rounding R37 leaves open. -/
def codeProduct (id peak a b : Nat) : Nat := min16 (a * b / 65535 + (Config.curveDev id peak a b).toNat % 2)

/-- The HLG EOTF: inverse OETF by its table, then the OOTF. -/
def hlgEotf (peak : Nat) (p : Pix) : Pix :=
  let lin (x : Nat) : Nat := min16 (tableCode (codeOf (hlgLinear (ofCode x))) (Config.curveDev 2 peak 0 x))
  let r := lin p.1
  let g := lin p.2.1
  let b := lin p.2.2
  let k := ootfCode 6 peak (hlgLuma r g b) (hlgGamma1 peak)
  (codeProduct 7 peak r k, codeProduct 7 peak g k, codeProduct 7 peak b k)

/-- The inverse of the HLG OOTF, then the OETF by its table. -/
def hlgEncode (peak : Nat) (p : Pix) : Pix :=
  let g1 := hlgGamma1 peak
  let k := ootfCode 8 peak (hlgLuma p.1 p.2.1 p.2.2) (-g1 * (fixOne : Int) / (fixOne + g1))
  let enc (x : Nat) : Nat :=
    let l := if x = 0 then 0 else codeProduct 9 peak x k
    min16 (tableCode (codeOf (hlgCoded (ofCode l))) (Config.curveDev 10 peak 0 l))
  (enc p.1, enc p.2.1, enc p.2.2)

end Sys2Proof.Machine
end

