-- ==== Sys2Proof/Machine/Compose.lean ====
section
/-!
DEFINITION. The arithmetic of composition: sample expansion and chroma upsampling (R36), the colour path (R37), the scaler
(R38), blending (R40), and a canvas row of a view (R34).
-/

namespace Sys2Proof.Machine

/-! ### Pictures -/

def rowAt (p : List (List Nat)) (y x : Nat) : Nat := (p.getD y []).getD x 0

/-- A sample of a plane, indices clamped to the plane's edge (R36 step 2). -/
def clampAt (p : List (List Nat)) (y x : Int) : Nat :=
  let h : Int := p.length
  let y' := (clip3 0 (h - 1) y).toNat
  let w : Int := (p.getD y' []).length
  rowAt p y' (clip3 0 (w - 1) x).toNat

/-- Upsample by 2 in one direction at output index n, from samples a (R36 step 1). -/
def upsample (b : Nat) (centred : Bool) (a : Int → Nat) (n : Nat) : Nat :=
  let i : Int := (n / 2 : Nat)
  if centred then
    if n % 2 = 0 then (a (i - 1) + 3 * a i + 2) / 4 else (3 * a i + a (i + 1) + 2) / 4
  else if n % 2 = 0 then a i
  else (clip3 0 (2 ^ b - 1) ((-4 * (a (i - 1) : Int) + 36 * a i + 36 * a (i + 1) - 4 * a (i + 2) + 32) >>> 6)).toNat

/-- Expand a sample of depth b to 16 bits (R36 step 3). -/
def expand16 (b x : Nat) : Nat := x * 2 ^ (16 - b) + x / 2 ^ (2 * b - 16)

/-- The chroma sample of component c at full resolution; horizontal before vertical (log 14). -/
def chromaAt (p : Picture) (centred : Bool) (c y x : Nat) : Nat :=
  let pl := p.planes.getD c []
  let b := p.depth.getD c 8
  if p.chroma = 2 then rowAt pl y x
  else
    let hrow (r : Int) : Nat := upsample b centred (fun i => clampAt pl r i) x
    if p.chroma = 1 then hrow y else upsample b centred hrow y

/-- The three 16-bit components of a stream picture's pixel (R36). -/
def pictureAt (p : Picture) (centred : Bool) (y x : Nat) : Pix :=
  (expand16 (p.depth.getD 0 8) (rowAt (p.planes.getD 0 []) y x),
   expand16 (p.depth.getD 1 8) (chromaAt p centred 1 y x),
   expand16 (p.depth.getD 2 8) (chromaAt p centred 2 y x))

/-! ### Layer descriptors (R35) -/

def lType (d : List Byte) : Nat := leAt d 0 1
def lFlags (d : List Byte) : Nat := leAt d 1 1
def lId (d : List Byte) : Nat := leAt d 2 2
def lSrcX (d : List Byte) : Nat := leAt d 4 2
def lSrcY (d : List Byte) : Nat := leAt d 6 2
def lSrcW (d : List Byte) : Nat := leAt d 8 2
def lSrcH (d : List Byte) : Nat := leAt d 10 2
def lDstX (d : List Byte) : Int := signed 32 (leAt d 12 4)
def lDstY (d : List Byte) : Int := signed 32 (leAt d 16 4)
def lDstW (d : List Byte) : Nat := leAt d 20 2
def lDstH (d : List Byte) : Nat := leAt d 22 2
def lAlpha (d : List Byte) : Nat := leAt d 24 2
def lTransfer (d : List Byte) : Nat := leAt d 26 1
def lKeyEn (d : List Byte) : Bool := bit (lFlags d) 0
def lPixelAlpha (d : List Byte) : Bool := bit (lFlags d) 1
def lFilter (d : List Byte) : Nat := bits (lFlags d) 2 2
def lBypass (d : List Byte) : Bool := bit (lFlags d) 4
def lCentred (d : List Byte) : Bool := bit (lFlags d) 5
def lKey (d : List Byte) (i : Nat) : Nat := leAt d (88 + 2 * i) 2
def lSolid (d : List Byte) (i : Nat) : Nat := leAt d (100 + 2 * i) 2

/-- A layer is enabled when it has a source and none of its sizes is 0 (R34). -/
def layerEnabled (d : List Byte) : Bool :=
  lType d != 0 && lSrcW d != 0 && lSrcH d != 0 && lDstW d != 0 && lDstH d != 0

def getC (p : Pix) (c : Nat) : Nat := if c = 0 then p.1 else if c = 1 then p.2.1 else p.2.2

/-! ### Colour path (R37) -/

/-- Row c of a matrix at byte o of a descriptor; offsets follow the nine coefficients. -/
def matrixRow (d : List Byte) (o c : Nat) (p : Pix) : Nat :=
  let m (k : Nat) : Int := signed 16 (leAt d (o + 6 * c + 2 * k) 2)
  let off := signed 32 (leAt d (o + 18 + 4 * c) 4)
  clip16 (((m 0 * p.1 + m 1 * p.2.1 + m 2 * p.2.2 + 4096) >>> 13) + off)

def matrixApply (d : List Byte) (o : Nat) (p : Pix) : Pix := (matrixRow d o 0 p, matrixRow d o 1 p, matrixRow d o 2 p)

def map3 (f : Nat → Nat) (p : Pix) : Pix := (f p.1, f p.2.1, f p.2.2)

/-- IN_TRANSFER's EOTF: LINEAR unchanged; the others by their tables (R37 step 2). -/
def toLinear (transfer peak white : Nat) (p : Pix) : Pix :=
  if transfer = 0 then p
  else if transfer = 2 then hlgEotf peak p
  else map3 (eotfCode transfer peak white) p

/-- The view's canvas encoding: LINEAR nothing, PQ and HLG by their tables (R37 step 3). -/
def encodeCanvas (encoding peak : Nat) (p : Pix) : Pix :=
  if encoding = 1 then map3 (pqCode peak) p
  else if encoding = 2 then hlgEncode peak p
  else p

def colourPath (v : ViewParams) (d : List Byte) (p : Pix) : Pix :=
  let a := matrixApply d 28 p
  if lBypass d then a
  else encodeCanvas v.encoding v.peak (matrixApply d 58 (toLinear (lTransfer d) v.peak v.white a))

/-! ### Filter coefficients (R38) -/

/-- Bank by step (R38). -/
def bankOf (step : Nat) : Nat :=
  if step ≤ 65536 then 0 else if step ≤ 98304 then 1 else if step ≤ 131072 then 2 else if step ≤ 196608 then 3 else 4

/-- A phase of a built-in bank: the open taps as signed 12-bit numbers and the last one that makes the sum 1,024; a unit
impulse at c where that last tap would not be a signed 12-bit number (log 6). -/
def bankPhase (taps : List Int) (c : Nat) : List Int :=
  let l := taps.map (clip3 (-2048) 2047)
  let last := 1024 - l.sum
  if -2048 ≤ last ∧ last ≤ 2047 then l ++ [last] else (List.range (l.length + 1)).map fun t => if t = c then 1024 else 0

/-- Built-in horizontal coefficients: phase 0 is a unit impulse; each phase sums to 1,024 (R38). -/
def builtinH (bank ph t : Nat) : Int :=
  if ph = 0 then (if t = 3 then 1024 else 0) else (bankPhase ((List.range 7).map (Config.filterH bank ph)) 3).getD t 0

def builtinV (bank ph t : Nat) : Int :=
  if ph = 0 then (if t = 2 then 1024 else 0) else (bankPhase ((List.range 5).map (Config.filterV bank ph)) 2).getD t 0

/-- The host bank: 8 taps of 64 horizontal phases, then 8 places of 64 vertical phases (R60). -/
def hostCoef (bank : SMap Nat) (ph t : Nat) : Int := signed 12 (bank.get (8 * ph + t) 0)

def coefH (bank : SMap Nat) (filter step ph t : Nat) : Int :=
  if filter = 2 then hostCoef bank ph t
  else if filter = 1 then (if t = 3 then 1024 else 0) else builtinH (bankOf step) ph t
def coefV (bank : SMap Nat) (filter step ph t : Nat) : Int :=
  if filter = 2 then hostCoef bank (ph + 64) t
  else if filter = 1 then (if t = 2 then 1024 else 0) else builtinV (bankOf step) ph t

/-! ### Sources -/

/-- What a layer reads for one composition: nothing (transparent), a stream picture, or a surface's front buffer. -/
def sourceSize (src : LayerSource) : Nat × Nat :=
  match src with
  | .empty => (0, 0)
  | .picture p => (p.w, p.h)
  | .surface rows => ((rows.getD 0 []).length, rows.length)

/-- A source pixel in the canvas encoding with its alpha (R36, R37). -/
def sourceAt (v : ViewParams) (d : List Byte) (src : LayerSource) (y x : Nat) : Pix × Nat :=
  match src with
  | .empty => ((0, 0, 0), 0)
  | .picture p => (colourPath v d (pictureAt p (lCentred d) y x), 65535)
  | .surface rows =>
    let q := (rows.getD y []).getD x ((0, 0, 0), 0)
    (colourPath v d q.1, q.2)

/-! ### Scaling (R38) -/

/-- Position of a destination index: source index and phase. -/
def scalePos (srcLen dstLen : Nat) (rel : Int) : Int × Nat :=
  let step : Int := (srcLen * 65536 / dstLen : Nat)
  let px := rel * step + ((step - 65536) >>> 1)
  (px >>> 16, ((px - (px >>> 16) * 65536) >>> 10).toNat)

/-- A scaled component of the layer at a canvas position; sel picks red, green, blue or alpha. -/
def scaled (bank : SMap Nat) (d : List Byte) (px : Nat → Nat → Nat) (xhi yhi i j : Int) (phx phy : Nat) : Nat :=
  let stepX := lSrcW d * 65536 / lDstW d
  let stepY := lSrcH d * 65536 / lDstH d
  let hrow (r : Nat) : Nat :=
    clip16 ((((List.range 8).map fun t =>
      coefH bank (lFilter d) stepX phx t * px r (clip3 (lSrcX d) xhi (i - 3 + t)).toNat).sum + 512) >>> 10)
  clip16 ((((List.range 6).map fun t =>
      coefV bank (lFilter d) stepY phy t * hrow (clip3 (lSrcY d) yhi (j - 2 + t)).toNat).sum + 512) >>> 10)

/-- The layer at canvas pixel (cx, cy): colour and source alpha, or nothing where it is transparent (R38, R42). -/
def layerPixel (v : ViewParams) (bank : SMap Nat) (d : List Byte) (src : LayerSource) (cx cy : Nat) : Option (Pix × Nat) :=
  let rx := (cx : Int) - lDstX d
  let ry := (cy : Int) - lDstY d
  if rx < 0 ∨ ry < 0 ∨ (lDstW d : Int) ≤ rx ∨ (lDstH d : Int) ≤ ry then none
  else if lType d = 3 then some ((lSolid d 0, lSolid d 1, lSolid d 2), if lPixelAlpha d then lSolid d 3 else 65535)
  else
    let sz := sourceSize src
    let xhi : Int := (min (lSrcX d + lSrcW d) sz.1 : Nat) - 1
    let yhi : Int := (min (lSrcY d + lSrcH d) sz.2 : Nat) - 1
    let hx := scalePos (lSrcW d) (lDstW d) rx
    let hy := scalePos (lSrcH d) (lDstH d) ry
    let i := (lSrcX d : Int) + hx.1
    let j := (lSrcY d : Int) + hy.1
    if xhi < lSrcX d ∨ yhi < lSrcY d ∨ xhi < i ∨ yhi < j then none
    else
      let comp (c : Nat) : Nat := scaled bank d (fun y x => getC (sourceAt v d src y x).1 c) xhi yhi i j hx.2 hy.2
      let al := if lPixelAlpha d then scaled bank d (fun y x => (sourceAt v d src y x).2) xhi yhi i j hx.2 hy.2 else 65535
      some ((comp 0, comp 1, comp 2), al)

/-! ### Blending (R34, R40) -/

def keyed (d : List Byte) (p : Pix) : Bool :=
  lKeyEn d && (List.range 3).all fun c => lKey d c ≤ getC p c && getC p c ≤ lKey d (3 + c)

def blend1 (a1 s d : Nat) : Nat := (s * a1 + d * (65536 - a1) + 32768) / 65536

/-- Blend a layer pixel over the accumulated colour (R40). -/
def blendLayer (d : List Byte) (acc : Pix) (px : Option (Pix × Nat)) : Pix :=
  match px with
  | none => acc
  | some (s, pa) =>
    if keyed d s then acc
    else
      let ga := lAlpha d
      let a := (pa * (ga + ga / 32768) + 32768) / 65536
      let a1 := a + a / 32768
      (blend1 a1 s.1 acc.1, blend1 a1 s.2.1 acc.2.1, blend1 a1 s.2.2 acc.2.2)

/-- One canvas pixel: the background, then the enabled layers in ascending slot order (R34). -/
def composePixel (v : ViewParams) (bank : SMap Nat) (srcs : List LayerSource) (cy cx : Nat) : Pix :=
  (v.layers.zip srcs).foldl (fun acc p =>
    if layerEnabled p.1 then blendLayer p.1 acc (layerPixel v bank p.1 p.2 cx cy) else acc) v.bg

def composeRow (v : ViewParams) (bank : SMap Nat) (srcs : List LayerSource) (cy : Nat) : List Pix :=
  (List.range v.w).map (composePixel v bank srcs cy)

def composeCanvas (v : ViewParams) (bank : SMap Nat) (srcs : List LayerSource) : List (List Pix) :=
  (List.range v.h).map (composeRow v bank srcs)

end Sys2Proof.Machine
end

