-- ==== Sys2Proof/Machine/Contour.lean ====
section
/-!
DEFINITION. Contour, to the bit: readers (R95 to R97), headers (R98 to R102, R105), the syntax of rows, cells and blocks
(R108 to R112), and the decoding process (R125 to R149).
-/

namespace Sys2Proof.Machine

/-! ### Geometry (R92, R93, R126) -/

def PicHdr.cellCols (h : PicHdr) : Nat := (h.w + 15) / 16
def PicHdr.cellRows (h : PicHdr) : Nat := (h.h + 15) / 16
def PicHdr.numSlices (h : PicHdr) : Nat := (h.cellRows + h.sliceRows - 1) / h.sliceRows
def PicHdr.numBlocks (h : PicHdr) : Nat := if h.c422 then 8 else 12
/-- Dc: depth of component c. -/
def PicHdr.dc (h : PicHdr) (c : Nat) : Nat := h.depth + if c = 0 then 0 else h.ct.toNat
def PicHdr.cellW (h : PicHdr) (c : Nat) : Nat := if h.c422 && c != 0 then 8 else 16
def PicHdr.planeW (h : PicHdr) (c : Nat) : Nat := if h.c422 && c != 0 then h.w / 2 else h.w
def PicHdr.mid (h : PicHdr) (c : Nat) : Nat := 2 ^ (h.dc c - 1)

/-- Component and top-left sample of block b within its cell area (R93). -/
def PicHdr.block (h : PicHdr) (b : Nat) : Nat × Nat × Nat :=
  if b < 4 then (0, 8 * (b % 2), 8 * (b / 2))
  else if h.c422 then (1 + (b - 4) / 2, 0, 8 * (b % 2))
  else (b / 4, 8 * (b % 2), 8 * (b % 4 / 2))

/-- Fresh coded planes. -/
def PicHdr.blank (h : PicHdr) : Planes :=
  (List.range 3).map fun c => List.replicate (16 * h.cellRows) (List.replicate (h.cellCols * h.cellW c) 0)

/-! ### Bits -/

abbrev Bits := List Bool

def byteBits (b : Byte) : Bits := (List.range 8).map fun i => b.getLsbD (7 - i)
def toBits (l : List Byte) : Bits := l.flatMap byteBits

def bitsVal (l : Bits) : Nat := l.foldl (fun a b => 2 * a + b.toNat) 0
/-- n bits of v, most significant first. -/
def bitsOf (n v : Nat) : Bits := (List.range n).map fun i => v / 2 ^ (n - 1 - i) % 2 == 1

def packBits : Nat → Bits → List Byte
  | 0, _ => []
  | n + 1, l => BitVec.ofNat 8 (bitsVal (l.take 8 ++ List.replicate (8 - (l.take 8).length) false)) :: packBits n (l.drop 8)

/-- Bits to bytes, the last filled with zero bits. -/
def toBytes (l : Bits) : List Byte := packBits ((l.length + 7) / 8) l

/-- u(n) (R95). -/
def rdU (n : Nat) (b : Bits) : Option (Nat × Bits) :=
  if b.length < n then none else some (bitsVal (b.take n), b.drop n)

def rdFlag (b : Bits) : Option (Bool × Bits) :=
  match b with
  | [] => none
  | x :: r => some (x, r)

/-- Leading zeros of an Exp-Golomb code, at most 31. -/
def rdZeros : Nat → Nat → Bits → Option (Nat × Bits)
  | 0, _, _ => none
  | _, _, [] => none
  | f + 1, n, b :: r => if b then some (n, r) else rdZeros f (n + 1) r

/-- ue() (R95). -/
def rdUe (b : Bits) : Option (Nat × Bits) :=
  (rdZeros 32 0 b).bind fun (lz, r) => (rdU lz r).map fun (v, r) => (2 ^ lz - 1 + v, r)

/-- Leading ones of a Rice code, at most 16. -/
def rdOnes : Nat → Nat → Bits → Option (Nat × Bits)
  | 0, n, b => some (n, b)
  | _, _, [] => none
  | f + 1, n, b :: r => if b then rdOnes f (n + 1) r else some (n, r)

/-- rice(k) (R95). -/
def rdRice (k : Nat) (b : Bits) : Option (Nat × Bits) :=
  (rdOnes 16 0 b).bind fun (q, r) =>
    if q < 16 then (rdU k r).map fun (v, r) => (q * 2 ^ k + v, r)
    else (rdUe r).map fun (v, r) => (16 * 2 ^ k + v, r)

/-- S(k) (R96). -/
def sCode (k : Nat) : Int := if k % 2 = 1 then ((k + 1) / 2 : Nat) else -((k / 2 : Nat) : Int)

/-- A number of n bits in two's complement. -/
def sBits (n v : Nat) : Int := signed n v

/-! ### Headers -/

/-- Fields of the picture header, whatever their ranges (R101). -/
def headerFields (b : List Byte) : PicHdr :=
  let f (o lo n : Nat) : Nat := bits (beAt b o 1) lo n
  { ptype := f 2 2 2, isRef := f 2 1 1 == 1, anchorLoad := f 2 0 1 == 1, anchorRef := f 3 7 1 == 1, ct := f 3 6 1 == 1,
    c422 := f 3 5 1 == 1, ts := f 3 4 1 == 1, qpDelta := f 3 3 1 == 1, depth := f 4 4 4 + 8, colour := f 4 2 2,
    hint := f 4 0 2, number := beAt b 5 2, w := beAt b 7 2 + 1, h := beAt b 9 2 + 1, sliceRows := f 11 2 6 + 1 }

/-- The verdict on a picture header (R449). -/
inductive HdrCheck where
  | ok (h : PicHdr)
  | startCode | crc | version | range
deriving DecidableEq, Repr

def checkHeader (b : List Byte) : HdrCheck :=
  let h := headerFields b
  if beAt b 0 2 ≠ 0xC0E1 then .startCode
  else if crc32c (b.take 16) ≠ beAt b 16 4 then .crc
  else if beAt b 2 1 / 16 ≠ 1 then .version
  else if 1 < h.ptype ∨ (h.ptype = 0 ∧ h.anchorRef) ∨ (h.c422 ∧ (h.ct ∨ h.w % 2 = 1)) ∨ 16 < h.depth ∨ h.w < 16 ∨
      32768 < h.w ∨ h.h < 16 ∨ 16384 < h.h then .range
  else .ok h

/-- A slice header (R105): index, first row, rows, length. -/
structure SliceHdr where
  index : Nat
  firstRow : Nat
  rows : Nat
  length : Nat
deriving DecidableEq, Repr

/-- A slice header that R105 allows after the slice of index prev; left: bytes from it to the end of the AU. -/
def checkSlice (h : PicHdr) (b : List Byte) (prev : Option Nat) (left : Nat) : Option SliceHdr :=
  let v := beAt b 3 5
  let s : SliceHdr := ⟨v / 2 ^ 30, v / 2 ^ 20 % 1024, v / 2 ^ 14 % 64 + 1, beAt b 8 4⟩
  let above := match prev with
    | none => true
    | some p => decide (p < s.index)
  if beAt b 0 2 = 0xC51C ∧ beAt b 2 1 = h.number % 256 ∧ s.index < h.numSlices ∧ above = true ∧
      s.firstRow = s.index * h.sliceRows ∧ s.rows = min h.sliceRows (h.cellRows - s.firstRow) ∧ 17 ≤ s.length ∧
      s.length ≤ left then some s else none

/-! ### Blocks (R112, R129 to R136) -/

/-- Scan position of array position (u, v) (R129). -/
def scanTable : List (List Nat) :=
  [[0, 2, 5, 9, 14, 20, 27, 35], [1, 4, 8, 13, 19, 26, 34, 42], [3, 7, 12, 18, 25, 33, 41, 48],
   [6, 11, 17, 24, 32, 40, 47, 53], [10, 16, 23, 31, 39, 46, 52, 57], [15, 22, 30, 38, 45, 51, 56, 60],
   [21, 29, 37, 44, 50, 55, 59, 62], [28, 36, 43, 49, 54, 58, 61, 63]]
def scanPos (u v : Nat) : Nat := (scanTable.getD v []).getD u 0

/-- Coefficients as (scan position, level), in scan order. -/
abbrev Coefs := List (Nat × Int)

def kInit (rowQp : Nat) : Nat := (clip3 0 4 (Int.tdiv (36 - rowQp) 9)).toNat

/-- riceK after a level_minus1 of v (R131). -/
def riceNext (k v : Nat) : Nat :=
  if 3 * 2 ^ k < v then min 15 (k + 1) else if 0 < k ∧ 2 * v < 2 ^ k then k - 1 else k

def kEnd (kstate riceK : Nat) : Nat := (kstate + riceK + 1) / 2

/-- n coefficients from scan position pos on; answers them and the last riceK (R112). -/
def rdCoefs : Nat → Int → Nat → Bits → Option (Coefs × Nat × Bits)
  | 0, _, k, b => some ([], k, b)
  | n + 1, pos, k, b =>
    (rdUe b).bind fun (run, b) =>
      let p := pos + run + 1
      if 63 < p then none
      else
        (rdRice k b).bind fun (v, b) =>
          if 2 ^ 24 - 1 < v + 1 then none
          else
            (rdFlag b).bind fun (neg, b) =>
              (rdCoefs n p (riceNext k v) b).map fun (r, k', b) =>
                ((p.toNat, if neg then -((v : Int) + 1) else (v : Int) + 1) :: r, k', b)

/-- A coded block under Rice state ks; answers its coefficients and the new state. -/
def rdBlock (ks : Nat) (b : Bits) : Option (Coefs × Nat × Bits) :=
  (rdUe b).bind fun (nz, b) =>
    if 63 < nz then none else (rdCoefs (nz + 1) (-1) ks b).map fun (c, k, b) => (c, kEnd ks k, b)

def levelAt (c : Coefs) (pos : Nat) : Int := ((c.find? (·.1 == pos)).map (·.2)).getD 0

/-- An 8 × 8 block as rows. -/
abbrev Block := List (List Int)

def mkBlock (f : Nat → Nat → Int) : Block := (List.range 8).map fun y => (List.range 8).map fun x => f y x
def blockAt (b : Block) (y x : Nat) : Int := (b.getD y []).getD x 0

def levelScale (q : Nat) : Nat := [16, 18, 20, 23, 25, 29].getD (q % 6) 16 * 2 ^ (q / 6)

def signOf (x : Int) : Int := if x < 0 then -1 else if x = 0 then 0 else 1

/-- Dequantisation of a transform or FLOOR level (R133). -/
def dequant (l : Int) (q dc : Nat) : Int := signOf l * (min (l.natAbs * levelScale q / 8) (2 ^ (dc + 6) - 1) : Nat)

/-- T[k][n] (R134). -/
def tMatrix : List (List Int) :=
  [[32, 32, 32, 32, 32, 32, 32, 32], [44, 38, 25, 9, -9, -25, -38, -44], [42, 17, -17, -42, -42, -17, 17, 42],
   [38, -9, -44, -25, 25, 44, 9, -38], [32, -32, -32, 32, 32, -32, -32, 32], [25, -44, 9, 38, -38, -9, 44, -25],
   [17, -42, 42, -17, -17, 42, -42, 17], [9, -25, 38, -44, 44, -38, 25, -9]]
def tAt (k n : Nat) : Int := (tMatrix.getD k []).getD n 0

def sum8 (f : Nat → Int) : Int := ((List.range 8).map f).sum

/-- The inverse transform with its two clipping points (R135). -/
def inverseT (dc : Nat) (d : Block) : Block :=
  let m : Int := 2 ^ (dc + 6) - 1
  let g := mkBlock fun y u => clip3 (-m) m ((sum8 (fun v => tAt v y * blockAt d v u) + 128) >>> 8)
  mkBlock fun y x => clip3 (-(2 ^ dc)) (2 ^ dc - 1) ((sum8 (fun u => tAt u x * blockAt g y u) + 128) >>> 8)

/-- The residual of a coded block: transform (R133, R135) or transform skip (R136). -/
def residual (skip : Bool) (cellQp dc : Nat) (c : Coefs) : Block :=
  if skip then
    mkBlock fun v u =>
      let l := levelAt c (scanPos u v)
      clip3 (-(2 ^ dc)) (2 ^ dc - 1) (signOf l * (l.natAbs * levelScale cellQp / 16 : Nat))
  else inverseT dc (mkBlock fun v u => dequant (levelAt c (scanPos u v)) (cellQp + 6 * (dc - 8)) dc)

/-- The flat residual block of a floor level (R142). -/
def floorResidual (l : Int) (dc : Nat) : Block :=
  inverseT dc (mkBlock fun v u => if v = 0 ∧ u = 0 then dequant l (63 + 6 * (dc - 8)) dc else 0)

/-! ### Planes -/

def planeOf (p : Planes) (c : Nat) : List (List Nat) := p.getD c []

/-- Put rows of samples at (x0, y0) of a plane. -/
def putRows (pl : List (List Nat)) (y0 x0 : Nat) (rows : List (List Nat)) : List (List Nat) :=
  match rows with
  | [] => pl
  | r :: t => putRows (pl.set y0 (let l := pl.getD y0 []; l.take x0 ++ r ++ l.drop (x0 + r.length))) (y0 + 1) x0 t

def putBlock (p : Planes) (c y0 x0 : Nat) (rows : List (List Nat)) : Planes := p.set c (putRows (planeOf p c) y0 x0 rows)

/-- A sample of a reference slot's plane with the edge padding of R140. -/
def slotAt (p : Picture) (c : Nat) (y x : Int) : Nat := clampAt (p.planes.getD c []) y x

/-! ### Prediction (R137 to R140) -/

/-- Top and left neighbours of the block at (x0, y0), substituted (R138); ymin: first row of the slice. -/
def neighbours (pl : List (List Nat)) (mid ymin y0 x0 : Nat) : List Nat × List Nat :=
  let top := (List.range 8).map fun i => rowAt pl (y0 - 1) (x0 + i)
  let left := (List.range 8).map fun j => rowAt pl (y0 + j) (x0 - 1)
  let hasTop := decide (ymin < y0)
  let hasLeft := decide (0 < x0)
  if hasTop && hasLeft then (top, left)
  else if hasTop then (top, List.replicate 8 (top.getD 0 0))
  else if hasLeft then (List.replicate 8 (left.getD 0 0), left)
  else (List.replicate 8 mid, List.replicate 8 mid)

/-- The four predictors (R139). -/
def predictor (mode : Nat) (n : List Nat × List Nat) : List (List Nat) :=
  let top := n.1
  let left := n.2
  let t7 := top.getD 7 0
  let l7 := left.getD 7 0
  (List.range 8).map fun y => (List.range 8).map fun x =>
    if mode = 0 then (top.sum + left.sum + 8) / 16
    else if mode = 1 then left.getD y 0
    else if mode = 2 then top.getD x 0
    else ((7 - x) * left.getD y 0 + (x + 1) * t7 + (7 - y) * top.getD x 0 + (y + 1) * l7 + 8) / 16

def intraPred (h : PicHdr) (p : Planes) (c ymin y0 x0 mode : Nat) : List (List Nat) :=
  predictor mode (neighbours (planeOf p c) (h.mid c) ymin y0 x0)

/-- The cell prediction of component c from a slot under a vector (R140). -/
def interPred (h : PicHdr) (ref : Picture) (c r cx : Nat) (mx my : Int) : List (List Nat) :=
  let ox := if h.c422 && c != 0 then mx / 2 else mx
  (List.range 16).map fun y => (List.range (h.cellW c)).map fun x =>
    slotAt ref c ((16 * r + y : Nat) + my) ((cx * h.cellW c + x : Nat) + ox)

/-- Add a residual and clip (R144). -/
def addRes (dc : Nat) (pred : List (List Nat)) (res : Block) : List (List Nat) :=
  (List.range 8).map fun y => (List.range 8).map fun x =>
    (clip3 0 (2 ^ dc - 1) ((pred.getD y []).getD x 0 + blockAt res y x)).toNat

def subBlock (rows : List (List Nat)) (y0 x0 : Nat) : List (List Nat) := ((rows.drop y0).take 8).map fun r => (r.drop x0).take 8

/-! ### Cells (R109, R110) -/

/-- A coded block: transform_skip_flag and coefficients; none: its pattern bit is clear. -/
abbrev CodedBlock := Option (Bool × Coefs)

inductive Cell where
  | skip
  | floor (levels : List Int)
  | intra (qp : Nat) (luma : List Nat) (chroma : Nat) (blocks : List CodedBlock)
  | inter (qp : Nat) (anchor : Bool) (mx my : Int) (blocks : List CodedBlock)
deriving DecidableEq, Repr

/-- n unsigned elements of w bits. -/
def rdMany (w : Nat) : Nat → Bits → Option (List Nat × Bits)
  | 0, b => some ([], b)
  | n + 1, b => (rdU w b).bind fun (v, b) => (rdMany w n b).map fun (l, b) => (v :: l, b)

def rdFloor (n : Nat) (b : Bits) : Option (List Int × Bits) := (rdMany 4 n b).map fun (l, b) => (l.map (sBits 4), b)

/-- The blocks of a cell from index i, under the two Rice states. -/
def rdBlocks (ts : Bool) (cbp : Nat) (num : Nat) : Nat → Nat × Nat → Bits → Option (List CodedBlock × (Nat × Nat) × Bits)
  | 0, ks, b => some ([], ks, b)
  | n + 1, ks, b =>
    let i := num - (n + 1)
    if bit cbp n then
      (if ts then rdFlag b else some (false, b)).bind fun (sk, b) =>
        let luma := decide (i < 4)
        (rdBlock (if luma then ks.1 else ks.2) b).bind fun (c, k, b) =>
          (rdBlocks ts cbp num n (if luma then (k, ks.2) else (ks.1, k)) b).map fun (l, ks, b) => (some (sk, c) :: l, ks, b)
    else (rdBlocks ts cbp num n ks b).map fun (l, ks, b) => (none :: l, ks, b)

/-- Mode codes of R110: 0 SKIP, 1 INTER, 2 INTRA, 3 FLOOR. -/
def rdMode (p : Bool) (b : Bits) : Option (Nat × Bits) :=
  match p, b with
  | false, x :: r => some (if x then 2 else 3, r)
  | true, true :: r => some (0, r)
  | true, false :: true :: r => some (1, r)
  | true, false :: false :: x :: r => some (if x then 2 else 3, r)
  | _, _ => none

def cellQp (rowQp : Nat) (delta : Int) : Nat := (clip3 0 63 (rowQp + delta)).toNat

/-- One cell of a NORMAL row; pmv is the vector predictor (R111). -/
def rdCell (h : PicHdr) (rowQp : Nat) (pmv : Int × Int) (ks : Nat × Nat) (b : Bits) : Option (Cell × (Nat × Nat) × Bits) :=
  (rdMode (h.ptype == 1) b).bind fun (mode, b) =>
    if mode = 0 then some (.skip, ks, b)
    else if mode = 3 then (rdFloor h.numBlocks b).map fun (l, b) => (.floor l, ks, b)
    else
      (if h.qpDelta then (rdU 4 b).map fun (v, b) => (sBits 4 v, b) else some (0, b)).bind fun (dq, b) =>
        let qp := cellQp rowQp dq
        if mode = 2 then
          (rdMany 2 4 b).bind fun (luma, b) => (rdU 2 b).bind fun (cm, b) => (rdU h.numBlocks b).bind fun (cbp, b) =>
            (rdBlocks h.ts cbp h.numBlocks h.numBlocks ks b).map fun (bl, ks, b) => (.intra qp luma cm bl, ks, b)
        else
          (if h.anchorRef then rdFlag b else some (false, b)).bind fun (anc, b) =>
            (rdUe b).bind fun (kx, b) => (rdUe b).bind fun (ky, b) =>
              let mx := pmv.1 + sCode kx
              let my := pmv.2 + sCode ky
              if 256 < kx ∨ 128 < ky ∨ mx < -64 ∨ 64 < mx ∨ my < -32 ∨ 32 < my ∨ (h.c422 ∧ mx % 2 ≠ 0) then none
              else
                (rdU h.numBlocks b).bind fun (cbp, b) =>
                  (rdBlocks h.ts cbp h.numBlocks h.numBlocks ks b).map fun (bl, ks, b) => (.inter qp anc mx my bl, ks, b)

def cellVector (c : Cell) : Int × Int :=
  match c with
  | .inter _ _ mx my _ => (mx, my)
  | _ => (0, 0)

/-! ### Reconstruction (R128, R140 to R145) -/

/-- A picture in reconstruction: its planes, and what it read: PREV, ANCHOR, a missing slot (R145, R148). -/
structure Recon where
  planes : Planes
  readPrev : Bool
  readAnchor : Bool
  missing : Bool
deriving DecidableEq, Repr

def geometryMatches (h : PicHdr) (p : Picture) : Bool :=
  p.w == h.w && p.h == h.h && p.depth.getD 0 0 == h.depth && (p.chroma == 1) == h.c422 && p.transform == h.ct

/-- A slot whose geometry differs counts as missing (R104). -/
def usable (h : PicHdr) (s : Option Picture) : Option Picture :=
  match s with
  | some p => if geometryMatches h p then some p else none
  | none => none

def blockResidual (h : PicHdr) (qp c : Nat) (b : CodedBlock) : Block :=
  match b with
  | none => mkBlock fun _ _ => 0
  | some (sk, co) => residual sk qp (h.dc c) co

/-- Intra blocks i onward of a cell, each predicted from what precedes it. -/
def putIntra (h : PicHdr) (ymin r cx qp : Nat) (luma : List Nat) (cm : Nat) (bl : List CodedBlock) (i : Nat) (p : Planes) : Planes :=
  match bl with
  | [] => p
  | b :: t =>
    let (c, bx, by_) := h.block i
    let x0 := cx * h.cellW c + bx
    let y0 := 16 * r + by_
    let pred := intraPred h p c ymin y0 x0 (if i < 4 then luma.getD i 0 else cm)
    putIntra h ymin r cx qp luma cm t (i + 1) (putBlock p c y0 x0 (addRes (h.dc c) pred (blockResidual h qp c b)))

/-- Floor blocks i onward of a cell (R142). -/
def putFloor (h : PicHdr) (ymin r cx : Nat) (l : List Int) (i : Nat) (p : Planes) : Planes :=
  match l with
  | [] => p
  | v :: t =>
    let (c, bx, by_) := h.block i
    let x0 := cx * h.cellW c + bx
    let y0 := 16 * r + by_
    putFloor h ymin r cx t (i + 1)
      (putBlock p c y0 x0 (addRes (h.dc c) (intraPred h p c ymin y0 x0 0) (floorResidual v (h.dc c))))

def putCell (h : PicHdr) (p : Planes) (r cx : Nat) (rows : Nat → List (List Nat)) : Planes :=
  (List.range 3).foldl (fun p c => putBlock p c (16 * r) (cx * h.cellW c) (rows c)) p

/-- Inter blocks i onward: the cell's prediction plus each block's residual. -/
def putInter (h : PicHdr) (preds : List (List (List Nat))) (r cx qp : Nat) (bl : List CodedBlock) (i : Nat) (p : Planes) : Planes :=
  match bl with
  | [] => p
  | b :: t =>
    let (c, bx, by_) := h.block i
    putInter h preds r cx qp t (i + 1)
      (putBlock p c (16 * r + by_) (cx * h.cellW c + bx)
        (addRes (h.dc c) (subBlock (preds.getD c []) by_ bx) (blockResidual h qp c b)))

def midCell (h : PicHdr) (p : Planes) (r cx : Nat) : Planes :=
  putCell h p r cx fun c => List.replicate 16 (List.replicate (h.cellW c) (h.mid c))

def skipCell (h : PicHdr) (prev : Option Picture) (r cx : Nat) (x : Recon) : Recon :=
  match prev with
  | some ref => { x with planes := putCell h x.planes r cx fun c => interPred h ref c r cx 0 0, readPrev := true }
  | none => { x with planes := midCell h x.planes r cx, missing := true }

def putOne (h : PicHdr) (prev anchor : Option Picture) (ymin r cx : Nat) (cell : Cell) (x : Recon) : Recon :=
  match cell with
  | .skip => skipCell h prev r cx x
  | .floor l => { x with planes := putFloor h ymin r cx l 0 x.planes }
  | .intra qp luma cm bl => { x with planes := putIntra h ymin r cx qp luma cm bl 0 x.planes }
  | .inter qp anc mx my bl =>
    let go (ref : Picture) : Planes :=
      putInter h ((List.range 3).map fun c => interPred h ref c r cx mx my) r cx qp bl 0 x.planes
    match anc, anchor, prev with
    | true, some ref, _ => { x with planes := go ref, readAnchor := true }
    | true, none, some ref => { x with planes := go ref, readPrev := true, missing := true }
    | false, _, some ref => { x with planes := go ref, readPrev := true }
    | _, _, none => { x with planes := midCell h x.planes r cx, missing := true }

/-- Cells cx onward of a NORMAL row. -/
def rdCells (h : PicHdr) (prev anchor : Option Picture) (ymin r rowQp : Nat) :
    Nat → Int × Int → Nat × Nat → Bits → Recon → Option (Recon × Bits)
  | 0, _, _, b, x => some (x, b)
  | n + 1, pmv, ks, b, x =>
    (rdCell h rowQp pmv ks b).bind fun (cell, ks, b) =>
      rdCells h prev anchor ymin r rowQp n (cellVector cell) ks b (putOne h prev anchor ymin r (h.cellCols - (n + 1)) cell x)

/-- Cells of a FLOOR_ROW. -/
def rdFloors (h : PicHdr) (ymin r : Nat) : Nat → Bits → Recon → Option (Recon × Bits)
  | 0, b, x => some (x, b)
  | n + 1, b, x =>
    (rdFloor h.numBlocks b).bind fun (l, b) =>
      rdFloors h ymin r n b { x with planes := putFloor h ymin r (h.cellCols - (n + 1)) l 0 x.planes }

/-- A REPEAT_ROW row (R143). -/
def repeatRow (h : PicHdr) (prev : Option Picture) (r : Nat) (x : Recon) : Recon :=
  (List.range h.cellCols).foldl (fun x cx => skipCell h prev r cx x) x

/-- One cell row (R108). -/
def rdRow (h : PicHdr) (prev anchor : Option Picture) (ymin r : Nat) (b : Bits) (x : Recon) : Option (Recon × Bits) :=
  (rdU 2 b).bind fun (mode, b) =>
    if mode = 0 then
      (rdU 6 b).bind fun (qp, b) => rdCells h prev anchor ymin r qp h.cellCols (0, 0) (kInit qp, kInit qp) b x
    else if mode = 1 then some (repeatRow h prev r x, b)
    else if mode = 2 then rdFloors h ymin r h.cellCols b x
    else none

def rdRows (h : PicHdr) (prev anchor : Option Picture) (first : Nat) : Nat → Nat → Bits → Recon → Option (Recon × Bits)
  | 0, _, b, x => some (x, b)
  | n + 1, r, b, x => (rdRow h prev anchor (16 * first) r b x).bind fun (x, b) => rdRows h prev anchor first n (r + 1) b x

/-- Decode a slice whose header and CRC hold; none: an element is out of range, or the data do not end at the CRC. -/
def decodeSlice (h : PicHdr) (prev anchor : Option Picture) (s : SliceHdr) (b : List Byte) (x : Recon) : Option Recon :=
  match rdRows h (usable h prev) (usable h anchor) s.firstRow s.rows s.firstRow
      (toBits ((b.take (s.length - 4)).drop 12)) x with
  | none => none
  | some (x, rest) => if rest.length < 8 && rest.all (!·) then some x else none

/-- The CRC of a slice of its length (R106). -/
def sliceCrcOk (s : SliceHdr) (b : List Byte) : Bool := crc32c (b.take (s.length - 4)) == beAt b (s.length - 4) 4

/-! ### Output and reference slots (R146, R147) -/

/-- The component-domain picture that a slot holds. -/
def toSlot (h : PicHdr) (p : Planes) : Picture :=
  { w := h.w, h := h.h, depth := (List.range 3).map h.dc, chroma := if h.c422 then 1 else 2, transform := h.ct,
    planes := (List.range 3).map fun c => ((planeOf p c).take h.h).map fun r => r.take (h.planeW c) }

/-- The inverse colour transform of one triple (R146). -/
def inverseCt (b y co cg : Nat) : Pix :=
  let co : Int := co - 2 ^ b
  let cg : Int := cg - 2 ^ b
  let t : Int := y - (cg >>> 1)
  let bl := t - (co >>> 1)
  let cl (v : Int) : Nat := (clip3 0 (2 ^ b - 1) v).toNat
  (cl (bl + co), cl (cg + t), cl bl)

/-- The output picture of a slot's planes. -/
def outputOf (p : Picture) : Picture :=
  if p.transform then
    let b := p.depth.getD 0 8
    let at_ (y x : Nat) : Pix :=
      inverseCt b (rowAt (p.planes.getD 0 []) y x) (rowAt (p.planes.getD 1 []) y x) (rowAt (p.planes.getD 2 []) y x)
    { p with depth := [b, b, b], transform := false, planes := (List.range 3).map fun c =>
        (List.range p.h).map fun y => (List.range p.w).map fun x => getC (at_ y x) c }
  else p

end Sys2Proof.Machine
end

