-- ==== Sys2Proof/Machine/ContourEnc.lean ====
section
/-!
DEFINITION. The sheet encoder: prepared input (R156), mode decision and motion search (R157, R158), forward coding (R159),
row-budget rate control (R160 to R165) and slices (R166).
-/

namespace Sys2Proof.Machine

/-! ### Writing bits (R95, R96, R112) -/

def putUe (v : Nat) : Bits := List.replicate (Nat.log2 (v + 1)) false ++ bitsOf (Nat.log2 (v + 1) + 1) (v + 1)
def ueLen (v : Nat) : Nat := 2 * Nat.log2 (v + 1) + 1
/-- The code of a signed value. -/
def sInv (v : Int) : Nat := if 0 < v then (2 * v - 1).toNat else (-2 * v).toNat

def putRice (k v : Nat) : Bits :=
  let q := v / 2 ^ k
  if q < 16 then List.replicate q true ++ [false] ++ bitsOf k (v % 2 ^ k)
  else List.replicate 16 true ++ putUe (v - 16 * 2 ^ k)

def putCoefs (prev : Int) (k : Nat) (c : Coefs) : Bits × Nat :=
  match c with
  | [] => ([], k)
  | (p, l) :: r =>
    let v := l.natAbs - 1
    let t := putCoefs p (riceNext k v) r
    (putUe ((p : Int) - prev - 1).toNat ++ putRice k v ++ [decide (l < 0)] ++ t.1, t.2)

/-- The coefficient elements of a coded block under Rice state ks, and the new state. -/
def putBlockBits (ks : Nat) (c : Coefs) : Bits × Nat :=
  let t := putCoefs (-1) ks c
  (putUe (c.length - 1) ++ t.1, kEnd ks t.2)

/-! ### Prepared input (R156) -/

/-- The forward YCoCg-R transform (R146). -/
def forwardCt (b : Nat) (p : Pix) : Pix :=
  let co : Int := (p.1 : Int) - p.2.2
  let t : Int := p.2.2 + (co >>> 1)
  let cg : Int := p.2.1 - t
  ((t + (cg >>> 1)).toNat, (co + 2 ^ b).toNat, (cg + 2 ^ b).toNat)

def subsample (a : List Nat) : List Nat :=
  (List.range (a.length / 2)).map fun i => (a.getD (2 * i - 1) 0 + 2 * a.getD (2 * i) 0 + a.getD (2 * i + 1) 0 + 2) / 4

/-- Repeat the last element to n elements. -/
def padTo {α : Type} (n : Nat) (d : α) (l : List α) : List α := l ++ List.replicate (n - l.length) (l.getLast?.getD d)

/-- The prepared source: three planes of the coded area. -/
def prepare (h : PicHdr) (rows : List (List Pix)) : Planes :=
  let rows := rows.map fun r => r.map fun p => if h.ct then forwardCt h.depth p else p
  (List.range 3).map fun c =>
    padTo (16 * h.cellRows) [] (rows.map fun r =>
      let l := r.map fun p => getC p c
      padTo (h.cellCols * h.cellW c) 0 (if h.c422 && c != 0 then subsample l else l))

/-! ### Activity (R165) -/

def ceilLog2 (n : Nat) : Nat := if n ≤ 1 then 0 else Nat.log2 (n - 1) + 1

def blockActivity (rows : List (List Nat)) : Nat :=
  let l := rows.flatten
  let m := (l.sum + 32) / 64
  (l.map fun x => (x - m) + (m - x)).sum

def cellActivity (src : Planes) (r cx : Nat) : Nat :=
  ([(0, 0), (0, 8), (8, 0), (8, 8)].map fun q =>
    blockActivity (subBlock (planeOf src 0) (16 * r + q.1) (16 * cx + q.2))).sum

def rowActivity (h : PicHdr) (src : Planes) (r : Nat) : Nat :=
  min 0xFFFFFFFF ((List.range h.cellCols).map (cellActivity src r)).sum

/-! ### Forward coding (R159) -/

def sadRows (a b : List (List Nat)) : Nat :=
  ((a.zip b).map fun p => ((p.1.zip p.2).map fun q => (q.1 - q.2) + (q.2 - q.1)).sum).sum

/-- The exact forward transform F[v][u]. -/
def forwardT (r : Block) : Block :=
  let g := mkBlock fun y u => sum8 fun x => tAt u x * blockAt r y x
  mkBlock fun v u => sum8 fun y => tAt v y * blockAt g y u

/-- Quantise an array with step unit, offset 1/o and scale, in scan order; zeros dropped. -/
def quantise (a : Block) (o scale unit : Nat) : Coefs :=
  let all := (List.range 64).flatMap fun pos =>
    (List.range 8).flatMap fun v => (List.range 8).filterMap fun u =>
      if scanPos u v = pos then
        let x := blockAt a v u
        let m := min ((o * scale * x.natAbs + unit) / (o * unit)) (2 ^ 24 - 1)
        if m = 0 then none else some (pos, signOf x * (m : Int))
      else none
  all

/-- Code one block against its prediction: the coded block, and the Rice state after it. -/
def codeBlock (h : PicHdr) (tsQp ks : Nat) (src : Planes) (c y0 x0 : Nat) (pred : List (List Nat)) (cqp : Nat)
    (inter : Bool) : CodedBlock × Nat :=
  let s := subBlock (planeOf src c) y0 x0
  let res := mkBlock fun y x => ((s.getD y []).getD x 0 : Int) - (pred.getD y []).getD x 0
  let o := if inter then 6 else 3
  let tr := quantise (forwardT res) o 1 (128 * levelScale (cqp + 6 * (h.dc c - 8)))
  let one (sk : Bool) (co : Coefs) : Nat × CodedBlock × Nat :=
    if co.isEmpty then (0, none, ks)
    else let b := putBlockBits ks co; (b.1.length, some (sk, co), b.2)
  let a := one false tr
  if h.ts && decide (cqp ≤ tsQp) then
    let b := one true (quantise res o 16 (levelScale cqp))
    if b.1 < a.1 then b.2 else a.2
  else a.2

/-! ### INTRA (R157) -/

structure Coding where
  planes : Planes
  ks : Nat × Nat
  sad : Nat
  blocks : List CodedBlock
deriving DecidableEq, Repr

/-- Predict, code and reconstruct block i under a predictor mode. -/
def codeIntraBlock (h : PicHdr) (tsQp : Nat) (src : Planes) (ymin r cx cqp i mode : Nat) (x : Coding) : Coding :=
  let (c, bx, by_) := h.block i
  let x0 := cx * h.cellW c + bx
  let y0 := 16 * r + by_
  let pred := intraPred h x.planes c ymin y0 x0 mode
  let b := codeBlock h tsQp (if i < 4 then x.ks.1 else x.ks.2) src c y0 x0 pred cqp false
  { planes := putBlock x.planes c y0 x0 (addRes (h.dc c) pred (blockResidual h cqp c b.1))
    ks := if i < 4 then (b.2, x.ks.2) else (x.ks.1, b.2)
    sad := x.sad + sadRows (subBlock (planeOf src c) y0 x0) pred
    blocks := x.blocks ++ [b.1] }

/-- The mode of lowest SAD for luma block i, ties to the lower number. -/
def bestLuma (h : PicHdr) (src : Planes) (ymin r cx i : Nat) (p : Planes) : Nat :=
  let (c, bx, by_) := h.block i
  let s := subBlock (planeOf src c) (16 * r + by_) (cx * h.cellW c + bx)
  let sad (m : Nat) : Nat := sadRows s (intraPred h p c ymin (16 * r + by_) (cx * h.cellW c + bx) m)
  [1, 2, 3].foldl (fun b m => if sad m < sad b then m else b) 0

def codeLuma (h : PicHdr) (tsQp : Nat) (src : Planes) (ymin r cx cqp : Nat) (x : Coding) : Coding × List Nat :=
  [0, 1, 2, 3].foldl (fun a i =>
    let m := bestLuma h src ymin r cx i a.1.planes
    (codeIntraBlock h tsQp src ymin r cx cqp i m a.1, a.2 ++ [m])) (x, [])

def codeChroma (h : PicHdr) (tsQp : Nat) (src : Planes) (ymin r cx cqp mode : Nat) (x : Coding) : Coding :=
  (rangeFrom 4 (h.numBlocks - 4)).foldl (fun a i => codeIntraBlock h tsQp src ymin r cx cqp i mode a) x

/-- The INTRA coding of a cell: its coding, luma modes and chroma mode. -/
def codeIntra (h : PicHdr) (tsQp : Nat) (src : Planes) (ymin r cx cqp : Nat) (p : Planes) (ks : Nat × Nat) :
    Coding × List Nat × Nat :=
  let l := codeLuma h tsQp src ymin r cx cqp ⟨p, ks, 0, []⟩
  let m0 := codeChroma h tsQp src ymin r cx cqp 0 l.1
  let best := [1, 2, 3].foldl (fun (b : Coding × Nat) m =>
    let c := codeChroma h tsQp src ymin r cx cqp m l.1
    if c.sad < b.1.sad then (c, m) else b) (m0, 0)
  (best.1, l.2, best.2)

/-! ### INTER (R157, R158) -/

/-- Rank of a candidate vector: J_0, slot, |x| + |y|, y, then x (log 17). -/
structure Cand where
  cost : Nat
  slot : Nat
  mx : Int
  my : Int
deriving DecidableEq, Repr

def Cand.key (c : Cand) : List Int := [c.cost, c.slot, c.mx.natAbs + c.my.natAbs, c.my, c.mx]

def lexLt (a b : List Int) : Bool :=
  match a, b with
  | x :: r, y :: t => if x < y then true else if y < x then false else lexLt r t
  | _, _ => false

def bestOf (l : List Cand) : Option Cand :=
  l.foldl (fun b c => match b with
    | none => some c
    | some d => if lexLt c.key d.key then some c else b) none

def lambda (rowQp depth : Nat) : Nat := levelScale (rowQp + 6 * (depth - 8)) / 8

def vectorBits (h : PicHdr) (pmv : Int × Int) (mx my : Int) : Nat :=
  2 + ueLen (sInv (mx - pmv.1)) + ueLen (sInv (my - pmv.2)) + h.anchorRef.toNat

def cand0 (h : PicHdr) (src : Planes) (ref : Picture) (slot lam r cx : Nat) (pmv : Int × Int) (mx my : Int) : Cand :=
  let s := ((planeOf src 0).drop (16 * r)).take 16 |>.map fun l => (l.drop (16 * cx)).take 16
  ⟨sadRows s (interPred h ref 0 r cx mx my) + lam * vectorBits h pmv mx my / 16, slot, mx, my⟩

def inRange (h : PicHdr) (v : Int × Int) : Bool :=
  -64 ≤ v.1 && v.1 ≤ 64 && -32 ≤ v.2 && v.2 ≤ 32 && (!h.c422 || v.1 % 2 == 0)

/-- The search over one slot. -/
def searchSlot (h : PicHdr) (src : Planes) (ref : Picture) (slot lam r cx : Nat) (pmv : Int × Int) (me : Bool) : Option Cand :=
  let f := cand0 h src ref slot lam r cx pmv
  if me then
    let coarse := (List.range 33).flatMap fun (i : Nat) => (List.range 17).map fun (j : Nat) => f (4 * (i : Int) - 64) (4 * (j : Int) - 32)
    let a := bestOf coarse
    let b := bestOf (coarse.filter fun c => some c != a)
    let starts := ((a.toList ++ b.toList).map fun c => (c.mx, c.my)) ++ [pmv]
    let vs := starts.flatMap fun s => (List.range 7).flatMap fun (i : Nat) => (List.range 7).map fun (j : Nat) =>
      (s.1 + ((i : Int) - 3), s.2 + ((j : Int) - 3))
    bestOf ((vs.filter (inRange h)).map fun v => f v.1 v.2)
  else some (f 0 0)

def cellSad (h : PicHdr) (src : Planes) (r cx : Nat) (pred : Nat → List (List Nat)) : Nat :=
  ((List.range 3).map fun c =>
    sadRows (((planeOf src c).drop (16 * r)).take 16 |>.map fun l => (l.drop (cx * h.cellW c)).take (h.cellW c)) (pred c)).sum

/-- Code the blocks of an INTER cell against its prediction. -/
def codeInter (h : PicHdr) (tsQp : Nat) (src : Planes) (ref : Picture) (r cx cqp : Nat) (mx my : Int) (p : Planes)
    (ks : Nat × Nat) : Coding :=
  let preds := (List.range 3).map fun c => interPred h ref c r cx mx my
  let blocks := (List.range h.numBlocks).foldl (fun (a : List CodedBlock × (Nat × Nat)) i =>
    let (c, bx, by_) := h.block i
    let b := codeBlock h tsQp (if i < 4 then a.2.1 else a.2.2) src c (16 * r + by_) (cx * h.cellW c + bx)
      (subBlock (preds.getD c []) by_ bx) cqp true
    (a.1 ++ [b.1], if i < 4 then (b.2, a.2.2) else (a.2.1, b.2))) ([], ks)
  ⟨putInter h preds r cx cqp blocks.1 0 p, blocks.2, 0, blocks.1⟩

/-! ### Cells and rows -/

/-- The settings of SCR_ENC_CTRL and of the entry that shape the choices (R165, R171). -/
structure EncSet where
  me : Bool
  tsQp : Nat
  act : Nat
  qpMin : Nat
  qpMax : Nat
deriving DecidableEq, Repr

def putBlocks (h : PicHdr) (ks : Nat × Nat) (i : Nat) (bl : List CodedBlock) : Bits :=
  match bl with
  | [] => []
  | none :: t => putBlocks h ks (i + 1) t
  | some (sk, c) :: t =>
    let b := putBlockBits (if i < 4 then ks.1 else ks.2) c
    (if h.ts then [sk] else []) ++ b.1 ++ putBlocks h (if i < 4 then (b.2, ks.2) else (ks.1, b.2)) (i + 1) t

/-- The elements of a cell (R109). -/
def putCellBits (h : PicHdr) (dq : Int) (pmv : Int × Int) (ks : Nat × Nat) (c : Cell) : Bits :=
  let delta := if h.qpDelta then bitsOf 4 (unsigned 4 dq) else []
  let pat (bl : List CodedBlock) : Bits := bl.map Option.isSome
  match c with
  | .skip => [true]
  | .floor l => (if h.ptype = 0 then [false] else [false, false, false]) ++ l.flatMap fun v => bitsOf 4 (unsigned 4 v)
  | .intra _ luma cm bl =>
    (if h.ptype = 0 then [true] else [false, false, true]) ++ delta ++ luma.flatMap (bitsOf 2) ++ bitsOf 2 cm ++ pat bl ++
      putBlocks h ks 0 bl
  | .inter _ anc mx my bl =>
    [false, true] ++ delta ++ (if h.anchorRef then [anc] else []) ++ putUe (sInv (mx - pmv.1)) ++ putUe (sInv (my - pmv.2)) ++
      pat bl ++ putBlocks h ks 0 bl

/-- cell_qp_delta (R165). -/
def cellDelta (e : EncSet) (rowQp act mean : Nat) : Int :=
  let dq := clip3 (-8) 7 (e.act * ((ceilLog2 (act + 1) : Int) - ceilLog2 (mean + 1)))
  clip3 ((e.qpMin : Int) - rowQp) ((e.qpMax : Int) - rowQp) dq

/-- Choose and code one cell: the cell, the planes and Rice states after it (R157). -/
def codeCell (h : PicHdr) (e : EncSet) (src : Planes) (prev anchor : Option Picture) (ymin r cx rowQp cqp : Nat)
    (pmv : Int × Int) (ks : Nat × Nat) (p : Planes) : Cell × Planes × (Nat × Nat) :=
  let lam := lambda rowQp h.depth
  let ia := codeIntra h e.tsQp src ymin r cx cqp p ks
  let intra : Cell × Planes × (Nat × Nat) := (.intra cqp ia.2.1 ia.2.2 ia.1.blocks, ia.1.planes, ia.1.ks)
  if h.ptype = 0 then intra
  else
    let jIntra := ia.1.sad + lam * 3 / 16
    let win := bestOf ((prev.bind fun ref => searchSlot h src ref 0 lam r cx pmv e.me).toList ++
      (if h.anchorRef then (anchor.bind fun ref => searchSlot h src ref 1 lam r cx pmv e.me).toList else []))
    let inter : Option (Nat × Cell × Planes × (Nat × Nat)) := win.bind fun w =>
      (if w.slot = 1 then anchor else prev).map fun ref =>
        let c := codeInter h e.tsQp src ref r cx cqp w.mx w.my p ks
        (cellSad h src r cx (fun k => interPred h ref k r cx w.mx w.my) + lam * vectorBits h pmv w.mx w.my / 16,
         .inter cqp (w.slot == 1) w.mx w.my c.blocks, c.planes, c.ks)
    let best : Nat × Cell × Planes × (Nat × Nat) := match inter with
      | some x => if x.1 ≤ jIntra then x else (jIntra, intra)
      | none => (jIntra, intra)
    match prev with
    | none => best.2
    | some ref =>
      if cellSad h src r cx (fun k => interPred h ref k r cx 0 0) + lam / 16 ≤ best.1 then
        (.skip, putCell h p r cx fun c => interPred h ref c r cx 0 0, ks)
      else best.2

structure RowCode where
  bits : Bits
  planes : Planes
  skips : Nat
  inters : Nat
  intras : Nat
  qpSum : Nat
deriving DecidableEq, Repr

/-- Cells of a NORMAL row, abandoned as soon as their bits exceed the limit (R161). -/
def codeCells (h : PicHdr) (e : EncSet) (src : Planes) (prev anchor : Option Picture) (ymin r rowQp mean limit : Nat) :
    Nat → Int × Int → Nat × Nat → RowCode → Option RowCode
  | 0, _, _, x => some x
  | n + 1, pmv, ks, x =>
    let cx := h.cellCols - (n + 1)
    let dq := if h.qpDelta then cellDelta e rowQp (cellActivity src r cx) mean else 0
    let cqp := cellQp rowQp dq
    let c := codeCell h e src prev anchor ymin r cx rowQp cqp pmv ks x.planes
    let b := x.bits ++ putCellBits h dq pmv ks c.1
    if limit < b.length then none
    else
      codeCells h e src prev anchor ymin r rowQp mean limit n (cellVector c.1) c.2.2
        { bits := b, planes := c.2.1
          qpSum := x.qpSum + match c.1 with
            | .skip => rowQp
            | _ => cqp
          skips := x.skips + match c.1 with
            | .skip => 1
            | _ => 0
          inters := x.inters + match c.1 with
            | .inter .. => 1
            | _ => 0
          intras := x.intras + match c.1 with
            | .intra .. => 1
            | _ => 0 }

def codeNormalRow (h : PicHdr) (e : EncSet) (src : Planes) (prev anchor : Option Picture) (ymin r rowQp limit : Nat)
    (p : Planes) : Option RowCode :=
  let k := kInit rowQp
  codeCells h e src prev anchor ymin r rowQp (rowActivity h src r / h.cellCols) limit h.cellCols (0, 0) (k, k)
    ⟨bitsOf 2 0 ++ bitsOf 6 rowQp, p, 0, 0, 0, 0⟩

/-- The floor level of smallest SAD, ties to the smaller magnitude, then to the positive value (R159). -/
def floorLevel (dc : Nat) (src pred : List (List Nat)) : Int :=
  let sad (l : Int) : Nat := sadRows src (addRes dc pred (floorResidual l dc))
  [1, -1, 2, -2, 3, -3, 4, -4, 5, -5, 6, -6, 7, -7, -8].foldl (fun b l => if sad l < sad b then l else b) 0

def codeFloorCell (h : PicHdr) (src : Planes) (ymin r cx : Nat) (a : Bits × Planes) : Bits × Planes :=
  (List.range h.numBlocks).foldl (fun a i =>
    let (c, bx, by_) := h.block i
    let x0 := cx * h.cellW c + bx
    let y0 := 16 * r + by_
    let pred := intraPred h a.2 c ymin y0 x0 0
    let l := floorLevel (h.dc c) (subBlock (planeOf src c) y0 x0) pred
    (a.1 ++ bitsOf 4 (unsigned 4 l), putBlock a.2 c y0 x0 (addRes (h.dc c) pred (floorResidual l (h.dc c))))) a

def codeFloorRow (h : PicHdr) (src : Planes) (ymin r : Nat) (p : Planes) : Bits × Planes :=
  (List.range h.cellCols).foldl (fun a cx => codeFloorCell h src ymin r cx a) (bitsOf 2 2, p)

def codeRepeatRow (h : PicHdr) (prev : Option Picture) (r : Nat) (p : Planes) : Bits × Planes :=
  (bitsOf 2 1, (repeatRow h prev r ⟨p, false, false, false⟩).planes)

/-! ### Row-budget rate control (R160 to R164) -/

/-- The FLOOR_ROW cost (R113). -/
def floorCost (h : PicHdr) : Nat := 2 + 4 * h.numBlocks * h.cellCols

/-- step(b, t) (R164). -/
def qpStep (b : Nat) (t : Int) : Int :=
  let b8 : Int := 8 * b
  if 16 * t ≤ b8 then 3 else if 12 * t ≤ b8 then 2 else if 9 * t ≤ b8 then 1
  else if b8 ≤ 4 * t then -2 else if b8 ≤ 7 * t then -1 else 0

def EncRun.slice (x : EncRun) : Nat := x.row / x.hdr.sliceRows
def EncRun.lastRow (x : EncRun) : Nat := min (x.slice * x.hdr.sliceRows + x.hdr.sliceRows) x.hdr.cellRows - 1
def EncRun.sp (x : EncRun) : Int := (x.cp : Int) - x.usedPic
def EncRun.ss (x : EncRun) : Int := (x.cs : Int) - x.usedSlice
def EncRun.afterP (x : EncRun) (c : Nat) : Int :=
  (c * (x.hdr.cellRows - 1 - x.row) + 128 * (x.hdr.numSlices - 1 - x.slice) + 7 * (x.hdr.numSlices - x.slice) : Nat)
def EncRun.afterS (x : EncRun) (c : Nat) : Int := (c * (x.lastRow - x.row) + 7 : Nat)
def EncRun.done (x : EncRun) : Bool := decide (x.hdr.cellRows ≤ x.row)

/-- T_r (R164). -/
def EncRun.rowTarget (x : EncRun) : Int :=
  let w := x.weights.drop x.row
  max (floorCost x.hdr : Int) (Int.tdiv ((x.tp - x.usedPic) * w.headD 1) w.sum)

/-- What one row's coding gives: the run, and whether SCR_RC_FLOOR, SCR_RC_REPEAT are raised, and an attempt abandoned. -/
structure RowOut where
  run : EncRun
  floorEv : Bool
  repEv : Bool
  abandoned : Bool
deriving DecidableEq, Repr

/-- The activity of the row to be coded (R165). -/
def EncRun.activity (x : EncRun) : Nat := rowActivity x.hdr x.src x.row

def EncRun.record (x : EncRun) (mode cause qp mean bits : Nat) (t a : Int) (sk io ia act : Nat) : RowRec :=
  ⟨mode, cause, x.floorSlc || x.repSlc, qp, mean, bits, t.toNat, a.toNat, sk, io, ia, act⟩

/-- Take a coded row into the picture (R160). -/
def EncRun.accept (x : EncRun) (bits : Bits) (p : Planes) (rec : RowRec) : EncRun :=
  { x with recon := p, body := x.body ++ bits, usedPic := x.usedPic + bits.length, usedSlice := x.usedSlice + bits.length,
           acts := x.acts ++ [rec.activity], row := x.row + 1, recs := x.recs ++ [rec] }

/-- Open the slice of the current row, if it is not open (R160, R161). -/
def EncRun.openSlice (x : EncRun) : EncRun :=
  if x.opened then x
  else { x with opened := true, usedPic := x.usedPic + 128, usedSlice := 128, floorSlc := false, repSlc := false, body := [] }

/-- A row coded REPEAT_ROW without the rate control: late, or the picture closed early (R56, R167); act is its activity. -/
def EncRun.repeatOne (x : EncRun) (prev : Option Picture) (act : Nat) : EncRun :=
  let x := x.openSlice
  let b := codeRepeatRow x.hdr (usable x.hdr prev) x.row x.recon
  x.accept b.1 b.2 (x.record 1 3 0 0 2 0 0 0 0 0 act)

/-- The floor or repeat choice of R161. -/
def EncRun.fallback (x : EncRun) (prev : Option Picture) (ymin : Nat) (cause : Nat) (a : Int) : RowOut :=
  let f := floorCost x.hdr
  if !(x.repPic || x.repSlc) && decide (x.afterP 2 ≤ x.sp - f) && decide (x.afterS 2 ≤ x.ss - f) then
    let b := codeFloorRow x.hdr x.src ymin x.row x.recon
    let first := x.firstFloor.isNone
    let x' := { x with firstFloor := some (x.firstFloor.getD x.row) }
    ⟨x'.accept b.1 b.2 (x.record 2 cause 0 0 b.1.length 0 a 0 0 0 x.activity), first, false, false⟩
  else
    let x := if x.sp - f < x.afterP 2 then { x with repPic := true } else { x with repSlc := true }
    let b := codeRepeatRow x.hdr (usable x.hdr prev) x.row x.recon
    let first := x.firstRep.isNone
    let x' := { x with firstRep := some (x.firstRep.getD x.row) }
    ⟨x'.accept b.1 b.2 (x.record 1 cause 0 0 2 0 a 0 0 0 x.activity), false, first, false⟩

/-- row_qp of the next NORMAL row under allowance a (R164). -/
def EncRun.rowQp (x : EncRun) (e : EncSet) (a : Int) : Nat :=
  let q : Int := match x.last with
    | none => x.qp0
    | some (qp, bits, t) => (qp : Int) + qpStep bits t
  (clip3 e.qpMin e.qpMax (if a < 4 * floorCost x.hdr then e.qpMax else q)).toNat

/-- Code the next cell row by R161. -/
def EncRun.codeRow (x : EncRun) (e : EncSet) (prev anchor : Option Picture) : RowOut :=
  let x := x.openSlice
  let f := floorCost x.hdr
  let ymin := 16 * (x.slice * x.hdr.sliceRows)
  if x.floorPic || x.floorSlc || x.repPic || x.repSlc then x.fallback prev ymin 1 0
  else
    let ap := x.sp - x.afterP f
    let as_ := x.ss - x.afterS f
    let a := min ap as_
    let bound := if ap ≤ as_ then { x with floorPic := true } else { x with floorSlc := true }
    if (f : Int) < a then
      let qp := x.rowQp e a
      let t := x.rowTarget
      match codeNormalRow x.hdr e x.src (usable x.hdr prev) (usable x.hdr anchor) ymin x.row qp a.toNat x.recon with
      | some r =>
        let x' := { x with last := some (qp, r.bits.length, t), qps := x.qps ++ [qp] }
        ⟨x'.accept r.bits r.planes (x.record 0 0 qp (r.qpSum / x.hdr.cellCols) r.bits.length t a r.skips r.inters r.intras x.activity),
         false, false, false⟩
      | none => { bound.fallback prev ymin 2 a with abandoned := true }
    else bound.fallback prev ymin 1 a

/-! ### Slices and headers (R101, R105, R166) -/

def headerBytes (h : PicHdr) : List Byte :=
  let b := beBytes 2 0xC0E1 ++
    beBytes 1 (0x10 + 4 * h.ptype + 2 * h.isRef.toNat + h.anchorLoad.toNat) ++
    beBytes 1 (128 * h.anchorRef.toNat + 64 * h.ct.toNat + 32 * h.c422.toNat + 16 * h.ts.toNat + 8 * h.qpDelta.toNat) ++
    beBytes 1 (16 * (h.depth - 8) + 4 * h.colour + h.hint) ++ beBytes 2 h.number ++ beBytes 2 (h.w - 1) ++ beBytes 2 (h.h - 1) ++
    beBytes 1 (4 * (h.sliceRows - 1)) ++ zeros 4
  b ++ beBytes 4 (crc32c b)

/-- A closed slice: header, rows, alignment, CRC. -/
def sliceBytes (h : PicHdr) (index first rows : Nat) (body : Bits) : List Byte :=
  let d := toBytes body
  let b := beBytes 2 0xC51C ++ beBytes 1 (h.number % 256) ++
    beBytes 5 (index * 2 ^ 30 + first * 2 ^ 20 + (rows - 1) * 2 ^ 14) ++ beBytes 4 (d.length + 16) ++ d
  b ++ beBytes 4 (crc32c b)

/-- If the row just coded ended its slice: the slice's index and its unit, the picture header before slice 0 (R119). -/
def EncRun.closeSlice (x : EncRun) : EncRun × Option (Nat × List Byte) :=
  if x.opened && (x.row % x.hdr.sliceRows == 0 || x.done) then
    let s := (x.row - 1) / x.hdr.sliceRows
    let first := s * x.hdr.sliceRows
    let pad := (8 - x.body.length % 8) % 8
    let u := sliceBytes x.hdr s first (x.row - first) x.body
    ({ x with opened := false, usedPic := x.usedPic + pad, usedSlice := x.usedSlice + pad, body := [] },
     some (s, if s = 0 then headerBytes x.hdr ++ u else u))
  else (x, none)

/-! ### Pictures (R152, R153, R163) -/

/-- Whether a refresh or the I period makes a sheet's next picture an I picture (R153). -/
def EncSheet.nextI (x : EncSheet) (period : Nat) : Bool := x.refresh || (period != 0 && decide (period ≤ x.sinceI))

/-- The counts a picture starts with; cp, cs in bits (R160, R163, R164). -/
def startRun (x : EncSheet) (h : PicHdr) (entry : List Byte) (view time : Nat) (repeated : Bool) (src : Planes)
    (ceiling sliceCeiling pct qpInit qpMax : Nat) : EncRun :=
  let i := h.ptype == 0
  let cap := 16 * h.cellCols * h.cellRows * 256 + 65536
  let cp := 8 * min ceiling cap
  let nominal := cp * pct / 100
  let f := if i then 0 else x.fullness
  let fl := floorCost h
  let floorAll := fl * (h.cellRows - 1) + 128 * (h.numSlices - 1) + 7 * h.numSlices + fl + 288
  { hdr := h, entry := entry, view := view, time := time, repeated := repeated, src := src, recon := h.blank, row := 0,
    cp := cp, cs := 8 * min (min sliceCeiling ceiling) cap,
    tp := clip3 (min cp floorAll : Nat) cp ((nominal : Int) - (f >>> 2)), nominal := nominal,
    usedPic := 160, usedSlice := 0, opened := false, floorPic := false, floorSlc := false, repPic := false, repSlc := false,
    body := [],
    qp0 := (if i then qpInit else x.qpm.getD qpMax : Nat) + match x.prevBits with
      | none => 0
      | some (b, t) => qpStep b t
    last := none, qps := [], acts := [],
    weights := if i ∨ x.acts.length ≠ h.cellRows then List.replicate h.cellRows 1 else x.acts.map (· + 1),
    firstFloor := none, firstRep := none, early := false, fBefore := f, recs := [] }

/-- A picture closes: slots, fullness, statistics (R149, R163, R171). -/
def EncSheet.close (x : EncSheet) (r : EncRun) : EncSheet :=
  let pic := toSlot r.hdr r.recon
  let i := r.hdr.ptype == 0
  let mean := if r.qps.isEmpty then none else some (r.qps.sum / r.qps.length)
  { x with
    prev := some pic, anchor := if r.hdr.anchorLoad then some pic else x.anchor,
    sinceI := if i then 1 else x.sinceI + 1,
    fullness := clip3 (-(r.cp : Int)) r.cp (r.fBefore + r.usedPic - r.nominal),
    prevBits := some (r.usedPic, r.tp), qpm := mean, acts := r.acts, run := none,
    lastNumber := r.hdr.number, lastI := i, lastEarly := r.early, lastMeanQp := mean.getD 0, lastBytes := r.usedPic / 8,
    lastFloor := r.firstFloor.getD 0xFFFF, lastRep := r.firstRep.getD 0xFFFF }

end Sys2Proof.Machine
end

