-- ==== Sys2Proof/Machine/WallOps.lean ====
section
/-!
DEFINITION. The wall's fixed arithmetic: gazetteer entries (R47), the presentation schedule's instants (R184, R185), emission
deadlines and instants (R188, R189), and the load and resource checks of VIEW_COMMIT, GAZETTEER_UPDATE and PRESENT_SCHEDULE
(R29, R44, R57, R154, R190).
-/

namespace Sys2Proof.Machine

/-! ### Gazetteer entries (R47) -/

def gRot (e : List Byte) : Nat := bits (leAt e 0 2) 0 2
def gMirror (e : List Byte) : Bool := bit (leAt e 0 2) 2
def gOutput (e : List Byte) : Nat := bits (leAt e 0 2) 4 2
def gDither (e : List Byte) : Bool := bit (leAt e 0 2) 6
def gCalEn (e : List Byte) : Bool := bit (leAt e 0 2) 7
def gGainEn (e : List Byte) : Bool := bit (leAt e 0 2) 8
def gDoseEn (e : List Byte) : Bool := bit (leAt e 0 2) 9
def gView (e : List Byte) : Nat := leAt e 2 1 % 8
def gEgress (e : List Byte) : Nat := leAt e 3 1 % 8
def gLane (e : List Byte) : Nat := gEgress e / 2
def gX (e : List Byte) : Nat := leAt e 4 2
def gY (e : List Byte) : Nat := leAt e 6 2
def gW (e : List Byte) : Nat := leAt e 8 2
def gH (e : List Byte) : Nat := leAt e 10 2
def gPort (e : List Byte) : Nat := leAt e 12 1
def gHop (e : List Byte) : Nat := leAt e 13 1 % 16
def gDoseSheet (e : List Byte) : Nat := leAt e 14 2 % 4096
def gDest (e : List Byte) : List Byte := (e.drop 16).take 6
def gSliceRows (e : List Byte) : Nat := leAt e 24 1
def gDepth (e : List Byte) : Nat := leAt e 25 1
def gCt (e : List Byte) : Bool := bit (leAt e 26 1) 0
def g422 (e : List Byte) : Bool := bit (leAt e 26 1) 1
def gPicCeiling (e : List Byte) : Nat := leAt e 28 4
def gSliceCeiling (e : List Byte) : Nat := leAt e 32 4
def gQpMin (e : List Byte) : Nat := leAt e 36 1
def gQpMax (e : List Byte) : Nat := leAt e 37 1

/-- An entry whose W or H is 0 is disabled. -/
def gEnabled (e : List Byte) : Bool := gW e != 0 && gH e != 0
def gContour (e : List Byte) : Bool := gOutput e == 3
/-- Output depth of a raw form or of a Contour sheet. -/
def gOutDepth (e : List Byte) : Nat := if gContour e then gDepth e else if gOutput e = 0 then 16 else if gOutput e = 1 then 12 else 10

/-- Size of the canvas region (R48). -/
def gRegion (e : List Byte) : Nat × Nat := if gRot e % 2 = 0 then (gW e, gH e) else (gH e, gW e)

/-- Canvas pixel that a cabinet pixel shows (R48). -/
def gPixel (e : List Byte) (oy ox : Nat) : Nat × Nat :=
  let ox := if gMirror e then gW e - 1 - ox else ox
  let (wr, hr) := gRegion e
  let (rx, ry) :=
    if gRot e = 0 then (ox, oy)
    else if gRot e = 1 then (oy, hr - 1 - ox)
    else if gRot e = 2 then (gW e - 1 - ox, gH e - 1 - oy)
    else (wr - 1 - oy, ox)
  (gY e + ry, gX e + rx)

def gCellRows (e : List Byte) : Nat := (gH e + 15) / 16
def gNumSlices (e : List Byte) : Nat := let r := max 1 (gSliceRows e); (gCellRows e + r - 1) / r
/-- Units of a sheet picture: slices or bands (R175). -/
def gUnits (e : List Byte) : Nat := if gContour e then gNumSlices e else gCellRows e
/-- Bytes of raw band j. -/
def bandBytes (e : List Byte) (j : Nat) : Nat := (gW e * min 16 (gH e - 16 * j) * 3 * gOutDepth e + 7) / 8

/-! ### The plan that checks are made against -/

/-- Gazetteer entries, view parameters and schedule, applied or with every accepted edit. -/
structure Plan where
  entries : SMap (List Byte)
  views : List ViewParams
  sched : Option Sched
deriving DecidableEq, Repr

def getView (s : State) (v : Nat) : View := s.prj.views.get v View.init
def setView (s : State) (v : Nat) (x : View) : State :=
  { s with prj := { s.prj with views := s.prj.views.set v x View.init } }

def gztEntry (s : State) (n : Nat) : List Byte := s.prj.gzt.get n (zeros 64)

def stageEntries (m : SMap (List Byte)) (u : GztUpdate) : SMap (List Byte) := u.entries.foldl (fun m p => m.set p.1 p.2 (zeros 64)) m

/-- The state that results from every accepted edit and schedule (R44). -/
def planOf (s : State) : Plan :=
  { entries := s.prj.gztStaged.foldl stageEntries s.prj.gzt
    views := (List.range 8).map fun v => ((getView s v).commits.getLast?.map (·.params)).getD (getView s v).applied
    sched := if s.sht.next.isEmpty then s.sht.running else s.sht.next.getLast? }

def viewOn (p : ViewParams) : Bool := p.w != 0 && p.h != 0

/-- Views of the plan that count toward loads: enabled, and with a slot in the schedule (R186). -/
def Plan.counts (p : Plan) (v : Nat) : Bool :=
  viewOn (p.views.getD v ViewParams.init) && match p.sched with
    | none => true
    | some c => decide (v < c.views)

def Plan.sheets (p : Plan) : List (Nat × List Byte) := p.entries.filter fun e => gEnabled e.2 && p.counts (gView e.2)

/-- Composition load in pixels of a base frame, and the sheet load of a lane (R57). -/
def Plan.compPixels (p : Plan) : Nat :=
  ((List.range 8).map fun v => if p.counts v then let w := p.views.getD v ViewParams.init; w.w * w.h else 0).sum
def Plan.lanePixels (p : Plan) (lane : Nat) : Nat :=
  (p.sheets.map fun e => if gLane e.2 = lane then gW e.2 * gH e.2 else 0).sum

/-- R57's limits at a base frame period in 2^−16 ns. -/
def Plan.loadOk (p : Plan) : Bool :=
  match p.sched with
  | none => true
  | some c => p.compPixels * 65536 ≤ 40 * c.period && (List.range 4).all fun l => p.lanePixels l * 65536 ≤ 10 * c.period

def ceilDiv (a b : Nat) : Nat := (a + b - 1) / b

/-- load_mc of a Contour sheet (R154); 2 P in pixels per ns is 5 or 7.5. -/
def sheetLoad (e : List Byte) (period : Nat) : Nat :=
  let q := if g422 e then 15 else 10
  ceilDiv (1000 * 65536 * (4 * gW e * (gH e + 16) + 12000 * q)) (period * q)

def Plan.contourLoad (p : Plan) : Nat :=
  match p.sched with
  | none => 0
  | some c => (p.sheets.map fun e => if gContour e.2 then sheetLoad e.2 c.period else 0).sum

def align4k (n : Nat) : Nat := ceilDiv n 4096 * 4096

/-- Scribe-pool bytes of a Contour sheet (R154). -/
def sheetPool (anchor : Bool) (e : List Byte) : Nat :=
  (if anchor then 4 else 3) * align4k (gW e * gH e * (if gDepth e = 16 ∧ gCt e then 10 else 6)) + 4096

def Plan.sheetPools (p : Plan) (anchor : Bool) : Nat :=
  ((p.entries.filter fun e => gEnabled e.2 && gContour e.2).map fun e => sheetPool anchor e.2).sum

/-- Bytes of a row of a canvas or a surface: in a stack of LATITUDE order the smallest odd number of KiB that holds it (R328). -/
def rowPitch (latitude : Bool) (w : Nat) : Nat :=
  if latitude then ((w * 8 + 1023) / 1024 / 2 * 2 + 1) * 1024 else w * 8

/-- Two buffers of a canvas or a surface. -/
def bufferPair (latitude : Bool) (w h : Nat) : Nat := 2 * align4k (rowPitch latitude w * h)

/-! ### Emission deadlines (R188, R190) -/

/-- Sheets of a view on a port. -/
def sheetsOn (m : SMap (List Byte)) (v port : Nat) : List (Nat × List Byte) :=
  m.filter fun e => gEnabled e.2 && gView e.2 == v && gPort e.2 == port

def hopDelay (s : State) (port hop : Nat) : Nat := getF s Rg.SHT_HOP_DELAY_DELAY_NS (16 * port + hop)
def hopValid (s : State) (port hop : Nat) : Bool := getB s Rg.SHT_HOP_DELAY_VALID (16 * port + hop)
def hopRecord (s : State) (port hop : Nat) : List Byte := s.sht.recs.get (16 * port + hop) []
def maxOf (l : List Nat) : Nat := l.foldl max 0

/-- A position without a valid delay counts as 0 (R191, R196). -/
def hopDelay0 (s : State) (port hop : Nat) : Nat := if hopValid s port hop then hopDelay s port hop else 0
def dMax (s : State) (l : List (Nat × List Byte)) (port : Nat) : Nat := maxOf (l.map fun e => hopDelay0 s port (gHop e.2))
def decMax (s : State) (l : List (Nat × List Byte)) (port : Nat) : Nat := maxOf (l.map fun e => beAt (hopRecord s port (gHop e.2)) 40 4)

/-- Data and frame-overhead bytes of a sheet's largest picture (R188). -/
def sheetBytes (s : State) (e : List Byte) : Nat :=
  let md := max 1 (getF s Rg.SHT_MAX_DATA_BYTES)
  let o := if getB s Rg.SHT_CTRL_VLAN_EN then 58 else 54
  if gContour e then gPicCeiling e + gNumSlices e * ceilDiv (min (gSliceCeiling e) (gPicCeiling e) + 20) md * o
  else ((List.range (gCellRows e)).map fun j => bandBytes e j + ceilDiv (bandBytes e j) md * o).sum

/-- The bytes of S of a port's sheets of a view. -/
def portBytes (s : State) (l : List (Nat × List Byte)) : Nat := (l.map fun e => sheetBytes s e.2).sum

/-- S at a rate of r × 10 Mbit/s. -/
def serialisation (bytes r : Nat) : Nat := ceilDiv (800 * bytes) r

/-- What T − E is for a port's sheets of a view. -/
def leadOf (s : State) (l : List (Nat × List Byte)) (port : Nat) : Nat := dMax s l port + decMax s l port + getF s Rg.SHT_GUARD_GUARD_NS

/-! ### The schedule (R184, R185) -/

def recSlot (r : List Byte) : Nat := leAt r 0 4
def recDelay (r : List Byte) : Nat := leAt r 4 4
def recMask (r : List Byte) : Nat := leAt r 8 1 % 16
def recWidth (r : List Byte) : Nat := leAt r 10 2
def recOffset (r : List Byte) : Int := signed 32 (leAt r 12 4)
def Sched.viewRec (c : Sched) (v : Nat) : List Byte := c.recs.getD v []

/-- B_v(k) and T_v(k), MST. -/
def Sched.boundary (c : Sched) (v k : Nat) : Nat := (c.start + recSlot (c.viewRec v) + k * c.period / 65536) % 2 ^ 32
def Sched.shows (c : Sched) (v k : Nat) : Nat := (c.boundary v k + recDelay (c.viewRec v)) % 2 ^ 32

/-- The schedule that runs a view, if it has a slot in it (R186). -/
def scheduleOf (s : State) (v : Nat) : Option Sched :=
  match s.sht.running with
  | some c => if v < c.views then some c else none
  | none => none

/-- R190 on one port; the rate is the lowest at which the port may run. -/
def Plan.portOk (s : State) (p : Plan) (c : Sched) (port : Nat) : Bool :=
  let r := rate100 (lowestRate (getPort s port).cfg)
  let vs := (List.range c.views).filter p.counts
  let sv (v : Nat) : Nat := serialisation (portBytes s (sheetsOn p.entries v port)) r
  decide ((vs.map sv).sum * 65536 * 10 ≤ 9 * c.period) &&
  vs.all fun v =>
    let l := sheetsOn p.entries v port
    l.isEmpty ||
      let need := leadOf s l port + sv v + if (p.views.getD v ViewParams.init).through then 0 else ceilDiv c.period 65536
      decide (need ≤ recDelay (c.viewRec v))

/-- The first port at which R190 fails. -/
def Plan.badPort (s : State) (p : Plan) : Option Nat :=
  match p.sched with
  | none => none
  | some c => (List.range 128).find? fun port => p.sheets.any (fun e => gPort e.2 == port) && !p.portOk s c port

/-! ### Emission instants of a running schedule (R188, R189) -/

/-- T − E of a port for a view's pictures, and the bytes of S, under the applied gazetteer and the delays of this moment. -/
def portLead (s : State) (v port : Nat) : Nat × Nat :=
  let l := sheetsOn s.prj.gzt v port
  (leadOf s l port, portBytes s l)

/-- E of a picture of time t. -/
def emissionAt (t lead : Nat) : Nat := (t + 2 ^ 32 - lead % 2 ^ 32) % 2 ^ 32

/-- E of a view's picture k on a port: a picture that has begun keeps the delays it began with (R196). -/
def emissionE (s : State) (v port k t : Nat) : Nat :=
  let x := getView s v
  emissionAt t (if x.k = some k then (x.leads.get port (0, 0)).1 else (portLead s v port).1)

/-- E of a sheet picture in progress, and I_j of its unit j. -/
def picDeadline (pic : SheetPic) : Nat := emissionAt pic.time pic.lead
def unitInstant (s : State) (pic : SheetPic) (j : Nat) : Nat :=
  let n := gUnits pic.entry
  emissionAt (picDeadline pic) (serialisation pic.bytes (rate100 (portRate s (gPort pic.entry))) * (n - 1 - j) / max 1 n)

/-- Where cell row r of a Contour sheet must be marked: I_j less the core's time for the rows of its slice from r on (R189);
2 P is 5 or 7.5 pixels per ns. -/
def markInstant (s : State) (pic : SheetPic) (r : Nat) : Nat :=
  let e := pic.entry
  let n := max 1 (gSliceRows e)
  let m := min (r / n * n + n) (gCellRows e) - r
  emissionAt (unitInstant s pic (r / n)) (ceilDiv (64 * gW e * m) (if g422 e then 15 else 10))

/-- Ports that serve a view under the applied gazetteer. -/
def portsOf (s : State) (v : Nat) : List Nat := (List.range 128).filter fun p => !(sheetsOn s.prj.gzt v p).isEmpty

end Sys2Proof.Machine
end

