-- ==== Sys2Proof/Machine/Frames.lean ====
section
/-!
DEFINITION. Sheet transport frames (R172 to R176), and the pixel arithmetic of a sheet: calibration (R52), ageing gain
(R53), dose (R54) and reduction (R55).
-/

namespace Sys2Proof.Machine

/-! ### Envelope and header (R172 to R174) -/

def ftSheetData : Nat := 0
def ftPresent : Nat := 1
def ftHold : Nat := 2
def ftRollcallReq : Nat := 3
def ftRollcallRsp : Nat := 4
def ftCalPush : Nat := 5
def ftNack : Nat := 6

/-- The 16-byte sheet header. -/
structure SheetHdr where
  type : Nat
  flags : Nat
  view : Nat
  sheet : Nat
  picture : Nat
  hop : Nat
  slice : Nat
  frag : Nat
  time : Nat
deriving DecidableEq, Repr

def SheetHdr.bytes (h : SheetHdr) : List Byte :=
  beBytes 1 (16 + h.type) ++ beBytes 1 h.flags ++ beBytes 2 (h.view % 8 * 4096 + h.sheet % 4096) ++ beBytes 2 h.picture ++
  beBytes 2 (h.hop % 16 * 4096 + h.slice % 1024) ++ beBytes 4 h.frag ++ beBytes 4 h.time

/-- FORM is in bits [1:0] of the flags. -/
def flLast : Nat := 4
def flEnd : Nat := 8
def flRepeat : Nat := 16
def flTimed : Nat := 32
def flFault : Nat := 64
def flAllViews : Nat := 128

/-- The sheet address of a port. -/
def sheetAddress (s : State) (port : Nat) : List Byte := beBytes 6 (getF s Rg.SHT_SHEET_MAC_PREFIX * 256 + port)

/-- A frame without its FCS, padded with zero bytes to the shortest size. -/
def sheetFrame (s : State) (dst : List Byte) (pcp : Nat) (h : SheetHdr) (payload : List Byte) : List Byte :=
  let tag := if getB s Rg.SHT_CTRL_VLAN_EN then beBytes 2 0x8100 ++ beBytes 2 (pcp * 8192 + getF s Rg.SHT_VLAN_VID) else []
  let b := dst ++ beBytes 6 (getF s Rg.SHT_SRC_MAC_ADDR) ++ tag ++ beBytes 2 (getF s Rg.SHT_CTRL_ETHERTYPE) ++ h.bytes ++ payload
  b ++ zeros (60 - b.length)

def entryAddress (s : State) (e : List Byte) : List Byte :=
  if (gDest e).all (· == 0) then sheetAddress s (gPort e) else gDest e

/-! ### Units (R175, R176) -/

def maxData (s : State) : Nat := max 1 (getF s Rg.SHT_MAX_DATA_BYTES)

/-- The fragments of a unit with their offsets. -/
def fragments (size : Nat) : Nat → Nat → List Byte → List (Nat × List Byte)
  | 0, _, _ => []
  | n + 1, o, b => if b.length ≤ size then [(o, b)] else (o, b.take size) :: fragments size n (o + size) (b.drop size)

/-- Hand a unit of a sheet picture to framing: its SHEET_DATA frames are queued on the sheet's port. -/
def emitUnit (s : State) (sheet : Nat) (e : List Byte) (picture time : Nat) (repeated : Bool) (unit : Nat) (bytes : List Byte) : State :=
  let fs := fragments (maxData s) (bytes.length + 1) 0 bytes
  let cls := getF s Rg.SHT_CTRL_PCP_DATA
  let top := gUnits e
  (fs.foldl (fun (a : State × Nat) f =>
    let last := a.2 + 1 == fs.length
    let flags := gOutput e + (if last then flLast else 0) + (if last && unit + 1 == top then flEnd else 0) +
      if repeated then flRepeat else 0
    let h : SheetHdr := ⟨ftSheetData, flags, gView e, sheet, picture, gHop e, unit, f.1, time⟩
    ((sendFrame a.1 (gPort e) cls (138 + gEgress e) (sheetFrame a.1 (entryAddress a.1 e) cls h f.2) (.sheet sheet)).2, a.2 + 1)) (s, 0)).1

/-- The bytes of a raw band: pixels in order, most significant bit first, then zero bits to a byte boundary. -/
def bandData (depth : Nat) (rows : List (List Pix)) : List Byte :=
  toBytes (rows.flatMap fun r => r.flatMap fun p => bitsOf depth p.1 ++ bitsOf depth p.2.1 ++ bitsOf depth p.2.2)

/-! ### The stages of a sheet (R51 to R55) -/

/-- Step 2 and its inverse apply (R51). -/
def linearised (p : ViewParams) (e : List Byte) : Bool := p.encoding != 0 && (gCalEn e || gGainEn e)

def identityCal : List Int := [8192, 0, 0, 0, 8192, 0, 0, 0, 8192]

def calRow (m : List Int) (c : Nat) (p : Pix) : Nat :=
  clip16 ((m.getD (3 * c) 0 * p.1 + m.getD (3 * c + 1) 0 * p.2.1 + m.getD (3 * c + 2) 0 * p.2.2 + 4096) >>> 13)
def calibrate (m : List Int) (p : Pix) : Pix := (calRow m 0 p, calRow m 1 p, calRow m 2 p)

/-- Blocks of 16 × 16 cabinet pixels across a sheet, and the block of a pixel. -/
def blocksX (e : List Byte) : Nat := (gW e + 15) / 16
def blockIndex (e : List Byte) (oy ox : Nat) : Nat := oy / 16 * blocksX e + ox / 16

def gained (x g : Nat) : Nat := min 65535 ((x * g + 16384) / 32768)
def applyGain (m : SMap Nat) (b : Nat) (p : Pix) : Pix :=
  (gained p.1 (m.get (3 * b) 32768), gained p.2.1 (m.get (3 * b + 1) 32768), gained p.2.2 (m.get (3 * b + 2) 32768))

def canvasPixel (c : List (List Pix)) (y x : Nat) : Pix := (c.getD y []).getD x (0, 0, 0)

/-- A cabinet pixel after cut, linearisation, calibration and gain. DEDUCED (log 65): where R51 applies no linearisation, on a
PQ or HLG canvas with neither CAL_EN nor GAIN_EN, the values that R54 measures are the coded ones. -/
def linearPixel (pic : SheetPic) (gainOn : Bool) (canvas : List (List Pix)) (oy ox : Nat) : Pix :=
  let e := pic.entry
  let yx := gPixel e oy ox
  let p := canvasPixel canvas yx.1 yx.2
  let p := if linearised pic.params e then toLinear pic.params.encoding pic.params.peak pic.params.white p else p
  let p := if gCalEn e then calibrate pic.cal p else p
  if gGainEn e && gainOn then applyGain pic.gain (blockIndex e oy ox) p else p

def linearRow (pic : SheetPic) (gainOn : Bool) (canvas : List (List Pix)) (oy : Nat) : List Pix :=
  (List.range (gW pic.entry)).map (linearPixel pic gainOn canvas oy)

def bayerTable : List (List Nat) := [[0, 8, 2, 10], [12, 4, 14, 6], [3, 11, 1, 9], [15, 7, 13, 5]]

/-- Reduction to depth d; f is 0 unless temporal dither is on (R55). -/
def reduce1 (d : Nat) (dither : Bool) (f oy ox x : Nat) : Nat :=
  if 16 ≤ d then x
  else
    let sh := 16 - d
    let off := if dither then (2 * (bayerTable.getD ((oy + f / 4) % 4) []).getD ((ox + f) % 4) 0 + 1) * 2 ^ sh / 32 else 2 ^ (sh - 1)
    min ((x + off) / 2 ^ sh) (2 ^ d - 1)

/-- The rest of the stages: re-encoding and reduction. -/
def outputPixel (pic : SheetPic) (f oy ox : Nat) (p : Pix) : Pix :=
  let e := pic.entry
  let p := if linearised pic.params e then encodeCanvas pic.params.encoding pic.params.peak p else p
  map3 (reduce1 (gOutDepth e) (gDither e) f oy ox) p

def outputRow (pic : SheetPic) (f oy : Nat) (r : List Pix) : List Pix := r.mapIdx fun ox p => outputPixel pic f oy ox p

/-! ### Dose (R54) -/

/-- Mean of one colour over a block, edge blocks over the pixels present. -/
def blockMean (rows : List (List Pix)) (by_ bx c : Nat) : Nat :=
  let px := ((rows.drop (16 * by_)).take 16).flatMap fun r => (r.drop (16 * bx)).take 16
  (px.map fun p => getC p c).sum / max 1 px.length

/-- The block means of a band of linear rows: R, G and B of each block (R54). -/
def bandMeans (e : List Byte) (rows : List (List Pix)) : List Nat :=
  (List.range (blocksX e)).flatMap fun bx => [blockMean rows 0 bx 0, blockMean rows 0 bx 1, blockMean rows 0 bx 2]

/-- One step of the 32-bit Galois LFSR with taps 32, 22, 2 and 1. -/
def lfsrStep (x : Nat) : Nat := if x % 2 = 1 then (x / 2) ^^^ 0x80200003 else x / 2

def doseWeight (views : Nat) : Nat := [4096, 4096, 2048, 1365, 1024, 819, 682, 585, 512].getD views 4096

/-- Add the increments of one measurement to a dose map; whether an accumulator saturated. -/
def addDose (dw : Nat) : Nat → List Nat → SMap Nat → Nat → Bool → SMap Nat × Nat × Bool
  | _, [], m, r, sat => (m, r, sat)
  | i, x :: t, m, r, sat =>
    let inc := (x * dw + r % 2 ^ 24) / 2 ^ 24
    let old := m.get i 0
    let full := old < 0xFFFFFFFF && 0xFFFFFFFF ≤ old + inc
    addDose dw (i + 1) t (m.set i (min 0xFFFFFFFF (old + inc)) 0) (lfsrStep r) (sat || full)

end Sys2Proof.Machine
end

