-- ==== Sys2Proof/Machine/StreamOps.lean ====
section
/-!
DEFINITION. Operations over streams: the STREAM_OPEN entry (R67), pools and loads (R66, R69, R154), picture times and their
binding to presentations (R76 to R78), and what a layer reads (R33, R42).
-/

namespace Sys2Proof.Machine

def getStream (s : State) (n : Nat) : Stream := s.scr.streams.get n Stream.init
def setStream (s : State) (n : Nat) (x : Stream) : State :=
  { s with scr := { s.scr with streams := s.scr.streams.set n x Stream.init } }
def getEnc (s : State) (n : Nat) : EncSheet := s.enc.get n EncSheet.init
def setEnc (s : State) (n : Nat) (x : EncSheet) : State := { s with enc := s.enc.set n x EncSheet.init }

/-! ### The STREAM_OPEN entry (R67) -/

def oHost (e : List Byte) : Bool := leAt e 20 1 == 0
def oFormat (e : List Byte) : Nat := leAt e 21 1
def oEarly (e : List Byte) : Bool := bit (leAt e 22 1) 0
def oHashStrict (e : List Byte) : Bool := bit (leAt e 22 1) 1
def oFreeze (e : List Byte) : Bool := bit (leAt e 22 1) 2
def oSsrcCheck (e : List Byte) : Bool := bit (leAt e 22 1) 3
def oBind (e : List Byte) : Nat := bits (leAt e 22 1) 4 2
def oConceal (e : List Byte) : Nat := leAt e 23 1
def oMaxW (e : List Byte) : Nat := leAt e 24 2
def oMaxH (e : List Byte) : Nat := leAt e 26 2
def oMaxDepth (e : List Byte) : Nat := leAt e 28 1
def oChroma (e : List Byte) : Nat := leAt e 29 1 % 4
/-- Block packing mode of ST 2110-20. -/
def oBpm (e : List Byte) : Bool := bit (leAt e 29 1) 3
def oRgb (e : List Byte) : Bool := bit (leAt e 29 1) 2
def oDpb (e : List Byte) : Nat := leAt e 30 1
def oPriority (e : List Byte) : Nat := leAt e 31 1 % 4
def oPeriod (e : List Byte) : Nat := leAt e 32 4
def oMaxRate (e : List Byte) : Nat := leAt e 36 4
def oFlow (e : List Byte) : Nat := leAt e 40 2
def oReorder (e : List Byte) : Nat := leAt e 42 2
def oSsrc (e : List Byte) : Nat := leAt e 44 4
def oOffset (e : List Byte) : Int := signed 32 (leAt e 48 4)
def oPt (e : List Byte) : Nat := leAt e 52 1

def fHevc : Nat := 0
def fContour : Nat := 1
def f2110 : Nat := 2
def bindNewest : Nat := 0
def bindRtp : Nat := 1
def bindArrival : Nat := 2
def bindHost : Nat := 3

def stClosed : Nat := 0
def stSyncing : Nat := 1
def stRunning : Nat := 2
def stEnded : Nat := 3
def stClosing : Nat := 4

/-- The stream's event data: low 16 bits of the picture count (R301). -/
def streamEvent (s : State) (ev n : Nat) : State := raiseEv s ev n ((getStream s n).pictures % 65536)

/-! ### Pools and loads (R66, R69, R154) -/

/-- A picture as it stands in its buffer (R65): 16-bit little-endian words, 4:4:4 and 4:2:2 interleaved, 4:2:0 as a luma plane
and an interleaved chroma plane of half height. -/
def storedPicture (p : Picture) : List Byte :=
  let at_ (c y x : Nat) : List Byte := leBytes 2 (((p.planes.getD c []).getD y []).getD x 0)
  let rows (h : Nat) (f : Nat → List Byte) : List Byte := (List.range h).flatMap f
  let across (n : Nat) (f : Nat → List Byte) : List Byte := (List.range n).flatMap f
  if p.chroma = 2 then rows p.h fun y => across p.w fun x => at_ 0 y x ++ at_ 1 y x ++ at_ 2 y x
  else if p.chroma = 1 then
    rows p.h fun y => across ((p.w + 1) / 2) fun i => at_ 0 y (2 * i) ++ at_ 1 y i ++ at_ 0 y (2 * i + 1) ++ at_ 2 y i
  else (rows p.h fun y => across p.w fun x => at_ 0 y x) ++ rows ((p.h + 1) / 2) fun y => across ((p.w + 1) / 2) fun i => at_ 1 y i ++ at_ 2 y i

/-- Stored bytes per pixel of a chroma format (R65). -/
def storedBytes (chroma : Nat) : Nat := if chroma = 2 then 6 else if chroma = 1 then 4 else 3

/-- The smallest power of two not below n. -/
def pow2From (n : Nat) : Nat := if n ≤ 1 then 1 else 2 ^ (Nat.log2 (n - 1) + 1)

/-- Input buffer of a compressed stream. -/
def inputBuffer (e : List Byte) : Nat := if oFormat e = f2110 then 0 else max 1048576 (pow2From (ceilDiv (oMaxRate e * 125) 4))

/-- DPB of R66. -/
def streamDpb (e : List Byte) : Nat := if oFormat e = fHevc then oDpb e else if oFormat e = fContour then 2 else 0

def streamPool (e : List Byte) : Nat :=
  (streamDpb e + 2) * align4k (oMaxW e * oMaxH e * storedBytes (oChroma e)) + inputBuffer e

/-- load_mc of a stream (R69): 2, 3 or 4 pixels per clock at 1.25 GHz, 1 or 10 Gbit/s of entropy. -/
def streamLoad (e : List Byte) : Nat :=
  if oFormat e = f2110 then 0
  else
    let q := if oChroma e = 2 then 2 else if oChroma e = 1 then 3 else 4
    let g := if oFormat e = fHevc then 1000 else 10000
    let p := max 1 (oPeriod e)
    let px := 800 * oMaxW e * oMaxH e
    if oMaxRate e * p * q ≤ px * g then ceilDiv (px + 12000000 * q) (p * q)
    else ceilDiv (oMaxRate e * p + 12000000 * g) (g * p)

def streamOpenNow (x : Stream) : Bool := x.state != stClosed
def openLoads (s : State) : Nat := (s.scr.streams.map fun p => if streamOpenNow p.2 then streamLoad p.2.opened else 0).sum
def openPools (s : State) : Nat := (s.scr.streams.map fun p => if streamOpenNow p.2 then streamPool p.2.opened else 0).sum

def anchorMode (s : State) : Bool := getB s Rg.SCR_ENC_CTRL_ANCHOR_MODE
def poolUnit : Nat := 16777216

/-- The kept picture of a closed stream that a layer slot still uses, with the stream's number (R70). -/
def keptPicture (v : View) (slot : Nat) : LayerSource → Option (Nat × Picture)
  | .picture p => some (lId (v.applied.layers.getD slot []), p)
  | _ => none

/-- Pictures of closed streams that layers still use, each once. -/
def attachedPools (s : State) : Nat :=
  (((s.prj.views.flatMap fun v => v.2.attached.filterMap fun a => keptPicture v.2 a.1 a.2).eraseDups).map fun a =>
    align4k (a.2.w * a.2.h * storedBytes a.2.chroma)).sum

/-- Scribe-pool bytes under a plan. -/
def scribeUsed (s : State) (p : Plan) : Nat := openPools s + attachedPools s + p.sheetPools (anchorMode s)
def scribeFits (s : State) (p : Plan) (more : Nat) : Bool := decide (scribeUsed s p + more ≤ getF s Rg.SCR_POOL_SIZE * poolUnit)
def admits (s : State) (p : Plan) (more : Nat) : Bool :=
  decide (openLoads s + p.contourLoad + more ≤ getF s Rg.SCR_DISPATCH_CTRL_ADMIT_LIMIT)

/-- Projection-pool bytes: applied canvases, accepted new pairs, surfaces, dose and gain maps (R44, R45, R57). -/
def newPair (latitude : Bool) (x : View) (p : ViewParams) : Nat :=
  if (p.w, p.h, p.encoding) = (x.applied.w, x.applied.h, x.applied.encoding) then 0 else bufferPair latitude p.w p.h

/-- The stack that holds the projection pool, by its base, maps addresses in LATITUDE order (R326, R328). -/
def latitudeOrder (s : State) : Bool :=
  (if getF s Rg.PRJ_POOL_BASE_BASE < 0x600000000 then getF s Rg.MEM_MAP_ORDER_A else getF s Rg.MEM_MAP_ORDER_B) == 3

def mapBytes (w h : Nat) : Nat := (w + 15) / 16 * ((h + 15) / 16) * 18
def projectionUsed (s : State) : Nat :=
  let l := latitudeOrder s
  (s.prj.views.map fun v => bufferPair l v.2.applied.w v.2.applied.h + (v.2.commits.map fun c => newPair l v.2 c.params).sum).sum +
  (s.prj.surfaces.map fun f => match f.2 with
    | none => 0
    | some x => bufferPair l x.w x.h).sum +
  (s.prj.doseSize.map fun d => match d.2 with
    | none => 0
    | some (w, h) => mapBytes w h).sum
def projectionFits (s : State) (more : Nat) : Bool := decide (projectionUsed s + more ≤ getF s Rg.PRJ_POOL_SIZE * poolUnit)

/-- SCR_LOAD.ADMITTED, PRJ_LANE_LOAD and SHT_SCHED_STATUS follow the accepted plan (R57, R69); lane p composes the latitudes
whose index modulo 4 is p (R32). -/
def refreshLoads (s : State) : State :=
  let p := planOf s
  let s := setF s Rg.SCR_LOAD_ADMITTED 0 (openLoads s + p.contourLoad)
  let rate (px : Nat) : Nat := match p.sched with
    | none => 0
    | some c => min 65535 (px * 65536 * 1000 / max 1 c.period)
  foldS (List.range 4) (fun s l =>
    let comp := ((List.range 8).map fun v => if p.counts v then
      let x := p.views.getD v ViewParams.init
      16 * x.w * ((x.h / 16 + 3 - l) / 4) else 0).sum
    setF (setF s Rg.PRJ_LANE_LOAD_SHEET_RATE l (rate (p.lanePixels l))) Rg.PRJ_LANE_LOAD_COMP_RATE l (rate comp)) s

/-! ### Picture times (R76) -/

/-- An RTP timestamp of a 90 kHz clock from the PTP epoch, widened to the value nearest the MFT, as an MST. DESIGN CHOICE
(log 68): both conversions between ticks and nanoseconds round down. -/
def rtpTime (s : State) (ts : Nat) : Nat :=
  let ticks : Int := ((s.mer.sec * 1000000000 + s.mer.ns) * 9 / 100000 : Nat)
  let full := ticks + signed 32 ((ts + 2 ^ 32 - (ticks % 2 ^ 32).toNat) % 2 ^ 32)
  ((full * 100000 / 9) % 2 ^ 32).toNat

def withOffset (e : List Byte) (t : Nat) : Nat := ((t + oOffset e) % 2 ^ 32).toNat

/-! ### Binding (R77, R78) -/

/-- The pictures before k that an instant still lies at or before: k − m is the smallest number with B(k − m) ≥ t. -/
def bindBack (c : Sched) (v k t : Nat) : Nat → Nat
  | 0 => k
  | n + 1 => if k = 0 then 0 else if mstDiff t (c.boundary v (k - 1)) ≤ 0 then bindBack c v (k - 1) t n else k
def bindAhead (c : Sched) (v k t : Nat) : Nat → Nat
  | 0 => k
  | n + 1 => if mstDiff t (c.boundary v k) ≤ 0 then k else bindAhead c v (k + 1) t n

/-- The picture number that a time binds to, near picture k. -/
def bindNumber (c : Sched) (v k t : Nat) : Nat :=
  if mstDiff t (c.boundary v k) ≤ 0 then bindBack c v k t 600 else bindAhead c v (k + 1) t 600

/-- Streams that enabled layers of a view use. -/
def streamLayers (p : ViewParams) : List Nat := (p.layers.filter fun d => layerEnabled d && lType d == 1).map lId

/-- The view's current picture number under its schedule. -/
def viewNumber (s : State) (v : Nat) : Nat := (getView s v).k.getD 0

/-- The delivered picture that binds to the highest number not above k; of equal numbers the later in output order. -/
def bestBound (c : Sched) (v k : Nat) (l : List Delivered) : Option (Nat × Picture) :=
  l.foldl (fun best d =>
    match d.pic with
    | none => best
    | some pic =>
      if d.bindable && decide (mstDiff d.time (c.boundary v k) ≤ 0) then
        let n := bindBack c v k d.time 600
        match best with
        | none => some (n, pic)
        | some b => if b.1 ≤ n then some (n, pic) else best
      else best) none

/-- Bind the pictures delivered so far to a view's picture k under the schedule it started with; a stream with no new picture
keeps the one bound before. -/
def rebind (s : State) (v : Nat) : State :=
  match (getView s v).under with
  | none => s
  | some c =>
    if !(getView s v).started then s
    else foldS (streamLayers (getView s v).applied).eraseDups (fun s n =>
      match bestBound c v (getView s v).picture (getStream s n).delivered with
      | none => s
      | some b =>
        let x := getView s v
        let keep := match x.bound.get n none with
          | none => false
          | some o => decide (b.1 < o.1)
        if keep then s else setView s v { x with bound := x.bound.set n (some b) none }) s

/-- Latest-start instant of the picture that ends at a boundary (R33). -/
def latestBefore (b : Nat) (p : ViewParams) : Nat :=
  (b + 2 ^ 32 - ceilDiv (p.w * p.h) 32000 * 1000 % 2 ^ 32) % 2 ^ 32

/-- The earlier of two instants, seen from now (R204). -/
def earlier (s : State) (a b : Nat) : Nat := if mstDiff a (mst s) ≤ mstDiff b (mst s) then a else b

/-- The deadline that one view sets for a picture of time t (R78). -/
def viewDeadline (s : State) (v t : Nat) : Option Nat :=
  match scheduleOf s v with
  | none => none
  | some c =>
    let x := getView s v
    let k := bindNumber c v (viewNumber s v) t
    if x.applied.through then
      (portsOf s v).foldl (fun (best : Option Nat) p =>
        let e := emissionE s v p k (c.shows v k)
        some (match best with
          | none => e
          | some b => earlier s b e)) none
    else some (latestBefore (c.boundary v (k + 1)) x.applied)

/-- The deadline of a stream picture of (provisional) time t, ready at r. -/
def pictureDeadline (s : State) (n t r : Nat) : Nat :=
  let vs := (List.range 8).filter fun v => viewOn (getView s v).applied && (streamLayers (getView s v).applied).contains n
  ((vs.filterMap fun v => viewDeadline s v t).foldl (fun (best : Option Nat) d =>
      some (match best with
        | none => d
        | some b => earlier s b d)) none).getD
    ((r + oPeriod (getStream s n).opened) % 2 ^ 32)

/-! ### Rasters and jobs as pictures -/

def rasterPicture (e : List Byte) (r : Raster) : Picture :=
  ⟨oMaxW e, oMaxH e, [oMaxDepth e, oMaxDepth e, oMaxDepth e], oChroma e, false, r.planes⟩

/-- The picture a core is writing, as projection reads it. -/
def jobPicture (j : Job) : Picture :=
  match j.hdr with
  | some h => outputOf (toSlot h j.rec_)
  | none => { j.pic with planes := j.rec_ }

/-- Time of a raster in progress, where BIND fixes it before its end. -/
def rasterTime (s : State) (x : Stream) (r : Raster) : Option Nat :=
  if oBind x.opened = bindRtp then some (withOffset x.opened (rtpTime s r.ts)) else none

/-- The picture in progress of a stream: its time if that is fixed, its content and its committed rows. -/
def inProgress (s : State) (x : Stream) : Option (Option Nat × Picture × Nat) :=
  match x.job with
  | some j => some (j.au.time, jobPicture j, j.committed)
  | none =>
    match x.raster with
    | some r => some (rasterTime s x r, rasterPicture x.opened r, r.committed)
    | none => none

/-- Times of the stream's pictures that are not complete, where they are fixed. -/
def openTimes (s : State) (x : Stream) : List Nat :=
  (match inProgress s x with
   | some (some t, _, _) => [t]
   | _ => []) ++ x.aus.filterMap (·.time)

/-! ### What a layer reads (R33, R42, R59) -/

/-- The source of a layer for the view's picture, from complete pictures. -/
def layerSource (s : State) (v slot : Nat) (d : List Byte) : LayerSource :=
  if lType d = 2 then
    match s.prj.surfaces.get (lId d) none with
    | none => .empty
    | some f => .surface f.front
  else if lType d = 1 then
    let x := getView s v
    match x.attached.get slot .empty with
    | .empty =>
      if streamOpenNow (getStream s (lId d)) then
        match x.bound.get (lId d) none with
        | none => .empty
        | some b => .picture b.2
      else .empty
    | a => a
  else .empty

/-- The stream picture that a layer waits for is not complete (R33): one is due by B(k) and is not yet delivered. -/
def layerWaits (s : State) (v : Nat) (d : List Byte) : Bool :=
  lType d == 1 && streamOpenNow (getStream s (lId d)) &&
  match (getView s v).under with
  | none => false
  | some c =>
    let k := (getView s v).picture
    (openTimes s (getStream s (lId d))).any fun t =>
      decide (mstDiff t (c.boundary v k) ≤ 0) &&
      match (getView s v).bound.get (lId d) none with
      | none => decide (0 < (getStream s (lId d)).pictures)
      | some b => decide (b.1 ≤ bindBack c v k t 600)

end Sys2Proof.Machine
end

