-- ==== Sys2Proof/Machine/Edits.lean ====
section
/-!
DEFINITION. Edits of the wall (R29 to R60): layers, view commits, surfaces, the gazetteer, calibration and the host filter
bank; how staged edits are applied at a boundary.
-/

namespace Sys2Proof.Machine

/-- Whether a command's data hold n records of a size that all pass a check; the DETAIL of the first that does not. -/
def badRecord (size : Nat) (check : List Byte → Option Nat) : Nat → Nat → List Byte → Option Nat
  | 0, _, _ => none
  | n + 1, i, b =>
    match check (b.take size) with
    | some o => some (bufDetail o i)
    | none => badRecord size check n (i + 1) (b.drop size)

def records (size : Nat) : Nat → List Byte → List (List Byte)
  | 0, _ => []
  | n + 1, b => b.take size :: records size n (b.drop size)

def complain (s : State) (c : Cmd) (detail : Nat) : State := complete s c St.invalidField 0 detail

/-! ### LAYER_SET (R35, R39, R41) -/

/-- The first field of a layer descriptor that is out of range, by its offset. -/
def badLayer (d : List Byte) : Option Nat :=
  let ratioOk (a b : Nat) : Bool := a == 0 || b == 0 || (decide (a ≤ 4 * b) && decide (b ≤ 32 * a))
  firstBad [(decide (lType d ≤ 3) && (lType d != 1 || decide (lId d ≤ 511)) && (lType d != 2 || decide (lId d ≤ 255)), 0),
    (lFilter d != 3, 1), (ratioOk (lSrcW d) (lDstW d), 8), (ratioOk (lSrcH d) (lDstH d), 10),
    (lDstW d ≤ 32768, 20), (lDstH d ≤ 32768, 22), (lTransfer d ≤ 4, 26)]

def startLayerSet (_ : State) (e : List Byte) : Begin :=
  if 7 < eTarget e then invalid 4
  else if eLen e = 0 then .finish St.okZero 0 0
  else checked [(eAddr e + eLen e ≤ 2 ^ 64, 8), (eLen e % 128 == 0 && decide (leAt e 20 1 + eLen e / 128 ≤ 16), 16),
    (leAt e 20 1 ≤ 15, 20)] (readBuffer e)

/-- The used bits of a layer descriptor (R35). -/
def layerMask : List Nat := [0xFF, 0x3F] ++ whole 25 ++ [0] ++ whole 80 ++ List.replicate 20 0

def runLayerSet (s : State) (c : Cmd) (d : List Byte) : State :=
  match badRecord 128 badLayer (d.length / 128) 0 d with
  | some k => complain s c k
  | none =>
    let v := eTarget c.entry
    let x := getView s v
    let st := ((records 128 (d.length / 128) d).zipIdx).foldl (fun m p => m.insert (leAt c.entry 20 1 + p.2) (kept layerMask p.1)) x.staged
    complete (setView s v { x with staged := st }) c St.ok

def execLayerSet (q : Nat) (s : State) : Host.Outcome State Fault Refusal :=
  .next (ringRow Op.layerSet anyEntry startLayerSet runLayerSet q s)

/-! ### What applying an edit changes -/

def filled (w h : Nat) (p : Pix) : List (List Pix) := List.replicate h (List.replicate w p)
def latitudes (h : Nat) : Nat := (h + 15) / 16

/-- The registers that show a view's applied parameters (R60). -/
def showView (s : State) (v : Nat) : State :=
  let p := (getView s v).applied
  let s := setF (setF s Rg.PRJ_VIEW_GEOM_WIDTH v p.w) Rg.PRJ_VIEW_GEOM_HEIGHT v p.h
  let s := setF (setF s Rg.PRJ_VIEW_STATE_ENABLED v (viewOn p).toNat) Rg.PRJ_VIEW_STATE_THROUGH v p.through.toNat
  setF (setF s Rg.PRJ_VIEW_STATE_ENCODING v p.encoding) Rg.PRJ_VIEW_STATE_LAYERS v (p.layers.countP layerEnabled)

/-- Apply a view's accepted commits: the later governs; a new size or encoding gets canvases of background (R30, R44). Layers
whose descriptor stays keep that their PRJ_SOURCE_EMPTY has been raised (R42). DESIGN CHOICE (log 65): several commits applied
together raise PRJ_VIEW_APPLIED once, with the number of the picture before the boundary. -/
def applyCommits (s : State) (v b : Nat) : State :=
  let x := getView s v
  match x.commits.getLast? with
  | none => s
  | some c =>
    let p := c.params
    let same := (p.w, p.h, p.encoding) = (x.applied.w, x.applied.h, x.applied.encoding)
    let blank : Canvas := ⟨filled p.w p.h p.bg, List.replicate (latitudes p.h) false⟩
    let x' := { x with applied := p, commits := [], front := if same then x.front else blank,
                       back := if same then x.back else blank, attached := [], started := false,
                       emptyRaised := x.emptyRaised.filter fun q => p.layers.getD q.1 [] == x.applied.layers.getD q.1 [] }
    let s := showView (setView s v x') v
    let s := foldS x.commits (fun s c => completeId s c.cmd St.ok b) s
    raiseEv s Ev.PRJ_VIEW_APPLIED v ((getView s v).picture % 65536)

/-- A change that makes the sheet's next picture an I picture and empties the encoder's slots (R153). -/
def encoderRestarts (old new : List Byte) : Bool :=
  gEnabled new && (!gEnabled old || gW old != gW new || gH old != gH new || gDepth old != gDepth new ||
    leAt old 26 1 % 4 != leAt new 26 1 % 4 || gView old != gView new || gOutput old != gOutput new ||
    gPort old != gPort new || gHop old != gHop new)

/-- Captures of a sheet that is disabled complete PARTIAL (R170). -/
def captureResult (k : Capturing) : Nat := k.first.getD 0 % 65536 + 65536 * k.floors
def endCaptures (s : State) (n : Nat) : State :=
  let x := getEnc s n
  foldS x.captures (fun s k => completeId s k.cmd St.partly (captureResult k)) (setEnc s n { x with captures := [] })

/-! ### Dose maps follow the entries that name them (R420, R422) -/

/-- The contents of the valid summary slot with the highest sequence: three curves, then the sheets (log 24). -/
def summaryBody (s : State) : List Byte :=
  (s.sec.flash.summary.foldl (fun b p => if p.2.body.isEmpty || (!b.2.isEmpty && decide (p.2.seq < b.1)) then b else (p.2.seq, p.2.body))
    (0, [])).2

/-- Cells of a summarised sheet: one per 4 × 4 blocks. -/
def sumAcross (w : Nat) : Nat := ceilDiv w 64
def sumLength (w h : Nat) : Nat := 8 + 6 * (sumAcross w * sumAcross h)

/-- The cells of sheet d at size w × h in a list of summarised sheets. -/
def findSummary (d w h : Nat) : Nat → List Byte → Option (List Byte)
  | 0, _ => none
  | f + 1, b =>
    if b.length < 8 then none
    else
      let n := sumLength (leAt b 2 2) (leAt b 4 2)
      if leAt b 0 2 = d then (if leAt b 2 2 = w ∧ leAt b 4 2 = h then some ((b.take n).drop 8) else none)
      else findSummary d w h f (b.drop n)

/-- A dose map that starts from the summary: every block takes the dose of its cell. -/
def doseFrom (w h : Nat) (cells : List Byte) : SMap Nat :=
  let ax := ceilDiv w 16
  (List.range (3 * (ax * ceilDiv h 16))).foldl (fun m k =>
    let b := k / 3
    let cell := b / ax / 4 * sumAcross w + b % ax / 4
    m.set k (leAt cells (2 * (3 * cell + k % 3)) 2 * 65536) 0) []

def startDose (s : State) (d w h : Nat) : SMap Nat :=
  match findSummary d w h 4096 ((summaryBody s).drop 384) with
  | none => []
  | some c => doseFrom w h c

/-- Give sheet d its maps, or new ones at a new size; none where no entry names it any more. -/
def setDoseMap (s : State) (d : Nat) (size : Option (Nat × Nat)) (dose : SMap Nat) : State :=
  { s with prj := { s.prj with doseSize := s.prj.doseSize.set d size none, dose := s.prj.dose.set d dose [],
                               gain := s.prj.gain.filter fun p => p.1 / 8 != d, gainStaged := s.prj.gainStaged.filter fun p => p.1 / 8 != d } }

/-- The maps after entry n has become e. -/
def followDose (s : State) (n d0 : Nat) (e : List Byte) : State :=
  let s := if gEnabled e && (s.prj.doseSize.get n none).isSome && s.prj.doseSize.get n none != some (gW e, gH e) then
      setDoseMap s n (some (gW e, gH e)) [] else s
  let d := gDoseSheet e
  let s := if gEnabled e && (s.prj.doseSize.get d none).isNone then setDoseMap s d (some (gW e, gH e)) (startDose s d (gW e) (gH e)) else s
  if (s.prj.doseSize.get d0 none).isSome && !s.prj.gzt.any fun x => gDoseSheet x.2 == d0 then setDoseMap s d0 none [] else s

def applyEntry (s : State) (n : Nat) (e : List Byte) : State :=
  let old := gztEntry s n
  let s := { s with prj := { s.prj with gzt := s.prj.gzt.set n e (zeros 64) } }
  let s := followDose s n (gDoseSheet old) e
  let s := if encoderRestarts old e then
      let x := getEnc s n
      setEnc s n (if (s.prj.sheets.get n []).isEmpty then { x with prev := none, anchor := none, fresh := true } else { x with fresh := true })
    else s
  if gEnabled e && gContour e then s else endCaptures s n

/-- The view at whose boundary a staged entry applies (R50): the view it is in; view 0 where an enabled entry changes view. -/
def entryBoundary (s : State) (n : Nat) (e : List Byte) : Nat :=
  let old := gztEntry s n
  if gEnabled old then (if gEnabled e && gView e != gView old then 0 else gView old) else gView e

def gztShow (s : State) : State :=
  let s := setF s Rg.GZT_STATUS_ENABLED_SHEETS 0 (s.prj.gzt.countP fun e => gEnabled e.2)
  setF s Rg.GZT_STATUS_PENDING 0 (!s.prj.gztStaged.isEmpty).toNat

/-- Complete the updates all of whose entries are applied (R50, R52). -/
def finishUpdates (s : State) : State :=
  let done := s.prj.gztStaged.filter (·.entries.isEmpty)
  let s := { s with prj := { s.prj with gztStaged := s.prj.gztStaged.filter fun u => !u.entries.isEmpty } }
  let s := foldS done (fun s u => raiseEv (completeId s u.cmd St.ok (u.bound.getD u.last)) Ev.GZT_APPLIED) s
  let doneC := s.prj.calStaged.filter (·.entries.isEmpty)
  let s := { s with prj := { s.prj with calStaged := s.prj.calStaged.filter fun u => !u.entries.isEmpty } }
  gztShow (foldS doneC (fun s u => raiseEv (completeId s u.cmd St.ok (u.bound.getD u.last)) Ev.GZT_APPLIED) s)

/-- When an edit was applied: at a boundary, or at once (R31). -/
structure AppliedAt where
  at_ : Nat
  boundary : Bool
deriving DecidableEq, Repr

def AppliedAt.bound (a : AppliedAt) (old : Option Nat) : Option Nat := if a.boundary then some a.at_ else old

/-- Apply the staged gazetteer entries of a view, in arrival order. -/
def applyGazetteer (s : State) (v : Nat) (a : AppliedAt) : State :=
  let us := s.prj.gztStaged
  let s := { s with prj := { s.prj with gztStaged := [] } }
  foldS us (fun s u =>
    let now := u.entries.filter fun p => entryBoundary s p.1 p.2 == v
    let rest := u.entries.filter fun p => entryBoundary s p.1 p.2 != v
    let s := foldS now (fun s p => applyEntry s p.1 p.2) s
    let u := if now.isEmpty then u else { u with entries := rest, bound := a.bound u.bound, last := a.at_ }
    { s with prj := { s.prj with gztStaged := s.prj.gztStaged ++ [u] } }) s

/-- A staged update enables a disabled entry. -/
def willEnable (s : State) (n : Nat) : Bool := s.prj.gztStaged.any fun u => u.entries.any fun p => p.1 == n && gEnabled p.2

/-- Apply the staged matrices that a test picks (R52). -/
def applyCal (s : State) (pick : Nat → Bool) (a : AppliedAt) : State :=
  let us := s.prj.calStaged
  let s := { s with prj := { s.prj with calStaged := [] } }
  foldS us (fun s u =>
    let now := u.entries.filter fun p => pick p.1
    let cal := now.foldl (fun m p => m.set p.1 p.2 identityCal) s.prj.cal
    let u := if now.isEmpty then u
      else { u with entries := u.entries.filter (fun p => !pick p.1), bound := a.bound u.bound, last := a.at_ }
    { s with prj := { s.prj with cal := cal, calStaged := s.prj.calStaged ++ [u] } }) s

/-- Apply the staged gain maps of a view's sheets (R53). -/
def applyGains (s : State) (v : Nat) : State :=
  let now := s.prj.gainStaged.filter fun p => p.1 % 8 == v
  { s with prj := { s.prj with
      gain := now.foldl (fun m p => m.set p.1 p.2 []) s.prj.gain
      gainStaged := s.prj.gainStaged.filter fun p => p.1 % 8 != v } }

/-- Matrices of sheets that are disabled, with no staged update that enables them, apply at once (R52). -/
def applyIdleCal (s : State) : State :=
  applyCal s (fun n => !gEnabled (gztEntry s n) && !willEnable s n) ⟨mst s, false⟩

/-- Apply every staged edit of a view (R31). -/
def applyEdits (s : State) (v : Nat) (a : AppliedAt) : State :=
  let s := applyCommits (applyGazetteer s v a) v a.at_
  let s := applyCal s (fun n => gEnabled (gztEntry s n) && gView (gztEntry s n) == v) a
  refreshLoads (finishUpdates (applyGains (applyIdleCal s) v))

/-- Edits of views without a running schedule apply at once (R31, R52, R186). -/
def settleEdits (s : State) : State :=
  let s := foldS (List.range 8) (fun s v => if (scheduleOf s v).isNone then applyEdits s v ⟨mst s, false⟩ else s) s
  refreshLoads (finishUpdates (applyIdleCal s))

/-! ### VIEW_COMMIT (R43, R44) -/

def sizeOk (n hi : Nat) : Bool := n == 0 || (decide (64 ≤ n) && decide (n ≤ hi) && n % 16 == 0)

def commitParams (x : View) (e : List Byte) : ViewParams :=
  let base := ((x.commits.getLast?.map (·.params)).getD x.applied).layers
  { w := leAt e 20 2, h := leAt e 22 2, through := bit (leAt e 24 1) 0, encoding := bits (leAt e 24 1) 1 2,
    bg := (leAt e 26 2, leAt e 28 2, leAt e 30 2), peak := leAt e 32 2, white := leAt e 34 2,
    layers := x.staged.foldl (fun l p => l.set p.1 p.2) base }

/-- An enabled sheet's region leaves its view's canvas. -/
def outside (p : ViewParams) (e : List Byte) : Bool :=
  viewOn p && (decide (p.w < gX e + (gRegion e).1) || decide (p.h < gY e + (gRegion e).2))

/-- Record a rejected sheet (R49). -/
def gztReject (s : State) (n reason : Nat) : State :=
  setF (setF (setF s Rg.GZT_REJECT_SHEET 0 n) Rg.GZT_REJECT_REASON 0 reason) Rg.GZT_REJECT_VALID 0 1

/-- R29's pixel sum over the enabled views. -/
def pixelSumOk (p : Plan) : Bool := decide ((p.views.map fun x => x.w * x.h).sum ≤ 2 ^ 30)

/-- The limits of R57 and R190 under a plan; a port that fails R190 is recorded. -/
def loadCheck (s : State) (p : Plan) : Option State :=
  if !p.loadOk then some s
  else match p.badPort s with
    | some q => some (setF s Rg.SHT_SCHED_STATUS_REJECT_PORT 0 q)
    | none => none

def startViewCommit (_ : State) (e : List Byte) : Begin :=
  if 7 < eTarget e then invalid 4
  else checked [(sizeOk (leAt e 20 2) 32768, 20), (sizeOk (leAt e 22 2) 16384, 22), (bits (leAt e 24 1) 1 2 != 3, 24),
    (decide (1 ≤ leAt e 32 2) && decide (leAt e 32 2 ≤ 10000), 32), (decide (1 ≤ leAt e 34 2) && decide (leAt e 34 2 ≤ 10000), 34)] .run

def runViewCommit (s : State) (c : Cmd) (_ : List Byte) : State :=
  let v := eTarget c.entry
  let x := getView s v
  let p := commitParams x c.entry
  let plan := planOf s
  match plan.entries.find? fun e => gEnabled e.2 && gView e.2 == v && outside p e.2 with
  | some e => complain (gztReject s e.1 1) c 20
  | none =>
    let plan := { plan with views := plan.views.set v p }
    if !pixelSumOk plan || !projectionFits s (newPair (latitudeOrder s) x p) then complete s c St.noResource
    else match loadCheck s plan with
      | some s => complete s c St.noResource
      | none => settleEdits (setView s v { x with staged := [], commits := x.commits ++ [⟨c.id, p⟩] })

def execViewCommit (q : Nat) (s : State) : Host.Outcome State Fault Refusal :=
  .next (ringRow Op.viewCommit anyEntry startViewCommit runViewCommit q s)

/-! ### SURFACE_WRITE (R45, R46) -/

def wX (e : List Byte) : Nat := leAt e 20 2
def wY (e : List Byte) : Nat := leAt e 22 2
def wW (e : List Byte) : Nat := leAt e 24 2
def wH (e : List Byte) : Nat := leAt e 26 2
def wPitch (e : List Byte) : Nat := leAt e 28 4
def wFormat (e : List Byte) : Nat := leAt e 32 1
def wDefine (e : List Byte) : Bool := bit (leAt e 33 1) 0
def wPublish (e : List Byte) : Bool := bit (leAt e 33 1) 1
def wForward (e : List Byte) : Bool := bit (leAt e 33 1) 2
def wBpp (e : List Byte) : Nat := if wFormat e = 0 then 8 else if wFormat e = 1 then 6 else 4

def getSurface (s : State) (n : Nat) : Option Surface := s.prj.surfaces.get n none
def setSurface (s : State) (n : Nat) (x : Option Surface) : State :=
  { s with prj := { s.prj with surfaces := s.prj.surfaces.set n x none } }

/-- An enabled layer of a view, applied or accepted, uses the surface. -/
def surfaceUsed (s : State) (n : Nat) : Bool :=
  s.prj.views.any fun v => (v.2.applied :: v.2.commits.map (·.params)).any fun p =>
    p.layers.any fun d => layerEnabled d && lType d == 2 && lId d == n

def wReleases (e : List Byte) : Bool := wDefine e && (wW e == 0 || wH e == 0)

/-- SURFACE_WRITE answers its releases and its refusals from the entry. DESIGN CHOICE (log 65): the pool check of a DEFINE comes
last, before the data are read, and counts the surface's old buffers as freed. -/
def startSurfaceWrite (s : State) (e : List Byte) : Begin :=
  let n := eTarget e
  let len := eLen e
  if 255 < n then invalid 4
  else if wReleases e then
    checked [(wX e == 0, 20), (wY e == 0, 22)]
      (if surfaceUsed s n then .finish St.stateConflict 0 0 else .run)
  else if !wDefine e && (getSurface s n).isNone then .finish St.stateConflict 0 0
  else
    let sz := if wDefine e then (wW e, wH e) else match getSurface s n with
      | none => (0, 0)
      | some x => (x.w, x.h)
    let data := len != 0
    let need := if wW e = 0 ∨ wH e = 0 then 0 else (wH e - 1) * wPitch e + wW e * wBpp e
    let old := match getSurface s n with
      | none => 0
      | some x => bufferPair (latitudeOrder s) x.w x.h
    checked [(!data || decide (eAddr e + len ≤ 2 ^ 64), 8), (!data || decide (need ≤ len), 16),
      (if wDefine e then wX e == 0 else !data || decide (wX e + wW e ≤ sz.1), 20),
      (if wDefine e then wY e == 0 else !data || decide (wY e + wH e ≤ sz.2), 22),
      ((!wDefine e || decide (wW e ≤ 32768)) && (!data || decide (wW e * wBpp e ≤ wPitch e)), 24),
      (!wDefine e || decide (wH e ≤ 16384), 26), (wFormat e ≤ 2, 32)]
      (if wDefine e && decide (getF s Rg.PRJ_POOL_SIZE * poolUnit + old < projectionUsed s + bufferPair (latitudeOrder s) (wW e) (wH e)) then
         .finish St.noResource 0 0
       else if data then .read (eAddr e) len none else .run)

/-- A host pixel with its alpha. -/
def hostPixel (fmt : Nat) (b : List Byte) : Pix × Nat :=
  if fmt = 0 then ((leAt b 0 2, leAt b 2 2, leAt b 4 2), leAt b 6 2)
  else if fmt = 1 then ((leAt b 0 2, leAt b 2 2, leAt b 4 2), 65535)
  else ((expand16 8 (leAt b 0 1), expand16 8 (leAt b 1 1), expand16 8 (leAt b 2 1)), expand16 8 (leAt b 3 1))

/-- Write a region of host data into a buffer. -/
def writeRegion (e : List Byte) (d : List Byte) (buf : List (List (Pix × Nat))) : List (List (Pix × Nat)) :=
  (List.range (wH e)).foldl (fun buf r =>
    let row := d.drop (r * wPitch e)
    let px := (List.range (wW e)).map fun i => hostPixel (wFormat e) (row.drop (i * wBpp e))
    let old := buf.getD (wY e + r) []
    buf.set (wY e + r) (old.take (wX e) ++ px ++ old.drop (wX e + wW e))) buf

/-- The write itself, its PUBLISH and COPY_FORWARD, and the completion. -/
def doSurfaceWrite (s : State) (cmd : Cmd) (d : List Byte) : State :=
  let e := cmd.entry
  let n := eTarget e
  let blank := List.replicate (wH e) (List.replicate (wW e) ((0, 0, 0), 0))
  let cur := if wDefine e then some ⟨wW e, wH e, blank, blank, [], []⟩ else getSurface s n
  match cur with
  | none => complete s cmd St.stateConflict
  | some x =>
    let x := if d.isEmpty then x else { x with back := writeRegion e d x.back }
    let x := if wPublish e then
        { x with front := x.back, back := if wForward e then x.back else x.front, readFront := x.readBack, readBack := x.readFront }
      else x
    complete (setSurface s n (some x)) cmd (if eLen e = 0 then St.okZero else St.ok)

/-- A running composition still reads the buffer this write goes to (R45). -/
def surfaceBlocked (x : Surface) (e : List Byte) (data : Bool) : Bool :=
  !wDefine e && ((data && !x.readBack.isEmpty) || (wPublish e && wForward e && !x.readFront.isEmpty))

def runSurfaceWrite (s : State) (c : Cmd) (d : List Byte) : State :=
  let e := c.entry
  let n := eTarget e
  if wReleases e then
    refreshLoads (complete (setSurface s n none) c (if eLen e = 0 then St.okZero else St.ok))
  else
    let queued := s.prj.surfaceWait.any fun p =>
      match findCmd s p.1 with
      | none => false
      | some k => eTarget k.entry == n
    let wait := queued || match getSurface s n with
      | none => false
      | some x => surfaceBlocked x e (!d.isEmpty)
    if wait then { s with prj := { s.prj with surfaceWait := s.prj.surfaceWait ++ [(c.id, d)] } } else doSurfaceWrite s c d

def execSurfaceWrite (q : Nat) (s : State) : Host.Outcome State Fault Refusal :=
  .next (ringRow Op.surfaceWrite anyEntry startSurfaceWrite runSurfaceWrite q s)

/-- The oldest write that waits for a surface proceeds once no running composition reads its buffer. -/
def surfaceResume (s : State) (n : Nat) : State :=
  match s.prj.surfaceWait.find? fun p => (findCmd s p.1).any fun k => eTarget k.entry == n with
  | none => s
  | some p =>
    match findCmd s p.1 with
    | none => s
    | some k =>
      let blocked := match getSurface s n with
        | none => false
        | some x => surfaceBlocked x k.entry (!p.2.isEmpty)
      if blocked then s
      else doSurfaceWrite { s with prj := { s.prj with surfaceWait := s.prj.surfaceWait.filter (·.1 != p.1) } } k p.2

def execSurfaceWriteResume (n : Nat) (s : State) : Host.Outcome State Fault Refusal := .next (surfaceResume s n)

/-! ### GAZETTEER_UPDATE (R47, R49, R50) -/

/-- Lanes that a PORT_CONFIG entry claims: those of its rate, or of the widest rate it advertises (R25, R231). -/
def cfgLanes (c : List Byte) : Nat :=
  if c.isEmpty then 0
  else if cfgAn c then (if bit (cfgAdvertise c) 5 then 4 else if bit (cfgAdvertise c) 4 then 2 else 1)
  else lanesOf (cfgRate c)

/-- A lane belongs to a bonded port and is not its lowest (R25). -/
def innerLane (s : State) (n : Nat) : Bool :=
  (List.range 3).any fun d => decide (d < n) && decide (d + 1 < cfgLanes (getPort s (n - d - 1)).cfg)

/-- The smallest ceilings of an entry, bytes (R162). -/
def minPicture (e : List Byte) : Nat := ceilDiv (160 + 135 * gNumSlices e + 2 * gCellRows e) 8
def minSlice (e : List Byte) : Nat := ceilDiv (135 + 2 * min (gSliceRows e) (gCellRows e)) 8

/-- The reason and the offset of the lowest offending field of an enabled entry (R49, R162, R448). -/
def badEntry (s : State) (p : Plan) (e : List Byte) : Option (Nat × Nat) :=
  let sz (n : Nat) : Bool := decide (64 ≤ n) && decide (n ≤ 2048)
  let d := p.entries.get (gDoseSheet e) (zeros 64)
  let ct := gContour e
  let rules : List (Bool × Nat × Nat) :=
    [(!outside (p.views.getD (gView e) ViewParams.init) e, 1, 4), (sz (gW e), 2, 8), (gW d == gW e && gH d == gH e, 5, 8),
     (!(ct && g422 e && gW e % 2 == 1), 4, 8), (sz (gH e), 2, 10),
     (!ct || (decide (minPicture e ≤ gPicCeiling e) && decide (minSlice e ≤ gSliceCeiling e)), 4, 10),
     (decide (gPort e ≤ 127) && !innerLane s (gPort e), 3, 12),
     (!ct || (decide (1 ≤ gSliceRows e) && decide (gSliceRows e ≤ 64)), 4, 24),
     (!ct || (decide (8 ≤ gDepth e) && decide (gDepth e ≤ 16)), 4, 25), (!(ct && gCt e && g422 e), 4, 26),
     (!ct || gPicCeiling e != 0, 4, 28), (!ct || gSliceCeiling e != 0, 4, 32),
     (!ct || (decide (gQpMin e ≤ gQpMax e) && decide (gQpMin e ≤ 63)), 4, 36), (!ct || decide (gQpMax e ≤ 63), 4, 37)]
  if gEnabled e then (rules.find? fun r => !r.1).map (·.2) else none

def startTable (size : Nat) (_ : State) (e : List Byte) : Begin :=
  if eLen e = 0 then .finish St.okZero 0 0
  else checked [(decide (eTarget e + eLen e / size ≤ 4096), 4), (eAddr e + eLen e ≤ 2 ^ 64, 8), (eLen e % size == 0, 16)]
    (readBuffer e)

/-- The first bad entry of an update: sheet, index, reason, offset. -/
def firstBadEntry (s : State) (p : Plan) (l : List (Nat × List Byte)) : Option (Nat × Nat × Nat) :=
  match l with
  | [] => none
  | (n, e) :: r =>
    match badEntry s p e with
    | some (reason, o) => some (n, reason, o)
    | none => firstBadEntry s p r

/-- The used bits of a gazetteer entry (R47). -/
def gztMask : List Nat :=
  [0xF7, 3, 7, 7] ++ whole 9 ++ [0x0F, 0xFF, 0x0F] ++ whole 6 ++ [0, 0, 0xFF, 0xFF, 3, 0] ++ whole 10 ++ List.replicate 26 0

def runGazetteerUpdate (s : State) (c : Cmd) (d : List Byte) : State :=
  let t := eTarget c.entry
  let l := (records 64 (d.length / 64) d).zipIdx.map fun p => (t + p.2, kept gztMask p.1)
  let u : GztUpdate := ⟨c.id, l, none, mst s⟩
  let s' := { s with prj := { s.prj with gztStaged := s.prj.gztStaged ++ [u] } }
  let plan := planOf s'
  match firstBadEntry s plan l with
  | some (n, reason, o) => complain (gztReject s n reason) c (bufDetail o (n - t))
  | none =>
    match loadCheck s plan with
    | some s => complete s c St.noResource
    | none => if !admits s plan 0 || !scribeFits s plan 0 then complete s c St.noResource else settleEdits (gztShow s')

def execGazetteerUpdate (q : Nat) (s : State) : Host.Outcome State Fault Refusal :=
  .next (ringRow Op.gazetteerUpdate anyEntry (startTable 64) runGazetteerUpdate q s)

/-! ### SHEET_CAL_SET (R52) -/

def runSheetCalSet (s : State) (c : Cmd) (d : List Byte) : State :=
  let l := (records 32 (d.length / 32) d).zipIdx.map fun p =>
    (eTarget c.entry + p.2, (List.range 9).map fun i => signed 16 (leAt p.1 (2 * i) 2))
  settleEdits { s with prj := { s.prj with calStaged := s.prj.calStaged ++ [⟨c.id, l, none, mst s⟩] } }

def execSheetCalSet (q : Nat) (s : State) : Host.Outcome State Fault Refusal :=
  .next (ringRow Op.sheetCalSet anyEntry (startTable 32) runSheetCalSet q s)

/-! ### The filter banks (R38, R59, R60) -/

def hostBankUsed (s : State) : Bool :=
  s.prj.views.any fun v => viewOn v.2.applied && v.2.applied.layers.any fun d => layerEnabled d && lType d != 3 && lFilter d == 2

/-- The coefficient that PRJ_COEF_DATA shows: bank, word. -/
def coefShown (s : State) (bank i : Nat) : Nat :=
  if 512 ≤ i ∧ 6 ≤ i % 8 then 0
  else if bank < 5 then
    unsigned 12 (if i < 512 then builtinH bank (i / 8) (i % 8) else builtinV bank (i / 8 - 64) (i % 8))
  else if bank = 5 then s.prj.coef.get i 0 else 0

/-- A write of PRJ_COEF_DATA word i: only bank 5 is writable, and not while a layer uses it. -/
def coefWrite (s : State) (i v : Nat) : State :=
  if 1024 ≤ i ∨ getF s Rg.PRJ_COEF_SEL_BANK ≠ 5 ∨ (512 ≤ i ∧ 6 ≤ i % 8) then s
  else if hostBankUsed s then raiseEv s Ev.PRJ_COEF_BUSY
  else { s with prj := { s.prj with coef := s.prj.coef.set i (v % 4096) 0 } }

def execPrjCoefWrite (i v : Nat) (s : State) : Host.Outcome State Fault Refusal := .next (coefWrite s i v)

end Sys2Proof.Machine
end

