-- ==== Sys2Proof/Machine/Encode.lean ====
section
/-!
DEFINITION. Contour sheet pictures (06_encoding_rate_control.md): their start, the coding of rows, slices handed to framing,
the close of a picture, refresh requests and RC_CAPTURE; the scribe cores' jobs and contexts (R62, R63).
-/

namespace Sys2Proof.Machine

/-! ### Scribe cores (R61 to R63) -/

def coreIdle : Nat := 0
def coreDecode : Nat := 1
def coreEncode : Nat := 2
def coreWait : Nat := 3
def coreSwitch : Nat := 4
def coreReset : Nat := 5
def coreOff : Nat := 6

def getCore (s : State) (c : Nat) : Core := s.scr.cores.get c Core.init
def setCore (s : State) (c : Nat) (x : Core) : State := { s with scr := { s.scr with cores := s.scr.cores.set c x Core.init } }
def coreState (s : State) (c : Nat) : Nat := getF s Rg.SCR_CORE_STATUS_STATE c
def setCoreState (s : State) (c st : Nat) : State := setF s Rg.SCR_CORE_STATUS_STATE c st

/-- The core that has a job of a stream (false) or of a sheet (true). -/
def coreOf (s : State) (job : Bool × Nat) : Option Nat := (List.range 24).find? fun c => (getCore s c).job == some job

/-- Count the busy time of the cores up to a time (R90). -/
def countBusy (s : State) (t : Nat) : State :=
  let b := s.scr.busy
  let more := (s.scr.cores.map fun c => if c.2.job.isSome then t - c.2.counted else 0).sum
  { s with scr := { s.scr with busy := (b.1, b.2.1 + more, b.2.2),
                               cores := s.scr.cores.map fun c => (c.1, { c.2 with counted := max c.2.counted t }) } }

/-- A new Meridian second: the busy time of the last one is shown in SCR_LOAD (R90). After a gap of seconds the cores busy now
have been busy throughout. -/
def busyRoll (s : State) : State :=
  let sec := s.scr.busy.1
  if sec = s.mer.sec then s
  else
    let edge := s.now - s.mer.ns
    let s := if sec + 1 = s.mer.sec then s
      else { s with scr := { s.scr with busy := (sec, 0, 0), cores := s.scr.cores.map fun c => (c.1, { c.2 with counted := max c.2.counted (edge - 1000000000) }) } }
    let s := countBusy s edge
    let last := s.scr.busy.2.1
    setF { s with scr := { s.scr with busy := (s.mer.sec, 0, last) } } Rg.SCR_LOAD_MEASURED 0 (min 65535 (last / 1000000))

/-- A context is used: the cache keeps the 256 used last (R63). -/
def saveContext (s : State) (job : Bool × Nat) : State :=
  let l := s.scr.cache.filter (· != job) ++ [job]
  { s with scr := { s.scr with cache := l.drop (l.length - 256) } }

/-- A core's picture is done: its context is saved, and the core is free. -/
def freeCore (s : State) (c : Nat) : State :=
  match (getCore s c).job with
  | none => s
  | some j =>
    let s := countBusy (busyRoll s) s.now
    let s := setCore (saveContext s j) c { getCore s c with job := none, last := some j }
    setF (setF (setCoreState s c coreIdle) Rg.SCR_CORE_STATUS_SHEET c 0) Rg.SCR_CORE_STATUS_ID c 0

/-! ### The start of a sheet picture (R151 to R153) -/

def headPic (s : State) (n : Nat) : Option SheetPic := (s.prj.sheets.get n []).head?
def setPics (s : State) (n : Nat) (l : List SheetPic) : State := { s with prj := { s.prj with sheets := s.prj.sheets.set n l [] } }
def setHeadPic (s : State) (n : Nat) (p : SheetPic) : State := setPics s n (p :: (s.prj.sheets.get n []).drop 1)
def dropHeadPic (s : State) (n : Nat) : State := setPics s n ((s.prj.sheets.get n []).drop 1)

def sheetHeader (s : State) (pic : SheetPic) (i : Bool) : PicHdr :=
  let e := pic.entry
  { ptype := if i then 0 else 1, isRef := true, anchorLoad := i && anchorMode s, anchorRef := !i && anchorMode s, ct := gCt e,
    c422 := g422 e, ts := getB s Rg.SCR_ENC_CTRL_TS_EN, qpDelta := getF s Rg.SCR_ENC_CTRL_ACT_STRENGTH != 0, depth := gDepth e,
    colour := 1, hint := pic.params.encoding, number := pic.picture % 65536, w := gW e, h := gH e, sliceRows := max 1 (gSliceRows e) }

/-- Start the sheet's picture on the rows marked so far. The first picture under an entry that restarts the encoder finds both
slots empty (R153). -/
def startEncode (s : State) (n : Nat) (pic : SheetPic) : State :=
  let x := getEnc s n
  let x := if pic.restart then { x with prev := none, anchor := none } else x
  let i := pic.first || pic.restart || x.nextI (getF s Rg.SCR_ENC_CTRL_I_PERIOD)
  let h := sheetHeader s pic i
  let e := pic.entry
  let r := startRun x h e (gView e) pic.time pic.repeated (prepare h pic.rows) (gPicCeiling e) (gSliceCeiling e) (getF s Rg.SCR_RC_CTRL_TARGET_PCT)
    (getF s Rg.SCR_ENC_CTRL_QP_INIT) (gQpMax e)
  let caps := x.captures.map fun k => { k with first := some (k.first.getD h.number) }
  setEnc s n { x with run := some r, refresh := false, captures := caps }

/-- The head picture waits for a core, or can be given to one: in FRAME mode from the boundary that cut it, in THROUGH mode once
cell row 0 is marked (R155). -/
def picReady (pic : SheetPic) : Bool := gContour pic.entry && (!pic.params.through || pic.bands != 0)

/-- A sheet's picture is ready for the dispatcher. -/
def makeReady (s : State) (n : Nat) : State :=
  { s with scr := { s.scr with readySheets := s.scr.readySheets.filter (· != n) ++ [n] } }

/-! ### RC_CAPTURE records (R170) -/

def capturePicture (r : EncRun) : List Byte :=
  leBytes 1 ((r.hdr.ptype == 0).toNat + 2 * r.early.toNat) ++ zeros 1 ++ leBytes 2 r.hdr.number ++ leBytes 4 r.usedPic ++
  leBytes 4 r.tp.toNat ++ leBytes 4 (unsigned 32 r.fBefore) ++ leBytes 2 (r.firstFloor.getD 0xFFFF) ++
  leBytes 2 (r.firstRep.getD 0xFFFF) ++ leBytes 4 (gPicCeiling r.entry) ++ leBytes 4 (gSliceCeiling r.entry) ++ zeros 4

def captureRow (r : RowRec) : List Byte :=
  leBytes 1 (r.mode + 4 * r.cause + 16 * r.sliceBound.toNat) ++ leBytes 1 r.qp ++ leBytes 2 r.meanQp ++ leBytes 4 r.bits ++
  leBytes 4 r.target ++ leBytes 4 r.allowance ++ leBytes 2 r.skips ++ leBytes 2 r.inters ++ leBytes 4 r.intras ++
  leBytes 4 (min r.activity 0xFFFFFFFF) ++ zeros 4

/-- Write a closed picture's records for every capture that covers it. -/
def writeCaptures (s : State) (n : Nat) (r : EncRun) : State :=
  let b := capturePicture r ++ r.recs.flatMap captureRow
  foldS (getEnc s n).captures (fun s k =>
    if k.first.isNone then s
    else
      let s := hostWrite s k.addr b
      let k' := { k with left := k.left - 1, floors := k.floors + r.firstFloor.isSome.toNat, addr := k.addr + b.length }
      let x := getEnc s n
      if k'.left = 0 then
        completeId (setEnc s n { x with captures := x.captures.filter (·.cmd != k.cmd) }) k.cmd St.ok (captureResult k')
      else setEnc s n { x with captures := x.captures.map fun y => if y.cmd = k.cmd then k' else y }) s

/-! ### Rows, slices and pictures (R161, R166, R167) -/

def sheetData (r : EncRun) : Nat := r.hdr.number + 65536 * r.row
/-- An event about a sheet's row (R301). -/
def rowEvent (s : State) (ev n : Nat) (r : EncRun) : State := raiseEv s ev n (sheetData r)
def sheetEvent (s : State) (ev n picture view : Nat) : State := raiseEv s ev n (picture % 65536 + 65536 * view)

/-- The picture closes: slots, statistics, captures; its core is free. -/
def closePicture (s : State) (n : Nat) (r : EncRun) : State :=
  let s := setEnc s n ((getEnc s n).close r)
  let s := if r.firstFloor.isSome then addF (addT s teleFloor) Rg.SCR_ENC_FLOOR_COUNT_FLOOR_PICTURES else s
  let s := if r.firstRep.isSome then addF s Rg.SCR_ENC_FLOOR_COUNT_REPEAT_PICTURES else s
  let s := if r.early then addF s Rg.SCR_ENC_EARLY_COUNT_CLOSED_EARLY else s
  let s := dropHeadPic (writeCaptures s n r) n
  let s := { s with scr := { s.scr with readySheets := s.scr.readySheets.filter (· != n), closing := s.scr.closing.filter (· != n) } }
  let s := if (headPic s n).any picReady then makeReady s n else s
  match coreOf s (true, n) with
  | none => saveContext s (true, n)
  | some c => freeCore s c

/-- A row has been coded: a slice that it ends goes to framing, and the last one closes the picture. -/
def rowCoded (s : State) (n : Nat) (r : EncRun) : State :=
  let p := r.closeSlice
  let s := setEnc s n { getEnc s n with run := some p.1 }
  let s := match p.2 with
    | none => s
    | some (j, b) =>
      let s := emitUnit s n r.entry r.hdr.number r.time r.repeated j b
      match headPic s n with
      | none => s
      | some pic => setHeadPic s n { pic with sent := j + 1 }
  if p.1.done then closePicture s n p.1 else s

/-- The activity of a row coded REPEAT_ROW: its samples', or a free value where they were never marked (log 5). -/
def repeatActivity (s : State) (n : Nat) (r : EncRun) : Nat × State :=
  if (headPic s n).any fun p => decide (r.row < p.bands) && !p.staged.contains r.row then (r.activity, s)
  else
    let q := freshIndex s
    (Config.free q.1 % 2 ^ 32, q.2)

/-- Code the next row REPEAT_ROW: late, or the picture is closed early. -/
def repeatSheetRow (s : State) (n : Nat) : State :=
  match (getEnc s n).run with
  | none => s
  | some r =>
    if r.done then s
    else
      let a := repeatActivity s n r
      rowCoded a.2 n (r.repeatOne (getEnc a.2 n).prev a.1)

def repeatSheetRows (s : State) (n : Nat) : Nat → State
  | 0 => s
  | m + 1 => repeatSheetRows (repeatSheetRow s n) n m

def encSettings (s : State) (r : EncRun) : EncSet :=
  ⟨getB s Rg.SCR_ENC_CTRL_ME_EN, getF s Rg.SCR_ENC_CTRL_TS_QP, getF s Rg.SCR_ENC_CTRL_ACT_STRENGTH, gQpMin r.entry, gQpMax r.entry⟩

/-- Code the next row of a sheet's picture by R161, with the events it raises. -/
def codeMarkedRow (s : State) (n : Nat) : State :=
  let x := getEnc s n
  match x.run with
  | none => s
  | some r =>
    if r.done then s
    else
      let o := r.codeRow (encSettings s r) x.prev x.anchor
      let s := if o.floorEv then rowEvent s Ev.SCR_RC_FLOOR n r else s
      let s := if o.repEv then rowEvent s Ev.SCR_RC_REPEAT n r else s
      let s := if o.abandoned then addF s Rg.SCR_ENC_EARLY_COUNT_ABANDONED_ROWS else s
      rowCoded s n o.run

/-- The input of a sheet's picture can no longer be trusted: every row not yet coded is REPEAT_ROW, of a picture that no core
has begun all of them (R167). -/
def closeEarly (s : State) (n : Nat) : State :=
  let s := match headPic s n with
    | none => s
    | some p => if gContour p.entry && (getEnc s n).run.isNone then makeReady (startEncode s n p) n else s
  match (getEnc s n).run with
  | none => s
  | some r =>
    if r.early then s
    else rowEvent (setEnc s n { getEnc s n with run := some { r with early := true } }) Ev.SCR_ENC_CLOSED_EARLY n r

/-- A core was reset while it encoded: the open slice begins again, all rows REPEAT_ROW, in a closing job (R168). -/
def EncRun.reopen (r : EncRun) : EncRun :=
  if r.opened then
    let first := r.slice * r.hdr.sliceRows
    { r with row := first, usedPic := r.usedPic - r.usedSlice, usedSlice := 0, opened := false, body := [],
             acts := r.acts.take first, recs := r.recs.take first,
             qps := ((r.recs.take first).filter (·.mode == 0)).map (·.qp),
             firstFloor := r.firstFloor.filter (fun k => decide (k < first)), firstRep := r.firstRep.filter (fun k => decide (k < first)) }
  else r

def closingJob (s : State) (n : Nat) : State :=
  match (getEnc s n).run with
  | none => s
  | some r =>
    let s := setEnc s n { getEnc s n with run := some { r.reopen with early := true } }
    let s := { s with scr := { s.scr with closing := s.scr.closing.filter (· != n) ++ [n],
                                          readySheets := s.scr.readySheets.filter (· != n) } }
    rowEvent s Ev.SCR_ENC_CLOSED_EARLY n r

/-! ### ENC_REFRESH (R153) -/

/-- Request an I picture of a Contour sheet. -/
def requestI (s : State) (n : Nat) : State :=
  let e := gztEntry s n
  if gEnabled e && gContour e then setEnc s n { getEnc s n with refresh := true } else s

/-- A write of SCR_ENC_REFRESH. -/
def encRefresh (s : State) (n : Nat) (all : Bool) : State :=
  if all then foldS (s.prj.gzt.map (·.1)) requestI s else requestI s n

def execEncRefresh (n : Nat) (all : Bool) (s : State) : Host.Outcome State Fault Refusal := .next (encRefresh s n all)

/-! ### RC_CAPTURE (R170) -/

def captureEntry (e : List Byte) : Bool := diagSub e == 0x30

def startRcCapture (s : State) (e : List Byte) : Begin :=
  let g := gztEntry s (eTarget e)
  if 4095 < eTarget e then invalid 4
  else if eLen e = 0 then .finish St.okZero 0 0
  else checked [(eAddr e + eLen e ≤ 2 ^ 64, 8), (decide (leAt e 21 1 * (32 + 32 * gCellRows g) ≤ eLen e), 16), (leAt e 21 1 != 0, 21)]
    (if gEnabled g && gContour g then .run else .finish St.stateConflict 0 0)

def runRcCapture (s : State) (c : Cmd) (_ : List Byte) : State :=
  let n := eTarget c.entry
  let x := getEnc s n
  setEnc s n { x with captures := x.captures ++ [⟨c.id, leAt c.entry 21 1, none, 0, eAddr c.entry⟩] }

def execRcCapture (q : Nat) (s : State) : Host.Outcome State Fault Refusal :=
  .next (ringRow Op.diag captureEntry startRcCapture runRcCapture q s)

end Sys2Proof.Machine
end

