-- ==== Sys2Proof/Machine/Projection.lean ====
section
/-!
DEFINITION. Composition and presentation boundaries (R30 to R33), sheet output (R51, R56), the PRESENT frames prepared at a
boundary (R191), and the end of a schedule (R194).
-/

namespace Sys2Proof.Machine

/-! ### Canvases -/

def allReady (h : Nat) : List Bool := List.replicate (latitudes h) true
def noneReady (h : Nat) : List Bool := List.replicate (latitudes h) false

/-- Rows of the back canvas where their latitude is ready, of the front canvas elsewhere (R19). -/
def mergedRows (front back : List (List Pix)) (map : List Bool) : List (List Pix) :=
  back.mapIdx fun y r => if map.getD (y / 16) false then r else front.getD y []

/-- Latitudes that rows y0 to y0 + n − 1 of a canvas fall in. -/
def latsOf (y0 n : Nat) : List Nat := if n = 0 then [] else rangeFrom (y0 / 16) ((y0 + n - 1) / 16 + 1 - y0 / 16)

/-- Latitudes that a sheet covers. -/
def sheetLats (e : List Byte) : List Nat := latsOf (gY e) (gRegion e).2

/-! ### Readers of surfaces (R45) -/

def noteReaders (s : State) (v : Nat) (reads : Bool) : State :=
  let ids := ((getView s v).applied.layers.filter fun d => layerEnabled d && lType d == 2).map lId
  { s with prj := { s.prj with surfaces := s.prj.surfaces.map fun p =>
      match p.2 with
      | none => p
      | some x =>
        if reads then (if ids.contains p.1 then (p.1, some { x with readFront := x.readFront.filter (· != v) ++ [v] }) else p)
        else (p.1, some { x with readFront := x.readFront.filter (· != v), readBack := x.readBack.filter (· != v) }) } }

/-! ### Composition (R33, R34, R42) -/

/-- The composition units work: PRJ_CTL and the four lanes are on (R32, R59), and PRJCLK runs (R348). -/
def composerOn (s : State) : Bool := domainOn s 35 && (rangeFrom 31 4).all (domainOn s) && !relocking s 1

/-- What every layer of a view reads for the composition that starts now; a source with nothing to deliver is told once
per layer (R42). -/
def latchSources (s : State) (v : Nat) : List LayerSource × State :=
  let ls := (getView s v).applied.layers.zipIdx
  let srcs := ls.map fun p => if layerEnabled p.1 then layerSource s v p.2 p.1 else .empty
  let s := foldS (ls.zip srcs) (fun s q =>
    let x := getView s v
    let waitsFor := layerEnabled q.1.1 && (lType q.1.1 == 1 || lType q.1.1 == 2)
    if !waitsFor then s
    else if q.2 = .empty then
      if x.emptyRaised.get q.1.2 false then s
      else raiseEv (setView s v { x with emptyRaised := x.emptyRaised.set q.1.2 true false }) Ev.PRJ_SOURCE_EMPTY v (x.picture % 65536)
    else setView s v { x with emptyRaised := x.emptyRaised.set q.1.2 false false }) s
  (srcs, s)

/-- A FRAME view whose picture is started and whose composition is not. -/
def mayCompose (s : State) (v : Nat) : Bool :=
  let x := getView s v
  x.started && !x.applied.through && x.composing.isNone && !x.backDone && viewOn x.applied && composerOn s

def startComposition (s : State) (v : Nat) : State :=
  let s := rebind s v
  let p := latchSources s v
  noteReaders (setView p.2 v { getView p.2 v with composing := some p.1 }) v true

/-- Enabled layers whose source picture is not complete. -/
def lateLayers (s : State) (v : Nat) : List (List Byte) :=
  (getView s v).applied.layers.filter fun d => layerEnabled d && layerWaits (rebind s v) v d

def execCompositionStart (v : Nat) (s : State) : Host.Outcome State Fault Refusal :=
  .next (if mayCompose s v && (lateLayers s v).isEmpty then startComposition s v else s)

/-- The boundary that ends the view's picture. -/
def nextBoundary (s : State) (v : Nat) : Option Nat :=
  (scheduleOf s v).map fun c => c.boundary v (match (getView s v).k with
    | some k => k + 1
    | none => 0)

/-- At the latest-start instant, late layers use their previous complete pictures (R33). -/
def latestStart (s : State) (v : Nat) : State :=
  match nextBoundary s v with
  | none => s
  | some b =>
    let x := getView s v
    if mayCompose s v && reached s (latestBefore b x.applied) then
      let s := if (lateLayers s v).isEmpty then s else raiseEv s Ev.PRJ_SOURCE_LATE v (x.picture % 65536)
      startComposition s v
    else s

def execCompositionLatestStart (v : Nat) (s : State) : Host.Outcome State Fault Refusal := .next (latestStart s v)

/-- The composition in progress finishes: the back canvas holds the picture. -/
def compositionDone (s : State) (v : Nat) : State :=
  let x := getView s v
  match x.composing with
  | none => s
  | some srcs =>
    if x.applied.through || !composerOn s then s
    else
      let rows := composeCanvas x.applied s.prj.coef srcs
      noteReaders (setView s v { x with back := ⟨rows, allReady x.applied.h⟩, composing := none, backDone := true }) v false

def execCompositionDone (v : Nat) (s : State) : Host.Outcome State Fault Refusal := .next (compositionDone s v)

/-! ### Latitudes (R32) -/

/-- Source rows of a layer that must be committed for a latitude: rows 0 to the result − 1. -/
def rowsNeeded (d : List Byte) (srcH lat h : Nat) : Nat :=
  let lo := max ((16 * lat : Nat) : Int) (lDstY d)
  let hi := min ((16 * lat + 15 : Nat) : Int) (min (lDstY d + lDstH d - 1) ((h : Int) - 1))
  if hi < lo then 0
  else
    let yhi : Int := (min (lSrcY d + lSrcH d) srcH : Nat) - 1
    let j := (lSrcY d : Int) + (scalePos (lSrcH d) (lDstH d) (hi - lDstY d)).1
    (clip3 (lSrcY d) yhi (j + 3) + 1).toNat

/-- What a layer of a THROUGH view reads for a latitude, or nothing while rows it needs are not committed. -/
def throughSource (s : State) (v lat slot : Nat) (d : List Byte) : Option LayerSource :=
  if lType d == 1 && layerWaits s v d then
    match inProgress s (getStream s (lId d)) with
    | some (some t, p, n) =>
      match (getView s v).under with
      | none => none
      | some c =>
        if mstDiff t (c.boundary v (getView s v).picture) ≤ 0 ∧ rowsNeeded d p.h lat (getView s v).applied.h ≤ n then some (.picture p) else none
    | _ => none
  else some (layerSource s v slot d)

/-- Compose one latitude of a THROUGH view if every layer that covers it has its rows (R32). -/
def composeLatitude (s : State) (v lat : Nat) : State :=
  let s := rebind s v
  let x := getView s v
  let p := x.applied
  if !(x.started && p.through && viewOn p && decide (lat < latitudes p.h) && composerOn s) || x.back.map.getD lat true then s
  else
    let covers (d : List Byte) : Bool := decide (lDstY d < (16 * lat + 16 : Nat)) && decide (((16 * lat : Nat) : Int) < lDstY d + lDstH d)
    let srcs := p.layers.zipIdx.map fun q =>
      if !layerEnabled q.1 || !covers q.1 then some LayerSource.empty else throughSource s v lat q.2 q.1
    if srcs.any (·.isNone) then s
    else
      let s := if x.composing.isNone then startComposition s v else s
      let latched := ((getView s v).composing.getD []).zip p.layers
      let srcs := (srcs.zip latched).map fun q => if lType q.2.2 = 2 then q.2.1 else q.1.getD .empty
      let rows := (rangeFrom (16 * lat) (min 16 (p.h - 16 * lat))).map (composeRow p s.prj.coef srcs)
      let x := getView s v
      let done := (x.back.map.set lat true).all id
      let s := setView s v { x with back := ⟨x.back.rows.take (16 * lat) ++ rows ++ x.back.rows.drop (16 * lat + rows.length),
                                             x.back.map.set lat true⟩, backDone := done }
      if done then noteReaders s v false else s

def execLatitudeCompose (v lat : Nat) (s : State) : Host.Outcome State Fault Refusal := .next (composeLatitude s v lat)

/-! ### Sheet pictures (R51, R151) -/

/-- Start the sheet pictures of a view's picture, each under the settings of this moment (R31). In FRAME mode a Contour picture
is ready at once (R155). -/
def startSheets (s : State) (v k time : Nat) (repeated : Bool) (canvas : Option Canvas) (dose : Bool) : State :=
  let x := getView s v
  foldS (s.prj.gzt.filter fun e => gEnabled e.2 && gView e.2 == v) (fun s e =>
    let ct := gContour e.2
    let lead := x.leads.get (gPort e.2) (0, 0)
    let pic : SheetPic :=
      { picture := k, time := time, repeated := repeated, first := k == 0, restart := ct && (getEnc s e.1).fresh, entry := e.2,
        params := x.applied, cal := s.prj.cal.get e.1 identityCal, gain := s.prj.gain.get (8 * gDoseSheet e.2 + gView e.2) [],
        lead := lead.1, bytes := lead.2, canvas := canvas, dose := dose, bands := 0, means := [], rows := [], lateRows := [],
        staged := [], sent := 0, late := false, missed := false }
    let s := if ct then setEnc s e.1 { getEnc s e.1 with fresh := false } else s
    let s := setPics s e.1 (s.prj.sheets.get e.1 [] ++ [pic])
    if (headPic s e.1).any picReady && (coreOf s (true, e.1)).isNone then makeReady s e.1 else s) s

/-- The canvas rows and map that a sheet picture is cut from: its own, or its view's back canvas. -/
def cutFrom (s : State) (pic : SheetPic) : Canvas :=
  match pic.canvas with
  | some c => c
  | none => (getView s (gView pic.entry)).back

/-- Canvas rows that cabinet rows y0 to y0 + h − 1 show. -/
def canvasLats (e : List Byte) (y0 h : Nat) : List Nat :=
  if gRot e = 0 then latsOf (gY e + y0) h
  else if gRot e = 2 then latsOf (gY e + gH e - y0 - h) h
  else sheetLats e

/-- Cabinet rows of band j: the first and how many. -/
def bandRows (e : List Byte) (j : Nat) : Nat × Nat := (16 * j, min 16 (gH e - 16 * j))

/-- Latitudes that must be ready before band j is cut: every one of the region (R18), but for a Contour sheet with ROTATION 0 the
band's own, since it receives its cell rows in latitude order (R155, log 66). -/
def bandNeeds (e : List Byte) (j : Nat) : List Nat :=
  if gContour e ∧ gRot e = 0 then canvasLats e (bandRows e j).1 (bandRows e j).2 else sheetLats e

/-- What a late band is cut from (R19, R56): where a latitude of the region is not ready, that latitude comes from the front
canvas and the others from the picture; where all are and only the stages have not reached the band, it comes from the front
canvas (log 66). -/
def lateCanvas (s : State) (pic : SheetPic) : List (List Pix) :=
  match pic.canvas with
  | some c => c.rows
  | none =>
    let x := getView s (gView pic.entry)
    if (sheetLats pic.entry).all fun l => x.back.map.getD l false then x.front.rows else mergedRows x.front.rows x.back.rows x.back.map

def gainOn (s : State) : Bool := getB s Rg.PRJ_CTRL_GAIN_EN
def ditherFrame (s : State) (k : Nat) : Nat := if getB s Rg.PRJ_CTRL_DITHER_TEMPORAL then k else 0

/-- Views of the running schedule, N of R54. -/
def viewCount (s : State) : Nat := match s.sht.running with
  | none => 1
  | some c => c.views

/-- Keep a sheet's block means; those older than the picture last shown are dropped. -/
def keepMeans (s : State) (n picture : Nat) (m : List Nat) (shown : Nat) : State :=
  let l := s.prj.means.get n []
  let keep := if l.any (·.1 == shown) then l.dropWhile (·.1 != shown) else l.drop (l.length - 7)
  { s with prj := { s.prj with means := s.prj.means.set n (keep ++ [(picture, m)]) [] } }

/-- Measure a sheet's dose: the picture's means, or those of the held picture during HOLD (R54). -/
def measureDose (s : State) (n : Nat) (pic : SheetPic) (means : List Nat) : State :=
  let e := pic.entry
  let v := gView e
  let shown := s.sht.shown.get v 0
  let held := bit (getF s Rg.SHT_SCHED_STATUS_HELD) v
  let s := keepMeans s n pic.picture means shown
  if pic.dose && gDoseEn e && getB s Rg.PRJ_CTRL_DOSE_EN then
    let use := if held then (((s.prj.means.get n []).find? (·.1 == shown)).map (·.2)).getD means else means
    let d := gDoseSheet e
    let lane := gLane e
    let r := addDose (doseWeight (viewCount s)) 0 use (s.prj.dose.get d []) (s.prj.lfsr.get lane (lane + 1)) false
    let s := { s with prj := { s.prj with dose := s.prj.dose.set d r.1 [], lfsr := s.prj.lfsr.set lane r.2.1 (lane + 1) },
                      bg := { s.bg with doseChanged := s.bg.doseChanged.set d true false } }
    if r.2.2 then sheetEvent s Ev.PRJ_DOSE_SATURATED d pic.picture v else s
  else s

/-- Stages 1 to 7 of R51 on the next band of a sheet's picture, from given canvas rows: the state with the band's block means,
and after the last band with the dose; the band's rows. -/
def stageBand (s : State) (n : Nat) (pic : SheetPic) (canvas : List (List Pix)) : State × List (List Pix) :=
  let e := pic.entry
  let j := pic.bands
  let y0 := (bandRows e j).1
  let lin := (rangeFrom y0 (bandRows e j).2).map (linearRow pic (gainOn s) canvas)
  let pic := { pic with bands := j + 1, means := pic.means ++ bandMeans e lin }
  let s := setHeadPic s n pic
  let s := if j + 1 = gCellRows e then measureDose s n pic pic.means else s
  (s, lin.mapIdx fun i r => outputRow pic (ditherFrame s pic.picture) (y0 + i) r)

/-- Stage 8 for a raw sheet: the band is a unit. -/
def frameBand (s : State) (n : Nat) (rows : List (List Pix)) : State :=
  match headPic s n with
  | none => s
  | some pic =>
    let j := pic.sent
    let s := emitUnit s n pic.entry pic.picture pic.time pic.repeated j (bandData (gOutDepth pic.entry) rows)
    if j + 1 = gUnits pic.entry then dropHeadPic s n else setHeadPic s n { pic with sent := j + 1 }

/-- Stage 8 for a Contour sheet: the rows are in the input buffer, and the cell row is marked ready (R154, R155). -/
def markBand (s : State) (n : Nat) (rows : List (List Pix)) : State :=
  match headPic s n with
  | none => s
  | some pic =>
    let pic := { pic with rows := pic.rows ++ rows }
    let s := setHeadPic s n pic
    let x := getEnc s n
    let s := match x.run with
      | none => s
      | some r => setEnc s n { x with run := some { r with src := prepare r.hdr pic.rows } }
    if (coreOf s (true, n)).isNone then makeReady s n else s

/-! ### Late rows (R19, R56, R189) -/

/-- Latitudes not ready when the sheet's rows must go: told once per latitude and picture (R19). -/
def lateLatitudes (s : State) (pic : SheetPic) (lats : List Nat) : State :=
  let v := gView pic.entry
  let c := cutFrom s pic
  foldS (lats.filter fun l => !c.map.getD l true) (fun s l =>
    let x := getView s v
    if x.lateLats.get l false then s
    else
      let s := addF (addT (setView s v { x with lateLats := x.lateLats.set l true false }) teleLate) Rg.PRJ_VIEW_LATE_LATE_LATITUDES v
      raiseEv s Ev.PRJ_LATE_LATITUDE v (pic.picture % 65536)) s

/-- PRJ_SHEET_LATE, once per sheet picture (R56). -/
def tellLate (s : State) (n : Nat) : State :=
  match headPic s n with
  | none => s
  | some pic =>
    if pic.late then s
    else sheetEvent (addT (setHeadPic s n { pic with late := true }) teleLate) Ev.PRJ_SHEET_LATE n pic.picture (gView pic.entry)

/-- The next band of a sheet's picture is late: its latitudes that are not ready are told, and it is cut from what R19 and R56
name. -/
def stageLate (s : State) (n : Nat) (pic : SheetPic) : State × List (List Pix) :=
  let b := bandRows pic.entry pic.bands
  let rows := lateCanvas s pic
  stageBand (lateLatitudes s pic (canvasLats pic.entry b.1 b.2)) n pic rows

/-- Mark cell row r late; never marked where its band was not staged in time. -/
def noteLateRow (s : State) (n r : Nat) (staged : Bool) : State :=
  match headPic s n with
  | none => s
  | some pic =>
    tellLate (setHeadPic s n { pic with lateRows := pic.lateRows ++ [r], staged := if staged then pic.staged ++ [r] else pic.staged }) n

/-! ### Sheet output (R51, R155) -/

/-- The next band of a sheet's picture, if its latitudes are ready and the lane works. -/
def outputBand (s : State) (n : Nat) : State :=
  match headPic s n with
  | none => s
  | some pic =>
    let e := pic.entry
    let c := cutFrom s pic
    if gCellRows e ≤ pic.bands || !(bandNeeds e pic.bands).all (fun l => c.map.getD l false) || !domainOn s (31 + gLane e) || !domainOn s 35 then s
    else
      let r := stageBand s n pic c.rows
      if gContour e then
        let s := markBand r.1 n r.2
        if 0 < mstDiff (mst s) (markInstant s pic pic.bands) then noteLateRow s n pic.bands false else s
      else frameBand r.1 n r.2

/-- Sheet output: every band of the sheet's picture whose latitudes are ready. -/
def outputBands (s : State) (n : Nat) : Nat → State
  | 0 => s
  | m + 1 => outputBands (outputBand s n) n m

def sheetOutput (s : State) (n : Nat) : State :=
  match headPic s n with
  | none => s
  | some pic => outputBands s n (gCellRows pic.entry - pic.bands)

def execSheetOutputStart (n : Nat) (s : State) : Host.Outcome State Fault Refusal := .next (sheetOutput s n)

/-! ### Emission instants (R56, R188, R189) -/

/-- A raw band that has not passed stage 7 at its emission instant. -/
def forceRaw (s : State) (n : Nat) (pic : SheetPic) : State :=
  let r := stageLate s n pic
  frameBand (tellLate r.1 n) n r.2

/-- A cell row that is not marked when it must be: its samples are measured, and it is coded REPEAT_ROW. -/
def lateCellRow (s : State) (n : Nat) (pic : SheetPic) : State :=
  let r := stageLate s n pic
  repeatSheetRow (noteLateRow (markBand r.1 n r.2) n pic.bands true) n

/-- A cell row marked in time and not coded at its emission instant (R169, R189). -/
def missedCellRow (s : State) (n : Nat) (pic : SheetPic) : State :=
  let s := if pic.missed then s
    else addF (addT (sheetEvent (setHeadPic s n { pic with missed := true }) Ev.SCR_DEADLINE_MISS n pic.picture (gView pic.entry))
      teleMiss) Rg.SCR_MISS_COUNT_MISSES
  repeatSheetRow (tellLate s n) n

/-- The next cell row of a picture, before row top, if it is late. -/
def forceCellRow (s : State) (n top : Nat) : State :=
  match headPic s n, (getEnc s n).run with
  | some pic, some r =>
    let past := reached s (unitInstant s pic (r.row / max 1 r.hdr.sliceRows))
    if top ≤ r.row then s
    else if r.early then (if past then repeatSheetRow s n else s)
    else if r.row < pic.bands then
      if pic.lateRows.contains r.row then repeatSheetRow s n else if past then missedCellRow s n pic else s
    else if reached s (markInstant s pic r.row) then lateCellRow s n pic else s
  | _, _ => s

def forceCellRows (s : State) (n top : Nat) : Nat → State
  | 0 => s
  | m + 1 => forceCellRows (forceCellRow s n top) n top m

/-- Raw bands up to unit j that must go. -/
def forceBands (s : State) (n j : Nat) : Nat → State
  | 0 => s
  | m + 1 =>
    match headPic s n with
    | none => s
    | some pic =>
      if pic.sent ≤ j ∧ !gContour pic.entry ∧ reached s (unitInstant s pic pic.sent) then forceBands (forceRaw s n pic) n j m else s

/-- The emission instant of a sheet's unit: what of the picture in progress, up to that unit, must go and has not gone is forced
out; of a Contour sheet also cell rows whose marks are late. -/
def emissionInstant (s : State) (n j : Nat) : State :=
  match headPic s n with
  | none => s
  | some pic =>
    let e := pic.entry
    if gUnits e ≤ j then s
    else if gContour e then
      let top := min ((j + 1) * max 1 (gSliceRows e)) (gCellRows e)
      let s := if (getEnc s n).run.isNone && reached s (markInstant s pic 0) then startEncode s n pic else s
      forceCellRows s n top top
    else forceBands s n j (j + 1)

def execUnitEmissionInstant (n j : Nat) (s : State) : Host.Outcome State Fault Refusal := .next (emissionInstant s n j)

/-! ### CELL_ROW_CODE (R161) -/

/-- A core that has the sheet codes its next row: it waits, busy, for a row that is not marked and not late (R155). A poisoned
read of the input buffer closes the picture early (R167). -/
def codeCellRow (s : State) (n c : Nat) (poisoned : Bool) : State :=
  match headPic s n, (getEnc s n).run with
  | some pic, some r =>
    let coding := setCoreState s c coreEncode
    if r.early then repeatSheetRow coding n
    else if r.row < pic.bands then
      if poisoned then repeatSheetRow (closeEarly coding n) n
      else if pic.lateRows.contains r.row then repeatSheetRow coding n
      else codeMarkedRow coding n
    else if reached s (markInstant s pic r.row) then lateCellRow coding n pic
    else setCoreState s c coreWait
  | _, _ => s

/-- Operands: the sheet, and whether the read of its input buffer is poisoned. -/
def execCellRowCode (n : Nat) (poisoned : Bool) (s : State) : Host.Outcome State Fault Refusal :=
  .next <|
    match coreOf s (true, n) with
    | none => s
    | some c =>
      if (coreState s c = coreEncode ∨ coreState s c = coreWait) ∧ domainOn s (6 + c) then codeCellRow s n c poisoned else s

/-! ### PRESENT frames (R191) -/

/-- Every cabinet on the port follows the device's PTP. -/
def followsPtp (s : State) (port : Nat) (l : List (Nat × List Byte)) : Bool :=
  getF s Rg.SHT_CHAIN_TIMED port == 0 && l.all fun e => bit (beAt (hopRecord s port (gHop e.2)) 22 1) 6

/-- SHT_NO_DELAY, once per hop (R196). -/
def tellNoDelay (s : State) (port hop : Nat) : State :=
  if hopValid s port hop || s.sht.noDelay.get (16 * port + hop) false then s
  else raiseEv { s with sht := { s.sht with noDelay := s.sht.noDelay.set (16 * port + hop) true false } } Ev.SHT_NO_DELAY port hop

def mstAdd (a : Nat) (d : Int) : Nat := ((a + d) % 2 ^ 32).toNat

/-- Prepare the PRESENT of a view's picture on each port that serves it. -/
def preparePresents (s : State) (c : Sched) (v k : Nat) : State :=
  foldS (portsOf s v) (fun s p =>
    let l := sheetsOn s.prj.gzt v p
    let ptp := followsPtp s p l
    let t := c.shows v k
    let dm := dMax s l p
    let lead := if ptp then getF s Rg.SHT_LAUNCH_LEAD_US * 1000 else dm + getF s Rg.SHT_LAUNCH_MARGIN_NS
    let chain := maxOf (l.map fun e => gHop e.2) + 1
    let waits := if ptp then [] else (List.range chain).map fun h => lead - hopDelay0 s p h
    let s := if ptp then s else foldS (l.map fun e => gHop e.2) (fun s h => tellNoDelay s p h) s
    let pr : Present :=
      ⟨p, v, k, c.boundary v k, t, mstAdd t (-(lead : Int)), !ptp, waits ++ List.replicate (16 - waits.length) 0, false, v == 0 && k == 0, chain⟩
    { s with sht := { s.sht with presents := s.sht.presents ++ [pr] } }) s

/-! ### Presentation boundaries (R30 to R33) -/

/-- The picture before a boundary ends: in FRAME mode the canvases swap and it is cut, or it is abandoned and the front
canvas is cut again; in THROUGH mode the canvases swap and sheets still in progress keep what they are cut from. -/
def endPicture (s : State) (v : Nat) : State :=
  let x := getView s v
  if !x.started || !viewOn x.applied then s
  else
    let h := x.applied.h
    if x.applied.through then
      let full : Canvas := ⟨mergedRows x.front.rows x.back.rows x.back.map, x.back.map⟩
      let s := foldS ((s.prj.sheets.filter fun p => p.2.any fun q => q.canvas.isNone && gView q.entry == v)) (fun s p =>
        setPics s p.1 (p.2.map fun q => if q.canvas.isNone && gView q.entry == v then { q with canvas := some full } else q)) s
      setView s v { x with front := ⟨full.rows, allReady h⟩, back := ⟨x.front.rows, noneReady h⟩ }
    else if x.backDone then
      let front : Canvas := ⟨x.back.rows, allReady h⟩
      startSheets (setView s v { x with front := front, back := ⟨x.front.rows, noneReady h⟩ }) v x.picture x.time false (some front) x.doseNow
    else
      let s := raiseEv (addF s Rg.PRJ_VIEW_LATE_FRAME_LATE v) Ev.PRJ_FRAME_LATE v (x.picture % 65536)
      let s := { s with sht := { s.sht with presents := s.sht.presents.map fun p =>
        if p.view = v ∧ p.picture = x.picture ∧ p.time = x.time then { p with repeated := true } else p } }
      startSheets s v x.picture x.time true (some ⟨x.front.rows, allReady h⟩) x.doseNow

/-- Picture k of a view starts at its boundary: its delays and the port's bytes are fixed (R196), and bindings are counted anew
under a new schedule. DESIGN CHOICE (log 65): a view disabled by a canvas of 0, with a slot and enabled entries, sends no sheet
frames (R29) and still has its PRESENT frames (R191). -/
def beginPicture (s : State) (c : Sched) (v k : Nat) : State :=
  let x := getView s v
  let dose := x.doseSec != some s.mer.sec
  let h := x.applied.h
  let bound := if x.under = some c then x.bound else x.bound.map fun b => (b.1, b.2.map fun y => (0, y.2))
  let x := { x with picture := k, time := c.shows v k, started := true, k := some k, backDone := false, composing := none,
                    under := some c, bound := bound, leads := (portsOf s v).map fun p => (p, portLead s v p),
                    back := ⟨x.back.rows, noneReady h⟩, doseSec := some s.mer.sec, doseNow := dose, lateLats := [] }
  let s := setF (setView s v x) Rg.PRJ_VIEW_STATE_PICTURE v k
  let s := rebind s v
  let s := preparePresents s c v k
  if x.applied.through && viewOn x.applied then startSheets s v k x.time false none dose else s

/-- Set a trigger for the running schedule (R185, R221). -/
def ownTrigger (s : State) (t start period action pins width : Nat) : State :=
  let s := setF s Rg.MER_TRIG_START_START t start
  let s := setF (setF s Rg.MER_TRIG_PERIOD_PERIOD_NS t (period / 65536)) Rg.MER_TRIG_PERIOD_PERIOD_FRAC t period
  let s := setF (setF s Rg.MER_TRIG_CTRL_ACTION t action) Rg.MER_TRIG_CTRL_PIN_MASK t pins
  let s := setF (setF (setF s Rg.MER_TRIG_CTRL_WIDTH t width) Rg.MER_TRIG_COUNT_COUNT t 0) Rg.MER_TRIG_CTRL_ARM t 1
  { s with mer := { s.mer with trigs := s.mer.trigs.set t ⟨0, false⟩ ⟨0, false⟩ } }

def releaseTrigger (s : State) (t : Nat) : State :=
  let s := setF s Rg.MER_TRIG_CTRL_ARM t 0
  { s with mer := { s.mer with trigs := s.mer.trigs.erase t } }

/-- Triggers 0 to 7 fire the boundaries, 8 to 11 drive the SYNC_OUT pins of the views' masks (R185). -/
def ownTriggers (s : State) (c : Sched) : State :=
  let s := foldS (List.range 8) (fun s v =>
    if v < c.views then ownTrigger s v (c.boundary v 0) c.period 3 0 0 else releaseTrigger s v) s
  foldS (List.range 4) (fun s pin =>
    match (List.range c.views).find? fun v => bit (recMask (c.viewRec v)) pin with
    | some v => ownTrigger s (8 + pin) (mstAdd (c.shows v 0) (recOffset (c.viewRec v))) c.period 1 (2 ^ pin) (recWidth (c.viewRec v))
    | none => releaseTrigger s (8 + pin)) s

/-- The first schedule that waits replaces the running one at its START: pictures already started keep their own times, and edits
of views without a slot apply at once (R186, R187). -/
def switchSchedule (s : State) : State :=
  match s.sht.next with
  | [] => s
  | c :: r =>
    let s := { s with sht := { s.sht with running := some c, next := r, nacks := [] } }
    let s := setF (setF s Rg.SHT_SCHED_STATUS_RUNNING 0 1) Rg.SHT_SCHED_STATUS_VIEWS_M1 0 (c.views - 1)
    let s := ownTriggers s c
    settleEdits (foldS (List.range 8) (fun s v =>
      let x := getView s v
      setView s v { x with k := none, started := x.started && decide (v < c.views) }) s)

/-- Boundary B(k) of a view under the running schedule. -/
def viewBoundary (s : State) (v k : Nat) : State :=
  match scheduleOf s v with
  | none => s
  | some c =>
    let s := noteReaders (endPicture s v) v false
    let s := applyEdits s v ⟨c.boundary v k, true⟩
    beginPicture s c v k

/-- The schedule ends: no boundary comes any more, pictures in progress finish and are not presented (R194): a THROUGH view goes
on composing its picture; a FRAME view's would be cut at a boundary that does not come. -/
def stopSchedule (s : State) : State :=
  let waits := s.sht.waits
  let s := { s with sht := { s.sht with running := none, next := [], presents := [], waits := [] } }
  let s := { s with ports := s.ports.map fun p => (p.1, { p.2 with idle := p.2.idle.filter (·.1 == 8) }) }
  let s := setF s Rg.SHT_SCHED_STATUS_RUNNING 0 0
  let s := foldS (List.range 8) (fun s v =>
    let x := getView s v
    setView s v { x with started := x.started && x.applied.through, k := none }) s
  let s := foldS (List.range 12) releaseTrigger s
  settleEdits (foldS waits (fun s w => completeId s w.cmd St.timePast) s)

end Sys2Proof.Machine
end

