-- ==== Sys2Proof/Machine/RollCall.lean ====
section
/-!
DEFINITION. Roll-call (R178 to R182), calibration pushes (R181), loss reports (R183) and the replies of cabinets (R197), and
the wall's declared load (R426).
-/

namespace Sys2Proof.Machine

/-! ### Cabinet records (R179) -/

/-- A record is a frame's payload: its fields are big-endian (R2). -/
def cabKind (r : List Byte) : Nat := beAt r 0 1
def cabPosition (r : List Byte) : Nat := beAt r 1 1
def cabPanelW (r : List Byte) : Nat := beAt r 16 2
def cabPanelH (r : List Byte) : Nat := beAt r 18 2
def cabFormats (r : List Byte) : Nat := beAt r 22 1
def cabMaxDepth (r : List Byte) : Nat := beAt r 23 1
def cabLevel (r : List Byte) : Nat := beAt r 24 1
def cabPower (r : List Byte) : Nat := beAt r 25 1
def cabMaxRate (r : List Byte) : Nat := beAt r 26 2
def cabMaxData (r : List Byte) : Nat := beAt r 28 2
def cabViews (r : List Byte) : Nat := beAt r 30 1
def cabTurnaround (r : List Byte) : Nat := beAt r 32 4

/-- Every field of a record is in R179's range. -/
def recordInRange (r : List Byte) : Bool :=
  let within (lo hi n : Nat) : Bool := decide (lo ≤ n) && decide (n ≤ hi)
  decide (cabKind r ≤ 2) && within 64 2048 (cabPanelW r) && within 64 2048 (cabPanelH r) && within 8 16 (cabMaxDepth r) &&
  [0, 10, 20, 30, 40, 50].contains (cabLevel r) && within 1 255 (cabPower r) && within 1 960 (cabMaxRate r) &&
  within 256 9176 (cabMaxData r) && within 1 8 (cabViews r)

/-- The records of a port whose position answered. -/
def portRecords (s : State) (p : Nat) : List (Nat × List Byte) :=
  (List.range 16).filterMap fun h => match hopRecord s p h with
    | [] => none
    | r => some (h, r)

/-- SHT_CHAIN.TIMED: positions without PTP_FOLLOW. -/
def showChain (s : State) (p : Nat) : State :=
  setF s Rg.SHT_CHAIN_TIMED p ((portRecords s p).foldl (fun a r => if bit (cabFormats r.2) 6 then a else a + 2 ^ r.1) 0)

/-- Totals of the wall (R426). -/
def wallLoad (s : State) : State :=
  let rs := s.sht.recs.map (·.2)
  let watts := (rs.map fun r => cabPower r * 25).sum
  let s := setF (setF s Rg.SNS_WALL_LOAD_CABINETS 0 rs.length) Rg.SNS_WALL_LOAD_POWER_KW 0 (min 65535 (ceilDiv watts 1000))
  let s := setF s Rg.SNS_WALL_LOAD_KPIXELS 0 (ceilDiv (rs.map fun r => cabPanelW r * cabPanelH r).sum 1000)
  let b := getF s Rg.SNS_POWER_BUDGET_BUDGET_KW
  setF s Rg.SNS_POWER_BUDGET_OVER 0 (b != 0 && decide (b * 1000 < watts)).toNat

/-! ### Requests -/

def getRollcall (s : State) (p : Nat) : Option RollCall := s.sht.rollcalls.get p none
def setRollcall (s : State) (p : Nat) (x : Option RollCall) : State :=
  { s with sht := { s.sht with rollcalls := s.sht.rollcalls.set p x none } }
def getPush (s : State) (p : Nat) : Option Push := s.sht.pushes.get p none
def setPush (s : State) (p : Nat) (x : Option Push) : State :=
  { s with sht := { s.sht with pushes := s.sht.pushes.set p x none } }

def mgmtClass (s : State) : Nat := getF s Rg.SHT_CTRL_PCP_MGMT

/-- Send a ROLLCALL_REQ and open its window. -/
def sendRollcall (s : State) (p kind : Nat) (cmd : Option Nat) : State :=
  let req := s.sht.reqSeq % 65536
  let s := { s with sht := { s.sht with reqSeq := s.sht.reqSeq + 1 } }
  let s := setRollcall s p (some ⟨kind, cmd, req, s.now, none, none, [], [], []⟩)
  let h : SheetHdr := ⟨ftRollcallReq, 0, 0, 0, req, 0, 0, 0, 0⟩
  let b := beBytes 1 kind ++ zeros 1 ++ beBytes 2 req
  (sendFrame s p (mgmtClass s) 129 (sheetFrame s (sheetAddress s p) (mgmtClass s) h b) .rollcall).2

/-- DISCOVER first clears the port's records and delays, but for those with LOCK set. -/
def clearChain (s : State) (p : Nat) : State :=
  let s := foldS (List.range 16) (fun s h =>
    let k := 16 * p + h
    if getB s Rg.SHT_HOP_DELAY_LOCK k then s
    else
      let s := { s with sht := { s.sht with recs := s.sht.recs.erase k } }
      setF (setF s Rg.SHT_HOP_DELAY_DELAY_NS k 0) Rg.SHT_HOP_DELAY_VALID k 0) s
  wallLoad (showChain (setF s Rg.SHT_CHAIN_CABINETS p 0) p)

/-! ### ROLLCALL (R181) -/

def rcAction (e : List Byte) : Nat := leAt e 20 1

def startRollcall (s : State) (e : List Byte) : Begin :=
  let p := eTarget e
  if 127 < p then invalid 4
  else if eLen e = 0 then .finish St.okZero 0 0
  else checked [(eAddr e + eLen e ≤ 2 ^ 64, 8),
      (if rcAction e < 2 then decide (1024 ≤ eLen e) else decide (eLen e ≤ 0x1000000), 16), (rcAction e ≤ 2, 20),
      (rcAction e != 2 || !(hopRecord s p (leAt e 21 1)).isEmpty && decide (leAt e 21 1 ≤ 15), 21)]
    (if !portEnabled s p then .finish St.stateConflict 0 0
     else if rcAction e = 2 then (if (getPush s p).isSome then .finish St.busy 0 0 else .read (eAddr e) (eLen e) none)
     else if (getRollcall s p).any (·.cmd.isSome) then .finish St.busy 0 0 else .run)

/-- Send a calibration block as CAL_PUSH frames (R176, R181). -/
def sendPush (s : State) (p hop block : Nat) (d : List Byte) : State :=
  let fs := fragments (maxData s) (d.length + 1) 0 d
  (fs.foldl (fun (a : State × Nat) f =>
    let last := a.2 + 1 == fs.length
    let h : SheetHdr := ⟨ftCalPush, if last then flLast + flEnd else 0, 0, 0, block, hop, 0, f.1, 0⟩
    let b := sheetFrame a.1 (sheetAddress a.1 p) (mgmtClass a.1) h f.2
    ((sendFrame a.1 p (mgmtClass a.1) 129 b (if last then .calEnd else .plain)).2, a.2 + 1)) (s, 0)).1

def runRollcall (s : State) (c : Cmd) (d : List Byte) : State :=
  let p := eTarget c.entry
  if rcAction c.entry = 2 then
    if (getPush s p).isSome then complete s c St.busy
    else
      let hop := leAt c.entry 21 1
      let block := leAt c.entry 22 1
      sendPush (setPush s p (some ⟨c.id, hop, block, crc32c d, some s.now⟩)) p hop block d
  else if rcAction c.entry = 0 then
    let s := match getPush s p with
      | none => s
      | some x => completeId (setPush s p none) x.cmd St.dataError
    sendRollcall (clearChain s p) p 0 (some c.id)
  else sendRollcall s p 1 (some c.id)

def execRollcall (q : Nat) (s : State) : Host.Outcome State Fault Refusal :=
  .next (ringRow Op.rollcall anyEntry startRollcall runRollcall q s)

/-! ### Replies (R180, R197) -/

/-- A reply is dropped under R197. -/
def replyInvalid (s : State) (p hop : Nat) : State :=
  raiseEv (addF s Rg.SHT_NACK_COUNT_REPLY_INVALID) Ev.SHT_REPLY_INVALID p (hop % 16)

/-- Where the sheet header of a frame starts. -/
def hdrAt (b : List Byte) : Nat := payloadAt b
def hVersion (b : List Byte) : Nat := beAt b (hdrAt b) 1 / 16
def hType (b : List Byte) : Nat := beAt b (hdrAt b) 1 % 16
def hSheet (b : List Byte) : Nat := beAt b (hdrAt b + 2) 2 % 4096
def hView (b : List Byte) : Nat := beAt b (hdrAt b + 2) 2 / 4096 % 8
def hPicture (b : List Byte) : Nat := beAt b (hdrAt b + 4) 2
def hHop (b : List Byte) : Nat := beAt b (hdrAt b + 6) 2 / 4096
def hSlice (b : List Byte) : Nat := beAt b (hdrAt b + 6) 2 % 1024
def hPayload (b : List Byte) : List Byte := b.drop (hdrAt b + 16)

/-- D_h from t1 and t4 in 1/16 ns: none where the path time is negative or above 1 ms. -/
def hopTime (t1 t4 : Int) (turn : Nat) : Option Nat :=
  let d := stampDiff t4 t1 - 16 * turn
  if d < 0 ∨ 16000000 < d then none else some (d / 32).toNat

/-- Write D_h unless LOCK is set; a PING that moves it by more than 50 ns is told (R180, R181). -/
def writeDelay (s : State) (p h d kind : Nat) : State :=
  let k := 16 * p + h
  if getB s Rg.SHT_HOP_DELAY_LOCK k then s
  else
    let old := getF s Rg.SHT_HOP_DELAY_DELAY_NS k
    let moved := kind = 1 && getB s Rg.SHT_HOP_DELAY_VALID k && decide (50 < max d old - min d old)
    let s := setF (setF s Rg.SHT_HOP_DELAY_DELAY_NS k d) Rg.SHT_HOP_DELAY_VALID k 1
    if moved then raiseEv s Ev.SHT_DELAY_CHANGED p h else s

/-- Put back what a position had before this roll-call. -/
def restoreHop (s : State) (p h : Nat) (r : RollCall) : State :=
  match r.old.get h none with
  | none => s
  | some (w, rcd) =>
    let k := 16 * p + h
    let s := setF (setF s Rg.SHT_HOP_DELAY_DELAY_NS k w) Rg.SHT_HOP_DELAY_VALID k (w / 2 ^ 31)
    showChain { s with sht := { s.sht with recs := s.sht.recs.set k rcd [] } } p

def countAnswers (s : State) (p : Nat) (r : RollCall) : State :=
  if r.kind = 0 then setF s Rg.SHT_CHAIN_CABINETS p r.rsps.length else s

/-- A DISCOVER or PING response: its delay and its record (R180). -/
def takeResponse (s : State) (p : Nat) (r : RollCall) (h : Nat) (rcd : List Byte) : State :=
  let k := 16 * p + h
  let old := some (getF s Rg.SHT_HOP_DELAY_DELAY_NS k + 2 ^ 31 * getF s Rg.SHT_HOP_DELAY_VALID k, hopRecord s p h)
  let r := { r with lastAt := some s.now, rsps := r.rsps.insert h rcd, old := r.old.set h old none }
  let s := { setRollcall s p (some r) with sht := { (setRollcall s p (some r)).sht with recs := s.sht.recs.set k rcd [] } }
  let s := countAnswers (showChain s p) p r
  let s := match r.t1 with
    | none => s
    | some t1 =>
      if !stampsValid s p then s
      else match hopTime t1 (ingressStamp s p) (cabTurnaround rcd) with
        | some d => writeDelay s p h d r.kind
        | none => raiseEv s Ev.SHT_REPLY_INVALID p h
  if recordInRange rcd then s else raiseEv s Ev.SHT_REPLY_INVALID p h

/-- Every response at a position is discarded (R197). -/
def discardHop (s : State) (p h : Nat) (r : RollCall) : State :=
  let s := restoreHop s p h r
  let r := { r with lastAt := some s.now, rsps := r.rsps.erase h, old := r.old.erase h, bad := h :: r.bad.filter (· != h) }
  replyInvalid (countAnswers (setRollcall s p (some r)) p r) p h

/-- A CAL_ACK (R181). -/
def calAck (s : State) (p : Nat) (b rcd : List Byte) : State :=
  match getPush s p with
  | none => replyInvalid s p (hHop b)
  | some x =>
    if hHop b != x.hop || cabPosition rcd != x.hop || hPicture b != x.block then replyInvalid s p (hHop b)
    else
      let good := beAt rcd 44 4 == x.crc && beAt rcd 48 1 == 0
      completeId (setPush s p none) x.cmd (if good then St.ok else St.dataError)

/-- A ROLLCALL_RSP arrives on a port. -/
def rollcallRsp (s : State) (p : Nat) (b : List Byte) : State :=
  let rcd := (hPayload b).take 64
  if cabKind rcd = 2 then calAck s p b rcd
  else
    match getRollcall s p with
    | none => replyInvalid s p (hHop b)
    | some r =>
      let h := cabPosition rcd
      if hPicture b != r.req then replyInvalid s p (hHop b)
      else if 15 < h then replyInvalid s p (hHop b)
      else if h != hHop b || r.bad.contains h || (r.rsps.get h []) != [] then discardHop s p h r
      else takeResponse s p r h rcd

/-! ### Loss reports (R183) -/

def sheetReported (s : State) (p : Nat) (b : List Byte) : Bool :=
  let e := gztEntry s (hSheet b)
  gEnabled e && gPort e == p && gHop e == hHop b

/-- At most one refresh per sheet in any 8 consecutive pictures of the sheet. -/
def nackRefresh (s : State) (n : Nat) : State :=
  let e := gztEntry s n
  let k := (getView s (gView e)).picture
  let due := match s.sht.nackRefresh.get n none with
    | none => true
    | some o => decide (o + 8 ≤ k) || decide (k < o)
  if gContour e && getB s Rg.SHT_CTRL_NACK_REFRESH && due then
    requestI { s with sht := { s.sht with nackRefresh := s.sht.nackRefresh.set n (some k) none } } n
  else s

/-- The number of the picture that a report names by its low 16 bits: the latest of the view not after the one in progress. -/
def reportedPicture (s : State) (b : List Byte) : Nat :=
  let k := (getView s (hView b)).picture
  k - (k + 65536 - hPicture b) % 65536

/-- A loss report; extra reports of a sheet and picture are dropped (R197). -/
def nackReport (s : State) (p : Nat) (b : List Byte) : State :=
  let key := (hSheet b, reportedPicture s b)
  if s.sht.nacks.contains key then s
  else
    let s := addT s teleNack
    let live := s.sht.nacks.filter fun q => q.1 != key.1 || decide (key.2 < q.2 + 32768)
    let s := addF { s with sht := { s.sht with nacks := live ++ [key] } } Rg.SHT_NACK_COUNT_NACKS
    if sheetReported s p b then
      nackRefresh (sheetEvent s Ev.SHT_NACK (hSheet b) (hPicture b) (hView b)) (hSheet b)
    else raiseEv (sheetEvent s Ev.SHT_NACK (hSheet b) (hPicture b) (hView b)) Ev.SHT_REPLY_INVALID p (hHop b)

/-- Downstream types at a port: the chain may loop; told once per second (R197). -/
def loopReply (s : State) (p : Nat) (b : List Byte) : State :=
  let s := addF s Rg.SHT_NACK_COUNT_REPLY_INVALID
  if oncePerSecond s (s.sht.loopAt.get p none) then
    raiseEv { s with sht := { s.sht with loopAt := s.sht.loopAt.set p (some s.now) none } } Ev.SHT_REPLY_INVALID p (hHop b)
  else s

/-- A sheet transport frame from a chain (R197). -/
def sheetReply (s : State) (p : Nat) (b : List Byte) : State :=
  if hVersion b != 1 then replyInvalid s p (hHop b)
  else if hType b = ftRollcallRsp then rollcallRsp s p b
  else if hType b = ftNack then nackReport s p b
  else if hType b ≤ 5 then loopReply s p b
  else replyInvalid s p (hHop b)

/-- A reply frame reaches the Compass; operands: port, the frame without its FCS. -/
def execRollcallRspReceive (p : Nat) (b : List Byte) (s : State) : Host.Outcome State Fault Refusal :=
  .next (if p < 128 ∧ portUp s p then sheetReply s p b else s)

def execNackReportReceive (p : Nat) (b : List Byte) (s : State) : Host.Outcome State Fault Refusal :=
  .next (if p < 128 ∧ portUp s p ∧ hVersion b = 1 ∧ hType b = ftNack then nackReport s p b else s)

/-! ### Capability checks (R182) -/

/-- Presentations per second of one view, in 2^−16 Hz rounded up; 0 without a schedule. -/
def baseRate16 (s : State) : Nat := match s.sht.running with
  | none => 0
  | some c => ceilDiv (1000000000 * 65536 * 65536) (max 1 c.period)

/-- The Contour level that a cabinet's sheets need (R120): size, sides and summed pixel and picture rates. -/
def levelNeeded (e : List Byte) (pixels16 rate16 : Nat) : Nat :=
  let rows : List (Nat × Nat × Nat × Nat × Nat) :=
    [(10, 262144, 1024, 1024, 125829120), (20, 1048576, 2048, 2048, 503316480), (30, 4194304, 4096, 4096, 2013265920),
     (40, 33554432, 8192, 8192, 2500000000), (50, 536870912, 32768, 16384, 4026531840)]
  ((rows.find? fun r => decide (gW e * gH e ≤ r.2.1) && decide (gW e ≤ r.2.2.1) && decide (gH e ≤ r.2.2.2.1) &&
    decide (pixels16 ≤ r.2.2.2.2 * 65536) && decide (rate16 ≤ 960 * 65536)).map (·.1)).getD 60

def capabilityBad (s : State) (p h : Nat) (e rcd : List Byte) : Bool :=
  let on := (s.prj.gzt.filter fun x => gEnabled x.2 && gPort x.2 == p && gHop x.2 == h && (scheduleOf s (gView x.2)).isSome).map (·.2)
  let r := baseRate16 s
  let ct := on.filter gContour
  let f := cabFormats rcd
  gW e != cabPanelW rcd || gH e != cabPanelH rcd || !bit f (gOutput e) ||
  (gContour e && (decide (cabMaxDepth rcd < gDepth e) || (g422 e && !bit f 4) || (gCt e && !bit f 5) ||
    decide (cabLevel rcd < levelNeeded e ((ct.map fun x => gW x * gH x).sum * r) (ct.length * r)))) ||
  decide (cabMaxRate rcd * 65536 < on.length * r) || decide (cabMaxData rcd < getF s Rg.SHT_MAX_DATA_BYTES)

/-- Compare every enabled entry of the port with the record of its cabinet. -/
def checkCapabilities (s : State) (p : Nat) (r : RollCall) : State :=
  foldS (s.prj.gzt.filter fun e => gEnabled e.2 && gPort e.2 == p) (fun s e =>
    match r.rsps.get (gHop e.2) [] with
    | [] => s
    | rcd =>
      if recordInRange rcd && capabilityBad s p (gHop e.2) e.2 rcd then
        sheetEvent s Ev.SHT_CAPABILITY_MISMATCH e.1 ((getView s (gView e.2)).picture) (gView e.2)
      else s) s

/-! ### The end of a window (R181) -/

def windowOver (s : State) (r : RollCall) : Bool :=
  decide (r.sentAt + 10 * msNs ≤ s.now) || match r.lastAt with
    | none => false
    | some t => decide (t + 2 * msNs ≤ s.now)

def windowEnd (s : State) (p : Nat) : State :=
  match getRollcall s p with
  | none => s
  | some r =>
    if !windowOver s r then s
    else
      let s := setRollcall s p none
      let s := wallLoad (checkCapabilities s p r)
      match r.cmd with
      | none => s
      | some id =>
        match findCmd s id with
        | none => s
        | some c =>
          let b := (List.range 16).flatMap fun h => let x := r.rsps.get h []; x ++ zeros (64 - x.length)
          complete (raiseEv (hostWrite s (eAddr c.entry) b) Ev.SHT_ROLLCALL_DONE p) c St.ok r.rsps.length

def execRollcallWindowEnd (p : Nat) (s : State) : Host.Outcome State Fault Refusal := .next (windowEnd s p)

/-- No CAL_ACK within 1 s of the last frame. -/
def calTimeout (s : State) (p : Nat) : State :=
  match getPush s p with
  | none => s
  | some x =>
    if (x.lastAt.getD s.now) + secNs ≤ s.now then
      raiseEv (completeId (setPush s p none) x.cmd St.dataError) Ev.SHT_CABINET_SILENT p x.hop
    else s

def execCalAckTimeout (p : Nat) (s : State) : Host.Outcome State Fault Refusal := .next (calTimeout s p)

/-- Every PERIOD_S seconds the Compass sends a PING on every enabled port. -/
def backgroundPing (s : State) : State :=
  let period := getF s Rg.SHT_PING_PERIOD_S
  if period = 0 ∨ s.now < s.sht.pingAt + period * secNs ∨ servicesRun s = false then s
  else
    let s := { s with sht := { s.sht with pingAt := s.now } }
    foldS ((List.range 128).filter fun p => portEnabled s p && (getRollcall s p).isNone) (fun s p => sendRollcall s p 1 none) s

def execBackgroundPing (s : State) : Host.Outcome State Fault Refusal := .next (backgroundPing s)

end Sys2Proof.Machine
end

