-- ==== Sys2Proof/Machine/Triggers.lean ====
section
/-!
DEFINITION. Time triggers (R218 to R223, R226) and the launch slots of the MACs (R192, R226).
-/

namespace Sys2Proof.Machine

/-! ### The series of a trigger (R218) -/

def getTrig (s : State) (n : Nat) : Trig := s.mer.trigs.get n ⟨0, false⟩
def setTrig (s : State) (n : Nat) (t : Trig) : State := { s with mer := { s.mer with trigs := s.mer.trigs.set n t ⟨0, false⟩ } }
def trigArmed (s : State) (n : Nat) : Bool := getB s Rg.MER_TRIG_CTRL_ARM n
/-- P in 2^−16 ns. -/
def trigPeriod (s : State) (n : Nat) : Nat :=
  getF s Rg.MER_TRIG_PERIOD_PERIOD_NS n * 65536 + getF s Rg.MER_TRIG_PERIOD_PERIOD_FRAC n
def trigAction (s : State) (n : Nat) : Nat := getF s Rg.MER_TRIG_CTRL_ACTION n
def trigInstant (s : State) (n j : Nat) : Nat := (getF s Rg.MER_TRIG_START_START n + j * trigPeriod s n / 65536) % 2 ^ 32

/-! ### Idle periods (R192, R226) -/

def presentClass (s : State) : Nat := getF s Rg.SHT_CTRL_PCP_PRESENT
def viewHeld (s : State) (v : Nat) : Bool := bit (getF s Rg.SHT_SCHED_STATUS_HELD) v

/-- Launches of a port that are at most t_max ahead or wait in its slot: of timed PRESENTs, which admit frames of their own
class, and of LAUNCH triggers, which admit none (class 8). -/
def nearLaunches (s : State) (port : Nat) : List (Nat × Nat) :=
  (getPort s port).slot.map (fun l => (if l.trigger.isSome then 8 else l.cls, l.at_)) ++
  ((List.range 16).filter fun n => trigArmed s n && trigAction s n == 2 && getF s Rg.MER_TRIG_CTRL_PORT n == port &&
    decide (mstDiff (trigInstant s n (getTrig s n).j) (mst s) ≤ tMax s port)).map (fun n => (8, trigInstant s n (getTrig s n).j)) ++
  (s.sht.presents.filter fun p => p.port == port && p.timed && !viewHeld s p.view && decide (mstDiff p.at_ (mst s) ≤ tMax s port)).map
    fun p => (presentClass s, p.at_)

/-- The earliest of a list of launches. -/
def firstLaunch (l : List (Nat × Nat)) : Option (Nat × Nat) :=
  l.foldl (fun b x => match b with
    | none => some x
    | some y => if mstDiff x.2 y.2 < 0 then some x else b) none

/-- The idle period that the port is in: a trigger's before a PRESENT's. -/
def idlePeriod (s : State) (port : Nat) : Option (Nat × Nat) :=
  let l := nearLaunches s port
  (firstLaunch (l.filter (·.1 == 8))).or (firstLaunch l)

def setIdle (s : State) (port : Nat) : State := setPort s port { getPort s port with idle := idlePeriod s port }

/-- A launch is over: the idle period ends, or goes on for another launch. -/
def endIdle (s : State) (port : Nat) : State := if (getPort s port).idle.isSome then setIdle s port else s

/-! ### Launch slots -/

/-- A slot frame waits out the idle period of another launch (R256). -/
def idleHolds (s : State) (port : Nat) (l : Launch) : Bool :=
  match (getPort s port).idle with
  | none => false
  | some (c, i) => i != l.at_ && c != l.cls

/-- The MAC can start a slot frame: the gate is open, no pause holds its class and no other idle period (R192, R256); no frame
of any class leaves while the device is in FE (R195). -/
def slotReady (s : State) (port : Nat) (l : Launch) : Bool :=
  portUp s port && gateOpenFor s port l.cls (frameNs s port (l.frame.bytes.length + 4)) && !classPaused s port l.cls &&
  !idleHolds s port l && getF s Rg.FLT_STATE_STATE != 2

/-- Subtract a lateness from every WAIT entry of a PRESENT, clipped at 0 (R192). -/
def lateWaits (b : List Byte) (late : Nat) : Nat → List Byte
  | 0 => b
  | n + 1 =>
    let o := payloadAt b + 20 + 4 * n
    lateWaits (patch b o (beBytes 4 (beAt b o 4 - late))) late n

/-- A launch frame leaves, its time-stamp point crossing the MDI now (R226): how late it is, and what its sender is told. -/
def sendLaunch (s : State) (port : Nat) (l : Launch) : State :=
  let late := (mstDiff (mst s) l.at_).toNat
  match l.trigger with
  | none =>
    let f := { l.frame with bytes := lateWaits l.frame.bytes late 16 }
    let s := transmit s port (stampNow s) f
    if l.margin < late then raiseEv (addF s Rg.SHT_COUNTS_LAUNCH_LATE) Ev.SHT_LAUNCH_LATE port else s
  | some n =>
    let s := holdsProgress (transmit (releaseFrame s port l.cls l.frame) port (stampNow s) l.frame)
    let s := setF s Rg.MER_TRIG_LAST_LAST n (mst s)
    if l.margin < late then raiseEv s Ev.MER_LAUNCH_LATE n l.at_ else s

/-- The MAC starts the first frame of its launch slot that it can. -/
def serveSlot (s : State) (port : Nat) : State :=
  let x := getPort s port
  match x.slot.find? (slotReady s port) with
  | none => s
  | some l => endIdle (sendLaunch (setPort s port { x with slot := x.slot.erase l }) port l) port

def enterSlot (s : State) (port : Nat) (l : Launch) : State :=
  let x := getPort s port
  serveSlot (setPort s port { x with slot := x.slot ++ [l] }) port

/-! ### Arming and firing: counts -/

/-- A schedule runs, and trigger n belongs to it (R221). -/
def trigOwned (s : State) (n : Nat) : Bool := s.sht.running.isSome && decide (n < 12)

/-- Instants from j on that lie at most d ns after instant j. -/
def instantsWithin (s : State) (n j : Nat) (d : Int) : Nat :=
  if d < 0 then 0
  else
    let p := trigPeriod s n
    let count := getF s Rg.MER_TRIG_COUNT_COUNT n
    let all := if p = 0 then 1 else ((d.toNat + j * p / 65536 + 1) * 65536 - 1) / p + 1 - j
    if count = 0 then all else min all (count - j)

/-- The series moves to instant j; after its last instant the trigger disarms itself (R219). -/
def trigGoOn (s : State) (n j : Nat) : State :=
  let count := getF s Rg.MER_TRIG_COUNT_COUNT n
  let s := setTrig s n ⟨j, false⟩
  if count != 0 && decide (count ≤ j) then setF s Rg.MER_TRIG_CTRL_ARM n 0 else s

/-! ### Arming and disarming (R219, R221, R223) -/

/-- The fields of an arming write are in range for software (R218 to R220). -/
def trigFieldsOk (s : State) (n : Nat) : Bool :=
  let p := getF s Rg.MER_TRIG_PERIOD_PERIOD_NS n
  let w := getF s Rg.MER_TRIG_CTRL_WIDTH n
  let single := p == 0 && getF s Rg.MER_TRIG_COUNT_COUNT n == 1
  (single || (decide (1000 ≤ p) && decide (p ≤ 2147483647))) && trigAction s n != 3 &&
  (trigAction s n != 1 || (w != 0 && (single || decide (w * 10 * 65536 < trigPeriod s n))))

/-- Instants already reached are skipped, and reported once. -/
def trigArm (s : State) (n : Nat) : State :=
  if !trigFieldsOk s n then raiseEv s Ev.MER_TRIG_INVALID n
  else
    let skip := instantsWithin s n 0 (mstDiff (mst s) (trigInstant s n 0))
    let s := setF s Rg.MER_TRIG_CTRL_ARM n 1
    if skip = 0 then setTrig s n ⟨0, false⟩
    else
      let s := addF (trigGoOn s n skip) Rg.MER_TRIG_STATUS_MISSED n skip
      raiseEv s Ev.MER_TRIG_LATE n (trigInstant s n (skip - 1))

/-- Clearing ARM lets an instant less than 8 ns ahead fire once; a LAUNCH trigger no longer holds its port idle (R226). -/
def trigDisarm (s : State) (n : Nat) : State :=
  let t := getTrig s n
  let near := mstDiff (trigInstant s n t.j) (mst s) < 8
  let s := setTrig (setF s Rg.MER_TRIG_CTRL_ARM n 0) n ⟨t.j, decide near⟩
  if trigAction s n = 2 then endIdle s (getF s Rg.MER_TRIG_CTRL_PORT n) else s

/-- MER_TRIG_CTRL as one field. -/
def trigCtrlWord : Fld := ⟨0x02401010, 0, 1, 32, 16, 0, 32⟩

/-- A write of MER_TRIG_CTRL: on an armed trigger only ARM acts, and changed action fields are refused (R219). -/
def trigCtrlWrite (s : State) (n v : Nat) : State :=
  if trigOwned s n then raiseEv s Ev.MER_TRIG_OWNED n
  else
    let v := v % 2 ^ 32
    let arm := bit v 31
    if trigArmed s n then
      let s := if getF s trigCtrlWord n % 2 ^ 31 = v % 2 ^ 31 then s else raiseEv s Ev.MER_TRIG_INVALID n
      if arm then s else trigDisarm s n
    else
      let s := setTrig (setF s trigCtrlWord n (v % 2 ^ 31)) n ⟨0, false⟩
      if arm then trigArm s n else s

/-- A write of START, PERIOD or COUNT: ignored on an armed or owned trigger (R219, R221). -/
def trigFieldWrite (s : State) (n off v : Nat) : State :=
  if trigOwned s n then raiseEv s Ev.MER_TRIG_OWNED n
  else if trigArmed s n then raiseEv s Ev.MER_TRIG_INVALID n
  else setW s off (BitVec.ofNat 32 v)

/-- Operands: the trigger, and the action fields written with ARM. -/
def execTriggerArm (n fields : Nat) (s : State) : Host.Outcome State Fault Refusal :=
  .next (if n < 16 ∧ domainOn s 5 then trigCtrlWrite s n (fields % 2 ^ 31 + 2 ^ 31) else s)

def execTriggerDisarm (n fields : Nat) (s : State) : Host.Outcome State Fault Refusal :=
  .next (if n < 16 ∧ domainOn s 5 then trigCtrlWrite s n (fields % 2 ^ 31) else s)

/-! ### Pulses (R220) -/

/-- SYNC_OUT pins are the OR of the pulses in progress. -/
def showSync (s : State) : State :=
  { s with pins := { s.pins with syncOut := (List.range 4).map fun p => s.mer.pulses.any fun q => match q.2 with
      | none => false
      | some (_, pins) => bit pins p } }

def setPulse (s : State) (n : Nat) (x : Option (Nat × Nat)) : State :=
  showSync { s with mer := { s.mer with pulses := s.mer.pulses.set n x none } }

def pulseEnd (s : State) (n : Nat) : State :=
  match s.mer.pulses.get n none with
  | none => s
  | some (t, _) => if t ≤ s.now then setPulse s n none else s

def execTriggerPulseEnd (n : Nat) (s : State) : Host.Outcome State Fault Refusal := .next (pulseEnd s n)

/-! ### Firing (R218, R220, R226) -/

/-- LAUNCH: the head frame of the queue goes to the port's launch slot; it keeps its cells until it leaves. -/
def launchHead (s : State) (n at_ : Nat) : State :=
  let port := getF s Rg.MER_TRIG_CTRL_PORT n
  let cls := getF s Rg.MER_TRIG_CTRL_CLASS n
  match getQueue s port cls with
  | [] =>
    raiseEv (endIdle s port) Ev.MER_LAUNCH_EMPTY n at_
  | f :: r => enterSlot (headArrives (setQueue s port cls r) port cls) port ⟨some n, at_, f, cls, 8⟩

/-- The action of instant j. -/
def trigAct (s : State) (n j : Nat) : State :=
  let at_ := trigInstant s n j
  let s := addF s Rg.MER_TRIG_STATUS_FIRED n
  if trigAction s n = 2 then launchHead s n at_
  else
    let s := setF s Rg.MER_TRIG_LAST_LAST n at_
    if trigAction s n = 0 then raiseEv s Ev.MER_TRIG_FIRED n at_
    else if trigAction s n = 1 then
      setPulse s n (some (s.now + 10 * getF s Rg.MER_TRIG_CTRL_WIDTH n, getF s Rg.MER_TRIG_CTRL_PIN_MASK n))
    else viewBoundary s n j

/-- The next schedule's START is reached (R187). -/
def nextStarts (s : State) : Bool :=
  match s.sht.next with
  | [] => false
  | c :: _ => reached s c.start

/-- Boundaries and pulses of the running schedule at or after the next one's START do not occur (R187). -/
def superseded (s : State) (n at_ : Nat) : Bool :=
  match s.sht.next with
  | [] => false
  | c :: _ => trigOwned s n && decide (n < 8) && 0 ≤ mstDiff at_ c.start

/-- When trigger n acts on instant j: the drivers of SYNC_OUT switch OUT_NS before it (R224). -/
def trigDue (s : State) (n j : Nat) : Nat :=
  if trigAction s n = 1 then (trigInstant s n j + 2 ^ 32 - getF s Rg.MER_PIN_COMP_OUT_NS) % 2 ^ 32 else trigInstant s n j

/-- Trigger n's next instant, if it is reached. -/
def fireTrigger (s : State) (n : Nat) : State :=
  let t := getTrig s n
  let at_ := trigDue s n t.j
  if !domainOn s 5 || superseded s n at_ then s
  else if trigArmed s n && reached s at_ then trigAct (trigGoOn s n (t.j + 1)) n t.j
  else if t.lastOne && reached s at_ then trigAct (setTrig s n ⟨t.j + 1, false⟩) n t.j
  else s

/-- A schedule whose START is reached takes the triggers 0 to 11 first. -/
def trigger (s : State) (n : Nat) : State :=
  if 16 ≤ n then s
  else
    let s := fireTrigger s n
    if n < 12 && nextStarts s && domainOn s 5 then fireTrigger (switchSchedule s) n else s

def execTriggerInstant (n : Nat) (s : State) : Host.Outcome State Fault Refusal := .next (trigger s n)

/-- A step carries MST d ns forward, past the instants of trigger n from ahead_ on: they fire once together on the cycle of
the step, all but one counted as missed (R222). ahead_ is how far the next instant lay ahead before the step. -/
def stepTrigger (s : State) (n : Nat) (ahead_ d : Int) : State :=
  if !trigArmed s n then s
  else
    let j := (getTrig s n).j
    let k := instantsWithin s n j (d - ahead_)
    if k = 0 then s
    else trigAct (addF (trigGoOn s n (j + k)) Rg.MER_TRIG_STATUS_MISSED n (k - 1)) n (j + k - 1)

end Sys2Proof.Machine
end

