-- ==== Sys2Proof/Machine/Present.lean ====
section
/-!
DEFINITION. Presentation (R184 to R195): PRESENT_SCHEDULE, the launch of PRESENT frames, HOLD and RESUME, and the HOLD frames
of faults and resets.
-/

namespace Sys2Proof.Machine

/-! ### PRESENT_SCHEDULE (R184, R187) -/

def psViews (e : List Byte) : Nat := leAt e 20 1
def psPeriod (e : List Byte) : Nat := leAt e 24 4 * 65536 + leAt e 28 2
def psStart (e : List Byte) : Nat := leAt e 32 4

/-- 4,166,666.667 ns to 41,708,333.334 ns, the lower bound taken as 240 Hz exactly (log 18). -/
def periodOk (p : Nat) : Bool := decide (12500000 * 65536 ≤ 3 * p) && decide (p * 1000 ≤ 41708333334 * 65536)

def startPresentSchedule (_ : State) (e : List Byte) : Begin :=
  if eLen e = 0 then .finish St.okZero 0 0
  else checked [(eAddr e + eLen e ≤ 2 ^ 64, 8), (eLen e = 16 * psViews e || psViews e == 0 || decide (8 < psViews e), 16),
    (1 ≤ psViews e && psViews e ≤ 8, 20), (periodOk (psPeriod e), 24)] (.read (eAddr e) (eLen e) none)

/-- Conditions of the i-th view record. -/
def recordBad (period i used : Nat) (r : List Byte) : Option Nat :=
  let slot := recSlot r
  let mask := recMask r
  firstBad [(if i = 0 then slot = 0 else decide (slot * 65536 < period), bufDetail 0 i),
    (1000 ≤ recDelay r && recDelay r ≤ 2147483647, bufDetail 4 i),
    (mask &&& used == 0, bufDetail 8 i),
    (mask == 0 || (1 ≤ recWidth r && recWidth r ≤ 32767), bufDetail 10 i)]

def recordsBad (period : Nat) : Nat → Nat → List (List Byte) → Option Nat
  | _, _, [] => none
  | i, used, r :: t =>
    match recordBad period i used r with
    | some d => some d
    | none => recordsBad period (i + 1) (used ||| recMask r) t

/-- A schedule accepted: it replaces from its START the running one and those that wait (R187); of these, the ones whose START
does not come before it never run. -/
def acceptSchedule (s : State) (id : Nat) (c : Sched) : State :=
  let w : SchedWait := ⟨id, c.start, c.shows 0 0, false⟩
  let next := s.sht.next.filter (fun o => decide (mstDiff o.start c.start < 0)) ++ [c]
  refreshLoads { s with sht := { s.sht with next := next, waits := s.sht.waits ++ [w] } }

def runPresentSchedule (s : State) (c : Cmd) (d : List Byte) : State :=
  let e := c.entry
  let rs := records 16 (psViews e) d
  let sched : Sched := ⟨psViews e, psPeriod e, psStart e, rs⟩
  let p := { planOf s with sched := some sched }
  match recordsBad sched.period 0 0 rs with
  | some x => complete s c St.invalidField 0 x
  | none =>
    if !getB s Rg.MER_STATUS_TIME_VALID then complete s c St.stateConflict
    else if mstDiff sched.start (mst s) < 1000000 then complete s c St.timePast
    else
      match p.badPort s with
      | some port => complete (setF s Rg.SHT_SCHED_STATUS_REJECT_PORT 0 port) c St.noResource
      | none =>
        if !p.loadOk || !admits s p 0 || !scribeFits s p 0 then complete s c St.noResource
        else acceptSchedule s c.id sched

def execPresentSchedule (q : Nat) (s : State) : Host.Outcome State Fault Refusal :=
  .next (ringRow Op.presentSchedule anyEntry startPresentSchedule runPresentSchedule q s)

/-- Commands whose T_0(0) has passed complete with START in the result word. -/
def firstPresents (s : State) : State :=
  foldS (s.sht.waits.filter fun w => reached s w.at_) (fun s w =>
    completeId { s with sht := { s.sht with waits := s.sht.waits.filter (·.cmd != w.cmd) } } w.cmd
      (if w.refused then St.partly else St.ok) w.start) s

def execScheduleFirstPresent (s : State) : Host.Outcome State Fault Refusal := .next (firstPresents s)

/-! ### Launch of PRESENT frames (R191 to R193) -/

/-- The PRESENT of a prepared picture; TIMED and its WAIT table where the launch is timed. -/
def presentFrame (s : State) (p : Present) : List Byte :=
  let h : SheetHdr :=
    ⟨ftPresent, (if p.timed then flTimed else 0) + (if p.repeated then flRepeat else 0), p.view, 0, p.picture, 0, 0, 0, p.time⟩
  sheetFrame s (sheetAddress s p.port) (presentClass s) h
    (beBytes 1 p.chain ++ zeros 3 ++ p.waits.flatMap fun w => beBytes 4 w)

/-- A port refuses a PRESENT: it is not retried (R193); one whose link is down counts it (R247). -/
def refusePresent (s : State) (p : Present) : State :=
  let s := setShtPartial (addT s teleRefused) p.port
  let s := if p.first then { s with sht := { s.sht with waits := s.sht.waits.map fun w =>
    if w.start = p.bound then { w with refused := true } else w } } else s
  raiseEv s Ev.SHT_PRESENT_PARTIAL p.view

/-- The PRESENT leaves: into the MAC's launch slot if it is timed, into its class's queue otherwise. -/
def launchPresent (s : State) (p : Present) : State :=
  if viewHeld s p.view then s
  else if !portUp s p.port then refusePresent (countFlushed s p.port 1) p
  else
    let b := presentFrame s p
    let s1 := { s with sht := { s.sht with shown := s.sht.shown.set p.view p.picture 0 } }
    if p.timed then
      let f : QFrame := ⟨0, b, 0, false, epochNow s, false, false, 0, 129, 0, .plain⟩
      enterSlot (portMirrors s1 129 0 b false) p.port ⟨none, p.at_, f, presentClass s, getF s Rg.SHT_LAUNCH_MARGIN_NS⟩
    else
      let r := sendFrame s1 p.port (presentClass s) 129 b .plain
      if r.1 then r.2 else refusePresent { r.2 with sht := { r.2.sht with shown := s.sht.shown } } p

/-- At most t_max before a launch the port's idle period begins (R192, R226). -/
def idleStart (s : State) (port : Nat) : State := if 128 ≤ port then s else setIdle s port

def execLaunchIdleStart (port : Nat) (s : State) : Host.Outcome State Fault Refusal := .next (idleStart s port)

/-! ### HOLD (R194) -/

def hFlags (e : List Byte) : Nat := leAt e 20 1
def hResume (f : Nat) : Bool := bit f 0
def hBlank (f : Nat) : Bool := bit f 1
def hStop (f : Nat) : Bool := bit f 2

/-- A HOLD frame; reason 0 host, 1 fault, 2 schedule stopped. -/
def holdFrame (s : State) (port view flags blank reason at_ : Nat) : List Byte :=
  let h : SheetHdr := ⟨ftHold, flags, view, 0, s.sht.shown.get view 0, 0, 0, 0, at_⟩
  sheetFrame s (sheetAddress s port) (presentClass s) h (beBytes 1 blank ++ beBytes 1 reason ++ zeros 2)

/-- Views whose frames a HOLD sends: one without a slot in a running schedule sends none (R186). -/
def holdViews (s : State) (mask : Nat) : List Nat :=
  (List.range 8).filter fun v => bit mask v && match s.sht.running with
    | none => true
    | some c => decide (v < c.views)

/-- Send a view's HOLD frame on every port that serves it. -/
def sendHolds (s : State) (id v blank reason at_ : Nat) : State :=
  foldS (portsOf s v) (fun s p =>
    let r := sendFrame s p (presentClass s) 129 (holdFrame s p v 0 blank reason at_) (.hold id)
    if r.1 then r.2 else holdRefused r.2 id p) s

/-- PRESENTs due at the hold instant are not sent; each picture is counted once (R196). -/
def dropPresents (s : State) (mask at_ : Nat) : State :=
  let hit (p : Present) : Bool := bit mask p.view && p.at_ == at_
  let n := ((s.sht.presents.filter hit).map fun p => (p.view, p.picture, p.bound)).eraseDups.length
  addF { s with sht := { s.sht with presents := s.sht.presents.filter fun p => !hit p } } Rg.SHT_COUNTS_HELD_PICTURES 0 n

def setHeld (s : State) (mask : Nat) : State := setF s Rg.SHT_SCHED_STATUS_HELD 0 (getF s Rg.SHT_SCHED_STATUS_HELD ||| mask)

def putHold (s : State) (h : HoldCmd) : State :=
  { s with sht := { s.sht with holds := s.sht.holds.map fun x => if x.cmd = h.cmd then h else x } }

/-- The hold instant: HOLD frames are queued, presentation stops, the schedule with it if asked. -/
def holdNow (s : State) (h : HoldCmd) : State :=
  let s := putHold s { h with issued := true }
  let reason := if hStop h.flags then 2 else 0
  let s := foldS (holdViews s h.mask) (fun s v => sendHolds s h.cmd v (hBlank h.flags).toNat reason h.at_) s
  let s := setHeld (dropPresents s h.mask h.at_) h.mask
  let s := if hStop h.flags then stopSchedule s else s
  holdsProgress s

/-- The resume instant: PRESENTs resume with the first picture whose boundary follows it. -/
def resumeNow (s : State) (h : HoldCmd) : State :=
  let held := getF s Rg.SHT_SCHED_STATUS_HELD
  let s := { s with sht := { s.sht with
    holds := s.sht.holds.filter (·.cmd != h.cmd)
    presents := s.sht.presents.filter fun p => !(bit (held &&& h.mask) p.view && decide (mstDiff p.bound h.at_ ≤ 0)) } }
  completeId (setF s Rg.SHT_SCHED_STATUS_HELD 0 (held - (held &&& h.mask))) h.cmd St.ok h.at_

def startHold (_ : State) (e : List Byte) : Begin :=
  checked [(eTarget e % 256 != 0, 4), (!(hResume (hFlags e) && (hBlank (hFlags e) || hStop (hFlags e))), 20)] .run

def runHold (s : State) (c : Cmd) (_ : List Byte) : State :=
  let f := hFlags c.entry
  let at_ := leAt c.entry 24 4
  let ahead := bit f 3 && decide (0 < mstDiff at_ (mst s))
  let h : HoldCmd := ⟨c.id, eTarget c.entry % 256, f, if ahead then at_ else mst s, false, false⟩
  let s := { s with sht := { s.sht with holds := s.sht.holds ++ [h] } }
  if ahead then s else if hResume f then resumeNow s h else holdNow s h

def execHold (q : Nat) (s : State) : Host.Outcome State Fault Refusal :=
  .next (ringRow Op.hold anyEntry startHold runHold q s)

/-- HOLD or RESUME commands whose instant is reached, oldest first. -/
def dueHolds (s : State) (resume : Bool) : List HoldCmd :=
  s.sht.holds.filter fun h => hResume h.flags == resume && !h.issued && reached s h.at_

def execHoldInstant (s : State) : Host.Outcome State Fault Refusal := .next (foldS (dueHolds s false) holdNow s)
def execResumeInstant (s : State) : Host.Outcome State Fault Refusal := .next (foldS (dueHolds s true) resumeNow s)

/-! ### The launch instants (R191, R196) -/

/-- The next PRESENT of a port whose instant is reached, in the order of their instants. -/
def duePresent (s : State) (port : Nat) : Option Present :=
  (s.sht.presents.filter fun p => p.port == port && reached s p.at_).foldl (fun b p => match b with
    | none => some p
    | some o => if mstDiff p.at_ o.at_ < 0 then some p else b) none

/-- The PRESENTs of a port that are due; a HOLD due at the same instant or before acts first (R196). -/
def launchDue (s : State) (port : Nat) : Nat → State
  | 0 => s
  | n + 1 =>
    match duePresent s port with
    | none => s
    | some p =>
      let s := foldS ((dueHolds s false).filter fun h => decide (mstDiff h.at_ p.at_ ≤ 0)) holdNow s
      if s.sht.presents.contains p then
        launchDue (launchPresent { s with sht := { s.sht with presents := s.sht.presents.erase p } } p) port n
      else launchDue s port n

def execPresentLaunch (port : Nat) (s : State) : Host.Outcome State Fault Refusal :=
  .next (if domainOn s 5 then endIdle (launchDue s port s.sht.presents.length) port else s)

/-! ### HOLD frames of faults and resets (R195, R359, R392) -/

/-- The HOLD of a fatal fault on every enabled port that can send it; HOLD commands in progress end PARTIAL (R194, R195). -/
def faultHold (s : State) : State :=
  let s := foldS (List.range 128) (fun s p =>
    if portState s p = prtUp then emit s (.frame p (holdFrame s p 0 (flFault + flAllViews) 0 1 (mst s))) else s) s
  let l := s.sht.holds.filter (·.issued)
  foldS l (fun s h =>
    let s := foldS (List.range 128) (fun s p =>
      if (List.range 8).any fun c => (getQueue s p c).any fun f => f.tag == .hold h.cmd then setShtPartial s p else s) s
    completeId { s with sht := { s.sht with holds := s.sht.holds.filter (·.cmd != h.cmd) } } h.cmd St.partly h.at_) s

/-- HOLD with ALL_VIEWS and REASON 2 on every enabled port, as a reset that is not a fault sends it. -/
def stopHold (s : State) : State :=
  foldS (List.range 128) (fun s p =>
    if portState s p = prtUp then emit s (.frame p (holdFrame s p 0 flAllViews 0 2 (mst s))) else s) s

end Sys2Proof.Machine
end

