-- ==== Sys2Proof/Machine/Intake.lean ====
section
/-!
DEFINITION. Stream intake (R64, R67 to R76, R82, R88, R98, R99, R115 to R118): opening and closing, host data, network packets
and their reorder windows, the assembly of access units, and ST 2110-20 rasters (R74, R84).
-/

namespace Sys2Proof.Machine

def onStream (s : State) (n : Nat) (f : Stream → Stream) : State := setStream s n (f (getStream s n))

/-! ### States (R64) and delivery (R77) -/

/-- The stream returns to SYNCING: both reference slots are emptied (R147); a picture on a core completes, delivers nothing and
updates no slot (R150, log 68), without the rest of its input. -/
def toSyncing (s : State) (n : Nat) : State :=
  onStream s n fun x => { x with state := stSyncing, prev := none, anchor := none, prevTaint := false, anchorTaint := false, dpb := [],
                                 concealed := false, hostTimes := [], lastTime := none, expected := none,
                                 job := x.job.map fun j => { j with orphan := true, au := { j.au with whole := true } } }

/-- A start point: the stream enters RUNNING. -/
def toRunning (s : State) (n : Nat) : State :=
  if (getStream s n).state = stSyncing then streamEvent (onStream s n fun x => { x with state := stRunning }) Ev.SCR_STREAM_SYNC n
  else s

/-- Two pictures of the stream bind to one picture of a view that uses it: the earlier one is superseded (R77). -/
def supersedes (s : State) (n t1 t2 : Nat) : Bool :=
  (List.range 8).any fun v => viewOn (getView s v).applied && (streamLayers (getView s v).applied).contains n &&
    match scheduleOf s v with
    | none => false
    | some c => bindNumber c v (viewNumber s v) t1 == bindNumber c v (viewNumber s v) t2

/-- The pictures that still have a buffer: of DPB + 2, one is for the picture in progress (R66). The 64 latest times are kept. -/
def holdBuffers (e : List Byte) (l : List Delivered) : List Delivered :=
  let l := l.drop (l.length - 64)
  l.mapIdx fun i d => if l.length ≤ i + streamDpb e + 1 then d else { d with pic := none }

/-- A picture is delivered; views that have not started to compose bind it, and it supersedes those of the same number. -/
def deliver (s : State) (n : Nat) (d : Delivered) : State :=
  let x := getStream s n
  let hit (o : Delivered) : Bool := o.bindable && d.bindable && !o.late && supersedes s n o.time d.time
  let l := x.delivered.map fun o => if hit o then { o with late := true } else o
  setStream s n { x with delivered := holdBuffers x.opened (l ++ [d]), pictures := x.pictures + 1,
                         skipped := min 65535 (x.skipped + x.delivered.countP hit),
                         expected := if oHost x.opened then none else some ((d.time + oPeriod x.opened) % 2 ^ 32) }

/-- Pictures that wait for output, in order of their count. -/
def flushOutput (s : State) (n : Nat) : Nat → State
  | 0 => s
  | f + 1 =>
    let x := getStream s n
    match x.output.foldl (fun (b : Option (Int × Delivered)) p => some (match b with
        | none => p
        | some o => if p.1 < o.1 then p else o)) none with
    | none => s
    | some p => flushOutput (deliver (setStream s n { x with output := x.output.filter (·.1 != p.1) }) n p.2) n f

/-- Nothing is left of a stream whose end has come: what waits for output is delivered, and the stream is ENDED. -/
def maybeEnded (s : State) (n : Nat) : State :=
  let x := getStream s n
  if x.eos && x.aus.isEmpty && x.job.isNone && x.asm.isNone && x.bytes.isEmpty && x.waits.isEmpty &&
      (x.state == stSyncing || x.state == stRunning) then
    let s := flushOutput s n (x.output.length + 1)
    streamEvent (onStream s n fun x => { x with state := stEnded, eos := false, expected := none }) Ev.SCR_EOS n
  else s

/-- A picture is bindable unless its stream freezes, as set at its start, while it is concealed (R87). -/
def mayBind (freeze concealed : Bool) : Bool := !(freeze && concealed)

/-! ### STREAM_OPEN (R66, R67, R69) -/

def isPow2 (n : Nat) : Bool := n != 0 && pow2From n == n

/-- DESIGN CHOICE (log 68): a field out of range is told before a stream that is not CLOSED, and that before a full pool. -/
def startStreamOpen (s : State) (e : List Byte) : Begin :=
  let hst := oHost e
  let raw := oFormat e == f2110
  let within (lo hi n : Nat) : Bool := decide (lo ≤ n) && decide (n ≤ hi)
  checked [(eTarget e ≤ 511, 4), (!hst || eAddr e % 4096 == 0, 8),
    (!hst || (isPow2 (eLen e) && within 4096 0x40000000 (eLen e)), 16), (leAt e 20 1 ≤ 1, 20),
    (oFormat e ≤ 2 && !(hst && raw), 21), (!(hst && oBind e == bindRtp), 22), (oConceal e ≤ 2, 23),
    (within 16 32768 (oMaxW e) && (raw || oPeriod e == 0 || streamLoad e ≤ 1000), 24), (within 16 16384 (oMaxH e), 26),
    (if raw then [8, 10, 12, 16].contains (oMaxDepth e) else within 8 16 (oMaxDepth e), 28), (oChroma e ≤ 2, 29),
    (oFormat e != fHevc || within 1 16 (oDpb e), 30), (within 1000000 1000000000 (oPeriod e), 32), (raw || oMaxRate e != 0, 36),
    (hst || oFlow e ≤ 8191, 40)]
    (if (getStream s (eTarget e)).state != stClosed then .finish St.stateConflict 0 0
     else if !scribeFits s (planOf s) (streamPool e) || !admits s (planOf s) (streamLoad e) then .finish St.noResource 0 0
     else .run)

def runStreamOpen (s : State) (c : Cmd) (_ : List Byte) : State :=
  let e := c.entry
  let x : Stream := { Stream.init with state := stSyncing, opened := e, mode := oConceal e, freeze := oFreeze e, hashStrict := oHashStrict e }
  complete (refreshLoads (setStream s (eTarget e) x)) c St.ok

def execStreamOpen (q : Nat) (s : State) : Host.Outcome State Fault Refusal :=
  .next (ringRow Op.streamOpen anyEntry startStreamOpen runStreamOpen q s)

/-! ### STREAM_CLOSE (R70) -/

/-- The last delivered picture stays attached to every layer that uses the stream (R59). -/
def attachPicture (s : State) (n : Nat) : State :=
  match (getStream s n).delivered.getLast?.bind (·.pic) with
  | none => s
  | some pic =>
    foldS (List.range 8) (fun s v =>
      let x := getView s v
      let slots := x.applied.layers.zipIdx.filter fun p => layerEnabled p.1 && lType p.1 == 1 && lId p.1 == n
      setView s v { x with attached := slots.foldl (fun m p => m.set p.2 (.picture pic) .empty) x.attached, bound := x.bound.erase n }) s

/-- The buffers are released; the number can be opened again at once. DESIGN CHOICE (log 68): for the switch cost of R63 the
number opened again is the same stream: its context stays in the cache and stays what a core served last. -/
def finishClose (s : State) (n id : Nat) : State :=
  let s := attachPicture s n
  let s := foldS (List.range 8) (fun s v => setView s v { getView s v with bound := (getView s v).bound.erase n }) s
  completeId (refreshLoads (setStream s n Stream.init)) id St.ok

/-- STREAM_DATA commands of a stream end, those still reading their range too. -/
def abortData (s : State) (n status : Nat) : State :=
  let ids := (s.hif.cmds.filter fun c => eOpcode c.entry == Op.streamData && eTarget c.entry == n).map (·.id)
  foldS ids (fun s id => completeId s id status) (onStream s n fun x => { x with waits := [] })

def startStreamClose (s : State) (e : List Byte) : Begin :=
  checked [(eTarget e ≤ 511, 4)]
    (let st := (getStream s (eTarget e)).state
     if st = stClosed ∨ st = stClosing then .finish St.stateConflict 0 0 else .run)

/-! ### Access units (R73, R75, R76, R118) -/

def emptyAu : Au := ⟨[], [], [], [], none, 0, 0, none, false, false, false, 0⟩

/-- Bytes of the stream in its input buffer (R66). -/
def auBytes (a : Au) : Nat := a.data.length + (a.nals.map fun p => p.1.length).sum
def heldBytes (x : Stream) : Nat :=
  (x.aus.map auBytes).sum + x.bytes.length + (match x.asm with
    | some a => if oHost x.opened && oFormat x.opened == fContour then 0 else auBytes a
    | none => 0) + match x.job with
    | some j => if j.au.whole then auBytes j.au else 0
    | none => 0

/-- The access unit of a picture on a core is still arriving (EARLY_START): it follows the assembly. -/
def syncJob (x : Stream) : Stream :=
  match x.job, x.asm with
  | some j, some a => if j.au.whole then x else { x with job := some { j with au := { a with time := j.au.time, reported := a.reported } } }
  | _, _ => x

/-- The picture time that HOST_TIME gives before its offset: of the range in which the unit begins, else the previous one plus
PERIOD_NS (R75, R76). -/
def hostTime (x : Stream) (pos : Nat) : Option Nat :=
  if oBind x.opened = bindHost then
    match x.hostTimes.find? fun r => decide (r.1 ≤ pos) && decide (pos < r.2.1) with
    | some r => some r.2.2
    | none => x.lastTime.map fun t => (t + oPeriod x.opened) % 2 ^ 32
  else none

/-- Begin an access unit at a running offset of the stream; a range's TIME serves its first unit only. -/
def beginAu (s : State) (n : Nat) (ts : Option Nat) (pos : Nat) : State :=
  let m := mst s
  onStream s n fun x =>
    match x.asm with
    | some _ => x
    | none =>
      let raw := hostTime x pos
      { x with asm := some { emptyAu with ts := ts, time := raw.map (withOffset x.opened), began := m, reported := x.lossTold },
               lossTold := false, hostTimes := x.hostTimes.filter fun r => decide (pos < r.1),
               lastTime := if raw.isSome then raw else x.lastTime }

/-- The access unit is ready: complete, or with EARLY_START its first slice is in (R78). -/
def readyAu (s : State) (n : Nat) (complete_ : Bool) : State :=
  onStream s n fun x =>
    match x.asm with
    | none => x
    | some a =>
      if a.ready != 0 || !(complete_ || oEarly x.opened) then x
      else
        let m := mst s
        let a := { a with ready := max 1 m }
        let a := if oBind x.opened = bindRtp then { a with time := a.ts.map fun t => withOffset x.opened (rtpTime s t) } else a
        if oBind x.opened = bindHost ∧ a.time.isNone then
          { x with asm := some { a with time := some (withOffset x.opened m) }, lastTime := some m }
        else { x with asm := some a }

/-- RTP timestamps out of order, told once per second (R88). -/
def noteTimestamp (s : State) (n : Nat) (ts : Option Nat) : State :=
  match ts with
  | none => s
  | some t =>
    let x := getStream s n
    let early := match x.lastTs with
      | none => false
      | some o => decide (mstDiff t o < 0)
    let s := onStream s n fun x => { x with lastTs := some t }
    if early && oncePerSecond s x.disorderAt then
      streamEvent (onStream s n fun x => { x with disorderAt := some s.now }) Ev.SCR_TIME_DISORDER n
    else s

/-- The picture of an access unit on a core gets what its end tells: a time that comes only then moves its deadline (R78). -/
def jobEnds (s : State) (n : Nat) (j : Job) (a : Au) : Job :=
  { j with au := a, deadline := if j.au.time = a.time then j.deadline else pictureDeadline s n (a.time.getD a.ready) a.ready }

/-- The access unit ends: its last byte arrived at an MST. Of one that ends at its deadline the rest, which may still come, is
not wanted. -/
def endAu (s : State) (n arrived : Nat) (rest : Bool) : State :=
  let s := readyAu s n true
  let x := getStream s n
  match x.asm with
  | none => s
  | some a =>
    let a := { a with whole := true, arrived := arrived }
    let a := if oBind x.opened = bindArrival then { a with time := some (withOffset x.opened arrived) } else a
    let s := noteTimestamp s n a.ts
    let after_ := if rest then some { emptyAu with ts := a.ts, dead := true, began := a.began } else none
    onStream s n fun x =>
      if a.dead then { x with asm := after_ }
      else match x.job with
        | some j => if j.au.whole then { x with asm := after_, aus := x.aus ++ [a] } else { x with asm := after_, job := some (jobEnds s n j a) }
        | none => { x with asm := after_, aus := x.aus ++ [a] }

/-! ### Contour access units (R98, R99, R115) -/

def auSync : Nat := 0x434F4E54
def auLength (b : List Byte) : Nat := beAt b 4 4
/-- Offset of the picture unit in an access unit. -/
def unitAt (b : List Byte) : Nat := if bit (beAt b 8 1) 7 then 28 else 12

/-- The picture header at the front of a unit: in, and whether its CRC-32C matches. -/
def unitHeader (r : List Byte) : Option Bool :=
  let h := r.drop (unitAt r)
  if r.length < 12 ∨ h.length < 20 then none else some (crc32c (h.take 16) == beAt h 16 4)

/-- The first place at which an AU begins whose picture header holds (R107); a place whose bytes are not all in yet also stops. -/
def findSync : Nat → List Byte → Nat → Nat
  | 0, _, o => o
  | n + 1, b, o =>
    let r := b.drop o
    if r.length < 12 then o
    else if beAt r 0 4 = auSync then
      match unitHeader r with
      | some false => findSync n b (o + 1)
      | _ => o
    else findSync n b (o + 1)

/-- The stream's bytes from an offset on, where a search goes on (R115). -/
def seekUnit (s : State) (n o : Nat) : State :=
  onStream s n fun x => { x with bytes := x.bytes.drop (findSync x.bytes.length x.bytes o), asm := none, resync := true }

/-- Running offset of the first byte that the stream holds. -/
def frontAt (x : Stream) : Nat := x.offset - x.bytes.length

/-- Take the complete access units out of the stream's bytes. While the stream searches, a unit is taken only once its picture
header's CRC has matched. -/
def takeContour (s : State) (n : Nat) : Nat → State
  | 0 => s
  | f + 1 =>
    let x := getStream s n
    if 0 < x.discard then
      let k := min x.discard x.bytes.length
      let s := onStream s n fun x => { x with discard := x.discard - k, bytes := x.bytes.drop k }
      if k = 0 ∨ (getStream s n).discard ≠ 0 then s else takeContour s n f
    else if x.bytes.isEmpty then s
    else if x.resync && unitHeader x.bytes != some true then
      if x.bytes.length < 12 || (beAt x.bytes 0 4 == auSync && unitHeader x.bytes == none) then s else takeContour (seekUnit s n 1) n f
    else if x.bytes.length < 12 then beginAu s n none (frontAt x)
    else
      let len := auLength x.bytes
      if beAt x.bytes 0 4 != auSync || decide (len < 32) then takeContour (streamEvent (seekUnit s n 1) Ev.SCR_SLICE_ERROR n) n f
      else if inputBuffer x.opened < len then
        let s := onStream s n fun x => { x with discard := len, asm := none, resync := false }
        takeContour (streamEvent s Ev.SCR_STREAM_LIMIT n) n f
      else
        let s := beginAu (onStream s n fun x => { x with resync := false }) n none (frontAt x)
        let s := onStream s n fun x => { x with asm := x.asm.map fun a =>
          { a with data := x.bytes.take len, have_ := [(0, min len x.bytes.length)] } }
        if len ≤ x.bytes.length then
          takeContour (endAu (onStream s n fun x => { x with bytes := x.bytes.drop len }) n (mst s) false) n f
        else
          let u := x.bytes.drop (unitAt x.bytes)
          let s := if 32 ≤ u.length ∧ 20 + beAt u 28 4 ≤ u.length then readyAu s n false else s
          onStream s n syncJob

/-! ### HEVC (R73, R75; NAL unit types of H.265) -/

def nalType (b : List Byte) : Nat := beAt b 0 1 / 2 % 64
def nalVcl (b : List Byte) : Bool := decide (nalType b < 32)
/-- nuh_layer_id above 0: discarded (R82). -/
def nalLayer (b : List Byte) : Nat := beAt b 0 2 / 8 % 64
def nalFirst (b : List Byte) : Bool := nalVcl b && bit (beAt b 2 1) 7
def nalIrap (b : List Byte) : Bool := decide (16 ≤ nalType b) && decide (nalType b ≤ 23)
/-- A non-reference picture's type (R81). -/
def nalNonRef (b : List Byte) : Bool := decide (nalType b ≤ 14) && nalType b % 2 == 0
/-- Types that, after a VCL NAL unit, begin the next access unit (H.265 7.4.2.4.4, log 19). -/
def nalStarts (b : List Byte) : Bool :=
  let t := nalType b
  nalFirst b || (decide (32 ≤ t) && decide (t ≤ 35)) || t == 39 || (decide (41 ≤ t) && decide (t ≤ 44)) || (decide (48 ≤ t) && decide (t ≤ 55))

def auHasSlice (a : Au) : Bool := a.nals.any fun p => nalVcl p.1 && p.2

/-- Put a NAL unit in the access unit being assembled; one of a higher layer is discarded and counted (R82). -/
def addNal (s : State) (n : Nat) (b : List Byte) (whole : Bool) : State :=
  if b.length < 2 then s
  else if nalLayer b != 0 then onStream s n fun x => { x with layered := x.layered + 1 }
  else
    let s := onStream s n fun x => { x with asm := x.asm.map fun a => { a with nals := a.nals ++ [(b, whole)] } }
    let s := if (getStream s n).asm.any auHasSlice then readyAu s n false else s
    onStream s n syncJob

/-- Offset of the next start code 00 00 01 at or after the front. -/
def startCode : List Byte → Nat → Option Nat
  | a :: b :: c :: t, o => if a = 0 ∧ b = 0 ∧ c = 1 then some o else startCode (b :: c :: t) (o + 1)
  | _, _ => none

/-- When the byte at a place was copied, by the lengths and times of the pieces (R76). -/
def pieceTime : List (Nat × Nat) → Nat → Nat
  | [], _ => 0
  | [(_, t)], _ => t
  | (k, t) :: r, i => if i < k then t else pieceTime r (i - k)

/-- The pieces after the first n bytes are gone. -/
def dropPieces : List (Nat × Nat) → Nat → List (Nat × Nat)
  | [], _ => []
  | (k, t) :: r, n => if n < k then (k - n, t) :: r else dropPieces r (n - k)

/-- Take n bytes off the front of an Annex B stream. -/
def dropBytes (s : State) (n k : Nat) : State :=
  onStream s n fun x => { x with bytes := x.bytes.drop k, chunks := dropPieces x.chunks k }

/-- Offset of three zero bytes, which end a NAL unit. -/
def zeroRun : List Byte → Nat → Option Nat
  | a :: b :: c :: t, o => if a = 0 ∧ b = 0 ∧ c = 0 then some o else zeroRun (b :: c :: t) (o + 1)
  | _, _ => none

def trimZeros (b : List Byte) : List Byte := (b.reverse.dropWhile (· == 0)).reverse

/-- The NAL unit of the bytes up to the next start code, and whether bytes that form no start code follow it (R88). -/
def cutNal (b : List Byte) : List Byte × Bool :=
  match zeroRun b 0 with
  | none => (trimZeros b, false)
  | some o => (trimZeros (b.take o), (b.drop o).any (· != 0))

/-- A NAL unit of an Annex B stream, which began at a running offset and whose last byte was copied at an MST; a slice that is
cut by skipped bytes is lost. -/
def annexNal (s : State) (n : Nat) (b : List Byte) (cut : Bool) (pos at_ : Nat) : State :=
  let s := if nalStarts b && nalLayer b == 0 && (getStream s n).asm.any (fun a => a.nals.any fun p => nalVcl p.1) then
      endAu s n (((getStream s n).asm.map (·.arrived)).getD at_) false else s
  let s := addNal (beginAu s n none pos) n b (!cut)
  let s := onStream s n fun x => { x with asm := x.asm.map fun a => { a with arrived := at_ } }
  if cut && nalVcl b then streamEvent s Ev.SCR_SLICE_ERROR n else s

/-- Take the complete NAL units out of the stream's bytes; flush: the range ends on an access unit boundary. Bytes before a start
code that belong to no NAL unit are skipped. -/
def takeAnnexB (s : State) (n : Nat) (flush : Bool) : Nat → State
  | 0 => s
  | f + 1 =>
    let x := getStream s n
    match startCode x.bytes 0 with
    | none => if flush then dropBytes s n x.bytes.length else s
    | some o =>
      let body := x.bytes.drop (o + 3)
      let take (k : Nat) : State :=
        let u := cutNal (body.take k)
        annexNal (dropBytes s n (o + 3 + k)) n u.1 u.2 (frontAt x + o) (pieceTime x.chunks (o + 2 + u.1.length))
      match startCode body 0 with
      | some k => takeAnnexB (take k) n flush f
      | none => if flush then take body.length else s

/-- An HEVC access unit that outgrows the input buffer is given up (R75). -/
def hevcOversize (s : State) (n : Nat) : State :=
  let x := getStream s n
  if inputBuffer x.opened ≤ x.bytes.length + (x.asm.map auBytes).getD 0 then
    let s := onStream s n fun x => { x with bytes := [], chunks := [], asm := x.asm.map fun a => { a with nals := [], dead := true } }
    if x.asm.any (·.dead) then s else streamEvent s Ev.SCR_STREAM_LIMIT n
  else s

/-! ### STREAM_DATA (R75) -/

def dFlags (e : List Byte) : Nat := leAt e 20 1
def dEos (e : List Byte) : Bool := bit (dFlags e) 0
def dTimeValid (e : List Byte) : Bool := bit (dFlags e) 1
def dDisc (e : List Byte) : Bool := bit (dFlags e) 2
def dAuEnd (e : List Byte) : Bool := bit (dFlags e) 3

/-- Lengths of ranges started and not yet taken. -/
def rangesAhead (s : State) (n : Nat) : Nat :=
  (s.hif.cmds.map fun c => if eOpcode c.entry = Op.streamData ∧ eTarget c.entry = n ∧ !c.past then eLen c.entry else 0).sum +
  ((getStream s n).waits.map fun w => w.2.length).sum

/-- DESIGN CHOICE (log 68): a Length of 0 without EOS completes OK_ZERO whatever the stream's state. -/
def startStreamData (s : State) (e : List Byte) : Begin :=
  let n := eTarget e
  let x := getStream s n
  checked [(n ≤ 511, 4)]
    (if eLen e = 0 && !dEos e then .finish St.okZero 0 0
     else if x.state = stClosed ∨ x.state = stClosing ∨ oHost x.opened = false then .finish St.stateConflict 0 0
     else checked [(eAddr e = x.offset + rangesAhead s n, 8), (eLen e ≤ eLen x.opened, 16)]
       (if eLen e = 0 then .run else .read (eAddr e) (eLen e) (some (eAddr x.opened, eLen x.opened))))

/-- What the end of a range does: AU_END and EOS end the access unit. -/
def rangeEnd (s : State) (n : Nat) (e : List Byte) : State :=
  let x := getStream s n
  let s := if oFormat x.opened = fHevc ∧ (dAuEnd e ∨ dEos e) then
      let s := takeAnnexB s n true (x.bytes.length + 1)
      if (getStream s n).asm.isSome then endAu s n (((getStream s n).asm.map (·.arrived)).getD (mst s)) false else s
    else if dEos e then onStream s n fun x => { x with bytes := [], chunks := [], asm := none }
    else s
  if dEos e then maybeEnded (onStream s n fun x => { x with eos := true }) n else s

/-- Take bytes of a range while there is room; the rest waits. -/
def feed (s : State) (n : Nat) : Nat → List Byte → State × List Byte
  | 0, b => (s, b)
  | f + 1, b =>
    if b.isEmpty then (s, b)
    else
      let x := getStream s n
      let room := if 0 < x.discard then b.length else inputBuffer x.opened - heldBytes x
      let k := min room b.length
      if k = 0 then (s, b)
      else
        let s := onStream s n fun x => { x with bytes := x.bytes ++ b.take k, offset := x.offset + k, chunks := x.chunks ++ [(k, mst s)] }
        let s := if oFormat x.opened = fContour then
            onStream (takeContour s n ((getStream s n).bytes.length + 2)) n fun x => { x with chunks := [] }
          else hevcOversize (takeAnnexB s n false ((getStream s n).bytes.length + 1)) n
        feed s n f (b.drop k)

/-- The beginning of a range: a discontinuity discards what is pending; TIME goes to the first access unit that begins in the
range. -/
def rangeBegin (s : State) (n : Nat) (e : List Byte) : State :=
  let s := if dDisc e then
      onStream (toSyncing s n) n fun x => { x with aus := [], asm := none, bytes := [], chunks := [], discard := 0, eos := false, resync := false }
    else if (getStream s n).state = stEnded then toSyncing s n else s
  if dTimeValid e then
    onStream s n fun x => { x with hostTimes := x.hostTimes ++ [(x.offset, x.offset + eLen e, leAt e 24 4)] }
  else s

/-- Take waiting ranges in order, each when the bytes before it are in. -/
def feedWaits (s : State) (n : Nat) : Nat → State
  | 0 => s
  | f + 1 =>
    let x := getStream s n
    let next := x.waits.find? fun w => (findCmd s w.1).any fun c => eAddr c.entry + eLen c.entry == x.offset + w.2.length
    match next with
    | none => s
    | some w =>
      match findCmd s w.1 with
      | none => s
      | some c =>
        let s := if w.2.length = eLen c.entry then rangeBegin s n c.entry else s
        let r := feed s n (w.2.length + 1) w.2
        let s := r.1
        if r.2.isEmpty then
          let s := onStream s n fun x => { x with waits := x.waits.filter (·.1 != w.1) }
          feedWaits (complete (rangeEnd s n c.entry) c St.ok) n f
        else onStream s n fun x => { x with waits := x.waits.map fun y => if y.1 = w.1 then (y.1, r.2) else y }

def runStreamData (s : State) (c : Cmd) (d : List Byte) : State :=
  let n := eTarget c.entry
  let x := getStream s n
  if x.state = stClosed ∨ x.state = stClosing then complete s c St.aborted
  else feedWaits (setStream s n { x with waits := x.waits ++ [(c.id, d)] }) n (x.waits.length + 2)

def execStreamData (q : Nat) (s : State) : Host.Outcome State Fault Refusal :=
  .next (ringRow Op.streamData anyEntry startStreamData runStreamData q s)

def execStreamDataResume (n : Nat) (s : State) : Host.Outcome State Fault Refusal :=
  .next (feedWaits s n ((getStream s n).waits.length + 1))

/-! ### STREAM_CONCEAL_SET (R87) -/

def startStreamConcealSet (s : State) (e : List Byte) : Begin :=
  checked [(eTarget e ≤ 511, 4), (leAt e 20 1 ≤ 2, 20)]
    (if (getStream s (eTarget e)).state = stClosed then .finish St.stateConflict 0 0 else .run)

def runStreamConcealSet (s : State) (c : Cmd) (_ : List Byte) : State :=
  let f := leAt c.entry 21 1
  complete (onStream s (eTarget c.entry) fun x => { x with mode := leAt c.entry 20 1, freeze := bit f 0, hashStrict := bit f 1 }) c St.ok

def execStreamConcealSet (q : Nat) (s : State) : Host.Outcome State Fault Refusal :=
  .next (ringRow Op.streamConcealSet anyEntry startStreamConcealSet runStreamConcealSet q s)

/-! ### ST 2110-20 (R74, R84, R88; pixel groups of SMPTE ST 2110-20, log 20) -/

/-- Samples and luma pixels (across, down) of the smallest unit of a sampling. -/
def unitSamples (chroma : Nat) : Nat := if chroma = 2 then 3 else if chroma = 1 then 4 else 6
def unitAcross (chroma : Nat) : Nat := if chroma = 2 then 1 else 2
/-- Units of a pixel group: the fewest that fill whole bytes. -/
def groupUnits (chroma depth : Nat) : Nat := ([1, 2, 4, 8].find? fun u => u * unitSamples chroma * depth % 8 == 0).getD 8
def groupBytes (chroma depth : Nat) : Nat := groupUnits chroma depth * unitSamples chroma * depth / 8
def groupAcross (chroma depth : Nat) : Nat := groupUnits chroma depth * unitAcross chroma

/-- Where sample k of a unit goes: component, and its place within the unit (x, y). -/
def samplePlace (chroma : Nat) (rgb : Bool) (k : Nat) : Nat × Nat × Nat :=
  if chroma = 2 then (if rgb then (k, 0, 0) else ([1, 0, 2].getD k 0, 0, 0))
  else if chroma = 1 then [(1, 0, 0), (0, 0, 0), (2, 0, 0), (0, 1, 0)].getD k (0, 0, 0)
  else [(0, 0, 0), (0, 1, 0), (0, 0, 1), (0, 1, 1), (1, 0, 0), (2, 0, 0)].getD k (0, 0, 0)

def putSample (p : Planes) (c y x v : Nat) : Planes := p.modify c fun pl => pl.modify y fun r => r.set x v

/-- Write the samples of a row segment's units from luma column x on. -/
def putUnits (e : List Byte) (row : Nat) : Nat → Nat → Bits → Planes → Planes
  | 0, _, _, p => p
  | n + 1, x, b, p =>
    let ch := oChroma e
    let d := oMaxDepth e
    let p := (List.range (unitSamples ch)).foldl (fun p k =>
      let q := samplePlace ch (oRgb e) k
      let v := bitsVal ((b.drop (k * d)).take d)
      let sub := ch < 2 && q.1 != 0
      putSample p q.1 (if sub && ch == 0 then row / 2 else row + q.2.2) (if sub then x / 2 else x + q.2.1) v) p
    putUnits e row n (x + unitAcross ch) (b.drop (unitSamples ch * d)) p

def planeRows (e : List Byte) (c : Nat) : Nat := if oChroma e = 0 ∧ c ≠ 0 then (oMaxH e + 1) / 2 else oMaxH e
def planeCols (e : List Byte) (c : Nat) : Nat := if oChroma e < 2 ∧ c ≠ 0 then (oMaxW e + 1) / 2 else oMaxW e
def blankPlanes (e : List Byte) : Planes :=
  (List.range 3).map fun c => List.replicate (planeRows e c) (List.replicate (planeCols e c) 0)

/-- Row segments of a payload: row, offset, data; the headers come first. -/
def rowHeaders : Nat → List Byte → List (Nat × Nat × Nat) × List Byte
  | 0, b => ([], b)
  | n + 1, b =>
    if b.length < 6 then ([], b)
    else
      let h := (beAt b 0 2, beAt b 2 2 % 32768, beAt b 4 2 % 32768)
      if bit (beAt b 4 2) 15 then let r := rowHeaders n (b.drop 6); (h :: r.1, r.2) else ([h], b.drop 6)

def cutSegments : List (Nat × Nat × Nat) → List Byte → List (Nat × Nat × List Byte)
  | [], _ => []
  | (len, row, off) :: t, b => (row, off, b.take len) :: cutSegments t (b.drop len)

/-- Write one row segment, or drop it (R88). -/
def putSegment (s : State) (n : Nat) (g : Nat × Nat × List Byte) : State :=
  let x := getStream s n
  let e := x.opened
  let (row, off, d) := g
  let gb := groupBytes (oChroma e) (oMaxDepth e)
  let ga := groupAcross (oChroma e) (oMaxDepth e)
  let groups := d.length / gb
  if d.length % gb != 0 || decide (oMaxH e ≤ row) || decide (oMaxW e < off + groups * ga) then streamEvent s Ev.SCR_2110_INVALID n
  else
    match x.raster with
    | none => s
    | some r =>
      let planes := putUnits e row (groups * groupUnits (oChroma e) (oMaxDepth e)) off (toBits d) r.planes
      let got := r.got.set row ((r.got.get row [] ++ rangeFrom (off / ga) groups).eraseDups) []
      setStream s n { x with raster := some { r with planes := planes, got := got, topRow := max r.topRow row } }

/-- All pixel groups of a row have arrived. -/
def rowFull (e : List Byte) (r : Raster) (row : Nat) : Bool :=
  let ga := groupAcross (oChroma e) (oMaxDepth e)
  let need := (oMaxW e + ga - 1) / ga
  decide (need ≤ (r.got.get row []).length) || (oChroma e == 0 && row % 2 == 1 && decide (need ≤ (r.got.get (row - 1) []).length))

def midRow (depth w : Nat) : List Nat := List.replicate w (2 ^ (depth - 1))

/-- The replacement of row y of component c of a lost region that begins at row top (R84). -/
def concealRow (mode : Nat) (last : Option Picture) (same : Bool) (pl : List (List Nat)) (c depth top y w : Nat) : List Nat :=
  if mode = 0 ∧ same then ((last.map fun p => (p.planes.getD c []).getD y []).getD (midRow depth w))
  else if mode = 1 ∧ 0 < top then pl.getD (top - 1) (midRow depth w)
  else midRow depth w

def samePlan (a b : Picture) : Bool :=
  a.w == b.w && a.h == b.h && a.depth == b.depth && a.chroma == b.chroma && a.transform == b.transform

/-- The pixel group of row y that holds a sample has arrived; one of 4:2:0 covers two rows. -/
def groupIn (e : List Byte) (r : Raster) (y g : Nat) : Bool :=
  (r.got.get (if oChroma e = 0 then y / 2 * 2 else y) []).contains g || (r.got.get y []).contains g

/-- Conceal the pixel groups of a band that have not arrived (R74, R84). -/
def concealBand (x : Stream) (r : Raster) (lo hi : Nat) : Planes :=
  let e := x.opened
  let same := x.lastDecoded.any (samePlan (rasterPicture e r))
  let ga := groupAcross (oChroma e) (oMaxDepth e)
  let lost := (rangeFrom lo (hi - lo)).filter fun y => !rowFull e r y
  lost.foldl (fun p y => p.mapIdx fun c pl =>
    let yy := if oChroma e = 0 ∧ c ≠ 0 then y / 2 else y
    let fill := concealRow r.mode x.lastDecoded same pl c (oMaxDepth e) yy yy (planeCols e c)
    pl.modify yy fun row => row.mapIdx fun i v =>
      let luma := if oChroma e < 2 ∧ c ≠ 0 then 2 * i else i
      if groupIn e r y (luma / ga) then v else fill.getD i 0) r.planes

/-- Picture time of a raster (R76): HOST_TIME, which no STREAM_DATA serves, counts on from the previous picture. -/
def rasterEndTime (s : State) (x : Stream) (r : Raster) : Nat :=
  let e := x.opened
  if oBind e = bindRtp then withOffset e (rtpTime s r.ts)
  else if oBind e = bindArrival then withOffset e r.arrived
  else if oBind e = bindHost then withOffset e ((x.lastTime.map fun t => (t + oPeriod e) % 2 ^ 32).getD (mst s))
  else withOffset e (mst s)

/-- The picture is complete: it is delivered (R64, R76). DESIGN CHOICE (log 68): the concealment mark of an ST 2110-20 stream,
which has no intra pictures, holds until the next picture without loss. -/
def endRaster (s : State) (n : Nat) : State :=
  let x := getStream s n
  match x.raster with
  | none => s
  | some r =>
    let e := x.opened
    let s := setStream s n { x with raster := none, concealed := r.lost }
    if x.state = stSyncing && r.lost then s
    else
      let s := toRunning s n
      let t := rasterEndTime s x r
      let pic := rasterPicture e r
      let s := onStream s n fun x => { x with lastDecoded := some pic, lastTime := some ((t + 2 ^ 32 - unsigned 32 (oOffset e)) % 2 ^ 32) }
      deliver s n ⟨some pic, t, mayBind r.freeze r.lost, false⟩

/-- Commit the next band of 16 rows if its pixel groups are all in, or lost. DESIGN CHOICE (log 68): SLICES counts a concealed
band as one slice. -/
def commitBand (s : State) (n : Nat) : State :=
  let x := getStream s n
  match x.raster with
  | none => s
  | some r =>
    let e := x.opened
    let lo := r.committed
    let hi := min (lo + 16) (oMaxH e)
    let full := (rangeFrom lo (hi - lo)).all (rowFull e r)
    if full || r.closed || (r.lost && decide (hi ≤ r.topRow)) then
      let s := if full then setStream s n { x with raster := some { r with committed := hi } }
        else streamEvent (setStream s n { x with raster := some { r with committed := hi, lost := true, planes := concealBand x r lo hi },
                                                 concealed := true, slicesLost := min 65535 (x.slicesLost + 1) }) Ev.SCR_SLICE_LOST n
      if hi = oMaxH e then endRaster s n else s
    else s

def execSt2110BandCommit (n : Nat) (s : State) : Host.Outcome State Fault Refusal := .next (commitBand s n)

/-- Commit every band of a picture that has ended. -/
def closeRaster (s : State) (n : Nat) : Nat → State
  | 0 => s
  | f + 1 =>
    let s := onStream s n fun x => { x with raster := x.raster.map fun r => { r with closed := true } }
    if (getStream s n).raster.isSome then closeRaster (commitBand s n) n f else s

/-- A new raster, with the concealment settings of its start (R87). -/
def beginRaster (s : State) (n ts : Nat) : State :=
  let m := mst s
  noteTimestamp (onStream s n fun x =>
    { x with raster := some ⟨ts, blankPlanes x.opened, [], 0, false, 0, x.lossTold, 0, x.mode, x.freeze, m⟩, lossTold := false }) n (some ts)

/-- The rows of a packet. In block packing mode its data fill whole blocks of 180 bytes (log 20). -/
def rasterRows (s : State) (n : Nat) (pay : List Byte) : State :=
  let h := rowHeaders 3 pay
  if oBpm (getStream s n).opened && h.2.length % 180 != 0 then streamEvent s Ev.SCR_2110_INVALID n
  else foldS (cutSegments h.1 h.2) (fun s g => putSegment s n g) s

/-- A released packet of ST 2110-20. A packet of a picture that its deadline has completed has no effect. -/
def takeRaster (s : State) (n : Nat) (p : Packet) : State :=
  let old := (getStream s n).raster
  let s := if old.any (fun r => r.ts != p.ts) then
      let s := if (getStream s n).markerRaised then s
        else streamEvent (onStream s n fun x => { x with markerRaised := true }) Ev.SCR_2110_NO_MARKER n
      closeRaster s n 1025
    else s
  let x := getStream s n
  if x.raster.isNone && x.lastTs == some p.ts then s
  else
    let s := if x.raster.isSome then s else beginRaster s n p.ts
    let s := rasterRows s n (p.payload.drop 2)
    let s := onStream s n fun x => { x with raster := x.raster.map fun r => { r with arrived := p.at_ } }
    if p.mark then closeRaster s n 1025 else s

/-! ### Released packets of compressed streams (R73, R117, R118) -/

/-- The next packet has another timestamp: the access unit ends (R73). DESIGN CHOICE (log 68): so does a Contour access unit
whose marker packet was lost. -/
def splitAu (s : State) (n ts : Nat) : State :=
  match (getStream s n).asm with
  | some a => if a.ts = some ts then s else endAu s n a.arrived false
  | none => s

def overlaps (l : List (Nat × Nat)) (lo hi : Nat) : Bool := l.any fun r => decide (r.1 < hi) && decide (lo < r.2)

/-- Bytes 0 to n − 1 have all been received; ranges do not overlap. -/
def covered (l : List (Nat × Nat)) (n : Nat) : Bool := (l.map fun r => min r.2 n - min r.1 n).sum == n

/-- The first slice of an access unit is in (R78). -/
def firstSliceIn (a : Au) : Bool :=
  let u := unitAt a.data
  covered a.have_ (u + 32) && covered a.have_ (u + 20 + beAt a.data (u + 28) 4)

/-- Place bytes of an access unit at an offset. -/
def placeBytes (b : List Byte) (o : Nat) (d : List Byte) : List Byte := patch (b ++ zeros (o + d.length - b.length)) o d

/-- A released packet of Contour: its bytes go to au_offset (R118). An access unit whose AU_END does not stand at au_length ends
there all the same (R115). -/
def takeContourPacket (s : State) (n : Nat) (p : Packet) : State :=
  let s := beginAu (splitAu s n p.ts) n (some p.ts) 0
  let o := beAt p.payload 0 4
  let d := p.payload.drop 8
  let ptr := beAt p.payload 4 2
  match (getStream s n).asm with
  | none => s
  | some a =>
    if a.dead then (if p.mark then endAu s n p.at_ false else s)
    else if p.payload.length < 8 || overlaps a.have_ o (o + d.length) || decide (inputBuffer (getStream s n).opened < o + d.length) then
      streamEvent (addF s Rg.SCR_INTAKE_DROP_DROPPED) Ev.SCR_RTP_INVALID n
    else
      let a := { a with data := placeBytes a.data o d, have_ := a.have_ ++ [(o, o + d.length)], arrived := p.at_,
                        marks := if ptr = 0xFFFF then a.marks else a.marks ++ [o + ptr] }
      let s := onStream s n fun x => { x with asm := some a }
      let s := if firstSliceIn a then readyAu s n false else s
      let s := onStream s n syncJob
      let len := auLength a.data
      if p.mark then
        endAu (if len != 0 && len != o + d.length then streamEvent s Ev.SCR_SLICE_ERROR n else s) n p.at_ false
      else s

/-- A NAL unit of an aggregation packet. -/
def apUnits : Nat → List Byte → List (List Byte)
  | 0, _ => []
  | n + 1, b => if b.length < 3 then [] else (b.drop 2).take (beAt b 0 2) :: apUnits n (b.drop (2 + beAt b 0 2))

/-- A discarded NAL unit leaves its slice lost (R73, R88). -/
def lostNal (s : State) (n : Nat) : State := onStream s n fun x => { x with asm := x.asm.map fun a => { a with nals := a.nals ++ [([], false)] } }

def openFragment (a : Au) : Bool := a.nals.getLast?.any fun p => !p.2 && !p.1.isEmpty

/-- What the stream knows of the fragments it sees: none in progress, or a NAL unit being discarded. -/
def setFragment (s : State) (n : Nat) (f : Option Bool) : State := onStream s n fun x => { x with fragment := f }

/-- A fragmentation unit (RFC 7798). A unit with a lost fragment is discarded whole; one without its start is invalid, told
once for the NAL unit (R73, R88). -/
def fuPacket (s : State) (n : Nat) (b : List Byte) : State :=
  let fh := beAt b 2 1
  let first := bit fh 7
  let last := bit fh 6
  let body := b.drop 3
  let after_ := if last then none else some true
  match (getStream s n).asm with
  | none => s
  | some a =>
    if first then
      let hdr := beBytes 1 (beAt b 0 1 % 2 + beAt b 0 1 / 128 * 128 + fh % 64 * 2) ++ beBytes 1 (beAt b 1 1)
      setFragment (onStream s n fun x => { x with asm := some { a with nals := a.nals ++ [(hdr ++ body, last)] } }) n none
    else if openFragment a then
      let old := (a.nals.getLast?.map (·.1)).getD []
      let s := onStream s n fun x => { x with asm := some { a with nals := a.nals.dropLast } }
      if last then addNal s n (old ++ body) true
      else onStream s n fun x => { x with asm := x.asm.map fun a => { a with nals := a.nals ++ [(old ++ body, false)] } }
    else match (getStream s n).fragment with
      | some true => setFragment s n after_
      | some false => setFragment (lostNal s n) n after_
      | none => setFragment (streamEvent (streamEvent (lostNal s n) Ev.SCR_RTP_INVALID n) Ev.SCR_SLICE_LOST n) n after_

def takeHevcPacket (s : State) (n : Nat) (p : Packet) : State :=
  let s := beginAu (splitAu s n p.ts) n (some p.ts) 0
  let t := nalType p.payload
  let s := if t = 49 then s else setFragment s n none
  let s := if (getStream s n).asm.any (·.dead) then s
    else if t = 48 then foldS (apUnits 64 (p.payload.drop 2)) (fun s b => addNal s n b true) s
    else if t = 49 then fuPacket s n p.payload
    else if 50 ≤ t then streamEvent (streamEvent (lostNal s n) Ev.SCR_RTP_INVALID n) Ev.SCR_SLICE_LOST n
    else addNal s n p.payload true
  let s := onStream s n fun x => { x with asm := x.asm.map fun a => { a with arrived := p.at_ } }
  let s := onStream s n syncJob
  if p.mark then endAu s n p.at_ false else s

def takePacket (s : State) (n : Nat) (p : Packet) : State :=
  let f := oFormat (getStream s n).opened
  let s := if (getStream s n).state = stEnded then toSyncing s n else s
  if f = f2110 then takeRaster s n p else if f = fContour then takeContourPacket s n p else takeHevcPacket s n p

/-! ### The reorder window (R71, R72) -/

def keyWidth (x : Stream) : Nat := if oFormat x.opened = f2110 then 32 else 16
def keyDiff (x : Stream) (a b : Nat) : Int := signed (keyWidth x) ((a + 2 ^ keyWidth x - b % 2 ^ keyWidth x) % 2 ^ keyWidth x)
def keyNext (x : Stream) (k : Nat) : Nat := (k + 1) % 2 ^ keyWidth x

/-- Staging cells of a stream's window, and of all (R71). DESIGN CHOICE (log 68): a packet's RTP payload fills cells, not its
headers. -/
def packetCells (p : Packet) : Nat := (p.payload.length + 255) / 256
def stagingCells (x : Stream) : Nat := (x.window.map fun w => match w.2 with
  | none => 0
  | some p => packetCells p).sum
def allCells (s : State) : Nat := (s.scr.streams.map fun p => stagingCells p.2).sum
def showCells (s : State) : State :=
  let c := allCells s
  let s := setF s Rg.SCR_INTAKE_STATUS_CELLS 0 c
  setF s Rg.SCR_INTAKE_STATUS_HIGH_WATER 0 (max c (getF s Rg.SCR_INTAKE_STATUS_HIGH_WATER))

/-- When the first packet past the gap arrived. -/
def firstSeen (x : Stream) : Option Nat :=
  (x.window.filterMap (·.2)).foldl (fun (g : Option Nat) p => some (match g with
    | none => p.seen
    | some o => min o p.seen)) none

/-- Release the packets that are next in order. -/
def releaseInOrder (s : State) (n : Nat) : Nat → State
  | 0 => s
  | f + 1 =>
    let x := getStream s n
    match x.nextKey with
    | none => s
    | some k =>
      match x.window.get k none with
      | none => onStream s n fun x => { x with gapAt := firstSeen x }
      | some p => releaseInOrder (takePacket (setStream s n { x with window := x.window.erase k, nextKey := some (keyNext x k) }) n p) n f

/-- Packets are declared lost: counted, told once per picture affected, or once until the next picture begins where none is open; a
fragmented NAL unit loses its rest. -/
def losePackets (s : State) (n k : Nat) : State :=
  let x := getStream s n
  let told := match x.asm with
    | some a => a.reported
    | none => match x.raster with
      | some r => r.lost
      | none => x.lossTold
  let asm := x.asm.map fun a => { a with reported := true, nals := if openFragment a then a.nals.dropLast ++ [([], false)] else a.nals }
  let raster := x.raster.map fun r => { r with lost := true }
  let s := setStream s n { x with packetsLost := min 65535 (x.packetsLost + k), asm := asm, raster := raster,
                                  fragment := some (x.asm.any openFragment || x.fragment == some true),
                                  lossTold := x.lossTold || (x.asm.isNone && x.raster.isNone) }
  if told || k = 0 then s else streamEvent s Ev.SCR_PACKET_LOSS n

/-- The key of the window that comes first after the oldest outstanding one. -/
def firstKey (x : Stream) (k : Nat) : Option Nat :=
  (x.window.filter (·.2.isSome)).foldl (fun (b : Option Nat) p => some (match b with
    | none => p.1
    | some o => if keyDiff x p.1 k < keyDiff x o k then p.1 else o)) none

/-- Declare the gap at the front of the window lost, up to the next packet that is in. -/
def loseGap (s : State) (n : Nat) : State :=
  let x := getStream s n
  match x.nextKey with
  | none => s
  | some k =>
    match firstKey x k with
    | none => s
    | some g => if g = k then s else losePackets (onStream s n fun x => { x with nextKey := some g }) n (keyDiff x g k).toNat

def passGap (s : State) (n : Nat) : State := showCells (releaseInOrder (loseGap s n) n 1024)

def execReorderTimeout (n : Nat) (s : State) : Host.Outcome State Fault Refusal :=
  .next <|
    let x := getStream s n
    match x.gapAt with
    | none => s
    | some t => if t + 1000 * oReorder x.opened ≤ s.now then passGap s n else s

/-- Every gap of a stream is lost. -/
def loseAllGaps (s : State) (n : Nat) : Nat → State
  | 0 => s
  | f + 1 => if (getStream s n).window.isEmpty then s else loseAllGaps (passGap s n) n f

/-- Staging has reached 32,256 cells (R72). -/
def stagingPressure (s : State) : State :=
  if allCells s < 32256 then s
  else
    let most := s.scr.streams.foldl (fun (b : Nat × Nat) p => if b.2 < stagingCells p.2 then (p.1, stagingCells p.2) else b) (0, 0)
    streamEvent (loseAllGaps s most.1 512) Ev.SCR_INTAKE_PRESSURE most.1

/-! ### STREAM_PACKET_RECEIVE -/

/-- Where the RTP payload starts and ends (RFC 3550). -/
def rtpPayload (b : List Byte) : List Byte :=
  let o := 12 + 4 * (beAt b 0 1 % 16)
  let o := if bit (beAt b 0 1) 4 then o + 4 + 4 * beAt b (o + 2) 2 else o
  let pad := if bit (beAt b 0 1) 5 then (b.getLast?.map (·.toNat)).getD 0 else 0
  (b.take (b.length - pad)).drop o

def dropPacket (s : State) : State := addF s Rg.SCR_INTAKE_DROP_DROPPED

/-- Keys that are 512 or more behind a new one are released or lost (R72). -/
def loseBehind (s : State) (n key : Nat) : Nat → State
  | 0 => s
  | f + 1 =>
    let x := getStream s n
    match x.nextKey with
    | none => s
    | some k =>
      let room := keyDiff x key k - 511
      if room ≤ 0 then s
      else match x.window.get k none with
        | some p => loseBehind (takePacket (setStream s n { x with window := x.window.erase k, nextKey := some (keyNext x k) }) n p) n key f
        | none =>
          let gap := match firstKey x k with
            | none => room
            | some g => if keyDiff x g k < room then keyDiff x g k else room
          loseBehind (losePackets (setStream s n { x with nextKey := some ((k + gap.toNat) % 2 ^ keyWidth x) }) n gap.toNat) n key f

/-- Accept a packet into the window. -/
def acceptPacket (s : State) (n key : Nat) (p : Packet) : State :=
  let s := onStream s n fun x => { x with behind := 0, nextKey := some (x.nextKey.getD key) }
  let s := loseBehind s n key 1200
  let s := onStream s n fun x => { x with window := x.window.set key (some p) none }
  let s := releaseInOrder s n 1024
  let s := if oReorder (getStream s n).opened = 0 then passGap s n else s
  stagingPressure (showCells s)

/-- ST 2110-22 datagrams, with their 8-byte UDP header, have at most 8,960 bytes (R117). -/
def datagramOk (e b : List Byte) : Bool := oFormat e != fContour || decide (b.length + 8 ≤ 8960)

/-- A packet of a stream's flow reaches an intake port; b is the UDP payload. -/
def receivePacket (s : State) (n : Nat) (b : List Byte) : State :=
  let x := getStream s n
  let e := x.opened
  if x.state = stClosed ∨ x.state = stClosing ∨ oHost e = true ∨ datagramOk e b = false then dropPacket s
  else if beAt b 0 1 / 64 != 2 || b.length < 12 || !(bit (oPt e) 7 || beAt b 1 1 % 128 == oPt e % 128) ||
      (oSsrcCheck e && beAt b 8 4 != oSsrc e) then streamEvent (dropPacket s) Ev.SCR_RTP_INVALID n
  else
    let pay := rtpPayload b
    let key := if oFormat e = f2110 then beAt pay 0 2 * 65536 + beAt b 2 2 else beAt b 2 2
    let p : Packet := ⟨bit (beAt b 1 1) 7, beAt b 4 4, pay, mst s, s.now⟩
    let d := match x.nextKey with
      | none => 0
      | some k => keyDiff x key k
    if d < 0 then
      if 64 ≤ x.behind + 1 then
        let s := loseAllGaps s n 512
        acceptPacket (streamEvent (onStream s n fun x => { x with nextKey := none, window := [] }) Ev.SCR_RTP_RESYNC n) n key p
      else dropPacket (setStream s n { x with behind := x.behind + 1 })
    else if (x.window.get key none).isSome then dropPacket (setStream s n { x with behind := 0 })
    else if oFormat e != f2110 && decide (inputBuffer e < heldBytes x + pay.length) then
      streamEvent (dropPacket (setStream s n { x with behind := 0 })) Ev.SCR_INPUT_OVERFLOW n
    else acceptPacket s n key p

def execStreamPacketReceive (n : Nat) (b : List Byte) (s : State) : Host.Outcome State Fault Refusal :=
  .next (if domainOn s 30 then receivePacket s n b else s)

end Sys2Proof.Machine
end

