-- ==== Sys2Proof/Machine/Decoding.lean ====
section
/-!
DEFINITION. The dispatcher and decoding (R61 to R64, R77 to R89, R115, R147, R148): the choice of pictures, context switches,
slices and their integrity, concealment, the end of a picture, deadlines and shedding, and the close and reset of streams.
-/

namespace Sys2Proof.Machine

def setJob (s : State) (n : Nat) (j : Job) : State := onStream s n fun x => { x with job := some j }

/-! ### Start points and discarded pictures (R64, R81) -/

def auHeader (a : Au) : HdrCheck := checkHeader (a.data.drop (unitAt a.data))

/-- An IRAP picture (HEVC) or an I picture (Contour). -/
def auIntra (x : Stream) (a : Au) : Bool :=
  if oFormat x.opened = fHevc then a.nals.any fun p => nalIrap p.1 && p.2
  else match auHeader a with
    | .ok h => h.ptype == 0
    | _ => false

/-- A stream that synchronises or sheds discards the picture. -/
def discards (x : Stream) (a : Au) : Bool :=
  (x.state == stSyncing && oFormat x.opened == fHevc && !auIntra x a) || (x.shedding && !auIntra x a)

/-- A late non-reference HEVC picture is not decoded (R81). -/
def skips (s : State) (n : Nat) (x : Stream) (a : Au) : Bool :=
  oFormat x.opened == fHevc && getB s Rg.SCR_DISPATCH_CTRL_SKIP_NONREF && (a.nals.filter fun p => nalVcl p.1).all (fun p => nalNonRef p.1) &&
  decide (0 < mstDiff (mst s) (pictureDeadline s n (a.time.getD a.ready) a.ready))

/-- Drop the pictures at the front that no core will take. -/
def pruneAus (s : State) (n : Nat) : Nat → State
  | 0 => s
  | f + 1 =>
    let x := getStream s n
    match x.aus with
    | [] => s
    | a :: r =>
      if discards x a then pruneAus (maybeEnded (setStream s n { x with aus := r }) n) n f
      else if skips s n x a then
        let s := setStream s n { x with aus := r, skipped := min 65535 (x.skipped + 1) }
        pruneAus (maybeEnded (streamEvent s Ev.SCR_PICTURE_SKIPPED n) n) n f
      else s

/-- The access unit that a core would take: the oldest complete one, or with EARLY_START the one still arriving. -/
def readyUnit (x : Stream) : Option Au :=
  if x.job.isSome || !(x.state == stSyncing || x.state == stRunning) then none
  else match x.aus with
    | a :: _ => some a
    | [] => match x.asm with
      | some a => if oEarly x.opened && a.ready != 0 && !a.dead && !discards x a then some a else none
      | none => none

/-- A late non-reference picture that is still arriving is not decoded either (R81). -/
def pruneEarly (s : State) (n : Nat) : State :=
  let x := getStream s n
  match readyUnit x with
  | none => s
  | some a =>
    if x.aus.isEmpty && skips s n x a then
      streamEvent (setStream s n { x with asm := some { a with dead := true }, skipped := min 65535 (x.skipped + 1) }) Ev.SCR_PICTURE_SKIPPED n
    else s

/-! ### The dispatcher (R79) -/

/-- A candidate: whether it is a sheet's, its number, PRIORITY, and how far ahead its deadline lies. -/
structure Candidate where
  sheet : Bool
  number : Nat
  prio : Nat
  ahead : Int
deriving DecidableEq, Repr

def streamCandidates (s : State) : List Candidate :=
  s.scr.streams.filterMap fun p => (readyUnit p.2).map fun a =>
    ⟨false, p.1, oPriority p.2.opened, mstDiff (pictureDeadline s p.1 (a.time.getD a.ready) a.ready) (mst s)⟩

def sheetCandidates (s : State) : List Candidate :=
  s.scr.readySheets.filterMap fun n =>
    if (coreOf s (true, n)).isSome then none
    else (headPic s n).map fun p => ⟨true, n, 0, mstDiff (picDeadline p) (mst s)⟩

/-- Earliest deadline; ties to sheets, then to lower PRIORITY, then to the lower number. -/
def Candidate.before (a b : Candidate) : Bool :=
  if a.ahead != b.ahead then decide (a.ahead < b.ahead)
  else if a.sheet != b.sheet then a.sheet
  else if a.prio != b.prio then decide (a.prio < b.prio)
  else decide (a.number < b.number)

def chooseJob (s : State) : Option (Bool × Nat) :=
  match s.scr.closing.find? fun n => (coreOf s (true, n)).isNone with
  | some n => some (true, n)
  | none =>
    ((sheetCandidates s ++ streamCandidates s).foldl (fun (b : Option Candidate) c => some (match b with
      | none => c
      | some o => if c.before o then c else o)) none).map fun c => (c.sheet, c.number)

/-- The stream's picture leaves its core; the rest of an access unit still arriving is not wanted (R80). -/
def dropJob (s : State) (n : Nat) (j : Job) : State :=
  let kill (o : Option Au) : Option Au := o.map fun a => { a with dead := true }
  onStream s n fun x => { x with job := none, asm := if j.au.whole then x.asm else kill x.asm }

/-- After a stream's picture: its close finishes, or its end may have come. -/
def afterPicture (s : State) (n : Nat) : State :=
  match (getStream s n).closing with
  | some id => finishClose s n id
  | none => maybeEnded s n

/-- A picture is not decoded: the core is free again. -/
def giveUp (s : State) (n : Nat) : State :=
  let s := match (getStream s n).job with
    | none => s
    | some j => freeCore (dropJob s n j) j.core
  afterPicture s n

/-- The AU header of a network stream is in range (R114). -/
def auHeaderOk (x : Stream) (a : Au) : Bool :=
  oHost x.opened || (beAt a.data 0 4 == auSync && (auLength a.data == 0 || decide (32 ≤ auLength a.data)))

/-- The stream header is checked and not acted on (R100, R115). -/
def checkStreamHeader (s : State) (n : Nat) (b : List Byte) : State :=
  if unitAt b = 12 then s
  else
    let h := (b.drop 12).take 16
    let depth := beAt h 5 1 / 16 + 8
    let x := getStream s n
    let e := x.opened
    if crc32c (h.take 12) != beAt h 12 4 || !List.contains [10, 20, 30, 40, 50] (beAt h 0 1) || decide (beAt h 1 2 < 15) || decide (32767 < beAt h 1 2) ||
        decide (beAt h 3 2 < 15) || decide (16383 < beAt h 3 2) || decide (16 < depth) then streamEvent s Ev.SCR_SLICE_ERROR n
    else if (decide (oMaxW e < beAt h 1 2 + 1) || decide (oMaxH e < beAt h 3 2 + 1) || decide (oMaxDepth e < depth) ||
        (bit (beAt h 5 1) 3 && oChroma e == 0)) && !x.limitRaised then
      streamEvent (setStream s n { x with limitRaised := true }) Ev.SCR_STREAM_LIMIT n
    else s

/-- The verdict on a Contour picture's header when a core begins it (R88, R115, R449). -/
def beginContour (s : State) (n : Nat) (j : Job) : State :=
  let s := checkStreamHeader s n j.au.data
  let bad (ev : Nat) : State := giveUp (streamEvent (onStream s n fun x => { x with concealed := true }) ev n) n
  if !auHeaderOk (getStream s n) j.au then bad Ev.SCR_SLICE_ERROR
  else match auHeader j.au with
  | .startCode => bad Ev.SCR_SLICE_ERROR
  | .crc => bad Ev.SCR_CRC_FAIL
  | .version => bad Ev.SCR_STREAM_LIMIT
  | .range => bad Ev.SCR_SLICE_ERROR
  | .ok h =>
    let e := (getStream s n).opened
    if oMaxW e < h.w ∨ oMaxH e < h.h ∨ oMaxDepth e < h.depth ∨ oChroma e < (if h.c422 then 1 else 2) then
      giveUp (streamEvent s Ev.SCR_STREAM_LIMIT n) n
    else
      let s := toRunning s n
      setJob s n { j with hdr := some h, rec_ := h.blank, next := unitAt j.au.data + 20, start := h.ptype == 0 }

/-- A core that has its context starts its picture. -/
def startOnCore (s : State) (c : Nat) : State :=
  match (getCore s c).job with
  | none => s
  | some (true, n) =>
    let s := match headPic s n with
      | none => s
      | some p => if (getEnc s n).run.isNone then startEncode s n p else s
    setCoreState s c coreEncode
  | some (false, n) =>
    let s := setCoreState s c coreDecode
    match (getStream s n).job with
    | none => freeCore s c
    | some j =>
      let x := getStream s n
      let j := { j with mode := x.mode, hashStrict := x.hashStrict, freeze := x.freeze }
      if oFormat x.opened = fHevc then setJob (toRunning s n) n { j with start := auIntra x j.au } else beginContour s n j

/-- Give a core its next picture; a picture of what it served last needs no switch (R63, R79). -/
def dispatch (s : State) (c : Nat) : State :=
  if 24 ≤ c ∨ (getCore s c).job.isSome ∨ !bit (getF s Rg.SCR_CORE_ENABLE_ENABLE) c ∨ !domainOn s (6 + c) ∨ !domainOn s 30 ∨ relocking s 0 then s
  else
    let s := foldS (s.scr.streams.map (·.1)) (fun s n => pruneEarly (pruneAus s n ((getStream s n).aus.length)) n) s
    match chooseJob s with
    | none => s
    | some job =>
      let n := job.2
      let s := if job.1 then s
        else
          let x := getStream s n
          match readyUnit x with
          | none => s
          | some a =>
            let d := pictureDeadline s n (a.time.getD a.ready) a.ready
            let j : Job := ⟨a, c, none, ⟨0, 0, [], 0, false, []⟩, [], false, false, false, 0, none, 0, 0, false, false, x.mode, x.hashStrict, x.freeze, d, false, true, [],
              false⟩
            setStream s n { x with job := some j, aus := x.aus.drop 1 }
      let core := getCore s c
      let s := setCore (countBusy (busyRoll s) s.now) c { core with job := some job, since := s.now, counted := s.now }
      let s := setF (setF s Rg.SCR_CORE_STATUS_SHEET c job.1.toNat) Rg.SCR_CORE_STATUS_ID c n
      if core.last = some job then startOnCore s c else setCoreState s c coreSwitch

def execDispatchPicture (c : Nat) (s : State) : Host.Outcome State Fault Refusal := .next (dispatch s c)

/-- 4 µs from the cache, 12 µs from HBM; the context is then used, and in the cache (R63). -/
def execContextSwitchDone (c : Nat) (s : State) : Host.Outcome State Fault Refusal :=
  .next <|
    let core := getCore s c
    match core.job with
    | none => s
    | some j =>
      let cost := if s.scr.cache.contains j then 4000 else 12000
      if coreState s c = coreSwitch ∧ elapsed s core.since cost = true then startOnCore (saveContext s j) c else s

def execCoreEnableWrite (v : Nat) (s : State) : Host.Outcome State Fault Refusal := .next (setF s Rg.SCR_CORE_ENABLE_ENABLE 0 v)

/-! ### Concealment (R84) -/

/-- The picture that a job writes, as REPEAT compares it. -/
def jobPlan (j : Job) : Picture := match j.hdr with
  | some h => toSlot h j.rec_
  | none => j.pic

def jobHeight (j : Job) : Nat := (jobPlan j).h

/-- Replace rows lo to hi − 1 of a job's planes. -/
def concealRows (x : Stream) (j : Job) (lo hi : Nat) : Planes :=
  let plan := jobPlan j
  let same := x.lastDecoded.any (samePlan plan)
  let half (c y : Nat) : Nat := if plan.chroma = 0 ∧ c ≠ 0 then y / 2 else y
  (rangeFrom lo (hi - lo)).foldl (fun p y => p.mapIdx fun c pl =>
    let yy := half c y
    let w := ((plan.planes.getD c []).getD 0 []).length
    pl.set yy (concealRow j.mode x.lastDecoded same pl c (plan.depth.getD c 8) yy yy w)) j.rec_

/-- New planes of an HEVC picture, with the rows that concealment has set kept (R84). -/
def underConcealed (j : Job) (new : Planes) : Planes :=
  if j.hidden.isEmpty then new
  else new.mapIdx fun c pl => pl.mapIdx fun y row =>
    let yy := if j.pic.chroma = 0 ∧ c ≠ 0 then 2 * y else y
    if j.hidden.any fun r => decide (r.1 ≤ yy) && decide (yy < r.2) then (j.rec_.getD c []).getD y row else row

/-- Slices are lost: their rows are replaced and committed. -/
def loseRows (s : State) (n hi slices : Nat) : State :=
  let x := getStream s n
  match x.job with
  | none => s
  | some j =>
    if hi ≤ j.rows then s
    else
      let j := { j with rec_ := concealRows x j j.rows hi, hidden := j.hidden ++ [(j.rows, hi)], rows := hi, committed := hi, lost := true }
      streamEvent (setStream s n { x with job := some j, concealed := true, slicesLost := min 65535 (x.slicesLost + slices) }) Ev.SCR_SLICE_LOST n

/-! ### Slices (R83, R115, R118) -/

/-- Where the bytes of the picture unit end, as far as its AU says. -/
def auEnd (a : Au) : Nat :=
  let len := auLength a.data
  if a.whole then (if len = 0 then a.data.length else min len a.data.length) else if len = 0 then 2 ^ 32 else len

def rangeIn (a : Au) (lo hi : Nat) : Bool := (a.have_.map fun r => min r.2 hi - max r.1 lo).sum == hi - lo

/-- The next place at which a unit is marked to begin (R118). -/
def nextMark (a : Au) (p : Nat) : Nat := ((a.marks.filter fun m => decide (p < m)).foldl (fun b m => min b m) (auEnd a))

def waitInput (s : State) (j : Job) : State := if j.au.whole then s else setCoreState s j.core coreWait

/-- Slices between the last one seen and index i. -/
def skippedSlices (j : Job) (i : Nat) : Nat := i - (j.lastSlice.map (· + 1)).getD 0

/-- One slice of a Contour picture, whose header R105 allows, at offset p. -/
def contourSlice (s : State) (n : Nat) (j : Job) (h : PicHdr) (sl : SliceHdr) (p : Nat) : State :=
  let lo := 16 * sl.firstRow
  let hi := min h.h (16 * (sl.firstRow + sl.rows))
  let s := loseRows s n (min lo h.h) (skippedSlices j sl.index)
  let x := getStream s n
  match x.job with
  | none => s
  | some j =>
    let j := { j with next := p + sl.length, lastSlice := some sl.index }
    let b := j.au.data.drop p
    let lose (s : State) : State := loseRows s n hi 1
    if !rangeIn j.au p (p + sl.length) then lose (setJob s n j)
    else if !sliceCrcOk sl b then lose (streamEvent (setJob s n j) Ev.SCR_CRC_FAIL n)
    else
      match decodeSlice h x.prev x.anchor sl b ⟨j.rec_, j.readPrev, j.readAnchor, j.missing⟩ with
      | none => lose (streamEvent (setJob s n j) Ev.SCR_SLICE_ERROR n)
      | some r => setJob s n { j with rec_ := r.planes, readPrev := r.readPrev, readAnchor := r.readAnchor, missing := r.missing,
                                      rows := hi, committed := hi }

/-- No slice is left: bytes of the picture unit that hold no whole slice, or stand past au_length, are told once (R115). -/
def contourTail (s : State) (n : Nat) (j : Job) : State :=
  if j.au.whole && !j.tail && decide (j.next < max (auEnd j.au) j.au.data.length) then
    streamEvent (setJob s n { j with tail := true }) Ev.SCR_SLICE_ERROR n
  else s

/-- The next slice of a Contour picture, if it is in. A slice whose index is not above the previous one's leaves the earlier
slices in place (R115); the rows of any other that its header loses are concealed when a later slice or the deadline shows them
missing. -/
def nextContour (s : State) (n : Nat) (j : Job) (h : PicHdr) : State :=
  let p := j.next
  let stop := auEnd j.au
  if stop < p + 12 then contourTail s n j
  else if !rangeIn j.au p (p + 12) then
    if j.au.whole || (j.au.marks.any fun m => decide (p < m)) then setJob s n { j with next := nextMark j.au p } else waitInput s j
  else
    let b := j.au.data.drop p
    match checkSlice h b j.lastSlice (stop - p) with
    | some sl =>
      if !j.au.whole && !rangeIn j.au p (p + sl.length) then waitInput s j
      else contourSlice (setCoreState s j.core coreDecode) n j h sl p
    | none =>
      let len := beAt b 8 4
      let next := if beAt b 0 2 = 0xC51C ∧ 17 ≤ len ∧ p + len ≤ stop then p + len else nextMark j.au p
      let s := streamEvent (setJob s n { j with next := next }) Ev.SCR_SLICE_ERROR n
      let again := beAt b 0 2 == 0xC51C && match j.lastSlice with
        | none => false
        | some i => decide (beAt b 3 5 / 2 ^ 30 ≤ i)
      if again then streamEvent s Ev.SCR_SLICE_LOST n else s

/-- What stands in for a reference that is absent from the decoded picture buffer: the most recently decoded picture, or one at
mid-level (R86). -/
def hevcSubstitute (x : Stream) (r : HevcSlice) : Picture :=
  let chroma := if r.chroma = 3 then 0 else r.chroma
  let size (c n : Nat) (half : Bool) : Nat := if half && c != 0 then (n + 1) / 2 else n
  let mid : Picture := ⟨r.w, r.h, r.depth, chroma, false, (List.range 3).map fun c =>
    List.replicate (size c r.h (chroma == 0)) (midRow (r.depth.getD c 8) (size c r.w (decide (chroma < 2))))⟩
  x.lastDecoded.getD mid

/-- References of a slice that are absent get their substitutes. -/
def fillDpb (x : Stream) (r : HevcSlice) : Stream :=
  let absent := r.refs.filter fun p => !x.dpb.any fun q => q.1 == p
  { x with dpb := x.dpb ++ absent.map fun p => (p, hevcSubstitute x r) }

/-- The decoded planes as they are stored: 4:0:0 gets chroma at mid-level (R65). -/
def hevcPlanes (r : HevcSlice) : Planes :=
  if r.chroma = 3 then
    let c := List.replicate ((r.h + 1) / 2) (midRow (r.depth.getD 1 8) ((r.w + 1) / 2))
    [r.planes.getD 0 [], c, c]
  else r.planes

/-- Whether a segment passes (R83): whole, parsed to its end, and for a dependent one those before it in its slice too. -/
def segmentPasses (j : Job) (whole : Bool) (r : HevcSlice) : Bool := whole && r.parsed && (!r.dependent || j.sliceOk)

/-- A segment's result in the picture on a core: rows of earlier concealment stand. -/
def takeSegment (x : Stream) (j : Job) (r : HevcSlice) (whole : Bool) : Job :=
  let j := { j with pic := ⟨r.w, r.h, r.depth, if r.chroma = 3 then 0 else r.chroma, false, []⟩ }
  { j with next := j.next + 1, rec_ := underConcealed j (hevcPlanes r), sliceOk := segmentPasses j whole r,
           missing := j.missing || r.refs.any fun p => !x.dpb.any fun q => q.1 == p }

/-- The next slice segment of an HEVC picture, with what H.265 decoding gave for it. -/
def nextHevc (s : State) (n : Nat) (j : Job) (r : HevcSlice) : State :=
  let vcl := j.au.nals.filter fun p => p.1.isEmpty || nalVcl p.1
  match vcl[j.next]? with
  | none => waitInput s j
  | some nal =>
    if !nal.2 && !nal.1.isEmpty && !j.au.whole then waitInput s j
    else if r.limit then
      giveUp (streamEvent (onStream s n fun x => { x with concealed := true, limitRaised := true }) Ev.SCR_STREAM_LIMIT n) n
    else
      let s := setCoreState s j.core coreDecode
      let hi := min r.through r.h
      let j := takeSegment (getStream s n) j r nal.2
      let s := onStream s n fun x => fillDpb x r
      if j.sliceOk then
        let done := if r.last then r.h else max j.committed (hi - 8)
        setJob s n { j with rows := if r.last then r.h else max j.rows hi, committed := done }
      else
        let s := if nal.2 && !r.parsed then streamEvent (setJob s n j) Ev.SCR_SLICE_ERROR n else setJob s n j
        loseRows s n (if r.last then r.h else hi) 1

/-- Operands: the core, and for HEVC what decoding gave. -/
def execSliceDecodeDone (c : Nat) (r : Option HevcSlice) (s : State) : Host.Outcome State Fault Refusal :=
  .next <|
    match (getCore s c).job with
    | some (false, n) =>
      match (getStream s n).job with
      | none => s
      | some j =>
        if (coreState s c ≠ coreDecode ∧ coreState s c ≠ coreWait) ∨ !domainOn s (6 + c) then s
        else match j.hdr, r with
          | some h, _ => nextContour s n j h
          | none, some r => if oFormat (getStream s n).opened = fHevc then nextHevc s n j r else s
          | none, none => s
    | _ => s

/-! ### The end of a picture (R76, R81, R85 to R87, R147, R148) -/

/-- Whether the deadline was met drives misses and shedding. -/
def judgeDeadline (s : State) (n : Nat) (late start : Bool) : State :=
  let x := getStream s n
  if late then
    let after_ := getF s Rg.SCR_DISPATCH_CTRL_SHED_AFTER
    let s := addT (setStream s n { x with misses := x.misses + 1, deadlineMiss := min 65535 (x.deadlineMiss + 1) }) teleMiss
    let s := addF s Rg.SCR_MISS_COUNT_MISSES
    let s := streamEvent s Ev.SCR_DEADLINE_MISS n
    if after_ != 0 && decide (after_ ≤ x.misses + 1) && !x.shedding then
      streamEvent (onStream s n fun x => { x with shedding := true, concealed := true }) Ev.SCR_SHED n
    else s
  else setStream s n { x with misses := 0, shedding := x.shedding && !start }

/-- The pictures that H.265's output process releases now. -/
def bumpOutput (s : State) (n : Nat) (l : List Int) : State :=
  foldS l (fun s poc =>
    let x := getStream s n
    match x.output.find? (·.1 == poc) with
    | none => s
    | some p => deliver (setStream s n { x with output := x.output.filter (·.1 != poc) }) n p.2) s

/-- Contour: reference slots, taint and the concealment mark. -/
def closeContour (s : State) (n : Nat) (j : Job) (h : PicHdr) : State :=
  let x := getStream s n
  let slot := toSlot h j.rec_
  let dirty := (j.readPrev && x.prevTaint) || (j.readAnchor && x.anchorTaint)
  let taint := j.lost || j.missing || dirty
  let mark := j.lost || dirty || (x.concealed && h.ptype != 0)
  let x := { x with concealed := mark, lastDecoded := some slot }
  let x := if h.isRef then { x with prev := some slot, prevTaint := taint } else x
  let x := if h.anchorLoad then { x with anchor := some slot, anchorTaint := taint } else x
  let s := if j.orphan then s else setStream s n x
  if j.missing then streamEvent s Ev.SCR_MISSING_REF n else s

/-- HEVC: hash, substituted references, the decoded picture buffer and latched SEI. -/
def closeHevc (s : State) (n : Nat) (j : Job) (e : HevcEnd) : State :=
  let x := getStream s n
  let s := if e.hashBad then streamEvent s Ev.SCR_HASH_MISMATCH n else s
  let s := if j.missing then streamEvent s Ev.SCR_MISSING_REF n else s
  let mark := j.lost || j.missing || (e.hashBad && j.hashStrict) || (x.concealed && !j.start)
  let pic := { j.pic with planes := j.rec_ }
  if j.orphan then s
  else setStream s n { x with concealed := mark, lastDecoded := some pic, cll := e.cll.getD x.cll, mdl := e.mdl.getD x.mdl,
                              dpb := (x.dpb.filter fun p => e.keep.contains p.1 && p.1 != e.poc) ++ [(e.poc, pic)] }

/-- The rows still open are closed, by the picture's coding. -/
def closeJob (s : State) (n : Nat) (j : Job) (e : HevcEnd) : State :=
  match j.hdr with
  | some h => closeContour s n j h
  | none => closeHevc s n j e

/-- A Contour picture is delivered; an HEVC picture waits for its output order (R82). -/
def outputJob (s : State) (n : Nat) (j : Job) (e : HevcEnd) (d : Delivered) : State :=
  match j.hdr with
  | some _ => deliver s n d
  | none => bumpOutput (if e.output then onStream s n fun x => { x with output := x.output.filter (·.1 != e.poc) ++ [(e.poc, d)] } else s) n e.bump

/-- A picture's rows are all in: slots, delivery, the deadline, and the core is free. One whose stream has returned to SYNCING is
not delivered (R64, log 68). -/
def endPictureOf (s : State) (n : Nat) (e : HevcEnd) : State :=
  match (getStream s n).job with
  | none => s
  | some j =>
    let pic := jobPicture j
    let s := closeJob s n j e
    let x := getStream s n
    let d : Delivered := ⟨some pic, j.au.time.getD (withOffset x.opened (mst s)), mayBind j.freeze x.concealed, false⟩
    let s := dropJob s n j
    let s := if j.orphan then s
      else judgeDeadline (outputJob s n j e d) n (decide (0 < mstDiff (mst s) j.deadline)) j.start
    afterPicture (freeCore s j.core) n

/-- Every row of the picture on a core is reconstructed or concealed. -/
def pictureWhole (j : Job) : Bool := jobHeight j != 0 && decide (jobHeight j ≤ j.rows)

def noEnd : HevcEnd := ⟨0, false, false, [], [], none, none⟩

def execPictureDecodeDone (c : Nat) (e : Option HevcEnd) (s : State) : Host.Outcome State Fault Refusal :=
  .next <|
    match (getCore s c).job with
    | some (false, n) =>
      match (getStream s n).job with
      | none => s
      | some j => if pictureWhole j ∧ coreState s c ≠ coreSwitch then endPictureOf s n (e.getD noEnd) else s
    | _ => s

/-! ### Deadlines (R72, R80, R115) -/

/-- The end of an HEVC picture whose decoding gives none: it comes first in output order, and the references stay. -/
def cutEnd (x : Stream) : HevcEnd := ⟨-(2 ^ 40), true, false, [-(2 ^ 40)], x.dpb.map (·.1), none, none⟩

/-- The slices that are still missing are lost, and the picture ends. -/
def concludePicture (s : State) (n : Nat) : State :=
  match (getStream s n).job with
  | none => s
  | some j =>
    if jobHeight j = 0 then giveUp (onStream s n fun x => { x with concealed := x.concealed || !j.orphan }) n
    else
      let missing := match j.hdr with
        | some h => skippedSlices j h.numSlices
        | none => 1
      let s := loseRows s n (jobHeight j) (max 1 missing)
      endPictureOf s n (cutEnd (getStream s n))

/-- Nothing more of the picture on a core will be decoded: it waits, or its access unit has no further slice. -/
def stalled (s : State) (j : Job) : Bool :=
  coreState s j.core == coreWait ||
  match j.hdr with
  | some _ => j.au.whole && decide (auEnd j.au < j.next + 12)
  | none => j.au.whole && decide ((j.au.nals.filter fun p => p.1.isEmpty || nalVcl p.1).length ≤ j.next)

/-- RTP timestamp of the picture that a network stream is receiving. -/
def openTs (x : Stream) : Option Nat :=
  match x.asm with
  | some a => if a.dead then none else a.ts
  | none => x.raster.map (·.ts)

/-- The gaps of the picture being received are lost, each with the packets behind it (R72). -/
def loseOfPicture (s : State) (n ts : Nat) : Nat → State
  | 0 => s
  | f + 1 =>
    let x := getStream s n
    if x.window.isEmpty || openTs x != some ts then s else loseOfPicture (passGap s n) n ts f

/-- The deadline of the picture being received has come: its missing packets, its last ones too, are lost, and it ends. -/
def inputDue (s : State) (n ts : Nat) : State :=
  let s := loseOfPicture s n ts 512
  if openTs (getStream s n) != some ts then s
  else
    let s := losePackets s n 1
    match (getStream s n).asm with
    | some a => endAu s n (max 1 a.arrived) true
    | none => closeRaster s n 1025

/-- The (provisional) deadline of the picture being received. -/
def inputDeadline (s : State) (n : Nat) : Option Nat :=
  let x := getStream s n
  let t (ts : Option Nat) (began : Nat) : Nat :=
    if oBind x.opened = bindRtp then (ts.map fun t => withOffset x.opened (rtpTime s t)).getD began else began
  match x.asm with
  | some a =>
    let r := if a.ready = 0 then a.began else a.ready
    some (pictureDeadline s n (a.time.getD (t a.ts r)) r)
  | none => x.raster.map fun r => pictureDeadline s n (t (some r.ts) r.began) r.began

/-- No packets arrive: the picture that the stream should bring is missed at its deadline (R89). -/
def missExpected (s : State) (n : Nat) : State :=
  let x := getStream s n
  match x.expected with
  | none => s
  | some t =>
    if x.state = stRunning ∧ x.aus.isEmpty = true ∧ reached s (pictureDeadline s n t t) = true then
      judgeDeadline (setStream s n { x with expected := some ((t + oPeriod x.opened) % 2 ^ 32) }) n true false
    else s

/-- The deadline of the picture on a core, being received, or expected. -/
def pictureDue (s : State) (n : Nat) : State :=
  let x := getStream s n
  match x.job with
  | some j =>
    if reached s j.deadline then
      let s := match openTs x with
        | some ts => if j.au.whole then s else loseOfPicture s n ts 512
        | none => s
      match (getStream s n).job with
      | none => s
      | some j => if stalled s j then concludePicture s n else s
    else s
  | none =>
    match openTs x, inputDeadline s n with
    | some ts, some d => if reached s d then inputDue s n ts else s
    | _, _ => missExpected s n

def execPictureDeadline (n : Nat) (s : State) : Host.Outcome State Fault Refusal := .next (pictureDue s n)

/-! ### STREAM_CLOSE (R70, R89) -/

def runStreamClose (s : State) (c : Cmd) (_ : List Byte) : State :=
  let n := eTarget c.entry
  let s := abortData s n St.aborted
  let s := onStream s n fun x => { x with state := stClosing, closing := some c.id, aus := [], window := [], gapAt := none, raster := none,
                                           asm := none,
                                           job := x.job.map (fun j => { j with au := { j.au with whole := true } }) }
  let s := showCells s
  match (getStream s n).job with
  | none => finishClose s n c.id
  | some j => if coreState s j.core = coreWait then concludePicture s n else s

def execStreamClose (q : Nat) (s : State) : Host.Outcome State Fault Refusal :=
  .next (ringRow Op.streamClose anyEntry startStreamClose runStreamClose q s)

/-! ### Resets (R89, R168) -/

/-- A core is reset: a stream's picture is concealed and ends, and a close that waited for it goes on although its command has
ended; a sheet's goes to a closing job. -/
def resetCore (s : State) (c : Nat) : State :=
  let s := match (getCore s c).job with
    | none => s
    | some (true, n) => closingJob s n
    | some (false, n) =>
      let s := match (getStream s n).closing with
        | some id => completeId s id St.blockReset
        | none => s
      concludePicture (abortData s n St.blockReset) n
  let s := freeCore s c
  raiseEv (setCoreState s c coreReset) Ev.SCR_CORE_RESET (6 + c)

/-- PD30 is reset: every stream returns to SYNCING, staged packets are discarded; a picture on a core completes (R150). -/
def resetShared (s : State) : State :=
  let s := foldS (s.scr.streams.map (·.1)) (fun s n =>
    let s := abortData s n St.blockReset
    let s := match (getStream s n).closing with
      | some id => if (getStream s n).job.isSome then s else finishClose s n id
      | none => toSyncing s n
    onStream s n fun x => if x.state = stClosed then x else
      { x with window := [], nextKey := none, gapAt := none, asm := none, bytes := [], chunks := [], aus := [], discard := 0, raster := none,
               resync := false, fragment := none, lossTold := false }) s
  showCells { s with scr := { s.scr with cache := [] } }

end Sys2Proof.Machine
end

