-- ==== Sys2Proof/Machine/Bmca.lean ====
section
/-!
DEFINITION. The best master clock algorithm over the device's ports (R210, IEEE 1588-2019, log 16).
-/

namespace Sys2Proof.Machine

def sourceFree : Nat := 0
def sourcePtp : Nat := 1
def sourcePps : Nat := 2
def sourceSync : Nat := 3
def sourceHost : Nat := 4
def merSource (s : State) : Nat := getF s Rg.MER_CTRL_SOURCE

/-- The clock class announced now (R210, R229). -/
def ownClass (s : State) : Nat :=
  if getB s Rg.MER_STATUS_HOLDOVER then getF s Rg.MER_PTP_CLOCK_HOLDOVER_CLASS else getF s Rg.MER_PTP_CLOCK_CLOCK_CLASS

/-- The order in which data sets are compared: the first difference decides. -/
def lexLess : List Nat → List Nat → Bool
  | [], _ => false
  | _ :: _, [] => false
  | a :: t, b :: u => if a < b then true else if b < a then false else lexLess t u

def announceKey (a : Announce) (port : Nat) : List Nat :=
  [a.prio1, a.clockClass, a.accuracy, a.variance, a.prio2, a.gmId, a.steps, a.source, port]

/-- The device's own data set. -/
def ownKey (s : State) : List Nat :=
  [getF s Rg.MER_PTP_CLOCK_PRIORITY1, ownClass s, Config.ptpAccuracy % 256, Config.ptpVariance % 65536,
   getF s Rg.MER_PTP_CLOCK_PRIORITY2, clockIdentity s, 0, 0, 0]

/-- An Announce counts for three announce intervals (log 16). -/
def announceFresh (s : State) (a : Announce) : Bool := decide (s.now < a.at_ + 3 * logIntervalNs (ptpLogAnnounce s))

/-- The best foreign master over AUTO and SLAVE_ONLY ports, with its port. -/
def bestForeign (s : State) : Option (Nat × Announce) :=
  (List.range 128).foldl (fun (b : Option (Nat × Announce)) p =>
    match (getPtp s p).best with
    | none => b
    | some a =>
      if !portUp s p || !announceFresh s a || !(portRole s p == 1 || portRole s p == 3) then b
      else some (match b with
        | none => (p, a)
        | some o => if lexLess (announceKey a p) (announceKey o.2 o.1) then (p, a) else o)) none

def ptpDisabled : Nat := 0
def ptpListening : Nat := 1
def ptpPassive : Nat := 4
def ptpUncalibrated : Nat := 5
/-- The port is the slave port, calibrated or not. -/
def onSlave (s : State) (p : Nat) : Bool := ptpState s p == ptpSlave || ptpState s p == ptpUncalibrated

/-- A port's state under the decision; the slave port is UNCALIBRATED until it has a mean path delay (log 67). -/
def stateFor (s : State) (slave : Option Nat) (p : Nat) : Nat :=
  if portRole s p = 0 ∨ !portEnabled s p then ptpDisabled
  else if !portUp s p then ptpListening
  else if slave = some p then (if getB s Rg.MER_PTP_MPD_VALID p then ptpSlave else ptpUncalibrated)
  else if portRole s p = 3 then (if slave.isSome then ptpPassive else ptpListening)
  else ptpMaster

/-- Run the algorithm and apply its decision. -/
def bmca (s : State) : State :=
  let best := if merSource s = sourcePtp then bestForeign s else none
  let found := match best with
    | none => none
    | some (p, a) => if lexLess (announceKey a p) (ownKey s) ∨ portRole s p = 3 then some (p, a) else none
  let slave := found.map (·.1)
  let gm := match found with
    | none => clockIdentity s
    | some (_, a) => a.gmId
  let s := foldS (List.range 128) (fun s p => setF s Rg.MER_PTP_PORT_STATE p (stateFor s slave p)) s
  let s := setB (setF s Rg.MER_STATUS_SLAVE_PORT 0 (slave.getD 0)) Rg.MER_STATUS_SLAVE_VALID 0 slave.isSome
  let s := setB s Rg.MER_STATUS_GRANDMASTER 0 slave.isNone
  let s := setF s Rg.MER_STATUS_STEPS_REMOVED 0 (match found with
    | none => 0
    | some (_, a) => a.steps + 1)
  if s.mer.gm = gm then s
  else
    let was := s.mer.gm
    let s := { s with mer := { s.mer with gm := gm } }
    if was = 0 then s else raiseEv s Ev.MER_PTP_GM_CHANGE (slave.getD 0)

/-- The Compass is Meridian's PTP engine: without it the clock runs freely (R15). -/
def ptpRuns (s : State) : Bool := domainOn s 5 && domainOn s 1

/-- What a port knew of its partner is lost with the link. -/
def ptpPortDown (s : State) (p : Nat) : State :=
  let s := setPtp s p { getPtp s p with best := none, sync := none, ms := none, req := none, presp := none, responder := none, multi := false }
  if domainOn s 5 then bmca s else s

end Sys2Proof.Machine
end

