-- ==== Sys2Proof/Machine/Ports.lean ====
section
/-!
DEFINITION. Ports (R230 to R237, R248, R250): configuration, bring-up, link loss and flapping, and channel measurement.
-/

namespace Sys2Proof.Machine

/-! ### Bonds and rates (R230 to R232) -/

def widestAdvertised (c : List Byte) : Nat := ([5, 4, 3, 2, 1].find? (bit (cfgAdvertise c) ·)).getD 1
/-- Lanes a configuration takes. -/
def cfgLanes4 (c : List Byte) : Nat := lanesOf (if cfgAn c then widestAdvertised c else cfgRate c)
def bondLanes (p : Nat) (c : List Byte) : List Nat := rangeFrom p (cfgLanes4 c)

/-- Enabled ports other than p. -/
def otherPorts (s : State) (p : Nat) : List (Nat × Port) := s.ports.filter fun q => q.1 != p && portEnabled s q.1

/-- The reference clock of a lane's MAC group does not run: its quad cannot lock (R435). -/
def noRefclk (s : State) (lane : Nat) : Bool := !bit s.pins.refclk (lane / 32)

/-- A lane is part of another enabled port. -/
def laneTaken (s : State) (p lane : Nat) : Bool := (otherPorts s p).any fun q => (bondLanes q.1 q.2.cfg).contains lane

/-- Baud rates of a configuration (R230): 10.3125, 25.78125, 26.5625 and 28.125 GBd. -/
def baudOf (code : Nat) : Nat := if code = 0 then 0 else if code ≤ 2 then 1 else if code ≤ 5 then 2 else 3
def cfgBauds (c : List Byte) : List Nat :=
  if cfgAn c then (([1, 2, 3, 4, 5].filter (bit (cfgAdvertise c) ·)).map baudOf).eraseDups else [baudOf (cfgRate c)]
def quadBauds (s : State) (p : Nat) (c : List Byte) : Nat :=
  ((((otherPorts s p).filter fun q => q.1 / 4 == p / 4).flatMap fun q => cfgBauds q.2.cfg) ++ cfgBauds c).eraseDups.length

/-! ### Bring-up (R233) -/

def setPortState (s : State) (p st : Nat) : State := setF s Rg.PRT_STATUS_STATE p st

/-- Bits of PRT_LINK_UP for the lanes of a port. -/
def showUp (s : State) (p : Nat) (up : Bool) : State :=
  foldS (bondLanes p (getPort s p).cfg) (fun s l =>
    let w := getF s Rg.PRT_LINK_UP_UP (l / 64)
    setF s Rg.PRT_LINK_UP_UP (l / 64) (w - w / 2 ^ (l % 64) % 2 * 2 ^ (l % 64) + up.toNat * 2 ^ (l % 64))) s

/-- The first stage that a configuration brings up. -/
def bringUp (s : State) (p : Nat) : State :=
  let c := (getPort s p).cfg
  setPort (setPortState s p (if cfgAn c then prtAn else if cfgLt c then prtTraining else prtWaitLock)) p { getPort s p with since := s.now }

/-- The link goes down: queues flushed, its pauses and its partner forgotten (R248). -/
def takeDown (s : State) (p : Nat) : State :=
  if portState s p = prtUp then
    let s := flushPort (setPortState s p prtWaitLock) p
    let s := addF s Rg.PRT_STATUS_DOWN_COUNT p
    let x := getPort s p
    let s := setPort s p { x with pauses := [], xoff := [], downAt := some s.now }
    let s := setF (showUp s p false) Rg.PRT_STATUS_FEC_ACTIVE p 0
    ptpPortDown (raiseEv s Ev.PRT_LINK_DOWN p) p
  else s

/-- Loss of the link in service: 8 times within 10 s holds the port down (R233). -/
def loseLink (s : State) (p : Nat) : State :=
  if portState s p = prtUp then
    let s := takeDown s p
    let x := getPort s p
    let downs := (x.downs ++ [s.now]).filter fun t => decide (s.now < t + 10 * secNs)
    if 8 ≤ downs.length then
      raiseEv (setPort (setPortState s p prtHeld) p { x with downs := [], heldUntil := s.now + 10 * secNs }) Ev.PRT_LINK_FLAP p
    else bringUp (setPort s p { x with downs := downs }) p
  else s

def execLinkLoss (p : Nat) (s : State) : Host.Outcome State Fault Refusal := .next (loseLink s p)

def execLinkFlapHoldEnd (p : Nat) (s : State) : Host.Outcome State Fault Refusal :=
  .next (if portState s p = prtHeld ∧ (getPort s p).heldUntil ≤ s.now then bringUp s p else s)

/-- Technology ability bits of Clause 73 (log 22): the highest common rate, 25GBASE-R with RS-FEC if either side asks. -/
def resolveRate (c : List Byte) (ability fec : Nat) : Option Nat :=
  let adv := cfgAdvertise c
  if bit adv 5 && bit ability 15 then some 5
  else if bit adv 4 && bit ability 14 then some 4
  else if bit adv 3 && bit ability 13 then some 3
  else if (bit adv 1 || bit adv 2) && (bit ability 9 || bit ability 10) then some (if bit adv 2 || bit fec 2 then 2 else 1)
  else none

/-- Operands: the port, and the partner's technology ability and FEC bits. -/
def execAutoNegotiationDone (p ability fec : Nat) (s : State) : Host.Outcome State Fault Refusal :=
  .next <|
    let x := getPort s p
    if portState s p ≠ prtAn ∨ s.now < x.since then s
    else
      let s := setF (setF s Rg.PRT_AN_PARTNER_ABILITY p ability) Rg.PRT_AN_PARTNER_FEC p fec
      match resolveRate x.cfg ability fec with
      | none => raiseEv (setPort s p { x with since := s.now + secNs }) Ev.PRT_AN_FAIL p
      | some r =>
        setPort (setPortState s p (if cfgLt x.cfg then prtTraining else prtWaitLock)) p { x with resolved := some r, since := s.now }

def execLinkTrainingDone (p : Nat) (s : State) : Host.Outcome State Fault Refusal :=
  .next <|
    let x := getPort s p
    if portState s p = prtTraining ∧ x.since ≤ s.now ∧ s.now < x.since + 500 * msNs then
      setPort (setPortState s p prtWaitLock) p { x with since := s.now }
    else s

def execLinkTrainingTimeout (p : Nat) (s : State) : Host.Outcome State Fault Refusal :=
  .next <|
    let x := getPort s p
    if portState s p = prtTraining ∧ x.since + 500 * msNs ≤ s.now then
      let s := raiseEv s Ev.PRT_TRAIN_FAIL p
      if cfgAn x.cfg then setPort (setPortState s p prtAn) p { x with since := s.now }
      else setPort s p { x with since := s.now + secNs }
    else s

/-- Domains that a port needs. -/
def portDomains (p : Nat) : List Nat := [41, quadDomain p, mgDomain p, dieLinkDomain (laneDie p)]

/-- Lock has held for 1 ms: the link is up. -/
def execLinkLockHeld (p : Nat) (s : State) : Host.Outcome State Fault Refusal :=
  .next <|
    let x := getPort s p
    if portState s p = prtWaitLock ∧ x.since + msNs ≤ s.now ∧ ((portDomains p).all (domainOn s)) = true then
      let r := if cfgAn x.cfg then x.resolved.getD (lowestAdvertised x.cfg) else cfgRate x.cfg
      let s := setF (setF (setPortState s p prtUp) Rg.PRT_STATUS_RATE p r) Rg.PRT_STATUS_FEC_ACTIVE p (if 2 ≤ r then 1 else 0)
      let s := showUp (setPort s p { x with resolved := some r, downAt := none }) p true
      let s := raiseEv s Ev.PRT_LINK_UP p
      let s := if domainOn s 5 then bmca s else s
      serveSlot s p
    else s

/-! ### PORT_CONFIG (R232) -/

def pcAction (e : List Byte) : Nat := leAt e 20 1

/-- The conditions on bytes 21 to 63, for ENABLE, and on the lane; one that binds several fields names the lowest (R448). -/
def configBad (e : List Byte) : Option Nat :=
  let p := eTarget e
  let cascade := cfgCascade e
  let an := cfgAn e
  let lanes := cfgLanes4 e
  firstBad [(decide (p ≤ 127) && p % lanes == 0, 4), (an || (decide (cfgRate e ≤ 6) && (cfgRate e != 6 || cascade)), 21),
    (!cascade || !an, 22), (cascade || !(cfgPause e || cfgPfc e), 22),
    (!an || (cfgAdvertise e != 0 && cfgAdvertise e / 64 == 0 && !bit (cfgAdvertise e) 0), 22), (leAt e 23 1 ≤ 1, 23),
    (1518 ≤ cfgMaxFrame e && cfgMaxFrame e ≤ 9216, 26), (cfgMedium e ≤ 2 && (cfgMedium e == 1 || cfgCable e == 0), 28),
    (cfgCable e ≤ 4, 29), (cfgAlpha e ≤ 7, 30)]

def startPortConfig (s : State) (e : List Byte) : Begin :=
  let p := eTarget e
  if 127 < p then invalid 4
  else if 2 < pcAction e then invalid 20
  else if pcAction e = 1 then
    match configBad e with
    | some d => invalid d
    | none =>
      if ((bondLanes p e).any fun l => laneTaken s p l || noRefclk s l) then .finish St.stateConflict 0 0
      else
        let others := guarTotal s - if portEnabled s p then guarSum (getPort s p).cfg else 0
        if 2 < quadBauds s p e ∨ sharedSizeWith (others + guarSum e) (getF s Rg.SW_POOL_CFG_HEADROOM) < 16384 then .finish St.noResource 0 0
        else .run
  else if pcAction e = 2 && !portEnabled s p then .finish St.stateConflict 0 0
  else .run

/-- PRT_CFG and the bond's BOND_MEMBER bits. -/
def showConfig (s : State) (p : Nat) (c : List Byte) : State :=
  let s := setF (setF s Rg.PRT_CFG_RATE p (cfgRate c)) Rg.PRT_CFG_AN_EN p (cfgAn c).toNat
  let s := setF (setF s Rg.PRT_CFG_CASCADE p (cfgCascade c).toNat) Rg.PRT_CFG_PAUSE p (cfgPause c).toNat
  let s := setF (setF s Rg.PRT_CFG_PFC p (cfgPfc c).toNat) Rg.PRT_CFG_CUT_THROUGH p (cfgCutThrough c)
  setF (setF s Rg.PRT_CFG_MAX_FRAME p (cfgMaxFrame c)) Rg.PRT_CFG_MEDIUM p (cfgMedium c)

def markBond (s : State) (p : Nat) (c : List Byte) (on : Bool) : State :=
  foldS ((bondLanes p c).drop 1) (fun s l => setB s Rg.PRT_STATUS_BOND_MEMBER l on) s

/-- Running measurements end with the port. -/
def dropMeasure (s : State) (p status : Nat) : State :=
  foldS (getPort s p).measure (fun s id => completeId s id status) (setPort s p { getPort s p with measure := [] })

def disablePort (s : State) (p : Nat) : State :=
  if portEnabled s p then
    let c := (getPort s p).cfg
    let s := dropMeasure (markBond (takeDown s p) p c false) p St.stateConflict
    let s := setPortState (flushPort s p) p prtDisabled
    setPort s p { getPort s p with cfg := [], resolved := none, idle := none }
  else s

/-- The used bits of a PORT_CONFIG entry (R232). -/
def portMask : List Nat := whole 22 ++ [0x0F] ++ whole 25 ++ List.replicate 16 0

/-- Only fields that apply without taking the link down differ; AN_EN ignores RATE. -/
def softChange (a b : List Byte) : Bool :=
  ([22, 23, 24, 28, 29].all fun i => leAt a i 1 == leAt b i 1) && (cfgAn b || cfgRate a == cfgRate b)

def enablePort (s : State) (p : Nat) (c : List Byte) : State :=
  let x := getPort s p
  if portEnabled s p && softChange x.cfg c then showConfig (setPort s p { x with cfg := c }) p c
  else
    let s := if portEnabled s p then flushPort (markBond (takeDown s p) p x.cfg false) p else s
    let s := setPort s p { getPort s p with cfg := c, resolved := none, downs := [] }
    let s := showConfig (markBond s p c true) p c
    bringUp (wakeDomains s (portDomains p)) p

def runPortConfig (s : State) (c : Cmd) (_ : List Byte) : State :=
  let p := eTarget c.entry
  let s := if pcAction c.entry = 0 then disablePort s p
    else if pcAction c.entry = 1 then enablePort s p (kept portMask c.entry)
    else bringUp (flushPort (takeDown s p) p) p
  complete (if domainOn s 5 then bmca s else s) c St.ok

def execPortConfig (q : Nat) (s : State) : Host.Outcome State Fault Refusal :=
  .next (ringRow Op.portConfig anyEntry startPortConfig runPortConfig q s)

/-! ### PORT_MEASURE (R235 to R237) -/

/-- Per-metre loss in 0.01 dB/m by cable class and rate code. -/
def cableLoss (cls code : Nat) : Nat :=
  let row := [[190, 310, 316, 330], [155, 250, 255, 267], [125, 200, 204, 214], [100, 160, 163, 171]].getD (cls - 1) []
  row.getD (baudOf code) 1

/-- d of the delay method and its source: 0 PTP, 1 roll-call. -/
def pathDelay (s : State) (p : Nat) : Option (Nat × Nat) :=
  if getB s Rg.MER_PTP_MPD_VALID p then some (getF s Rg.MER_PTP_MPD_DELAY p, 0)
  else if hopValid s p 0 then some (hopDelay s p 0 * 16, 1)
  else none

/-- The measured lengths of a port: cable loss and the loss method, the delay method, the method preferred. -/
structure Lengths where
  il : Option (Nat × Nat × Nat)
  delay : Option (Nat × Nat × Nat × Nat)
  preferred : Nat
deriving DecidableEq, Repr

def measureLengths (s : State) (p : Nat) : Lengths :=
  let x := getPort s p
  let c := x.cfg
  let up := portState s p == prtUp
  let il := if up && cfgMedium c == 1 && decide (1 ≤ cfgCable c) && decide (cfgCable c ≤ 4) then
      let loss := getF s Rg.PRT_CHAN_IL p - getF s Rg.PRT_CHAN_CFG_HOST_LOSS (laneDie p) - getF s Rg.PRT_CHAN_CFG_PARTNER_LOSS (laneDie p)
      let a := cableLoss (cfgCable c) (portRate s p)
      let len := (loss * 100 + a / 2) / a
      some (loss, len, ceilDiv (15 * len) 100 + 3)
    else none
  let delay := (pathDelay s p).map fun q =>
    let d := q.1
    let v := [490, 455, 680].getD (cfgMedium c) 490
    let k := [1, 3, 5].getD (cfgMedium c) 1
    (d, q.2, (d * 1000 + 8 * v) / (16 * v), ceilDiv ((3200 + k * d) * 10) (16 * v))
  let pref := match il, delay with
    | none, none => 0
    | some _, none => 1
    | none, some _ => 2
    | some i, some d => if d.2.2.2 ≤ i.2.2 then 2 else 1
  ⟨il, delay, pref⟩

def lim16 (n : Nat) : Nat := min n 65535

/-- The 64-byte channel record. -/
def measureRecord (s : State) (p : Nat) (l : Lengths) : List Byte :=
  let x := getPort s p
  let up := portState s p == prtUp
  let an := cfgAn x.cfg && x.resolved.isSome
  let src := (l.delay.map (·.2.1)).getD 0
  let i := l.il.getD (0, 0, 0)
  let d := l.delay.getD (0, 0, 0, 0)
  let fec := if x.corrected.1 = s.mer.sec then x.corrected.2.2 else if x.corrected.1 + 1 = s.mer.sec then x.corrected.2.1 else 0
  leBytes 1 (up.toNat + 2 * an.toNat + 4 * l.il.isSome.toNat + 8 * l.delay.isSome.toNat + 16 * src) ++ leBytes 1 (portRate s p) ++
  leBytes 1 l.preferred ++ zeros 1 ++
  leBytes 4 (getF s Rg.PRT_AN_PARTNER_ABILITY p + 2 ^ 23 * getF s Rg.PRT_AN_PARTNER_FEC p) ++
  leBytes 2 (getF s Rg.PRT_CHAN_IL p) ++ leBytes 2 (lim16 i.1) ++ leBytes 4 d.1 ++ leBytes 2 (lim16 i.2.1) ++ leBytes 2 (lim16 i.2.2) ++
  leBytes 2 (lim16 d.2.2.1) ++ leBytes 2 (lim16 d.2.2.2) ++ leBytes 1 (getF s Rg.SHT_CHAIN_CABINETS p) ++ zeros 1 ++
  leBytes 2 x.snr ++ leBytes 4 fec ++ zeros 32

/-- Write the record and complete. -/
def finishMeasure (s : State) (p : Nat) (c : Cmd) : State :=
  let l := measureLengths s p
  let len := if l.preferred = 1 then lim16 ((l.il.map (·.2.1)).getD 0)
    else if l.preferred = 2 then lim16 ((l.delay.map (·.2.2.1)).getD 0) else 0xFFFF
  let s := setF s Rg.PRT_CHAN_LEN_DM p len
  complete (raiseEv (hostWrite s (eAddr c.entry) (measureRecord s p l)) Ev.PRT_MEASURE_DONE p) c St.ok

def startPortMeasure (s : State) (e : List Byte) : Begin :=
  let p := eTarget e
  if 127 < p then invalid 4
  else if eLen e = 0 then .finish St.okZero 0 0
  else checked [(eAddr e + eLen e ≤ 2 ^ 64, 8), (64 ≤ eLen e, 16)]
    (if portEnabled s p then .run else .finish St.stateConflict 0 0)

/-- A measurement with REFRESH waits for the next estimate, beside others that already wait. -/
def runPortMeasure (s : State) (c : Cmd) (_ : List Byte) : State :=
  let p := eTarget c.entry
  if bit (leAt c.entry 20 1) 0 then setPort s p { getPort s p with measure := (getPort s p).measure ++ [c.id] }
  else finishMeasure s p c

def execPortMeasure (q : Nat) (s : State) : Host.Outcome State Fault Refusal :=
  .next (ringRow Op.portMeasure anyEntry startPortMeasure runPortMeasure q s)

/-- The lane with the highest insertion loss, the lowest lane among equals (R235). -/
def worstLane (est : List (Nat × Nat)) : Nat × Nat := est.foldl (fun b x => if b.1 < x.1 then x else b) (est.headD (0, 0))

/-- New equaliser estimates: operands the port, and per lane the insertion loss and the receiver SNR, both in 0.1 dB. -/
def equaliserEstimate (s : State) (p : Nat) (est : List (Nat × Nat)) : State :=
  let w := worstLane est
  let ids := (getPort s p).measure
  let s := setPort (setF s Rg.PRT_CHAN_IL p (w.1 % 65536)) p { getPort s p with measure := [], snr := w.2 % 65536 }
  foldS (ids.filterMap (findCmd s)) (fun s c => finishMeasure s p c) s

def execEqualiserEstimateDone (p : Nat) (est : List (Nat × Nat)) (s : State) : Host.Outcome State Fault Refusal :=
  .next (if (getPort s p).measure.isEmpty then s else equaliserEstimate s p est)

end Sys2Proof.Machine
end

