-- ==== Sys2Proof/Machine/Switch.lean ====
section
/-!
DEFINITION. The frame switch (R238 to R250): meters at ingress (R261 to R263), lookup, admission, forwarding and mirroring of
arriving frames, received pauses (R234), the forwarding tables and their fences, and METER_SET.
-/

namespace Sys2Proof.Machine

/-! ### Meters (R261 to R263) -/

def getMeter (s : State) (m : Nat) : Meter := s.tm.meters.get m Meter.init
def setMeter (s : State) (m : Nat) (x : Meter) : State := { s with tm := { s.tm with meters := s.tm.meters.set m x Meter.init } }

/-- Add what a rate has refilled in dt ns: bucket and remainder, in 2^−16 packets. -/
def refillBucket (rate size t rem_ dt : Nat) : Nat × Nat :=
  let a := rate * dt * 65536 + rem_
  let full := size * 65536
  if full ≤ t + a / 1000000000 then (full, 0) else (t + a / 1000000000, a % 1000000000)

def refillMeter (s : State) (x : Meter) : Meter :=
  let dt := s.now - x.last
  let c := refillBucket x.cir x.cbs x.tc x.remC dt
  let p := refillBucket x.pir x.pbs x.tp x.remP dt
  { x with tc := c.1, remC := c.2, tp := p.1, remP := p.2, last := s.now }

/-- The meter that an ingress port and PCP are bound to. -/
def meterOf (s : State) (port pcp : Nat) : Option Nat :=
  (s.tm.meters.find? fun m => m.2.bindings.any fun b => b.1 == port && bit b.2 pcp).map (·.1)

def one16 : Nat := 65536

/-- 0 green, 1 yellow, 2 red, with the buckets after it. -/
def colour (x : Meter) (cascade pre : Bool) : Nat × Meter :=
  if x.tp < one16 then (2, x)
  else if (cascade && pre) || decide (x.tc < one16) then (1, { x with tp := x.tp - one16 })
  else (0, { x with tp := x.tp - one16, tc := x.tc - one16 })

def satInc (n : Nat) : Nat := min (n + 1) 0xFFFFFFFF

/-- Police a frame: none when it is dropped, otherwise whether it goes on as yellow. -/
def police (s : State) (port cls : Nat) (b : List Byte) : Option Bool × State :=
  if !getB s Rg.TM_CTRL_METER_EN then (some false, s)
  else
    match meterOf s port cls with
    | none => (some false, s)
    | some m =>
      let r := colour (refillMeter s (getMeter s m)) (portCascade s port) (frameDei b)
      let x := r.2
      if r.1 = 0 then (some false, setMeter s m { x with green := satInc x.green })
      else
        let act := if r.1 = 1 then x.actYellow else x.actRed
        let s := setMeter s m (if r.1 = 1 then { x with yellow := satInc x.yellow } else { x with red := satInc x.red })
        if act = 2 then (none, addF (addT s teleDrop) Rg.TM_METER_DROP_DROPPED) else (some (act == 1), s)

/-! ### METER_SET (R263) -/

def startMeterSet (_ : State) (e : List Byte) : Begin :=
  checked [(eTarget e ≤ 4095, 4), (eAddr e + eLen e ≤ 2 ^ 64, 8), (eLen e % 4 == 0, 16), (leAt e 21 1 ≤ 2, 21), (leAt e 22 1 ≤ 2, 22),
    (leAt e 24 4 ≤ leAt e 28 4 && leAt e 24 4 ≤ 400000000, 24), (leAt e 28 4 ≤ 400000000, 28)]
    (if eLen e = 0 then .run else .read (eAddr e) (eLen e) none)

def bondMember (s : State) (lane : Nat) : Bool := decide (lane < 128) && getB s Rg.PRT_STATUS_BOND_MEMBER lane

def badBinding (s : State) : Nat → List (List Byte) → Option Nat
  | _, [] => none
  | i, r :: t => if 127 < leAt r 0 1 ∨ bondMember s (leAt r 0 1) then some (bufDetail 0 i) else badBinding s (i + 1) t

/-- Take pairs away from every other meter. -/
def unbindElsewhere (s : State) (m : Nat) (bs : List (Nat × Nat)) : State :=
  { s with tm := { s.tm with meters := s.tm.meters.map fun x =>
      if x.1 = m then x
      else (x.1, { x.2 with bindings := (x.2.bindings.map fun b => (b.1, (bs.filter (·.1 == b.1)).foldl (fun k c => k - (k &&& c.2)) b.2)).filter (·.2 != 0) }) } }

def runMeterSet (s : State) (c : Cmd) (d : List Byte) : State :=
  let e := c.entry
  let m := eTarget e
  let rs := records 4 (d.length / 4) d
  match badBinding s 0 rs with
  | some x => complete s c St.invalidField 0 x
  | none =>
    let x := refillMeter s (getMeter s m)
    let cbs := leAt e 32 2
    let pbs := leAt e 34 2
    let full := bit (leAt e 20 1) 0 || x.bindings.isEmpty
    let bs := rs.map fun r => (leAt r 0 1, leAt r 1 1)
    let bindings := if !d.isEmpty then bs else if bit (leAt e 20 1) 1 then [] else x.bindings
    let tc := if full then cbs * one16 else min x.tc (cbs * one16)
    let tp := if full then pbs * one16 else min x.tp (pbs * one16)
    let x := { x with actYellow := leAt e 21 1, actRed := leAt e 22 1, cir := leAt e 24 4, pir := leAt e 28 4, cbs := cbs, pbs := pbs, tc := tc, tp := tp, bindings := bindings }
    let s := setMeter (unbindElsewhere s m bs) m x
    complete s c (if d.isEmpty then St.okZero else St.ok)

def execMeterSet (q : Nat) (s : State) : Host.Outcome State Fault Refusal :=
  .next (ringRow Op.meterSet anyEntry startMeterSet runMeterSet q s)

/-! ### Tables (R244) -/

def mVid (e : List Byte) : Nat := leAt e 6 2 % 4096
def mMac (e : List Byte) : List Byte := e.take 6
def mValid (e : List Byte) : Bool := bit (leAt e 6 2) 15
def mAction (e : List Byte) : Nat := leAt e 8 1
def mMirror (e : List Byte) : Bool := bit (leAt e 9 1) 0
def mTo (e : List Byte) : Nat := leAt e 10 2
def macKey (vid : Nat) (mac : List Byte) : Nat := vid * 2 ^ 48 + leNat mac.reverse
def macBucket (vid : Nat) (mac : List Byte) : Nat := Config.macHash (macKey vid mac) % 8192

def fIndex (e : List Byte) : Nat := leAt e 0 2
def fVid (e : List Byte) : Nat := leAt e 2 2 % 4096
def fSrcEn (e : List Byte) : Bool := bit (leAt e 2 2) 14
def fValid (e : List Byte) : Bool := bit (leAt e 2 2) 15
def fAction (e : List Byte) : Nat := leAt e 14 1
def fMirror (e : List Byte) : Bool := bit (leAt e 15 1) 0
def fTo (e : List Byte) : Nat := leAt e 16 2
def fIntake (e : List Byte) : Nat := leAt e 18 1
/-- IPv4 addresses are byte strings, the first octet at the lowest byte (R2). -/
def fDstIp (e : List Byte) : Nat := beAt e 4 4
def fSrcIp (e : List Byte) : Nat := beAt e 8 4
def fUdp (e : List Byte) : Nat := leAt e 12 2

def actDrop : Nat := 0
def actPort : Nat := 1
def actMulticast : Nat := 2
def actIntake : Nat := 3
def actHost : Nat := 4
def actCompass : Nat := 5

/-- Slots of a bucket: keys bucket × 4 + way. -/
def macFind (m : SMap (List Byte)) (vid : Nat) (mac : List Byte) : Option (Nat × List Byte) :=
  ((rangeFrom (4 * macBucket vid mac) 4).map fun k => (k, m.get k [])).find? fun p => mValid p.2 && mVid p.2 == vid && mMac p.2 == mac

def flowFind (m : SMap (List Byte)) (b : List Byte) : Option (Nat × List Byte) :=
  m.find? fun p =>
    let e := p.2
    fValid e && fVid e == frameVid b && fDstIp e == ipDst b && fUdp e == udpPort b && (!fSrcEn e || fSrcIp e == ipSrc b)

/-- Members of a multicast set. -/
def setMembers (s : State) (n : Nat) : List Nat :=
  let e := s.sw.mcast.get n []
  (List.range 146).filter fun p => bit (leAt e (2 + p / 8) 1) (p % 8)

/-! ### The lookup (R243) -/

/-- What a lookup decided: egress ports, whether they are a multicast set's, the flow index, an entry's MIRROR bit, the stream of
an intake port, whether the default drops the frame, and the copies that a transparent clock does not let out. -/
structure Decision where
  dest : List Nat
  multicast : Bool
  flow : Option Nat
  mirror : Bool
  stream : Option Nat
  unknown : Bool
  barred : Nat
deriving DecidableEq, Repr

def toPorts (l : List Nat) : Decision := ⟨l, false, none, false, none, false, 0⟩

/-- The decision of an entry's ACTION. -/
def entryTo (s : State) (action to_ intake : Nat) (flow : Option Nat) (mirror : Bool) : Decision :=
  let d := { toPorts [] with flow := flow, mirror := mirror }
  if action = actPort then { d with dest := [to_] }
  else if action = actMulticast then { d with dest := setMembers s to_, multicast := true }
  else if action = actIntake then { d with dest := [intake], stream := some to_ }
  else if action = actHost then { d with dest := [128] }
  else if action = actCompass then { d with dest := [129] }
  else d

def hostPort : Nat := 128
def compassPort : Nat := 129

/-- Flow table, MAC table and default. -/
def tableLookup (s : State) (b : List Byte) : Decision :=
  match if isUdp4 b then flowFind s.sw.flow b else none with
  | some (k, e) => entryTo s (fAction e) (fTo e) (fIntake e) (some k) (fMirror e)
  | none =>
    match macFind s.sw.mac (frameVid b) (b.take 6) with
    | some (_, e) => entryTo s (mAction e) (mTo e) 0 none (mMirror e)
    | none => if getB s Rg.SW_CTRL_UNKNOWN_TO_HOST then toPorts [hostPort] else { toPorts [] with unknown := true }

def isSheetFrame (s : State) (b : List Byte) : Bool := etherType b == getF s Rg.SHT_CTRL_ETHERTYPE

/-- A transparent clock's frame: it enters on a CASCADE port with TC set (R211). -/
def throughClock (s : State) (port : Nat) : Bool := portCascade s port && getB s Rg.MER_PTP_PORT_TC port

/-- A PTP frame: a transparent clock forwards it, to CASCADE ports only; the host's stack takes and sends its own with SOURCE
HOST (R213, log 67); the Compass takes every other. -/
def ptpLookup (s : State) (port : Nat) (b : List Byte) : Decision :=
  if throughClock s port then
    let d := tableLookup s b
    { d with dest := d.dest.filter (portCascade s), barred := d.dest.countP fun p => !portCascade s p }
  else if merSource s = sourceHost then
    (if port = hostPort then tableLookup s b else toPorts [compassPort, hostPort])
  else toPorts [compassPort]

def lookup (s : State) (port : Nat) (b : List Byte) : Decision :=
  if (ptpAt b).isSome then ptpLookup s port b
  else if isSheetFrame s b && decide (port < 128) then toPorts [compassPort]
  else if frameDst b / 16 = 0x0180C200000 then
    (if getB s Rg.SW_CTRL_LINK_LOCAL_TO_HOST then toPorts [hostPort] else toPorts [])
  else tableLookup s b

/-! ### Mirroring (R249) -/

/-- The sessions that copy an arriving frame; an entry's MIRROR bit alone uses the lowest active one. -/
def ingressMirrors (s : State) (port : Nat) (d : Decision) : List Nat :=
  let on := (List.range 4).filter (mirrorOn s)
  let hit := on.filter fun i =>
    let x := getMirror s i
    (x.kind == 1 && bit x.flags 0 && x.source == port) || (x.kind == 2 && d.flow == some x.source)
  if hit.isEmpty && d.mirror then on.take 1 else hit

/-! ### Forwarding (R240 to R242, R247) -/

/-- The frame goes cut-through to an egress port (R240). -/
def cutThrough (s : State) (src port cls : Nat) : Bool :=
  decide (port < 128) && decide (src < 128) && bit (cfgCutThrough (getPort s port).cfg) cls &&
  decide (rate100 (portRate s port) ≤ rate100 (portRate s src)) && (getQueue s port cls).isEmpty

/-- A frame that one egress port cannot take: refused by a port or dropped by admission. -/
def refuse (s : State) (multicast : Bool) (port : Nat) : State :=
  if multicast || !portUp s port then countFlushed s port 1 else addF (addT s teleDrop) Rg.SW_DROP_THRESHOLD

/-- A sink takes a frame at once, an intake port with the entry's stream (R244, R254). -/
def toSink (s : State) (b : List Byte) (d : Decision) (p : Nat) : State :=
  let s := emit s (match d.stream with
    | some n => .intake p n b
    | none => .frame p b)
  portMirrors s p 1 b false

/-- A bank has no free cell: the frame is dropped. A cut-through frame counts as already leaving from its first cell on, and
ends stomped with the cells it has (R242, log 47). -/
def cutShort (s : State) (src cls n : Nat) (b : List Byte) (ports : List Nat) : State :=
  let got := n - (takeNow s (inputGroup src) n).2.2
  let cut := if got = 0 then [] else ports.filter fun p => cutThrough s src p cls
  let id := s.sw.bufSeq
  let s := poolEmpty { s with sw := { s.sw with bufSeq := id + 1 } }
  foldS cut (fun s p => pushFrame s p cls ⟨id, b.take (256 * got), 0, false, epochNow s, false, true, 0, src, 0, .plain⟩) s

/-- Buffer a frame and queue its copies; the internal sinks 130 to 145 take theirs at once (R254). -/
def forward (s : State) (src cls : Nat) (b : List Byte) (d : Decision) (yellow : Bool) (faulty : Bool) (stamp : Int) : State :=
  let ports := d.dest.filter fun p => decide (p < 130) && canTake s p cls && (!faulty || cutThrough s src p cls)
  let sinks := d.dest.filter fun p => decide (130 ≤ p) && decide (p < 146)
  let s := if faulty then s else foldS (d.dest.filter fun p => decide (p < 130) && !canTake s p cls) (fun s p => refuse s d.multicast p) s
  let s := if faulty then s else foldS sinks (fun s p => toSink s b d p) s
  if ports.isEmpty then s
  else
    let n := cellsFor b.length
    match bufferFrame s (inputGroup src) src cls n ports.length with
    | none => cutShort s src cls n b ports
    | some (id, s) =>
      let s := foldS ports (fun s p =>
        match admission s p cls with
        | none => releaseFrame (refuse s d.multicast p) p cls ⟨id, b, 0, false, 0, false, false, 0, src, 0, .plain⟩
        | some sh => pushFrame s p cls ⟨id, b, n, sh, epochNow s, yellow, faulty, stamp, src, 0, .plain⟩) s
      if src < 128 then pfcCheck s src else s

/-! ### Received pauses (R234) -/

def isPause (b : List Byte) : Bool := etherType b == 0x8808
/-- 512 bit times per quantum at the MAC rate. -/
def quantaNs (s : State) (p q : Nat) : Nat := ceilDiv (q * 51200) (rate100 (portRate s p))

/-- Pause a class until the quanta have run out; 0 ends the pause. -/
def pauseClass (s : State) (p c q : Nat) : State :=
  let x := getPort s p
  setPort s p { x with pauses := x.pauses.set c (if q = 0 then none else some (s.now + quantaNs s p q)) none }

/-- A pause or PFC frame: acted on by CASCADE ports only, PFC for the classes in PFC_CLASSES (R234, R250). -/
def takePause (s : State) (p : Nat) (b : List Byte) : State :=
  if !portCascade s p || !portUp s p then s
  else
    let c := (getPort s p).cfg
    let o := payloadAt b
    let op := beAt b o 2
    if op = 0x0001 then foldS (List.range 8) (fun s k => pauseClass s p k (beAt b (o + 2) 2)) s
    else if op = 0x0101 then
      let vec := beAt b (o + 2) 2
      foldS ((List.range 8).filter fun k => bit vec k && bit (cfgPfcClasses c) k) (fun s k => pauseClass s p k (beAt b (o + 4 + 2 * k) 2)) s
    else s

/-- Operands: the port, and the frame without its FCS. -/
def execPauseFrameReceive (p : Nat) (b : List Byte) (s : State) : Host.Outcome State Fault Refusal :=
  .next (if p < 128 ∧ isPause b then takePause s p b else s)

/-- Paused classes whose time has run out become eligible again. -/
def pauseExpiry (s : State) (p : Nat) : State :=
  let x := getPort s p
  serveSlot (setPort s p { x with pauses := x.pauses.filter fun q => match q.2 with
    | none => false
    | some t => decide (s.now < t) }) p

def execPauseQuantaExpiry (p : Nat) (s : State) : Host.Outcome State Fault Refusal := .next (if p < 128 then pauseExpiry s p else s)

/-! ### FRAME_LOOKUP -/

/-- PRT_RX_ERROR, once per second and port. -/
def rxError (s : State) (p : Nat) : State :=
  let x := getPort s p
  if oncePerSecond s x.rxErrAt then raiseEv (setPort s p { x with rxErrAt := some s.now }) Ev.PRT_RX_ERROR p else s

/-- Codewords corrected, also counted by Meridian second (R235). -/
def fecCorrected (s : State) (p n : Nat) : State :=
  if n = 0 then s
  else
    let s := addT s (teleFec p) n
    let x := getPort s p
    let c := x.corrected
    let roll := if c.1 = s.mer.sec then c else (s.mer.sec, 0, if c.1 + 1 = s.mer.sec then c.2.1 else 0)
    addF (setPort s p { x with corrected := (roll.1, roll.2.1 + n, roll.2.2) }) Rg.PRT_FEC_CORRECTED p n

/-- Uncorrectable codewords: PRT_FEC_DEGRADE when more than 16 occur in 1 s (R250). -/
def fecUncorrected (s : State) (p n : Nat) : State :=
  if n = 0 then s
  else
    let x := getPort s p
    let l := (x.fecTimes ++ List.replicate (min n 17) s.now).filter fun t => decide (s.now < t + secNs)
    let s := addF (setPort s p { x with fecTimes := if 16 < l.length then [] else l }) Rg.PRT_FEC_UNCORRECTED p n
    if 16 < l.length then raiseEv s Ev.PRT_FEC_DEGRADE p else s

def ingressClass (s : State) (p : Nat) (b : List Byte) : Nat := if tagged b then framePcp b else getF s Rg.TM_SCHED_DEFAULT_PCP p

/-- A frame with a fault goes on only where it went cut-through, and ends stomped. Mirror copies come after the frame itself;
a faulty frame is copied, stomped, where it went on at all. -/
def arrive (s : State) (p : Nat) (b : List Byte) (faulty : Bool) : State :=
  let cls := ingressClass s p b
  let m := if p < 128 then police s p cls b else (some false, s)
  match m.1 with
  | none => m.2
  | some yellow =>
    let s := m.2
    let d := lookup s p b
    let stamp := if p < 128 then ingressStamp s p else stampNow s
    let mirrors := if faulty && !d.dest.any (cutThrough s p · cls) then [] else ingressMirrors s p d
    let s := if d.unknown then addT s teleDrop else s
    let s := if d.barred = 0 then s else addF s Rg.MER_PTP_STATUS_INVALID 0 d.barred
    let s := if d.multicast && d.dest.isEmpty then raiseEv (addF (addT s teleDrop) Rg.SW_DROP2_MCAST_EMPTY) Ev.SW_MCAST_EMPTY
      else forward s p cls b d yellow faulty stamp
    foldS mirrors (fun s i => mirrorCopy s p i b faulty) s

/-- An arriving frame. Operands: ingress port; the frame without its FCS; its fault (0 none, 1 FCS or PCS error, 2 touched by an
uncorrectable codeword, 3 cut short as its ingress link goes down); RS-FEC codewords corrected and uncorrectable since the
port's previous frame. -/
def frameLookup (s : State) (p : Nat) (b : List Byte) (fault corrected bad : Nat) : State :=
  if p < 128 then
    if !portUp s p then s
    else
      let s := fecUncorrected (fecCorrected s p corrected) p bad
      let maxB := cfgMaxFrame (getPort s p).cfg - 4
      if fault = 3 then arrive s p (b.take maxB) true
      else if b.length < 60 then rxError (addF s Rg.PRT_RX_ERRORS_LENGTH p) p
      else if fault != 0 then arrive (rxError (addF s Rg.PRT_RX_ERRORS_FCS p) p) p b true
      else if maxB < b.length then arrive (rxError (addF s Rg.PRT_RX_ERRORS_LENGTH p) p) p (b.take maxB) true
      else if bit (beAt b 6 1) 0 then rxError s p
      else
        let s := addF (addT s (teleRx p) (b.length + 4)) Rg.PRT_RX_FRAMES_FRAMES p
        if isPause b then takePause s p b else arrive s p b false
  else if p < 138 ∧ 14 ≤ b.length then arrive s p b false
  else s

def execFrameLookup (p : Nat) (b : List Byte) (fault corrected bad : Nat) (s : State) : Host.Outcome State Fault Refusal :=
  .next (if domainOn s 36 ∧ domainOn s 37 then frameLookup s p b fault corrected bad else s)

/-! ### TABLE_UPDATE (R245, R246) -/

def tTable (e : List Byte) : Nat := leAt e 20 1
def tOp (e : List Byte) : Nat := leAt e 21 1
def entrySize (t : Nat) : Nat := if t = 0 then 16 else 32

def startTableUpdate (_ : State) (e : List Byte) : Begin :=
  if eLen e = 0 && tOp e < 2 && tTable e ≤ 2 then .finish St.okZero 0 0
  else checked [(eAddr e + eLen e ≤ 2 ^ 64, 8), (2 < tTable e || (if tOp e = 2 then eLen e == 0 else eLen e % entrySize (tTable e) == 0), 16),
    (tTable e ≤ 2, 20), (tOp e ≤ 2, 21)] (if eLen e = 0 then .run else .read (eAddr e) (eLen e) none)

/-- A port named by an entry: 0 to 145, the lowest lane of its port (R25). -/
def portOk (s : State) (p : Nat) : Bool := decide (p ≤ 145) && !bondMember s p

/-- The used bits of a table's entries (R244). -/
def tableMask (t : Nat) : List Nat :=
  if t = 0 then whole 7 ++ [0x8F, 0xFF, 1, 0xFF, 0xFF] ++ List.replicate 4 0
  else if t = 1 then whole 3 ++ [0xCF] ++ whole 11 ++ [1] ++ whole 3 ++ List.replicate 13 0
  else whole 20 ++ [3] ++ List.replicate 11 0

def badMac (s : State) (i : Nat) (e : List Byte) : Option Nat :=
  let a := mAction e
  firstBad [(a ≤ 5 && a != 3, bufDetail 8 i), (a != 1 || portOk s (mTo e), bufDetail 10 i), (a != 2 || decide (mTo e ≤ 4095), bufDetail 10 i)]

def sameFlow (a b : List Byte) : Bool :=
  fVid a == fVid b && fDstIp a == fDstIp b && fUdp a == fUdp b && fSrcEn a == fSrcEn b && (!fSrcEn a || fSrcIp a == fSrcIp b)

def badFlow (s : State) (m : SMap (List Byte)) (i : Nat) (e : List Byte) : Option Nat :=
  let a := fAction e
  firstBad [(fIndex e ≤ 8191, bufDetail 0 i), (!fValid e || !m.any (fun p => p.1 != fIndex e && fValid p.2 && sameFlow p.2 e), bufDetail 2 i),
    (a ≤ 5, bufDetail 14 i), (a != 1 || portOk s (fTo e), bufDetail 16 i), (a != 2 || decide (fTo e ≤ 4095), bufDetail 16 i),
    (a != 3 || decide (fTo e ≤ 511), bufDetail 16 i), (a != 3 || (130 ≤ fIntake e && fIntake e ≤ 137), bufDetail 18 i)]

def badSet (s : State) (i : Nat) (e : List Byte) : Option Nat :=
  firstBad [(leAt e 0 2 ≤ 4095, bufDetail 0 i),
    ((List.range 128).all fun p => !bit (leAt e (2 + p / 8) 1) (p % 8) || !bondMember s p, bufDetail 2 i)]

/-- What happens to a table: an entry is invalid, a bucket overflows, or the table after. -/
inductive TableResult where
  | invalid (detail : Nat)
  | overflow
  | ok (m : SMap (List Byte))
deriving DecidableEq, Repr

/-- Write one MAC entry: in place of its key, or in the first free way. -/
def putMac (m : SMap (List Byte)) (e : List Byte) : Option (SMap (List Byte)) :=
  let b := macBucket (mVid e) (mMac e)
  match macFind m (mVid e) (mMac e) with
  | some (k, _) => some (if mValid e then m.set k e [] else m.erase k)
  | none =>
    if !mValid e then some m
    else ((rangeFrom (4 * b) 4).find? fun k => !mValid (m.get k [])).map fun k => m.set k e []

/-- Apply the entries one after another; a bucket that overflows is only told once no entry is invalid. -/
def applyEntries (s : State) (table op : Nat) : Nat → List (List Byte) → SMap (List Byte) → Bool → TableResult
  | _, [], m, full => if full then .overflow else .ok m
  | i, e :: t, m, full =>
    if op = 1 then
      if table = 0 then applyEntries s table op (i + 1) t (match macFind m (mVid e) (mMac e) with
        | some (k, _) => m.erase k
        | none => m) full
      else
        let top := if table = 1 then 8191 else 4095
        if top < leAt e 0 2 then .invalid (bufDetail 0 i) else applyEntries s table op (i + 1) t (m.erase (leAt e 0 2)) full
    else
      match if table = 0 then badMac s i e else if table = 1 then badFlow s m i e else badSet s i e with
      | some d => .invalid d
      | none =>
        if table = 0 then
          match putMac m e with
          | some m => applyEntries s table op (i + 1) t m full
          | none => applyEntries s table op (i + 1) t m true
        else applyEntries s table op (i + 1) t (if table = 1 && !fValid e then m.erase (fIndex e) else m.set (leAt e 0 2) e []) full

def getTable (s : State) (t : Nat) : SMap (List Byte) := if t = 0 then s.sw.mac else if t = 1 then s.sw.flow else s.sw.mcast
def setTable (s : State) (t : Nat) (m : SMap (List Byte)) : State :=
  if t = 0 then { s with sw := { s.sw with mac := m } }
  else if t = 1 then { s with sw := { s.sw with flow := m } }
  else { s with sw := { s.sw with mcast := m } }

def setUpdates (s : State) (l : List TableUpd) : State := { s with sw := { s.sw with updates := l } }

def flipBit (n i : Nat) : Nat := if bit n i then n - 2 ^ i else n + 2 ^ i

/-- The first waiting update of a table runs: its entries apply at once and the epoch flips; one that is refused completes,
and the next runs. An edition's section replaces its table (op 3, R394). -/
def runUpdates (s : State) (t : Nat) : Nat → State
  | 0 => s
  | f + 1 =>
    match s.sw.updates.find? (·.table == t) with
    | none => s
    | some u =>
      if u.since.isSome then s
      else
        let out (s : State) (st d : Nat) : State := runUpdates (completeId (setUpdates s (s.sw.updates.filter (·.cmd != u.cmd))) u.cmd st 0 d) t f
        let res := if u.op = 2 then TableResult.ok []
          else applyEntries s t u.op 0 ((records (entrySize t) (u.data.length / entrySize t) u.data).map (kept (tableMask t)))
              (if u.op = 3 then [] else getTable s t) false
        match res with
        | .invalid d => out s St.invalidField d
        | .overflow => out s St.noResource 0
        | .ok m =>
          let s := setF (setTable s t m) Rg.SW_EPOCH_EPOCH 0 (flipBit (epochNow s) t)
          let s := setF s Rg.SW_EPOCH_FENCE_PENDING 0 (getF s Rg.SW_EPOCH_FENCE_PENDING ||| 2 ^ t)
          setUpdates s (s.sw.updates.map fun x => if x.cmd = u.cmd then { x with since := some s.now } else x)

def runTableUpdate (s : State) (c : Cmd) (d : List Byte) : State :=
  let e := c.entry
  let n := s.sw.updates.length + 2
  runUpdates (setUpdates s (s.sw.updates ++ [⟨c.id, tTable e, tOp e, d, none⟩])) (tTable e) n

def execTableUpdate (q : Nat) (s : State) : Host.Outcome State Fault Refusal :=
  .next (ringRow Op.tableUpdate anyEntry startTableUpdate runTableUpdate q s)

def oldEpoch (s : State) (t : Nat) (f : QFrame) : Bool := bit f.epochs t != bit (epochNow s) t

/-- The update that waits at its fence completes, and the table's next one runs. -/
def fenceDone (s : State) (t : Nat) (u : TableUpd) (dropped : Nat) : State :=
  let s := setUpdates s (s.sw.updates.filter (·.cmd != u.cmd))
  let p := getF s Rg.SW_EPOCH_FENCE_PENDING
  let s := setF s Rg.SW_EPOCH_FENCE_PENDING 0 (if bit p t then p - 2 ^ t else p)
  let s := raiseEv (completeId s u.cmd St.ok dropped) Ev.SW_TABLE_FENCE
  runUpdates s t (s.sw.updates.length + 1)

def fencing (s : State) (t : Nat) : Option TableUpd := s.sw.updates.find? fun u => u.table == t && u.since.isSome

/-- No frame of the previous epoch is left, in a queue or a launch slot (R246). -/
def fenceReached (s : State) (t : Nat) : State :=
  match fencing s t with
  | none => s
  | some u =>
    if (s.tm.queues.any fun q => q.2.any (oldEpoch s t)) || s.ports.any fun p => p.2.slot.any fun l => oldEpoch s t l.frame then s
    else fenceDone s t u 0

def execTableFenceReached (t : Nat) (s : State) : Host.Outcome State Fault Refusal := .next (fenceReached s t)

/-- Drop the old-epoch frames of every queue. -/
def dropOldEpoch (s : State) (t : Nat) : State × Nat :=
  let hit := s.tm.queues.filter fun q => q.2.any (oldEpoch s t)
  hit.foldl (fun (a : State × Nat) q =>
    let port := q.1 / 8
    let cls := q.1 % 8
    let l := getQueue a.1 port cls
    let old := l.filter (oldEpoch s t)
    let s1 := foldS old (fun s f => frameLost (releaseFrame s port cls f) port f) a.1
    let s2 := setQueue s1 port cls (l.filter fun f => !oldEpoch s t f)
    (if l.head?.any (oldEpoch s t) then headArrives s2 port cls else s2, a.2 + old.length)) (s, 0)

def execTableFenceTimeout (t : Nat) (s : State) : Host.Outcome State Fault Refusal :=
  .next <|
    match fencing s t with
    | none => s
    | some u =>
      if (u.since.getD s.now) + getF s Rg.SW_CTRL_FENCE_TIMEOUT_MS * msNs ≤ s.now then
        let r := dropOldEpoch s t
        holdsProgress (fenceDone (addF (addT r.1 teleDrop r.2) Rg.SW_DROP2_FENCE_DROP 0 r.2) t u r.2)
      else s

/-! ### MIRROR_SET (R249) -/

def startMirrorSet (s : State) (e : List Byte) : Begin :=
  let k := leAt e 20 1
  let f := leAt e 21 1
  let src := leAt e 22 2
  let inset := leAt e 24 1
  let other := (List.range 4).any fun i => i != eTarget e && mirrorOn s i && (getMirror s i).inset != inset
  checked [(eTarget e ≤ 3, 4), (k ≤ 2, 20), (k != 1 || bit f 0 || bit f 1, 21),
    (k = 0 || (if k = 1 then portOk s src && src != inset else decide (src ≤ 8191)), 22),
    (k = 0 || (inset ≤ 128 && !bondMember s inset), 24), (k = 0 || !bit f 2 || (64 ≤ leAt e 26 2 && leAt e 26 2 ≤ 9216), 26)]
    (if k ≠ 0 ∧ other = true then .finish St.stateConflict 0 0 else .run)

/-- The session of an entry, without what its KIND ignores. -/
def mirrorOf (e : List Byte) : Mirror :=
  let k := leAt e 20 1
  let f := leAt e 21 1 % 8
  if k = 0 then Mirror.init
  else ⟨k, if k = 1 then f else f / 4 * 4 + f % 2, leAt e 22 2, leAt e 24 1, if bit f 2 then leAt e 26 2 else 0⟩

def runMirrorSet (s : State) (c : Cmd) (_ : List Byte) : State :=
  let e := c.entry
  let i := eTarget e
  let k := leAt e 20 1
  let a := getF s Rg.SW_MIRROR_ACTIVE
  let a := if bit a i then a - 2 ^ i else a
  let a := if k = 0 then a else a + 2 ^ i
  let s := { s with sw := { s.sw with mirrors := s.sw.mirrors.set i (mirrorOf e) Mirror.init } }
  let s := setF s Rg.SW_MIRROR_ACTIVE 0 a
  let inset := (((List.range 4).find? (bit a ·)).map fun j => (getMirror s j).inset).getD 0xFF
  complete (setF s Rg.SW_MIRROR_INSET 0 inset) c St.ok

def execMirrorSet (q : Nat) (s : State) : Host.Outcome State Fault Refusal :=
  .next (ringRow Op.mirrorSet anyEntry startMirrorSet runMirrorSet q s)

end Sys2Proof.Machine
end

