-- ==== Sys2Proof/Machine/Traffic.lean ====
section
/-!
DEFINITION. The traffic manager's rows (R254 to R269): the choice of the next frame, shapers on the calendar wheel, and gate
control lists.
-/

namespace Sys2Proof.Machine

/-! ### TM_FRAME_SELECT (R256, R257, R265) -/

/-- A head frame that no window of its class can take is dropped; told once per second and port. -/
def dropOversize (s : State) (port : Nat) : State :=
  foldS (List.range 8) (fun s c =>
    match getQueue s port c with
    | [] => s
    | f :: _ =>
      if port < 128 && oversize s port c (frameNs s port (f.bytes.length + 4)) then
        let s := addF (holdsProgress (frameLost (popFrame s port c) port f)) Rg.TM_GATE_DROPS_OVERSIZE port
        if oncePerSecond s (s.tm.oversizeAt.get port none) then
          raiseEv { s with tm := { s.tm with oversizeAt := s.tm.oversizeAt.set port (some s.now) none } } Ev.TM_GATE_OVERSIZE port
        else s
      else s) s

/-- The chosen queue's head frame leaves. -/
def sendHead (s : State) (port c : Nat) : State :=
  match getQueue s port c with
  | [] => s
  | f :: _ =>
    let strict := bit (getF s Rg.TM_SCHED_STRICT port) c
    let s := if strict then s
      else { s with tm := { s.tm with vtime := s.tm.vtime.set port (s.tm.start.get (useKey port c) 0) 0 } }
    let s := transmit (popFrame (takeCredit s port c) port c) port (egressStamp s port) f
    holdsProgress s

/-- The MAC of a port can start a frame. No frame is sent while the device is in FE (R195, R312). -/
def frameSelect (s : State) (port : Nat) : State :=
  if 130 ≤ port ∨ !portUp s port ∨ getF s Rg.FLT_STATE_STATE = 2 ∨ !domainOn s 38 ∨ relocking s 2 then s
  else
    if (getPort s port).slot.any (slotReady s port) then serveSlot s port
    else
      let s := dropOversize s port
      match chooseQueue s port with
      | none => s
      | some c => sendHead s port c

def execTmFrameSelect (port : Nat) (s : State) : Host.Outcome State Fault Refusal := .next (frameSelect s port)

/-! ### Shapers (R258 to R260) -/

def sEnable (e : List Byte) : Bool := bit (leAt e 21 1) 0
def sRate (e : List Byte) : Nat := leAt e 24 4
def sBurst (e : List Byte) : Nat := leAt e 28 2

def startShaperSet (_ : State) (e : List Byte) : Begin :=
  checked [(eTarget e ≤ 129, 4), (leAt e 20 1 ≤ 7, 20), (!sEnable e || decide (sRate e ≤ 400000000), 24), (!sEnable e || sBurst e != 0, 28)] .run

/-- Settings that waited are in force, or replaced: their commands complete. -/
def completeNext (s : State) (x : Shaper) : State := foldS x.next (fun s p => completeId s p.1 St.ok) s

def runShaperSet (s : State) (c : Cmd) (_ : List Byte) : State :=
  let e := c.entry
  let port := eTarget e
  let cls := leAt e 20 1
  let x := getShaper s port cls
  if !sEnable e then complete (completeNext (setShaper s port cls { Shaper.init with burst := x.burst }) x) c St.ok
  else if !x.enabled then
    complete (setShaper s port cls ⟨true, sRate e, sBurst e, sBurst e, s.now * 65536, false, []⟩) c St.ok
  else if refilling x || !x.next.isEmpty then
    setShaper s port cls { x with burst := sBurst e, credit := min x.credit (sBurst e), next := x.next ++ [(c.id, sRate e)] }
  else
    let x := { x with rate := sRate e, burst := sBurst e, credit := min x.credit (sBurst e), last := s.now * 65536 }
    complete (setShaper s port cls (placeShaper s x)) c St.ok

def execShaperSet (q : Nat) (s : State) : Host.Outcome State Fault Refusal :=
  .next (ringRow Op.shaperSet anyEntry startShaperSet runShaperSet q s)

/-- A slot visited more than 64 ns after its end. -/
def wheelLate (s : State) (due : Nat) : State :=
  let slotEnd := (due / (64 * 65536) + 1) * 64
  if slotEnd + 64 < s.now then raiseEv (addF s Rg.TM_WHEEL_STATUS_LATE_SLOTS) Ev.TM_WHEEL_LATE else s

/-- The shaper's slot comes: credits are added, and a waiting setting takes force. -/
def shaperRefill (s : State) (port cls : Nat) : State :=
  let x := getShaper s port cls
  let i := shaperInterval x.rate
  if (!refilling x && x.next.isEmpty) || x.overflow || !domainOn s 38 then s
  else
    let dt := s.now * 65536 - x.last
    if refilling x && decide (dt < i) then s
    else
      let s := if refilling x then wheelLate s (x.last + i) else s
      let k := if refilling x then dt / i else 0
      let y := { x with credit := min x.burst (x.credit + k), last := x.last + k * i }
      let rate := (y.next.getLast?.map (·.2)).getD y.rate
      let y := { y with rate := rate, next := [] }
      completeNext (setShaper s port cls (placeShaper s y)) x

def execShaperRefill (port cls : Nat) (s : State) : Host.Outcome State Fault Refusal := .next (shaperRefill s port cls)

/-- Shapers due within the horizon leave the overflow list for the wheel. -/
def overflowScan (s : State) : State :=
  { s with tm := { s.tm with shapers := s.tm.shapers.map fun p => if p.2.overflow then (p.1, placeShaper s p.2) else p } }

def execWheelOverflowScan (s : State) : Host.Outcome State Fault Refusal := .next (overflowScan s)

/-! ### Gate control lists (R264, R266, R267) -/

/-- Show the states a port's operational list gives now. -/
def showGates (s : State) (port : Nat) : State :=
  setF s Rg.TM_GATE_STATUS_STATES port (match getGate s port with
    | none => 255
    | some g => gateStateAt (gateSegs g.cycle g.entries) (gatePos g (mft16 s)))

def gBase (e : List Byte) : Nat := (leAt e 20 6 * 1000000000 + leAt e 28 4) * 65536
def gCycle (e : List Byte) : Nat := leAt e 32 4 * 65536 + leAt e 36 2

def startGateListSet (s : State) (e : List Byte) : Begin :=
  checked [(decide (eTarget e ≤ 127) && !bondMember s (eTarget e), 4), (eAddr e + eLen e ≤ 2 ^ 64, 8),
    (eLen e % 8 == 0 && decide (eLen e ≤ 2048), 16), (leAt e 28 4 ≤ 999999999, 28),
    (1000 ≤ leAt e 32 4 && leAt e 32 4 ≤ 1000000000, 32)] (if eLen e = 0 then .run else .read (eAddr e) (eLen e) none)

def badGate : Nat → List (List Byte) → Option Nat
  | _, [] => none
  | i, r :: t => if leAt r 4 4 = 0 ∨ 1000000000 < leAt r 4 4 then some (bufDetail 4 i) else badGate (i + 1) t

/-- The start instant in 2^−16 ns: the base time, or the first cycle from it that is far enough ahead. -/
def gateStart (base cycle earliest : Nat) : Nat :=
  if earliest ≤ base then base else base + ceilDiv (earliest - base) cycle * cycle

def setGateNext (s : State) (p : Nat) (g : Option GateList) : State :=
  setB { s with tm := { s.tm with gatesNext := s.tm.gatesNext.set p g none } } Rg.TM_GATE_STATUS_PENDING p g.isSome

def runGateListSet (s : State) (c : Cmd) (d : List Byte) : State :=
  let e := c.entry
  let p := eTarget e
  let rs := records 8 (d.length / 8) d
  let start := gateStart (gBase e) (gCycle e) (mft16 s + getF s Rg.TM_CTRL_GATE_LEAD_US * 1000 * 65536)
  match badGate 0 rs with
  | some x => complete s c St.invalidField 0 x
  | none =>
    if mft16 s + 2000000000 * 65536 ≤ start then complete s c St.invalidField 0 20
    else
      let at_ := start / 65536 % 2 ^ 32
      let g : GateList := ⟨rs.map fun r => (leAt r 0 1, leAt r 4 4), start, gCycle e⟩
      complete (setF (setGateNext s p (some g)) Rg.TM_GATE_START_START p at_) c St.ok at_

def execGateListSet (q : Nat) (s : State) : Host.Outcome State Fault Refusal :=
  .next (ringRow Op.gateListSet anyEntry startGateListSet runGateListSet q s)

/-- A pending list becomes operational. -/
def activateGates (s : State) (p : Nat) (g : GateList) : State :=
  let s := setGateNext s p none
  let s := { s with tm := { s.tm with gates := s.tm.gates.set p (if g.entries.isEmpty then none else some g) none } }
  let s := setF (setB s Rg.TM_GATE_STATUS_OPERATIONAL p (!g.entries.isEmpty)) Rg.TM_GATE_STATUS_LENGTH p g.entries.length
  raiseEv (showGates s p) Ev.TM_GATE_ACTIVE p

def gateListStart (s : State) (p : Nat) : State :=
  match getGateNext s p with
  | none => s
  | some g => if g.start ≤ mft16 s ∧ domainOn s 5 then activateGates s p g else s

def execGateListStart (p : Nat) (s : State) : Host.Outcome State Fault Refusal := .next (gateListStart s p)

def execGateEntryChange (p : Nat) (s : State) : Host.Outcome State Fault Refusal :=
  .next (if p < 128 ∧ domainOn s 5 then showGates s p else s)

end Sys2Proof.Machine
end

