-- ==== Sys2Proof/Machine/Meridian.lean ====
section
/-!
DEFINITION. The Meridian clock: its running (R199, R200), LATCH, SET and STEP (R201 to R203, R222), the servo with lock and
holdover (R213 to R217), the timing pins (R224) and captures (R225), and the reset of PD05 (R203, R227).
-/

namespace Sys2Proof.Machine

/-! ### The running clock (R199, R200) -/

/-- ADJ × 2^32 / 10^9 to nearest, ties toward plus infinity. -/
def incAdjust (adj : Int) : Int := (adj * 2 ^ 33 + 1000000000) / 2000000000

/-- INC in 2^−48 ns. -/
def clockInc (s : State) : Nat := (2 ^ 48 + incAdjust (getS s Rg.MER_FREQ_ADJ_ADJ)).toNat

/-- The whole clock in 2^−48 ns since the PTP epoch. -/
def clock48 (s : State) : Nat := (s.mer.sec * 1000000000 + s.mer.ns) * 2 ^ 48 + s.mer.frac

/-- Set the clock; seconds are kept to 48 bits. -/
def setClock48 (s : State) (v : Nat) : State :=
  let ns := v / 2 ^ 48
  { s with mer := { s.mer with sec := ns / 1000000000 % 2 ^ 48, ns := ns % 1000000000, frac := v % 2 ^ 48 } }

/-- One TIMECLK cycle. -/
def tickClock (s : State) : State := setClock48 s (clock48 s + clockInc s)

/-- This TIMECLK cycle is the one in which the clock reaches a whole second plus an offset in ns. -/
def atSecond (s : State) (off : Int) : Bool :=
  decide (((clock48 s : Int) - off * 2 ^ 48) % (1000000000 * 2 ^ 48) < (clockInc s : Int))

/-! ### Lock (R202, R217) -/

/-- LOCKED clears; the runs of R217 begin anew. -/
def unlock (s : State) : State :=
  let s := { s with mer := { s.mer with lockRun := 0, unlockRun := 0 } }
  if getB s Rg.MER_STATUS_LOCKED then raiseEv (setF s Rg.MER_STATUS_LOCKED 0 0) Ev.MER_SERVO_UNLOCK else s

/-! ### A step of the clock (R202, R222) -/

/-- How far an instant lay ahead at the old time, if the step carries MST past it. -/
def carried (old : Nat) (d : Int) (x : Nat) : Bool := decide (0 < mstDiff x old) && decide (mstDiff x old ≤ d)

/-- The instants of trigger n that a step passes: a disarmed last one fires alone. -/
def stepSeries (s : State) (old : Nat) (d : Int) (n : Nat) : State :=
  let t := getTrig s n
  let x := trigInstant s n t.j
  if trigArmed s n then stepTrigger s n (mstDiff x old) d
  else if t.lastOne && carried old d x then trigAct (setTrig s n ⟨t.j + 1, false⟩) n t.j
  else s

/-- Triggers over a step: those of a schedule whose successor's START is passed stop before it, and the successor's fire; so
for each accepted schedule in turn. -/
def stepTriggers (old : Nat) (d : Int) : Nat → State → State
  | 0, s => s
  | f + 1, s =>
    match s.sht.next with
    | [] => foldS (List.range 16) (fun s n => stepSeries s old d n) s
    | c :: _ =>
      let a := mstDiff c.start old
      if a ≤ d ∧ 0 < a then
        let s := foldS (List.range 8) (fun s n => stepSeries s old (a - 1) n) s
        let s := foldS (rangeFrom 8 4) (fun s n => stepSeries s old d n) s
        stepTriggers old d f (switchSchedule s)
      else foldS (List.range 16) (fun s n => stepSeries s old d n) s

/-- HOLD and RESUME instants, launches, first pictures and gate lists that a step passes act on its cycle. -/
def stepInstants (s : State) (old : Nat) (d : Int) : State :=
  let holds := s.sht.holds.filter fun h => !h.issued && carried old d h.at_
  let s := foldS holds (fun s h => if hResume h.flags then resumeNow s h else holdNow s h) s
  let due := s.sht.presents.filter fun p => carried old d p.at_
  let s := { s with sht := { s.sht with presents := s.sht.presents.filter fun p => !carried old d p.at_ } }
  let s := foldS due (fun s p => launchPresent s p) s
  let first := s.sht.waits.filter fun w => carried old d w.at_
  foldS first (fun s w =>
    completeId { s with sht := { s.sht with waits := s.sht.waits.filter (·.cmd != w.cmd) } } w.cmd
      (if w.refused then St.partly else St.ok) w.start) s

/-- A pending gate list that the step has not passed is judged by R204 afresh. -/
def gateJudged (s : State) (p : Nat) : State :=
  match getGateNext s p with
  | none => s
  | some g => if g.start ≤ mft16 s ∨ reached s (g.start / 65536 % 2 ^ 32) = true then activateGates s p g else s

/-- Gates follow the new time: pending lists whose start is reached, and the states shown. -/
def stepGates (s : State) : State :=
  let s := foldS (s.tm.gatesNext.map (·.1)) (fun s p => gateJudged s p) s
  foldS (s.tm.gates.map (·.1)) (fun s p => showGates s p) s

/-- The clock takes a new value in one cycle. -/
def stepClock (s : State) (v : Nat) : State :=
  let old := mst s
  let d : Int := (v / 2 ^ 48 : Nat) - (clock48 s / 2 ^ 48 : Nat)
  let s := unlock (setClock48 s v)
  let s := raiseEv (addF s Rg.MER_STATUS_STEPS) Ev.MER_STEP
  let s := if 0 < d then stepInstants (stepTriggers old d (s.sht.next.length + 1) s) old d else s
  stepGates s

/-- A step by whole nanoseconds; the clock does not go below the epoch. -/
def stepBy (s : State) (ns : Int) : State := stepClock s ((clock48 s : Int) + ns * 2 ^ 48).toNat

/-! ### MER_TIME_CMD (R201, R202, R229) -/

def latchTime (s : State) : State :=
  let s := { s with mer := { s.mer with latSec := s.mer.sec, latNs := s.mer.ns, latFrac := s.mer.frac / 2 ^ 32 } }
  setF s Rg.MER_MST_LATCHED 0 (mst s)

/-- A SET or STEP makes the time valid (R203); a step of the servo does not. -/
def timeValid (s : State) : State := setF s Rg.MER_STATUS_TIME_VALID 0 1

def setTime (s : State) : State :=
  if 999999999 < s.mer.setNs then raiseEv s Ev.MER_TRIG_INVALID
  else stepClock (timeValid s) ((s.mer.setSec * 1000000000 + s.mer.setNs) * 2 ^ 48 + s.mer.setFrac * 2 ^ 32)

/-- LATCH, SET and STEP of one write, in this order. -/
def timeCmd (s : State) (latch set step : Bool) : State :=
  if !domainOn s 5 then s
  else
    let s := if latch then latchTime s else s
    let s := if set then setTime s else s
    if step then stepBy (timeValid s) (getS s Rg.MER_STEP_OFFSET_NS) else s

/-- Operands: the other two bits of the same write. -/
def execMerTimeLatch (set step : Bool) (s : State) : Host.Outcome State Fault Refusal := .next (timeCmd s true set step)
def execMerTimeSet (latch step : Bool) (s : State) : Host.Outcome State Fault Refusal := .next (timeCmd s latch true step)
def execMerTimeStep (latch set : Bool) (s : State) : Host.Outcome State Fault Refusal := .next (timeCmd s latch set true)

/-! ### MER_FREQ_ADJ (R200, R229) -/

/-- FMAX of R215: 1,000 ppm in 2^−16 ppb. -/
def fMax : Int := 65536000000

def setAdj (s : State) (a : Int) : State := setS s Rg.MER_FREQ_ADJ_ADJ 0 (clampI (-fMax) fMax a)

/-- Software writes ADJ only with SOURCE FREE. -/
def freqAdjWrite (s : State) (v : Nat) : State :=
  if merSource s = sourceFree ∧ domainOn s 5 then setAdj s (signed 40 v) else s

/-- Operand: the 40 bits written. -/
def execMerFreqAdjWrite (v : Nat) (s : State) : Host.Outcome State Fault Refusal := .next (freqAdjWrite s v)

/-! ### The servo (R213 to R217) -/

/-- L of the source in force (R214). -/
def servoLog (s : State) : Int :=
  let src := merSource s
  if src = sourcePtp then ptpLogSync s
  else if src = sourceSync then clampI (-7) 4 (ceilLog2 (getF s Rg.MER_SYNC_IN_PERIOD_NS) - 30)
  else if src = sourceHost then getS s Rg.MER_SERVO_OFFSET_LOG_INTERVAL
  else 0

/-- The proportional-integral loop (R215). -/
def servoLoop (s : State) (e l : Int) : State :=
  let x := e * 2 ^ (12 - l).toNat
  let i := clampI (-fMax) fMax (s.mer.integ - getF s Rg.MER_SERVO_GAIN_KI * x / 65536)
  setAdj { setF s Rg.MER_STATUS_SLEWING 0 0 with mer := { s.mer with integ := i, stepRun := 0 } } (i - getF s Rg.MER_SERVO_GAIN_KP * x / 65536)

/-- Rounded to whole nanoseconds from 1/16 ns, ties away from zero. -/
def round16 (e : Int) : Int := if 0 ≤ e then (e + 8) / 16 else -((-e + 8) / 16)

/-- The third counting sample of one sign corrects the phase by a step or a slew (R216). -/
def servoCorrect (s : State) (e : Int) : State :=
  let s := { s with mer := { s.mer with stepRun := 0 } }
  if s.sht.running.isNone || getB s Rg.MER_CTRL_STEP_RUNNING then stepBy s (-round16 e)
  else
    let ppm : Int := getF s Rg.MER_SERVO_STEP_SLEW_PPM * 65536000
    let s := setAdj s (s.mer.integ - if 0 < e then ppm else -ppm)
    if getB s Rg.MER_STATUS_SLEWING then s
    else raiseEv (unlock (setF s Rg.MER_STATUS_SLEWING 0 1)) Ev.MER_SLEW

/-- A sample at or beyond the step threshold counts; alone it is discarded. -/
def servoCount (s : State) (e : Int) : State :=
  let neg := decide (e < 0)
  let n := if s.mer.stepRun != 0 && s.mer.stepNeg == neg then s.mer.stepRun + 1 else 1
  let s := { s with mer := { s.mer with stepRun := n, stepNeg := neg } }
  if 3 ≤ n then servoCorrect s e else s

/-- Runs of small and large samples, and the lock they set or clear (R217). -/
def servoLock (s : State) (e : Int) : State :=
  let m := e.natAbs
  let good := if m ≤ 16 * getF s Rg.MER_SERVO_LOCK_LOCK_NS then s.mer.lockRun + 1 else 0
  let bad := if 16 * getF s Rg.MER_SERVO_LOCK_UNLOCK_NS < m then s.mer.unlockRun + 1 else 0
  let s := { s with mer := { s.mer with lockRun := good, unlockRun := bad } }
  if getB s Rg.MER_STATUS_LOCKED then
    if max 1 (getF s Rg.MER_SERVO_LOCK_UNLOCK_COUNT) ≤ bad then unlock s else s
  else if max 1 (getF s Rg.MER_SERVO_LOCK_LOCK_COUNT) ≤ good then
    raiseEv (setF (setF s Rg.MER_STATUS_LOCKED 0 1) Rg.MER_STATUS_TIME_VALID 0 1) Ev.MER_SERVO_LOCK
  else s

/-- An offset sample e, in 1/16 ns, with its L. -/
def servoSample (s : State) (e l : Int) : State :=
  let s := setS s Rg.MER_SERVO_OFFSET_OFFSET 0 e
  let s := { s with mer := { s.mer with sampleAt := some s.now, sampleL := l } }
  let s := servoLock (setF s Rg.MER_STATUS_HOLDOVER 0 0) e
  if 16000 * max 1 (getF s Rg.MER_SERVO_STEP_STEP_US) ≤ e.natAbs then servoCount s e else servoLoop s e l

/-- Operand: the sample of the source in force. -/
def execServoSample (e : Int) (s : State) : Host.Outcome State Fault Refusal :=
  .next (if merSource s = sourceFree ∨ !domainOn s 5 then s else servoSample s e (servoLog s))

/-- A write of the upper word of MER_SERVO_OFFSET. -/
def servoOffsetWrite (s : State) (hi : Nat) : State :=
  if merSource s = sourceHost then
    let l := clampI (-7) 4 (signed 5 (bits hi 8 5))
    let s := setW s 0x0240004C (BitVec.ofNat 32 (hi % 256))
    let s := setS s Rg.MER_SERVO_OFFSET_LOG_INTERVAL 0 l
    servoSample s (getS s Rg.MER_SERVO_OFFSET_OFFSET) l
  else s

/-- Operand: the upper word; the lower word of OFFSET is the register's. -/
def execMerServoOffsetWrite (hi : Nat) (s : State) : Host.Outcome State Fault Refusal :=
  .next (if domainOn s 5 then servoOffsetWrite s hi else s)

/-- No sample for 4 × 2^L s (R217). -/
def holdover (s : State) : State :=
  match s.mer.sampleAt with
  | none => s
  | some t =>
    if merSource s = sourceFree ∨ getB s Rg.MER_STATUS_HOLDOVER ∨ !domainOn s 5 ∨ s.now < t + 4 * logIntervalNs s.mer.sampleL then s
    else
      let s := setF (setF s Rg.MER_STATUS_HOLDOVER 0 1) Rg.MER_STATUS_LOCKED 0 0
      let s := { s with mer := { s.mer with lockRun := 0, unlockRun := 0 } }
      raiseEv (setAdj s s.mer.integ) Ev.MER_HOLDOVER

def execHoldoverTimeout (s : State) : Host.Outcome State Fault Refusal := .next (holdover s)

/-- A write of MER_CTRL: a new source clears lock and starts the wait for its first sample (R227, R229). -/
def merCtrlWrite (s : State) (v : Nat) : State :=
  let src := if 4 < v % 8 then 0 else v % 8
  let old := merSource s
  let s := setW s 0x02400000 (BitVec.ofNat 32 (v % 64 / 8 * 8 + src))
  let s := if ptpProfile s = 1 then setF s Rg.MER_CTRL_TWO_STEP 0 1 else s
  if old = src then s
  else
    let s := unlock s
    let s := { s with mer := { s.mer with stepRun := 0, sampleAt := some s.now, sampleL := servoLog s } }
    bmca s

/-! ### Pins (R224, R225) -/

def ppsPulseEnd (s : State) : State :=
  match s.mer.ppsEnd with
  | none => s
  | some t => if t ≤ s.now then { s with pins := { s.pins with ppsOut := false }, mer := { s.mer with ppsEnd := none } } else s

/-- The driver of PPS_OUT rises OUT_NS before the whole second plus OFFSET_NS, so that the edge crosses the ball then;
WIDTH_US 0 keeps it low. -/
def ppsOut (s : State) : State :=
  let s := ppsPulseEnd s
  let w := getF s Rg.MER_PPS_OUT_WIDTH_US
  if domainOn s 5 && getB s Rg.MER_CTRL_PPS_OUT_EN && w != 0 && atSecond s (getS s Rg.MER_PPS_OUT_OFFSET_NS - getF s Rg.MER_PIN_COMP_OUT_NS) then
    { s with pins := { s.pins with ppsOut := true }, mer := { s.mer with ppsEnd := some (s.now + w * usNs) } }
  else s

def execPpsOutPulse (s : State) : Host.Outcome State Fault Refusal := .next (ppsOut s)

/-- Distance of t from the nearest multiple of p, in ns; a tie counts from the one below. -/
def nearestDist (t p : Nat) : Int := if 2 * (t % p) ≤ p then (t % p : Nat) else (t % p : Nat) - (p : Nat)

/-- The sample a captured edge gives the servo (R214). -/
def edgeSample (s : State) (sync : Bool) (t : Nat) : State :=
  let p := getF s Rg.MER_SYNC_IN_PERIOD_NS
  if sync then
    if merSource s = sourceSync ∧ p ≠ 0 then servoSample s (16 * nearestDist t p) (servoLog s) else s
  else if merSource s = sourcePps then servoSample s (16 * nearestDist t 1000000000) 0 else s

/-- A captured edge, reduced by IN_NS: the servo's sample, then the queue of 32. -/
def captureEdge (s : State) (sync : Bool) : State :=
  let t := s.mer.sec * 1000000000 + s.mer.ns - getF s Rg.MER_PIN_COMP_IN_NS
  let s := edgeSample s sync t
  if 32 ≤ s.mer.captures.length then raiseEv s Ev.MER_CAPTURE_OVERFLOW
  else { s with mer := { s.mer with captures := s.mer.captures ++ [⟨t % 2 ^ 32, sync⟩] } }

/-- Operands: SYNC_IN (else PPS_IN), and a falling edge. -/
def execPinEdgeCapture (sync falling : Bool) (s : State) : Host.Outcome State Fault Refusal :=
  .next (if domainOn s 5 && falling == (sync && getB s Rg.MER_SYNC_IN_FALLING) then captureEdge s sync else s)

/-- What MER_CAPTURE reads: the head entry, or VALID 0. -/
def captureView (s : State) : Nat :=
  match s.mer.captures with
  | [] => 0
  | c :: _ => c.mst + c.sync.toNat * 2 ^ 32 + 2 ^ 63

def captureDrop (s : State) : State := { s with mer := { s.mer with captures := s.mer.captures.drop 1 } }

/-- A read of the upper word answers it and pops the entry. -/
def capturePop (s : State) : State := captureDrop (emit s (.readData 0x02400064 (captureView s / 2 ^ 32)))

def execMerCapturePop (s : State) : Host.Outcome State Fault Refusal := .next (if domainOn s 5 then capturePop s else s)

/-! ### Reset of PD05 (R203, R227) -/

/-- The real-time clock in 1/32,768 s (R378). -/
def rtcUnits (s : State) : Nat := s.pwr.rtcBase + (s.now - s.pwr.rtcAt) * 32768 / 1000000000

/-- MER leaves reset: the clock at the real-time clock's seconds, every register at reset, triggers disarmed; the schedule
stops and the launches that wait on Meridian end TIME_PAST. -/
def resetMeridian (s : State) : State :=
  let s := stopSchedule s
  let holds := s.sht.holds.filter fun h => !h.issued
  let s := foldS holds (fun s h =>
    completeId { s with sht := { s.sht with holds := s.sht.holds.filter (·.cmd != h.cmd) } } h.cmd St.timePast) s
  let ports := s.ports.map fun p => (p.1, { p.2 with slot := p.2.slot.filter fun l => l.trigger.isSome, idle := none })
  let s := { resetRegs s 0x02400000 0x02800000 with ports := ports }
  { s with mer := { Mer.init with sec := rtcUnits s / 32768, tsBad := s.mer.tsBad }
           pins := { s.pins with syncOut := [false, false, false, false], ppsOut := false } }

end Sys2Proof.Machine
end

