-- ==== Sys2Proof/Machine/Ptp.lean ====
section
/-!
DEFINITION. The PTP engine of the Compass (R206 to R212, R228; formulas and layouts of IEEE 1588-2019, log 16): messages
received, path delay and offsets, and the messages sent at the Sync, Announce and delay-request intervals.
-/

namespace Sys2Proof.Machine

/-! ### Violations (R228) -/

/-- A message dropped under R228. -/
def ptpDrop (s : State) : State := addF s Rg.MER_PTP_STATUS_INVALID

def ptpInvalid (s : State) (p : Nat) : State := raiseEv s Ev.MER_PTP_INVALID p

/-- MER_PTP_INVALID at most once per second. -/
def ptpInvalidOnce (s : State) (p : Nat) : State :=
  if oncePerSecond s s.mer.ptpInvalidAt then ptpInvalid { s with mer := { s.mer with ptpInvalidAt := some s.now } } p else s

/-- Bytes that a message type needs; none for an unknown type. -/
def ptpNeeds (t : Nat) : Option Nat :=
  if t = 0 ∨ t = 1 ∨ t = 8 ∨ t = 12 then some 44
  else if t = 2 ∨ t = 3 ∨ t = 9 ∨ t = 10 then some 54
  else if t = 11 then some 64
  else if t = 13 then some 48
  else none

def ptpWellFormed (m : List Byte) : Bool :=
  match ptpNeeds (mType m) with
  | none => false
  | some n => mVersion m == 2 && decide (n ≤ mLength m) && decide (mLength m ≤ m.length)

/-- Transport, sdoId and domain of the selected profile (R209). -/
def ptpInProfile (s : State) (b m : List Byte) : Bool :=
  (ptpProfile s != 1 || etherType b == 0x88F7) && mSdo m == (if ptpProfile s = 1 then 1 else 0) &&
  mDomain m == getF s Rg.MER_PTP_CTRL_DOMAIN

def portIdentity (s : State) (p : Nat) : Nat := clockIdentity s * 65536 + (p + 1)
def portAsym (s : State) (p : Nat) : Int := getS s Rg.MER_PORT_ASYM_ASYM p

/-! ### Path delay and offset (R206, R212) -/

/-- A mean path delay in 1/16 ns is averaged in with weight 1/8; negative or above 1 ms is discarded. The first one calibrates
a slave port. -/
def delaySample (s : State) (p : Nat) (x : Int) : State :=
  if x < 0 ∨ 16000000 < x then ptpInvalid s p
  else
    let v := if getB s Rg.MER_PTP_MPD_VALID p then (7 * getF s Rg.MER_PTP_MPD_DELAY p + x.toNat) / 8 else x.toNat
    let s := setF (setF s Rg.MER_PTP_MPD_DELAY p v) Rg.MER_PTP_MPD_VALID p 1
    if ptpState s p = ptpUncalibrated then setF s Rg.MER_PTP_PORT_STATE p ptpSlave else s

/-- A master-to-slave difference on the slave port: kept for the delay, and its offset goes to the servo. -/
def offsetSample (s : State) (p : Nat) (ms : Int) : State :=
  let s := setPtp s p { getPtp s p with ms := some ms, sync := none }
  if (getPtp s p).multi || !getB s Rg.MER_PTP_MPD_VALID p || merSource s != sourcePtp then s
  else servoSample s (ms - getF s Rg.MER_PTP_MPD_DELAY p) (ptpLogSync s)

/-- The message comes from the master the slave port follows. -/
def fromMaster (s : State) (p : Nat) (m : List Byte) : Bool :=
  onSlave s p && match (getPtp s p).best with
  | none => false
  | some a => a.source == mSource m

def takeSync (s : State) (p : Nat) (m : List Byte) (t2 : Int) : State :=
  if !fromMaster s p m then s
  else
    let corr := mCorr16 m + portAsym s p
    if mTwoStep m then setPtp s p { getPtp s p with sync := some (mSeq m, fullTime s t2, corr, s.now) }
    else offsetSample s p (fullTime s t2 - mTime m 34 - corr)

/-- A Follow_Up: late or of another sequenceId, it discards its Sync. -/
def takeFollowUp (s : State) (p : Nat) (m : List Byte) : State :=
  if !fromMaster s p m then s
  else
    match (getPtp s p).sync with
    | none => s
    | some (seq, t2, corr, at_) =>
      if seq != mSeq m || decide (at_ + logIntervalNs (ptpLogSync s) < s.now) then setPtp s p { getPtp s p with sync := none }
      else offsetSample s p (t2 - mTime m 34 - corr - mCorr16 m)

def takeDelayResp (s : State) (p : Nat) (m : List Byte) : State :=
  let x := getPtp s p
  match x.req, x.ms with
  | some (seq, t3), some ms =>
    if seq != mSeq m || beAt m 44 10 != portIdentity s p || !fromMaster s p m || ptpPeerDelay s then s
    else delaySample (setPtp s p { x with req := none }) p ((ms + (mTime m 34 - fullTime s t3 - mCorr16 m)) / 2)
  | _, _ => s

/-- A Pdelay_Resp: a second responder makes an 802.1AS port not asCapable. -/
def takePdelayResp (s : State) (p : Nat) (m : List Byte) (t4 : Int) : State :=
  let x := getPtp s p
  match x.req with
  | none => s
  | some (seq, t1) =>
    if seq != mSeq m || beAt m 44 10 != portIdentity s p then s
    else if ptpProfile s = 1 ∧ x.responder.isSome ∧ x.responder ≠ some (mSource m) then
      ptpInvalid (setPtp s p { x with responder := some 0, multi := true, presp := none }) p
    else
      let corr := mCorr16 m + portAsym s p
      let x := { x with responder := some (mSource m) }
      if mTwoStep m then setPtp s p { x with presp := some (seq, mSource m, fullTime s t4 - fullTime s t1 - corr, mTime m 34) }
      else
        let s := setPtp s p x
        if x.multi then s else delaySample s p ((fullTime s t4 - fullTime s t1 - corr) / 2)

def takePdelayFollowUp (s : State) (p : Nat) (m : List Byte) : State :=
  let x := getPtp s p
  match x.presp with
  | none => s
  | some (seq, who, d, t2) =>
    if seq != mSeq m || who != mSource m || beAt m 44 10 != portIdentity s p then s
    else
      let s := setPtp s p { x with presp := none }
      if x.multi then s else delaySample s p ((d - (mTime m 34 - t2) - mCorr16 m) / 2)

/-! ### Answers (R207, R213) -/

/-- A master port answers a Delay_Req, in its transport. -/
def answerDelayReq (s : State) (p : Nat) (m : List Byte) (t4 : Int) (udp : Bool) : State :=
  if ptpState s p != ptpMaster || ptpPeerDelay s then s
  else
    let t := fullTime s t4
    sendPtp s p (ptpHeader s p msgDelayResp 54 0 (mSeq m) (mCorr m - t % 16 * 4096) (ptpLogSync s) ++ timeBytes t ++
      beBytes 10 (mSource m)) .plain udp

/-- A Pdelay_Req is answered in two steps, in its transport. -/
def answerPdelayReq (s : State) (p : Nat) (m : List Byte) (t2 : Int) (udp : Bool) : State :=
  let t := fullTime s t2
  sendPtp s p (ptpHeader s p msgPdelayResp 54 2 (mSeq m) (mCorr m - t % 16 * 4096) 127 ++ timeBytes t ++
    beBytes 10 (mSource m)) .ptp udp

/-! ### Announce (R210) -/

def announceOf (s : State) (m : List Byte) : Announce :=
  { prio1 := beAt m 47 1, clockClass := beAt m 48 1, accuracy := beAt m 49 1, variance := beAt m 50 2, prio2 := beAt m 52 1,
    gmId := beAt m 53 8, steps := beAt m 61 2, source := mSource m, at_ := s.now }

/-- An Announce replaces the port's best if it is from the same master, better, or the old one has lapsed. One that R228
ignores raises MER_PTP_INVALID and is not counted. -/
def takeAnnounce (s : State) (p : Nat) (m : List Byte) : State :=
  let a := announceOf s m
  if 255 ≤ a.steps ∨ a.source / 65536 = clockIdentity s then ptpInvalid s p
  else
    let x := getPtp s p
    let better := match x.best with
      | none => true
      | some b => b.source == a.source || !announceFresh s b || lexLess (announceKey a p) (announceKey b p)
    if better then bmca (setPtp s p { x with best := some a }) else s

/-! ### PTP_MESSAGE_RECEIVE -/

/-- A message accepted on a port, with its ingress stamp. -/
def ptpMessage (s : State) (p : Nat) (m : List Byte) (t : Int) (udp : Bool) : State :=
  let k := mType m
  if k = msgAnnounce then takeAnnounce s p m
  else if k = msgFollowUp then takeFollowUp s p m
  else if k = msgDelayResp then takeDelayResp s p m
  else if k = msgPdelayFollowUp then takePdelayFollowUp s p m
  else if !stampsValid s p then s
  else if k = msgSync then takeSync s p m t
  else if k = msgDelayReq then answerDelayReq s p m t udp
  else if k = msgPdelayReq then answerPdelayReq s p m t udp
  else if k = msgPdelayResp then takePdelayResp s p m t
  else s

/-- Messages of the port in this second. -/
def ptpCount (s : State) (p : Nat) : State :=
  let x := getPtp s p
  let sec := s.now / secNs
  setPtp (ptpSecondRoll s) p (if x.second = sec then { x with count := x.count + 1 } else { x with second := sec, count := 1 })

/-- A message that the Compass processes in this second (R212). -/
def ptpTaken (s : State) (isReq : Bool) : State :=
  { s with mer := { s.mer with ptpIn := s.mer.ptpIn + 1, ptpReqIn := s.mer.ptpReqIn + isReq.toNat } }

def ptpReceive (s : State) (p : Nat) (b : List Byte) (t : Int) : State :=
  match ptpAt b with
  | none => s
  | some o =>
    let m := b.drop o
    let s := ptpCount s p
    let isReq := mType m == msgDelayReq && ptpState s p == ptpMaster
    if 1024 < (getPtp s p).count then ptpInvalidOnce (ptpDrop s) p
    else if !ptpAdmits isReq s.mer.ptpIn s.mer.ptpReqIn then ptpOverload s
    else
      let s := ptpTaken s isReq
      if !ptpWellFormed m then ptpInvalidOnce (ptpDrop s) p
      else if !ptpInProfile s b m then ptpDrop s
      else if portRole s p = 0 then s
      else ptpMessage s p m t (ptpOverUdp b)

/-- Operands: the port, the frame, and its stamp at the MAC/PCS boundary in 1/16 ns, which the ingress correction moves to the
MDI (R205). -/
def execPtpMessageReceive (p : Nat) (b : List Byte) (stamp : Int) (s : State) : Host.Outcome State Fault Refusal :=
  .next (if p < 128 ∧ ptpRuns s = true then ptpReceive s p b (stamp - getF s Rg.MER_TS_CORR_INGRESS (portRate s p)) else s)

/-! ### Messages sent at intervals (R207, R210, R212) -/

def ptpSeq (s : State) (p : Nat) : Nat × State :=
  let x := getPtp s p
  (x.seq, setPtp s p { x with seq := (x.seq + 1) % 65536 })

def masterPort (s : State) (p : Nat) : Bool := decide (p < 128) && ptpRuns s && portUp s p && ptpState s p == ptpMaster

/-- A master port's Sync: two-step with its flag, or one-step with its origin time written as it leaves. -/
def ptpSync (s : State) (p : Nat) : State :=
  if masterPort s p then
    let (n, s) := ptpSeq s p
    sendPtp s p (ptpHeader s p msgSync 44 (if ptpTwoStep s then 2 else 0) n 0 (ptpLogSync s) ++ zeros 10) .ptp (portOverUdp s p)
  else s

def execPtpSyncInterval (p : Nat) (s : State) : Host.Outcome State Fault Refusal := .next (ptpSync s p)

/-- The data set announced: the parent's of a boundary clock, else the device's own. -/
def announcedKey (s : State) : List Nat × Nat :=
  let own := (ownKey s, 0)
  if getB s Rg.MER_STATUS_SLAVE_VALID then
    match (getPtp s (getF s Rg.MER_STATUS_SLAVE_PORT)).best with
    | none => own
    | some a => (announceKey a 0, getF s Rg.MER_STATUS_STEPS_REMOVED)
  else own

def announceBody (s : State) : List Byte :=
  let (k, steps) := announcedKey s
  let g (i : Nat) : Nat := k.getD i 0
  zeros 10 ++ beBytes 2 (Config.ptpUtcOffset % 65536) ++ zeros 1 ++ beBytes 1 (g 0) ++ beBytes 1 (g 1) ++ beBytes 1 (g 2) ++
  beBytes 2 (g 3) ++ beBytes 1 (g 4) ++ beBytes 8 (g 5) ++ beBytes 2 steps ++ beBytes 1 (Config.ptpTimeSource % 256)

/-- A master port's Announce; its flags say that the time is on the PTP timescale. The algorithm runs again first. -/
def ptpAnnounce (s : State) (p : Nat) : State :=
  let s := if ptpRuns s then bmca s else s
  if masterPort s p then
    let (n, s) := ptpSeq s p
    sendPtp s p (patch (ptpHeader s p msgAnnounce 64 0 n 0 (ptpLogAnnounce s)) 7 (beBytes 1 8) ++ announceBody s) .plain (portOverUdp s p)
  else s

def execPtpAnnounceInterval (p : Nat) (s : State) : Host.Outcome State Fault Refusal := .next (ptpAnnounce s p)

/-- Delay_Req from an end-to-end slave; Pdelay_Req from a peer-to-peer port or a master that measures its peer. -/
def ptpDelayReq (s : State) (p : Nat) : State :=
  if p < 128 ∧ ptpRuns s = true ∧ portUp s p ∧ (ptpState s p = ptpMaster ∨ onSlave s p = true) then
    let (n, s) := ptpSeq s p
    let x := getPtp s p
    let single := match x.responder with
      | none => false
      | some r => r != 0
    let s := setPtp s p { x with req := none, presp := none, responder := none, multi := x.multi && !single }
    let corr := -(portAsym s p * 4096)
    if onSlave s p = true ∧ !ptpPeerDelay s then
      sendPtp s p (ptpHeader s p msgDelayReq 44 0 n corr 127 ++ zeros 10) .ptp (portOverUdp s p)
    else sendPtp s p (ptpHeader s p msgPdelayReq 54 0 n corr 127 ++ zeros 20) .ptp (portOverUdp s p)
  else s

def execPtpDelayReqInterval (p : Nat) (s : State) : Host.Outcome State Fault Refusal := .next (ptpDelayReq s p)

end Sys2Proof.Machine
end

