-- ==== Sys2Proof/Machine/PowerCfg.lean ====
section
/-!
DEFINITION. Power configuration: the users and policies of domains (R367) and WATCH_CONFIG (R382).
-/

namespace Sys2Proof.Machine

/-! ### Users of domains (R28, R367) -/

def laneEnabled (s : State) (l : Nat) : Bool := s.ports.any fun q => portEnabled s q.1 && (bondLanes q.1 q.2.cfg).contains l
def anyLane (s : State) (lo n : Nat) : Bool := (rangeFrom lo n).any (laneEnabled s)
def anyStream (s : State) : Bool := s.scr.streams.any fun x => streamOpenNow x.2
def anyContour (s : State) : Bool := s.prj.gzt.any fun e => gEnabled e.2 && gContour e.2
def anyView (s : State) : Bool := s.prj.views.any fun v => viewOn v.2.applied
def flashBusy (s : State) : Bool := !s.sec.jobs.isEmpty || s.sec.select.isSome

/-- The first lane and the lanes of a port-die domain. -/
def domainLanes (d : Nat) : Nat × Nat :=
  if 42 ≤ d ∧ d ≤ 57 then (4 * (d - 42), 4)
  else if d = 58 then (0, 32)
  else if d = 59 then (32, 32)
  else if d = 60 then (0, 64)
  else if 61 ≤ d ∧ d ≤ 76 then (64 + 4 * (d - 61), 4)
  else if d = 77 then (64, 32)
  else if d = 78 then (96, 32)
  else if d = 79 then (64, 64)
  else if d = 41 then (0, 128)
  else (0, 0)

/-- A domain has a user. -/
def domainUsed (s : State) (d : Nat) : Bool :=
  if d = 2 then flashBusy s || s.hif.cmds.any fun c => (commandDomains c.entry).contains 2
  else if 6 ≤ d ∧ d ≤ 29 then bit (getF s Rg.SCR_CORE_ENABLE_ENABLE) (d - 6) && (anyStream s || anyContour s)
  else if d = 30 then anyStream s || anyContour s
  else if 31 ≤ d ∧ d ≤ 34 then anyView s
  else if d = 35 then anyView s || s.bg.pass.isSome
  else if 41 ≤ d then anyLane s (domainLanes d).1 (domainLanes d).2
  else d = 0 || getF s Rg.PWR_STATE_STATE = 0

/-- Policies: 0 ON, 1 AUTO, 2 OFF, and those a domain accepts (R367). -/
def policyAllowed (d p : Nat) : Bool :=
  let auto := [2, 30, 35, 41, 60, 79].contains d
  let off := (decide (6 ≤ d) && decide (d ≤ 29)) || (decide (31 ≤ d) && decide (d ≤ 34)) || (decide (42 ≤ d) && decide (d ≤ 59)) ||
    (decide (61 ≤ d) && decide (d ≤ 78))
  p == 0 || (p == 1 && (auto || off)) || (p == 2 && off)

/-! ### WATCH_CONFIG (R382) -/

def startWatchConfig (_ : State) (e : List Byte) : Begin :=
  let n := leAt e 20 4
  checked [(eAddr e + eLen e ≤ 2 ^ 64, 8), (eLen e % 16 == 0 && decide (eLen e ≤ 128), 16), (decide (1 ≤ n) && decide (n ≤ 60000), 20)]
    (if eLen e = 0 then .run else .read (eAddr e) (eLen e) none)

/-- The first bad field of a comparator record; KIND 0 has no effect. -/
def badComparator (r : List Byte) : Option Nat :=
  let k := leAt r 0 1
  if k = 0 then none
  else
    let top := if k = 1 then 31 else if k = 2 then 11 else if k = 3 then 127 else 255
    firstBad [(k ≤ 4, 0), (leAt r 1 1 ≤ top, 1), (leAt r 2 1 ≤ 1, 2), (decide (1 ≤ leAt r 3 1) && decide (leAt r 3 1 ≤ 15), 3),
      (leAt r 6 1 ≤ 1, 6)]

def runWatchConfig (s : State) (c : Cmd) (d : List Byte) : State :=
  match badRecord 16 badComparator (d.length / 16) 0 d with
  | some k => complain s c k
  | none =>
    let e := c.entry
    let rs := records 16 (d.length / 16) d
    let s := setF (setF s Rg.PWR_WATCH_CFG_PERIOD_MS 0 (leAt e 20 4)) Rg.PWR_WATCH_CFG_COMPARATORS 0 rs.length
    let s := setF s Rg.PWR_WAKE_EN_ENABLE 0 (leAt e 24 1)
    let s := foldS (List.range 8) (fun s i => setF s Rg.PWR_WATCH_CMP_RECORD i (leAt (rs.getD i []) 0 8)) s
    complete s c (if d.isEmpty then St.okZero else St.ok)

def execWatchConfig (q : Nat) (s : State) : Host.Outcome State Fault Refusal :=
  .next (ringRow Op.watchConfig anyEntry startWatchConfig runWatchConfig q s)

end Sys2Proof.Machine
end

