-- ==== Sys2Proof/Machine/Editions.lean ====
section
/-!
DEFINITION. Editions (R393 to R400): the image and its checks, the configuration it stands for, what differs from the present
one, and its application as the commands of R394.
-/

namespace Sys2Proof.Machine

/-! ### Security state that images are checked against (R389, R399) -/

/-- The lifecycle state in force: 0 MANUFACTURE, 1 DEBUG, 2 DEPLOYED, 3 RETIRED (triplicated word 0, log 23). -/
def lifecycle (s : State) : Nat := getTmr s 0 % 4

/-- The root public key stands in the running firmware's image (R390); its hash is in OTP. -/
def imageRootKey (img : List Byte) : List Byte := (img.drop 64).take 64
def rootKey (s : State) : List Byte :=
  match s.sec.slot with
  | none => []
  | some n => imageRootKey (s.sec.flash.fw.get n [])

def digestBytes (b : List Byte) : List Byte := beBytes 32 (Config.sm3 b)

/-- A signature of 64 bytes over a message by a key (R388). -/
def signedBy (key msg sig : List Byte) : Bool := key.length == 64 && sig.length == 64 && Config.sm2Verify key msg sig

def authFail (s : State) : State := raiseEv (addF s Rg.SEC_STATUS_AUTH_FAILS) Ev.SEC_AUTH_FAIL

/-- The endorsement of an owner key record by the root key (R402). -/
def ownerRecordOk (s : State) (r : List Byte) : Bool :=
  r.length == 192 && leAt r 0 4 == 0x4B4E574F && leAt r 4 2 == 1 && signedBy (rootKey s) (r.take 128) (r.drop 128)

def ownerKey (r : List Byte) : List Byte := (r.drop 16).take 64

/-! ### The image (R393) -/

def edSerial (img : List Byte) : Nat := leAt img 12 4
def edSigned (img : List Byte) : Bool := bit (leAt img 20 1) 0
def edBar4 (img : List Byte) : Bool := bit (leAt img 20 1) 1
def edCount (img : List Byte) : Nat := leAt img 21 1
/-- Where the digest stands. -/
def edEnd (img : List Byte) : Nat := img.length - if edSigned img then 96 else 32

def edDirEntry (img : List Byte) (i : Nat) : List Byte := (img.drop (64 + 16 * i)).take 16
def edDir (img : List Byte) : List (List Byte) := (List.range (edCount img)).map (edDirEntry img)
def dId (r : List Byte) : Nat := leAt r 0 1
def dOffset (r : List Byte) : Nat := leAt r 4 4
def dLen (r : List Byte) : Nat := leAt r 8 4
def dBody (img r : List Byte) : List Byte := (img.drop (dOffset r)).take (dLen r)

def edSection (img : List Byte) (id : Nat) : Option (List Byte) := ((edDir img).find? fun r => dId r == id).map (dBody img)

def rising : List Nat → Bool
  | a :: b :: t => decide (a < b) && rising (b :: t)
  | _ => true

def edHeaderOk (img : List Byte) : Bool :=
  decide (544 ≤ img.length) && decide (img.length ≤ 0x200000) && leAt img 0 4 == 0x4E544445 && leAt img 4 2 == 1 &&
  leAt img 6 2 == 512 && leAt img 8 4 == img.length && decide (edCount img ≤ 28) && decide (512 ≤ edEnd img)

def edDirOk (img : List Byte) : Bool :=
  rising ((edDir img).map dId) && (edDir img).all fun r =>
    decide (1 ≤ dId r) && decide (dId r ≤ 14) && dOffset r % 64 == 0 && decide (512 ≤ dOffset r) && decide (dOffset r + dLen r ≤ edEnd img)

/-- The first section whose CRC does not match. -/
def edBadCrc (img : List Byte) : Option Nat := ((edDir img).find? fun r => crc32c (dBody img r) != leAt r 12 4).map dId

/-- Not well formed: the ID of the first failing section, 0 for the header. -/
def edBadFormat (img : List Byte) : Option Nat :=
  if !edHeaderOk img || !edDirOk img then some 0
  else match edBadCrc img with
    | some n => some n
    | none =>
      if (img.drop (edEnd img)).take 32 != digestBytes (img.take (edEnd img)) then some 0
      else if (edSection img 1).isSome && !edSigned img then some 1
      else none

def fwVersion (s : State) : Nat := (regW s 0x00000010).toNat
def edTooNew (s : State) (img : List Byte) : Bool := decide (fwVersion s < leAt img 16 4)

/-- R400: the owner's endorsement, the bound owner, the edition's signature. -/
def edSignatureOk (s : State) (img : List Byte) : Bool :=
  match edSection img 1 with
  | none => false
  | some r =>
    ownerRecordOk s r && (s.sec.otp.ownerHash == zeros 32 || s.sec.otp.ownerHash == digestBytes (ownerKey r)) &&
    signedBy (ownerKey r) (img.take (edEnd img + 32)) (img.drop (edEnd img + 32))

/-- Codes of TOP_EDITION_STATUS.FALLBACK. -/
def fbEmpty : Nat := 1
def fbFormat : Nat := 2
def fbSignature : Nat := 3
def fbPolicy : Nat := 4
def fbFirmware : Nat := 5
def fbContent : Nat := 6

/-- Whether the signature policy of the lifecycle state is met (R399, R400): none, or why not. -/
def edPolicy (s : State) (img : List Byte) : Option Nat :=
  if lifecycle s = 3 then some fbPolicy
  else if edSigned img then (if edSignatureOk s img then none else some fbSignature)
  else if lifecycle s ≤ 1 ∨ bit s.sec.otp.policy 0 = true then none
  else some fbPolicy

/-! ### Sections as commands (R394, log 23) -/

/-- A command that a section stands for. -/
structure EdCmd where
  op : Nat
  entry : List Byte
  data : List Byte
deriving DecidableEq, Repr

def edCmd (op target : Nat) (tail data : List Byte) : EdCmd :=
  ⟨op, patch (leBytes 1 op ++ zeros 3 ++ leBytes 4 target ++ zeros 8 ++ leBytes 4 data.length ++ zeros 44) 20 tail, data⟩

def edViews : Nat → Nat → List Byte → Option (List EdCmd)
  | 0, _, b => if b.isEmpty then some [] else none
  | f + 1, v, b =>
    if b.isEmpty then some []
    else if b.length < 2064 then none
    else (edViews f (v + 1) (b.drop 2064)).map fun l =>
      edCmd Op.layerSet v [0] ((b.drop 16).take 2048) :: edCmd Op.viewCommit v (b.take 16) [] :: l

def edGazetteer (b : List Byte) : Option (List EdCmd) :=
  if b.length = 393216 then some [edCmd Op.gazetteerUpdate 0 [] (b.take 262144), edCmd Op.sheetCalSet 0 [] (b.drop 262144)]
  else none

def edPorts : Nat → List Byte → Option (List EdCmd)
  | 0, b => if b.isEmpty then some [] else none
  | f + 1, b =>
    if b.isEmpty then some []
    else if b.length < 45 ∨ leAt b 1 1 ≠ 1 then none
    else (edPorts f (b.drop 45)).map fun l => edCmd Op.portConfig (leAt b 0 1) ((b.drop 1).take 44) [] :: l

def edTable (t : Nat) (b : List Byte) : Option (List EdCmd) := some [edCmd Op.tableUpdate 0 [BitVec.ofNat 8 t, 0] b]

def edGates : Nat → List Byte → Option (List EdCmd)
  | 0, b => if b.isEmpty then some [] else none
  | f + 1, b =>
    let n := 8 * leAt b 1 2
    if b.isEmpty then some []
    else if b.length < 21 + n then none
    else (edGates f (b.drop (21 + n))).map fun l => edCmd Op.gateListSet (leAt b 0 1) ((b.drop 3).take 18) ((b.drop 21).take n) :: l

def edMeters : Nat → List Byte → Option (List EdCmd)
  | 0, b => if b.isEmpty then some [] else none
  | f + 1, b =>
    let n := 4 * leAt b 18 2
    if b.isEmpty then some []
    else if b.length < 20 + n then none
    else (edMeters f (b.drop (20 + n))).map fun l => edCmd Op.meterSet (leAt b 0 2) ((b.drop 2).take 16) ((b.drop 20).take n) :: l

def edShapers : Nat → List Byte → Option (List EdCmd)
  | 0, b => if b.isEmpty then some [] else none
  | f + 1, b =>
    if b.isEmpty then some []
    else if b.length < 11 then none
    else (edShapers f (b.drop 11)).map fun l => edCmd Op.shaperSet (leAt b 0 1) ((b.drop 1).take 10) [] :: l

def edMirrors : Nat → Nat → List Byte → Option (List EdCmd)
  | 0, _, b => if b.isEmpty then some [] else none
  | f + 1, i, b =>
    if b.isEmpty then some []
    else if b.length < 8 then none
    else (edMirrors f (i + 1) (b.drop 8)).map fun l => edCmd Op.mirrorSet i (b.take 8) [] :: l

def edWatch (b : List Byte) : Option (List EdCmd) :=
  if b.length < 5 then none else some [edCmd Op.watchConfig 0 (b.take 5) (b.drop 5)]

/-- The commands of a section. -/
def edCommands (id : Nat) (b : List Byte) : Option (List EdCmd) :=
  if id = 4 then edViews 8 0 b
  else if id = 5 then edGazetteer b
  else if id = 6 then edPorts 128 b
  else if id = 7 then edTable 0 b
  else if id = 8 then edTable 1 b
  else if id = 9 then edTable 2 b
  else if id = 10 then edGates 128 b
  else if id = 11 then edMeters 4096 b
  else if id = 12 then edShapers 1040 b
  else if id = 13 then edMirrors 4 0 b
  else if id = 14 then edWatch b
  else some []

def edStart (op : Nat) : State → List Byte → Begin :=
  if op = Op.layerSet then startLayerSet
  else if op = Op.viewCommit then startViewCommit
  else if op = Op.gazetteerUpdate then startTable 64
  else if op = Op.sheetCalSet then startTable 32
  else if op = Op.portConfig then startPortConfig
  else if op = Op.tableUpdate then startTableUpdate
  else if op = Op.gateListSet then startGateListSet
  else if op = Op.meterSet then startMeterSet
  else if op = Op.shaperSet then startShaperSet
  else if op = Op.mirrorSet then startMirrorSet
  else startWatchConfig

def edRun (op : Nat) : State → Cmd → List Byte → State :=
  if op = Op.layerSet then runLayerSet
  else if op = Op.viewCommit then runViewCommit
  else if op = Op.gazetteerUpdate then runGazetteerUpdate
  else if op = Op.sheetCalSet then runSheetCalSet
  else if op = Op.portConfig then runPortConfig
  else if op = Op.tableUpdate then runTableUpdate
  else if op = Op.gateListSet then runGateListSet
  else if op = Op.meterSet then runMeterSet
  else if op = Op.shaperSet then runShaperSet
  else if op = Op.mirrorSet then runMirrorSet
  else runWatchConfig

/-- Start a command of the edition itself: no ring holds it and its completion goes nowhere. -/
def edRegister (s : State) (sq : Nat) (discard : Bool) (x : EdCmd) : Cmd × State :=
  let c : Cmd := ⟨s.hif.cmdSeq, sq, 0, x.entry, 0, 0, none, [], true, false, false, discard⟩
  (c, { s with hif := { s.hif with cmds := s.hif.cmds ++ [c], cmdSeq := s.hif.cmdSeq + 1 } })

/-! ### REGISTERS and POOLS (R394) -/

/-- The words with fields whose reset is Edition, and the mask of those fields. -/
def edWords : List (Nat × Nat) :=
  [(0x02000018, 0xFFFFFFFF), (0x0200001C, 0xFFFF), (0x02400000, 7), (0x02400068, 0xFFFF03), (0x01008090, 3), (0x00408004, 2)] ++
  ((List.range 128).map fun p => (0x02400400 + 4 * p, 3)) ++ (List.range 80).map fun d => (0x00801000 + 4 * d, 3)

def edMask (off : Nat) : Nat := ((edWords.find? (·.1 == off)).map (·.2)).getD 0

/-- A pair names only Edition fields, with a value its field allows. -/
def edPairOk (off v : Nat) : Bool :=
  let m := edMask off
  m != 0 && v &&& m == v &&
  (!(decide (0x00801000 ≤ off) && decide (off < 0x00801140)) || policyAllowed ((off - 0x00801000) / 4) (v % 4))

def edPairs (b : List Byte) : List (Nat × Nat) := (records 8 (b.length / 8) b).map fun r => (leAt r 0 4, leAt r 4 4)

def edRegistersOk (b : List Byte) : Bool := b.length % 8 == 0 && (edPairs b).all fun p => edPairOk p.1 p.2

/-- The Edition fields of a word take a value. -/
def edWriteWord (s : State) (off v : Nat) : State :=
  let w := (regW s off).toNat
  setW s off (BitVec.ofNat 32 (w - (w &&& edMask off) + (v &&& edMask off)))

/-- A write of MER_PTP_CTRL: PROFILE 3 stores 0; the intervals are clipped to the profile's range; 802.1AS is two-step. -/
def ptpCtrlWrite (s : State) (v : Nat) : State :=
  let v := v % 2 ^ 24
  let v := if v % 4 = 3 then v - 3 else v
  let s := setW s 0x02400068 (BitVec.ofNat 32 (v / 256 * 256 + v % 4))
  let ls := ptpLogSync s
  let la := ptpLogAnnounce s
  let s := setS (setS s Rg.MER_PTP_CTRL_LOG_SYNC 0 ls) Rg.MER_PTP_CTRL_LOG_ANNOUNCE 0 la
  let s := if ptpProfile s = 1 then setF s Rg.MER_CTRL_TWO_STEP 0 1 else s
  bmca s

/-- A write of MER_PTP_PORT: the role and the transparent clock. -/
def ptpPortWrite (s : State) (p v : Nat) : State :=
  bmca (setF (setF s Rg.MER_PTP_PORT_ROLE p (v % 4)) Rg.MER_PTP_PORT_TC p (v / 4))

/-- The Edition fields of a word written on the running device, with what the register does on a write. -/
def edApplyWord (s : State) (off v : Nat) : State :=
  let w := (regW s off).toNat
  let x := w - (w &&& edMask off) + (v &&& edMask off)
  if off = 0x02400000 then merCtrlWrite s x
  else if off = 0x02400068 then ptpCtrlWrite s x
  else if 0x02400400 ≤ off ∧ off < 0x02400600 then ptpPortWrite s ((off - 0x02400400) / 4) x
  else setW s off (BitVec.ofNat 32 x)

def edPoolsOk (b : List Byte) : Bool := b.length == 24 && decide (leAt b 22 1 ≤ 3) && decide (leAt b 23 1 ≤ 3)

/-- The pools and the orders that a POOLS body gives. -/
def edPools (s : State) (b : List Byte) : State :=
  let s := setF (setF s Rg.PRJ_POOL_BASE_BASE 0 (leAt b 0 8)) Rg.PRJ_POOL_SIZE 0 (leAt b 8 2)
  let s := setF (setF s Rg.SCR_POOL_BASE_BASE 0 (leAt b 12 8)) Rg.SCR_POOL_SIZE 0 (leAt b 20 2)
  setF (setF s Rg.MEM_MAP_ORDER_A 0 (leAt b 22 1)) Rg.MEM_MAP_ORDER_B 0 (leAt b 23 1)

/-! ### The configuration an image stands for -/

/-- The reset configuration, at the present time, with the link down so that completions stay where they can be read. -/
def blankDevice (s : State) : State :=
  setF { State.reset with now := s.now, mer := { Mer.init with sec := s.mer.sec, ns := s.mer.ns, frac := s.mer.frac } }
    Rg.HIF_CQ_CFG_ENABLE 0 1

/-- Run a command on a trial device; whether it passes its checks. -/
def edTry (s : State) (x : EdCmd) : State × Bool :=
  match edStart x.op s x.entry with
  | .finish st _ _ => (s, decide (st ≤ 1))
  | _ =>
    let r := edRegister s 0 false x
    let s := edRun x.op r.2 r.1 x.data
    let good := (getCq s 0).held.all fun c => decide (c.status ≤ 1)
    (setCq s 0 CqRing.init, good)

def edTryAll : List EdCmd → State → State × Bool
  | [], s => (s, true)
  | x :: t, s =>
    let r := edTry s x
    if r.2 then edTryAll t r.1 else (s, false)

/-- Sections in the order they are checked: PORTS before GAZETTEER, so that bonds are known (log 23). -/
def edOrder : List Nat := [4, 6, 5, 7, 8, 9, 10, 11, 12, 13, 14]

def edBuildSections (img : List Byte) : List Nat → State → State × Option Nat
  | [], s => (s, none)
  | id :: t, s =>
    match edSection img id with
    | none => edBuildSections img t s
    | some b =>
      match edCommands id b with
      | none => (s, some id)
      | some l =>
        let r := edTryAll l s
        if r.2 then edBuildSections img t r.1 else (s, some id)

/-- The device an image configures, and the first section that fails. -/
def edBuild (s : State) (img : List Byte) : State × Option Nat :=
  let d := blankDevice s
  let regs := (edSection img 2).getD []
  if !edRegistersOk regs then (d, some 2)
  else
    let d := foldS (edPairs regs) (fun d p => edWriteWord d p.1 p.2) d
    match edSection img 3 with
    | none => edBuildSections img edOrder d
    | some b => if edPoolsOk b then edBuildSections img edOrder (edPools d b) else (d, some 3)

/-- Why an image in flash may not be used, in the order of R395: FALLBACK code and section. -/
def edCheck (s : State) (img : List Byte) : Option (Nat × Nat) :=
  if img.isEmpty then some (fbEmpty, 0)
  else match edBadFormat img with
    | some n => some (fbFormat, n)
    | none =>
      if edTooNew s img then some (fbFirmware, 0)
      else match edPolicy s img with
        | some k => some (k, 0)
        | none => (edBuild s img).2.map fun n => (fbContent, n)

/-- The same for a command: what is not the signature comes first (R397). -/
def edCommandCheck (s : State) (img : List Byte) : Option (Nat × Nat) :=
  match edBadFormat img with
  | some n => some (fbFormat, n)
  | none =>
    if edTooNew s img then some (fbFirmware, 0)
    else match (edBuild s img).2 with
      | some n => some (fbContent, n)
      | none => (edPolicy s img).map fun k => (k, 0)

def isAuth (k : Nat) : Bool := k == fbSignature || k == fbPolicy

/-! ### What differs from the present configuration (R398) -/

def sameGates (a b : Option GateList) : Bool :=
  match a, b with
  | none, none => true
  | some x, some y => x.entries == y.entries && x.cycle == y.cycle && (x.cycle == 0 || x.start % x.cycle == y.start % y.cycle)
  | _, _ => false

def gateNow (s : State) (p : Nat) : Option GateList := if (getGateNext s p).isSome then getGateNext s p else getGate s p
def gatesDiffer (a b : State) (p : Nat) : Bool := !sameGates (gateNow a p) (gateNow b p)

def meterCfg (s : State) (m : Nat) : List Nat × List (Nat × Nat) :=
  let x := getMeter s m
  ([x.actYellow, x.actRed, x.cir, x.pir, x.cbs, x.pbs], x.bindings)
def metersUsed (a b : State) : List Nat := (a.tm.meters.map (·.1) ++ b.tm.meters.map (·.1)).eraseDups
def metersDiffer (a b : State) (m : Nat) : Bool := meterCfg a m != meterCfg b m

def shaperCfg (s : State) (k : Nat) : Bool × Nat × Nat :=
  let x := s.tm.shapers.get k Shaper.init
  (x.enabled, (x.next.getLast?.map (·.2)).getD x.rate, if x.enabled then x.burst else 0)
def shapersDiffer (a b : State) (k : Nat) : Bool := shaperCfg a k != shaperCfg b k

/-- A port's configuration; AN_EN ignores RATE. -/
def portCfg (s : State) (p : Nat) : List Byte :=
  let c := (getPort s p).cfg
  (if cfgAn c then patch c 21 [0] else c).drop 20
def portsDiffer (a b : State) (p : Nat) : Bool := portCfg a p != portCfg b p

def mirrorsDiffer (a b : State) (i : Nat) : Bool := mirrorOn a i != mirrorOn b i || getMirror a i != getMirror b i

/-- Two tables hold the same entries. -/
def sameEntries (a b : SMap (List Byte)) : Bool :=
  let x := a.map (·.2)
  let y := b.map (·.2)
  x.all y.contains && y.all x.contains

def watchCfg (s : State) : Nat := regsNat s 0x00800040 16 + 2 ^ 512 * (regsNat s 0x00800028 1 + 2 ^ 32 * getF s Rg.PWR_WAKE_EN_ENABLE)
def poolCfg (s : State) : List Nat :=
  [getF s Rg.PRJ_POOL_BASE_BASE, getF s Rg.PRJ_POOL_SIZE, getF s Rg.SCR_POOL_BASE_BASE, getF s Rg.SCR_POOL_SIZE]
def ordersDiffer (a b : State) : Bool :=
  getF a Rg.MEM_MAP_ORDER_A != getF b Rg.MEM_MAP_ORDER_A || getF a Rg.MEM_MAP_ORDER_B != getF b Rg.MEM_MAP_ORDER_B

def wordsDiffer (a b : State) (w : Nat × Nat) : Bool := (regW a w.1).toNat &&& w.2 != (regW b w.1).toNat &&& w.2

/-- Section id differs between the present device s and the device t that an image configures. -/
def sectionDiffers (s t : State) (id : Nat) : Bool :=
  if id = 2 then edWords.any (wordsDiffer s t)
  else if id = 3 then poolCfg s != poolCfg t || ordersDiffer s t
  else if id = 4 then (List.range 8).any fun v => (getView s v).applied != (getView t v).applied
  else if id = 5 then s.prj.gzt != t.prj.gzt || s.prj.cal != t.prj.cal
  else if id = 6 then (List.range 128).any (portsDiffer s t)
  else if id = 7 then !sameEntries s.sw.mac t.sw.mac
  else if id = 8 then s.sw.flow != t.sw.flow
  else if id = 9 then s.sw.mcast != t.sw.mcast
  else if id = 10 then (List.range 128).any (gatesDiffer s t)
  else if id = 11 then (metersUsed s t).any (metersDiffer s t)
  else if id = 12 then (List.range 1040).any (shapersDiffer s t)
  else if id = 13 then (List.range 4).any (mirrorsDiffer s t)
  else if id = 14 then watchCfg s != watchCfg t
  else false

def sectionsDiffering (s t : State) : List Nat := (rangeFrom 2 13).filter (sectionDiffers s t)

/-- The load limits of R44, R57, R154 and R190 over the resulting configuration (R398 step 3). -/
def edLoadOk (s t : State) : Bool :=
  let p : Plan := { entries := t.prj.gzt, views := (List.range 8).map fun v => (getView t v).applied, sched := (planOf s).sched }
  let c := { s with prj := { s.prj with gzt := t.prj.gzt, gztStaged := [], views := s.prj.views.map fun v =>
    (v.1, { v.2 with applied := (getView t v.1).applied, commits := [] }) } }
  let c := setF (setF c Rg.PRJ_POOL_SIZE 0 (getF t Rg.PRJ_POOL_SIZE)) Rg.SCR_POOL_SIZE 0 (getF t Rg.SCR_POOL_SIZE)
  pixelSumOk p && projectionFits c 0 && (loadCheck c p).isNone && admits c p 0 && scribeFits c p 0

/-! ### Application -/

/-- Run an edition's command on the device; its id. -/
def edDo (s : State) (x : EdCmd) : Nat × State :=
  let r := edRegister s 64 true x
  (r.1.id, edRun x.op r.2 r.1 x.data)

/-- Ids of the edition's commands that still wait. -/
def edAll (l : List EdCmd) (r : List Nat × State) : List Nat × State :=
  l.foldl (fun r x => let y := edDo r.2 x; (r.1 ++ [y.1], y.2)) r

/-- A view whose parameters differ, as LAYER_SET and VIEW_COMMIT. -/
def edViewCmds (p : ViewParams) (v : Nat) : List EdCmd :=
  let layer (d : List Byte) : List Byte := if d.isEmpty then zeros 128 else d
  let tail := leBytes 2 p.w ++ leBytes 2 p.h ++ leBytes 1 (p.through.toNat + 2 * p.encoding) ++ [0] ++ leBytes 2 p.bg.1 ++
    leBytes 2 p.bg.2.1 ++ leBytes 2 p.bg.2.2 ++ leBytes 2 p.peak ++ leBytes 2 p.white
  [edCmd Op.layerSet v [0] ((p.layers.map layer).flatten), edCmd Op.viewCommit v tail []]

/-- Stage the gazetteer entries and matrices that differ; they apply at their views' boundaries (R50, R52). -/
def edStageGazetteer (s t : State) (r : List Nat × State) : List Nat × State :=
  let ns := (s.prj.gzt.map (·.1) ++ t.prj.gzt.map (·.1)).eraseDups.filter fun n => gztEntry s n != gztEntry t n
  let cal (x : State) (n : Nat) : List Int := x.prj.cal.get n identityCal
  let cs := (s.prj.cal.map (·.1) ++ t.prj.cal.map (·.1)).eraseDups.filter fun n => cal s n != cal t n
  let r1 := if ns.isEmpty then r else
    let a := edRegister r.2 64 true (edCmd Op.gazetteerUpdate 0 [] [])
    let u : GztUpdate := ⟨a.1.id, ns.map fun n => (n, gztEntry t n), none, 0⟩
    (r.1 ++ [a.1.id], { a.2 with prj := { a.2.prj with gztStaged := a.2.prj.gztStaged ++ [u] } })
  let r2 := if cs.isEmpty then r1 else
    let a := edRegister r1.2 64 true (edCmd Op.sheetCalSet 0 [] [])
    let u : CalUpdate := ⟨a.1.id, cs.map fun n => (n, cal t n), none, mst s⟩
    (r1.1 ++ [a.1.id], { a.2 with prj := { a.2.prj with calStaged := a.2.prj.calStaged ++ [u] } })
  (r2.1, settleEdits (gztShow r2.2))

def edPortCmd (t : State) (p : Nat) : EdCmd :=
  let c := (getPort t p).cfg
  if c.isEmpty then edCmd Op.portConfig p [0] [] else edCmd Op.portConfig p (c.drop 20) []

/-- Disabled lanes first, so that a bond may move. -/
def edPortCmds (s t : State) : List EdCmd :=
  let ps := (List.range 128).filter (portsDiffer s t)
  ((ps.filter fun p => (getPort t p).cfg.isEmpty) ++ ps.filter fun p => !(getPort t p).cfg.isEmpty).map (edPortCmd t)

/-- A table takes the entries of its section in one update, with its fence. -/
def edTableCmd (t : State) (k : Nat) : EdCmd := edCmd Op.tableUpdate 0 [BitVec.ofNat 8 k, 3] (((getTable t k).map (·.2)).flatten)

/-- Gate lists of the image, and the removal of those it lacks. -/
def edGateCmds (s t : State) (img : List Byte) : List EdCmd :=
  let l := ((edSection img 10).bind (edCommands 10)).getD []
  let none_ (p : Nat) : EdCmd := edCmd Op.gateListSet p (zeros 12 ++ leBytes 4 1000 ++ zeros 2) []
  ((List.range 128).filter (gatesDiffer s t)).map fun p => (l.find? fun x => eTarget x.entry == p).getD (none_ p)

def edMeterCmds (s t : State) (img : List Byte) : List EdCmd :=
  let l := ((edSection img 11).bind (edCommands 11)).getD []
  let tail (x : EdCmd) : EdCmd :=
    if x.data.isEmpty then { x with entry := patch x.entry 20 [BitVec.ofNat 8 (leAt x.entry 20 1 ||| 2)] } else x
  ((metersUsed s t).filter (metersDiffer s t)).map fun m =>
    tail ((l.find? fun x => eTarget x.entry == m).getD (edCmd Op.meterSet m [2] []))

def edShaperCmds (s t : State) : List EdCmd :=
  ((List.range 1040).filter (shapersDiffer s t)).map fun k =>
    let x := t.tm.shapers.get k Shaper.init
    edCmd Op.shaperSet (k / 8) (leBytes 1 (k % 8) ++ [if x.enabled then 1 else 0] ++ zeros 2 ++ leBytes 4 x.rate ++ leBytes 2 x.burst) []

def edMirrorCmds (s t : State) : List EdCmd :=
  ((List.range 4).filter (mirrorsDiffer s t)).map fun i =>
    let x := getMirror t i
    edCmd Op.mirrorSet i (leBytes 1 x.kind ++ leBytes 1 x.flags ++ leBytes 2 x.source ++ leBytes 1 x.inset ++ [0] ++ leBytes 2 x.trunc) []

def edWatchCmd (t : State) : EdCmd :=
  let n := getF t Rg.PWR_WATCH_CFG_COMPARATORS
  edCmd Op.watchConfig 0 (leBytes 4 (getF t Rg.PWR_WATCH_CFG_PERIOD_MS) ++ leBytes 1 (getF t Rg.PWR_WAKE_EN_ENABLE))
    (((List.range n).map fun i => leBytes 8 (getF t Rg.PWR_WATCH_CMP_RECORD i) ++ zeros 8).flatten)

/-- Pending map order in triplicated word 6: bit 8 set, the orders in [12:9] (R329, R338, log 24). -/
def tmrEdition (active safe : Nat) (pending : Option (Nat × Nat)) : Nat :=
  active % 4 + 4 * (safe % 2) + match pending with
    | none => 0
    | some (a, b) => 256 + 512 * (a % 4) + 2048 * (b % 4)

/-- The pools are placed; an order that differs waits for the next start-up training (R329). -/
def edApplyPools (s t : State) : State :=
  let s := setF (setF s Rg.PRJ_POOL_BASE_BASE 0 (getF t Rg.PRJ_POOL_BASE_BASE)) Rg.PRJ_POOL_SIZE 0 (getF t Rg.PRJ_POOL_SIZE)
  let s := setF (setF s Rg.SCR_POOL_BASE_BASE 0 (getF t Rg.SCR_POOL_BASE_BASE)) Rg.SCR_POOL_SIZE 0 (getF t Rg.SCR_POOL_SIZE)
  setB s Rg.MEM_MAP_PENDING 0 (ordersDiffer s t)

/-- Apply one differing section; the ids of its commands are gathered. -/
def edApplySection (t : State) (img : List Byte) (r : List Nat × State) (id : Nat) : List Nat × State :=
  let s := r.2
  if id = 2 then (r.1, foldS (edWords.filter (wordsDiffer s t)) (fun s w => edApplyWord s w.1 (regW t w.1).toNat) s)
  else if id = 3 then (r.1, edApplyPools s t)
  else if id = 4 then
    edAll (((List.range 8).filter fun v => (getView s v).applied != (getView t v).applied).flatMap fun v =>
      edViewCmds (getView t v).applied v) r
  else if id = 5 then edStageGazetteer s t r
  else if id = 6 then edAll (edPortCmds s t) r
  else if id ≤ 9 then edAll [edTableCmd t (id - 7)] r
  else if id = 10 then edAll (edGateCmds s t img) r
  else if id = 11 then edAll (edMeterCmds s t img) r
  else if id = 12 then edAll (edShaperCmds s t) r
  else if id = 13 then edAll (edMirrorCmds s t) r
  else if id = 14 then edAll [edWatchCmd t] r
  else r

/-- Apply the sections of a list from an image: POOLS and PORTS before what depends on them. -/
def edApply (s : State) (img : List Byte) (ids : List Nat) : List Nat × State :=
  let t := (edBuild s img).1
  ([2, 3, 6, 4, 5, 7, 8, 9, 10, 11, 12, 13, 14].filter ids.contains).foldl (edApplySection t img) ([], s)

/-- The image becomes the active edition (R396, R412, triplicated word 6). -/
def edActivate (s : State) (slot : Nat) (img : List Byte) : State :=
  let t := (edBuild s img).1
  let pend := if ordersDiffer s t then some (getF t Rg.MEM_MAP_ORDER_A, getF t Rg.MEM_MAP_ORDER_B) else none
  let s := setF s Rg.TOP_EDITION_STATUS_ACTIVE 0 slot
  let s := setB s Rg.TOP_STATUS_UNSIGNED_EDITION 0 (!edSigned img)
  let s := writeTmr s 6 (tmrEdition slot 0 pend)
  { s with sec := { s.sec with edition := img } }

/-! ### The edition of start-up (R396) -/

def slotImage (s : State) (n : Nat) : List Byte := s.sec.flash.ed.get n []

/-- The pins at power-on and cold resets, the active edition of triplicated word 6 at warm and clock-loss resets. -/
def requestedEdition (s : State) : Nat := if s.clk.warmBoot then getTmr s 6 % 4 else s.pins.edition % 4

/-- The slot to apply (none: SAFE mode) and the FALLBACK code. -/
def startupChoice (s : State) : Option Nat × Nat :=
  let r := requestedEdition s
  match edCheck s (slotImage s r) with
  | none => (some r, 0)
  | some (k, _) =>
    if r = 0 then (none, k)
    else match edCheck s (slotImage s 0) with
      | none => (some 0, k)
      | some _ => (none, k)

/-- The POOLS body of the edition of start-up. -/
def startupPools (s : State) : List Byte :=
  match (startupChoice s).1 with
  | none => []
  | some n => (edSection (slotImage s n) 3).getD []

/-! ### What a domain gets back from the active edition when it leaves reset (R361, R368, R269) -/

def restoreEdition (s : State) (d : Nat) : State :=
  let img := s.sec.edition
  if img.isEmpty then s
  else
    let t := (edBuild s img).1
    let s := foldS (edWords.filter fun w => domainOf w.1 == d && d != 0) (fun s w => edWriteWord s w.1 (regW t w.1).toNat) s
    let s := if d = 35 then setF (setF s Rg.PRJ_POOL_BASE_BASE 0 (getF t Rg.PRJ_POOL_BASE_BASE)) Rg.PRJ_POOL_SIZE 0 (getF t Rg.PRJ_POOL_SIZE)
      else if d = 30 then setF (setF s Rg.SCR_POOL_BASE_BASE 0 (getF t Rg.SCR_POOL_BASE_BASE)) Rg.SCR_POOL_SIZE 0 (getF t Rg.SCR_POOL_SIZE)
      else s
    if d = 38 then ([10, 11, 12].foldl (edApplySection t img) ([], s)).2
    else if d = 5 then ptpCtrlWrite (merCtrlWrite s (regW s 0x02400000).toNat) (regW s 0x02400068).toNat
    else s

end Sys2Proof.Machine
end

