-- ==== Sys2Proof/Machine/Drain.lean ====
section
/-!
DEFINITION. Domains entering and leaving reset by the drain protocol (R15, R374): commands that depend on the domain, what its
unit loses, and what it gets back.
-/

namespace Sys2Proof.Machine

/-! ### The flash directory (R387) -/

/-- The copy with the higher sequence. -/
def dirOf (s : State) : Dir := if s.sec.flash.dirs.1.seq < s.sec.flash.dirs.2.seq then s.sec.flash.dirs.2 else s.sec.flash.dirs.1

/-- A change rewrites the copy with the lower sequence. -/
def putDir (s : State) (d : Dir) : State :=
  let c := s.sec.flash.dirs
  let n := { d with seq := ((dirOf s).seq + 1) % 2 ^ 32 }
  { s with sec := { s.sec with flash := { s.sec.flash with dirs := if c.1.seq < c.2.seq then (n, c.2) else (c.1, n) } } }

/-- A slot is marked empty; an edition slot's serial reads 0. -/
def emptySlot (s : State) (edition : Bool) (n : Nat) : State :=
  let d := dirOf s
  let f := s.sec.flash
  if edition then
    let s := { s with sec := { s.sec with flash := { f with ed := f.ed.set n [] [] } } }
    setF (putDir s { d with ed := d.ed.set n none none }) Rg.TOP_EDITION_SERIAL_SERIAL n 0
  else
    let s := { s with sec := { s.sec with flash := { f with fw := f.fw.set n [] [] } } }
    putDir s { d with fw := d.fw.set n none none }

/-! ### Commands that depend on a domain (R15, R296, R251, R269, R227) -/

/-- Whether a started command depends on a domain: the Compass and the memory carry every command, PD03 the transfers;
presentation commands outlive the loss of a lane, and end TIME_PAST, not here, when Meridian is lost. -/
def dependsOn (d : Nat) (c : Cmd) : Bool :=
  let ds := commandDomains c.entry
  if d = 1 ∨ d = 39 ∨ d = 40 then true
  else if d = 3 then decide (0 < c.left)
  else if d = 5 then ds.contains 5 && !c.past
  else if 31 ≤ d ∧ d ≤ 34 then ds.contains 35 && !ds.contains 5
  else ds.contains d

/-- A command held back for an edition goes on by itself. -/
def undefer (s : State) (p : Nat × List Byte) : State :=
  match findCmd s p.1 with
  | none => s
  | some c => putCmd s { c with past := false, data := p.2 }

/-- What a command of the security unit leaves when it ends early: a slot in programming is empty, and no selection is pending
(R411). -/
def dropSecurity (s : State) (live : Nat → Bool) : State :=
  let s := foldS (s.sec.jobs.filter fun j => !live j.cmd) (fun s j => emptySlot s j.edition j.slot) s
  match s.sec.select with
  | none => s
  | some x =>
    if live x.cmd then s
    else setF (foldS x.deferred (fun s p => undefer s p) { s with sec := { s.sec with select := none } }) Rg.TOP_EDITION_STATUS_SELECT_PENDING 0 0

/-- SW_EPOCH.FENCE_PENDING of the updates that wait (R253). -/
def fencesPending (l : List TableUpd) : Nat :=
  ((List.range 3).filter fun t => l.any fun u => u.table == t && u.since.isSome).foldl (fun n t => n + 2 ^ t) 0

/-- The records of commands that have ended are dropped wherever a unit keeps them. -/
def forgetEnded (s : State) : State :=
  let live (id : Nat) : Bool := (findCmd s id).isSome
  let s := dropSecurity s live
  let prj := { s.prj with
    gztStaged := s.prj.gztStaged.filter fun u => live u.cmd
    calStaged := s.prj.calStaged.filter fun u => live u.cmd
    surfaceWait := s.prj.surfaceWait.filter fun w => live w.1
    views := s.prj.views.map fun v => (v.1, { v.2 with commits := v.2.commits.filter fun k => live k.cmd }) }
  let keep {α : Type} (f : α → Bool) (m : SMap (Option α)) : SMap (Option α) := m.filter fun p => (p.2.map f).getD false
  let sht := { s.sht with
    waits := s.sht.waits.filter fun w => live w.cmd
    holds := s.sht.holds.filter fun h => live h.cmd
    rollcalls := keep (fun r : RollCall => (r.cmd.map live).getD true) s.sht.rollcalls
    pushes := keep (fun p : Push => live p.cmd) s.sht.pushes }
  let scr := { s.scr with streams := s.scr.streams.map fun x =>
    (x.1, { x.2 with waits := x.2.waits.filter fun w => live w.1 }) }
  let sec := { s.sec with
    jobs := s.sec.jobs.filter fun j => live j.cmd
    select := s.sec.select.bind fun x => if live x.cmd then some x else none }
  let enc := s.enc.map fun e => (e.1, { e.2 with captures := e.2.captures.filter fun k => live k.cmd })
  let ports := s.ports.map fun p => (p.1, { p.2 with measure := p.2.measure.filter live })
  let tm := { s.tm with shapers := s.tm.shapers.map fun x => (x.1, { x.2 with next := x.2.next.filter fun n => live n.1 }) }
  let sw := { s.sw with updates := s.sw.updates.filter fun u => live u.cmd }
  let s := setF s Rg.SW_EPOCH_FENCE_PENDING 0 (fencesPending sw.updates)
  gztShow { s with prj := prj, sht := sht, scr := scr, sec := sec, enc := enc, ports := ports, tm := tm, sw := sw
                   bg := { s.bg with doseWait := s.bg.doseWait.filter live } }

/-- Step 4 of the drain: the commands that depend on a domain complete BLOCK_RESET. -/
def endDependents (s : State) (d : Nat) : State :=
  let l := s.hif.cmds.filter (dependsOn d)
  if l.isEmpty then s else forgetEnded (foldS l (fun s c => finishStop (complete s c St.blockReset) c.sq) s)

/-! ### Lanes (R14, R27, R248, R251) -/

/-- Enabled ports that use a lane of a range. -/
def portsOn (s : State) (r : Nat × Nat) : List Nat :=
  (s.ports.filter fun q => portEnabled s q.1 && (bondLanes q.1 q.2.cfg).any fun l => decide (r.1 ≤ l) && decide (l < r.1 + r.2)).map (·.1)

/-- Ports go down and are flushed; measurements that wait end BLOCK_RESET. -/
def dropPorts (s : State) (r : Nat × Nat) : State :=
  foldS (portsOn s r) (fun s p => flushPort (setPortState (dropMeasure (takeDown s p) p St.blockReset) p prtWaitLock) p) s

/-- Lanes are brought up again from their PORT_CONFIG state. -/
def raisePorts (s : State) (r : Nat × Nat) : State := foldS (portsOn s r) bringUp s

/-- Registers of the lanes of a quad at their reset values, but for what their ports' configuration gives them again. -/
def resetQuadRegs (s : State) (lane : Nat) : State :=
  let base := 0x02800000 + lane / 64 * 0x200000 + lane % 64 * 0x1000
  let ps := portsOn s (lane, 4)
  foldS ps (fun s p =>
    let x := getPort s p
    let s := setPortState (showConfig (markBond s p x.cfg true) p x.cfg) p prtWaitLock
    setPort s p { x with snr := 0 }) (resetRegs s base (base + 0x4000))

/-! ### What a unit loses (R59, R89, R150, R167, R168, R203, R251, R269, R296, R343, R361, R411, R427) -/

/-- Compositions in progress are abandoned: composition uses every lane (R32). -/
def abandonCompositions (s : State) : State :=
  let vs := s.prj.views.map fun v => (v.1, { v.2 with composing := none, backDone := false })
  { s with prj := { s.prj with views := vs } }

/-- A lane's dither generator starts from its seed. -/
def seedDither (s : State) (l : Nat) : State := { s with prj := { s.prj with lfsr := s.prj.lfsr.set l (l + 1) (l + 1) } }

/-- A projection lane: the Contour pictures it feeds close early, its raw pictures end. -/
def resetLane (s : State) (l : Nat) : State :=
  let s := foldS (s.prj.sheets.map (·.1)) (fun s n =>
    match headPic s n with
    | none => s
    | some p =>
      if gLane p.entry != l then s
      else if gContour p.entry then closeEarly s n
      else setPics s n ((s.prj.sheets.get n []).filter fun q => gContour q.entry || gLane q.entry != l)) s
  abandonCompositions (seedDither s l)

/-- PD35: views, sheets and the records of chains are lost, the schedule stops; dose maps stay in HBM, and a gain pass
runs again. -/
def resetProjection (s : State) : State :=
  let s := stopSchedule s
  let s := foldS (List.range 24) (fun s c =>
    match (getCore s c).job with
    | some (true, _) => freeCore s c
    | _ => s) s
  let k := s.prj
  let s := resetRegs s 0x01C00000 0x02400000
  { s with prj := { Prj.init with dose := k.dose, doseSize := k.doseSize, gain := k.gain, lfsr := k.lfsr }
           sht := { Sht.init with reqSeq := s.sht.reqSeq }
           enc := []
           scr := { s.scr with readySheets := [], closing := [] } }

/-- PD30: streams synchronise again; the array's registers, but for the cores' own, are reset. -/
def resetArray (s : State) : State :=
  let s := resetShared s
  let st := (List.range 24).map (coreState s)
  let s := resetRegs s 0x01800000 0x01C00000
  refreshLoads (foldS (List.range 24) (fun s c => setCoreState s c (st.getD c 0)) s)

/-- Every buffered frame is lost; tables are kept (R251). -/
def loseFrames (s : State) : State :=
  let s := foldS ((s.tm.queues.map fun q => q.1 / 8).eraseDups) flushPort s
  let ps : SMap Port := s.ports.map fun p => (p.1, { p.2 with slot := p.2.slot.filter fun l => l.trigger.isNone })
  { s with ports := ps, sw := { s.sw with bufs := [], used := [], shared := [] } }

/-- The first stage: its registers; mirror sessions end with SW_MIRROR. -/
def resetFirstStage (s : State) : State :=
  let s := resetRegs s 0x02C00000 0x03000000
  { s with sw := { s.sw with mirrors := [] } }

/-- The traffic manager: queued frames, shapers, meters and lists. -/
def resetTraffic (s : State) : State :=
  let s := foldS ((s.tm.queues.map fun q => q.1 / 8).eraseDups) flushPort s
  resetRegs { s with tm := Tm.init } 0x03000000 0x03400000

/-- A pool has bytes in a stack (R326). -/
def poolIn (base size k : Nat) : Bool := decide (base < (k + 1) * 0x600000000) && decide (k * 0x600000000 < base + size)

/-- What work in progress loses with a stack (R15): with the scribe pool in it streams conceal, with either pool sheet pictures close
with REPEAT_ROW, and with the projection pool presentation stops. -/
def loseMemory (s : State) (k : Nat) : State :=
  let scribe := poolIn (getF s Rg.SCR_POOL_BASE_BASE) (getF s Rg.SCR_POOL_SIZE * poolUnit) k
  let wall := poolIn (getF s Rg.PRJ_POOL_BASE_BASE) (getF s Rg.PRJ_POOL_SIZE * poolUnit) k
  let s := if scribe then foldS (s.scr.streams.map (·.1)) concludePicture s else s
  let s := if scribe || wall then foldS (s.enc.map (·.1)) closeEarly s else s
  if wall then abandonCompositions (stopSchedule s) else s

/-- A stack's retraining starts afresh; the temperature of its last training is kept. -/
def forgetHold (s : State) (k : Nat) : State :=
  let r := s.mem.retrain.get k Retrain.init
  { s with mem := { s.mem with retrain := s.mem.retrain.set k { Retrain.init with temp := r.temp } Retrain.init } }

/-- A stack's controllers: DRAM stays in self-refresh and keeps its contents; merge entries wait (R343). -/
def resetStack (s : State) (k : Nat) : State :=
  let s := forgetHold (loseMemory s k) k
  if k = 0 then
    setF (resetRegs s 0x01400008 0x01401000) Rg.MEM_BAR4_CTRL_IMPLEMENTED 0 (getF s Rg.MEM_BAR4_CTRL_IMPLEMENTED)
  else s

/-- The Compass: host patches and everything it has in progress; its registers. -/
def resetCompass (s : State) : State :=
  let s := { s with sec := { s.sec with hostPatches := none, pc := 0, stack := [], gap := 0 }
                    sht := { s.sht with rollcalls := [], pushes := [] }
                    pwr := { s.pwr with entry := none } }
  setF (resetRegs s 0x03800000 0x03C00000) Rg.PWR_STATE_ENTERING 0 0

/-- The host link drops with a reset of its PHY: no HIF_LINK_DOWN (R296). -/
def dropHostLink (s : State) : State :=
  { s with hif := { s.hif with linkUp := false, cmds := s.hif.cmds.map fun c => if 0 < c.left then { c with dmaFailed := true } else c } }

def unitReset (s : State) (d : Nat) : State :=
  if d = 1 then resetCompass s
  else if d = 2 then resetRegs s 0x03400000 0x03800000
  else if d = 4 then dropHostLink s
  else if d = 5 then resetMeridian s
  else if 6 ≤ d ∧ d ≤ 29 then resetCore s (d - 6)
  else if d = 30 then resetArray s
  else if 31 ≤ d ∧ d ≤ 34 then resetLane s (d - 31)
  else if d = 35 then resetProjection s
  else if d = 36 then resetFirstStage s
  else if d = 37 then loseFrames s
  else if d = 38 then resetTraffic s
  else if d = 39 ∨ d = 40 then resetStack s (d - 39)
  else if 41 ≤ d then
    let r := domainLanes d
    let s := dropPorts s r
    if d = 60 ∨ d = 79 then
      let die := if d = 60 then 0 else 1
      resetRegs s (0x02840000 + die * 0x200000) (0x02A00000 + die * 0x200000)
    else if (42 ≤ d ∧ d ≤ 57) ∨ (61 ≤ d ∧ d ≤ 76) then resetQuadRegs s r.1
    else s
  else s

/-! ### Entering and leaving reset -/

/-- Steps 1 to 5 of the drain: the fence closes, the stand-in responder answers, dependent commands end, the unit resets. -/
def enterReset (s : State) (d : Nat) : State := unitReset (setDomain (endDependents s d) d domReset) d

/-- Step 6: the unit is out of reset, with its Edition fields and lists from the active edition; lanes come up again, and the
Compass runs its firmware. -/
def leaveReset (s : State) (d : Nat) : State :=
  let s := restoreEdition (setDomain s d domOn) d
  if 6 ≤ d ∧ d ≤ 29 then setCoreState s (d - 6) coreIdle
  else if d = 5 then { s with mer := { s.mer with sec := rtcUnits s / 32768, ns := 0, frac := 0, sampleAt := some s.now, sampleL := servoLog s } }
  else if d = 1 then setB s Rg.CMP_STATUS_STATE 0 s.sec.slot.isSome
  else if 41 ≤ d then raisePorts s (domainLanes d)
  else s

end Sys2Proof.Machine
end

