-- ==== Sys2Proof/Machine/Hbm.lean ====
section
/-!
DEFINITION. Code words of the HBM with their check (R325 to R328, R335, R337), the merge buffers (R336), armed corruption
(R339), and the record a fault leaves (R309, R310).
-/

namespace Sys2Proof.Machine

/-! ### Location codes (R10, R11, R327) -/

def ascii (t : String) : List Byte := t.toList.map fun c => BitVec.ofNat 8 c.toNat

def hexDigit (n : Nat) : Byte := BitVec.ofNat 8 (if n % 16 < 10 then 48 + n % 16 else 55 + n % 16)
/-- n hexadecimal digits, most significant first. -/
def hexDigits (n v : Nat) : List Byte := ((List.range n).reverse).map fun i => hexDigit (v / 16 ^ i)
def decDigit (n : Nat) : Byte := BitVec.ofNat 8 (48 + n % 10)
def dec2 (n : Nat) : List Byte := [decDigit (n / 10), decDigit n]

/-- A location that cannot be placed on any die (R11). -/
def placeLoc (l : List Byte) : List Byte := if l.isEmpty then ascii "PKG" else l

/-- Zero-padded to its 64-byte field; at most 63 characters. -/
def padLoc (l : List Byte) : List Byte := let t := l.take 63; t ++ zeros (64 - t.length)

/-- A DRAM location: channel, pseudo-channel, SID, bank, row. -/
structure Dram where
  channel : Nat
  pc : Nat
  sid : Nat
  bank : Nat
  row : Nat
  column : Nat
deriving DecidableEq, Repr

/-- The mapping of a stack address by the stack's order (R328). -/
def mapAddress (order a : Nat) : Dram :=
  let ch := bits a 6 4
  let pc := bits a 5 1
  let sid := bits a 33 2
  if order = 0 then ⟨ch, pc, sid, bits a 15 4, bits a 19 14, bits a 10 5⟩
  else if order = 1 then ⟨ch, pc, sid, bits a 29 4, bits a 15 14, bits a 10 5⟩
  else if order = 2 then ⟨ch ^^^ bits a 19 4 ^^^ bits a 23 4, pc ^^^ bits a 14 1, sid, bits a 10 4, bits a 19 14, bits a 14 5⟩
  else ⟨ch ^^^ bits a 10 4, pc, sid, bits a 15 4, bits a 19 14, bits a 10 5⟩

/-- Code words of a stack. -/
def stackWords : Nat := 0x30000000
def wordStack (w : Nat) : Nat := if w < stackWords then 0 else 1
def mapOrder (s : State) (k : Nat) : Nat := if k = 0 then getF s Rg.MEM_MAP_ORDER_A else getF s Rg.MEM_MAP_ORDER_B

def hbmLocation (s : State) (w : Nat) : List Byte :=
  let k := wordStack w
  let d := mapAddress (mapOrder s k) ((w - k * stackWords) * 32)
  let v := d.sid * 2 ^ 18 + d.bank * 2 ^ 14 + d.row
  padLoc (ascii (if k = 0 then "HBMA.MEMORY.CH" else "HBMB.MEMORY.CH") ++ dec2 d.channel ++ ascii ".PC" ++ [decDigit d.pc] ++
    ascii ".0x" ++ hexDigits 1 (v / 65536) ++ ascii "_" ++ hexDigits 4 v)

/-! ### The record of a UC or FE (R309, R310) -/

/-- The location and the Meridian time of the first record (R310, R319). -/
def setFirst (s : State) (loc : List Byte) : State :=
  { s with ev := { s.ev with firstLoc := padLoc (placeLoc loc), firstMft := (s.mer.sec, s.mer.ns) } }

/-- The first record, unless one is held; it is also kept in triplicated words 11 and 12 (R338). -/
def firstRecord (s : State) (n : Nat) (loc : List Byte) : State :=
  if getB s Rg.FLT_FIRST_SRC_VALID then s
  else
    let cls := (sourceClass n).code
    let s := setF (setF s Rg.FLT_FIRST_SRC_SOURCE 0 n) Rg.FLT_FIRST_SRC_CLASS 0 cls
    let s := setF (setF s Rg.FLT_FIRST_SRC_VALID 0 1) Rg.FLT_FIRST_MST_MST 0 (mst s)
    let s := writeTmr (writeTmr s 11 (n + 4096 * cls)) 12 (mst s)
    setFirst s loc

/-- Sticky bit, first record, event log and delivery of a UC or FE. -/
def recordFault (s : State) (n param : Nat) (loc : List Byte) : State := firstRecord (faultRecord s n param 0) n loc

/-! ### Errors found by the codes (R335, R341) -/

def lastError (s : State) (w : Nat) (uc : Bool) : State :=
  let s := setF (setF s Rg.ECC_LAST_ADDR_ADDR 0 (w * 32)) Rg.ECC_LAST_ADDR_UC 0 uc.toNat
  setF (setF s Rg.ECC_LAST_ADDR_VALID 0 1) Rg.ECC_LAST_LOC_LOCATION 0 (leNat (hbmLocation s w))

/-- A CE source is raised at most once per millisecond per memory: 0 and 1 the stacks, 2 + m SRAM macro m. -/
def ceOnce (s : State) (key n : Nat) : State :=
  let ok := match s.mem.ceAt.get key none with
    | none => true
    | some t => decide (t + msNs ≤ s.now)
  if ok then raiseCe { s with mem := { s.mem with ceAt := s.mem.ceAt.set key (some s.now) none } } n else s

def hbmCe (s : State) (w : Nat) : State :=
  ceOnce (lastError (addT (addF s Rg.ECC_COUNT_HBM_CE) teleCe) w false) (wordStack w) Ev.ECC_CE_HBM

/-- Uncorrectable: no unit is reset (R300). -/
def hbmUc (s : State) (w : Nat) : State :=
  recordFault (lastError (addF s Rg.ECC_COUNT_HBM_UC) w true) Ev.ECC_UC_HBM 0 (hbmLocation s w)

def popCount (n w : Nat) : Nat := ((List.range w).filter (bit n)).length

/-- What SECDED makes of k flipped bits: 0 clean, 1 corrected, 2 uncorrectable; beyond two the code answers anything (log 5). -/
def secded (s : State) (k : Nat) : Nat × State :=
  if k ≤ 2 then (k, s) else ((Config.free (freshIndex s).1) % 3, (freshIndex s).2)

def getHbm (s : State) (w : Nat) : HbmWord := s.mem.hbm.get w HbmWord.init
def setHbm (s : State) (w : Nat) (x : HbmWord) : State := { s with mem := { s.mem with hbm := s.mem.hbm.set w x HbmWord.init } }

/-- The bits of a code word that SECDED covers: 256 of data, 10 check bits and the poison bit; the other 5 are 0. -/
def hbmFlips (x : HbmWord) : Nat := popCount x.flipData 64 + popCount x.flipCheck 11

/-- A corruption armed for memory target t strikes the word at 32-byte address a. -/
def flipStrikes (s : State) (t a : Nat) : Bool :=
  getB s Rg.ECC_FLIP_CTRL_ARM && getF s Rg.ECC_FLIP_CTRL_TARGET == t &&
  (getB s Rg.ECC_FLIP_CTRL_ANY || getF s Rg.ECC_FLIP_ADDR_VALUE / 32 == a)

def flipDone (s : State) : State := raiseEv (setB s Rg.ECC_FLIP_CTRL_ARM 0 false) Ev.ECC_FLIP_DONE

/-- A code word is written, and takes an armed flip after encoding. -/
def writeHbm (s : State) (w data : Nat) (poison : Bool) : State :=
  let d := data % 2 ^ 256
  if flipStrikes s (1 + wordStack w) w then
    flipDone (setHbm s w ⟨d, getF s Rg.ECC_FLIP_MASK_VALUE % 2 ^ 64, getF s Rg.ECC_FLIP_CHECK_VALUE % 2 ^ 16, poison⟩)
  else setHbm s w ⟨d, 0, 0, poison⟩

/-- A checked read: data, poisoned or not. A correctable word is written back; back: no write to the word is queued. -/
def readHbm (s : State) (w : Nat) (back : Bool) : Nat × Bool × State :=
  let x := getHbm s w
  let r := secded s (hbmFlips x)
  if r.1 = 1 then
    let s := hbmCe r.2 w
    (x.data, x.poison, if back then writeHbm s w x.data x.poison else s)
  else if r.1 = 2 then (x.data, true, hbmUc r.2 w)
  else (x.data, x.poison, r.2)

/-- A request at or above the end of the HBM, by its code word: ECC_UC_HBM; it names no location of a stack (R326). -/
def hbmOutside (s : State) (w : Nat) : State :=
  let s := setF (setF (addF s Rg.ECC_COUNT_HBM_UC) Rg.ECC_LAST_ADDR_ADDR 0 (w * 32)) Rg.ECC_LAST_ADDR_UC 0 1
  let s := setF (setF s Rg.ECC_LAST_ADDR_VALID 0 1) Rg.ECC_LAST_LOC_LOCATION 0 (leNat (padLoc (placeLoc [])))
  recordFault s Ev.ECC_UC_HBM 0 []

/-- The controller of a code word's channel is in reset, or held in it (R341). -/
def channelDown (s : State) (w : Nat) : Bool :=
  let k := wordStack w
  let u := 160 + 16 * k + (mapAddress (mapOrder s k) ((w - k * stackWords) * 32)).channel
  s.ev.reactions.any (·.unit == u) || s.ev.held.any (·.unit == u)

/-! ### Memory ports (R330, R331) -/

/-- Memory ports by their requesters. -/
def portWindow : Nat := 1
def portScrub : Nat := 14

/-- Urgency of a request that has waited e ns, against its port's target. -/
def urgency (target e : Nat) : Nat :=
  if 2 * e < target then 0 else if 4 * e < 3 * target then 1 else if e < target then 2 else 3

/-- A request of a memory port ends its wait: the longest wait is kept, and one of 4 targets is late; MEM_QOS_LATE is raised at
most once per millisecond. -/
def noteWait (s : State) (m ns : Nat) : State :=
  let s := setF s Rg.MEM_QOS_STAT_MAX_WAIT_100NS m (max (getF s Rg.MEM_QOS_STAT_MAX_WAIT_100NS m) (min 65535 (ns / 100)))
  if ns < 4 * getF s Rg.MEM_QOS_CFG_TARGET_NS m then s
  else
    let s := addF s Rg.MEM_QOS_STAT_LATE m
    let due := match s.mem.lateAt with
      | none => true
      | some t => decide (t + msNs ≤ s.now)
    if due then raiseEv { s with mem := { s.mem with lateAt := some s.now } } Ev.MEM_QOS_LATE else s

/-! ### Merge buffers (R336) -/

def getMerge (s : State) (k : Nat) : List MergeEntry := s.mem.merge.get k []
def setMerge (s : State) (k : Nat) (l : List MergeEntry) : State := { s with mem := { s.mem with merge := s.mem.merge.set k l [] } }

/-- Fill the bytes not written from the old word. -/
def mergeFill (e : MergeEntry) (old : Nat) (poison : Bool) : MergeEntry :=
  { e with filled := true, poison := e.poison || poison
           bytes := (List.range 32).foldl (fun m i => if (m.get i none).isSome then m else m.set i (some (old / 256 ^ i % 256)) none) e.bytes }

/-- Its 32 bytes are all covered by writes. -/
def mergeWhole (e : MergeEntry) : Bool := (List.range 32).all e.written.contains
def mergeData (e : MergeEntry) : Nat := (List.range 32).foldl (fun a i => a + (e.bytes.get i none).getD 0 * 256 ^ i) 0

/-- Write an entry to HBM; the old word is read first if it has not returned and bytes are missing. A poison that the old word or a
parity error left stays (R336, R337). -/
def writeEntry (s : State) (e : MergeEntry) : State :=
  if e.filled || mergeWhole e then writeHbm s e.word (mergeData e) e.poison
  else
    let r := readHbm s e.word false
    let x := mergeFill e r.1 r.2.1
    writeHbm r.2.2 e.word (mergeData x) x.poison

/-- Open entries are written before self-refresh (R343, R356, R376). -/
def flushMerge (s : State) : State :=
  foldS [0, 1] (fun s k => setMerge (foldS (getMerge s k) writeEntry s) k []) s

def setSelfRefresh (s : State) (on : Bool) : State :=
  { s with mem := { s.mem with selfRefresh := if on then [(0, true), (1, true)] else [] } }

end Sys2Proof.Machine
end

