-- ==== Sys2Proof/Machine/Host.lean ====
section
/-!
DEFINITION. The rows of 11_host_interface.md: doorbells, fetching, rings, DMA, vectors, resets of the function, link and
device power states, and the answers to accesses the function does not accept.
-/

namespace Sys2Proof.Machine

/-! ### Kicks, polls and sleep (R284, R285) -/

/-- A 4-byte write of BAR2: offset 0 of pages 0 to 63 kicks a ring; anything else, or a disabled ring, is discarded with
HIF_DOORBELL_INVALID (R284, R296). -/
def kick (s : State) (off : Nat) : State :=
  let q := off / 4096
  if off % 4096 = 0 ∧ q < 64 then
    if sqState s q = sqDisabled then raiseEv s Ev.HIF_DOORBELL_INVALID
    else if sqState s q = sqAsleep then pollRing (writeNeedsKick (setSqState s q sqAwake) q false) q false
    else s
  else raiseEv s Ev.HIF_DOORBELL_INVALID

def execSqDoorbellKick (off : Nat) (stores : List (Nat × List Byte)) (s : State) : Host.Outcome State Fault Refusal :=
  .next (kick (hostStores s stores) off)

/-- An awake engine polls; in D3hot rings fetch nothing (R294). -/
def execSqPoll (q : Nat) (stores : List (Nat × List Byte)) (fails : Bool) (s : State) : Host.Outcome State Fault Refusal :=
  let s := hostStores s stores
  .next (if sqState s q = sqAwake ∧ getF s Rg.HIF_STATUS_DSTATE = 0 then pollRing s q fails else s)

/-- The idle time has passed: NEEDS_KICK is written, the record is read again, and the engine sleeps unless SQ_TAIL moved;
stores are the host's writes that reach memory between the two (R284). -/
def execSqEngineSleep (q : Nat) (stores : List (Nat × List Byte)) (s : State) : Host.Outcome State Fault Refusal :=
  .next <|
    match (getSq s q).idleSince with
    | none => s
    | some t =>
      if sqState s q = sqAwake ∧ t + getF s Rg.HIF_CTRL_IDLE_US * usNs ≤ s.now then
        let s := hostStores (writeNeedsKick s q true) stores
        if sqTail s q = (getSq s q).head then setSqState s q sqAsleep
        else setSq (writeNeedsKick s q false) q { getSq s q with idleSince := none }
      else s

/-! ### NOP and DIAG ECHO (R286) -/

def startNop (_ : State) (_ : List Byte) : Begin := .run
def runNop (s : State) (c : Cmd) (_ : List Byte) : State := complete s c St.ok

def execNop (q : Nat) (s : State) : Host.Outcome State Fault Refusal := .next (ringRow Op.nop anyEntry startNop runNop q s)

/-- ECHO, and every sub-function no chapter defines. -/
def echoEntry (e : List Byte) : Bool := diagSub e == 0 || !diagSubs.contains (diagSub e)

def startEcho (_ : State) (e : List Byte) : Begin :=
  if diagSub e != 0 then invalid 20
  else if eLen e = 0 then .finish St.okZero 0 0
  else checked [(eAddr e + eLen e ≤ 2 ^ 64, 8), (eLen e ≤ 0x1000000, 16), (leAt e 24 8 + eLen e ≤ 2 ^ 64, 24)] (readBuffer e)

def runEcho (s : State) (c : Cmd) (d : List Byte) : State :=
  complete (hostWrite s (leAt c.entry 24 8) d) c St.ok d.length

def execDiagEcho (q : Nat) (s : State) : Host.Outcome State Fault Refusal := .next (ringRow Op.diag echoEntry startEcho runEcho q s)

/-! ### DMA (R289, R290, R297) -/

/-- The engine's descriptor ends; a command whose ring was stopped ends ABORTED with the bytes transferred (R290). -/
def descriptorDone (s : State) (e : Nat) : State :=
  match engineNext s e with
  | none => s
  | some ch =>
    match channelCmd s ch with
    | none => s
    | some c =>
      let c' := runDescriptor s c
      let s := { s with hif := { s.hif with rr := s.hif.rr.set e ch 63 } }
      let s := addF s Rg.HIF_DMA_ENGINE_DESCRIPTORS e
      let s := putCmd s c'
      if c.lastDesc then finishStop (complete (putCmd s { c' with left := 0, past := true }) c' St.aborted c'.data.length) c.sq else s

def execDmaDescriptorDone (e : Nat) (s : State) : Host.Outcome State Fault Refusal :=
  .next (if hostReachable s then descriptorDone s e else s)

/-- How a DMA read fails (R297). -/
def readFailed (s : State) (k : DmaError) : State :=
  match k with
  | .poisoned => raiseEv (addF s Rg.HIF_ERR_COUNT_POISONED) Ev.HIF_POISONED
  | .timeout => raiseEv (addF s Rg.HIF_ERR_COUNT_CPL_TIMEOUT) Ev.HIF_CPL_TIMEOUT
  | .urOrCa => raiseEv (addF s Rg.HIF_ERR_COUNT_CPL_TIMEOUT) Ev.HIF_CPL_TIMEOUT

/-- The DMA read of the engine's running descriptor fails: its command completes DATA_ERROR (R297). -/
def execDmaCompletionTimeout (e : Nat) (k : DmaError) (s : State) : Host.Outcome State Fault Refusal :=
  .next <|
    match (engineNext s e).bind (channelCmd s) with
    | none => s
    | some c => finishStop (complete (readFailed s k) c St.dataError) c.sq

/-! ### Held completions (R280) -/

/-- Write held completions while slots are free, then let those that wait in their commands follow. -/
def releaseHeld (s : State) (q : Nat) : Nat → State
  | 0 => s
  | n + 1 =>
    let r := getCq s q
    match r.held with
    | [] => s
    | c :: rest =>
      if cqFull s q || !hostReachable s then s
      else
        let held := match r.waiting with
          | [] => rest
          | w :: _ => rest ++ [w]
        releaseHeld (writeCompletion (setCq s q { r with held := held, waiting := r.waiting.drop 1 }) q c) q n

def releaseAll (s : State) (q : Nat) : State :=
  let r := getCq s q
  noteFull (releaseHeld (noteFull s q) q (r.held.length + r.waiting.length)) q

def execCqHeldRelease (q : Nat) (stores : List (Nat × List Byte)) (s : State) : Host.Outcome State Fault Refusal :=
  .next (if q < 64 then releaseAll (hostStores s stores) q else hostStores s stores)

/-! ### Moderation and masks (R292, R295) -/

def execVectorModerationTimeout (v : Nat) (s : State) : Host.Outcome State Fault Refusal :=
  .next <|
    match (getVec s v).timerAt with
    | none => s
    | some t => if t + getF s Rg.HIF_VEC_MOD_TIME_US v * usNs ≤ s.now then fireVector s v else s

/-- A mask write reaches the vector logic; unmasking sends a pending delivery (R292, R295). -/
def vectorMask (s : State) (v : Nat) (m : Bool) : State :=
  if v < 256 then
    let s := setVec s v { getVec s v with mask := m }
    if !m && (getVec s v).pend then sendVector s v else s
  else s

def execMsixVectorMask (v : Nat) (m : Bool) (s : State) : Host.Outcome State Fault Refusal := .next (vectorMask s v m)

/-! ### Rings set up and stopped (R275, R290) -/

def ringConfigError (s : State) : State := raiseEv s Ev.HIF_RING_CONFIG

/-- A write of ENABLE 1, STOP 0 to HIF_SQ_CTRL (R275, R290). -/
def sqEnable (s : State) (q : Nat) : State :=
  let st := sqState s q
  if st = sqAwake ∨ st = sqAsleep ∨ st = sqStopping then s
  else
    let dep := getF s Rg.HIF_SQ_CFG_DEPTH_EXP q
    let refused := ringConfigError (setF (setSqState (releaseChannel s q) q sqDisabled) Rg.HIF_SQ_CTRL_ENABLE q 0)
    if dep < 4 ∨ 16 < dep ∨ !getB s Rg.HIF_CQ_CFG_ENABLE (cqOf s q) then refused
    else
      match (if st = sqDisabled then takeChannel s q else some (getF s Rg.HIF_SQ_CTRL_CHANNEL q, s)) with
      | none => refused
      | some (ch, s) =>
        let s := setF (setF s Rg.HIF_SQ_CTRL_CHANNEL q ch) Rg.HIF_SQ_CTRL_ENABLE q 1
        setSqState (setSq s q SqRing.init) q sqAwake

/-- Stop a running ring (R290): unstarted commands end ABORTED; a started one with data to read ends after its running
descriptor, the others at once. -/
def sqStop (s : State) (q : Nat) (thenDisable : Bool) : State :=
  let st := sqState s q
  if st = sqAwake ∨ st = sqAsleep then
    let unstarted := (getSq s q).queue
    let s := setSq (setSqState s q sqStopping) q { getSq s q with queue := [], disableAfter := thenDisable }
    let run := (engineNext s (getF s Rg.HIF_DMA_CH_ENGINE (getF s Rg.HIF_SQ_CTRL_CHANNEL q))).bind (channelCmd s)
    let xfer := s.hif.cmds.filter fun c => c.sq == q && decide (0 < c.left)
    let s := foldS xfer (fun s c =>
      if run.map (·.id) = some c.id then putCmd s { c with lastDesc := true }
      else complete s c St.aborted c.data.length) s
    finishStop (foldS unstarted (fun s f => completeFetched s q f St.aborted) s) q
  else if st = sqStopping then setSq s q { getSq s q with disableAfter := (getSq s q).disableAfter || thenDisable }
  else if thenDisable && (st = sqStopped || st = sqError) then
    let s := setF (setSqState (releaseChannel s q) q sqDisabled) Rg.HIF_SQ_CTRL_ENABLE q 0
    setF (setSq s q SqRing.init) Rg.HIF_SQ_CTRL_CHANNEL q 0
  else s

/-- A write of HIF_SQ_CTRL: STOP has no effect on a STOPPED or DISABLED ring; ENABLE 0 stops, then disables. -/
def sqCtrlWrite (s : State) (q : Nat) (enable stop : Bool) : State :=
  if stop then
    if sqState s q = sqStopped ∨ sqState s q = sqDisabled then s else sqStop s q (!enable)
  else if enable then sqEnable s q
  else sqStop s q true

def execSqEnable (q : Nat) (s : State) : Host.Outcome State Fault Refusal :=
  .next (if q < 64 then sqCtrlWrite s q true false else s)
def execSqStop (q : Nat) (enable : Bool) (s : State) : Host.Outcome State Fault Refusal :=
  .next (if q < 64 then sqCtrlWrite s q enable true else s)
def execSqDisable (q : Nat) (s : State) : Host.Outcome State Fault Refusal :=
  .next (if q < 64 then sqCtrlWrite s q false false else s)

/-- Submission rings in use that name a completion ring. -/
def cqNamed (s : State) (q : Nat) : Bool :=
  (List.range 64).any fun n => getB s Rg.HIF_SQ_CTRL_ENABLE n && cqOf s n == q

/-- A write of HIF_CQ_CFG (R275): ignored while the ring is enabled, but for a disable no enabled ring forbids. -/
def cqCfgWrite (s : State) (q depth vector : Nat) (enable : Bool) : State :=
  if getB s Rg.HIF_CQ_CFG_ENABLE q then
    if enable then s
    else if cqNamed s q then ringConfigError s
    else setCq (setF s Rg.HIF_CQ_CFG_ENABLE q 0) q CqRing.init
  else
    let s := setF (setF s Rg.HIF_CQ_CFG_DEPTH_EXP q depth) Rg.HIF_CQ_CFG_VECTOR q vector
    if !enable then s
    else if depth % 32 < 4 ∨ 16 < depth % 32 then ringConfigError s
    else setCq (setF s Rg.HIF_CQ_CFG_ENABLE q 1) q CqRing.init

def execCqEnable (q depth vector : Nat) (s : State) : Host.Outcome State Fault Refusal :=
  .next (if q < 64 then cqCfgWrite s q depth vector true else s)
def execCqDisable (q : Nat) (s : State) : Host.Outcome State Fault Refusal :=
  .next (if q < 64 then
    cqCfgWrite s q (getF s Rg.HIF_CQ_CFG_DEPTH_EXP q) (getF s Rg.HIF_CQ_CFG_VECTOR q) false else s)

/-! ### Accesses the function does not accept (R22, R273, R297) -/

/-- An access to an offset no register occupies reads 0 or is ignored (R22). -/
def unmappedAccess (s : State) (off : Nat) (write : Bool) : State :=
  let s := if write then s else emit s (.readData off 0)
  let s := setF (setF s Rg.HIF_UNMAPPED_ADDR_OFFSET 0 off) Rg.HIF_UNMAPPED_ADDR_VALID 0 1
  raiseEv s Ev.HIF_BAR0_UNMAPPED (domainOf off) off

/-- Whether a BAR0 offset is occupied: a register, the MSI-X table or the pending-bit array (R272). -/
def occupied (off : Nat) : Bool :=
  (findReg regTable off).isSome || (0x00C10000 ≤ off && off < 0x00C11020)

def execBar0UnmappedAccess (off : Nat) (write : Bool) (s : State) : Host.Outcome State Fault Refusal :=
  .next (if occupied off then s else unmappedAccess s off write)

/-- AER logs an error (R297). -/
def logAer (s : State) (a : Aer) : State := { s with hif := { s.hif with aer := a } }

/-- R273 and R297: reads get an Unsupported Request, writes are discarded; the event of the violation is raised. -/
def barViolation (s : State) (k : BarViolation) (off : Nat) (write : Bool) : State :=
  let unsupported (s : State) : State := raiseEv (if write then s else emit s (.unsupported off)) Ev.HIF_BAR_ACCESS (domainOf off) off
  match k with
  | .size => unsupported (logAer s { s.hif.aer with unsupported := true })
  | .noBar => unsupported s
  | .poisonedWrite => raiseEv (addF (logAer s { s.hif.aer with poisoned := true }) Rg.HIF_ERR_COUNT_POISONED) Ev.HIF_POISONED
  | .malformed fatal => raiseEv (emit (logAer s { s.hif.aer with malformed := true }) (.pcieError fatal)) Ev.HIF_BAR_ACCESS 0 off
  | .unexpectedCompletion => logAer s { s.hif.aer with unexpected := true }

def execBarAccessInvalid (k : BarViolation) (off : Nat) (write : Bool) (s : State) : Host.Outcome State Fault Refusal :=
  .next (barViolation s k off write)

/-! ### Function Level Reset, hot reset, D3hot and the link (R274, R294, R296, R358) -/

/-- Read what a command in flight has left to read, so that it runs to its end. -/
def finishReads (s : State) (c : Cmd) : Nat → Cmd
  | 0 => c
  | n + 1 => if c.left = 0 then c else finishReads s (runDescriptor s c) n

/-- Host-visible state of the function (R274): rings, channels, vectors and moderation; completions discarded. -/
def functionReset (s : State) : State :=
  let s := { s with hif := { s.hif with
    cmds := s.hif.cmds.map fun c => { finishReads s c (c.left + 1) with discard := true, lastDesc := false }
    sq := [], cq := []
    vecs := (List.range 256).foldl (fun m v => m.set v { m.get v Vec.init with mask := true, timerAt := none } Vec.init) s.hif.vecs } }
  foldS (List.range 64) (fun s q =>
    let s := setSqState (setF s Rg.HIF_SQ_CTRL_ENABLE q 0) q sqDisabled
    let s := setF s Rg.HIF_SQ_CTRL_CHANNEL q 0
    let s := setF s Rg.HIF_CQ_CFG_ENABLE q 0
    setF s Rg.HIF_DMA_CH_OWNER q ownerFree)
   (foldS (List.range 256) (fun s v => setF s Rg.HIF_VEC_MOD_PENDING v 0) s)

/-- No survey buffer and no telemetry buffer is registered any more (R317, R424). -/
def dropBuffers (s : State) : State :=
  let s := { s with ev := { s.ev with surveyBuf := none }, bg := { s.bg with telemetry := none } }
  releaseChannel (setF (setF s Rg.FLT_SURVEY_ADDR_ADDR 0 0) Rg.FLT_SURVEY_SIZE_ARMED 0 0) ownerTelemetry

def execFunctionLevelReset (s : State) : Host.Outcome State Fault Refusal :=
  .next (raiseEv (dropBuffers (functionReset s)) Ev.RST_FLR)

/-- Entry to D3hot (R294): vectors with a count become PME requests. -/
def d3hot (s : State) : State :=
  let s := setF s Rg.HIF_STATUS_DSTATE 0 3
  foldS (List.range 256) (fun s v =>
    if getF s Rg.HIF_VEC_MOD_PENDING v = 0 then s
    else requestPme (setVec (setF s Rg.HIF_VEC_MOD_PENDING v 0) v { getVec s v with timerAt := none })) s

def execD3hotEntry (pmeEn : Bool) (s : State) : Host.Outcome State Fault Refusal :=
  .next (d3hot { s with hif := { s.hif with pmeEn := pmeEn } })

/-- The host can be reached again: held entries are written and pending deliveries sent (R294, R296). -/
def resumeDelivery (s : State) : State :=
  let s := foldS (List.range 64) (fun s q => if (getCq s q).held.isEmpty then s else releaseAll s q) s
  foldS (List.range 256) (fun s v => if (getVec s v).pend && !(getVec s v).mask then sendVector s v else s) s

def execD0Return (s : State) : Host.Outcome State Fault Refusal :=
  .next <|
    let s := setF s Rg.HIF_STATUS_DSTATE 0 0
    resumeDelivery { s with hif := { s.hif with pmeStatus := false }, pins := { s.pins with wakeN := true } }

/-- The link leaves L0 without a reset (R296): DMA requests fail, HIF_LINK_DOWN is raised and counted. -/
def linkDown (s : State) : State :=
  let s := exitL1 s
  let cs := s.hif.cmds.map fun c => if 0 < c.left then { c with dmaFailed := true } else c
  let s := { s with hif := { s.hif with linkUp := false, cmds := cs } }
  raiseEv (addF s Rg.HIF_STATUS_LINK_DOWNS) Ev.HIF_LINK_DOWN

/-- aspm: the link leaves L0 for L1 or one of its substates, which loses nothing (R271, R294). -/
def execPcieLinkDown (aspm : Bool) (s : State) : Host.Outcome State Fault Refusal :=
  .next (if !s.hif.linkUp then s else if aspm then setF s Rg.HIF_STATUS_L1 0 1 else linkDown s)

/-- The link is in L0 again with the negotiated speed and width; commands whose DMA failed complete DATA_ERROR (R296). -/
def linkReturn (s : State) (speed width : Nat) : State :=
  let s := setF (setF s Rg.HIF_STATUS_SPEED 0 speed) Rg.HIF_STATUS_WIDTH 0 width
  let s := { s with hif := { s.hif with linkUp := true } }
  let failed := s.hif.cmds.filter (·.dmaFailed)
  let s := resumeDelivery s
  foldS failed (fun s c => finishStop (complete s c St.dataError) c.sq) s

/-- The speeds and widths that the link trains to (R271). -/
def linkTrains (speed width : Nat) : Bool := decide (1 ≤ speed) && decide (speed ≤ 5) && [1, 2, 4, 8, 16].contains width

/-- From L1 the link comes back as it was. -/
def execPcieLinkReturn (speed width : Nat) (s : State) : Host.Outcome State Fault Refusal :=
  .next (if s.hif.linkUp then exitL1 s else if linkTrains speed width then linkReturn s speed width else s)

end Sys2Proof.Machine
end

