-- ==== Sys2Proof/Machine/Resets.lean ====
section
/-!
DEFINITION. Resets (R356 to R359, R361, R446): what each takes and keeps, T0 (R363), and the flash directory they touch (R387).
-/

namespace Sys2Proof.Machine

/-! ### Trials (R392) -/

/-- A reset during a running trial ends it (R392). -/
def endTrial (s : State) : State := if getB s Rg.TOP_STATUS_TRIAL then putDir s { dirOf s with trial := false } else s

/-! ### What the units lose -/

def kindColdPerst : Nat := 1
def kindColdSmbus : Nat := 2
def kindWarmPolicy : Nat := 3
def kindWarmSoftware : Nat := 4
def kindWarmSmbus : Nat := 5
def kindClockLoss : Nat := 6
def kindHot : Nat := 7

/-- Registers of PD00 that a cold reset keeps: those of the clocks, which are not started again (R364), RST_CAUSE, the wake record
and the alarm, the first record and the sticky bits (R358). -/
def keptCold (off : Nat) : Bool :=
  (decide (0x00400000 ≤ off) && decide (off < 0x00408004)) || (decide (0x00800010 ≤ off) && decide (off < 0x00800028)) ||
  (decide (0x01008088 ≤ off) && decide (off < 0x01008090)) || (decide (0x01008100 ≤ off) && decide (off < 0x01008180))

/-- Kept from the memory subsystem where HBM contents are: the orders in force (R329) and the delays saved in PD00 (R360). -/
def keptHbm (off : Nat) : Bool := off == 0x01400004 || (decide (0x01401000 ≤ off) && decide (off < 0x01401400))

/-- The state of the units in reset: the registers to keep, the dose maps and HBM where it keeps its data, and what has no reset
but power-on. -/
def clearUnits (s : State) (keep : Nat → Bool) (hbm : Bool) : State :=
  let k := s.prj
  let prj := if hbm then { Prj.init with dose := k.dose, doseSize := k.doseSize, gain := k.gain } else Prj.init
  let mem := { Mem.init with hbm := if hbm then s.mem.hbm else [], redundant := if hbm then s.mem.redundant else [], tmr := s.mem.tmr, ceAt := s.mem.ceAt }
  let sec := { Sec.init with otp := s.sec.otp, flash := s.sec.flash, smbOffset := s.sec.smbOffset }
  let bg := { Bg.init with faultBuf := s.bg.faultBuf, flushAt := s.bg.flushAt, passAt := s.bg.passAt, summaryAt := s.bg.summaryAt,
                           temps := s.bg.temps, rails := s.bg.rails, doseChanged := if hbm then s.bg.doseChanged else [] }
  { s with regs := s.regs.filter fun p => keep p.1
           prj := prj, mem := mem, sec := sec, bg := bg
           mer := { Mer.init with sec := rtcUnits s / 32768 }
           ports := [], sw := Sw.init, tm := Tm.init, sht := Sht.init, scr := Scr.init, enc := []
           pwr := { s.pwr with entry := none, committed := none, idleSince := [], held := [], waking := none, wakeFault := none }
           clk := { s.clk with relock := [], pllOff := [], domainWait := [], measAt := none, gated := [] }
           pins := { s.pins with syncOut := [false, false, false, false], ppsOut := false } }

/-- PD01 to PD79 lose everything but what keep names of the registers; hbm: the DRAM keeps its contents. -/
def resetUnits (s : State) (keep : Nat → Bool) (hbm : Bool) : State :=
  let trial := getB s Rg.TOP_STATUS_TRIAL
  let s := foldS s.sec.jobs (fun s j => emptySlot s j.edition j.slot) (endTrial s)
  let s := flushMerge s
  let s := clearUnits s keep hbm
  let s := foldS (List.range 80) (fun s d => setDomain s d domOn) s
  let s := setF (setF s Rg.PWR_STATE_STATE 0 0) Rg.PWR_STATE_ENTERING 0 0
  let s := setF (setF (setF s Rg.TOP_STATUS_SAFE 0 0) Rg.TOP_STATUS_RECOVERY 0 0) Rg.TOP_STATUS_TRIAL 0 0
  let s := setF s Rg.TOP_EDITION_STATUS_SELECT_PENDING 0 0
  let s := setF (setF s Rg.SNS_AGE_STATUS_RUNNING 0 0) Rg.SNS_AGE_STATUS_CURVES_VALID 0 0
  if trial then setF s Rg.SEC_FW_STATUS_REVERTED 0 1 else s

/-- RST_CAUSE, also in triplicated word 7 (R338, R366). -/
def noteCause (s : State) (kind : Nat) : State :=
  let s := addF (setF s Rg.RST_CAUSE_KIND 0 kind) Rg.RST_CAUSE_COUNT
  let s := if kind = kindHot then s else setF (setF s Rg.RST_CAUSE_HBM_KEPT 0 0) Rg.RST_CAUSE_HBM_LOST 0 0
  writeTmr s 7 (kind + 16 * getF s Rg.CLK_BOOT_STATUS_CODE)

/-- The RST_ event of a reset that has ended (R358, R364). -/
def resetEvent (kind : Nat) : Nat :=
  if kind ≤ kindColdSmbus then Ev.RST_PERST else if kind = kindClockLoss then Ev.RST_CLOCK_LOSS else Ev.RST_WARM

/-! ### Reactions at a reset of every domain (R310, R311) -/

/-- Every unit in reset leaves it: FLT_UNIT_RESTORED for each reaction; held units run again. -/
def endReactions (s : State) : State :=
  let l := s.ev.reactions
  let s := { s with ev := { s.ev with reactions := [], held := [], ucHist := [] } }
  let s := foldS l (fun s r => raiseEv s Ev.FLT_UNIT_RESTORED r.param) (setF s Rg.FLT_STATE_UNITS_HELD 0 0)
  if getF s Rg.FLT_STATE_STATE = 1 then setF s Rg.FLT_STATE_STATE 0 0 else s

/-- A survey that the reset cuts off fails (R318). -/
def dropSurvey (s : State) : State :=
  match s.ev.survey with
  | none => s
  | some _ => raiseEv (setF { s with ev := { s.ev with survey := none } } Rg.FLT_STATE_SURVEY 0 3) Ev.FLT_SURVEY_FAILED

/-- The device leaves FE: state NORMAL, or UC while a UC reaction runs; FAULT_N is released (R314). -/
def leaveFe (s : State) : State :=
  let s := { s with pins := { s.pins with faultN := true } }
  setF s Rg.FLT_STATE_STATE 0 (if s.ev.reactions.isEmpty then 0 else 1)

/-! ### T0 (R362, R363) -/

/-- T0: Meridian and the first domains are released, firmware loading starts, and the reset that ran has ended. -/
def reachT0 (s : State) : State :=
  let s := setF s Rg.RST_STATUS_PHASE 0 2
  let s := { s with clk := { s.clk with t0At := s.now }, mer := { Mer.init with sec := rtcUnits s / 32768 } }
  match s.clk.running with
  | none => s
  | some k => raiseEv { s with clk := { s.clk with running := none } } (resetEvent k)

/-- Clock start has ended: T0 waits for PERST_N (R363, R364). -/
def afterClocks (s : State) : State := if s.clk.perst then setF s Rg.RST_STATUS_PHASE 0 1 else reachT0 s

/-- Clock start runs again from the TRO judgment (R356, R362): every PLL is off. -/
def restartClocks (s : State) : State :=
  let s := foldS (List.range 6) (fun s n => setF s Rg.CLK_PLL_CFG_LOCKED n 0) (setF s Rg.CLK_STATUS_PLL_LOCKED 0 0)
  let s := setF (setF (setF s Rg.CLK_BOOT_STATUS_CODE 0 0) Rg.CLK_BOOT_STATUS_TRO_TRIES 0 0) Rg.CLK_STATUS_COAST 0 0
  { setF s Rg.RST_STATUS_PHASE 0 0 with clk := { s.clk with stage := .troJudge, troAt := s.now, xoAt := s.now } }

/-- Clocks run: clock start has ended, and the PLLs are not stopped by WATCH or DORMANT. -/
def clocksRun (s : State) : Bool := decide (s.clk.stage = .done) && decide (getF s Rg.PWR_STATE_STATE ≤ 2)

/-! ### The resets (R358) -/

/-- What a cold reset clears of PD00: the events but the lasting causes and the logs; the host interface; the pins. -/
def clearAlwaysOn (s : State) (kind : Nat) (faultN : Bool) : State :=
  let lasting := s.ev.levels.filter fun p => p.1 ≤ 8 || p.1 == Ev.SNS_RAIL_CRIT || p.1 == Ev.SNS_TEMP_CRIT
  let ev := { Ev.init with levels := lasting, log := s.ev.log, firstLoc := s.ev.firstLoc, firstMft := s.ev.firstMft,
                           surveySeq := s.ev.surveySeq, flashSurvey := s.ev.flashSurvey }
  { s with ev := ev, hif := Hif.init, pins := { s.pins with faultN := faultN, wakeN := true, qspiAt := s.now }
           clk := { s.clk with restore := false, warmBoot := false, surveyWait := false, running := some kind } }

/-- Cold reset: PD00 too, but for what R358 keeps; the host link and its configuration space are lost. -/
def coldReset (s : State) (kind : Nat) : State :=
  let clocks := clocksRun s
  let inHold := decide (s.clk.stage = .hold)
  let leave := inHold && kind == kindColdPerst && getF s Rg.CLK_BOOT_STATUS_CODE == 3
  let hold := (inHold && !leave) || (decide (s.clk.stage ≠ .done) && kind == kindColdSmbus)
  let s := resetUnits s keptCold false
  let s := if leave then causeEnds s Ev.CLK_TRO_FAIL else s
  let s := clearAlwaysOn s kind (!(inHold && !leave))
  let s := noteCause s kind
  if hold then setF s Rg.RST_STATUS_PHASE 0 (if inHold then 9 else 0)
  else if clocks then afterClocks s
  else restartClocks s

/-- Warm reset: HBM in self-refresh, PD00, configuration space and the link are kept; rings as after an FLR. -/
def warmReset (s : State) (kind : Nat) : State :=
  let clocks := clocksRun s
  let vecs := (functionReset s).hif.vecs
  let h := s.hif
  let s := endReactions (dropSurvey s)
  let keep (off : Nat) : Bool := domainOf off == 0 || off == 0x00C00004 || keptHbm off
  let s := resetUnits s keep true
  let s := { s with hif := { Hif.init with linkUp := h.linkUp, vecs := vecs, pmeEn := h.pmeEn, pmeStatus := h.pmeStatus, aer := h.aer }
                    clk := { s.clk with restore := true, warmBoot := true, running := some kind } }
  let s := noteCause (setSelfRefresh s true) kind
  let s := if kind = kindWarmPolicy then leaveFe s else s
  if clocks then afterClocks s else restartClocks s

/-- Clock-loss reset (R356, R357): as warm, but the link drops, clock start runs again and a survey comes before training; with
TRO_BAD self-refresh is not attempted and the contents are lost. -/
def clockLossReset (s : State) : State :=
  let bad := getB s Rg.CLK_STATUS_TRO_BAD
  let s := endReactions (dropSurvey s)
  let s := resetUnits s (fun off => domainOf off == 0 || (keptHbm off && !bad)) (!bad)
  let s := { s with hif := Hif.init
                    clk := { s.clk with restore := !bad, warmBoot := true, surveyWait := true, running := some kindClockLoss } }
  let s := noteCause (setSelfRefresh s (!bad)) kindClockLoss
  restartClocks (if bad then setF s Rg.RST_CAUSE_HBM_LOST 0 1 else s)

/-- Whether BAR4 is implemented from now on (R342, R399). -/
def bar4Allowed (s : State) : Bool :=
  getB s Rg.MEM_BAR4_CTRL_ENABLE_NEXT &&
  (decide (lifecycle s ≤ 1) || (lifecycle s == 2 &&
    (bit s.sec.otp.policy 2 || (!s.sec.edition.isEmpty && edSigned s.sec.edition && edBar4 s.sec.edition))))
def latchBar4 (s : State) : State := setB s Rg.MEM_BAR4_CTRL_IMPLEMENTED 0 (bar4Allowed s)

/-- Hot reset: PD03 and PD04 with configuration space; no buffer stays registered (R317, R358). -/
def hotReset (s : State) : State :=
  let s := dropBuffers (functionReset s)
  let s := { s with hif := { Hif.init with cmds := s.hif.cmds, cmdSeq := s.hif.cmdSeq } }
  latchBar4 (noteCause (resetRegs s 0x00C00000 0x01000000) kindHot)

/-! ### POWER_ON_RESET (R358, R362, R435, R446) -/

/-- Everything but the fuses, the flash and the host starts afresh. -/
def freshDevice (s : State) (b : Board) : State :=
  { State.reset with
    pending := s.pending, now := s.now, freeCtr := s.freeCtr, wire := s.wire, host := s.host
    sec := { Sec.init with otp := s.sec.otp, flash := { s.sec.flash with sizeMib := b.flashMib, sfdp := b.sfdp, dtr := b.dtr } }
    ev := { Ev.init with surveySeq := s.ev.surveySeq, flashSurvey := s.ev.flashSurvey }
    clk := { Clk.init with stage := if b.testMode then .hold else .troJudge, troAt := s.now, xoAt := s.now }
    pwr := { Pwr.init with rtcAt := s.now }
    bg := { Bg.init with flushAt := s.now, summaryAt := s.now }
    pins := { Pins.init with edition := b.edition, faultN := !b.testMode, refclk := b.refclk, qspiAt := s.now } }

/-- Everything but the fuses, the flash and the host starts afresh; the fuse shadow is loaded. -/
def powerOn (s : State) (b : Board) : State :=
  let trial := getB s Rg.TOP_STATUS_TRIAL
  let s := foldS s.sec.jobs (fun s j => emptySlot s j.edition j.slot) (endTrial s)
  let otp := s.sec.otp
  let n := freshDevice s b
  let n := writeTmr (writeTmr n 0 (popCount otp.lifecycle 3)) 1 otp.policy
  let n := writeTmr (writeTmr n 4 otp.serial) 5 (otp.serial / 2 ^ 32)
  let n := setB n Rg.CLK_STATUS_X32_PRESENT 0 b.x32
  let n := if trial then setF n Rg.SEC_FW_STATUS_REVERTED 0 1 else n
  if b.testMode then setF n Rg.RST_STATUS_PHASE 0 9 else n

def execPowerOnReset (b : Board) (s : State) : Host.Outcome State Fault Refusal := .next (powerOn s b)

/-! ### RST_WARM and RST_DOMAIN_GO (R358, R366, R374) -/

/-- Units are out of their first reset: T0 has passed. -/
def unitsRun (s : State) : Bool := decide (2 ≤ phase s) && decide (phase s ≤ phCoast)

/-- A write of RST_CTRL: PERST_ISOLATE is stored; WARM makes a warm reset. -/
def rstCtrlWrite (s : State) (v : Nat) : State :=
  let s := setF s Rg.RST_CTRL_PERST_ISOLATE 0 (v / 2)
  if bit v 0 && unitsRun s then warmReset s kindWarmSoftware else s

def execRstWarm (v : Nat) (s : State) : Host.Outcome State Fault Refusal := .next (rstCtrlWrite s v)

/-- The die of a domain whose die link is down. -/
def linkIsDown (s : State) (die : Nat) : Bool := s.ev.reactions.any fun r => r.source == Ev.PRT_D2D_DOWN_W + die
def dieOf (d : Nat) : Option Nat := if 42 ≤ d ∧ d ≤ 60 then some 0 else if 61 ≤ d ∧ d ≤ 79 then some 1 else none

/-- GO: one domain passes through the drain; one of a die that cannot be reached waits for its link (R14). -/
def domainGo (s : State) (d : Nat) : State :=
  let s := setF s Rg.RST_DOMAIN_DOMAIN 0 d
  let d := d % 128
  if d = 0 ∨ 79 < d ∨ unitsRun s = false then s
  else if ((dieOf d).map (linkIsDown s)).getD false then
    setF { s with clk := { s.clk with domainWait := s.clk.domainWait.filter (· != d) ++ [d] } } Rg.RST_DOMAIN_GO 0 1
  else if domainState s d = domReset then s
  else leaveReset (enterReset s d) d

def execRstDomainGo (d : Nat) (s : State) : Host.Outcome State Fault Refusal := .next (domainGo s d)

end Sys2Proof.Machine
end

