-- ==== Sys2Proof/Machine/RegRead.lean ====
section
/-!
DEFINITION. What a register word reads as, without the effects of the read: the words that stand in the register file, and those
that show a unit's state (R60, R90, R171, R198, R229, R252, R253, R270, R298, R323, R384, R412 to R414, R428).
-/

namespace Sys2Proof.Machine

/-- A word of a number of 32-bit words. -/
def wordOf (v i : Nat) : Nat := v / 2 ^ (32 * i) % 2 ^ 32
/-- A word of a byte string. -/
def wordAt (l : List Byte) (i : Nat) : Nat := leAt l (4 * i) 4

def sumPow (n : Nat) (p : Nat → Bool) : Nat := ((List.range n).map fun i => if p i then 2 ^ i else 0).sum

/-! ### Security and the Compass (R412 to R414) -/

/-- The slot that does not hold the running firmware; in recovery slot A (R391). -/
def otherSlot (s : State) : Nat :=
  match s.sec.slot with
  | none => 0
  | some n => 1 - n
def stagedValid (s : State) : Bool := ((dirOf s).fw.get (otherSlot s) none).isSome
def stagedVersion (s : State) : Nat := if stagedValid s then leAt (s.sec.flash.fw.get (otherSlot s) []) 12 4 else 0

def secStatus (s : State) : Nat :=
  lifecycle s + 4 * min 3 (popCount s.sec.otp.lifecycle 3) + 16 * (s.sec.otp.ownerHash != zeros 32).toNat +
  32 * (bit s.sec.otp.policy 0).toNat + 64 * (decide (2 ≤ lifecycle s)).toNat + 128 * s.sec.otp.idKey.toNat + 256 * (s.sec.otp.svn % 64)

def flashUsable (s : State) : Bool := s.sec.flash.sfdp && decide (32 ≤ s.sec.flash.sizeMib)

/-- The patch set in force (R408, R409). -/
def patchSet (s : State) : List Byte := s.sec.hostPatches.getD s.sec.patches
def patchEnabled (p : List Byte) (i : Nat) : Bool := bit (leAt p (8 * i) 2) 15
def patchCount (s : State) : Nat := ((List.range 64).filter (patchEnabled (patchSet s))).length

/-- CMP_STATUS (R414). -/
def cmpStatus (s : State) : Nat :=
  getF s Rg.CMP_STATUS_STATE + 4 * (s.sec.pc % 2 ^ 14) + 2 ^ 16 * patchCount s + 2 ^ 23 * s.sec.hostPatches.isSome.toNat

def cmpPatch (s : State) (i : Nat) : Nat :=
  let r := (patchSet s).drop (8 * i)
  leAt r 0 2 % 2 ^ 14 + 2 ^ 15 * (bit (leAt r 0 2) 15).toNat + 2 ^ 16 * leAt r 2 3

/-! ### Host interface (R298) -/

def vectorWord (s : State) (v i : Nat) : Nat :=
  let x := getVec s v
  if i = 0 then x.addr % 2 ^ 32 else if i = 1 then x.addr / 2 ^ 32 % 2 ^ 32 else if i = 2 then x.data else x.mask.toNat

/-! ### Scribe array (R90, R171) -/

def poolFree (size used : Nat) : Nat := (size * poolUnit - used) / poolUnit

def streamStateWord (x : Stream) : Nat :=
  x.state + 8 * x.concealed.toNat + 16 * (x.mode % 4) + 64 * x.shedding.toNat + 2 ^ 16 * (x.pictures % 65536)
def sat16 (n : Nat) : Nat := min n 65535

def streamCommitWord (x : Stream) : Nat :=
  match x.job with
  | none => (match x.raster with
    | none => 0
    | some r => r.committed % 65536 + 2 ^ 16 * (x.pictures % 65536))
  | some j => j.committed % 65536 + 2 ^ 16 * ((j.hdr.map (·.number)).getD x.pictures % 65536)

def scribeWord (s : State) (off : Nat) : Option Nat :=
  let x := getStream s (getF s Rg.SCR_STREAM_SEL_STREAM)
  let e := getEnc s (getF s Rg.SCR_ENC_SEL_SHEET)
  if off = 0x01800098 then
    some (getF s Rg.SCR_POOL_SIZE + 2 ^ 16 * sat16 (poolFree (getF s Rg.SCR_POOL_SIZE) (scribeUsed s (planOf s))))
  else if off = 0x01800088 then some (regW (busyRoll s) off).toNat
  else if off = 0x01800204 then some (streamStateWord x)
  else if off = 0x01800208 then some (sat16 x.packetsLost + 2 ^ 16 * sat16 x.slicesLost)
  else if off = 0x0180020C then some (sat16 x.deadlineMiss + 2 ^ 16 * sat16 x.skipped)
  else if off = 0x01800210 then some (streamCommitWord x)
  else if off = 0x01800220 then some (sat16 x.cll.1 + 2 ^ 16 * sat16 x.cll.2)
  else if off = 0x01800224 then some (sat16 x.mdl.1 + 2 ^ 16 * sat16 x.mdl.2)
  else if off = 0x01880104 then
    some (e.lastNumber % 65536 + 2 ^ 16 * e.lastI.toNat + 2 ^ 17 * e.lastEarly.toNat + 2 ^ 24 * (e.lastMeanQp % 64))
  else if off = 0x01880108 then some (e.lastBytes % 2 ^ 32)
  else if off = 0x0188010C then some (e.lastFloor % 65536 + 2 ^ 16 * (e.lastRep % 65536))
  else if off = 0x01880110 then some (unsigned 32 e.fullness)
  else none

/-! ### Meridian (R229) -/

/-- MER_TRIG_COUNT of an armed trigger reads the instants that remain. -/
def trigCountWord (s : State) (n : Nat) : Nat :=
  let c := getF s Rg.MER_TRIG_COUNT_COUNT n
  if getB s Rg.MER_TRIG_CTRL_ARM n then c - (getTrig s n).j else c

def meridianWord (s : State) (off : Nat) : Option Nat :=
  if off = 0x02400010 then some (wordOf s.mer.latSec 0)
  else if off = 0x02400014 then some (wordOf s.mer.latSec 1)
  else if off = 0x02400018 then some (wordOf (s.mer.latFrac + 2 ^ 16 * s.mer.latNs) 0)
  else if off = 0x0240001C then some (wordOf (s.mer.latFrac + 2 ^ 16 * s.mer.latNs) 1)
  else if off = 0x02400028 then some (mst s)
  else if off = 0x02400060 then some (wordOf (captureView s) 0)
  else if off = 0x02400064 then some (wordOf (captureView s) 1)
  else if 0x02401000 ≤ off ∧ off < 0x02401200 ∧ off % 32 = 0x14 then some (trigCountWord s ((off - 0x02401000) / 32))
  else none

/-! ### Switch and traffic manager (R252, R270) -/

def queueStateWord (s : State) (p : Nat) : Nat :=
  let full (c : Nat) : Bool := !(getQueue s p c).isEmpty
  let x (c : Nat) : Shaper := getShaper s p c
  let ns (c : Nat) : Nat := match getQueue s p c with
    | [] => 0
    | f :: _ => frameNs s p (f.bytes.length + 4)
  sumPow 8 full + 2 ^ 8 * sumPow 8 (fun c => classPaused s p c || ((x c).enabled && (x c).rate == 0)) +
  2 ^ 16 * sumPow 8 (fun c => full c && (x c).enabled && (x c).rate != 0 && (x c).credit == 0) +
  2 ^ 24 * sumPow 8 (fun c => full c && !gateOpenFor s p c (ns c))

def switchWord (s : State) (off : Nat) : Option Nat :=
  if off = 0x02C00008 then some (poolCells - s.sw.used.length)
  else if off = 0x02C0000C then some (sharedSize s).toNat
  else if off = 0x02C00034 then some (s.sw.mac.length + 2 ^ 16 * (s.sw.flow.length % 2 ^ 14))
  else none

def trafficWord (s : State) (off : Nat) : Option Nat :=
  let x := getShaper s (getF s Rg.TM_SHAPER_SEL_PORT) (getF s Rg.TM_SHAPER_SEL_CLASS)
  let m := getMeter s (getF s Rg.TM_METER_SEL_METER)
  if off = 0x03000004 then
    some ((s.tm.shapers.filter (·.2.overflow)).length % 65536 + 2 ^ 16 * getF s Rg.TM_WHEEL_STATUS_LATE_SLOTS)
  else if off = 0x03000014 then some (x.credit % 65536 + 2 ^ 16 * x.enabled.toNat + 2 ^ 17 * (x.enabled && x.rate == 0).toNat)
  else if off = 0x03000018 then some (((x.next.getLast?.map (·.2)).getD x.rate) % 2 ^ 32)
  else if off = 0x03000024 then some (min m.green (2 ^ 32 - 1))
  else if off = 0x03000028 then some (min m.yellow (2 ^ 32 - 1))
  else if off = 0x0300002C then some (min m.red (2 ^ 32 - 1))
  else if 0x03001000 ≤ off ∧ off < 0x03003080 ∧ off % 64 = 0x14 then some (queueStateWord s ((off - 0x03001000) / 64))
  else none

/-! ### Attached load (R426) -/

def chainLoadWord (s : State) (p : Nat) : Nat :=
  let rs := portRecords s p
  rs.length + 2 ^ 8 * ((rs.map fun r => cabPower r.2).sum % 4096)

/-! ### Every word -/

/-- Words of PD00 to PD05 that show state. -/
def coreWord (s : State) (off : Nat) : Option Nat :=
  let w := (regW s off).toNat
  if off = 0x00000008 then some (getTmr s 4)
  else if off = 0x0000000C then some (getTmr s 5)
  else if off = 0x00000014 then some (w / 4 * 4 + lifecycle s)
  else if off = 0x00800018 then some (wordOf (rtcUnits s % 32768 + 2 ^ 16 * (rtcUnits s / 32768)) 0)
  else if off = 0x0080001C then some (wordOf (rtcUnits s % 32768 + 2 ^ 16 * (rtcUnits s / 32768)) 1)
  else if 0x00801000 ≤ off ∧ off < 0x00801140 then
    some (if domainUsed s ((off - 0x00801000) / 4) && w / 8 % 2 == 0 then w + 8 else w)
  else if 0x00C01000 ≤ off ∧ off < 0x00C01400 ∧ off % 16 = 12 then
    some (w % 65536 + 65536 * ((getSq s ((off - 0x00C01000) / 16)).head % 65536))
  else if 0x00C02000 ≤ off ∧ off < 0x00C02400 ∧ off % 16 = 12 then
    let r := getCq s ((off - 0x00C02000) / 16)
    some (r.written % 65536 + 65536 * r.held.length)
  else if 0x00C04100 ≤ off ∧ off < 0x00C04110 then
    some (w % 65536 + 65536 * (engineChannels s ((off - 0x00C04100) / 4)).length)
  else if 0x00C10000 ≤ off ∧ off < 0x00C11000 then some (vectorWord s ((off - 0x00C10000) / 16) (off / 4 % 4))
  else if 0x00C11000 ≤ off ∧ off < 0x00C11020 then
    some (sumPow 32 fun i => (getVec s (8 * (off - 0x00C11000) + i)).pend)
  else if 0x01001000 ≤ off ∧ off < 0x01001080 then some (sumPow 32 fun i => isLevel s (8 * (off - 0x01001000) + i))
  else if off = 0x01002000 then some ((s.ev.evq.head?.map evWord).getD 0)
  else if off = 0x0100200C then some (w / 64 * 64 + s.ev.evq.length)
  else if 0x01008200 ≤ off ∧ off < 0x01008240 then some (wordAt s.ev.firstLoc ((off - 0x01008200) / 4))
  else none

def secWord (s : State) (off : Nat) : Option Nat :=
  let w := (regW s off).toNat
  if off = 0x03400000 then some (w / 2 ^ 16 * 2 ^ 16 + secStatus s)
  else if off = 0x03400004 then
    some (w / 4 % 2 * 4 + (dirOf s).active % 2 + 2 * getF s Rg.TOP_STATUS_TRIAL + 8 * (stagedValid s).toNat)
  else if off = 0x03400008 then some (stagedVersion s)
  else if off = 0x0340000C then
    some (s.sec.flash.sizeMib % 65536 + 2 ^ 16 * (flashUsable s).toNat + 2 ^ 17 * s.sec.flash.dtr.toNat)
  else if 0x03400040 ≤ off ∧ off < 0x03400060 then some (wordAt s.sec.otp.rootHash ((off - 0x03400040) / 4))
  else if 0x03400060 ≤ off ∧ off < 0x03400080 then some (wordAt s.sec.otp.ownerHash ((off - 0x03400060) / 4))
  else if 0x03400100 ≤ off ∧ off < 0x03400200 then some (wordAt s.sec.otp.idCert ((off - 0x03400100) / 4))
  else if off = 0x03800000 then some (cmpStatus s)
  else if 0x03801000 ≤ off ∧ off < 0x03801200 then some (wordOf (cmpPatch s ((off - 0x03801000) / 8)) (off / 4 % 2))
  else if off = 0x03C00008 then some (w - w / 4 % 2 * 4 + 4 * (!s.bg.doseChanged.isEmpty).toNat)
  else if 0x03C01000 ≤ off ∧ off < 0x03C01200 then some (chainLoadWord s ((off - 0x03C01000) / 4))
  else none

def wallWord (s : State) (off : Nat) : Option Nat :=
  if off = 0x01C00010 then
    some (getF s Rg.PRJ_POOL_SIZE + 2 ^ 16 * sat16 (poolFree (getF s Rg.PRJ_POOL_SIZE) (projectionUsed s)))
  else if 0x01C01000 ≤ off ∧ off < 0x01C02000 then some (coefShown s (getF s Rg.PRJ_COEF_SEL_BANK) ((off - 0x01C01000) / 4))
  else if 0x01C10000 ≤ off ∧ off < 0x01C50000 then some (wordAt (gztEntry s ((off - 0x01C10000) / 64)) (off / 4 % 16))
  else if 0x02008000 ≤ off ∧ off < 0x02028000 then
    some (wordAt (s.sht.recs.get ((off - 0x02008000) / 64) []) (off / 4 % 16))
  else none

/-- A word that shows state, or none where the register file holds it. -/
def viewWord (s : State) (off : Nat) : Option Nat :=
  if off < 0x01400000 then coreWord s off
  else if 0x01800000 ≤ off ∧ off < 0x01C00000 then scribeWord s off
  else if 0x01C00000 ≤ off ∧ off < 0x02400000 then wallWord s off
  else if 0x02400000 ≤ off ∧ off < 0x02800000 then meridianWord s off
  else if 0x02C00000 ≤ off ∧ off < 0x03000000 then switchWord s off
  else if 0x03000000 ≤ off ∧ off < 0x03400000 then trafficWord s off
  else secWord s off

/-- The lane whose port block a word lies in (R252). -/
def portBlockOf (off : Nat) : Option Nat :=
  if 0x02800000 ≤ off ∧ off < 0x02C00000 ∧ (off - 0x02800000) % 0x200000 < 0x40000 then
    some (64 * ((off - 0x02800000) / 0x200000) + (off - 0x02800000) % 0x200000 / 0x1000)
  else none

/-- What a register word holds. The blocks of a bond's other lanes show STATE and BOND_MEMBER only, the rest as 0 (R252, log 67). -/
def peekWord (s : State) (off : Nat) : Nat :=
  let w := (viewWord s off).getD (regW s off).toNat
  match portBlockOf off with
  | none => w
  | some l => if !getB s Rg.PRT_STATUS_BOND_MEMBER l then w else if off % 0x1000 = 0 then w % 16 else 0

/-- What a read answers without touching the unit: the stand-in responder's value where the domain is not on (R23). -/
def standIn (d : Nat) : Nat := 0xDEAD0000 + d
def surveyWord (s : State) (off : Nat) : Nat :=
  if domainOn s (domainOf off) then peekWord s off else standIn (domainOf off)

end Sys2Proof.Machine
end

