-- ==== Sys2Proof/Machine/Faults.lean ====
section
/-!
DEFINITION. Reactions to faults (R309 to R315), the survey (R317 to R321), the rows of the event controller, and the die-to-die
links (R13, R14, R208).
-/

namespace Sys2Proof.Machine

/-! ### EVENT_DELIVER, INT_EVQ_POP, INT_SRC_ACK (R303 to R306) -/

/-- The register bus and the event controller run: neither clock start nor WATCH or DORMANT stops them (R308). -/
def controllerRuns (s : State) : Bool :=
  decide (1 ≤ phase s) && decide (phase s ≤ phCoast) && decide (getF s Rg.PWR_STATE_STATE ≤ 2)

/-- A delivery that has to wait is counted once (R306). -/
def noteStalled (s : State) (n : Nat) : State :=
  if (getSrc s n).stalled then s else addF (setSrc s n { getSrc s n with stalled := true }) Rg.INT_EVQ_STATUS_STALLS

def eventDeliver (s : State) : State :=
  let l := pendingSources s
  let s := foldS (l.filter (blocked s)) noteStalled s
  match l.find? fun n => !blocked s n with
  | none => s
  | some n => deliverSource s n

def execEventDeliver (s : State) : Host.Outcome State Fault Refusal :=
  .next (if controllerRuns s then eventDeliver s else s)

/-- The head of the queue is popped and its DATA and MST latched. -/
def evqDrop (s : State) : State :=
  match s.ev.evq with
  | [] => s
  | r :: t =>
    let s := { s with ev := { s.ev with evq := t } }
    setF (setF s Rg.INT_EVQ_DATA_VALUE 0 r.data) Rg.INT_EVQ_MST_VALUE 0 r.mst

/-- A read of INT_EVQ_POP answers the head; an empty queue answers VALID 0. -/
def evqPop (s : State) : State := evqDrop (emit s (.readData 0x01002000 ((s.ev.evq.head?.map evWord).getD 0)))

def execIntEvqPop (s : State) : Host.Outcome State Fault Refusal := .next (evqPop s)

/-- A write of INT_SRC_ACK. -/
def srcAck (s : State) (n : Nat) : State :=
  let st := srcState s n
  let again (s : State) : State :=
    setF (setSrc s n { getSrc s n with stalled := false }) Rg.INT_SRC_CFG_STATE n srcPending
  if st = srcActivePending then again s
  else if st = srcActive then (if levelHolds s n then again s else setF s Rg.INT_SRC_CFG_STATE n srcIdle)
  else s

def execIntSrcAck (n : Nat) (s : State) : Host.Outcome State Fault Refusal := .next (srcAck s (n % 1024))

/-! ### The units that reactions reset (R300) -/

/-- A unit for UC_LIMIT, the domains its reaction resets, and its PARAM. -/
structure UcUnit where
  unit : Nat
  domains : List Nat
  param : Nat
deriving DecidableEq, Repr

def unitSpll : Nat := 128
def unitPpll : Nat := 129
def unitTpll : Nat := 133
def unitMerge (k : Nat) : Nat := 140 + k
def unitTest : Nat := 254

def oneDomain (d : Nat) : Option UcUnit := some ⟨d, [d], d⟩

/-- The unit of a UC source; dom is the domain that holds the macro or the stack's domain. None: no unit is reset. -/
def ucUnit (n dom : Nat) : Option UcUnit :=
  if n = Ev.CLK_PLL_UNLOCK_SPLL then some ⟨unitSpll, rangeFrom 6 24, unitSpll⟩
  else if n = Ev.CLK_PLL_UNLOCK_PPLL then some ⟨unitPpll, rangeFrom 31 4, unitPpll⟩
  else if n = Ev.CLK_PLL_UNLOCK_TPLL then some ⟨unitTpll, [5], unitTpll⟩
  else if n = Ev.HIF_DMA_FAULT ∨ n = Ev.HIF_CTL_FAULT then oneDomain 3
  else if n = Ev.FLT_TEST_UC then some ⟨unitTest, [], 0⟩
  else if 272 ≤ n ∧ n ≤ 303 then some ⟨160 + (n - 272), [], if n < 288 then 39 else 40⟩
  else if n = Ev.ECC_UC_SRAM then (if dom = 0 ∨ 79 < dom then none else oneDomain dom)
  else if n = Ev.ECC_MERGE_FAULT then (if dom = 40 then some ⟨unitMerge 1, [], 40⟩ else some ⟨unitMerge 0, [], 39⟩)
  else if 448 ≤ n ∧ n ≤ 471 then oneDomain (6 + (n - 448))
  else if n = Ev.SCR_SHARED_FAULT then oneDomain 30
  else if 544 ≤ n ∧ n ≤ 547 then oneDomain (31 + (n - 544))
  else if n = Ev.PRJ_CTL_FAULT then oneDomain 35
  else if n = Ev.MER_FAULT then oneDomain 5
  else if 736 ≤ n ∧ n ≤ 739 then oneDomain ([58, 59, 77, 78].getD (n - 736) 58)
  else if n = Ev.PRT_D2D_DOWN_W then some ⟨n, dieDomains 0, 60⟩
  else if n = Ev.PRT_D2D_DOWN_E then some ⟨n, dieDomains 1, 79⟩
  else if n = Ev.SW_S1_FAULT then oneDomain 36
  else if n = Ev.SW_S2_FAULT then oneDomain 37
  else if n = Ev.TM_FAULT then oneDomain 38
  else if n = Ev.SEC_FAULT then oneDomain 2
  else none

def isPllUnit (u : Nat) : Bool := u == unitSpll || u == unitPpll || u == unitTpll
def isLinkSource (n : Nat) : Bool := n == Ev.PRT_D2D_DOWN_W || n == Ev.PRT_D2D_DOWN_E

/-! ### UC reactions (R310, R311) -/

def inFe (s : State) : Bool := getF s Rg.FLT_STATE_STATE == 2

/-- An error while a reaction runs that takes it up: sticky, event log, FLT_MERGED. -/
def mergeFault (s : State) (n param : Nat) : State :=
  let s := faultRecord s n param 0
  raiseEv (addF { s with ev := { s.ev with merged := s.ev.merged + 1 } } Rg.FLT_MERGED_COUNT) Ev.FLT_MERGED

/-- What a unit loses as its reset begins. A die whose link is down cannot be reached: it is reset at the link's return. -/
def startUnitReset (s : State) (r : Reaction) : State :=
  if isLinkSource r.source then
    let s := foldS r.domains (fun s d => endDependents (setDomain s d domReset) d) s
    dropPorts s (64 * (r.source - Ev.PRT_D2D_DOWN_W), 64)
  else if r.unit = unitMerge 0 ∨ r.unit = unitMerge 1 then
    let k := r.unit - unitMerge 0
    setMerge s k ((getMerge s k).map fun e => { e with poison := true })
  else if 160 ≤ r.unit ∧ r.unit < 192 then endDependents s r.param
  else foldS r.domains enterReset s

/-- The unit leaves reset. -/
def endUnitReset (s : State) (r : Reaction) : State :=
  if isLinkSource r.source then
    let s := { s with clk := { s.clk with domainWait := s.clk.domainWait.filter fun d => !r.domains.contains d } }
    let s := if s.clk.domainWait.isEmpty then setF s Rg.RST_DOMAIN_GO 0 0 else s
    foldS r.domains (fun s d => leaveReset (enterReset s d) d) s
  else foldS r.domains leaveReset s

/-- FLT_STATE between NORMAL and UC follows the reactions that run. -/
def showReactions (s : State) : State :=
  let s := setF s Rg.FLT_STATE_UNITS_HELD 0 (min s.ev.held.length 255)
  if inFe s then s else setF s Rg.FLT_STATE_STATE 0 (if s.ev.reactions.isEmpty then 0 else 1)

def dropReaction (s : State) (u : Nat) : State :=
  showReactions { s with ev := { s.ev with reactions := s.ev.reactions.filter fun x => x.unit != u } }

/-- UC reactions of the unit that began within 1 s before the reaction's own start. -/
def recentStarts (s : State) (r : Reaction) : Nat := ((s.ev.ucHist.get r.unit []).filter fun t => decide (r.start < t + secNs)).length

def overLimit (s : State) (r : Reaction) : Bool :=
  let l := getF s Rg.FLT_POLICY_UC_LIMIT
  r.unit != unitTest && l != 0 && decide (l ≤ recentStarts s r)

/-- The unit stays in reset. -/
def holdUnit (s : State) (r : Reaction) : State :=
  let s := dropReaction s r.unit
  raiseEv (showReactions { s with ev := { s.ev with held := s.ev.held ++ [r] } }) Ev.FLT_UNIT_HELD r.param

/-- A reaction ends: the unit leaves reset, or is held after UC_LIMIT reactions. -/
def finishReaction (s : State) (r : Reaction) : State :=
  if overLimit s r then holdUnit s r
  else raiseEv (dropReaction (endUnitReset s r) r.unit) Ev.FLT_UNIT_RESTORED r.param

def countStart (s : State) (u : Nat) : State :=
  let l := (s.ev.ucHist.get u []).filter fun t => decide (s.now < t + secNs)
  { s with ev := { s.ev with ucHist := s.ev.ucHist.set u (l ++ [s.now]) [] } }

/-- A UC occurs: its reaction starts, or it is merged; one that names no unit, or a unit held already, is only recorded. -/
def raiseUc (s : State) (n dom : Nat) (loc : List Byte) : State :=
  match ucUnit n dom with
  | none => if inFe s then mergeFault s n 0 else recordFault s n 0 loc
  | some u =>
    if inFe s || s.ev.reactions.any (fun r => r.unit == u.unit) then mergeFault s n u.param
    else
      let s := recordFault s n u.param loc
      if s.ev.held.any fun r => r.unit == u.unit then s
      else
        let r : Reaction := ⟨n, u.unit, u.param, u.domains, s.now, false⟩
        let s := countStart s u.unit
        startUnitReset (showReactions { s with ev := { s.ev with reactions := s.ev.reactions ++ [r] } }) r

/-- The unit of a reaction leaves reset; PLL and die-link reactions end with their lock or link. -/
def ucResetDone (s : State) (u : Nat) : State :=
  match s.ev.reactions.find? fun r => r.unit == u with
  | none => s
  | some r =>
    if r.absorbed || isPllUnit u || isLinkSource r.source then s
    else if u = unitTest ∧ s.now < r.start + 10 * usNs then s
    else finishReaction s r

def execUcResetDone (u : Nat) (s : State) : Host.Outcome State Fault Refusal := .next (ucResetDone s u)

/-! ### The survey (R317 to R320, log 24) -/

/-- BAR0 ranges of a survey section's registers. -/
def sectionRange (id : Nat) : Nat × Nat :=
  if id = 1 then (0x01008000, 0x01400000)
  else if id = 3 then (0x00400000, 0x00800000)
  else if id = 4 then (0x00800000, 0x00C00000)
  else if id = 5 then (0x00C00000, 0x01000000)
  else if id = 6 then (0x01400000, 0x01800000)
  else if id = 7 then (0x01800000, 0x01C00000)
  else if id = 8 then (0x01C00000, 0x02000000)
  else if id = 9 then (0x02000000, 0x02400000)
  else if id = 0x0A then (0x02400000, 0x02800000)
  else if id = 0x0B then (0x02800000, 0x02A00000)
  else if id = 0x0C then (0x02A00000, 0x02C00000)
  else if id = 0x0D then (0x02C00000, 0x03000000)
  else if id = 0x0E then (0x03000000, 0x03400000)
  else if id = 0x0F then (0x03400000, 0x03800000)
  else if id = 0x10 then (0x03800000, 0x03C00000)
  else if id = 0x11 then (0x03C00000, 0x04000000)
  else (0, 0)

/-- Every copy of a register: offset and words. -/
def regCopies (r : RegD) : List (Nat × Nat) :=
  (List.range (max 1 r.n1 * max 1 r.n2)).map fun i => (r.base + r.s1 * (i / max 1 r.n2) + r.s2 * (i % max 1 r.n2), r.words)

/-- Neighbouring copies as one run. -/
def mergeRuns (l : List (Nat × Nat)) : List (Nat × Nat) :=
  (l.foldl (fun (acc : List (Nat × Nat)) c =>
    match acc with
    | (a, n) :: t => if a + 4 * n = c.1 then (a, n + c.2) :: t else c :: acc
    | [] => [c]) []).reverse

/-- The runs of consecutive registers of a section. -/
def sectionRuns (id : Nat) : List (Nat × Nat) :=
  let r := sectionRange id
  mergeRuns ((regTable.flatMap regCopies).filter fun c => decide (r.1 ≤ c.1) && decide (c.1 < r.2))

def surveyRecord (kind : Nat) (body : List Byte) : List Byte := leBytes 2 kind ++ zeros 2 ++ leBytes 4 body.length ++ body

def pad64 (l : List Byte) : List Byte := l ++ zeros ((64 - l.length % 64) % 64)

/-- A section: EVENTS holds the queue entries and the event log; every other one its registers. -/
def surveySection (s : State) (id : Nat) : List Byte :=
  let recs := if id = 2 then [surveyRecord 4 ((s.ev.evq ++ s.ev.log).map evBytes).flatten]
    else (sectionRuns id).map fun c =>
      surveyRecord 1 (leBytes 4 c.1 ++ ((List.range c.2).map fun i => leBytes 4 (surveyWord s (c.1 + 4 * i))).flatten)
  pad64 (leBytes 2 id ++ leBytes 4 recs.length ++ zeros 58 ++ recs.flatten)

/-- The section of the subsystem that a location code names (R12, R318). -/
def locationSection (loc : List Byte) : Option Nat :=
  let dot (l : List Byte) : List Byte := (l.dropWhile (· != 0x2E)).drop 1
  let elem (l : List Byte) : List Byte := l.takeWhile fun b => b != 0x2E && b != 0
  let sub := elem (dot loc)
  let unit := elem (dot (dot loc))
  let east := elem loc == ascii "EAST" || unit == ascii "D2DE"
  if sub == ascii "HOST" then some 5
  else if sub == ascii "PORT" then some (if east then 0x0C else 0x0B)
  else if sub == ascii "SWITCH" then some 0x0D
  else if sub == ascii "TRAFFIC" then some 0x0E
  else if sub == ascii "MERIDIAN" then some 0x0A
  else if sub == ascii "SCRIBE" then some 7
  else if sub == ascii "PROJ" then some 8
  else if sub == ascii "MEMORY" then some 6
  else if sub == ascii "COMPASS" then some 0x10
  else if sub == ascii "SECURITY" then some 0x0F
  else none

def surveyIds (s : State) (essential : Bool) : List Nat :=
  if essential then
    (rangeFrom 1 17).filter fun i => [1, 2, 3, 4, 0x11].contains i || locationSection s.ev.firstLoc == some i
  else rangeFrom 1 17

/-- Sections in ID order while they fit before limit; none for one that is omitted, and for every one after it. -/
def placeSections (limit : Nat) : Nat → List (Nat × List Byte) → List (Nat × Option (Nat × List Byte))
  | _, [] => []
  | at_, (id, b) :: t =>
    if at_ + b.length ≤ limit then (id, some (at_, b)) :: placeSections limit (at_ + b.length) t
    else ((id, b) :: t).map fun x => (x.1, none)

/-- The survey as it is written: bytes and TOTAL_SIZE. -/
def surveyBytes (s : State) (r : SurveyRun) : List Byte :=
  let sign := s.sec.otp.idKey && (if r.toFlash then getB s Rg.FLT_POLICY_SIGN_FLASH else (r.buf.map (·.sign)).getD false)
  let room := if r.toFlash then 8388608 else (r.buf.map (·.len)).getD 0
  let tail := if sign then 96 else 32
  let secs := placeSections (room - tail) 4096 ((surveyIds s r.toFlash).map fun i => (i, surveySection s i))
  let bodies := (secs.map fun x => (x.2.map (·.2)).getD []).flatten
  let digestAt := 4096 + bodies.length
  let truncated := secs.any fun x => x.2.isNone
  let cause := if r.clockLoss then 1 else if getF s Rg.FLT_POLICY_ACTION = 1 then 2 else 0
  let flags := sign.toNat + 2 * truncated.toNat + 4 * r.toFlash.toNat + 8 * r.clockLoss.toNat
  let head := leBytes 4 0x59565253 ++ leBytes 2 1 ++ leBytes 2 4096 ++ leBytes 4 (digestAt + tail) ++ leBytes 2 secs.length ++
    leBytes 1 r.toFlash.toNat ++ leBytes 1 flags ++ leBytes 2 0x8128 ++ leBytes 1 0xA1 ++ leBytes 1 (lifecycle s) ++
    leBytes 4 (fwVersion s) ++ leBytes 1 (getF s Rg.TOP_EDITION_STATUS_ACTIVE) ++ leBytes 1 (getF s Rg.TOP_STATUS_SAFE) ++ zeros 2 ++
    leBytes 2 (getF s Rg.FLT_FIRST_SRC_SOURCE) ++ leBytes 1 (getF s Rg.FLT_FIRST_SRC_CLASS) ++ zeros 1 ++
    leBytes 4 (getF s Rg.FLT_FIRST_MST_MST) ++ leBytes 4 s.ev.firstMft.2 ++ leBytes 8 s.ev.firstMft.1 ++ leBytes 4 s.ev.merged ++
    leBytes 1 cause ++ zeros 3 ++ leBytes 4 (s.ev.surveySeq + 1) ++ leBytes 4 digestAt ++ padLoc s.ev.firstLoc ++
    ((List.range 32).map fun w => leBytes 4 (getF s Rg.FLT_STICKY_STICKY w)).flatten ++ zeros 256
  let entry (x : Nat × Option (Nat × List Byte)) : List Byte :=
    leBytes 2 x.1 ++ match x.2 with
      | none => leBytes 2 1 ++ zeros 12
      | some (o, b) => zeros 2 ++ leBytes 4 o ++ leBytes 4 b.length ++ leBytes 4 (crc32c b)
  let dir := (secs.map entry).flatten
  let body := head ++ dir ++ zeros (3584 - dir.length) ++ bodies
  body ++ digestBytes body ++ (if sign then Config.sm2Sign body else [])

def surveyFailed (s : State) : State := raiseEv (setF s Rg.FLT_STATE_SURVEY 0 3) Ev.FLT_SURVEY_FAILED

/-- A survey begins; flash: it goes to the survey area whatever is armed. -/
def startSurvey (s : State) (flash clockLoss : Bool) : State :=
  let toFlash := flash || s.ev.surveyBuf.isNone || !hostReachable s
  let s := setF (setF s Rg.FLT_STATE_SURVEY 0 1) Rg.FLT_STATE_DESTINATION 0 toFlash.toNat
  { s with ev := { s.ev with survey := some ⟨toFlash, s.ev.surveyBuf, clockLoss⟩ } }

/-! ### FE reactions (R312, R314) -/

/-- FLT_POLICY.ACTION decides the end: WAIT, or the warm reset of RESTART. -/
def endFe (s : State) : State := if getF s Rg.FLT_POLICY_ACTION = 1 then warmReset s kindWarmPolicy else s

/-- Steps 1 to 5 of the reaction; an FE in an FE is merged. -/
def raiseFe (s : State) (n : Nat) (loc : List Byte) : State :=
  if inFe s then mergeFault s n 0
  else
    let s := if aonFaults.contains n then wakeLight s 64 else s
    let s := setF (recordFault s n 0 loc) Rg.FLT_STATE_STATE 0 2
    let s := { s with ev := { s.ev with merged := 0, reactions := s.ev.reactions.map fun r => { r with absorbed := true } } }
    let s := faultHold s
    let s := stopSchedule (foldS (List.range 12) (fun s t => if getB s Rg.MER_TRIG_CTRL_ARM t then trigDisarm s t else s) s)
    let s := { s with pins := { s.pins with faultN := false } }
    if n = Ev.CMP_WATCHDOG ∨ compassRuns s = false then endFe (surveyFailed s)
    else startSurvey s (n == Ev.MEM_TRAIN_FAIL) false

/-- The survey has been written (READY_MS leaves its time out): TOTAL_SIZE, SURVEY_SEQ, FLT_SURVEY_DONE; then the policy, or start-up after a clock loss. -/
def finishSurvey (s : State) (r : SurveyRun) : State :=
  let b := surveyBytes s r
  let s := match r.toFlash, r.buf with
    | false, some x => hostWrite s x.addr b
    | _, _ => { s with ev := { s.ev with flashSurvey := b } }
  let s := { s with ev := { s.ev with survey := none, surveySeq := s.ev.surveySeq + 1 } }
  let s := writeTmr s 13 s.ev.surveySeq
  let s := setF (setF s Rg.FLT_STATE_SURVEY 0 2) Rg.FLT_SURVEY_SIZE_WRITTEN 0 ((b.length + 4095) / 4096)
  let s := raiseEv s Ev.FLT_SURVEY_DONE
  if r.clockLoss then
    (if phase s = 3 then setF { s with clk := { s.clk with t0At := s.now - s.clk.t0At } } Rg.RST_STATUS_PHASE 0 4 else s)
  else endFe s

/-- A host survey whose link is lost or whose DMA fails starts again to flash (R318, R322). -/
def surveyDone (s : State) (fails : Bool) : State :=
  match s.ev.survey with
  | none => s
  | some r =>
    if r.clockLoss && phase s != 3 then s
    else if !r.toFlash && (fails || !hostReachable s) then
      setF { s with ev := { s.ev with survey := some { r with toFlash := true } } } Rg.FLT_STATE_DESTINATION 0 1
    else finishSurvey s r

def execSurveyDone (fails : Bool) (s : State) : Host.Outcome State Fault Refusal := .next (surveyDone s fails)

/-! ### FLT_STICKY, FLT_FIRST_SRC, FLT_TEST (R314, R315) -/

/-- A held unit starts again when its sticky bit is cleared. -/
def restartHeld (s : State) (n : Nat) : State :=
  foldS (s.ev.held.filter fun r => r.source == n) (fun s r =>
    let s := endUnitReset { s with ev := { s.ev with held := s.ev.held.filter fun x => x.unit != r.unit, ucHist := s.ev.ucHist.set r.unit [] [] } } r
    raiseEv (showReactions s) Ev.FLT_UNIT_RESTORED r.param) s

/-- W1C of one bit: one whose cause persists sets again at once, and a held unit stays held (R322). -/
def clearSticky (s : State) (n : Nat) : State :=
  if !getSticky s n || isLevel s n then s else restartHeld (setSticky s n false) n

/-- A unit whose reaction the FE absorbed leaves reset; one whose PLL or link is still out goes on as a UC reaction. -/
def releaseAbsorbed (s : State) : State :=
  foldS (s.ev.reactions.filter (·.absorbed)) (fun s r =>
    if isLevel s r.source then
      { s with ev := { s.ev with reactions := s.ev.reactions.map fun x => if x.unit = r.unit then { x with absorbed := false } else x } }
    else raiseEv (dropReaction (endUnitReset s r) r.unit) Ev.FLT_UNIT_RESTORED r.param) s

/-- FE ends when every FE sticky bit is clear. -/
def feOver (s : State) : State :=
  if inFe s && feSources.all (fun n => !getSticky s n) then leaveFe (releaseAbsorbed s) else s

/-- A write of FLT_STICKY word w. -/
def stickyWrite (s : State) (w v : Nat) : State :=
  feOver (foldS ((List.range 32).filter (bit v)) (fun s k => clearSticky s (32 * w + k)) s)

def execFltStickyClear (w v : Nat) (s : State) : Host.Outcome State Fault Refusal := .next (if w < 32 then stickyWrite s w v else s)

/-- Writing VALID clears the first record. -/
def firstClear (s : State) : State :=
  let s := setF (setF (setF s Rg.FLT_FIRST_SRC_VALID 0 0) Rg.FLT_FIRST_SRC_SOURCE 0 0) Rg.FLT_FIRST_SRC_CLASS 0 0
  let s := setF s Rg.FLT_FIRST_MST_MST 0 0
  writeTmr (writeTmr { s with ev := { s.ev with firstLoc := [], firstMft := (0, 0) } } 11 0) 12 0

def execFltFirstClear (s : State) : Host.Outcome State Fault Refusal := .next (if getB s Rg.FLT_FIRST_SRC_VALID then firstClear s else s)

/-- A write of FLT_TEST. -/
def fltTest (s : State) (c : Nat) : State :=
  if c = 1 then raiseCe s Ev.FLT_TEST_CE
  else if c = 2 then raiseUc s Ev.FLT_TEST_UC 0 []
  else if c = 3 then raiseFe s Ev.FLT_TEST_FE []
  else s

def execFltTest (c : Nat) (s : State) : Host.Outcome State Fault Refusal := .next (fltTest s (c % 4))

/-! ### HARDWARE_FAULT (R309, R310, R341) -/

/-- Sources whose occurrences have rows of their own. -/
def ownRow : List Nat := [0, 1, 3, 4, 5, 6, 7, 8, 198, 199, 200, 256, 324, 325, 740, 741, 742, 743, 930, 963, 964]

/-- Counters and addresses that a memory or store error leaves. -/
def noteError (s : State) (n : Nat) (loc : List Byte) : State :=
  let last (s : State) : State := setF s Rg.ECC_LAST_LOC_LOCATION 0 (leNat (padLoc (placeLoc loc)))
  if n = Ev.ECC_CE_SRAM then last (addT (addF s Rg.ECC_COUNT_SRAM_CE) teleCe)
  else if n = Ev.ECC_UC_SRAM then last (addF s Rg.ECC_COUNT_SRAM_UC)
  else if n = Ev.ECC_CE_HBM then last (addT (addF s Rg.ECC_COUNT_HBM_CE) teleCe)
  else if n = Ev.ECC_UC_HBM then last (addF s Rg.ECC_COUNT_HBM_UC)
  else if n = Ev.CMP_STORE_CE then addF s Rg.CMP_STORE_ECC_CE
  else s

/-- PARAM of a CE: the domain of its unit. -/
def ceParam (n dom : Nat) : Nat :=
  if n = Ev.ECC_CE_SRAM then (if 79 < dom then 0 else dom)
  else if n = Ev.SEC_OTP_CE then 2
  else if n = Ev.CMP_STORE_CE then 1
  else 0

/-- A fault source occurs. -/
def hardwareFault (s : State) (n dom : Nat) (loc : List Byte) : State :=
  if !sourceNamed n || ownRow.contains n then s
  else
    match sourceClass n with
    | .event => s
    | .ce => raiseCe (noteError s n loc) n (ceParam n dom)
    | .uc => raiseUc (noteError s n loc) n dom loc
    | .fe => raiseFe s n loc

def execHardwareFault (n dom : Nat) (loc : List Byte) (s : State) : Host.Outcome State Fault Refusal :=
  .next (hardwareFault s n dom loc)

/-! ### SURVEY_ARM and SURVEY_READ (R317, R321) -/

def startSurveyArm (_ : State) (e : List Byte) : Begin :=
  if bit (leAt e 20 1) 0 then checked [(eAddr e == 0, 8), (eLen e == 0, 16)] .run
  else if eLen e = 0 then .finish St.okZero 0 0
  else checked [(eAddr e % 4096 == 0 && decide (eAddr e + eLen e ≤ 2 ^ 64), 8),
    (eLen e % 4096 == 0 && decide (0x100000 ≤ eLen e) && decide (eLen e ≤ 0x4000000), 16)] .run

def runSurveyArm (s : State) (c : Cmd) (_ : List Byte) : State :=
  let e := c.entry
  let f := leAt e 20 1
  let b : Option SurveyBuf := if bit f 0 then none else some ⟨eAddr e, eLen e, bit f 1⟩
  let s := setF (setF s Rg.FLT_SURVEY_ADDR_ADDR 0 (eAddr e)) Rg.FLT_SURVEY_SIZE_ARMED 0 (eLen e / 4096)
  complete { s with ev := { s.ev with surveyBuf := b } } c St.ok

def execSurveyArm (q : Nat) (s : State) : Host.Outcome State Fault Refusal :=
  .next (ringRow Op.surveyArm anyEntry startSurveyArm runSurveyArm q s)

def startSurveyRead (s : State) (e : List Byte) : Begin :=
  let n := s.ev.flashSurvey.length
  if eLen e = 0 then .finish St.okZero 0 0
  else if 2 ^ 64 < eAddr e + eLen e then invalid 8
  else if n = 0 then .finish St.stateConflict 0 0
  else if eLen e < n then .finish St.invalidField n 16
  else .run

def runSurveyRead (s : State) (c : Cmd) (_ : List Byte) : State :=
  let b := s.ev.flashSurvey
  let s := hostWrite s (eAddr c.entry) b
  let s := if bit (leAt c.entry 21 1) 0 then { s with ev := { s.ev with flashSurvey := [] } } else s
  complete s c St.ok b.length

def execSurveyRead (q : Nat) (s : State) : Host.Outcome State Fault Refusal :=
  .next (ringRow Op.diag (fun e => diagSub e == 0x40) startSurveyRead runSurveyRead q s)

/-! ### The die-to-die links (R13, R14, R208) -/

def getLink (s : State) (die : Nat) : Option (Nat × Nat) := s.clk.links.get die none
def setLink (s : State) (die : Nat) (x : Option (Nat × Nat)) : State :=
  { s with clk := { s.clk with links := s.clk.links.set die x none } }

/-- A retried flit or a repaired lane. -/
def execD2dFlitRetry (die : Nat) (s : State) : Host.Outcome State Fault Refusal :=
  .next (if die < 2 then raiseCe s (Ev.PRT_D2D_RETRY_W + die) 41 else s)

/-- The link drops in service: stamps become invalid, and the first retrain begins. -/
def execD2dLinkLoss (die : Nat) (s : State) : Host.Outcome State Fault Refusal :=
  .next (if decide (die < 2) && (getLink s die).isNone then raiseEv (setLink s die (some (s.now, 1))) Ev.MER_TS_INVALID else s)

/-- The Compass retrains again: 10 ms after a retrain, then 1 s after each one past the third. -/
def execDieLinkRetrain (die : Nat) (s : State) : Host.Outcome State Fault Refusal :=
  .next <|
    match getLink s die with
    | none => s
    | some (t, n) =>
      if t + (if n < 3 then 10 * msNs else secNs) ≤ s.now ∧ compassRuns s = true then setLink s die (some (s.now, n + 1)) else s

/-- A reaction to the loss of a die link runs, or its unit is held. -/
def dieReacts (s : State) (n : Nat) : Bool := s.ev.reactions.any (·.source == n) || s.ev.held.any (·.source == n)

/-- Three retrains have failed: a UC fault of the die, again after a reset that has ended an earlier one. -/
def execDieLinkDown (die : Nat) (s : State) : Host.Outcome State Fault Refusal :=
  .next <|
    match getLink s die with
    | none => s
    | some (_, n) =>
      if n < 3 ∨ 2 ≤ die ∨ dieReacts s (Ev.PRT_D2D_DOWN_W + die) = true then s
      else raiseUc s (Ev.PRT_D2D_DOWN_W + die) 0 (ascii (if die = 0 then "CORE.PORT.D2DW" else "CORE.PORT.D2DE"))

/-- The link returns: stamps stay invalid for 1 ms more; the die is reset and its lanes come up again. -/
def dieLinkReturn (s : State) (die : Nat) : State :=
  match getLink s die with
  | none => s
  | some _ =>
    let s := setLink s die none
    let s := { s with mer := { s.mer with tsBad := s.mer.tsBad.set die (some (s.now + msNs)) none } }
    let s := causeEnds s (Ev.PRT_D2D_DOWN_W + die)
    match s.ev.reactions.find? fun r => r.source == Ev.PRT_D2D_DOWN_W + die with
    | none => s
    | some r => if r.absorbed then s else finishReaction s r

def execDieLinkReturn (die : Nat) (s : State) : Host.Outcome State Fault Refusal := .next (dieLinkReturn s die)

end Sys2Proof.Machine
end

