-- ==== Sys2Proof/Machine/Memory.lean ====
section
/-!
DEFINITION. The rows of 13_memory.md: merge buffers, training and retraining, triplicated words, scrubbing and armed corruption.
-/

namespace Sys2Proof.Machine

def memDomain (k : Nat) : Nat := 39 + k
def isTrained (s : State) (k : Nat) : Bool := if k = 0 then getB s Rg.MEM_STATUS_TRAINED_A else getB s Rg.MEM_STATUS_TRAINED_B
def setTrained (s : State) (k : Nat) (b : Bool) : State :=
  if k = 0 then setB s Rg.MEM_STATUS_TRAINED_A 0 b else setB s Rg.MEM_STATUS_TRAINED_B 0 b

/-- A stack serves requests. -/
def stackRuns (s : State) (k : Nat) : Bool :=
  decide (k < 2) && isTrained s k && domainOn s (memDomain k) && !relocking s 4 && !s.mem.selfRefresh.get k false

/-! ### Merge buffers (R336) -/

def mergeAdd (e : MergeEntry) (w : Nat × List Byte) : MergeEntry :=
  let put (m : SMap (Option Nat)) (i : Nat) : SMap (Option Nat) := m.set (w.1 + i) (some (w.2.getD i 0).toNat) none
  let is := (List.range w.2.length).filter fun i => decide (w.1 + i < 32)
  { e with bytes := is.foldl put e.bytes, written := (e.written ++ is.map (w.1 + ·)).eraseDups }

/-- The entry of a word, or a new one; with 32 in use the oldest is written first. -/
def mergeTake (s : State) (k w : Nat) : MergeEntry × State :=
  match (getMerge s k).find? fun e => e.word == w with
  | some e => (e, s)
  | none =>
    let e : MergeEntry := ⟨w, [], [], false, false, s.now⟩
    match getMerge s k with
    | [] => (e, setMerge s k [e])
    | o :: t =>
      if t.length < 31 then (e, setMerge s k (o :: t ++ [e]))
      else
        let s := setMerge s k (t ++ [e])
        (e, writeEntry s o)

def mergePut (s : State) (k : Nat) (e : MergeEntry) : State :=
  setMerge s k ((getMerge s k).map fun x => if x.word = e.word then e else x)

/-- Narrow writes join the word's entry; one whose 32 bytes are all covered goes to HBM, unless its channel is in reset (R343). -/
def mergeJoin (s : State) (k w : Nat) (writes : List (Nat × List Byte)) : State :=
  let r := mergeTake s k w
  let e := writes.foldl mergeAdd r.1
  let s := r.2
  if mergeWhole e && !channelDown s w then writeEntry (setMerge s k ((getMerge s k).filter fun x => x.word != w)) e
  else mergePut s k e

/-- The old word of an entry returns and fills it. -/
def mergeFilled (s : State) (k w : Nat) : State :=
  match (getMerge s k).find? fun e => e.word == w with
  | none => s
  | some e =>
    if e.filled || channelDown s w then s
    else
      let o := readHbm s w false
      mergePut o.2.2 k (mergeFill e o.1 o.2.1)

/-- Operands: the stack and the code word in it, the narrow writes that joined its entry, the memory port and how long the request
waited, ns. -/
def execMergeReadReturn (k w : Nat) (writes : Stores) (port wait : Nat) (s : State) : Host.Outcome State Fault Refusal :=
  .next <|
    let s := noteWait s port wait
    let n := k * stackWords + w
    if 2 * stackWords ≤ n then hbmOutside s n
    else if stackRuns s (wordStack n) then mergeFilled (mergeJoin s (wordStack n) n writes) (wordStack n) n
    else s

/-- 1 µs after its first write, the oldest entry is written; entries of a channel in reset are kept (R343). -/
def mergeTimeout (s : State) (k : Nat) : State :=
  match (getMerge s k).find? fun e => !channelDown s e.word with
  | none => s
  | some e => if e.since + usNs ≤ s.now then writeEntry (setMerge s k ((getMerge s k).filter fun x => x.word != e.word)) e else s

def execMergeEntryTimeout (k : Nat) (s : State) : Host.Outcome State Fault Refusal :=
  .next (if stackRuns s k then mergeTimeout s k else s)

/-! ### The BAR4 window (R342) -/

/-- A code word as a reader gets it: from its entry if one is open, poisoned while its channel or its stack does not serve. -/
def readWord (s : State) (w : Nat) : Nat × Bool × State :=
  if !stackRuns s (wordStack w) || channelDown s w then (0, true, s)
  else
    let s := mergeFilled s (wordStack w) w
    match (getMerge s (wordStack w)).find? fun e => e.word == w with
    | some e => (mergeData e, e.poison, s)
    | none => readHbm s w true

/-- A write that covers a whole code word: it bypasses the merge buffer and replaces an entry of its word (R336). In a channel in
reset it waits in the buffer (R343). -/
def writeWhole (s : State) (w : Nat) (b : List Byte) : State :=
  let k := wordStack w
  if channelDown s w then mergeJoin s k w [(0, b)]
  else writeHbm (setMerge s k ((getMerge s k).filter fun x => x.word != w)) w (leNat b) false

/-- Bytes written at a device address, code word by code word. -/
def writeBytes (s : State) (a : Nat) : Nat → List Byte → State
  | 0, _ => s
  | n + 1, b =>
    if b.isEmpty then s
    else
      let w := a / 32
      let o := a % 32
      let d := b.take (32 - o)
      let s := if !stackRuns s (wordStack w) then s
        else if d.length = 32 then writeWhole s w d
        else mergeJoin s (wordStack w) w [(o, d)]
      writeBytes s (a + d.length) n (b.drop (32 - o))

/-- Bytes read at a device address, and whether any of them is poisoned. -/
def readBytes (s : State) (a : Nat) : Nat → Nat → List Byte × Bool × State
  | 0, _ => ([], false, s)
  | n + 1, len =>
    if len = 0 then ([], false, s)
    else
      let o := a % 32
      let d := min len (32 - o)
      let r := readWord s (a / 32)
      let t := readBytes r.2.2 (a + d) n (len - d)
      (((leBytes 32 r.1).drop o).take d ++ t.1, r.2.1 || t.2.1, t.2.2)

/-- An access of len bytes at an offset of the window, through memory port 1. -/
def windowAccess (s : State) (off len : Nat) (value : Option Nat) : State :=
  let a := getF s Rg.MEM_BAR4_CTRL_BASE_GIB * 2 ^ 30 + off
  if 2 * stackWords * 32 < a + len then (if value.isSome then s else emit s (.unsupported off))
  else match value with
    | some v => writeBytes s a (len / 32 + 2) (leBytes len v)
    | none =>
      let r := readBytes s a (len / 32 + 2) len
      emit r.2.2 (.window off (if r.2.1 then none else some (leNat r.1)))

/-! ### Retraining (R333, R334) -/

def getRetrain (s : State) (k : Nat) : Retrain := s.mem.retrain.get k Retrain.init
def showRetrain (s : State) (k : Nat) : State :=
  let x := getRetrain s k
  if k = 0 then setF (setB s Rg.MEM_STATUS_RETRAIN_A 0 x.active) Rg.MEM_RETRAIN_STATUS_HOLDS_A 0 x.holds
  else setF (setB s Rg.MEM_STATUS_RETRAIN_B 0 x.active) Rg.MEM_RETRAIN_STATUS_HOLDS_B 0 x.holds
def setRetrain (s : State) (k : Nat) (x : Retrain) : State :=
  showRetrain { s with mem := { s.mem with retrain := s.mem.retrain.set k x Retrain.init } } k

/-- The present highest temperature of a stack's sensors, 0.25 °C; none while both read out of range (R427). -/
def stackTemp (s : State) (k : Nat) : Option Int :=
  let l := ([12 + 2 * k, 13 + 2 * k].map fun i => getS s Rg.SNS_TEMP_VALUE i).filter fun t => t != -32768
  l.foldl (fun m t => some (match m with | none => t | some x => max x t)) none

def drifted (a b : Int) (deg : Nat) : Bool := decide (4 * deg < (a - b).natAbs)

/-- Retraining starts when the temperature differs from the record by more than the threshold; twice that is told once. -/
def checkRetrain (s : State) (k : Nat) : State :=
  match stackTemp s k with
  | none => s
  | some t =>
    let x := getRetrain s k
    let th := getF s Rg.MEM_RETRAIN_CTRL_THRESHOLD_C
    if !stackRuns s k then s
    else
      let s := if drifted t (4 * x.temp) (2 * th) && !x.drift then raiseEv (setRetrain s k { x with drift := true }) Ev.MEM_TEMP_DRIFT else s
      let x := getRetrain s k
      if getB s Rg.MEM_RETRAIN_CTRL_ENABLE && !x.active && drifted t (4 * x.temp) th then
        setRetrain s k { x with active := true, holds := 0, seek := s.now, deferred := false, began := t }
      else s

/-- An instant lies within the next d ns. -/
def withinNext (s : State) (d x : Nat) : Bool := decide (0 ≤ mstDiff x (mst s)) && decide (mstDiff x (mst s) ≤ d)

/-- No view boundary and no emission deadline falls within the guard. -/
def quietAhead (s : State) : Bool :=
  let d := getF s Rg.MEM_RETRAIN_CTRL_GUARD_US * usNs
  let bounds := (List.range 8).filterMap (nextBoundary s)
  let started := s.prj.sheets.flatMap fun p => p.2.map picDeadline
  let coming := (List.range 8).flatMap fun v =>
    match scheduleOf s v with
    | none => []
    | some c =>
      let k := match (getView s v).k with
        | some k => k + 1
        | none => 0
      (portsOf s v).map fun p => emissionE s v p k (c.shows v k)
  (bounds ++ started ++ coming).all fun x => !withinNext s d x

/-- The 4 byte lanes of the pseudo-channel take their new centres, at most 8 steps from the old ones. -/
def recentre (s : State) (k pc : Nat) (lanes : List (Nat × Nat × Nat)) : State :=
  foldS (List.range 4) (fun s b =>
    let n := 128 * k + 4 * pc + b
    let near (old new : Nat) : Nat := min 127 (max (old - 8) (min (old + 8) new))
    match lanes[b]? with
    | none => s
    | some (r, w, e) =>
      let s := setF s Rg.MEM_TRAIN_RESULT_READ_DLY n (near (getF s Rg.MEM_TRAIN_RESULT_READ_DLY n) r)
      let s := setF s Rg.MEM_TRAIN_RESULT_WRITE_DLY n (near (getF s Rg.MEM_TRAIN_RESULT_WRITE_DLY n) w)
      setB (setF s Rg.MEM_TRAIN_RESULT_EYE n (min e 127)) Rg.MEM_TRAIN_RESULT_MARGINAL n (decide (e < 16))) s

/-- Degrees Celsius of a temperature in 0.25 °C. -/
def celsius (t : Int) : Int := t / 4

/-- The temperature record of a stack's training. -/
def setTrainTemp (s : State) (k : Nat) (deg : Int) : State :=
  if k = 0 then setS s Rg.MEM_STATUS_TEMP_A 0 deg else setS s Rg.MEM_STATUS_TEMP_B 0 deg

/-- One hold. -/
def retrainHold (s : State) (k : Nat) (waiting : List (Nat × Nat)) (lanes : List (Nat × Nat × Nat)) : State :=
  let s := checkRetrain s k
  let urgent := waiting.any fun r => decide (2 ≤ urgency (getF s Rg.MEM_QOS_CFG_TARGET_NS r.1) r.2)
  let x := getRetrain s k
  let spaced := match x.lastHold with
    | none => true
    | some t => decide (t + 100 * usNs ≤ s.now)
  if !x.active || !getB s Rg.MEM_RETRAIN_CTRL_ENABLE || urgent || !spaced || !quietAhead s then s
  else
    let s := recentre s k x.holds lanes
    let t := (stackTemp s k).getD x.began
    let x := { x with holds := x.holds + 1, lastHold := some s.now, seek := s.now, deferred := false }
    if drifted t x.began (getF s Rg.MEM_RETRAIN_CTRL_THRESHOLD_C) then setRetrain s k { x with holds := 0, began := t }
    else if x.holds < 32 then setRetrain s k x
    else
      let s := setTrainTemp (setRetrain s k { x with active := false, temp := celsius t, drift := false }) k (celsius t)
      raiseEv s Ev.MEM_RETRAIN_DONE

/-- waiting: the requests to the pseudo-channel, each with its memory port and how long it has waited, ns. The Compass trains: with
it lost retraining is deferred (R15). -/
def execRetrainHold (k : Nat) (waiting : List (Nat × Nat)) (lanes : List (Nat × Nat × Nat)) (s : State) :
    Host.Outcome State Fault Refusal :=
  .next (if stackRuns s k && compassRuns s then retrainHold s k waiting lanes else s)

def retrainDeferred (s : State) (k : Nat) : State :=
  let x := getRetrain s k
  if x.active && getB s Rg.MEM_RETRAIN_CTRL_ENABLE && !x.deferred && decide (x.seek + 100 * msNs ≤ s.now) then
    raiseEv (addF (setRetrain s k { x with deferred := true }) Rg.MEM_RETRAIN_STATUS_DEFERRALS) Ev.MEM_RETRAIN_DEFERRED
  else s

def execRetrainDeferred (k : Nat) (s : State) : Host.Outcome State Fault Refusal :=
  .next (if stackRuns s k then retrainDeferred s k else s)

/-! ### Triplicated words (R338) -/

def allDiffer (c : Nat × Nat × Nat) : Bool := c.1 != c.2.1 && c.1 != c.2.2 && c.2.1 != c.2.2
def allEqual (c : Nat × Nat × Nat) : Bool := c.1 == c.2.1 && c.1 == c.2.2
def tmrCopies (s : State) (w : Nat) : Nat × Nat × Nat := s.mem.tmr.get w (0, 0, 0)

/-- One word is voted. -/
def voteWord (s : State) (w : Nat) : State :=
  let c := tmrCopies s w
  if allEqual c then s
  else if allDiffer c then raiseFe s Ev.ECC_TMR_FAIL (ascii "CORE.SENSOR.TMR")
  else
    let s := addF (setF (writeTmr s w (vote c)) Rg.ECC_TMR_STATUS_LAST_WORD 0 w) Rg.ECC_TMR_STATUS_MISMATCHES
    raiseCe (addT s teleCe) Ev.ECC_TMR_MISMATCH

def tmrSweep (s : State) : State :=
  let s := foldS (List.range 32) voteWord s
  if (List.range 32).any fun w => allDiffer (tmrCopies s w) then s else causeEnds s Ev.ECC_TMR_FAIL

def execTmrSweep (s : State) : Host.Outcome State Fault Refusal := .next (tmrSweep s)

/-! ### Scrubbing (R340) -/

/-- The location of a domain's unit, at the level the controller knows (R11, R12). -/
def domainLoc (d : Nat) : List Byte :=
  if d = 0 then ascii "CORE.SENSOR"
  else if d = 1 then ascii "CORE.COMPASS"
  else if d = 2 then ascii "CORE.SECURITY"
  else if d ≤ 4 then ascii "CORE.HOST"
  else if d = 5 then ascii "CORE.MERIDIAN"
  else if d ≤ 29 then ascii "CORE.SCRIBE.SCR" ++ dec2 (d - 6)
  else if d = 30 then ascii "CORE.SCRIBE"
  else if d ≤ 34 then ascii "CORE.PROJ.PRJ" ++ [decDigit (d - 31)]
  else if d = 35 then ascii "CORE.PROJ"
  else if d ≤ 37 then ascii "CORE.SWITCH"
  else if d = 38 then ascii "CORE.TRAFFIC"
  else if d ≤ 40 then ascii "CORE.MEMORY"
  else if d = 41 then ascii "CORE.PORT"
  else if d ≤ 57 then ascii "WEST.PORT.QUAD" ++ dec2 (d - 42)
  else if d ≤ 59 then ascii "WEST.PORT.MG" ++ [decDigit (d - 58)]
  else if d = 60 then ascii "WEST.PORT.D2DW"
  else if d ≤ 76 then ascii "EAST.PORT.QUAD" ++ dec2 (d - 45)
  else if d ≤ 78 then ascii "EAST.PORT.MG" ++ [decDigit (d - 75)]
  else if d = 79 then ascii "EAST.PORT.D2DE"
  else ascii "PKG"

/-- Both stacks have been read through: the pass ends. -/
def endHbmPass (s : State) (k : Nat) : State :=
  let mark := s.mem.scrub.set (2 + k) 1 0
  if mark.get (3 - k) 0 = 1 then
    let s := { s with mem := { s.mem with scrub := (mark.set 2 0 0).set 3 0 0 } }
    raiseEv (addF s Rg.ECC_SCRUB_STATUS_HBM_PASSES) Ev.ECC_SCRUB_PASS
  else { s with mem := { s.mem with scrub := mark } }

/-- The next code word of a stack is read; a correctable one is written back, an uncorrectable one poisoned. -/
def hbmScrub (s : State) (k : Nat) : State :=
  let i := s.mem.scrub.get k 0
  let w := k * stackWords + i
  let was := (getHbm s w).poison
  let r := if channelDown s w then (0, was, s) else readHbm s w true
  let s := if r.2.1 && !was then writeHbm r.2.2 w r.1 true else r.2.2
  let next := if i + 1 = stackWords then 0 else i + 1
  let s := { s with mem := { s.mem with scrub := s.mem.scrub.set k next 0 } }
  if next = 0 then endHbmPass s k else s

/-- wait: how long the scrubber's request waited, ns. -/
def execHbmScrubStep (k wait : Nat) (s : State) : Host.Outcome State Fault Refusal :=
  .next (if stackRuns s k && getF s Rg.ECC_SCRUB_CTRL_HBM_PERIOD_H != 0 then hbmScrub (noteWait s portScrub wait) k else s)

def sramKey (m i : Nat) : Nat := m * 2 ^ 32 + i
def getSram (s : State) (m i : Nat) : SramWord := s.mem.sram.get (sramKey m i) SramWord.init
def setSram (s : State) (m i : Nat) (x : SramWord) : State :=
  { s with mem := { s.mem with sram := s.mem.sram.set (sramKey m i) x SramWord.init } }

/-- A write of the unit that owns the macro takes an armed flip; it lands just before the scrubber reads (log 25). -/
def sramFlip (s : State) (m i : Nat) : State :=
  if getB s Rg.ECC_FLIP_CTRL_ARM && getF s Rg.ECC_FLIP_CTRL_TARGET == 3 && getF s Rg.ECC_FLIP_CTRL_MACRO == m &&
      (getB s Rg.ECC_FLIP_CTRL_ANY || getF s Rg.ECC_FLIP_ADDR_VALUE == i) then
    let x := getSram s m i
    flipDone (setSram s m i { x with flipData := getF s Rg.ECC_FLIP_MASK_VALUE, flipCheck := getF s Rg.ECC_FLIP_CHECK_VALUE % 256 })
  else s

/-- The next word of a macro is read. -/
def sramScrub (s : State) (m words d : Nat) : State :=
  let i := s.mem.sramScrub.get m 0 % max 1 words
  let s := sramFlip s m i
  let x := getSram s m i
  let r := secded s (popCount x.flipData 64 + popCount x.flipCheck 8)
  let clean := { x with flipData := 0, flipCheck := 0 }
  let s := { r.2 with mem := { r.2.mem with sramScrub := r.2.mem.sramScrub.set m ((i + 1) % max 1 words) 0 } }
  if r.1 = 0 then s
  else if r.1 = 1 then
    let s := noteError (setSram s m i clean) Ev.ECC_CE_SRAM (domainLoc d)
    ceOnce s (2 + m) Ev.ECC_CE_SRAM
  else raiseUc (noteError (setSram s m i clean) Ev.ECC_UC_SRAM (domainLoc d)) Ev.ECC_UC_SRAM d (domainLoc d)

/-- Operands: the macro, its size in words, its domain, and whether the step ends the pass over all macros. -/
def execSramScrubStep (m words d : Nat) (last : Bool) (s : State) : Host.Outcome State Fault Refusal :=
  .next <|
    if getF s Rg.ECC_SCRUB_CTRL_SRAM_PERIOD_MIN != 0 && domainOn s d && decide (d < 80) && decide (m < 4096) then
      let s := sramScrub s m words d
      if last then addF s Rg.ECC_SCRUB_STATUS_SRAM_PASSES else s
    else s

/-! ### ECC_FLIP_CTRL (R339) -/

def flipCtrlWrite (s : State) (v : Nat) : State :=
  let s := setF (setF s Rg.ECC_FLIP_CTRL_TARGET 0 v) Rg.ECC_FLIP_CTRL_ANY 0 (v / 8)
  setF (setF s Rg.ECC_FLIP_CTRL_MACRO 0 (v / 16)) Rg.ECC_FLIP_CTRL_ARM 0 (v / 2 ^ 31)

def execEccFlipArm (v : Nat) (s : State) : Host.Outcome State Fault Refusal := .next (flipCtrlWrite s v)

/-! ### HBM_TRAINING_DONE (R329, R332, R360) -/

def laneAt (lanes : List (Nat × Nat × Nat × Bool)) (n : Nat) : Nat × Nat × Nat × Bool := lanes.getD n (0, 0, 0, false)

/-- Every lane of a stack passes, and no pseudo-channel needs its redundant lane twice. -/
def lanesPass (k : Nat) (lanes : List (Nat × Nat × Nat × Bool)) : Bool :=
  (List.range 32).all fun pc =>
    let l := (List.range 4).map fun b => laneAt lanes (128 * k + 4 * pc + b)
    (l.all fun x => decide (16 ≤ x.2.2.1)) && decide ((l.filter (·.2.2.2)).length ≤ 1)

/-- A stack's contents are lost, and its repaired lanes are those of the training. -/
def replaceContents (s : State) (k : Nat) (red : SMap Bool) : State :=
  { s with mem := { s.mem with redundant := red, hbm := s.mem.hbm.filter fun p => wordStack p.1 != k } }

/-- The results of a full training of a stack; its contents are lost. -/
def fullTraining (s : State) (k : Nat) (lanes : List (Nat × Nat × Nat × Bool)) : State :=
  let s := foldS (List.range 128) (fun s i =>
    let n := 128 * k + i
    let x := laneAt lanes n
    let s := setF (setF s Rg.MEM_TRAIN_RESULT_READ_DLY n x.1) Rg.MEM_TRAIN_RESULT_WRITE_DLY n x.2.1
    let s := setB (setF s Rg.MEM_TRAIN_RESULT_EYE n x.2.2.1) Rg.MEM_TRAIN_RESULT_REPAIRED n x.2.2.2
    setB s Rg.MEM_TRAIN_RESULT_MARGINAL n false) s
  let red := (List.range 32).foldl (fun (m : SMap Bool) pc =>
    m.set (32 * k + pc) ((List.range 4).any fun b => (laneAt lanes (128 * k + 4 * pc + b)).2.2.2) false) s.mem.redundant
  replaceContents s k red

/-- The stack that holds the projection pool of the edition of start-up. -/
def poolStack (s : State) : Nat := if leAt (startupPools s) 0 8 < 0x600000000 then 0 else 1

/-- Dose maps and gain maps are lost with the pool they stand in (R420). -/
def losePool (s : State) : State :=
  { s with prj := { s.prj with dose := [], doseSize := [], gain := [], gainStaged := [] }, bg := { s.bg with doseChanged := [] } }

/-- One stack's training has ended; kept: restore training succeeded. -/
def stackTrained (s : State) (k : Nat) (ok kept : Bool) (lanes : List (Nat × Nat × Nat × Bool)) (deg : Int) : State :=
  let s := if kept then s
    else
      let s := fullTraining s k lanes
      if poolStack s = k then losePool s else s
  let s := setTrained s k ok
  if ok then setTrainTemp (setRetrain s k { Retrain.init with temp := deg }) k deg else s

/-- The order that the edition of start-up carries for a stack is in force from its full training on. -/
def placeOrders (s : State) (a b : Bool) : State :=
  let p := startupPools s
  let x := leAt p 22 1 % 4
  let y := leAt p 23 1 % 4
  let s := if a then setF s Rg.MEM_MAP_ORDER_A 0 x else s
  let s := if b then setF s Rg.MEM_MAP_ORDER_B 0 y else s
  setB s Rg.MEM_MAP_PENDING 0 (getF s Rg.MEM_MAP_ORDER_A != x || getF s Rg.MEM_MAP_ORDER_B != y)

/-- Training ends: the edition's turn comes, or MEM_TRAIN_FAIL stops start-up. -/
def trainingDone (s : State) (trained kept : Bool × Bool) (lanes : List (Nat × Nat × Nat × Bool)) (temps : Int × Int) : State :=
  let restore := s.clk.restore
  let ka := restore && kept.1
  let kb := restore && kept.2
  let oka := ka || (trained.1 && lanesPass 0 lanes)
  let okb := kb || (trained.2 && lanesPass 1 lanes)
  let s := placeOrders s (!ka) (!kb)
  let s := stackTrained (stackTrained s 0 oka ka lanes temps.1) 1 okb kb lanes temps.2
  let s := setSelfRefresh { s with clk := { s.clk with restore := false } } false
  let s := if restore then setB (setB s Rg.RST_CAUSE_HBM_KEPT 0 (ka && kb)) Rg.RST_CAUSE_HBM_LOST 0 (!(ka && kb)) else s
  if oka && okb then setF (causeEnds s Ev.MEM_TRAIN_FAIL) Rg.RST_STATUS_PHASE 0 5
  else raiseFe s Ev.MEM_TRAIN_FAIL (ascii (if oka then "HBMB.MEMORY" else "HBMA.MEMORY"))

def execHbmTrainingDone (trained kept : Bool × Bool) (lanes : List (Nat × Nat × Nat × Bool)) (temps : Int × Int) (s : State) :
    Host.Outcome State Fault Refusal :=
  .next (if phase s = 4 ∧ isLevel s Ev.MEM_TRAIN_FAIL = false then trainingDone s trained kept lanes temps else s)

end Sys2Proof.Machine
end

