-- ==== Sys2Proof/Machine/Clocks.lean ====
section
/-!
DEFINITION. The rows of 14_clocks_startup.md on oscillators, PLLs, clock measurement and clock gates (R345 to R357, R364), and
the timeouts of gates and drains (R373, R374).
-/

namespace Sys2Proof.Machine

/-! ### PLLs (R346, R349) -/

def pllSource (n : Nat) : Nat := Ev.CLK_PLL_UNLOCK_SPLL + n
def pllLocked (s : State) (n : Nat) : Bool := getB s Rg.CLK_PLL_CFG_LOCKED n

/-- LOCKED of one PLL, which CLK_STATUS shows too. -/
def setLocked (s : State) (n : Nat) (b : Bool) : State :=
  let w := getF s Rg.CLK_STATUS_PLL_LOCKED
  let s := setF s Rg.CLK_STATUS_PLL_LOCKED 0 (w - w / 2 ^ n % 2 * 2 ^ n + b.toNat * 2 ^ n)
  setB s Rg.CLK_PLL_CFG_LOCKED n b

def getRelock (s : State) (n : Nat) : Option Nat := s.clk.relock.get n none
def setRelock (s : State) (n : Nat) (x : Option Nat) : State :=
  { s with clk := { s.clk with relock := s.clk.relock.set n x none } }
def pllIsOff (s : State) (n : Nat) : Bool := s.clk.pllOff.get n false

def allPlls : List Nat := List.range 6

def setStage (s : State) (g : ClkStage) : State := { s with clk := { s.clk with stage := g } }

/-- Clock start reaches the PLLs: each begins to lock. -/
def beginPlls (s : State) : State := foldS allPlls (fun s n => setRelock s n (some s.now)) (setStage s .pllLock)

/-- Location of a clock fault (R11). -/
def clockLoc (unit : String) : List Byte := ascii "CORE.SENSOR." ++ ascii unit
def pllName (n : Nat) : String := ["SPLL", "PPLL", "FPLL", "CPLL", "MPLL", "TPLL"].getD n "SPLL"

/-! ### Judging the oscillators (R352 to R354) -/

def troPasses (n : Nat) : Bool := decide (375000 ≤ n) && decide (n ≤ 406250)
def xoPasses (n : Nat) : Bool := decide (4015 ≤ n) && decide (n ≤ 4177)

/-- The fifth TRO judgment has failed: clock hold, FAULT_N, no survey (R353). -/
def clockHold (s : State) : State :=
  let s := setF s Rg.CLK_BOOT_STATUS_CODE 0 3
  let s := if inFe s then mergeFault s Ev.CLK_TRO_FAIL 0
    else setF (recordFault s Ev.CLK_TRO_FAIL 0 (clockLoc "TRO")) Rg.FLT_STATE_STATE 0 2
  setF (setStage { s with pins := { s.pins with faultN := false } } .hold) Rg.RST_STATUS_PHASE 0 9

def troJudgment (s : State) (count : Nat) : State :=
  let s := addF (setF s Rg.CLK_JUDGE_TRO_COUNT 0 (min count (2 ^ 20 - 1))) Rg.CLK_BOOT_STATUS_TRO_TRIES
  if troPasses count then setStage s .xoWait
  else if 5 ≤ getF s Rg.CLK_BOOT_STATUS_TRO_TRIES then clockHold s
  else { s with clk := { s.clk with troAt := s.now + msNs } }

def execTroJudgment (count : Nat) (s : State) : Host.Outcome State Fault Refusal :=
  .next (if s.clk.stage = .troJudge ∧ s.clk.troAt ≤ s.now then troJudgment s count else s)

/-- Coast mode (R354): every PLL goes to TRO; FAULT_N is not asserted. -/
def enterCoast (s : State) : State :=
  let s := setF (setF (setF s Rg.CLK_STATUS_COAST 0 1) Rg.CLK_STATUS_XO_FAIL 0 1) Rg.CLK_STATUS_XO_OK 0 0
  raiseEv (setF s Rg.CLK_BOOT_STATUS_CODE 0 2) Ev.CLK_COAST

/-- XO has passed: it is present and the lasting cause of its loss is gone. -/
def xoGood (s : State) : State := causeEnds (setF (setF s Rg.CLK_STATUS_XO_OK 0 1) Rg.CLK_STATUS_XO_FAIL 0 0) Ev.CLK_XO_LOSS

def judgeXo (s : State) (count : Nat) : State :=
  let s := setF s Rg.CLK_JUDGE_XO_COUNT 0 (min count 65535)
  if xoPasses count then xoGood s else enterCoast s

def execXoJudgment (count : Nat) (s : State) : Host.Outcome State Fault Refusal :=
  .next (if s.clk.stage = .xoWait then beginPlls (judgeXo s count) else s)

/-- 10 ms without oscillation: the judgment starts and fails; its count is a free value (log 5). -/
def xoTimeout (s : State) : State :=
  let r := freshIndex s
  beginPlls (enterCoast (setF r.2 Rg.CLK_JUDGE_XO_COUNT 0 (Config.free r.1 % 65536)))

def execXoAmplitudeTimeout (s : State) : Host.Outcome State Fault Refusal :=
  .next (if s.clk.stage = .xoWait ∧ s.clk.xoAt + 10 * msNs ≤ s.now then xoTimeout s else s)

/-! ### Lock and loss of lock (R349, R362) -/

/-- The reaction of a PLL that waits for its lock. -/
def pllReaction (s : State) (n : Nat) : Option Reaction :=
  s.ev.reactions.find? fun r => r.unit == unitSpll + n && isPllUnit r.unit && !r.absorbed

/-- A PLL is locked: its cause ends, its reaction too; with all six locked clock start ends. -/
def pllLock (s : State) (n : Nat) : State :=
  let s := causeEnds (setRelock (setLocked s n true) n none) (pllSource n)
  if s.clk.stage = .pllLock then
    if allPlls.all (pllLocked s) then
      let s := if getB s Rg.CLK_STATUS_COAST then s else setF s Rg.CLK_BOOT_STATUS_CODE 0 1
      afterClocks (setStage s .done)
    else s
  else match pllReaction s n with
    | none => s
    | some r => finishReaction s r

def execPllLock (n : Nat) (s : State) : Host.Outcome State Fault Refusal :=
  .next (if decide (n < 6) && !pllLocked s n && (getRelock s n).isSome && !pllIsOff s n then pllLock s n else s)

/-- After UC_LIMIT reactions the PLL stays off and its units are held. -/
def pllLimit (s : State) (n : Nat) : State :=
  match pllReaction s n with
  | none => s
  | some r =>
    if overLimit s r then
      holdUnit { setRelock s n none with clk := { (setRelock s n none).clk with pllOff := s.clk.pllOff.set n true false } } r
    else s

/-- The UC of SPLL, PPLL and TPLL, the FE of the others. -/
def raiseUnlock (s : State) (n : Nat) : State :=
  let loc := clockLoc (pllName n)
  if sourceClass (pllSource n) = .uc then pllLimit (raiseUc s (pllSource n) 0 loc) n else raiseFe s (pllSource n) loc

def pllUnlock (s : State) (n : Nat) : State :=
  raiseUnlock (setRelock (addF (setLocked s n false) Rg.CLK_PLL_CFG_UNLOCKS n) n (some s.now)) n

/-- A locked PLL in service loses its lock. -/
def execPllUnlock (n : Nat) (s : State) : Host.Outcome State Fault Refusal :=
  .next (if decide (n < 6) && pllLocked s n && decide (s.clk.stage = .done) then pllUnlock s n else s)

/-- 1 ms without lock: at clock start CODE tells it; a UC PLL counts a further reaction of its unit. -/
def pllTimeout (s : State) (n : Nat) : State :=
  if s.clk.stage = .pllLock then setF s Rg.CLK_BOOT_STATUS_CODE 0 4
  else if sourceClass (pllSource n) = .uc then
    let s := setRelock s n (some s.now)
    match pllReaction s n with
    | none => if inFe s then s else raiseUnlock s n
    | some r =>
      let rs := s.ev.reactions.map fun x => if x.unit = r.unit then { x with start := s.now } else x
      pllLimit (countStart { s with ev := { s.ev with reactions := rs } } r.unit) n
  else s

def execPllRelockTimeout (n : Nat) (s : State) : Host.Outcome State Fault Refusal :=
  .next <|
    match getRelock s n with
    | none => s
    | some t => if decide (n < 6) && !pllLocked s n && decide (t + msNs ≤ s.now) then pllTimeout s n else s

/-! ### FREQ_MHZ (R348, R364) -/

/-- A write is ignored before READY and while a schedule runs; a value outside the range stores the nearest limit, and the PLL
relocks. -/
def pllFreqWrite (s : State) (n mhz : Nat) : State :=
  if decide (6 ≤ n) || !running s || s.sht.running.isSome then s
  else
    let v := max (pllLowestTable.getD n 0) (min (pllNominalTable.getD n 0) mhz)
    let s := setF s Rg.CLK_PLL_CFG_FREQ_MHZ n v
    if pllIsOff s n then s else setRelock (setLocked s n false) n (some s.now)

def execClkPllFreqWrite (n mhz : Nat) (s : State) : Host.Outcome State Fault Refusal := .next (pllFreqWrite s n (mhz % 4096))

/-! ### XO loss and return, TRO_BAD (R313, R354 to R357, R364) -/

/-- A PLL loses its reference in the clock-loss reset: its unlock is merged (R349, R356). -/
def coastPll (s : State) (n : Nat) : State :=
  if pllLocked s n then
    mergeFault (addF (setLocked s n false) Rg.CLK_PLL_CFG_UNLOCKS n) (pllSource n) (((ucUnit (pllSource n) 0).map (·.param)).getD 0)
  else s

/-- The FE of the clock loss, without HOLD, survey or policy (R313), and the clock-loss reset. -/
def clockLoss (s : State) : State :=
  let s := setF (setF s Rg.CLK_STATUS_XO_OK 0 0) Rg.CLK_STATUS_XO_FAIL 0 1
  let s := if inFe s then mergeFault s Ev.CLK_XO_LOSS 0
    else
      let s := setF (recordFault s Ev.CLK_XO_LOSS 0 (clockLoc "XO")) Rg.FLT_STATE_STATE 0 2
      { s with ev := { s.ev with merged := 0 } }
  let s := { s with pins := { s.pins with faultN := false } }
  clockLossReset (foldS allPlls coastPll s)

/-- A warm reset has not ended (R364). -/
def warmRuns (s : State) : Bool :=
  match s.clk.running with
  | none => false
  | some k => decide (kindWarmPolicy ≤ k) && decide (k ≤ kindWarmSmbus)

/-- TRO declares XO lost. -/
def xoLoss (s : State) : State :=
  if getB s Rg.CLK_STATUS_COAST then setF s Rg.CLK_STATUS_XO_OK 0 0
  else if 2 < getF s Rg.PWR_STATE_STATE then
    if getF s Rg.PWR_STATE_STATE = 3 then setF (setF s Rg.CLK_STATUS_XO_OK 0 0) Rg.CLK_STATUS_XO_FAIL 0 1 else s
  else if s.clk.stage = .pllLock then enterCoast (foldS allPlls (fun s n => setLocked s n false) (beginPlls s))
  else if s.clk.stage = .done then
    (if phase s < phReady ∧ warmRuns s = false then enterCoast s else clockLoss s)
  else s

def execXoLoss (s : State) : Host.Outcome State Fault Refusal := .next (xoLoss s)

/-- In coast mode XO oscillates again: coast goes on. -/
def execXoReturn (count : Nat) (s : State) : Host.Outcome State Fault Refusal :=
  .next (if getB s Rg.CLK_STATUS_COAST && xoPasses count then causeEnds (setF s Rg.CLK_STATUS_XO_OK 0 1) Ev.CLK_XO_LOSS else s)

/-- Every second in service TRO is judged against XO. -/
def execTroCheck (count : Nat) (s : State) : Host.Outcome State Fault Refusal :=
  .next <|
    if (phase s == phReady || phase s == phSafe) && !getB s Rg.CLK_STATUS_COAST && decide (getF s Rg.PWR_STATE_STATE ≤ 2) then
      setB s Rg.CLK_STATUS_TRO_BAD 0 (!xoPasses count)
    else s

/-! ### The measuring counter (R351) -/

/-- A write of CLK_MEAS_CTRL. -/
def measWrite (s : State) (v : Nat) : State :=
  let m := v % 32
  let r := v / 256 % 32
  let w := v / 2 ^ 16 % 32
  let s := setF (setF s Rg.CLK_MEAS_CTRL_MEAS_SEL 0 (if 24 ≤ m then 0 else m)) Rg.CLK_MEAS_CTRL_REF_SEL 0 (if 24 ≤ r then 1 else r)
  let s := setF s Rg.CLK_MEAS_CTRL_WINDOW_LOG2 0 (max 8 (min 24 w))
  if bit v 24 then
    let s := setF (setF s Rg.CLK_MEAS_RESULT_DONE 0 0) Rg.CLK_MEAS_RESULT_NO_CLOCK 0 0
    { setF s Rg.CLK_MEAS_CTRL_BUSY 0 1 with clk := { s.clk with measAt := some s.now } }
  else s

def execClkMeasStart (v : Nat) (s : State) : Host.Outcome State Fault Refusal := .next (measWrite s v)

/-- The window ends. -/
def execClkMeasDone (count : Nat) (s : State) : Host.Outcome State Fault Refusal :=
  .next <|
    match s.clk.measAt with
    | none => s
    | some _ =>
      let s := setF (setF s Rg.CLK_MEAS_RESULT_COUNT 0 (min count (2 ^ 32 - 1))) Rg.CLK_MEAS_RESULT_DONE 0 1
      raiseEv { setF s Rg.CLK_MEAS_CTRL_BUSY 0 0 with clk := { s.clk with measAt := none } } Ev.CLK_MEASURE_DONE

/-- The reference gave no edge for 1 s. -/
def execClkMeasNoClock (s : State) : Host.Outcome State Fault Refusal :=
  .next <|
    match s.clk.measAt with
    | none => s
    | some t =>
      if t + secNs ≤ s.now then
        { setF (setF s Rg.CLK_MEAS_RESULT_NO_CLOCK 0 1) Rg.CLK_MEAS_CTRL_BUSY 0 0 with clk := { s.clk with measAt := none } }
      else s

/-! ### Clock gates on demand (R350, R373) -/

/-- The clock of a domain's unit as FORCE_ON numbers it: SCRCLK, PRJCLK, FABCLK, MEMCLK; none for one that is never gated. -/
def gateClock (d : Nat) : Option Nat :=
  if 6 ≤ d ∧ d ≤ 29 then some 0
  else if 31 ≤ d ∧ d ≤ 34 then some 1
  else if [30, 36, 37, 38, 41, 58, 59, 60, 77, 78, 79].contains d then some 2
  else if d = 39 ∨ d = 40 then some 3
  else none

/-- No work is in a unit, as far as the state shows. -/
def unitIdle (s : State) (d : Nat) : Bool :=
  if 6 ≤ d ∧ d ≤ 29 then (getCore s (d - 6)).job.isNone
  else if d = 30 then !anyStream s
  else if 31 ≤ d ∧ d ≤ 34 then (s.prj.sheets.all fun p => p.2.isEmpty) && s.prj.views.all fun v => v.2.composing.isNone
  else if d = 39 ∨ d = 40 then (getMerge s (d - 39)).isEmpty && !(getRetrain s (d - 39)).active
  else s.sw.bufs.isEmpty && s.tm.queues.all fun q => q.2.isEmpty

/-- Gates of the unit may close: IDLE_US is not 0 and FORCE_ON does not hold its clock's gates open. -/
def mayGate (s : State) (d : Nat) : Bool :=
  match gateClock d with
  | none => false
  | some k => getF s Rg.CLK_GATE_CTRL_IDLE_US != 0 && !bit (getF s Rg.CLK_GATE_CTRL_FORCE_ON) k && domainOn s d

def setGated (s : State) (d : Nat) (b : Bool) : State := { s with clk := { s.clk with gated := s.clk.gated.set d b false } }

/-- A gate is shut while its unit is idle; work opens it. -/
def gateShut (s : State) (d : Nat) : Bool := s.clk.gated.get d false && unitIdle s d && mayGate s d

def execClockGateIdleClose (d : Nat) (s : State) : Host.Outcome State Fault Refusal :=
  .next (if mayGate s d && unitIdle s d then setGated s d true else s)

/-- A unit asked for a state or a gate counts as deferring (R371, R373). -/
def entryDefer (s : State) (d us : Nat) : State :=
  match s.pwr.entry with
  | none => s
  | some e =>
    if e.units.contains d && decide (e.answers.get d .none ≠ .ack) then
      let s := if e.deferred then s else raiseEv s Ev.PWR_ENTRY_DEFERRED
      { s with pwr := { s.pwr with entry := some { e with deferred := true, answers := e.answers.set d (.defer (s.now + us * usNs)) .none } } }
    else s

/-- 4,096 CFGCLK cycles on a busy block: the gate stays open. -/
def gateTimeout (s : State) (d : Nat) : State :=
  let s := addF (setGated s d false) Rg.PWR_DOMAIN_GATE_TIMEOUTS d
  let s := if oncePerSecond s (s.clk.gateTimeoutAt.get d none) then
      let s := { s with clk := { s.clk with gateTimeoutAt := s.clk.gateTimeoutAt.set d (some s.now) none } }
      raiseEv s Ev.PWR_GATE_TIMEOUT
    else s
  entryDefer s d 100

/-- A close of the unit's gate is being asked for. -/
def closeAsked (s : State) (d : Nat) : Bool :=
  mayGate s d || match s.pwr.entry with
    | none => false
    | some e => e.units.contains d

def execGateBusyTimeout (d : Nat) (s : State) : Host.Outcome State Fault Refusal :=
  .next (if decide (1 ≤ d) && decide (d < 80) && closeAsked s d then gateTimeout s d else s)

/-! ### The stand-in responder and drains (R23, R374) -/

/-- An access that the stand-in responder answers. -/
def standInAccess (s : State) (d off : Nat) (write : Bool) : State :=
  let s := if write then s else emit s (.readData off (standIn d))
  raiseEv (addF s Rg.PWR_DOMAIN_STANDIN_ACCESSES d) Ev.PWR_STANDIN_ACCESS d off

/-- Requests held for the domain are answered by the stand-in responder. -/
def answerHeld (s : State) (d : Nat) : State :=
  let l := s.pwr.held.filter fun h => h.domain == d
  let s := { s with pwr := { s.pwr with held := s.pwr.held.filter fun h => h.domain != d } }
  foldS l (fun s h => standInAccess s d h.off h.write.isSome) s

/-- 10 µs into a drain. -/
def execDrainReplyTimeout (d : Nat) (s : State) : Host.Outcome State Fault Refusal :=
  .next (if domainState s d = domDraining ∨ domainState s d = domReset then answerHeld s d else s)

end Sys2Proof.Machine
end

