-- ==== Sys2Proof/Machine/Sensors.lean ====
section
/-!
DEFINITION. The monitors of the sensor complex (R425, R427): samples, warnings with their hysteresis, critical crossings.
-/

namespace Sys2Proof.Machine

/-- What an open sensor reports (R427). -/
def openSensor : Int := -32768

def getTempMon (s : State) (i : Nat) : Monitor := s.bg.temps.get i Monitor.init
def setTempMon (s : State) (i : Nat) (m : Monitor) : State := { s with bg := { s.bg with temps := s.bg.temps.set i m Monitor.init } }
def getRailMon (s : State) (i : Nat) : Monitor := s.bg.rails.get i Monitor.init
def setRailMon (s : State) (i : Nat) (m : Monitor) : State := { s with bg := { s.bg with rails := s.bg.rails.set i m Monitor.init } }

/-- A warning: consecutive samples past the threshold, and whether it stands; it is raised at the fourth, and again only after
the value has come back inside. -/
def warnStep (n : Nat) (stands past back : Bool) : Nat × Bool × Bool :=
  let n := if past then min (n + 1) 4 else 0
  let fire := n == 4 && !stands
  (n, fire || (stands && !back), fire)

/-! ### Temperatures -/

def tempCrit (s : State) (i : Nat) (v : Int) : Bool := v != openSensor && decide (getS s Rg.SNS_TEMP_THR_CRIT i < v)

/-- Consecutive samples of a sensor past its critical threshold. -/
def tempCritStep (s : State) (i : Nat) (v : Int) : State :=
  let m := getTempMon s i
  setTempMon s i { m with crit := if tempCrit s i v then min (m.crit + 1) 2 else 0 }

def tempSample (s : State) (i : Nat) (v : Int) : State :=
  let high := getS s Rg.SNS_TEMP_THR_HIGH i
  let past := v != openSensor && decide (high < v)
  let s := setB (setS s Rg.SNS_TEMP_VALUE i v) Rg.SNS_TEMP_HIGH i past
  let s := tempCritStep (setB s Rg.SNS_TEMP_CRIT i (tempCrit s i v)) i v
  let m := getTempMon s i
  let w := warnStep m.warn m.warned past (v != openSensor && decide (v + 8 ≤ high))
  let s := setTempMon s i { m with warn := w.1, warned := w.2.1 }
  if w.2.2 then raiseEv s Ev.SNS_TEMP_HIGH else s

/-! ### Rails -/

def railCrit (s : State) (i : Nat) (v : Int) : Bool :=
  v != openSensor && (decide (v < getF s Rg.SNS_RAIL_THR_LOW_CRIT i) || decide ((getF s Rg.SNS_RAIL_THR_HIGH_CRIT i : Int) < v))

def railCritStep (s : State) (i : Nat) (v : Int) : State :=
  let m := getRailMon s i
  setRailMon s i { m with crit := if railCrit s i v then min (m.crit + 1) 2 else 0 }

def railSample (s : State) (i : Nat) (v : Int) : State :=
  let low : Int := getF s Rg.SNS_RAIL_THR_LOW_WARN i
  let high : Int := getF s Rg.SNS_RAIL_THR_HIGH_WARN i
  let ok := v != openSensor
  let s := setB (setB (setS s Rg.SNS_RAIL_MV i v) Rg.SNS_RAIL_LOW i (ok && decide (v < low))) Rg.SNS_RAIL_HIGH i (ok && decide (high < v))
  let s := railCritStep (setB s Rg.SNS_RAIL_CRIT i (railCrit s i v)) i v
  let m := getRailMon s i
  let a := warnStep m.warn m.warned (ok && decide (v < low)) (ok && decide (low + 10 ≤ v))
  let b := warnStep m.warn2 m.warned2 (ok && decide (high < v)) (ok && decide (v + 10 ≤ high))
  let s := setRailMon s i { m with warn := a.1, warned := a.2.1, warn2 := b.1, warned2 := b.2.1 }
  let s := if a.2.2 then raiseEv s Ev.SNS_RAIL_LOW else s
  if b.2.2 then raiseEv s Ev.SNS_RAIL_HIGH else s

/-! ### Critical values -/

/-- Sources whose critical threshold has been crossed for 2 samples and whose cause is not yet known. -/
def critSources (s : State) : List Nat :=
  (if s.bg.temps.any (fun m => m.2.crit == 2) && !isLevel s Ev.SNS_TEMP_CRIT then [Ev.SNS_TEMP_CRIT] else []) ++
  (if s.bg.rails.any (fun m => m.2.crit == 2) && !isLevel s Ev.SNS_RAIL_CRIT then [Ev.SNS_RAIL_CRIT] else [])

/-- A cause ends when no value is critical any more. -/
def critEnds (s : State) : State :=
  let s := if s.bg.temps.any fun m => m.2.crit != 0 then s else causeEnds s Ev.SNS_TEMP_CRIT
  if s.bg.rails.any fun m => m.2.crit != 0 then s else causeEnds s Ev.SNS_RAIL_CRIT

/-- Index and value of each sample given. -/
def indexed (l : List Int) (n : Nat) : List (Nat × Int) := (List.range (min n l.length)).map fun i => (i, l.getD i 0)

/-- All sensors and rails are sampled; then the stacks' retraining is judged (R333). -/
def sensorSample (s : State) (temps rails : List Int) : State :=
  let s := foldS (indexed temps 32) (fun s p => tempSample s p.1 p.2) s
  let s := foldS (indexed rails 12) (fun s p => railSample s p.1 p.2) s
  let s := foldS (critSources s) (fun s n => raiseFe s n (domainLoc 0)) (critEnds s)
  checkRetrain (checkRetrain s 0) 1

/-- Only the critical thresholds are checked, of the sensors and rails given. -/
def critSample (s : State) (temps rails : List (Nat × Int)) : State :=
  critEnds (foldS rails (fun s p => railCritStep s p.1 p.2) (foldS temps (fun s p => tempCritStep s p.1 p.2) s))

end Sys2Proof.Machine
end

