-- ==== Sys2Proof/Machine/Power.lean ====
section
/-!
DEFINITION. The rows of 15_power.md: entry handshakes (R371, R372), device states (R369, R370, R376, R380), automatic gates
(R368), WATCH sampling (R377), the real-time clock (R378), wakes (R379), and PERST_N (R359, R363).
-/

namespace Sys2Proof.Machine

def devState (s : State) : Nat := getF s Rg.PWR_STATE_STATE

/-! ### Units asked and their answers (R371, R372) -/

/-- Units that an entry asks: the event controller of PD00, and those whose domain it affects and finds on. -/
def entryUnits (s : State) (target : Nat) (gate : Option (Nat × Nat)) : List Nat :=
  let l := match gate with
    | some (d, _) => [d]
    | none => if target = 1 then rangeFrom 5 31 else if target = 2 then rangeFrom 5 31 ++ [39, 40] else rangeFrom 1 79
  0 :: l.filter (domainOn s)

/-- A lane of the die of PD60 or PD79, or of either die for PD41, is enabled (R28). -/
def laneHolds (s : State) (d : Nat) : Bool :=
  (d == 41 || d == 60 || d == 79) && anyLane s (domainLanes d).1 (domainLanes d).2

/-- The reason for which a unit refuses. -/
def refusal (s : State) (e : PwrEntry) (d : Nat) : Option Nat :=
  if d = 0 then (if getF s Rg.FLT_STATE_STATE = 0 then none else some 6)
  else if e.domain.isSome then (if laneHolds s d then some 2 else none)
  else if (d == 5 || (decide (31 ≤ d) && decide (d ≤ 35))) && s.sht.running.isSome then some 1
  else if d = 30 ∧ 2 ≤ e.target ∧ anyStream s = true then some 3
  else if d = 3 ∧ 3 ≤ e.target ∧ (s.hif.cmds.any fun c => some c.id != e.cmd) = true then some 4
  else if d = 1 ∧ (!s.sec.jobs.isEmpty || s.ev.survey.isSome) = true then some 5
  else if (d = 39 ∨ d = 40) ∧ (decide (phase s < phReady) || s.clk.restore) = true then some 7
  else if d = 35 ∧ e.target = 4 ∧ (!s.bg.doseChanged.isEmpty && !e.forceDose) = true then some 8
  else none

/-- A unit that cannot yet acknowledge: open merge entries are being written; the Compass is between safe points. -/
def mustDefer (s : State) (d : Nat) : Bool :=
  ((d == 39 || d == 40) && !(getMerge s (d - 39)).isEmpty) || (d == 1 && s.sec.gap != 0)

def allAcked (e : PwrEntry) : Bool := e.units.all fun d => e.answers.get d .none == .ack

/-! ### The alarm (R378, R381) -/

def rtcSec (s : State) : Nat := rtcUnits s / 32768
def alarmValid (e : List Byte) : Bool := bit (leAt e 21 1) 2
def domainFlag (e : List Byte) : Bool := bit (leAt e 21 1) 0

/-- The alarm is not at least 2 s ahead. -/
def alarmLate (s : State) (e : List Byte) : Bool :=
  alarmValid e && decide ((leAt e 24 4 + 2 ^ 32 - rtcSec s % 2 ^ 32) % 2 ^ 32 < 2)

/-- The alarm and the device state stand in triplicated words 14 and 15 too (R338, log 24). -/
def keepPower (s : State) : State :=
  writeTmr (writeTmr s 14 (devState s + 8 * getF s Rg.PWR_RTC_ALARM_ARMED)) 15 (getF s Rg.PWR_RTC_ALARM_SEC_LOW)

/-- A POWER_STATE that takes effect sets the alarm or, unless it names a domain, clears it. -/
def setAlarm (s : State) (e : List Byte) : State :=
  if alarmValid e then keepPower (setF (setF s Rg.PWR_RTC_ALARM_SEC_LOW 0 (leAt e 24 4)) Rg.PWR_RTC_ALARM_ARMED 0 1)
  else if domainFlag e then s
  else keepPower (setF s Rg.PWR_RTC_ALARM_ARMED 0 0)

/-- The command of an entry completes OK with the MST. -/
def entryOk (s : State) (cmd : Option Nat) : State :=
  match cmd.bind (findCmd s) with
  | none => s
  | some c => complete (setAlarm s c.entry) c St.ok (mst s)

/-! ### What entries lead to (R368 to R370, R376) -/

def clearEntry (s : State) : State := { setF s Rg.PWR_STATE_ENTERING 0 0 with pwr := { s.pwr with entry := none } }

/-- IDLE: gates closed. NAP: PD06 to PD35 retained, SPLL and PPLL off. -/
def enterShallow (s : State) (t : Nat) : State :=
  let s := shallowToRun s
  let s := if t = 2 then
      let s := setLocked (setLocked s 0 false) 1 false
      foldS (rangeFrom 6 30) (fun s d => if domainOn s d then setDomain s d domRetained else s) s
    else foldS (rangeFrom 6 30) (fun s d => if (gateClock d).isSome then setGated s d true else s) s
  setF s Rg.PWR_STATE_STATE 0 t

/-- A policy gate: AUTO retains; OFF powers off, and the unit starts from its reset values with its configuration. -/
def gateDomain (s : State) (d policy : Nat) : State :=
  let s := if policy = 2 then setDomain (leaveReset (unitReset s d) d) d domOff else setDomain s d domRetained
  let s := { s with pwr := { s.pwr with idleSince := s.pwr.idleSince.set d none none } }
  if 6 ≤ d ∧ d ≤ 29 then setCoreState s (d - 6) coreOff else s

def setPolicy (s : State) (d p : Nat) : State := setF s Rg.PWR_DOMAIN_POLICY d p

/-- WATCH and DORMANT are committed: the completion is written and its vector fires at once. -/
def commitEntry (s : State) (e : PwrEntry) : State :=
  match e.cmd.bind (findCmd s) with
  | none => { s with pwr := { s.pwr with entry := none, committed := some (e.target, s.now, 64, 0) } }
  | some c =>
    let q := cqOf s c.sq
    let s := entryOk s e.cmd
    let v := getF s Rg.HIF_CQ_CFG_VECTOR q
    let s := if getF s Rg.HIF_VEC_MOD_PENDING v = 0 then s else fireVector s v
    { s with pwr := { s.pwr with entry := none, committed := some (e.target, s.now, q, (getCq s q).written) } }

/-- Comparators, period and wake enables are those of the registers from the entry on (R382). -/
def takeWatch (s : State) : State :=
  let n := getF s Rg.PWR_WATCH_CFG_COMPARATORS
  let cmps := (List.range n).map fun i => getF s Rg.PWR_WATCH_CMP_RECORD i
  { s with pwr := { s.pwr with cmps := cmps, period := getF s Rg.PWR_WATCH_CFG_PERIOD_MS, wakeEn := getF s Rg.PWR_WAKE_EN_ENABLE } }

/-- Abandon an entry: fences reopen, and nothing changes. -/
def abandonEntry (s : State) (e : PwrEntry) (d reason : Nat) : State :=
  let s := clearEntry s
  let s := if reason = 0 then s else setF (setF s Rg.PWR_STATE_REFUSE_DOMAIN 0 d) Rg.PWR_STATE_REFUSE_REASON 0 reason
  let s := raiseEv s Ev.PWR_ENTRY_REFUSED d reason
  match e.cmd, e.domain with
  | some id, _ => if reason = 0 then completeId s id St.busy else completeId s id St.stateConflict 0 (d + 256 * reason)
  | none, some (g, _) => { s with pwr := { s.pwr with idleSince := s.pwr.idleSince.set g (some s.now) none } }
  | none, none => s

/-- Every unit has acknowledged. -/
def proceedEntry (s : State) (e : PwrEntry) : State :=
  match refusal s e 0 with
  | some r => abandonEntry s e 0 r
  | none =>
    match e.domain with
    | some (d, p) =>
      let s := gateDomain (clearEntry s) d p
      entryOk (if e.cmd.isSome then setPolicy s d p else s) e.cmd
    | none =>
      if e.target < 3 then entryOk (keepPower (takeWatch (enterShallow (clearEntry s) e.target))) e.cmd
      else commitEntry s e

def beginEntry (s : State) (e : PwrEntry) : State :=
  let s := if e.domain.isSome then s else setF (setF s Rg.PWR_STATE_TARGET 0 e.target) Rg.PWR_STATE_ENTERING 0 1
  { s with pwr := { s.pwr with entry := some e } }

/-! ### POWER_STATE (R381) -/

def startPowerState (_ : State) (e : List Byte) : Begin :=
  let t := leAt e 28 2
  if domainFlag e then
    let d := leAt e 22 1
    checked [(decide (1 ≤ d) && decide (d ≤ 79), 22), (policyAllowed d (leAt e 23 1), 23), (t ≤ 10000, 28)] .run
  else
    checked [(leAt e 20 1 ≤ 4, 20), (decide (t ≤ 10000) && (t != 0 || leAt e 20 1 == 0), 28)] .run

/-- Another POWER_STATE is still entering. -/
def entering (s : State) : Bool :=
  s.pwr.committed.isSome || match s.pwr.entry with
    | none => false
    | some e => e.cmd.isSome

/-- An automatic gate in progress gives way to a command. -/
def yieldGate (s : State) : State :=
  match s.pwr.entry with
  | none => s
  | some e => match e.domain with
    | none => s
    | some (g, _) => { s with pwr := { s.pwr with entry := none, idleSince := s.pwr.idleSince.set g (some s.now) none } }

def newEntry (s : State) (c : Cmd) (target : Nat) (gate : Option (Nat × Nat)) (units : List Nat) : PwrEntry :=
  let t := leAt c.entry 28 2
  let window := if t = 0 then getF s Rg.PWR_CTRL_AUTO_WINDOW_MS else t
  ⟨target, gate, some c.id, units, [], s.now + window * msNs, false, bit (leAt c.entry 21 1) 1⟩

/-- A policy: ON wakes the domain; AUTO and OFF gate it if it has no user. -/
def requestPolicy (s : State) (c : Cmd) (d p : Nat) : State :=
  if p = 0 then
    let s := setPolicy s d 0
    if domainState s d = domRetained ∨ domainState s d = domOff ∨ domainState s d = domWaking then
      beginEntry (setDomain s d domWaking) (newEntry s c 0 (some (d, 0)) [])
    else entryOk s (some c.id)
  else if laneHolds s d then abandonEntry s (newEntry s c 0 (some (d, p)) []) d 2
  else if domainUsed s d || !domainOn s d then entryOk (setPolicy s d p) (some c.id)
  else beginEntry s (newEntry s c 0 (some (d, p)) (entryUnits s 0 (some (d, p))))

def runPowerState (s : State) (c : Cmd) (_ : List Byte) : State :=
  let e := c.entry
  let t := leAt e 20 1
  if alarmLate s e then complete s c St.timePast
  else if !domainFlag e && t == devState s then complete s c St.ok (mst s)
  else if entering s then complete s c St.busy
  else
    let s := yieldGate s
    if domainFlag e then requestPolicy s c (leAt e 22 1) (leAt e 23 1)
    else if t = 0 then entryOk (keepPower (shallowToRun s)) (some c.id)
    else beginEntry s (newEntry s c t none (entryUnits s t none))

def execPowerState (q : Nat) (s : State) : Host.Outcome State Fault Refusal :=
  .next (ringRow Op.powerState anyEntry startPowerState runPowerState q s)

/-! ### POWER_UNIT_ANSWER, POWER_DEFER_RETRY, ENTRY_WINDOW_TIMEOUT (R371, R372) -/

/-- A unit that was asked answers; the event controller may still refuse after its ACK (R383). -/
def unitAnswer (s : State) (d us : Nat) : State :=
  match s.pwr.entry with
  | none => s
  | some e =>
    let fresh := e.answers.get d .none == .none
    if !e.units.contains d || decide (e.deadline ≤ s.now) then s
    else match refusal s e d with
      | some r => if fresh || d == 0 then abandonEntry s e d r else s
      | none =>
        if !fresh then s
        else if us ≠ 0 then entryDefer s d (min us 65535)
        else if mustDefer s d then s
        else
          let e := { e with answers := e.answers.set d .ack .none }
          let s := { s with pwr := { s.pwr with entry := some e } }
          if allAcked e then proceedEntry s e else s

def execPowerUnitAnswer (d us : Nat) (s : State) : Host.Outcome State Fault Refusal := .next (unitAnswer s d us)

/-- The time of a DEFER has passed: the unit is asked again. -/
def deferRetry (s : State) (d : Nat) : State :=
  match s.pwr.entry with
  | none => s
  | some e =>
    match e.answers.get d .none with
    | .defer t => if t ≤ s.now then { s with pwr := { s.pwr with entry := some { e with answers := e.answers.set d .none .none } } } else s
    | _ => s

def execPowerDeferRetry (d : Nat) (s : State) : Host.Outcome State Fault Refusal := .next (deferRetry s d)

/-- The entry window has passed: the first unit without an ACK is named. -/
def windowTimeout (s : State) : State :=
  match s.pwr.entry with
  | none => s
  | some e =>
    if decide (s.now < e.deadline) || allAcked e then s
    else abandonEntry s e ((e.units.find? fun d => e.answers.get d .none != .ack).getD 0) 0

def execEntryWindowTimeout (s : State) : Host.Outcome State Fault Refusal := .next (windowTimeout s)

/-! ### AUTO_DOMAIN_GATE (R367, R368) -/

/-- The hold time has passed without a user; after an abandoned gate it counts from there. -/
def mayAutoGate (s : State) (d : Nat) : Bool :=
  let p := getF s Rg.PWR_DOMAIN_POLICY d
  let hold := getF s Rg.PWR_CTRL_AUTO_HOLD_MS * msNs
  let waited := match s.pwr.idleSince.get d none with
    | none => true
    | some t => decide (t + hold ≤ s.now)
  decide (1 ≤ d) && decide (d < 80) && p != 0 && policyAllowed d p && domainOn s d && !domainUsed s d && s.pwr.entry.isNone &&
    s.pwr.committed.isNone && running s && waited

def execAutoDomainGate (d : Nat) (s : State) : Host.Outcome State Fault Refusal :=
  .next <|
    if mayAutoGate s d then
      let g := (d, getF s Rg.PWR_DOMAIN_POLICY d)
      beginEntry s ⟨0, some g, none, entryUnits s 0 (some g), [], s.now + getF s Rg.PWR_CTRL_AUTO_WINDOW_MS * msNs, false, false⟩
    else s

/-! ### WATCH_ENTRY_PROCEED (R376) -/

/-- Every enabled lane goes down, its configuration kept. -/
def lanesDown (s : State) : State := foldS (List.range 128) takeDown s

/-- Awake engines go to sleep with NEEDS_KICK set. -/
def enginesSleep (s : State) : State :=
  foldS (List.range 64) (fun s q => if sqState s q = sqAwake then setSqState (writeNeedsKick s q true) q sqAsleep else s) s

/-- PD01 to PD79 are retained. -/
def retainAll (s : State) : State :=
  foldS (rangeFrom 1 79) (fun s d => if domainState s d = domOff ∨ domainState s d = domReset then s else setDomain s d domRetained)
    (foldS (rangeFrom 1 79) answerHeld s)

/-- PD01 to PD79 are powered off, and HBM too: their contents are lost; PD00 keeps its registers (R308).
It is no reset, so a trial does not end. -/
def powerOffAll (s : State) : State :=
  let s := resetUnits (setF (dropBuffers s) Rg.TOP_STATUS_TRIAL 0 0) (fun off => domainOf off == 0) false
  let s := { s with hif := Hif.init }
  foldS (rangeFrom 1 79) (fun s d => setDomain s d domOff) (setF s Rg.CLK_STATUS_XO_OK 0 0)

/-- Steps 3 to 6 of the entry. -/
def enterDeep (s : State) (t : Nat) : State :=
  let s := takeWatch (enginesSleep (lanesDown s))
  let s := { s with pwr := { s.pwr with committed := none, runs := [], matched := [] } }
  let s := setF (setF s Rg.PWR_WATCH_STATUS_SAMPLES 0 0) Rg.PWR_WATCH_STATUS_MATCHED 0 0
  let s := flushMerge s
  let s := if s.hif.linkUp then linkDown s else s
  let s := foldS allPlls (fun s n => setRelock (setLocked s n false) n none) s
  let s := if t = 3 then retainAll (setSelfRefresh s true) else powerOffAll s
  keepPower (setF (setF s Rg.PWR_STATE_STATE 0 t) Rg.PWR_STATE_ENTERING 0 0)

/-- CQ_HEAD passes the completion, or 1 ms has gone. -/
def watchProceed (s : State) : State :=
  match s.pwr.committed with
  | none => s
  | some (t, since, q, w) =>
    let passed := decide (q < 64) && hostReachable s && decide ((cqHead s q + 2 ^ 32 - w) % 2 ^ 32 < 2 ^ 31)
    if passed || decide (since + msNs ≤ s.now) then enterDeep s t else s

def execWatchEntryProceed (s : State) : Host.Outcome State Fault Refusal := .next (watchProceed s)

/-! ### PERST_N (R359, R363, R364) -/

/-- The reset that an assertion of PERST_N makes while an edition may run; isolated, it is a hot reset. -/
def perstReset (s : State) : State :=
  if getB s Rg.RST_CTRL_PERST_ISOLATE && phase s == phReady && !s.sec.edition.isEmpty then hotReset s
  else coldReset (if s.sht.running.isSome then stopHold s else s) kindColdPerst

/-! ### Waking (R379, R380) -/

/-- The MST that the real-time clock gives. -/
def rtcMst (s : State) : Nat := (rtcSec s * 1000000000 + rtcUnits s % 32768 * 1000000000 / 32768) % 2 ^ 32

/-- A wake from WATCH or DORMANT begins; from DORMANT clock start runs from TRO on, then start-up with the active edition. -/
def wakeDeep (s : State) (sources : Nat) (fault : Option Nat) : State :=
  let from_ := devState s
  let s := writeWakeRecord s sources from_ (rtcMst s)
  let s := if getB s Rg.HIF_PM_CTRL_WAKE_N_EN then { s with pins := { s.pins with wakeN := false } } else s
  let s := { s with pwr := { s.pwr with waking := some from_, wakeFault := fault } }
  if from_ = 4 then
    let s := foldS (rangeFrom 1 79) (fun s d => setDomain s d domOn) (setF s Rg.PWR_STATE_STATE 0 0)
    let s := { s with clk := { s.clk with restore := false, warmBoot := true, surveyWait := false, running := none } }
    if s.clk.perst then coldReset s kindColdPerst else restartClocks s
  else s

/-- Sources that wake the device now, of those seen in one LPO cycle. -/
def wakeSources (s : State) (seen : Nat) : Nat :=
  let en := if devState s = 0 then getF s Rg.PWR_WAKE_EN_ENABLE else s.pwr.wakeEn
  (seen &&& en) % 64 + 64 * (bit seen 6).toNat

/-- Sources are seen: the device wakes from where it is. -/
def wake (s : State) (seen : Nat) (fault : Option Nat) : State :=
  let m := wakeSources s seen
  if m = 0 then s
  else if napping s then wakeLight s m
  else if 3 ≤ devState s ∧ s.pwr.waking = none then wakeDeep s m fault
  else s

/-- The fault of source 6: an FE source of PD00, whose reaction runs once the device is in RUN (R322). -/
def aonFault (f : Option Nat) : Option Nat := f.bind fun n => if aonFaults.contains n then some n else none

def execWakeEvent (seen : Nat) (fault : Option Nat) (s : State) : Host.Outcome State Fault Refusal :=
  .next <|
    let f := aonFault fault
    let m := seen % 64 + 64 * f.isSome.toNat
    if napping s then
      match f with
      | none => wake s m none
      | some n => raiseFe (wake s m none) n (domainLoc 0)
    else wake s m f

/-- RUN has been reached: the events of the wake, then the fault that caused it. -/
def wakeEnded (s : State) (change : Bool) : State :=
  let f := s.pwr.wakeFault
  let s := raiseEv { s with pwr := { s.pwr with waking := none, wakeFault := none } } Ev.PWR_WAKE
  let s := if change then raiseEv s Ev.PWR_STATE_CHANGE else s
  let s := foldS s.pwr.matched (fun s _ => raiseEv s Ev.PWR_WATCH_MATCH) s
  match f with
  | none => s
  | some n => raiseFe s n (domainLoc 0)

/-- Meridian restarts (R203): its clock, lock and triggers; its registers, the latched and staged times, captures and the
learned frequency are retained. -/
def restartMeridian (s : State) : State :=
  let s := setF (setF (setF s Rg.MER_STATUS_TIME_VALID 0 0) Rg.MER_STATUS_LOCKED 0 0) Rg.MER_STATUS_HOLDOVER 0 0
  let s := foldS (List.range 16) (fun s n => setF s Rg.MER_TRIG_CTRL_ARM n 0) (setF s Rg.MER_FREQ_ADJ_ADJ 0 0)
  let s := setF s Rg.MER_STATUS_SLEWING 0 0
  bmca { s with mer := { s.mer with sec := rtcSec s, ns := 0, frac := 0, stepRun := 0, lockRun := 0, unlockRun := 0,
                                    sampleAt := some s.now, sampleL := servoLog s, trigs := [], pulses := [], ppsEnd := none }
                pins := { s.pins with syncOut := [false, false, false, false], ppsOut := false } }

/-- The wake from WATCH reaches RUN: XO judged, domains restored, HBM out of self-refresh, lanes brought up. -/
def watchWakeDone (s : State) (count : Nat) : State :=
  let s := if getB s Rg.CLK_STATUS_COAST then s else judgeXo s count
  let s := foldS (allPlls.filter fun n => !pllIsOff s n) (fun s n => setLocked s n true) s
  let s := foldS (rangeFrom 1 79) (fun s d =>
    if domainState s d = domRetained then setDomain s d domOn
    else if domainState s d = domOff then leaveReset s d
    else s) s
  let s := foldS (List.range 24) (fun s c => if coreState s c = coreOff then setCoreState s c coreIdle else s) s
  let s := if getB s Rg.CLK_STATUS_COAST then setF s Rg.RST_STATUS_PHASE 0 phCoast else s
  let s := setSelfRefresh (setF s Rg.PWR_STATE_STATE 0 0) false
  let s := checkRetrain (checkRetrain (restartMeridian s) 0) 1
  let s := if getB s Rg.CLK_STATUS_COAST then s else raisePorts s (0, 128)
  let s := wakeEnded (keepPower s) true
  if s.clk.perst then perstReset s else s

def execWatchWakeDone (count : Nat) (s : State) : Host.Outcome State Fault Refusal :=
  .next (if s.pwr.waking = some 3 ∧ devState s = 3 then watchWakeDone s count else s)

/-! ### WATCH_SAMPLE (R377) -/

def cmpKind (r : Nat) : Nat := bits r 0 8
def cmpIndex (r : Nat) : Nat := bits r 8 8

/-- Whether a comparator's input matches. -/
def cmpMatches (r : Nat) (temps rails : List Int) (lanes : List Nat) (sync : Bool) : Bool :=
  let below := bits r 16 8 == 1
  let t := signed 16 (bits r 32 16)
  let past (v : Option Int) : Bool := match v with
    | none => false
    | some x => if below then decide (x < t) else decide (t < x)
  let k := cmpKind r
  if k = 1 then past temps[cmpIndex r]?
  else if k = 2 then past rails[cmpIndex r]?
  else if k = 3 then lanes.contains (cmpIndex r) != below
  else if k = 4 then sync != below
  else false

/-- The counter of comparator i in PWR_WATCH_MATCHES. -/
def addMatch (s : State) (i : Nat) : State :=
  let w := (regW s 0x00800030).toNat
  if bits w (4 * i) 4 = 15 then s else setW s 0x00800030 (BitVec.ofNat 32 (w + 16 ^ i))

/-- One comparator: after COUNT consecutive matching samples it matches; with ACTION COUNT it is counted. -/
def sampleOne (s : State) (i r : Nat) (hit : Bool) : State :=
  let n := if hit then s.pwr.runs.get i 0 + 1 else 0
  let s := { s with pwr := { s.pwr with runs := s.pwr.runs.set i n 0 } }
  if hit && decide (bits r 24 8 ≤ n) then
    let m := if s.pwr.matched.contains i then s.pwr.matched else s.pwr.matched ++ [i]
    let s := setF (setF { s with pwr := { s.pwr with matched := m } } Rg.PWR_WATCH_STATUS_LAST_MATCH 0 i) Rg.PWR_WATCH_STATUS_MATCHED 0 1
    if bits r 48 8 = 1 then addMatch s i else s
  else s

def watchSample (s : State) (temps rails : List Int) (lanes : List Nat) (sync : Bool) : State :=
  let cs := (List.range s.pwr.cmps.length).map fun i => (i, s.pwr.cmps.getD i 0)
  let hits := cs.filter fun c => cmpMatches c.2 temps rails lanes sync
  let s := foldS (cs.filter fun c => cmpKind c.2 != 0) (fun s c => sampleOne s c.1 c.2 (hits.contains c)) (addF s Rg.PWR_WATCH_STATUS_SAMPLES)
  let s := critSample s (indexed temps 32) (indexed rails 12)
  let f := (critSources s).head?
  let m := (hits.any fun (c : Nat × Nat) => bits c.2 48 8 == 0 && decide (bits c.2 24 8 ≤ s.pwr.runs.get c.1 0)).toNat * 2 + 64 * f.isSome.toNat
  wake s m f

/-- PD00 samples while the device is in WATCH. -/
def execWatchSample (temps rails : List Int) (lanes : List Nat) (sync : Bool) (s : State) : Host.Outcome State Fault Refusal :=
  .next (if devState s = 3 ∧ s.pwr.waking = none then watchSample s temps rails lanes sync else s)

/-- Operands: sensors and rails. In DORMANT, once a second, only sensor 10 and rail 1 are checked (R425). -/
def execSensorSample (temps rails : List Int) (s : State) : Host.Outcome State Fault Refusal :=
  .next <|
    if devState s ≤ 2 then sensorSample s temps rails
    else if devState s = 4 ∧ s.pwr.waking = none then
      let s := critSample s ((indexed temps 32).filter (·.1 == 10)) ((indexed rails 12).filter (·.1 == 1))
      match (critSources s).head? with
      | none => s
      | some n => wake s 64 (some n)
    else s

/-! ### The real-time clock (R378) -/

/-- The alarm second begins. -/
def rtcAlarm (s : State) : State :=
  if getB s Rg.PWR_RTC_ALARM_ARMED && rtcSec s % 2 ^ 32 == getF s Rg.PWR_RTC_ALARM_SEC_LOW then
    wake (keepPower (setF s Rg.PWR_RTC_ALARM_ARMED 0 0)) 1 none
  else s

def execRtcAlarm (s : State) : Host.Outcome State Fault Refusal := .next (rtcAlarm s)

/-- At a whole MFT second with TIME_VALID set the clock is loaded. -/
def rtcLoad (s : State) : State :=
  if getB s Rg.MER_STATUS_TIME_VALID && domainOn s 5 && atSecond s 0 then
    { s with pwr := { s.pwr with rtcBase := s.mer.sec * 32768, rtcAt := s.now } }
  else s

def execRtcSecondLoad (s : State) : Host.Outcome State Fault Refusal := .next (rtcLoad s)

/-! ### The rows of PERST_N -/

/-- PERST_N is asserted: during clock start T0 waits for it; in WATCH and DORMANT it wakes the device, if enabled. -/
def perstAssert (s : State) : State :=
  let s := { s with clk := { s.clk with perst := true } }
  if 3 ≤ devState s then wake s 8 none
  else if s.clk.stage = .hold then coldReset s kindColdPerst
  else if phase s ≤ 1 then s
  else perstReset (wake s 8 none)

def execPerstAssert (s : State) : Host.Outcome State Fault Refusal := .next (if s.clk.perst then s else perstAssert s)

/-- PERST_N is deasserted: the EDITION pins are sampled, and T0 comes if clock start has ended. -/
def perstDeassert (s : State) (edition : Nat) : State :=
  let s := latchBar4 { s with clk := { s.clk with perst := false }, pins := { s.pins with edition := edition % 4 } }
  if phase s = 1 then reachT0 s else s

def execPerstDeassert (edition : Nat) (s : State) : Host.Outcome State Fault Refusal :=
  .next (if s.clk.perst then perstDeassert s edition else s)

end Sys2Proof.Machine
end

