-- ==== Sys2Proof/Machine/Background.lean ====
section
/-!
DEFINITION. The rows of 17_background_services.md but for the monitors: lane adaptation, the ageing engine (R417 to R420), dose
files (R421), the fault log and dose summaries in flash (R422, R423), and telemetry (R424).
-/

namespace Sys2Proof.Machine

/-! ### LANE_ADAPT_STEP (R416) -/

def step1 (v : Int) : Int := max (-1) (min 1 v)

/-- The lane belongs to a port that is up. -/
def laneUp (s : State) (l : Nat) : Bool := s.ports.any fun q => portState s q.1 == prtUp && (bondLanes q.1 q.2.cfg).contains l

/-- A millisecond has passed since the lane's last step. -/
def adaptDue (s : State) (l : Nat) : Bool := match (s.bg.equaliser.get l Equaliser.init).at_ with
  | none => true
  | some t => decide (t + msNs ≤ s.now)

/-- CTLE gain and DFE taps move by at most one step each. -/
def adaptLane (s : State) (l : Nat) (ctle : Int) (dfe : List Int) : State :=
  let x := s.bg.equaliser.get l Equaliser.init
  let taps := (List.range (max x.dfe.length dfe.length)).map fun i => x.dfe.getD i 0 + step1 (dfe.getD i 0)
  { s with bg := { s.bg with equaliser := s.bg.equaliser.set l ⟨x.ctle + step1 ctle, taps, some s.now⟩ Equaliser.init } }

def execLaneAdaptStep (l : Nat) (ctle : Int) (dfe : List Int) (s : State) : Host.Outcome State Fault Refusal :=
  .next (if laneUp s l && adaptDue s l then adaptLane s l ctle dfe else s)

/-! ### Gain passes (R418, R419) -/

/-- Relative output at dose d; the division truncates toward zero. -/
def relativeOutput (curve : List (Nat × Nat)) (d : Nat) : Int :=
  let at_ (i : Nat) : Nat × Nat := curve.getD i (0, 0)
  if (at_ 15).1 ≤ d then (at_ 15).2
  else
    let i := ((List.range 15).reverse.find? fun i => decide ((at_ i).1 ≤ d)).getD 0
    let r0 : Int := (at_ i).2
    let r1 : Int := (at_ (i + 1)).2
    r0 + ((r1 - r0) * ((d : Int) - (at_ i).1)).tdiv ((at_ (i + 1)).1 - (at_ i).1)

/-- Blocks of a sheet's dose map. -/
def blocksOf (s : State) (d : Nat) : Nat := match s.prj.doseSize.get d none with
  | none => 0
  | some (w, h) => ceilDiv w 16 * ceilDiv h 16

/-- The wall set: every sheet named as DOSE_SHEET by an enabled entry with GAIN_EN. -/
def wallSet (s : State) : List Nat :=
  (((s.prj.gzt.filter fun e => gEnabled e.2 && gGainEn e.2).map fun e => gDoseSheet e.2).eraseDups).filter fun d =>
    (s.prj.doseSize.get d none).isSome

/-- The relative output of a block's colour. -/
def blockOutput (s : State) (p : GainPass) (d b c : Nat) : Nat :=
  (relativeOutput (p.curves.getD c []) ((s.prj.dose.get d []).get (3 * b + c) 0)).toNat

/-- r_ref of a colour. -/
def passRef (s : State) (p : GainPass) (c : Nat) : Nat :=
  max (getF s Rg.SNS_AGE_CTRL_FLOOR) ((p.sheets.flatMap fun d => (List.range (blocksOf s d)).map fun b => blockOutput s p d b c).foldl min 32768)

def blockGain (ref r : Nat) : Nat := min 32768 ((ref * 32768 + r / 2) / max 1 r)

/-- The gain map of a sheet: blocks whose gain is not 1.0. -/
def passGains (s : State) (p : GainPass) (refs : List Nat) (d : Nat) : SMap Nat :=
  (List.range (3 * blocksOf s d)).filterMap fun k =>
    let g := blockGain (refs.getD (k % 3) 0) (blockOutput s p d (k / 3) (k % 3))
    if g = 32768 then none else some (k, g)

/-- A view has an enabled entry that names the dose sheet. -/
def viewUses (s : State) (v d : Nat) : Bool := s.prj.gzt.any fun e => gEnabled e.2 && gView e.2 == v && gDoseSheet e.2 == d

/-- A gain map is staged for each view that uses it and has boundaries; the others have it at once. -/
def stageGain (s : State) (d : Nat) (m : SMap Nat) : State :=
  foldS (List.range 8) (fun s v =>
    let k := 8 * d + v
    let rest := s.prj.gainStaged.filter fun p => p.1 != k
    if viewUses s v d && (scheduleOf s v).isSome then { s with prj := { s.prj with gainStaged := rest ++ [(k, m)] } }
    else { s with prj := { s.prj with gainStaged := rest, gain := s.prj.gain.set k m [] } }) s

/-- A pass begins, unless one runs; nothing without curves. -/
def startPass (s : State) : State :=
  match s.bg.curves, s.bg.pass with
  | none, _ => s
  | some _, some _ => { s with bg := { s.bg with passAgain := true } }
  | some c, none =>
    { setF s Rg.SNS_AGE_STATUS_RUNNING 0 1 with bg := { s.bg with pass := some ⟨c, if c.isEmpty then s.prj.doseSize.map (·.1) else wallSet s⟩, passAgain := false } }

/-- A write of UPDATE_NOW. -/
def execAgeUpdateNow (s : State) : Host.Outcome State Fault Refusal := .next (startPass s)

/-- The period, in seconds of the real-time clock, has passed. -/
def execAgeingPass (s : State) : Host.Outcome State Fault Refusal :=
  .next <|
    if getB s Rg.SNS_AGE_CTRL_ENABLE && decide (s.bg.passAt + 60 * getF s Rg.SNS_AGE_CTRL_PERIOD_MIN ≤ rtcSec s) && servicesRun s then
      startPass { s with bg := { s.bg with passAt := rtcSec s } }
    else s

/-! ### Dose files (R421) -/

def doseRecord (s : State) (d : Nat) : List Byte := match s.prj.doseSize.get d none with
  | none => []
  | some (w, h) =>
    let m := s.prj.dose.get d []
    let data := ((List.range (3 * (ceilDiv w 16 * ceilDiv h 16))).map fun k => leBytes 4 (m.get k 0)).flatten
    leBytes 2 d ++ leBytes 2 (ceilDiv w 16) ++ leBytes 2 (ceilDiv h 16) ++ zeros 2 ++ leBytes 4 data.length ++ leBytes 4 (crc32c data) ++ data

/-- The file of sheets first to first + count − 1. -/
def doseFile (s : State) (ds : List Nat) : List Byte :=
  let recs := (ds.map (doseRecord s)).flatten
  let head := leBytes 4 0x45534F44 ++ leBytes 2 1 ++ leBytes 2 ds.length ++ leBytes 4 (64 + recs.length) ++ leBytes 8 s.mer.sec ++ zeros 40
  head ++ leBytes 4 (crc32c head) ++ recs

def doseSheets (s : State) (first count : Nat) : List Nat :=
  (rangeFrom first count).filter fun d => (s.prj.doseSize.get d none).isSome

def startDoseSave (s : State) (e : List Byte) : Begin :=
  let n := leAt e 20 2
  checked [(eTarget e < 4096, 4), (eLen e == 0 || decide (eAddr e + eLen e ≤ 2 ^ 64), 8),
      (eLen e == 0 || (decide (1 ≤ n) && decide (eTarget e + n ≤ 4096)), 20)]
    (if eLen e = 0 then .finish St.okZero 0 0 else if (freeChannel s).isNone then .finish St.noResource 0 0 else .run)

/-- The dose maps are written; they are no longer counted as changed. -/
def saveDoses (s : State) (c : Cmd) : State :=
  let e := c.entry
  let ds := doseSheets s (eTarget e) (leAt e 20 2)
  let f := doseFile s ds
  if eLen e < f.length then complete s c St.invalidField f.length 16
  else
    let s := { s with bg := { s.bg with doseChanged := s.bg.doseChanged.filter fun p => !ds.contains p.1 } }
    complete (hostWrite s (eAddr e) f) c St.ok f.length

def waitForPass (s : State) (c : Cmd) (d : List Byte) : State :=
  putCmd { s with bg := { s.bg with doseWait := s.bg.doseWait ++ [c.id] } } { c with past := true, data := d }

def runDoseSave (s : State) (c : Cmd) (_ : List Byte) : State := if s.bg.pass.isSome then waitForPass s c [] else saveDoses s c

def execDoseSave (q : Nat) (s : State) : Host.Outcome State Fault Refusal :=
  .next (takeDose (ringRow Op.doseSave anyEntry startDoseSave runDoseSave q s))

def startDoseLoad (s : State) (e : List Byte) : Begin :=
  if eLen e != 0 && decide (eAddr e + eLen e ≤ 2 ^ 64) && (freeChannel s).isNone then .finish St.noResource 0 0 else readBuffer e

/-- Records of a dose file: offset, sheet, blocks across and down, data and its CRC; cut where a record passes the end. -/
def doseRecords (b : List Byte) : Nat → Nat → List (Nat × Nat × Nat × Nat × Nat × List Byte)
  | 0, _ => []
  | n + 1, o =>
    let r := b.drop o
    let len := leAt r 8 4
    (o, leAt r 0 2, leAt r 2 2, leAt r 4 2, leAt r 12 4, (r.drop 16).take len) :: doseRecords b n (o + 16 + len)

def doseSizeOk (s : State) (r : Nat × Nat × Nat × Nat × Nat × List Byte) : Bool :=
  match s.prj.doseSize.get r.2.1 none with
  | none => false
  | some (w, h) => r.2.2.1 == ceilDiv w 16 && r.2.2.2.1 == ceilDiv h 16 && r.2.2.2.2.2.length == 12 * (r.2.2.1 * r.2.2.2.1)

def doseMapOf (data : List Byte) : SMap Nat :=
  (List.range (data.length / 4)).filterMap fun k => let v := leAt data (4 * k) 4; if v = 0 then none else some (k, v)

/-- Every CRC, then every geometry, then the accumulators. -/
def loadDoses (s : State) (c : Cmd) (b : List Byte) : State :=
  let rs := doseRecords b (leAt b 6 2) 64
  if crc32c (b.take 60) ≠ leAt b 60 4 ∨ b.length < 64 then complete s c St.dataError
  else if leAt b 0 4 ≠ 0x45534F44 then complete s c St.invalidField 0 (bufDetail 0 0)
  else if leAt b 4 2 ≠ 1 then complete s c St.invalidField 0 (bufDetail 4 0)
  else if leAt b 8 4 ≠ b.length then complete s c St.invalidField 0 (bufDetail 8 0)
  else if rs.any fun r => crc32c r.2.2.2.2.2 != r.2.2.2.2.1 then complete s c St.dataError
  else match rs.find? fun r => !doseSizeOk s r with
    | some r => complete s c St.invalidField 0 r.1
    | none =>
      let s := foldS rs (fun s r =>
        { s with prj := { s.prj with dose := s.prj.dose.set r.2.1 (doseMapOf r.2.2.2.2.2) [] }
                 bg := { s.bg with doseChanged := s.bg.doseChanged.set r.2.1 true false } }) s
      let s := if bit (leAt c.entry 22 1) 0 then startPass s else s
      complete s c St.ok

def runDoseLoad (s : State) (c : Cmd) (d : List Byte) : State := if s.bg.pass.isSome then waitForPass s c d else loadDoses s c d

def execDoseLoad (q : Nat) (s : State) : Host.Outcome State Fault Refusal :=
  .next (takeDose (ringRow Op.doseLoad anyEntry startDoseLoad runDoseLoad q s))

/-- Waiting dose commands proceed in arrival order, until one starts a pass. -/
def dosesProceed (s : State) : Nat → State
  | 0 => s
  | n + 1 =>
    match s.bg.doseWait, s.bg.pass with
    | id :: t, none =>
      let s := { s with bg := { s.bg with doseWait := t } }
      match findCmd s id with
      | none => dosesProceed s n
      | some c => dosesProceed (if eOpcode c.entry = Op.doseSave then saveDoses s c else loadDoses s c c.data) n
    | _, _ => s

/-! ### AGEING_PASS_DONE (R419) -/

def passDone (s : State) : State :=
  match s.bg.pass with
  | none => s
  | some p =>
    let cleared := p.curves.isEmpty
    let refs := (List.range 3).map fun c => if cleared then 32768 else passRef s p c
    let maps := p.sheets.map fun d => (d, if cleared then [] else passGains s p refs d)
    let s := foldS maps (fun s m => stageGain s m.1 m.2) s
    let s := setF s Rg.SNS_AGE_REF_REF 0 (refs.getD 0 0 + 2 ^ 16 * refs.getD 1 0 + 2 ^ 32 * refs.getD 2 0)
    let s := addF (setF s Rg.SNS_AGE_STATUS_RUNNING 0 0) Rg.SNS_AGE_STATUS_PASSES
    let again := s.bg.passAgain
    let curves := if cleared && s.bg.curves == some [] then none else s.bg.curves
    let s := { s with bg := { s.bg with pass := none, passAgain := false, curves := curves } }
    let s := dosesProceed s s.bg.doseWait.length
    if again then startPass s else s

def execAgeingPassDone (s : State) : Host.Outcome State Fault Refusal := .next (if domainOn s 35 then passDone s else s)

/-! ### WEAR_CURVE_SET (R417) -/

def startWearCurveSet (_ : State) (e : List Byte) : Begin :=
  if eLen e = 0 then (if bit (leAt e 20 1) 0 then .run else .finish St.okZero 0 0)
  else checked [(eAddr e + eLen e ≤ 2 ^ 64, 8), (eLen e == 384, 16)] (.read (eAddr e) (eLen e) none)

def curvePoint (b : List Byte) (k : Nat) : Nat × Nat := (leAt b (8 * k) 4, leAt b (8 * k + 4) 2)

/-- The first bad field of point k, of 48. -/
def badPoint (b : List Byte) (k : Nat) : Option Nat :=
  let p := curvePoint b k
  let q := curvePoint b (k - 1)
  if k % 16 = 0 then firstBad [(p.1 == 0, bufDetail 0 k), (p.2 == 32768, bufDetail 4 k)]
  else firstBad [(decide (q.1 < p.1), bufDetail 0 k), (decide (p.2 ≤ q.2) && decide (1 ≤ p.2), bufDetail 4 k)]

def badCurves (b : List Byte) : Option Nat := (List.range 48).findSome? (badPoint b)
def curvesOf (b : List Byte) : Curves := (List.range 3).map fun c => (List.range 16).map fun i => curvePoint b (16 * c + i)

def setCurves (s : State) (c : Curves) : State :=
  { setB s Rg.SNS_AGE_STATUS_CURVES_VALID 0 (!c.isEmpty) with bg := { s.bg with curves := some c } }

def runWearCurveSet (s : State) (c : Cmd) (d : List Byte) : State :=
  match (if d.isEmpty then none else badCurves d) with
  | some k => complain s c k
  | none =>
    let s := setCurves s (if d.isEmpty then [] else curvesOf d)
    let s := if bit (leAt c.entry 20 1) 1 then startPass s else s
    complete s c St.ok

def execWearCurveSet (q : Nat) (s : State) : Host.Outcome State Fault Refusal :=
  .next (ringRow Op.wearCurveSet anyEntry startWearCurveSet runWearCurveSet q s)

/-! ### The background area of flash (R422, R423, log 24) -/

/-- The area of a list with the lowest erase count, the oldest on a tie. -/
def leastErased (m : SMap FlashArea) (ks : List Nat) : Nat :=
  let key (k : Nat) : Nat × Nat := let a := m.get k FlashArea.init; (a.erases, a.seq)
  ks.foldl (fun b k =>
    let x := key k
    let y := key b
    if x.1 < y.1 ∨ (x.1 = y.1 ∧ x.2 < y.2) then k else b) (ks.headD 0)

def newestSeq (m : SMap FlashArea) : Nat := (m.map (·.2.seq)).foldl max 0

/-- The sector of the fault log in use: the one with the highest sequence. -/
def logSector (m : SMap FlashArea) : Option Nat :=
  (m.filter fun p => 0 < p.2.seq).foldl (fun b p => match b with
    | none => some p.1
    | some k => if (m.get k FlashArea.init).seq < p.2.seq then some p.1 else some k) none

/-- Bytes of records that a sector holds after its header. -/
def sectorBytes : Nat := 4064

/-- One record goes to the sector in use, or to the next one once that is full. -/
def logRecord (m : SMap FlashArea) (r : List Byte) : SMap FlashArea :=
  let fresh : Nat := leastErased m (List.range 256)
  match logSector m with
  | some k =>
    let a := m.get k FlashArea.init
    if a.body.length + 16 ≤ sectorBytes then m.set k { a with body := a.body ++ r } FlashArea.init
    else m.set fresh ⟨newestSeq m + 1, (m.get fresh FlashArea.init).erases + 1, r⟩ FlashArea.init
  | none => m.set fresh ⟨1, (m.get fresh FlashArea.init).erases + 1, r⟩ FlashArea.init

/-- Buffered records are written every 10 s, or when 64 wait. -/
def faultLogFlush (s : State) : State :=
  if s.bg.faultBuf.isEmpty || !(decide (64 ≤ s.bg.faultBuf.length) || decide (s.bg.flushAt + 10 * secNs ≤ s.now)) || !flashUsable s ||
      !servicesRun s then s
  else
    let log := s.bg.faultBuf.foldl logRecord s.sec.flash.log
    { s with sec := { s.sec with flash := { s.sec.flash with log := log } }, bg := { s.bg with faultBuf := [], flushAt := s.now } }

def execFaultLogFlush (s : State) : Host.Outcome State Fault Refusal := .next (faultLogFlush s)

/-- The fault log: records of the sectors, oldest first. -/
def faultLogBytes (s : State) : List Byte :=
  let m := s.sec.flash.log
  ((List.range (newestSeq m + 1)).flatMap fun q => ((m.filter fun p => 0 < p.2.seq && p.2.seq == q).map (·.2.body)).flatten)

/-- Three curves, zeros where none are in force. -/
def curveBytes (s : State) : List Byte :=
  match s.bg.curves with
  | some [] => zeros 384
  | none => zeros 384
  | some c => ((c.flatten).map fun p => leBytes 4 p.1 ++ leBytes 2 p.2 ++ zeros 2).flatten

/-- A sheet's cells: the mean dose of 4 × 4 blocks, shifted right by 16, per colour. -/
def summaryCells (m : SMap Nat) (w h : Nat) : List Byte :=
  let ax := ceilDiv w 16
  let ay := ceilDiv h 16
  let cw := sumAcross w
  ((List.range (cw * sumAcross h)).map fun i =>
    let bs := ((List.range 4).flatMap fun y => (List.range 4).map fun x => (4 * (i / cw) + y, 4 * (i % cw) + x)).filter fun p =>
      decide (p.1 < ay) && decide (p.2 < ax)
    ((List.range 3).map fun c => leBytes 2 ((bs.map fun p => m.get (3 * (p.1 * ax + p.2) + c) 0).sum / max 1 bs.length / 65536)).flatten).flatten

/-- Sheets in ascending number while at most 131,072 cells are kept; whether one does not fit. -/
def summarySheets (s : State) : List (Nat × Option (Nat × Nat)) → Nat → List Byte × Bool
  | [], _ => ([], false)
  | (d, x) :: t, used =>
    match x with
    | none => summarySheets s t used
    | some (w, h) =>
      let n := 3 * (sumAcross w * sumAcross h)
      if used + n ≤ 131072 then
        let r := summarySheets s t (used + n)
        (leBytes 2 d ++ leBytes 2 w ++ leBytes 2 h ++ zeros 2 ++ summaryCells (s.prj.dose.get d []) w h ++ r.1, r.2)
      else ([], true)

def writeSummary (s : State) : State :=
  let m := s.sec.flash.summary
  let k := leastErased m [0, 1, 2]
  let r := summarySheets s s.prj.doseSize 0
  let a : FlashArea := ⟨newestSeq m + 1, (m.get k FlashArea.init).erases + 1, curveBytes s ++ r.1⟩
  let s := { s with sec := { s.sec with flash := { s.sec.flash with summary := m.set k a FlashArea.init } }, bg := { s.bg with summaryAt := s.now } }
  addF (setB (setF s Rg.SNS_SUMMARY_SLOT 0 k) Rg.SNS_SUMMARY_TRUNCATED 0 r.2) Rg.SNS_SUMMARY_WRITES

def execSummaryWrite (s : State) : Host.Outcome State Fault Refusal :=
  .next <|
    let p := getF s Rg.SNS_SUMMARY_PERIOD_H
    if p != 0 && decide (s.bg.summaryAt + p * 3600 * secNs ≤ s.now) && flashUsable s && servicesRun s then writeSummary s else s

/-- The curves that start-up finds in the newest valid summary. -/
def restoreCurves (s : State) : State :=
  let b := (summaryBody s).take 384
  if b.length = 384 ∧ badCurves b = none then setCurves s (curvesOf b) else s

/-! ### DIAG BG_READ (R423) -/

def bgArea (s : State) (e : List Byte) : List Byte := if leAt e 21 1 = 0 then faultLogBytes s else summaryBody s

def startBgRead (s : State) (e : List Byte) : Begin :=
  let n := (bgArea s e).length
  if eLen e = 0 then .finish St.okZero 0 0
  else checked [(eAddr e + eLen e ≤ 2 ^ 64, 8)]
    (if eLen e < n then .finish St.invalidField n 16 else checked [(leAt e 21 1 ≤ 1, 21)] .run)

def runBgRead (s : State) (c : Cmd) (_ : List Byte) : State :=
  let b := bgArea s c.entry
  complete (hostWrite s (eAddr c.entry) b) c St.ok b.length

def execDiagBgRead (q : Nat) (s : State) : Host.Outcome State Fault Refusal :=
  .next (ringRow Op.diag (fun e => diagSub e == 0x70) startBgRead runBgRead q s)

/-! ### Telemetry (R424) -/

def startTelemetryArm (s : State) (e : List Byte) : Begin :=
  let n := eLen e
  if n = 0 then (if bit (leAt e 20 1) 0 then .run else .finish St.okZero 0 0)
  else checked [(eAddr e % 4096 == 0 && decide (eAddr e + n ≤ 2 ^ 64), 8),
      ((rangeFrom 12 19).any fun k => n == 2 ^ k, 16)]
    (if s.bg.telemetry.isNone && (freeChannel s).isNone then .finish St.noResource 0 0 else .run)

/-- A DMA channel for the telemetry, if it holds none and one is free. -/
def telemetryChannel (s : State) : State :=
  if (channelOf s ownerTelemetry).isSome then s else ((takeChannel s ownerTelemetry).map (·.2)).getD s

def runTelemetryArm (s : State) (c : Cmd) (_ : List Byte) : State :=
  if eLen c.entry = 0 then
    complete (releaseChannel { s with bg := { s.bg with telemetry := none } } ownerTelemetry) c St.ok
  else
    let s := telemetryChannel s
    complete { s with bg := { s.bg with telemetry := some ⟨eAddr c.entry, eLen c.entry, 0⟩ } } c St.ok

def execTelemetryArm (q : Nat) (s : State) : Host.Outcome State Fault Refusal :=
  .next (ringRow Op.telemetryArm anyEntry startTelemetryArm runTelemetryArm q s)

def teleGet (s : State) (k : Nat) : Nat := s.bg.teleCounts.get k 0
def mbits (bytes : Nat) : Nat := min 65535 (bytes * 8 / 1000000)

/-- The record of the second; HBM traffic is a free value (log 5). -/
def teleRecord (s : State) (seq : Nat) : List Byte :=
  leBytes 4 seq ++ leBytes 4 (mst s) ++ leBytes 6 s.mer.sec ++ leBytes 1 (getF s Rg.MER_STATUS_TIME_VALID) ++ zeros 1 ++
  leBytes 4 (getF (busyRoll s) Rg.SCR_LOAD_MEASURED) ++ leBytes 4 (teleGet s teleMiss) ++ leBytes 4 (teleGet s teleLate) ++
  leBytes 4 (teleGet s teleFloor) ++ leBytes 4 (teleGet s teleRefused) ++ leBytes 4 (teleGet s teleNack) ++
  leBytes 4 (teleGet s teleDrop) ++ leBytes 4 (teleGet s teleCe) ++ zeros 16 ++
  ((List.range 32).map fun i => leBytes 2 (getF s Rg.SNS_TEMP_VALUE i)).flatten ++
  ((List.range 12).map fun i => leBytes 2 (getF s Rg.SNS_RAIL_MV i)).flatten ++ zeros 8 ++
  leBytes 4 (Config.free s.freeCtr) ++ leBytes 4 (Config.free (s.freeCtr + 1)) ++ zeros 88 ++
  ((List.range 128).map fun p => leBytes 2 (mbits (teleGet s (teleTx p))) ++ leBytes 2 (min 65535 (teleGet s (teleFec p)))).flatten ++
  ((List.range 128).map fun p => leBytes 2 (mbits (teleGet s (teleRx p)))).flatten

/-- A whole MFT second has passed since the last record, or, without TIME_VALID, 10^9 ns. -/
def telemetryDue (s : State) : Bool := match s.bg.teleAt with
  | none => true
  | some (sec, t) => if getB s Rg.MER_STATUS_TIME_VALID then sec != s.mer.sec else decide (t + secNs ≤ s.now)

/-- A record goes into the telemetry buffer, or is counted lost. -/
def postTelemetry (s : State) (t : Telemetry) : State :=
  if hostReachable s && (channelOf s ownerTelemetry).isSome && servicesRun s then
    setF (hostWrite { s with freeCtr := s.freeCtr + 2 } (t.addr + t.seq * 1024 % t.size) (teleRecord s t.seq)) Rg.SNS_TELEMETRY_SEQ 0 t.seq
  else addF s Rg.SNS_TELEMETRY_LOST

/-- A second has passed: its record is written, or counted as lost. -/
def telemetryRecord (s : State) : State :=
  let s := { s with bg := { s.bg with teleAt := some (s.mer.sec, s.now) } }
  match s.bg.telemetry with
  | none => { s with bg := { s.bg with teleCounts := [] } }
  | some t =>
    let next := { t with seq := (t.seq + 1) % 2 ^ 32 }
    let s := postTelemetry s t
    { s with bg := { s.bg with telemetry := some next, teleCounts := [] } }

def execTelemetryRecord (s : State) : Host.Outcome State Fault Refusal := .next (if telemetryDue s then telemetryRecord s else s)

end Sys2Proof.Machine
end

