-- ==== Sys2Proof/Machine/Security.lean ====
section
/-!
DEFINITION. The rows of 16_editions_security.md: firmware and editions in flash (R390 to R398), start-up from them (R363), the
lifecycle (R401, R402), attestation (R404), patches and the watchdog of the Compass (R407 to R409).
-/

namespace Sys2Proof.Machine

/-! ### Firmware images (R390) -/

def fwMagic : Nat := 0x4D495746
def fwShortest : Nat := 77568 + 96

/-- The first bad field of the header, as DETAIL gives it: TOTAL_SIZE against the length first. -/
def fwHeaderBad (img : List Byte) : Option Nat :=
  firstBad [(leAt img 8 4 == img.length && decide (fwShortest ≤ img.length) && decide (img.length ≤ 0x100000), 16),
    (leAt img 0 4 == fwMagic, bufDetail 0 0), (leAt img 4 2 == 1, bufDetail 4 0), (leAt img 6 2 == 256, bufDetail 6 0),
    (decide (leAt img 16 1 ≤ 63), bufDetail 16 0)]

/-- The bytes that the digest covers. -/
def fwBody (img : List Byte) : List Byte := img.take (img.length - 96)
def fwSvn (img : List Byte) : Nat := leAt img 16 1

/-- Root key hash, digest, signature and security version. -/
def fwAuthentic (s : State) (img : List Byte) : Bool :=
  digestBytes (imageRootKey img) == s.sec.otp.rootHash && (img.drop (img.length - 96)).take 32 == digestBytes (fwBody img) &&
  signedBy (imageRootKey img) (img.take (img.length - 64)) (img.drop (img.length - 64)) && decide (s.sec.otp.svn ≤ fwSvn img)

def fwAccepted (s : State) (img : List Byte) : Bool := (fwHeaderBad img).isNone && fwAuthentic s img

def fwImage (s : State) (n : Nat) : List Byte := s.sec.flash.fw.get n []

/-- The slot can be read and its image is accepted. -/
def fwSlotOk (s : State) (n : Nat) : Bool := flashUsable s && fwAccepted s (fwImage s n)

/-! ### FIRMWARE_VERIFIED (R363, R390, R392) -/

/-- A store of n words of size bytes, from address base. -/
def storeWords (size base n : Nat) (b : List Byte) : SMap Nat :=
  ((records size n b).zipIdx.map fun p => (base + p.2, leNat p.1)).filter fun p => p.2 != 0

/-- Nanowords 1,984 to 2,047 come from the patch set in force. -/
def patchNano (s : State) : State :=
  let low : SMap Nat := s.sec.nano.filter fun p => decide (p.1 < 1984)
  { s with sec := { s.sec with nano := low ++ storeWords 16 1984 64 ((patchSet s).drop 512) } }

/-- A patch set is applied at a safe point; one of zeros is none (R408). -/
def patchesApplied (s : State) : State :=
  let s := patchNano s
  if (patchSet s).all (· == 0) then s else raiseEv s Ev.CMP_PATCH_APPLIED

/-- The Compass's persistent words 16 to 18: firmware version, patch count, active slot (R338, log 24). -/
def persistCompass (s : State) : State :=
  writeTmr (writeTmr (writeTmr s 16 (fwVersion s)) 17 (patchCount s)) 18 (s.sec.slot.getD 0)

/-- The Compass runs the image of a slot. -/
def runFirmware (s : State) (n : Nat) : State :=
  let img := fwImage s n
  let sec := { s.sec with
    slot := some n, digest := Config.sm3 (fwBody img), patches := (img.drop 76032).take 1536, hostPatches := none
    micro := storeWords 3 1024 15360 (img.drop 256), nano := storeWords 16 128 1856 (img.drop 46336) }
  let s := setF { s with sec := sec } Rg.CMP_STATUS_STATE 0 1
  persistCompass (patchesApplied (setW s 0x00000010 (BitVec.ofNat 32 (leAt img 12 4))))

/-- TOP_EDITION_SERIAL of every slot. -/
def readSerials (s : State) : State :=
  foldS (List.range 4) (fun s n => setF s Rg.TOP_EDITION_SERIAL_SERIAL n (edSerial (slotImage s n))) s

/-- READY, SAFE or COAST_READY is reached: the phase and its time from T0, and the end of a wake from DORMANT. -/
def startupEnded (s : State) (ph : Nat) : State :=
  let s := setF (setF s Rg.RST_STATUS_PHASE 0 ph) Rg.RST_STATUS_READY_MS 0 (min 65535 ((s.now - s.clk.t0At) / msNs))
  if s.pwr.waking = some 4 then wakeEnded s false else s

/-- No slot holds an accepted image: the mask-ROM routine runs; it writes no survey. -/
def enterRecovery (s : State) : State :=
  let s := authFail { s with sec := { s.sec with slot := none } }
  let s := setF (setF s Rg.TOP_STATUS_RECOVERY 0 1) Rg.CMP_STATUS_STATE 0 0
  let s := if s.clk.surveyWait then surveyFailed { s with clk := { s.clk with surveyWait := false } } else s
  startupEnded s phSafe

/-- The firmware runs: after a clock-loss reset the survey comes first, then training. -/
def afterFirmware (s : State) : State :=
  let s := restoreCurves (readSerials s)
  if s.clk.surveyWait then
    let s := { s with clk := { s.clk with surveyWait := false, t0At := s.now - s.clk.t0At } }
    startSurvey (setF s Rg.RST_STATUS_PHASE 0 3) true true
  else setF s Rg.RST_STATUS_PHASE 0 4

/-- The slot that the directory names is tried, then the other; a trial whose image fails has ended. -/
def firmwareVerified (s : State) : State :=
  let d := dirOf s
  let want := (if d.trial then d.trialSlot else d.active) % 2
  let failed := d.trial && !fwSlotOk s want
  let s := if failed then setF (putDir s { d with trial := false }) Rg.SEC_FW_STATUS_REVERTED 0 1 else s
  if fwSlotOk s want then afterFirmware (setB (runFirmware s want) Rg.TOP_STATUS_TRIAL 0 d.trial)
  else if fwSlotOk s (1 - want) then afterFirmware (runFirmware s (1 - want))
  else enterRecovery s

def execFirmwareVerified (s : State) : Host.Outcome State Fault Refusal := .next (if phase s = 2 then firmwareVerified s else s)

/-! ### STARTUP_EDITION_APPLY (R363, R396) -/

/-- Domains that the edition does not use are left gated. -/
def gateUnused (s : State) : State :=
  foldS (rangeFrom 1 79) (fun s d =>
    let p := getF s Rg.PWR_DOMAIN_POLICY d
    if p != 0 && policyAllowed d p && domainOn s d && !domainUsed s d then gateDomain s d p else s) s

/-- The edition in a slot is applied; in coast mode no lane comes up. -/
def applyStartup (s : State) (n : Nat) : State :=
  let img := slotImage s n
  let coast := getB s Rg.CLK_STATUS_COAST
  let t := (edBuild s img).1
  let ids := (sectionsDiffering s t).filter fun i => !(coast && i == 6)
  let s := edActivate (edApply s img ids).2 n img
  startupEnded (gateUnused s) (if coast then phCoast else phReady)

/-- SAFE mode: no lane or view is enabled. -/
def enterSafe (s : State) (requested : Nat) : State :=
  let s := writeTmr (setF s Rg.TOP_STATUS_SAFE 0 1) 6 (tmrEdition requested 1 none)
  startupEnded { s with sec := { s.sec with edition := [] } } phSafe

/-- SEC_AUTH_FAIL for each image whose signature failed. -/
def noteSignatures (s : State) (r : Nat) : State :=
  let bad (n : Nat) : Bool := (edCheck s (slotImage s n)).any fun k => k.1 == fbSignature
  let fallback := r != 0 && (edCheck s (slotImage s r)).isSome
  let s' := if bad r then authFail s else s
  if fallback && bad 0 then authFail s' else s'

def startupEditionApply (s : State) : State :=
  let r := requestedEdition s
  let c := startupChoice s
  let s := setF (setF (noteSignatures s r) Rg.TOP_EDITION_STATUS_REQUESTED 0 r) Rg.TOP_EDITION_STATUS_FALLBACK 0 c.2
  match c.1 with
  | some n => applyStartup s n
  | none => enterSafe s r

def execStartupEditionApply (s : State) : Host.Outcome State Fault Refusal := .next (if phase s = 5 then startupEditionApply s else s)

/-! ### Programming a slot (R391, R397) -/

/-- The slot is erased and programmed; until that has ended it is marked empty. -/
def beginFlash (s : State) (c : Cmd) (edition : Bool) (n : Nat) (img : List Byte) : State :=
  let s := emptySlot s edition n
  { s with sec := { s.sec with jobs := s.sec.jobs ++ [⟨c.id, edition, n, img⟩] } }

/-- A slot's image and its digest in the directory; an image of no bytes leaves it empty. -/
def storeSlot (s : State) (j : FlashJob) : State :=
  if j.image.isEmpty then s
  else
    let f := s.sec.flash
    let d := dirOf s
    if j.edition then
      let s := { s with sec := { s.sec with flash := { f with ed := f.ed.set j.slot j.image [] } } }
      let s := putDir s { d with ed := d.ed.set j.slot (some (Config.sm3 (j.image.take (edEnd j.image)))) none }
      setF s Rg.TOP_EDITION_SERIAL_SERIAL j.slot (edSerial j.image)
    else
      let s := { s with sec := { s.sec with flash := { f with fw := f.fw.set j.slot j.image [] } } }
      putDir s { d with fw := d.fw.set j.slot (some (Config.sm3 (fwBody j.image))) none }

/-- The oldest programming ends. -/
def flashDone (s : State) (ok : Bool) : State :=
  match s.sec.jobs with
  | [] => s
  | j :: rest =>
    let s := { s with sec := { s.sec with jobs := rest } }
    if ok then completeId (storeSlot s j) j.cmd St.ok (leAt j.image 12 4)
    else completeId (emptySlot s j.edition j.slot) j.cmd St.dataError

def execFlashProgramDone (ok : Bool) (s : State) : Host.Outcome State Fault Refusal :=
  .next (flashDone s (ok && flashUsable s))

/-- A command of an opcode runs already. -/
def opRuns (s : State) (os : List Nat) : Bool := s.hif.cmds.any fun c => os.contains (eOpcode c.entry)

/-! ### EDITION_LOAD (R397) -/

/-- EDITION_SELECT reads the slot. -/
def slotInRead (s : State) (n : Nat) : Bool :=
  match s.sec.select with
  | none => false
  | some x => x.slot == n && !x.staged

/-- The slot of the active edition; SAFE mode has none. -/
def slotActive (s : State) (n : Nat) : Bool := !s.sec.edition.isEmpty && getF s Rg.TOP_EDITION_STATUS_ACTIVE == n

def startEditionLoad (s : State) (e : List Byte) : Begin :=
  let n := eTarget e
  let erase := bit (leAt e 20 1) 0 && eLen e == 0
  if 3 < n then invalid 0
  else if eLen e = 0 ∧ erase = false then .finish St.okZero 0 0
  else if !erase && (decide (2 ^ 64 < eAddr e + eLen e)) then invalid 8
  else if 0x200000 < eLen e then invalid 0
  else if lifecycle s = 3 ∨ (erase && slotActive s n) = true then .finish St.stateConflict 0 0
  else if slotInRead s n || opRuns s [Op.editionLoad] then .finish St.busy 0 0
  else if erase then .run
  else .read (eAddr e) (eLen e) none

def runEditionLoad (s : State) (c : Cmd) (d : List Byte) : State :=
  let n := eTarget c.entry
  if d.isEmpty then beginFlash s c true n []
  else match edCommandCheck s d with
    | none => beginFlash s c true n d
    | some (k, i) => if isAuth k then complete (authFail s) c St.authFail else complete s c St.invalidField 0 i

def execEditionLoad (q : Nat) (s : State) : Host.Outcome State Fault Refusal :=
  .next (ringRow Op.editionLoad anyEntry startEditionLoad runEditionLoad q s)

/-! ### EDITION_SELECT (R398) -/

def startEditionSelect (s : State) (e : List Byte) : Begin :=
  if 3 < eTarget e then invalid 4
  else if s.sec.select.isSome then .finish St.busy 0 0
  else .run

def runEditionSelect (s : State) (c : Cmd) (_ : List Byte) : State :=
  let n := eTarget c.entry
  let s := setF (setF s Rg.TOP_EDITION_STATUS_SELECT_PENDING 0 1) Rg.TOP_EDITION_STATUS_REQUESTED 0 n
  { s with sec := { s.sec with select := some ⟨c.id, n, s.now, false, [], 0, [], false, 0, 0, []⟩ } }

def execEditionSelect (q : Nat) (s : State) : Host.Outcome State Fault Refusal :=
  .next (ringRow Op.editionSelect anyEntry startEditionSelect runEditionSelect q s)

/-- A configuration command that the edition held back acts now, checked against what the edition left (R411). -/
def runDeferred (s : State) (p : Nat × List Byte) : State :=
  match findCmd s p.1 with
  | none => s
  | some c =>
    let o := eOpcode c.entry
    match edStart o s c.entry with
    | .finish st r d => complete s c st r d
    | .read a n circ =>
      if p.2.isEmpty then putCmd s { c with past := false, addr := a, left := n, circ := circ } else edRun o s c p.2
    | .run => edRun o s c []

/-- The selection ends without effect. -/
def dropSelect (s : State) (x : Select) (status detail : Nat) : State :=
  let s := setF { s with sec := { s.sec with select := none } } Rg.TOP_EDITION_STATUS_SELECT_PENDING 0 0
  foldS x.deferred runDeferred (completeId s x.cmd status 0 detail)

def putSelect (s : State) (x : Select) : State := { s with sec := { s.sec with select := some x } }

/-- The image's last section has applied: the command completes, once. -/
def selectComplete (s : State) : State :=
  match s.sec.select with
  | none => s
  | some x =>
    if x.applied && x.waits.all fun id => (findCmd s id).isNone then
      completeId { s with sec := { s.sec with select := none } } x.cmd St.ok x.at_ x.differed
    else s

/-- The application instant: the sections that differ apply, then the commands that came since; SAFE mode is left. -/
def applySelect (s : State) (x : Select) : State :=
  let ids := (rangeFrom 2 13).filter (bit x.differed)
  let at_ := if (scheduleOf s 0).isSome then trigInstant s 0 x.j else mst s
  let s := putSelect s { x with applied := true, at_ := at_, deferred := [] }
  let r := edApply s x.image ids
  let s := edActivate r.2 x.slot x.image
  let s := setF (setF s Rg.TOP_EDITION_STATUS_SELECT_PENDING 0 0) Rg.TOP_EDITION_STATUS_FALLBACK 0 0
  let s := if getB s Rg.TOP_STATUS_SAFE then setF (setF s Rg.TOP_STATUS_SAFE 0 0) Rg.RST_STATUS_PHASE 0 phReady else s
  let s := putSelect s { x with applied := true, at_ := at_, waits := r.1, deferred := [] }
  selectComplete (foldS x.deferred runDeferred s)

/-- Staging has ended with an image that may apply. -/
def stageSelect (s : State) (x : Select) (img : List Byte) (ids : List Nat) : State :=
  let y := { x with staged := true, image := img, j := (getTrig s 0).j, differed := (ids.map (2 ^ ·)).sum }
  if (scheduleOf s 0).isSome then putSelect s y else applySelect (putSelect s y) y

/-- Read, compare and check. -/
def stagingDone (s : State) (x : Select) : State :=
  let img := slotImage s x.slot
  if img.isEmpty then dropSelect s x St.stateConflict 0
  else match edCommandCheck s img with
    | some (k, i) => if isAuth k then dropSelect (authFail s) x St.authFail 0 else dropSelect s x St.invalidField i
    | none =>
      let t := (edBuild s img).1
      let ids := sectionsDiffering s t
      if ids.contains 3 && (anyStream s || anyView s) then dropSelect s x St.stateConflict 0
      else if !edLoadOk s t then dropSelect s x St.noResource 0
      else stageSelect s x img ids

def execEditionStagingDone (s : State) : Host.Outcome State Fault Refusal :=
  .next <|
    match s.sec.select with
    | none => s
    | some x => if x.staged then s else stagingDone s x

/-- The boundary waited for has come, or no schedule runs any more. -/
def instantDue (s : State) (x : Select) : Bool := (scheduleOf s 0).isNone || reached s (trigInstant s 0 x.j)

def execEditionApplyInstant (s : State) : Host.Outcome State Fault Refusal :=
  .next <|
    match s.sec.select with
    | none => s
    | some x =>
      if x.applied then selectComplete s
      else if x.staged && instantDue s x then applySelect s x
      else s

/-! ### FW_STAGE (R391) -/

def startFwStage (s : State) (e : List Byte) : Begin :=
  if eLen e = 0 then .finish St.okZero 0 0
  else if 2 ^ 64 < eAddr e + eLen e then invalid 8
  else if 0x100000 < eLen e then invalid 16
  else if getB s Rg.TOP_STATUS_TRIAL || lifecycle s == 3 then .finish St.stateConflict 0 0
  else if opRuns s [Op.fwStage, Op.fwActivate] then .finish St.busy 0 0
  else .read (eAddr e) (eLen e) none

def runFwStage (s : State) (c : Cmd) (d : List Byte) : State :=
  match fwHeaderBad d with
  | some k => complete s c St.invalidField 0 k
  | none => if fwAuthentic s d then beginFlash s c false (otherSlot s) d else complete (authFail s) c St.authFail

def execFwStage (q : Nat) (s : State) : Host.Outcome State Fault Refusal :=
  .next (ringRow Op.fwStage anyEntry startFwStage runFwStage q s)

/-! ### FW_ACTIVATE (R392) -/

def actArm : Nat := 0
def actNow : Nat := 1
def actConfirm : Nat := 2

def startFwActivate (_ : State) (e : List Byte) : Begin :=
  let a := leAt e 20 1
  checked [(a ≤ 3, 20), (!bit (leAt e 21 1) 0 || a == actConfirm, 21)] .run

def setOtp (s : State) (o : Otp) : State := { s with sec := { s.sec with otp := o } }

/-- The trial is confirmed; COMMIT_SVN burns the running security version. -/
def confirmTrial (s : State) (commit : Bool) : State :=
  let d := dirOf s
  let s := setF (putDir s { d with active := d.trialSlot, trial := false }) Rg.TOP_STATUS_TRIAL 0 0
  if commit then setOtp s { s.sec.otp with svn := max s.sec.otp.svn (fwSvn (fwImage s (s.sec.slot.getD 0))) } else s

def runFwActivate (s : State) (c : Cmd) (_ : List Byte) : State :=
  let a := leAt c.entry 20 1
  let d := dirOf s
  if a ≤ actNow then
    if !stagedValid s then complete s c St.stateConflict
    else
      let s := complete (putDir s { d with trial := true, trialSlot := otherSlot s }) c St.ok
      if a = actNow then { s with sec := { s.sec with resetAt := some (s.now + msNs) } } else s
  else if a = actConfirm then
    if getB s Rg.TOP_STATUS_TRIAL then complete (confirmTrial s (bit (leAt c.entry 21 1) 0)) c St.ok else complete s c St.stateConflict
  else if fwSlotOk s (otherSlot s) then
    complete (setF (putDir s { d with active := otherSlot s, trial := false }) Rg.TOP_STATUS_TRIAL 0 0) c St.ok
  else complete s c St.stateConflict

def execFwActivate (q : Nat) (s : State) : Host.Outcome State Fault Refusal :=
  .next (ringRow Op.fwActivate anyEntry startFwActivate runFwActivate q s)

/-- 1 ms after NOW: HOLD on every enabled port if a schedule runs, then the warm reset. -/
def activateReset (s : State) : State :=
  match s.sec.resetAt with
  | none => s
  | some t =>
    if t ≤ s.now then
      let s := { s with sec := { s.sec with resetAt := none } }
      warmReset (if s.sht.running.isSome then stopHold s else s) kindWarmSoftware
    else s

def execFwActivateReset (s : State) : Host.Outcome State Fault Refusal := .next (activateReset s)

/-! ### ATTEST (R404) -/

def attestSize : Nat := 320

def startAttest (s : State) (e : List Byte) : Begin :=
  if eLen e = 0 then .finish St.okZero 0 0
  else if 2 ^ 64 < eAddr e + eLen e then invalid 8
  else if eLen e < attestSize then invalid 16
  else if lifecycle s == 3 || !s.sec.otp.idKey then .finish St.authFail 0 0
  else .run

/-- The digest of the active edition; zeros in SAFE mode. -/
def editionDigest (s : State) : List Byte :=
  let img := s.sec.edition
  if img.isEmpty then zeros 32 else (img.drop (edEnd img)).take 32

def attestBody (s : State) (nonce : List Byte) : List Byte :=
  let flags := getF s Rg.TOP_STATUS_SAFE + 2 * getF s Rg.CLK_STATUS_COAST + 4 * s.sec.hostPatches.isSome.toNat +
    8 * getF s Rg.TOP_STATUS_TRIAL + 16 * (!getB s Rg.MER_STATUS_TIME_VALID).toNat
  leBytes 4 0x54535441 ++ leBytes 2 1 ++ leBytes 2 320 ++ leBytes 8 s.sec.otp.serial ++ leBytes 1 (lifecycle s) ++
  leBytes 1 (getF s Rg.TOP_EDITION_STATUS_ACTIVE) ++ leBytes 1 flags ++ leBytes 1 (patchCount s) ++ leBytes 4 (fwVersion s) ++
  leBytes 4 (edSerial s.sec.edition) ++ leBytes 4 (mst s) ++ leBytes 6 s.mer.sec ++ zeros 2 ++ nonce ++ beBytes 32 s.sec.digest ++
  digestBytes (patchSet s) ++ editionDigest s ++ s.sec.otp.ownerHash ++ digestBytes s.sec.otp.idCert ++ zeros 24

def runAttest (s : State) (c : Cmd) (_ : List Byte) : State :=
  let b := attestBody s ((c.entry.drop 24).take 32)
  complete (hostWrite s (eAddr c.entry) (b ++ Config.sm2Sign b)) c St.ok attestSize

def execAttest (q : Nat) (s : State) : Host.Outcome State Fault Refusal :=
  .next (ringRow Op.attest anyEntry startAttest runAttest q s)

/-! ### DIAG LIFECYCLE and OWNER_BIND (R401, R402) -/

/-- The state whose fuses are burnt. -/
def burntState (s : State) : Nat := popCount s.sec.otp.lifecycle 3

def startLifecycle (s : State) (e : List Byte) : Begin :=
  let t := leAt e 21 1
  if t = 1 then
    if eLen e = 0 then .finish St.okZero 0 0
    else checked [(eAddr e + eLen e ≤ 2 ^ 64, 8), (eLen e == 96, 16)]
      (if t ≤ burntState s then .finish St.stateConflict 0 0 else .read (eAddr e) (eLen e) none)
  else checked [(eLen e == 0, 16), (t ≤ 3, 21)] (if t ≤ burntState s then .finish St.stateConflict 0 0 else .run)

/-- The token for a state. -/
def tokenOk (s : State) (t : Nat) (b : List Byte) : Bool :=
  leAt b 0 4 == 0x4B54434C && leAt b 4 8 == s.sec.otp.serial && leAt b 12 1 == t && signedBy (rootKey s) (b.take 32) (b.drop 32)

/-- Fuses are burnt up to a state; RETIRED overwrites the identity key at once. -/
def burnLifecycle (s : State) (t : Nat) : State :=
  let o := s.sec.otp
  raiseEv (setOtp s { o with lifecycle := o.lifecycle ||| (2 ^ t - 1), idKey := o.idKey && decide (t < 3) }) Ev.SEC_LIFECYCLE_CHANGE

def runLifecycle (s : State) (c : Cmd) (d : List Byte) : State :=
  let t := leAt c.entry 21 1
  if t ≤ burntState s then complete s c St.stateConflict
  else if t = 1 ∧ tokenOk s t d = false then complete s c St.authFail
  else complete (burnLifecycle s t) c St.ok

def execDiagLifecycle (q : Nat) (s : State) : Host.Outcome State Fault Refusal :=
  .next (ringRow Op.diag (fun e => diagSub e == 0x50) startLifecycle runLifecycle q s)

/-- OWNER_HASH is programmed, or the state is RETIRED. -/
def ownerClosed (s : State) : Bool := s.sec.otp.ownerHash != zeros 32 || lifecycle s == 3

def startOwnerBind (s : State) (e : List Byte) : Begin :=
  if eLen e = 0 then .finish St.okZero 0 0
  else checked [(eAddr e + eLen e ≤ 2 ^ 64, 8), (eLen e == 192, 16)]
    (if ownerClosed s then .finish St.stateConflict 0 0 else .read (eAddr e) (eLen e) none)

def runOwnerBind (s : State) (c : Cmd) (d : List Byte) : State :=
  if ownerClosed s then complete s c St.stateConflict
  else if ownerRecordOk s d then complete (setOtp s { s.sec.otp with ownerHash := digestBytes (ownerKey d) }) c St.ok
  else complete s c St.authFail

def execDiagOwnerBind (q : Nat) (s : State) : Host.Outcome State Fault Refusal :=
  .next (ringRow Op.diag (fun e => diagSub e == 0x51) startOwnerBind runOwnerBind q s)

/-! ### DIAG PATCH_LOAD (R408, R409) -/

def startPatchLoad (s : State) (e : List Byte) : Begin :=
  let clear := bit (leAt e 21 1) 0
  let auth (k : Begin) : Begin := if lifecycle s = 1 then k else .finish St.authFail 0 0
  if eLen e = 0 then (if clear then auth .run else .finish St.okZero 0 0)
  else checked [(eAddr e + eLen e ≤ 2 ^ 64, 8), (eLen e == 1536, 16)] (auth (.read (eAddr e) (eLen e) none))

def setPatches (s : State) (p : Option (List Byte)) : State :=
  raiseEv (persistCompass (patchNano { s with sec := { s.sec with hostPatches := p } })) Ev.CMP_PATCH_APPLIED

def runPatchLoad (s : State) (c : Cmd) (d : List Byte) : State :=
  complete (setPatches s (if d.isEmpty then none else some d)) c St.ok

def execDiagPatchLoad (q : Nat) (s : State) : Host.Outcome State Fault Refusal :=
  .next (ringRow Op.diag (fun e => diagSub e == 0x60) startPatchLoad runPatchLoad q s)

/-! ### CMP_WATCHDOG (R407) -/

/-- The Compass halts, and the fatal fault is raised. -/
def execCmpWatchdog (s : State) : Host.Outcome State Fault Refusal :=
  .next (if compassRuns s then raiseFe (setF s Rg.CMP_STATUS_STATE 0 2) Ev.CMP_WATCHDOG (ascii "CORE.COMPASS") else s)

end Sys2Proof.Machine
end

