-- ==== Sys2Proof/Machine/RegAccess.lean ====
section
/-!
DEFINITION. Accesses to BAR0 registers (R3, R4, R22, R23): what a write does by the fields' types and by each register's own
behaviour, what a read clears, accesses to gated domains, and the wake of a domain (R368). The hot reset (R358).
-/

namespace Sys2Proof.Machine

/-! ### Fields by access type (R4) -/

/-- Bits of the word at byte offset b of a register that fields of a type hold. -/
def accMask (r : RegD) (b : Nat) (a : Acc) : Nat :=
  r.fields.foldl (fun m f => if f.acc = a then m ||| ((2 ^ f.width - 1) * 2 ^ f.lo / 2 ^ (8 * b) % 2 ^ 32) else m) 0

/-- RW fields take the value, W1C bits written as 1 clear, W1S bits written as 1 set; everything else is kept. -/
def writtenWord (r : RegD) (b old v : Nat) : Nat :=
  let rw := accMask r b .rw
  let x := old - (old &&& rw) + (v &&& rw)
  let x := x - (x &&& (v &&& accMask r b .w1c))
  x ||| (v &&& accMask r b .w1s)

/-- Fields that store the nearest limit when a value outside it is written: lowest and highest value stored. -/
def storeLimits : List (Fld × Nat × Nat) :=
  [(Rg.SHT_MAX_DATA_BYTES, 256, 9176), (Rg.SCR_DISPATCH_CTRL_ADMIT_LIMIT, 0, 24000), (Rg.SCR_RC_CTRL_TARGET_PCT, 10, 100),
   (Rg.MER_SERVO_LOCK_LOCK_COUNT, 1, 31), (Rg.MER_SERVO_LOCK_UNLOCK_COUNT, 1, 31), (Rg.MER_SERVO_STEP_STEP_US, 1, 65535),
   (Rg.MER_SERVO_STEP_SLEW_PPM, 1, 255), (Rg.SW_CTRL_FENCE_TIMEOUT_MS, 1, 65535), (Rg.TM_CTRL_GATE_LEAD_US, 1, 65535),
   (Rg.TM_WEIGHT_LO_W0, 1, 255), (Rg.TM_WEIGHT_LO_W1, 1, 255), (Rg.TM_WEIGHT_LO_W2, 1, 255), (Rg.TM_WEIGHT_LO_W3, 1, 255),
   (Rg.TM_WEIGHT_HI_W0, 1, 255), (Rg.TM_WEIGHT_HI_W1, 1, 255), (Rg.TM_WEIGHT_HI_W2, 1, 255), (Rg.TM_WEIGHT_HI_W3, 1, 255),
   (Rg.HIF_CTRL_POLL_100NS, 1, 255), (Rg.HIF_CTRL_IDLE_US, 1, 65535), (Rg.HIF_VEC_MOD_COUNT, 1, 255),
   (Rg.MEM_RETRAIN_CTRL_THRESHOLD_C, 1, 255), (Rg.MEM_BAR4_CTRL_BASE_GIB, 0, 32), (Rg.MEM_QOS_CFG_TARGET_NS, 1, 2 ^ 24 - 1),
   (Rg.ECC_SCRUB_CTRL_HBM_PERIOD_H, 0, 168), (Rg.ECC_SCRUB_CTRL_SRAM_PERIOD_MIN, 0, 60), (Rg.ECC_SCRUB_CTRL_HBM_CAP_MBS, 1, 65535),
   (Rg.PWR_CTRL_AUTO_HOLD_MS, 1, 255), (Rg.PWR_CTRL_AUTO_WINDOW_MS, 1, 255), (Rg.SNS_BG_CAP_CMP_PCT, 1, 50),
   (Rg.SNS_BG_CAP_AGE_MBS, 1, 65535), (Rg.SNS_AGE_CTRL_PERIOD_MIN, 1, 255)]

def storeLimit (s : State) (i : Nat) (l : Fld × Nat × Nat) : State :=
  setF s l.1 i (max l.2.1 (min l.2.2 (getF s l.1 i)))

/-- The write of a word without behaviour of its own. -/
def plainWrite (s : State) (r : RegD) (i b off v : Nat) : State :=
  let s := setW s off (BitVec.ofNat 32 (writtenWord r b (regW s off).toNat v))
  foldS (storeLimits.filter fun l => l.1.base == r.base && l.1.lo / 32 == b / 4) (fun s l => storeLimit s i l) s

/-! ### Words with behaviour of their own -/

def anyRing (s : State) : Bool :=
  (List.range 64).any fun q => getB s Rg.HIF_SQ_CTRL_ENABLE q || getB s Rg.HIF_CQ_CFG_ENABLE q

/-- A write of INT_SRC_CFG (R302, R303, R306): a source that is not delivered is IDLE; a level that the sensing now finds makes
it PENDING. -/
def srcCfgWrite (s : State) (n v : Nat) : State :=
  let s := setF s Rg.INT_SRC_CFG_SENSE n (if 4 < v % 8 then 2 else v % 8)
  let s := setB s Rg.INT_SRC_CFG_EVQ_EN n (bit v 3 && n != Ev.INT_EVQ_OVERFLOW)
  let s := setF (setF s Rg.INT_SRC_CFG_VEC_EN n (v / 16)) Rg.INT_SRC_CFG_AUTO_ACK n (v / 32)
  let s := setF s Rg.INT_SRC_CFG_VECTOR n (v / 256)
  if !srcEnabled s n then setF s Rg.INT_SRC_CFG_STATE n srcIdle
  else if srcState s n = srcIdle ∧ levelHolds s n = true then
    setF (setSrc s n { getSrc s n with collapsed := false, stalled := false }) Rg.INT_SRC_CFG_STATE n srcPending
  else s

/-- HEADROOM: a write that would leave SHARED_SIZE below 16,384 is ignored (R241). -/
def headroomWrite (s : State) (v : Nat) : State :=
  let t := setF s Rg.SW_POOL_CFG_HEADROOM 0 v
  if sharedSize t < 16384 then s else t

/-- Words that stage a SET (R202). -/
def mftWrite (s : State) (off v : Nat) : State :=
  let m := s.mer
  let sub := m.setFrac + 2 ^ 16 * m.setNs
  let m :=
    if off = 0x02400010 then { m with setSec := m.setSec / 2 ^ 32 * 2 ^ 32 + v }
    else if off = 0x02400014 then { m with setSec := m.setSec % 2 ^ 32 + 2 ^ 32 * (v % 65536) }
    else if off = 0x02400018 then { m with setFrac := v % 65536, setNs := sub / 2 ^ 32 * 65536 + v / 65536 }
    else { m with setNs := m.setNs % 65536 + 65536 * (v % 2 ^ 14) }
  { s with mer := m }

/-- A word of MER_FREQ_ADJ: the other word is kept. -/
def adjWordWrite (s : State) (off v : Nat) : State :=
  let a := getF s Rg.MER_FREQ_ADJ_ADJ
  freqAdjWrite s (if off = 0x02400030 then a / 2 ^ 32 * 2 ^ 32 + v else a % 2 ^ 32 + 2 ^ 32 * (v % 256))

/-- A word of a vector in the MSI-X table (R272, R295). -/
def vectorWrite (s : State) (off v : Nat) : State :=
  let n := (off - 0x00C10000) / 16
  let x := getVec s n
  let k := off / 4 % 4
  if k = 0 then setVec s n { x with addr := x.addr / 2 ^ 32 * 2 ^ 32 + v }
  else if k = 1 then setVec s n { x with addr := x.addr % 2 ^ 32 + 2 ^ 32 * v }
  else if k = 2 then setVec s n { x with data := v }
  else vectorMask s n (bit v 0)

/-- Registers of PD00 to PD04 by their first offset; none for one without behaviour of its own. -/
def systemWrite (s : State) (r : RegD) (i b off v : Nat) : Option State :=
  if r.base = 0x00400020 then some (pllFreqWrite s i (v % 4096))
  else if r.base = 0x00400050 then some (measWrite s v)
  else if r.base = 0x00408004 then some (rstCtrlWrite s v)
  else if r.base = 0x00408008 then some (if bit v 31 then domainGo s (v % 128) else setF s Rg.RST_DOMAIN_DOMAIN 0 v)
  else if r.base = 0x00C00008 then some (if anyRing s then s else plainWrite s r i b off v)
  else if r.base = 0x00C01000 ∨ r.base = 0x00C01008 then
    some (if getB s Rg.HIF_SQ_CTRL_ENABLE i then s else plainWrite s r i b off v)
  else if r.base = 0x00C0100C then some (sqCtrlWrite s i (bit v 0) (bit v 1))
  else if r.base = 0x00C02000 then some (if getB s Rg.HIF_CQ_CFG_ENABLE i then s else plainWrite s r i b off v)
  else if r.base = 0x00C02008 then some (cqCfgWrite s i (v % 32) (v / 256 % 256) (bit v 16))
  else if r.base = 0x00C04000 then some (if getF s Rg.HIF_DMA_CH_OWNER i = ownerFree then plainWrite s r i b off v else s)
  else if r.base = 0x01000000 then some (srcCfgWrite s i v)
  else if r.base = 0x01001100 then some (srcAck s (v % 1024))
  else if r.base = 0x01008088 then some (if bit v 31 && getB s Rg.FLT_FIRST_SRC_VALID then firstClear s else s)
  else if r.base = 0x01008094 then some (fltTest s (v % 4))
  else if r.base = 0x01008100 then some (stickyWrite s i v)
  else if r.base = 0x01600030 then some (flipCtrlWrite s v)
  else if r.base = 0x03C00004 then
    let s := plainWrite s r i b off v
    some (if bit v 1 then startPass s else s)
  else if r.base = 0x03C00048 then some (wallLoad (plainWrite s r i b off v))
  else none

/-- The same for the wall, Meridian and the switch. -/
def unitWrite (s : State) (r : RegD) (i b off v : Nat) : Option State :=
  if r.base = 0x01880008 then some (encRefresh s (v % 4096) (bit v 31))
  else if r.base = 0x01C01000 then some (coefWrite s i v)
  else if r.base = 0x02001000 then some (setF (plainWrite s r i b off v) Rg.SHT_HOP_DELAY_VALID i 1)
  else if r.base = 0x02400000 then some (merCtrlWrite s v)
  else if r.base = 0x02400008 then some (timeCmd s (bit v 0) (bit v 1) (bit v 2))
  else if r.base = 0x02400010 ∨ r.base = 0x02400018 then some (mftWrite s off v)
  else if r.base = 0x02400030 then some (adjWordWrite s off v)
  else if r.base = 0x02400048 ∧ b = 4 then some (servoOffsetWrite s v)
  else if r.base = 0x02400068 then some (ptpCtrlWrite s v)
  else if r.base = 0x0240006C then some (bmca (plainWrite s r i b off v))
  else if r.base = 0x02400100 ∧ i = 7 then some s
  else if r.base = 0x02400400 then some (ptpPortWrite s i (v % 8))
  else if r.base = 0x02401010 then some (trigCtrlWrite s i v)
  else if r.base = 0x02401000 ∨ r.base = 0x02401008 ∨ r.base = 0x02401014 then some (trigFieldWrite s i off (v &&& accMask r b .rw))
  else if r.base = 0x02C00004 then some (headroomWrite s v)
  else none

/-- A write that reaches its register. -/
def regWrite (s : State) (off v : Nat) : State :=
  let v := v % 2 ^ 32
  if 0x00C10000 ≤ off ∧ off < 0x00C11000 then vectorWrite s off v
  else match findReg regTable off with
    | none => s
    | some (r, i, b) =>
      ((systemWrite s r i b off v).orElse fun _ => unitWrite s r i b off v).getD (plainWrite s r i b off v)

/-! ### What a read does (R4) -/

/-- RC fields that a unit's state holds. -/
def unitRead (s : State) (off : Nat) : Option State :=
  let k := getF s Rg.SCR_STREAM_SEL_STREAM
  let x := getStream s k
  let n := getF s Rg.TM_METER_SEL_METER
  let m := getMeter s n
  if off = 0x01002000 then some (evqDrop s)
  else if off = 0x02400064 then some (captureDrop s)
  else if off = 0x01800208 then some (setStream s k { x with packetsLost := 0, slicesLost := 0 })
  else if off = 0x0180020C then some (setStream s k { x with deadlineMiss := 0, skipped := 0 })
  else if off = 0x03000024 then some (setMeter s n { m with green := 0 })
  else if off = 0x03000028 then some (setMeter s n { m with yellow := 0 })
  else if off = 0x0300002C then some (setMeter s n { m with red := 0 })
  else none

/-- The RC fields of the word are cleared. -/
def clearRc (s : State) (off : Nat) : State :=
  match findReg regTable off with
  | none => s
  | some (r, _, b) =>
    let w := (regW s off).toNat
    let m := accMask r b .rc
    if w &&& m = 0 then s else setW s off (BitVec.ofNat 32 (w - (w &&& m)))

def readEffect (s : State) (off : Nat) : State := (unitRead s off).getD (clearRc s off)

/-- A read that reaches its register answers it. -/
def regRead (s : State) (off : Nat) : State := readEffect (emit s (.readData off (peekWord s off))) off

def reachReg (s : State) (off : Nat) (w : Option Nat) : State :=
  match w with
  | none => regRead s off
  | some v => regWrite s off v

/-! ### Accesses of the host (R22, R23, R273, R368, R374) -/

/-- An access waits until its domain is ON. -/
def holdAccess (s : State) (d off : Nat) (w : Option Nat) : State :=
  { s with pwr := { s.pwr with held := s.pwr.held ++ [⟨d, off, w⟩] } }

/-- A BAR0 access of 4 bytes. -/
def busAccess (s : State) (off : Nat) (w : Option Nat) : State :=
  let d := domainOf off
  let st := domainState s d
  if off % 4 ≠ 0 ∨ 0x04000000 ≤ off then barViolation s .size off w.isSome
  else if !occupied off then unmappedAccess s off w.isSome
  else if st = domOn then reachReg s off w
  else if st = domWaking then holdAccess s d off w
  else if getB s Rg.PWR_DOMAIN_WAKE_ON_ACCESS d && (st == domRetained || st == domOff) then holdAccess (setDomain s d domWaking) d off w
  else standInAccess s d off w.isSome

/-- A BAR0 access of 8 bytes: both words at once, the lower first (R273). -/
def pairAccess (s : State) (off : Nat) (w : Option Nat) : State :=
  if off % 8 ≠ 0 ∨ 0x04000000 ≤ off then barViolation s .size off w.isSome
  else busAccess (busAccess s off (w.map (· % 2 ^ 32))) (off + 4) (w.map (· / 2 ^ 32))

/-- An access to the BAR4 window: none where it is not implemented (R297, R342). -/
def bar4Access (s : State) (off len wait : Nat) (w : Option Nat) : State :=
  if getB s Rg.MEM_BAR4_CTRL_IMPLEMENTED && decide (off + len ≤ 2 ^ 34) then windowAccess (noteWait s portWindow wait) off len w
  else barViolation s .noBar off w.isSome

/-- A word of the configuration space: Device ID and vendor, class code (R271); the standard places of both are PCI Express Base's
(log 31). -/
def configWord (off : Nat) : Nat :=
  if off / 4 = 0 then Config.vendorId % 65536 + 2 ^ 16 * 0x8128
  else if off / 4 = 2 then Config.revisionId % 256 + 2 ^ 8 * 0x048000
  else Config.configSpace (off / 4) % 2 ^ 32

/-- REGISTER_WRITE (R4): by the kind of access. -/
def execRegisterWrite (k : BarKind) (off v : Nat) (s : State) : Host.Outcome State Fault Refusal :=
  .next <|
    match k with
    | .word => busAccess s off (some v)
    | .pair => pairAccess s off (some v)
    | .page => kick s off
    | .window len wait => bar4Access s off len wait (some v)
    | .config => s

/-- RC_REGISTER_READ (R4); a read of BAR2 answers 0 (R284). -/
def execRcRegisterRead (k : BarKind) (off : Nat) (s : State) : Host.Outcome State Fault Refusal :=
  .next <|
    match k with
    | .word => busAccess s off none
    | .pair => pairAccess s off none
    | .page => emit s (.readData off 0)
    | .window len wait => bar4Access s off len wait none
    | .config => emit s (.config off (configWord off))

/-- GATED_DOMAIN_ACCESS (R23). -/
def execGatedDomainAccess (off : Nat) (w : Option Nat) (s : State) : Host.Outcome State Fault Refusal := .next (busAccess s off w)

/-! ### DOMAIN_WAKE_DONE (R368, R374) -/

/-- The domain is ON; its held requests are served, in order, and a POWER_STATE that woke it completes. -/
def domainAwake (s : State) (d : Nat) : State :=
  let s := setDomain s d domOn
  let s := if 6 ≤ d ∧ d ≤ 29 ∧ coreState s (d - 6) = coreOff then setCoreState s (d - 6) coreIdle else s
  let l := s.pwr.held.filter fun h => h.domain == d
  let s := { s with pwr := { s.pwr with held := s.pwr.held.filter fun h => h.domain != d } }
  let s := foldS l (fun s h => reachReg s h.off h.write) (raiseEv s Ev.PWR_STATE_CHANGE)
  match s.pwr.entry with
  | none => s
  | some e => if e.domain = some (d, 0) then entryOk (clearEntry s) e.cmd else s

def execDomainWakeDone (d : Nat) (s : State) : Host.Outcome State Fault Refusal :=
  .next (if domainState s d = domWaking then domainAwake s d else s)

/-! ### PCIE_HOT_RESET (R358) -/

def execPcieHotReset (s : State) : Host.Outcome State Fault Refusal :=
  .next (if unitsRun s && decide (devState s ≤ 2) then hotReset s else s)

end Sys2Proof.Machine
end

