-- ==== Sys2Proof/Machine/Smbus.lean ====
section
/-!
DEFINITION. The SMBus target (R437): register accesses at its own offset, and its wake and reset commands.
-/

namespace Sys2Proof.Machine

/-- In clock hold only CLK_, RST_, PWR_, SNS_ and FLT_STICKY are live. -/
def smbLive (s : State) (off : Nat) : Bool :=
  decide (s.clk.stage ≠ .hold) || (decide (0x00400000 ≤ off) && decide (off < 0x00C00000)) || decide (0x03C00000 ≤ off) ||
  (decide (0x01008100 ≤ off) && decide (off < 0x01008180))

def smbAnswer (s : State) (v : Nat) : State := emit s (.smbus (leBytes 4 v))

/-- An access at the offset: w is the value written. A domain that is not ON is never woken; what is not live in clock hold answers
a free value, and takes no write. -/
def smbAccess (s : State) (off : Nat) (w : Option Nat) : State :=
  let d := domainOf off
  if off % 4 ≠ 0 ∨ 0x04000000 ≤ off ∨ occupied off = false then
    unmappedAccess (if w.isNone then smbAnswer s 0 else s) off true
  else if !smbLive s off then
    match w with
    | some _ => s
    | none => let r := freshIndex s; smbAnswer r.2 (Config.free r.1)
  else if !domainOn s d then standInAccess (if w.isNone then smbAnswer s (standIn d) else s) d off true
  else match w with
    | some v => regWrite s off v
    | none => readEffect (smbAnswer s (peekWord s off)) off

/-- Code 0x10. -/
def execSmbusSetOffset (off : Nat) (s : State) : Host.Outcome State Fault Refusal :=
  .next { s with sec := { s.sec with smbOffset := off % 2 ^ 32 } }

/-- The offset moves to the next register. -/
def smbAdvance (s : State) (off : Nat) : State := { s with sec := { s.sec with smbOffset := (off + 4) % 2 ^ 32 } }

/-- Code 0x11. -/
def execSmbusRead (s : State) : Host.Outcome State Fault Refusal :=
  .next (smbAdvance (smbAccess s s.sec.smbOffset none) s.sec.smbOffset)

/-- Code 0x12. -/
def execSmbusWrite (v : Nat) (s : State) : Host.Outcome State Fault Refusal :=
  .next (smbAdvance (smbAccess s s.sec.smbOffset (some v)) s.sec.smbOffset)

/-- Code 0xE1: wake source 5 (R379). -/
def execSmbusWake (s : State) : Host.Outcome State Fault Refusal := .next (wake s 32 none)

/-- Code 0xE2. -/
def execSmbusColdReset (s : State) : Host.Outcome State Fault Refusal := .next (coldReset s kindColdSmbus)

/-- Code 0xE3: units that are not yet out of their first reset stay there. -/
def execSmbusWarmReset (s : State) : Host.Outcome State Fault Refusal :=
  .next (if unitsRun s then warmReset s kindWarmSmbus else s)

end Sys2Proof.Machine
end

