-- ==== Sys2Proof/Machine/Dispatch.lean ====
section
/-!
DEFINITION. The meaning of each command: one arm per constructor of Instr, each one call of its meaning.
-/

namespace Sys2Proof.Machine

def exec (i : Instr) (s : State) : Host.Outcome State Fault Refusal :=
  match i with
  | .sqDoorbellKick off stores => Sys2Proof.Machine.execSqDoorbellKick off stores s
  | .sqPoll sq stores fails => Sys2Proof.Machine.execSqPoll sq stores fails s
  | .sqEngineSleep sq stores => Sys2Proof.Machine.execSqEngineSleep sq stores s
  | .nop sq => Sys2Proof.Machine.execNop sq s
  | .diagEcho sq => Sys2Proof.Machine.execDiagEcho sq s
  | .dmaDescriptorDone engine => Sys2Proof.Machine.execDmaDescriptorDone engine s
  | .dmaCompletionTimeout engine kind => Sys2Proof.Machine.execDmaCompletionTimeout engine kind s
  | .cqHeldRelease cq stores => Sys2Proof.Machine.execCqHeldRelease cq stores s
  | .vectorModerationTimeout vector => Sys2Proof.Machine.execVectorModerationTimeout vector s
  | .sqEnable sq => Sys2Proof.Machine.execSqEnable sq s
  | .sqStop sq enable => Sys2Proof.Machine.execSqStop sq enable s
  | .sqDisable sq => Sys2Proof.Machine.execSqDisable sq s
  | .cqEnable cq depthExp vector => Sys2Proof.Machine.execCqEnable cq depthExp vector s
  | .cqDisable cq => Sys2Proof.Machine.execCqDisable cq s
  | .msixVectorMask vector mask => Sys2Proof.Machine.execMsixVectorMask vector mask s
  | .bar0UnmappedAccess off write => Sys2Proof.Machine.execBar0UnmappedAccess off write s
  | .gatedDomainAccess off write => Sys2Proof.Machine.execGatedDomainAccess off write s
  | .barAccessInvalid kind off write => Sys2Proof.Machine.execBarAccessInvalid kind off write s
  | .functionLevelReset => Sys2Proof.Machine.execFunctionLevelReset s
  | .pcieHotReset => Sys2Proof.Machine.execPcieHotReset s
  | .d3hotEntry pmeEn => Sys2Proof.Machine.execD3hotEntry pmeEn s
  | .d0Return => Sys2Proof.Machine.execD0Return s
  | .pcieLinkDown aspm => Sys2Proof.Machine.execPcieLinkDown aspm s
  | .layerSet sq => Sys2Proof.Machine.execLayerSet sq s
  | .viewCommit sq => Sys2Proof.Machine.execViewCommit sq s
  | .surfaceWrite sq => Sys2Proof.Machine.execSurfaceWrite sq s
  | .surfaceWriteResume surface => Sys2Proof.Machine.execSurfaceWriteResume surface s
  | .gazetteerUpdate sq => Sys2Proof.Machine.execGazetteerUpdate sq s
  | .sheetCalSet sq => Sys2Proof.Machine.execSheetCalSet sq s
  | .prjCoefWrite word value => Sys2Proof.Machine.execPrjCoefWrite word value s
  | .compositionStart view => Sys2Proof.Machine.execCompositionStart view s
  | .compositionLatestStart view => Sys2Proof.Machine.execCompositionLatestStart view s
  | .compositionDone view => Sys2Proof.Machine.execCompositionDone view s
  | .latitudeCompose view latitude => Sys2Proof.Machine.execLatitudeCompose view latitude s
  | .sheetOutputStart sheet => Sys2Proof.Machine.execSheetOutputStart sheet s
  | .unitEmissionInstant sheet unit => Sys2Proof.Machine.execUnitEmissionInstant sheet unit s
  | .streamOpen sq => Sys2Proof.Machine.execStreamOpen sq s
  | .streamClose sq => Sys2Proof.Machine.execStreamClose sq s
  | .streamData sq => Sys2Proof.Machine.execStreamData sq s
  | .streamDataResume stream => Sys2Proof.Machine.execStreamDataResume stream s
  | .streamConcealSet sq => Sys2Proof.Machine.execStreamConcealSet sq s
  | .streamPacketReceive stream packet => Sys2Proof.Machine.execStreamPacketReceive stream packet s
  | .reorderTimeout stream => Sys2Proof.Machine.execReorderTimeout stream s
  | .st2110BandCommit stream => Sys2Proof.Machine.execSt2110BandCommit stream s
  | .dispatchPicture core => Sys2Proof.Machine.execDispatchPicture core s
  | .contextSwitchDone core => Sys2Proof.Machine.execContextSwitchDone core s
  | .sliceDecodeDone core hevc => Sys2Proof.Machine.execSliceDecodeDone core hevc s
  | .pictureDecodeDone core hevc => Sys2Proof.Machine.execPictureDecodeDone core hevc s
  | .pictureDeadline stream => Sys2Proof.Machine.execPictureDeadline stream s
  | .coreEnableWrite value => Sys2Proof.Machine.execCoreEnableWrite value s
  | .encRefresh sheet all => Sys2Proof.Machine.execEncRefresh sheet all s
  | .cellRowCode sheet poisoned => Sys2Proof.Machine.execCellRowCode sheet poisoned s
  | .rcCapture sq => Sys2Proof.Machine.execRcCapture sq s
  | .rollcall sq => Sys2Proof.Machine.execRollcall sq s
  | .rollcallRspReceive port frame => Sys2Proof.Machine.execRollcallRspReceive port frame s
  | .rollcallWindowEnd port => Sys2Proof.Machine.execRollcallWindowEnd port s
  | .calAckTimeout port => Sys2Proof.Machine.execCalAckTimeout port s
  | .backgroundPing => Sys2Proof.Machine.execBackgroundPing s
  | .nackReportReceive port frame => Sys2Proof.Machine.execNackReportReceive port frame s
  | .presentSchedule sq => Sys2Proof.Machine.execPresentSchedule sq s
  | .scheduleFirstPresent => Sys2Proof.Machine.execScheduleFirstPresent s
  | .launchIdleStart port => Sys2Proof.Machine.execLaunchIdleStart port s
  | .presentLaunch port => Sys2Proof.Machine.execPresentLaunch port s
  | .hold sq => Sys2Proof.Machine.execHold sq s
  | .holdInstant => Sys2Proof.Machine.execHoldInstant s
  | .resumeInstant => Sys2Proof.Machine.execResumeInstant s
  | .merTimeLatch set step => Sys2Proof.Machine.execMerTimeLatch set step s
  | .merTimeSet latch step => Sys2Proof.Machine.execMerTimeSet latch step s
  | .merTimeStep latch set => Sys2Proof.Machine.execMerTimeStep latch set s
  | .merFreqAdjWrite value => Sys2Proof.Machine.execMerFreqAdjWrite value s
  | .merServoOffsetWrite upper => Sys2Proof.Machine.execMerServoOffsetWrite upper s
  | .servoSample offset => Sys2Proof.Machine.execServoSample offset s
  | .holdoverTimeout => Sys2Proof.Machine.execHoldoverTimeout s
  | .ptpMessageReceive port frame stamp => Sys2Proof.Machine.execPtpMessageReceive port frame stamp s
  | .ptpSyncInterval port => Sys2Proof.Machine.execPtpSyncInterval port s
  | .ptpAnnounceInterval port => Sys2Proof.Machine.execPtpAnnounceInterval port s
  | .triggerArm trigger fields => Sys2Proof.Machine.execTriggerArm trigger fields s
  | .triggerDisarm trigger fields => Sys2Proof.Machine.execTriggerDisarm trigger fields s
  | .triggerInstant trigger => Sys2Proof.Machine.execTriggerInstant trigger s
  | .triggerPulseEnd trigger => Sys2Proof.Machine.execTriggerPulseEnd trigger s
  | .ppsOutPulse => Sys2Proof.Machine.execPpsOutPulse s
  | .pinEdgeCapture sync falling => Sys2Proof.Machine.execPinEdgeCapture sync falling s
  | .merCapturePop => Sys2Proof.Machine.execMerCapturePop s
  | .portConfig sq => Sys2Proof.Machine.execPortConfig sq s
  | .portMeasure sq => Sys2Proof.Machine.execPortMeasure sq s
  | .autoNegotiationDone port ability fec => Sys2Proof.Machine.execAutoNegotiationDone port ability fec s
  | .linkTrainingDone port => Sys2Proof.Machine.execLinkTrainingDone port s
  | .linkTrainingTimeout port => Sys2Proof.Machine.execLinkTrainingTimeout port s
  | .linkLockHeld port => Sys2Proof.Machine.execLinkLockHeld port s
  | .linkLoss port => Sys2Proof.Machine.execLinkLoss port s
  | .linkFlapHoldEnd port => Sys2Proof.Machine.execLinkFlapHoldEnd port s
  | .laneAdaptStep lane ctle dfe => Sys2Proof.Machine.execLaneAdaptStep lane ctle dfe s
  | .frameLookup port frame fault corrected uncorrectable => Sys2Proof.Machine.execFrameLookup port frame fault corrected uncorrectable s
  | .pauseFrameReceive port frame => Sys2Proof.Machine.execPauseFrameReceive port frame s
  | .tableUpdate sq => Sys2Proof.Machine.execTableUpdate sq s
  | .tableFenceReached table => Sys2Proof.Machine.execTableFenceReached table s
  | .tableFenceTimeout table => Sys2Proof.Machine.execTableFenceTimeout table s
  | .mirrorSet sq => Sys2Proof.Machine.execMirrorSet sq s
  | .d2dFlitRetry die => Sys2Proof.Machine.execD2dFlitRetry die s
  | .dieLinkDown die => Sys2Proof.Machine.execDieLinkDown die s
  | .dieLinkRetrain die => Sys2Proof.Machine.execDieLinkRetrain die s
  | .dieLinkReturn die => Sys2Proof.Machine.execDieLinkReturn die s
  | .tmFrameSelect port => Sys2Proof.Machine.execTmFrameSelect port s
  | .shaperSet sq => Sys2Proof.Machine.execShaperSet sq s
  | .shaperRefill port cls => Sys2Proof.Machine.execShaperRefill port cls s
  | .wheelOverflowScan => Sys2Proof.Machine.execWheelOverflowScan s
  | .meterSet sq => Sys2Proof.Machine.execMeterSet sq s
  | .gateListSet sq => Sys2Proof.Machine.execGateListSet sq s
  | .gateListStart port => Sys2Proof.Machine.execGateListStart port s
  | .gateEntryChange port => Sys2Proof.Machine.execGateEntryChange port s
  | .eventDeliver => Sys2Proof.Machine.execEventDeliver s
  | .intEvqPop => Sys2Proof.Machine.execIntEvqPop s
  | .intSrcAck source => Sys2Proof.Machine.execIntSrcAck source s
  | .hardwareFault source domain location => Sys2Proof.Machine.execHardwareFault source domain location s
  | .ucResetDone unit => Sys2Proof.Machine.execUcResetDone unit s
  | .surveyDone dmaFails => Sys2Proof.Machine.execSurveyDone dmaFails s
  | .fltStickyClear word value => Sys2Proof.Machine.execFltStickyClear word value s
  | .fltFirstClear => Sys2Proof.Machine.execFltFirstClear s
  | .fltTest cls => Sys2Proof.Machine.execFltTest cls s
  | .surveyArm sq => Sys2Proof.Machine.execSurveyArm sq s
  | .surveyRead sq => Sys2Proof.Machine.execSurveyRead sq s
  | .mergeReadReturn stack word writes port wait => Sys2Proof.Machine.execMergeReadReturn stack word writes port wait s
  | .mergeEntryTimeout stack => Sys2Proof.Machine.execMergeEntryTimeout stack s
  | .retrainHold stack waiting lanes => Sys2Proof.Machine.execRetrainHold stack waiting lanes s
  | .retrainDeferred stack => Sys2Proof.Machine.execRetrainDeferred stack s
  | .tmrSweep => Sys2Proof.Machine.execTmrSweep s
  | .hbmScrubStep stack wait => Sys2Proof.Machine.execHbmScrubStep stack wait s
  | .sramScrubStep macro_ words domain last => Sys2Proof.Machine.execSramScrubStep macro_ words domain last s
  | .eccFlipArm value => Sys2Proof.Machine.execEccFlipArm value s
  | .powerOnReset board => Sys2Proof.Machine.execPowerOnReset board s
  | .troJudgment count => Sys2Proof.Machine.execTroJudgment count s
  | .xoJudgment count => Sys2Proof.Machine.execXoJudgment count s
  | .xoAmplitudeTimeout => Sys2Proof.Machine.execXoAmplitudeTimeout s
  | .pllLock pll => Sys2Proof.Machine.execPllLock pll s
  | .pllUnlock pll => Sys2Proof.Machine.execPllUnlock pll s
  | .pllRelockTimeout pll => Sys2Proof.Machine.execPllRelockTimeout pll s
  | .clkPllFreqWrite pll mhz => Sys2Proof.Machine.execClkPllFreqWrite pll mhz s
  | .xoLoss => Sys2Proof.Machine.execXoLoss s
  | .troCheck count => Sys2Proof.Machine.execTroCheck count s
  | .clkMeasStart value => Sys2Proof.Machine.execClkMeasStart value s
  | .clkMeasDone count => Sys2Proof.Machine.execClkMeasDone count s
  | .clkMeasNoClock => Sys2Proof.Machine.execClkMeasNoClock s
  | .clockGateIdleClose domain => Sys2Proof.Machine.execClockGateIdleClose domain s
  | .gateBusyTimeout domain => Sys2Proof.Machine.execGateBusyTimeout domain s
  | .drainReplyTimeout domain => Sys2Proof.Machine.execDrainReplyTimeout domain s
  | .perstAssert => Sys2Proof.Machine.execPerstAssert s
  | .perstDeassert edition => Sys2Proof.Machine.execPerstDeassert edition s
  | .rstWarm value => Sys2Proof.Machine.execRstWarm value s
  | .rstDomainGo domain => Sys2Proof.Machine.execRstDomainGo domain s
  | .firmwareVerified => Sys2Proof.Machine.execFirmwareVerified s
  | .hbmTrainingDone trained kept lanes temps => Sys2Proof.Machine.execHbmTrainingDone trained kept lanes temps s
  | .startupEditionApply => Sys2Proof.Machine.execStartupEditionApply s
  | .powerState sq => Sys2Proof.Machine.execPowerState sq s
  | .watchConfig sq => Sys2Proof.Machine.execWatchConfig sq s
  | .powerUnitAnswer domain deferUs => Sys2Proof.Machine.execPowerUnitAnswer domain deferUs s
  | .powerDeferRetry domain => Sys2Proof.Machine.execPowerDeferRetry domain s
  | .entryWindowTimeout => Sys2Proof.Machine.execEntryWindowTimeout s
  | .autoDomainGate domain => Sys2Proof.Machine.execAutoDomainGate domain s
  | .domainWakeDone domain => Sys2Proof.Machine.execDomainWakeDone domain s
  | .watchEntryProceed => Sys2Proof.Machine.execWatchEntryProceed s
  | .watchSample temps rails lanes sync => Sys2Proof.Machine.execWatchSample temps rails lanes sync s
  | .rtcAlarm => Sys2Proof.Machine.execRtcAlarm s
  | .rtcSecondLoad => Sys2Proof.Machine.execRtcSecondLoad s
  | .wakeEvent sources fault => Sys2Proof.Machine.execWakeEvent sources fault s
  | .watchWakeDone xoCount => Sys2Proof.Machine.execWatchWakeDone xoCount s
  | .editionLoad sq => Sys2Proof.Machine.execEditionLoad sq s
  | .editionSelect sq => Sys2Proof.Machine.execEditionSelect sq s
  | .editionApplyInstant => Sys2Proof.Machine.execEditionApplyInstant s
  | .fwStage sq => Sys2Proof.Machine.execFwStage sq s
  | .fwActivate sq => Sys2Proof.Machine.execFwActivate sq s
  | .fwActivateReset => Sys2Proof.Machine.execFwActivateReset s
  | .attest sq => Sys2Proof.Machine.execAttest sq s
  | .diagLifecycle sq => Sys2Proof.Machine.execDiagLifecycle sq s
  | .diagOwnerBind sq => Sys2Proof.Machine.execDiagOwnerBind sq s
  | .diagPatchLoad sq => Sys2Proof.Machine.execDiagPatchLoad sq s
  | .cmpWatchdog => Sys2Proof.Machine.execCmpWatchdog s
  | .wearCurveSet sq => Sys2Proof.Machine.execWearCurveSet sq s
  | .ageUpdateNow => Sys2Proof.Machine.execAgeUpdateNow s
  | .ageingPass => Sys2Proof.Machine.execAgeingPass s
  | .doseSave sq => Sys2Proof.Machine.execDoseSave sq s
  | .doseLoad sq => Sys2Proof.Machine.execDoseLoad sq s
  | .diagBgRead sq => Sys2Proof.Machine.execDiagBgRead sq s
  | .summaryWrite => Sys2Proof.Machine.execSummaryWrite s
  | .faultLogFlush => Sys2Proof.Machine.execFaultLogFlush s
  | .telemetryArm sq => Sys2Proof.Machine.execTelemetryArm sq s
  | .telemetryRecord => Sys2Proof.Machine.execTelemetryRecord s
  | .sensorSample temps rails => Sys2Proof.Machine.execSensorSample temps rails s
  | .smbusSetOffset offset => Sys2Proof.Machine.execSmbusSetOffset offset s
  | .smbusRead => Sys2Proof.Machine.execSmbusRead s
  | .smbusWrite value => Sys2Proof.Machine.execSmbusWrite value s
  | .smbusWake => Sys2Proof.Machine.execSmbusWake s
  | .smbusColdReset => Sys2Proof.Machine.execSmbusColdReset s
  | .smbusWarmReset => Sys2Proof.Machine.execSmbusWarmReset s
  | .registerWrite kind off value => Sys2Proof.Machine.execRegisterWrite kind off value s
  | .rcRegisterRead kind off => Sys2Proof.Machine.execRcRegisterRead kind off s
  | .xoReturn count => Sys2Proof.Machine.execXoReturn count s
  | .d2dLinkLoss die => Sys2Proof.Machine.execD2dLinkLoss die s
  | .pcieLinkReturn speed width => Sys2Proof.Machine.execPcieLinkReturn speed width s
  | .pauseQuantaExpiry port => Sys2Proof.Machine.execPauseQuantaExpiry port s
  | .ptpDelayReqInterval port => Sys2Proof.Machine.execPtpDelayReqInterval port s
  | .flashProgramDone ok => Sys2Proof.Machine.execFlashProgramDone ok s
  | .editionStagingDone => Sys2Proof.Machine.execEditionStagingDone s
  | .equaliserEstimateDone port lanes => Sys2Proof.Machine.execEqualiserEstimateDone port lanes s
  | .ageingPassDone => Sys2Proof.Machine.execAgeingPassDone s

end Sys2Proof.Machine
end

