-- ==== Sys2Proof/Machine/Microcode.lean ====
section
/-!
DEFINITION. The sequencer of the Compass (R405 to R408): the control store under the patches in force, the next microword address,
and the gap between safe points.
-/

namespace Sys2Proof.Machine

/-! ### The control store (R405, R408) -/

/-- The first patch slot in force for a microword address. -/
def patchAt (s : State) (a : Nat) : Option Nat :=
  (List.range 64).find? fun i => patchEnabled (patchSet s) i && leAt (patchSet s) (8 * i) 2 % 2 ^ 14 == a

/-- A microword: a patch's replacement, mask ROM below 1,024, or what the firmware loaded. -/
def microword (s : State) (a : Nat) : Nat :=
  match patchAt s a with
  | some i => leAt (patchSet s) (8 * i + 2) 3
  | none => if a < 1024 then Config.microRom a % 2 ^ 24 else s.sec.micro.get a 0

/-- A nanoword: mask ROM below 128, or what the firmware and the patches loaded. -/
def nanoword (s : State) (i : Nat) : Nat := if i < 128 then Config.nanoRom i % 2 ^ 128 else s.sec.nano.get i 0

/-! ### The next address (R406) -/

/-- What SEQ of a nanoword asks for. -/
inductive Seq where
  | next | jump | branch | call | ret
deriving DecidableEq, Repr

def seqOf (n : Nat) : Seq :=
  let k := Config.nanoSeq n % 5
  if k = 0 then .next else if k = 1 then .jump else if k = 2 then .branch else if k = 3 then .call else .ret

/-- Microword addresses have 14 bits. -/
def microWrap (a : Nat) : Nat := a % 2 ^ 14

/-- The four selected condition bits, c3 first in weight; an unused select gives 0. -/
def condBits (n : Nat) (cond : Nat → Bool) : Nat :=
  ((List.range 4).map fun i => match Config.nanoSelect n i with
    | none => 0
    | some k => (cond k).toNat * 2 ^ i).sum

/-- Address and stack that follow a microinstruction at pc with the ADDR field addr. lost: the contents of the stack once a ninth
address is pushed on it, and empty: the address that an empty stack gives (log 69). -/
def nextMicro (pc addr : Nat) (stack lost : List Nat) (empty : Nat) (n : Nat) (cond : Nat → Bool) : Nat × List Nat :=
  match seqOf n with
  | .next => (microWrap (pc + 1), stack)
  | .jump => (microWrap (addr * 2), stack)
  | .branch => (microWrap (addr * 2 ||| condBits n cond), stack)
  | .call => (microWrap (addr * 2), if stack.length < 8 then microWrap (pc + 1) :: stack else lost)
  | .ret => match stack with
    | [] => (microWrap empty, [])
    | a :: t => (a, t)

/-! ### One microinstruction (R405, R407) -/

/-- The conditions of a microinstruction are free values: which they are, the spec does not give (log 69). -/
def freeCond (s : State) (k : Nat) : Bool := bit (Config.free (s.freeCtr + k % 256)) 0

def freeStack (s : State) : List Nat := (List.range 8).map fun i => microWrap (Config.free (s.freeCtr + 256 + i))

/-- A microinstruction retires; at a safe point the run that ends there is measured. -/
def microStep (s : State) : State :=
  let w := microword s s.sec.pc
  let n := nanoword s (w % 2 ^ 11)
  let r := nextMicro s.sec.pc (w / 2 ^ 11 % 2 ^ 13) s.sec.stack (freeStack s) (Config.free (s.freeCtr + 264)) n (freeCond s)
  let gap := s.sec.gap + 1
  let safe := Config.nanoSafe n
  let t := { s with freeCtr := s.freeCtr + 265, sec := { s.sec with pc := r.1, stack := r.2, gap := if safe then 0 else gap } }
  if safe then setF t Rg.CMP_SAFE_GAP_MAX_GAP 0 (max (getF t Rg.CMP_SAFE_GAP_MAX_GAP) (min gap 65535)) else t

end Sys2Proof.Machine
end

