-- ==== Sys2Proof/Machine/Idle.lean ====
section
/-!
DEFINITION. What happens while no command waits: time passes (log 2).
-/

namespace Sys2Proof.Machine

/-- PD05 is out of reset from T0 on (R363). -/
def meridianRuns (s : State) : Bool := domainOn s 5 && decide (2 ≤ phase s) && decide (phase s ≤ phCoast)

/-- The Compass retires one microinstruction per CFGCLK cycle of 4 ns (R405). -/
def tickCompass (s : State) : State := if s.now % 4 = 0 ∧ compassRuns s = true then microStep s else s

/-- A domain with policy AUTO or OFF wakes when a user appears (R368); in NAP PD06 to PD35 stay retained (R369). -/
def userWaits (s : State) (d : Nat) : Bool :=
  getF s Rg.PWR_DOMAIN_POLICY d != 0 && domainUsed s d && (getF s Rg.PWR_STATE_STATE != 2 || !(decide (6 ≤ d) && decide (d ≤ 35)))

def tickPower (s : State) : State :=
  if running s && decide (getF s Rg.PWR_STATE_STATE ≤ 2) then wakeDomains s ((rangeFrom 1 79).filter (userWaits s)) else s

/-- One TIMECLK cycle: reference time, the sequencer, the users of gated domains, the Meridian clock, and the end of the PPS_OUT
pulse. -/
def tick (s : State) : State :=
  let s := tickPower (tickCompass { s with now := s.now + 1 })
  if meridianRuns s then ppsPulseEnd (tickClock s) else s

end Sys2Proof.Machine
end

