-- ==== Sys2Proof/Safety.lean ====
section
/-!
DEFINITION. What counts as a safe step, in the terms the claims use: the machine goes on; the fuses only burn; the memories
keep their canonical form; the event queue and the event log keep their sizes; the Meridian time stays a time.
-/

namespace Sys2Proof.Machine

/-- A step that goes on: no fault, no refusal. -/
def Goes (s : State) : Prop := ∃ t, step s = .next t

/-- Fuses from a to b (R389, R400 to R402): what the factory wrote stays; lifecycle bits are only added; the security version
never falls; an erased identity key stays erased; a bound owner key stays. -/
structure FusesOnlyBurn (a b : Otp) : Prop where
  rootHash : b.rootHash = a.rootHash
  serial : b.serial = a.serial
  troTrim : b.troTrim = a.troTrim
  idCert : b.idCert = a.idCert
  lifecycle : ∀ i, a.lifecycle.testBit i = true → b.lifecycle.testBit i = true
  svn : a.svn ≤ b.svn
  policy : b.policy = a.policy
  ownerHash : a.ownerHash ≠ zeros 32 → b.ownerHash = a.ownerHash
  idKey : a.idKey = false → b.idKey = false

/-- The registers written down: offsets rise strictly, and none is listed at its reset value. -/
def regsWf (m : SMap Word) : Bool := m.sorted && m.all fun e => e.2 != regDefault e.1

/-- The HBM words written down: word numbers rise strictly, and none is listed that reads as unlisted. -/
def hbmWf (m : SMap HbmWord) : Bool := m.sorted && m.all fun e => e.2 != HbmWord.init

/-- MFT is a time: its nanoseconds are below a second and its fraction below a nanosecond (R199). -/
def Mer.isTime (m : Mer) : Bool := decide (m.ns < 1000000000) && decide (m.frac < 2 ^ 48)

/-- What every step keeps: host memory, registers and HBM in canonical form; at most 32 entries in the event queue (R305) and
4,096 in the event log (R307); a Meridian time. -/
structure Inv (s : State) : Prop where
  host : memWf s.host = true
  regs : regsWf s.regs = true
  hbm : hbmWf s.mem.hbm = true
  evq : s.ev.evq.length ≤ 32
  log : s.ev.log.length ≤ 4096
  time : s.mer.isTime = true

/-- The parts of the state, for saying what a command leaves as it was: the fields of State; of the memory, of the background
services and of the Compass, one list each apart from the rest; and of BAR0, the 16 windows of 4 MiB (R20). -/
inductive Part where
  | freeCtr | wire | host | hif | ev | clk | pwr | mer
  /-- triplicated words; HBM, SRAM and the rest of the memory -/
  | tmr | mem
  | prj | ports | sw | tm | sht | scr | enc
  /-- the fault log not yet in flash with the telemetry counts; the other background services -/
  | bgLog | bg
  /-- the EDITION_SELECT in progress; fuses, flash and the rest of the Compass -/
  | select | sec
  | pins
  | regs (window : Nat)
deriving DecidableEq, Repr

/-- A part is the same in both states. -/
def Part.same (p : Part) (s t : State) : Prop :=
  match p with
  | .freeCtr => t.freeCtr = s.freeCtr
  | .wire => t.wire = s.wire
  | .host => t.host = s.host
  | .hif => t.hif = s.hif
  | .ev => t.ev = s.ev
  | .clk => t.clk = s.clk
  | .pwr => t.pwr = s.pwr
  | .mer => t.mer = s.mer
  | .tmr => t.mem.tmr = s.mem.tmr
  | .mem => { t.mem with tmr := [] } = { s.mem with tmr := [] }
  | .prj => t.prj = s.prj
  | .ports => t.ports = s.ports
  | .sw => t.sw = s.sw
  | .tm => t.tm = s.tm
  | .sht => t.sht = s.sht
  | .scr => t.scr = s.scr
  | .enc => t.enc = s.enc
  | .bgLog => t.bg.faultBuf = s.bg.faultBuf ∧ t.bg.teleCounts = s.bg.teleCounts
  | .bg => { t.bg with faultBuf := [], teleCounts := [] } = { s.bg with faultBuf := [], teleCounts := [] }
  | .select => t.sec.select = s.sec.select
  | .sec => { t.sec with select := none } = { s.sec with select := none }
  | .pins => t.pins = s.pins
  | .regs k => ∀ off, off / 0x400000 = k → regW t off = regW s off

/-- From s to t no part has changed but those named. -/
def ChangesOnly (l : List Part) (s t : State) : Prop := ∀ p, p ∉ l → p.same s t

/-- From s to t the bytes b are stored in host memory at address a; every other byte reads as before. -/
def StoresBytes (a : Nat) (b : List Byte) (s t : State) : Prop :=
  hostRead t a b.length = b ∧ ∀ x, (x < a ∨ a + b.length ≤ x) → memByte t.host x = memByte s.host x

/-! ### Commands of the rings -/

/-- A row of the opcode table that is a command of a ring: its opcode, the entries it is for, what it answers from the entry,
what it does once its host data are in, and what follows its step. -/
structure Row where
  opcode : Nat
  sel : List Byte → Bool
  start : State → List Byte → Begin
  run : State → Cmd → List Byte → State
  after : State → State := id

/-- The ring and the row of a ring's command; the other rows are not commands of a ring. -/
def rowOf (i : Instr) : Option (Nat × Row) :=
  match i with
  | .nop q => some (q, { opcode := Op.nop, sel := anyEntry, start := startNop, run := runNop })
  | .diagEcho q => some (q, { opcode := Op.diag, sel := echoEntry, start := startEcho, run := runEcho })
  | .layerSet q => some (q, { opcode := Op.layerSet, sel := anyEntry, start := startLayerSet, run := runLayerSet })
  | .viewCommit q => some (q, { opcode := Op.viewCommit, sel := anyEntry, start := startViewCommit, run := runViewCommit })
  | .surfaceWrite q => some (q, { opcode := Op.surfaceWrite, sel := anyEntry, start := startSurfaceWrite, run := runSurfaceWrite })
  | .gazetteerUpdate q =>
    some (q, { opcode := Op.gazetteerUpdate, sel := anyEntry, start := startTable 64, run := runGazetteerUpdate })
  | .sheetCalSet q => some (q, { opcode := Op.sheetCalSet, sel := anyEntry, start := startTable 32, run := runSheetCalSet })
  | .streamOpen q => some (q, { opcode := Op.streamOpen, sel := anyEntry, start := startStreamOpen, run := runStreamOpen })
  | .streamClose q => some (q, { opcode := Op.streamClose, sel := anyEntry, start := startStreamClose, run := runStreamClose })
  | .streamData q => some (q, { opcode := Op.streamData, sel := anyEntry, start := startStreamData, run := runStreamData })
  | .streamConcealSet q =>
    some (q, { opcode := Op.streamConcealSet, sel := anyEntry, start := startStreamConcealSet, run := runStreamConcealSet })
  | .rcCapture q => some (q, { opcode := Op.diag, sel := captureEntry, start := startRcCapture, run := runRcCapture })
  | .rollcall q => some (q, { opcode := Op.rollcall, sel := anyEntry, start := startRollcall, run := runRollcall })
  | .presentSchedule q =>
    some (q, { opcode := Op.presentSchedule, sel := anyEntry, start := startPresentSchedule, run := runPresentSchedule })
  | .hold q => some (q, { opcode := Op.hold, sel := anyEntry, start := startHold, run := runHold })
  | .portConfig q => some (q, { opcode := Op.portConfig, sel := anyEntry, start := startPortConfig, run := runPortConfig })
  | .portMeasure q => some (q, { opcode := Op.portMeasure, sel := anyEntry, start := startPortMeasure, run := runPortMeasure })
  | .tableUpdate q => some (q, { opcode := Op.tableUpdate, sel := anyEntry, start := startTableUpdate, run := runTableUpdate })
  | .mirrorSet q => some (q, { opcode := Op.mirrorSet, sel := anyEntry, start := startMirrorSet, run := runMirrorSet })
  | .shaperSet q => some (q, { opcode := Op.shaperSet, sel := anyEntry, start := startShaperSet, run := runShaperSet })
  | .meterSet q => some (q, { opcode := Op.meterSet, sel := anyEntry, start := startMeterSet, run := runMeterSet })
  | .gateListSet q => some (q, { opcode := Op.gateListSet, sel := anyEntry, start := startGateListSet, run := runGateListSet })
  | .surveyArm q => some (q, { opcode := Op.surveyArm, sel := anyEntry, start := startSurveyArm, run := runSurveyArm })
  | .surveyRead q =>
    some (q, { opcode := Op.diag, sel := fun e => diagSub e == 0x40, start := startSurveyRead, run := runSurveyRead })
  | .powerState q => some (q, { opcode := Op.powerState, sel := anyEntry, start := startPowerState, run := runPowerState })
  | .watchConfig q => some (q, { opcode := Op.watchConfig, sel := anyEntry, start := startWatchConfig, run := runWatchConfig })
  | .editionLoad q => some (q, { opcode := Op.editionLoad, sel := anyEntry, start := startEditionLoad, run := runEditionLoad })
  | .editionSelect q =>
    some (q, { opcode := Op.editionSelect, sel := anyEntry, start := startEditionSelect, run := runEditionSelect })
  | .fwStage q => some (q, { opcode := Op.fwStage, sel := anyEntry, start := startFwStage, run := runFwStage })
  | .fwActivate q => some (q, { opcode := Op.fwActivate, sel := anyEntry, start := startFwActivate, run := runFwActivate })
  | .attest q => some (q, { opcode := Op.attest, sel := anyEntry, start := startAttest, run := runAttest })
  | .diagLifecycle q =>
    some (q, { opcode := Op.diag, sel := fun e => diagSub e == 0x50, start := startLifecycle, run := runLifecycle })
  | .diagOwnerBind q =>
    some (q, { opcode := Op.diag, sel := fun e => diagSub e == 0x51, start := startOwnerBind, run := runOwnerBind })
  | .diagPatchLoad q =>
    some (q, { opcode := Op.diag, sel := fun e => diagSub e == 0x60, start := startPatchLoad, run := runPatchLoad })
  | .wearCurveSet q => some (q, { opcode := Op.wearCurveSet, sel := anyEntry, start := startWearCurveSet, run := runWearCurveSet })
  | .doseSave q =>
    some (q, { opcode := Op.doseSave, sel := anyEntry, start := startDoseSave, run := runDoseSave, after := takeDose })
  | .doseLoad q =>
    some (q, { opcode := Op.doseLoad, sel := anyEntry, start := startDoseLoad, run := runDoseLoad, after := takeDose })
  | .diagBgRead q => some (q, { opcode := Op.diag, sel := fun e => diagSub e == 0x70, start := startBgRead, run := runBgRead })
  | .telemetryArm q => some (q, { opcode := Op.telemetryArm, sel := anyEntry, start := startTelemetryArm, run := runTelemetryArm })
  | _ => none

/-- The command at the front of ring q may begin: i is a command of the ring, with row r, that acts on no earlier command's
data; the entry f at the front of the ring is of the row, and the ring runs, not full of held completions and past a FENCE
(R279, R280, R290); the device executes the command (R312, R396), awake if the command is one that wakes it (R370), with no domain it needs in reset (R15), those that
it wakes ON (R367), and no edition holds it back (R411). -/
structure MayBegin (i : Instr) (q : Nat) (r : Row) (f : Fetched) (rest : List Fetched) (s : State) : Prop where
  row : rowOf i = some (q, r)
  none : readyCmd s q r.opcode r.sel = none
  front : (getSq s q).queue = f :: rest
  opcode : eOpcode f.entry = r.opcode
  sel : r.sel f.entry = true
  ready : mayStart s q f.entry = true
  runs : running s = true
  allowed : commandAllowed s r.opcode = true
  free : mustDeferOp s r.opcode = false
  awake : wakingOps.contains r.opcode = true → getF s Rg.PWR_STATE_STATE ≠ 1 ∧ getF s Rg.PWR_STATE_STATE ≠ 2
  reset : blockedByReset s f.entry = false
  domains : ∀ d ∈ wakesFirst f.entry, domainOn s d = true

/-- The front command of a ring as it begins: taken off the ring. -/
def popped (s : State) (q : Nat) (rest : List Fetched) : State := setSq s q { getSq s q with queue := rest }

/-- A command that begins and has no host data to read: itself, and the state in which it acts. -/
def begun (s : State) (q : Nat) (f : Fetched) (rest : List Fetched) : Cmd × State :=
  addCmd (popped s q rest) q f 0 0 none true

/-- What a ring's command may change beside its own unit: completing it writes host memory and its ring, and sends a vector; an
event may be raised, which the event log and the fault log take. -/
def ringParts : List Part := [.wire, .host, .hif, .ev, .bgLog, .pins, .regs 3, .regs 4]

/-- i is a command of ring q, with row r; the host data of its command c are in, and no edition holds it back: c acts on them
at this step (R290, R411). -/
structure DataIn (i : Instr) (q : Nat) (r : Row) (c : Cmd) (s : State) : Prop where
  row : rowOf i = some (q, r)
  ready : readyCmd s q r.opcode r.sel = some c
  free : mustDeferOp s r.opcode = false

/-! ### What each command may change -/

/-- What STREAM_OPEN and every other command of a ring may change beside its own unit, where it wakes the device or its domains
first, or waits for an edition. -/
def startParts : List Part := [.tmr, .select, .regs 1, .regs 2, .regs 5] ++ ringParts

def only (l : List Part) (p : Part) : Bool := decide (p ∈ l)
def except (l : List Part) (p : Part) : Bool := decide (p ∉ l)

/-- The parts of the state that a command may change, in whatever state it comes. -/
def mayChange (c : Instr) : Part → Bool :=
  match c with
  | .sqDoorbellKick .. | .sqPoll .. | .dmaDescriptorDone .. | .dmaCompletionTimeout .. | .cqHeldRelease ..
  | .sqEnable .. | .sqStop .. | .sqDisable .. | .d0Return .. | .pcieLinkReturn .. => only ringParts
  | .sqEngineSleep .. => only [.host, .hif, .regs 3]
  | .nop .. | .diagEcho .. | .surveyArm .. | .surveyRead .. | .watchConfig .. | .attest .. | .diagBgRead .. => only startParts
  | .vectorModerationTimeout .. | .d3hotEntry .. | .msixVectorMask .. => only [.wire, .hif, .pins, .regs 3]
  | .cqEnable .. | .cqDisable .. | .pcieLinkDown .. => only [.hif, .ev, .bgLog, .regs 3, .regs 4]
  | .bar0UnmappedAccess .. => only [.wire, .ev, .bgLog, .regs 3, .regs 4]
  | .barAccessInvalid .. => only [.wire, .hif, .ev, .bgLog, .regs 3, .regs 4]
  | .gatedDomainAccess .. | .hardwareFault .. | .fltTest .. | .tmrSweep .. | .pllUnlock .. | .pllRelockTimeout ..
  | .firmwareVerified .. | .hbmTrainingDone .. | .startupEditionApply .. | .domainWakeDone .. | .watchEntryProceed ..
  | .wakeEvent .. | .watchWakeDone .. | .cmpWatchdog .. | .sensorSample .. | .smbusRead .. | .smbusWrite ..
  | .registerWrite .. | .rcRegisterRead .. => fun _ => true
  | .functionLevelReset .. => only [.hif, .ev, .bgLog, .bg, .regs 3, .regs 4]
  | .pcieHotReset .. => only [.hif, .ev, .tmr, .bgLog, .bg, .regs 1, .regs 3, .regs 4, .regs 5]
  | .layerSet .. => only ([.prj] ++ startParts)
  | .viewCommit .. | .gazetteerUpdate .. => only ([.prj, .enc, .regs 6, .regs 7, .regs 8] ++ startParts)
  | .surfaceWrite .. => only ([.prj, .regs 6, .regs 7] ++ startParts)
  | .surfaceWriteResume .. => only ([.prj] ++ ringParts)
  | .sheetCalSet .. => only ([.prj, .enc, .regs 6, .regs 7] ++ startParts)
  | .prjCoefWrite .. | .compositionStart .. | .compositionLatestStart .. | .latitudeCompose .. =>
    only [.ev, .prj, .bgLog, .regs 4]
  | .compositionDone .. => only [.prj]
  | .sheetOutputStart .. => only [.ev, .prj, .sw, .tm, .scr, .enc, .bgLog, .bg, .regs 4, .regs 10, .regs 11]
  | .unitEmissionInstant .. | .cellRowCode .. =>
    only ([.freeCtr, .prj, .sw, .tm, .scr, .enc, .bg, .regs 6, .regs 7, .regs 10, .regs 11] ++ ringParts)
  | .streamOpen .. => only ([.scr, .regs 6, .regs 7] ++ startParts)
  | .streamClose .. => only ([.prj, .scr, .regs 6, .regs 7] ++ startParts)
  | .streamData .. | .streamConcealSet .. => only ([.scr] ++ startParts)
  | .streamDataResume .. => only ([.scr] ++ ringParts)
  | .streamPacketReceive .. | .reorderTimeout .. => only [.ev, .scr, .bgLog, .regs 4, .regs 6]
  | .st2110BandCommit .. => only [.ev, .scr, .bgLog, .regs 4]
  | .sliceDecodeDone .. | .pictureDecodeDone .. | .pictureDeadline .. => only ([.prj, .scr, .regs 6, .regs 7] ++ ringParts)
  | .dispatchPicture .. | .contextSwitchDone .. => only ([.prj, .scr, .enc, .regs 6, .regs 7] ++ ringParts)
  | .coreEnableWrite .. => only [.regs 6]
  | .encRefresh .. => only [.enc]
  | .rcCapture .. => only ([.enc] ++ startParts)
  | .rollcall .. => only ([.sw, .tm, .sht, .regs 8, .regs 10, .regs 11, .regs 15] ++ startParts)
  | .rollcallRspReceive .. => only ([.sht, .enc, .regs 8] ++ ringParts)
  | .rollcallWindowEnd .. => only ([.sht, .regs 15] ++ ringParts)
  | .calAckTimeout .. | .scheduleFirstPresent .. => only ([.sht] ++ ringParts)
  | .backgroundPing .. => only [.ev, .sw, .tm, .sht, .bgLog, .regs 4, .regs 10, .regs 11]
  | .nackReportReceive .. => only [.ev, .sht, .enc, .bgLog, .regs 4, .regs 8]
  | .presentSchedule .. => only ([.sht, .regs 6, .regs 7, .regs 8] ++ startParts)
  | .launchIdleStart .. | .pauseFrameReceive .. => only [.ports]
  | .hold .. =>
    only ([.mer, .prj, .ports, .sw, .tm, .sht, .enc, .regs 6, .regs 7, .regs 8, .regs 9, .regs 10, .regs 11] ++ startParts)
  | .holdInstant .. | .presentLaunch .. =>
    only ([.mer, .prj, .ports, .sw, .tm, .sht, .enc, .regs 6, .regs 7, .regs 8, .regs 9, .regs 10, .regs 11] ++ ringParts)
  | .triggerInstant .. =>
    only ([.mer, .prj, .ports, .sw, .tm, .sht, .scr, .enc, .regs 6, .regs 7, .regs 8, .regs 9, .regs 10, .regs 11] ++ ringParts)
  | .resumeInstant .. => only ([.sht, .regs 8] ++ ringParts)
  | .merTimeLatch .. | .merTimeSet .. | .merTimeStep .. | .merServoOffsetWrite .. | .servoSample ..
  | .ptpMessageReceive .. | .pinEdgeCapture .. =>
    only ([.mer, .prj, .ports, .sw, .tm, .sht, .scr, .enc, .regs 6, .regs 7, .regs 8, .regs 9, .regs 10, .regs 11, .regs 12] ++
      ringParts)
  | .merFreqAdjWrite .. => only [.regs 9]
  | .holdoverTimeout .. => only [.ev, .mer, .bgLog, .regs 4, .regs 9]
  | .triggerArm .. | .triggerDisarm .. => only [.ev, .mer, .ports, .bgLog, .regs 4, .regs 9]
  | .ptpSyncInterval .. | .ptpDelayReqInterval .. | .ptpAnnounceInterval .. =>
    only [.ev, .mer, .sw, .tm, .bgLog, .regs 4, .regs 9, .regs 10, .regs 11]
  | .triggerPulseEnd .. | .ppsOutPulse .. => only [.mer, .pins]
  | .merCapturePop .. => only [.wire, .mer]
  | .portConfig .. => only ([.mer, .ports, .sw, .tm, .sht, .regs 8, .regs 9, .regs 10, .regs 11] ++ startParts)
  | .portMeasure .. => only ([.ports, .regs 10] ++ startParts)
  | .autoNegotiationDone .. | .linkTrainingTimeout .. => only [.ev, .ports, .bgLog, .regs 4, .regs 10]
  | .linkTrainingDone .. | .linkFlapHoldEnd .. => only [.ports, .regs 10]
  | .linkLockHeld .. | .pauseQuantaExpiry .. | .linkLoss .. => only ([.mer, .ports, .sw, .tm, .sht, .regs 8, .regs 9, .regs 10, .regs 11] ++ ringParts)
  | .laneAdaptStep .. => only [.bg]
  | .frameLookup .. => only [.wire, .ev, .ports, .sw, .tm, .bgLog, .regs 4, .regs 9, .regs 10, .regs 11, .regs 12]
  | .tableUpdate .. | .mirrorSet .. => only ([.sw, .regs 11] ++ startParts)
  | .tableFenceReached .. => only ([.sw, .regs 11] ++ ringParts)
  | .tableFenceTimeout .. => only ([.ports, .sw, .tm, .sht, .regs 8, .regs 11] ++ ringParts)
  | .d2dFlitRetry .. => only [.ev, .bgLog, .regs 4]
  | .dieLinkDown .. => except [.freeCtr, .clk]
  | .dieLinkRetrain .. | .clockGateIdleClose .. => only [.clk]
  | .dieLinkReturn .. | .ucResetDone .. | .fltStickyClear .. | .pllLock .. | .rstDomainGo .. => except [.freeCtr, .tmr]
  | .tmFrameSelect .. => only ([.mer, .ports, .sw, .tm, .sht, .regs 8, .regs 9, .regs 10, .regs 11, .regs 12] ++ ringParts)
  | .shaperSet .. | .meterSet .. => only ([.tm] ++ startParts)
  | .shaperRefill .. => only ([.tm, .regs 12] ++ ringParts)
  | .wheelOverflowScan .. => only [.tm]
  | .gateListSet .. => only ([.tm, .regs 12] ++ startParts)
  | .gateListStart .. => only [.ev, .tm, .bgLog, .regs 4, .regs 12]
  | .gateEntryChange .. => only [.regs 12]
  | .eventDeliver .. => only [.wire, .hif, .ev, .bgLog, .pins, .regs 3, .regs 4]
  | .intEvqPop .. => only [.wire, .ev, .regs 4]
  | .intSrcAck .. => only [.ev, .regs 4]
  | .surveyDone .. => except [.wire]
  | .fltFirstClear .. => only [.ev, .tmr, .bgLog, .regs 4, .regs 5]
  | .mergeReadReturn .. | .mergeEntryTimeout .. | .hbmScrubStep .. => only [.freeCtr, .ev, .tmr, .mem, .bgLog, .regs 4, .regs 5]
  | .retrainHold .. | .retrainDeferred .. => only [.ev, .mem, .bgLog, .regs 4, .regs 5]
  | .sramScrubStep .. => except [.clk]
  | .eccFlipArm .. => only [.regs 5]
  | .powerOnReset .. => except [.freeCtr, .wire, .host]
  | .troJudgment .. => only [.ev, .clk, .tmr, .bgLog, .pins, .regs 1, .regs 4, .regs 5]
  | .xoJudgment .. | .clkMeasDone .. => only [.ev, .clk, .bgLog, .regs 1, .regs 4]
  | .xoAmplitudeTimeout .. => only [.freeCtr, .ev, .clk, .bgLog, .regs 1, .regs 4]
  | .clkPllFreqWrite .. | .clkMeasStart .. | .clkMeasNoClock .. => only [.clk, .regs 1]
  | .xoLoss .. | .rstWarm .. | .watchSample .. | .rtcAlarm .. | .smbusWake .. | .smbusColdReset .. | .smbusWarmReset .. =>
    except [.wire, .host]
  | .troCheck .. => only [.regs 1]
  | .gateBusyTimeout .. => only [.ev, .clk, .pwr, .bgLog, .regs 2, .regs 4]
  | .drainReplyTimeout .. => only [.wire, .ev, .pwr, .bgLog, .regs 2, .regs 4]
  | .perstAssert .. | .fwActivateReset .. => except [.host]
  | .perstDeassert .. => only [.ev, .clk, .mer, .bgLog, .pins, .regs 1, .regs 4, .regs 5]
  | .powerState .. => only ([.pwr] ++ startParts)
  | .powerUnitAnswer .. => except [.freeCtr, .bg, .select]
  | .powerDeferRetry .. | .rtcSecondLoad .. => only [.pwr]
  | .entryWindowTimeout .. => only ([.pwr, .regs 2] ++ ringParts)
  | .autoDomainGate .. => only [.pwr, .regs 2]
  | .editionLoad .. | .fwStage .. => only ([.sec, .regs 0, .regs 13] ++ startParts)
  | .editionSelect .. => only ([.regs 0] ++ startParts)
  | .editionApplyInstant .. | .editionStagingDone .. => except [.freeCtr, .clk, .pwr, .mem, .scr, .bg]
  | .fwActivate .. => only ([.sec, .regs 0] ++ startParts)
  | .diagLifecycle .. | .diagOwnerBind .. | .diagPatchLoad .. => only ([.sec] ++ startParts)
  | .wearCurveSet .. => only ([.bg, .regs 15] ++ startParts)
  | .ageUpdateNow .. | .ageingPass .. => only [.bg, .regs 15]
  | .doseSave .. | .telemetryArm .. => only ([.bg] ++ startParts)
  | .doseLoad .. => only ([.prj, .bg, .regs 15] ++ startParts)
  | .summaryWrite .. => only [.bg, .sec, .regs 15]
  | .faultLogFlush .. => only [.bgLog, .bg, .sec]
  | .telemetryRecord .. => only [.freeCtr, .host, .bgLog, .bg, .regs 15]
  | .smbusSetOffset .. => only [.sec]
  | .xoReturn .. => only [.ev, .bgLog, .regs 1, .regs 4]
  | .d2dLinkLoss .. => only [.ev, .clk, .bgLog, .regs 4]
  | .flashProgramDone .. => only ([.sec, .regs 0] ++ ringParts)
  | .equaliserEstimateDone .. => only ([.ports, .regs 10] ++ ringParts)
  | .ageingPassDone .. => only ([.prj, .bg, .regs 15] ++ ringParts)

/-- The newest occurrence in the event log is of a source, with its PARAM and DATA (R307). -/
def lastEvent (s : State) (source param data : Nat) : Prop :=
  s.ev.log.getLast?.map (fun r => (r.source, r.param, r.data)) = some (source, param, data)

/-! ### Fetching -/

/-- Where entry number k of submission ring q stands in host memory, and its 64 bytes (R276). -/
def entryAt (s : State) (q k : Nat) : List Byte := hostRead s (sqBase s q + 64 * (k % sqDepth s q)) 64

/-- Ring q has n entries to fetch now (at most 8 of those posted), each written with the OWN of its pass; every entry waiting
or fetched is of a known opcode. -/
structure Posted (s : State) (q n : Nat) : Prop where
  link : s.hif.linkUp = true
  posted : (sqTail s q + 2 ^ 32 - (getSq s q).head) % 2 ^ 32 ≤ sqDepth s q
  count : min ((sqTail s q + 2 ^ 32 - (getSq s q).head) % 2 ^ 32) 8 = n
  room : (getSq s q).head + n < 2 ^ 32
  own : ∀ i, i < n → eOwn (entryAt s q ((getSq s q).head + i)) = passValue ((getSq s q).head + i) (getF s Rg.HIF_SQ_CFG_DEPTH_EXP q)
  known : (∀ f ∈ (getSq s q).queue, Op.all.contains (eOpcode f.entry) = true) ∧
    ∀ i, i < n → Op.all.contains (eOpcode (entryAt s q ((getSq s q).head + i))) = true

/-- From s to t ring q has taken in its next n entries, in order, and SQ_HEAD shows them fetched (R281, R284). -/
structure Fetches (s : State) (q n : Nat) (t : State) : Prop where
  queue : (getSq t q).queue = (getSq s q).queue ++
    (List.range n).map fun i => ⟨(getSq s q).head + i, entryAt s q ((getSq s q).head + i)⟩
  head : (getSq t q).head = (getSq s q).head + n
  shadow : n ≠ 0 → leNat (hostRead t (dbrec s + 0x800 + 16 * q) 4) = (getSq s q).head + n
  others : ∀ k, k ≠ q → getSq t k = getSq s k

/-! ### The dispatcher -/

/-- The state once the pictures that no core will take are dropped from the front of every stream (R64, R81). -/
def pruned (s : State) : State :=
  foldS (s.scr.streams.map (·.1)) (fun s n => pruneEarly (pruneAus s n ((getStream s n).aus.length)) n) s

/-- Core c may be given a picture: it is enabled, on, and has none (R79). -/
def coreReady (s : State) (c : Nat) : Prop :=
  c < 24 ∧ (getCore s c).job = none ∧ bit (getF s Rg.SCR_CORE_ENABLE_ENABLE) c = true ∧ domainOn s (6 + c) = true ∧ domainOn s 30 = true ∧
    relocking s 0 = false

/-- Core c works on the picture j of stream n. -/
def decodes (s : State) (c n : Nat) (j : Job) : Prop :=
  (getCore s c).job = some (false, n) ∧ (getStream s n).job = some j ∧ j.core = c ∧ domainOn s (6 + c) = true

/-! ### Packets -/

/-- b is an RTP packet that stream n takes: the stream is open and fed from the network; version, payload type and SSRC are those
it expects (R71, R88), and its size is a datagram's (R117). -/
def validPacket (s : State) (n : Nat) (b : List Byte) : Prop :=
  let x := getStream s n
  let e := x.opened
  x.state ≠ stClosed ∧ x.state ≠ stClosing ∧ oHost e = false ∧ beAt b 0 1 / 64 = 2 ∧ 12 ≤ b.length ∧
  (bit (oPt e) 7 = true ∨ beAt b 1 1 % 128 = oPt e % 128) ∧ (oSsrcCheck e = true → beAt b 8 4 = oSsrc e) ∧ datagramOk e b = true

/-- The reorder key of a packet, and the packet as the window holds it (R71). -/
def packetKey (s : State) (n : Nat) (b : List Byte) : Nat :=
  if oFormat (getStream s n).opened = f2110 then beAt (rtpPayload b) 0 2 * 65536 + beAt b 2 2 else beAt b 2 2
def packetOf (s : State) (b : List Byte) : Packet := ⟨bit (beAt b 1 1) 7, beAt b 4 4, rtpPayload b, mst s, s.now⟩

end Sys2Proof.Machine
end

