-- ==== Sys2Proof/Certificates/Slice0/Obligations.lean ====
section
/-!
DEFINITION. The statements for the provers.
-/

open Sys2Proof Sys2Proof.Machine

/-! ### Commands of the rings -/

/-- A ring's front command of any row that reads no host data answers from its entry (R279, R286, R448): a completion at once, or
its effect; one that reads host data is registered with its range still to read (R289, R290).
A ring's front command that may not start stays where it is (R279, R280): with FENCE set and an earlier command of its ring
not completed, or with 64 completions held, nothing changes. -/
def Obligations.RingCommandBegins : Prop :=
  (∀ (i : Instr) (q : Nat) (r : Row) (f : Fetched) (rest : List Fetched) (s : State), MayBegin i q r f rest s →
     (∀ st x d, r.start (popped s q rest) f.entry = .finish st x d →
       exec i s = .next (r.after (drainInvalid (complete (begun s q f rest).2 (begun s q f rest).1 st x d) q 16))) ∧
     (∀ a n circ, r.start (popped s q rest) f.entry = .read a n circ →
       exec i s = .next (r.after (drainInvalid (addCmd (popped s q rest) q f a n circ false).2 q 16))) ∧
     (r.start (popped s q rest) f.entry = .run →
       exec i s = .next (r.after (drainInvalid (r.run (begun s q f rest).2 (begun s q f rest).1 []) q 16)))) ∧
  (∀ (i : Instr) (q : Nat) (r : Row) (f : Fetched) (rest : List Fetched) (s : State),
     rowOf i = some (q, r) → readyCmd s q r.opcode r.sel = none → (getSq s q).queue = f :: rest →
     (eFence f.entry = true ∧ fenceClear s q = false ∨ 64 ≤ (getCq s (cqOf s q)).held.length) →
       exec i s = .next (r.after s))

/-- NOP completes OK without effect; DIAG ECHO, its data read, stores them at ECHO_ADDR and completes OK with their length. -/
def Obligations.NopAndEcho : Prop :=
  (∀ (q : Nat) (r : Row) (f : Fetched) (rest : List Fetched) (s : State), MayBegin (.nop q) q r f rest s →
    exec (.nop q) s = .next (drainInvalid (complete (begun s q f rest).2 (begun s q f rest).1 St.ok) q 16)) ∧
  (∀ (q : Nat) (r : Row) (c : Cmd) (s : State), DataIn (.diagEcho q) q r c s →
    ∃ u, exec (.diagEcho q) s = .next (complete u c St.ok c.data.length) ∧
      StoresBytes (leAt c.entry 24 8) c.data (markPast s c) u ∧ ChangesOnly [.host] (markPast s c) u)

/-- SURVEY_ARM arms the buffer its entry names, or disarms with DISARM; TELEMETRY_ARM starts the ring its entry names with
sequence 0, or ends telemetry with Length 0 and CLEAR. Both complete OK.
ATTEST, DIAG SURVEY_READ and DIAG BG_READ store what they report at HOST_ADDR and complete OK with its size: the signed
attestation over the nonce, the survey kept in flash, which CLEAR then removes, the fault log or the dose summary. -/
def Obligations.BuffersAndReports : Prop :=
  (∀ (q : Nat) (r : Row) (f : Fetched) (rest : List Fetched) (s : State),
     (MayBegin (.surveyArm q) q r f rest s → startSurveyArm s f.entry = .run →
       ∃ u, exec (.surveyArm q) s = .next (drainInvalid (complete u (begun s q f rest).1 St.ok) q 16) ∧
         u.ev.surveyBuf = (if bit (leAt f.entry 20 1) 0 then none
           else some ⟨eAddr f.entry, eLen f.entry, bit (leAt f.entry 20 1) 1⟩) ∧
         getF u Rg.FLT_SURVEY_ADDR_ADDR = eAddr f.entry ∧ getF u Rg.FLT_SURVEY_SIZE_ARMED = eLen f.entry / 4096 ∧
         ChangesOnly [.ev, .regs 4] (begun s q f rest).2 u) ∧
     (MayBegin (.telemetryArm q) q r f rest s → startTelemetryArm s f.entry = .run →
       ∃ u, exec (.telemetryArm q) s = .next (drainInvalid (complete u (begun s q f rest).1 St.ok) q 16) ∧
         u.bg.telemetry = (if eLen f.entry = 0 then none else some ⟨eAddr f.entry, eLen f.entry, 0⟩) ∧
         ChangesOnly [.bg, .regs 3] (begun s q f rest).2 u)) ∧
  (∀ (q : Nat) (r : Row) (f : Fetched) (rest : List Fetched) (s : State),
     (MayBegin (.attest q) q r f rest s → startAttest s f.entry = .run →
       ∃ u b, exec (.attest q) s = .next (drainInvalid (complete u (begun s q f rest).1 St.ok 320) q 16) ∧
         b = attestBody s ((f.entry.drop 24).take 32) ∧
         StoresBytes (eAddr f.entry) (b ++ Config.sm2Sign b) (begun s q f rest).2 u ∧ ChangesOnly [.host] (begun s q f rest).2 u) ∧
     (MayBegin (.surveyRead q) q r f rest s → startSurveyRead s f.entry = .run →
       ∃ u, exec (.surveyRead q) s =
           .next (drainInvalid (complete u (begun s q f rest).1 St.ok s.ev.flashSurvey.length) q 16) ∧
         StoresBytes (eAddr f.entry) s.ev.flashSurvey (begun s q f rest).2 u ∧
         u.ev.flashSurvey = (if bit (leAt f.entry 21 1) 0 then [] else s.ev.flashSurvey) ∧
         ChangesOnly [.host, .ev] (begun s q f rest).2 u) ∧
     (MayBegin (.diagBgRead q) q r f rest s → startBgRead s f.entry = .run →
       ∃ u, exec (.diagBgRead q) s =
           .next (drainInvalid (complete u (begun s q f rest).1 St.ok (bgArea s f.entry).length) q 16) ∧
         StoresBytes (eAddr f.entry) (bgArea s f.entry) (begun s q f rest).2 u ∧ ChangesOnly [.host] (begun s q f rest).2 u))

/-- STREAM_OPEN opens its stream in SYNCING with the settings of the entry and nothing received; STREAM_CONCEAL_SET changes the
concealment settings of an open stream and nothing else of it. Both complete OK.
STREAM_CLOSE of an open stream with no picture on a core, or with one whose core waits for input, which ends at once: the stream is
CLOSED, with nothing of it left, and the number can be opened again, and the command has ended; with a picture on a core that runs,
the stream is CLOSING, its input is at an end, and the command waits for it. Every other stream is as it was. -/
def Obligations.StreamsSetUpAndClosed : Prop :=
  (∀ (q : Nat) (r : Row) (f : Fetched) (rest : List Fetched) (s : State),
     (MayBegin (.streamOpen q) q r f rest s → startStreamOpen s f.entry = .run →
       ∃ u, exec (.streamOpen q) s = .next (drainInvalid (complete u (begun s q f rest).1 St.ok) q 16) ∧
         getStream u (eTarget f.entry) = { Stream.init with
           state := stSyncing, opened := f.entry, mode := oConceal f.entry, freeze := oFreeze f.entry, hashStrict := oHashStrict f.entry } ∧
         (∀ n, n ≠ eTarget f.entry → getStream u n = getStream s n) ∧
         ChangesOnly [.scr, .regs 6, .regs 7] (begun s q f rest).2 u) ∧
     (MayBegin (.streamConcealSet q) q r f rest s → startStreamConcealSet s f.entry = .run →
       ∃ u, exec (.streamConcealSet q) s = .next (drainInvalid (complete u (begun s q f rest).1 St.ok) q 16) ∧
         getStream u (eTarget f.entry) = { getStream s (eTarget f.entry) with
           mode := leAt f.entry 20 1, freeze := bit (leAt f.entry 21 1) 0, hashStrict := bit (leAt f.entry 21 1) 1 } ∧
         (∀ n, n ≠ eTarget f.entry → getStream u n = getStream s n) ∧
         ChangesOnly [.scr] (begun s q f rest).2 u)) ∧
  (∀ (q : Nat) (r : Row) (f : Fetched) (rest : List Fetched) (s : State),
     MayBegin (.streamClose q) q r f rest s → startStreamClose s f.entry = .run →
     ∃ t, exec (.streamClose q) s = .next t ∧ (∀ n, n ≠ eTarget f.entry → getStream t n = getStream s n) ∧
       match (getStream s (eTarget f.entry)).job with
       | none => getStream t (eTarget f.entry) = Stream.init ∧ findCmd t s.hif.cmdSeq = none
       | some j =>
         if coreState s j.core = coreWait then getStream t (eTarget f.entry) = Stream.init ∧ findCmd t s.hif.cmdSeq = none
         else (getStream t (eTarget f.entry)).state = stClosing ∧ (getStream t (eTarget f.entry)).closing = some s.hif.cmdSeq ∧
           (getStream t (eTarget f.entry)).aus = [] ∧ (getStream t (eTarget f.entry)).waits = [] ∧
           (getStream t (eTarget f.entry)).job = some { j with au := { j.au with whole := true } })

/-- STREAM_DATA, its range read or its length 0, joins the ranges of its stream that wait, and STREAM_DATA_RESUME takes up those: the
first that begins at the stream's running offset goes on. If one byte has room at least one is taken, and the offset
grows by what is taken; a range that has room for all its bytes is taken whole and waits no more, and its command has ended. With
none that begins there nothing changes. STREAM_DATA on a stream that has closed meanwhile ends ABORTED. Every other stream is as it
was. -/
def Obligations.StreamDataTaken : Prop :=
  let room (x : Stream) (n : Nat) : Prop := 0 < x.discard ∨ heldBytes x + n ≤ inputBuffer x.opened
  let goesOn (s t : State) (n : Nat) : Prop :=
    (∀ o, o ≠ n → getStream t o = getStream s o) ∧ ChangesOnly (.scr :: ringParts) s t ∧
    match (getStream s n).waits.find? (fun w =>
      (findCmd s w.1).any fun c => eAddr c.entry + eLen c.entry == (getStream s n).offset + w.2.length) with
    | none => t = s
    | some w => ∀ c, findCmd s w.1 = some c →
      let x := getStream (if w.2.length = eLen c.entry then rangeBegin s n c.entry else s) n
      ∃ k, (getStream t n).offset = (getStream s n).offset + k ∧ (w.2 ≠ [] → room x 1 → 1 ≤ k) ∧
        (room x w.2.length → w.2.length ≤ k ∧ findCmd t w.1 = none ∧ ∀ y ∈ (getStream t n).waits, y.1 ≠ w.1)
  let joined (s : State) (c : Cmd) : State := setStream s (eTarget c.entry) { getStream s (eTarget c.entry) with
    waits := (getStream s (eTarget c.entry)).waits ++ [(c.id, c.data)] }
  (∀ (q : Nat) (r : Row) (c : Cmd) (s : State), DataIn (.streamData q) q r c s →
    let x := getStream s (eTarget c.entry)
    (x.state = stClosed ∨ x.state = stClosing → exec (.streamData q) s = .next (complete (markPast s c) c St.aborted)) ∧
    (x.state ≠ stClosed → x.state ≠ stClosing →
      ∃ t, exec (.streamData q) s = .next t ∧ goesOn (joined (markPast s c) c) t (eTarget c.entry))) ∧
  (∀ (q : Nat) (r : Row) (f : Fetched) (rest : List Fetched) (s : State), MayBegin (.streamData q) q r f rest s →
    startStreamData s f.entry = .run →
    ∃ u, exec (.streamData q) s = .next (drainInvalid u q 16) ∧
      goesOn (joined (begun s q f rest).2 (begun s q f rest).1) u (eTarget f.entry)) ∧
  ∀ (n : Nat) (s : State), ∃ t, exec (.streamDataResume n) s = .next t ∧ goesOn s t n

/-- LAYER_SET, its descriptors read and all in range, stages them, without their reserved bits, for its view from its first layer
on, each in its slot, and completes OK: the view's staged slots outside are as they were, and nothing applied changes.
VIEW_COMMIT that puts no enabled sheet outside its canvas and fits the pixel sum, the projection pool and the loads: on a view whose
schedule runs, the view's staged descriptors and the entry's parameters are accepted as its newest commit and wait for the view's
boundary, and what is applied stays; on a view without one they apply at once, and the command has ended. -/
def Obligations.LayersAndCommits : Prop :=
  (∀ (q : Nat) (r : Row) (c : Cmd) (s : State), DataIn (.layerSet q) q r c s →
     badRecord 128 badLayer (c.data.length / 128) 0 c.data = none →
     ∃ u, exec (.layerSet q) s = .next (complete u c St.ok) ∧
       (∀ i, i < c.data.length / 128 →
         (getView u (eTarget c.entry)).staged.get (leAt c.entry 20 1 + i) [] = kept layerMask ((c.data.drop (128 * i)).take 128)) ∧
       (∀ n, (n < leAt c.entry 20 1 ∨ leAt c.entry 20 1 + c.data.length / 128 ≤ n) →
         (getView u (eTarget c.entry)).staged.get n [] = (getView s (eTarget c.entry)).staged.get n []) ∧
       { getView u (eTarget c.entry) with staged := [] } = { getView s (eTarget c.entry) with staged := [] } ∧
       (∀ v, v ≠ eTarget c.entry → getView u v = getView s v) ∧ ChangesOnly [.prj] (markPast s c) u) ∧
  (∀ (q : Nat) (r : Row) (f : Fetched) (rest : List Fetched) (s : State), MayBegin (.viewCommit q) q r f rest s →
     startViewCommit s f.entry = .run →
     let x := getView s (eTarget f.entry)
     let p := commitParams x f.entry
     (∀ e ∈ (planOf s).entries, gEnabled e.2 = true → gView e.2 = eTarget f.entry → outside p e.2 = false) →
     let plan : Plan := { planOf s with views := (planOf s).views.set (eTarget f.entry) p }
     pixelSumOk plan = true → loadCheck (begun s q f rest).2 plan = none →
     projectionFits s (newPair (latitudeOrder s) x p) = true →
     ∃ t, exec (.viewCommit q) s = .next t ∧ (getView t (eTarget f.entry)).staged = [] ∧
       (if (scheduleOf s (eTarget f.entry)).isSome = true then
         (getView t (eTarget f.entry)).commits = x.commits ++ [⟨s.hif.cmdSeq, p⟩] ∧ (getView t (eTarget f.entry)).applied = x.applied
        else (getView t (eTarget f.entry)).commits = [] ∧ (getView t (eTarget f.entry)).applied = p ∧ findCmd t s.hif.cmdSeq = none) ∧
       ChangesOnly (.prj :: .enc :: .regs 6 :: .regs 7 :: ringParts) s t)

/-- SURFACE_WRITE to a surface whose buffers that it needs no running composition reads, and to which no earlier write waits: its
data, if it has any, are in its region of the back buffer (of a new blank pair of buffers with DEFINE), PUBLISH exchanges the
buffers, with COPY_FORWARD leaving the same contents in both, and it completes: OK, or OK_ZERO where its Length is 0. One that
releases a surface leaves none of that number. SURFACE_WRITE_RESUME does the same with the oldest write that waited. The other
surfaces are as they were.
GAZETTEER_UPDATE, its entries read, that passes its checks: while every view's schedule runs, the entries are staged as one update
without their reserved bits, and none is applied; while no schedule runs they apply at once, and the command has ended.
SHEET_CAL_SET while every view's schedule runs: the matrices, read as signed 16-bit numbers, are staged as one update for sheets
that are enabled, and none is applied; those of sheets that are disabled, and that no staged update enables, apply at once. -/
def Obligations.SurfacesAndTables : Prop :=
  (let cur (s : State) (e : List Byte) : Option Surface :=
     let blank := List.replicate (wH e) (List.replicate (wW e) ((0, 0, 0), 0))
     if wDefine e then some ⟨wW e, wH e, blank, blank, [], []⟩ else getSurface s (eTarget e)
   let after (e d : List Byte) (x : Surface) : Surface :=
     let back := if d = [] then x.back else writeRegion e d x.back
     if wPublish e then
       { x with front := back, back := if wForward e then back else x.front, readFront := x.readBack, readBack := x.readFront }
     else { x with back := back }
   let free (s : State) (e d : List Byte) : Prop := wReleases e = false ∧
     ∀ o, getSurface s (eTarget e) = some o → surfaceBlocked o e (!d.isEmpty) = false
   let status (e : List Byte) : Nat := if eLen e = 0 then St.okZero else St.ok
   let only (n : Nat) (x : Option Surface) (s u : State) : Prop :=
     getSurface u n = x ∧ ∀ m, m ≠ n → getSurface u m = getSurface s m
   (∀ (q : Nat) (r : Row) (c : Cmd) (x : Surface) (s : State), DataIn (.surfaceWrite q) q r c s → s.prj.surfaceWait = [] →
     free s c.entry c.data → cur s c.entry = some x →
     ∃ u, exec (.surfaceWrite q) s = .next (complete u c (status c.entry)) ∧
       only (eTarget c.entry) (some (after c.entry c.data x)) s u ∧ ChangesOnly [.prj] (markPast s c) u) ∧
   (∀ (q : Nat) (r : Row) (f : Fetched) (rest : List Fetched) (s : State), MayBegin (.surfaceWrite q) q r f rest s →
     startSurfaceWrite (popped s q rest) f.entry = .run → s.prj.surfaceWait = [] →
     (∀ x, free s f.entry [] → cur s f.entry = some x →
       ∃ u, exec (.surfaceWrite q) s = .next (drainInvalid (complete u (begun s q f rest).1 (status f.entry)) q 16) ∧
         only (eTarget f.entry) (some (after f.entry [] x)) s u ∧ ChangesOnly [.prj] (begun s q f rest).2 u) ∧
     (wReleases f.entry = true →
       ∃ t, exec (.surfaceWrite q) s = .next t ∧ only (eTarget f.entry) none s t ∧ findCmd t s.hif.cmdSeq = none ∧
         ChangesOnly (.prj :: .regs 6 :: .regs 7 :: ringParts) s t)) ∧
   (∀ (n : Nat) (c : Cmd) (d : List Byte) (rest : List (Nat × List Byte)) (x : Surface) (s : State), eTarget c.entry = n →
     s.prj.surfaceWait = (c.id, d) :: rest → (∀ p ∈ rest, p.1 ≠ c.id) → findCmd s c.id = some c → free s c.entry d →
     cur s c.entry = some x →
     ∃ u, exec (.surfaceWriteResume n) s = .next (complete u c (status c.entry)) ∧ only n (some (after c.entry d x)) s u ∧
       u.prj.surfaceWait = rest ∧ ChangesOnly [.prj] s u)) ∧
  (∀ (q : Nat) (r : Row) (c : Cmd) (s : State), DataIn (.gazetteerUpdate q) q r c s →
     let m := markPast s c
     let l := (records 64 (c.data.length / 64) c.data).zipIdx.map fun p => (eTarget c.entry + p.2, kept gztMask p.1)
     let u : GztUpdate := ⟨c.id, l, none, mst s⟩
     let p := planOf { m with prj := { s.prj with gztStaged := s.prj.gztStaged ++ [u] } }
     l ≠ [] → firstBadEntry m p l = none → loadCheck m p = none → admits m p 0 = true → scribeFits m p 0 = true →
     ∃ t, exec (.gazetteerUpdate q) s = .next t ∧
       ((∀ v, v < 8 → (scheduleOf s v).isSome = true) → u ∈ t.prj.gztStaged ∧ t.prj.gzt = s.prj.gzt) ∧
       (s.sht.running = none → s.prj.gztStaged = [] →
         t.prj.gztStaged = [] ∧ findCmd t c.id = none ∧ (∀ e ∈ l, gztEntry t e.1 = e.2) ∧
         ∀ n, (∀ e ∈ l, e.1 ≠ n) → gztEntry t n = gztEntry s n) ∧
       ChangesOnly (.prj :: .enc :: .regs 6 :: .regs 7 :: ringParts) s t) ∧
  (∀ (q : Nat) (r : Row) (c : Cmd) (s : State), DataIn (.sheetCalSet q) q r c s → (∀ v, v < 8 → (scheduleOf s v).isSome = true) →
     s.prj.calStaged = [] →
     let l := (records 32 (c.data.length / 32) c.data).zipIdx.map fun p =>
       (eTarget c.entry + p.2, (List.range 9).map fun i => signed 16 (leAt p.1 (2 * i) 2))
     l ≠ [] →
     ∃ t, exec (.sheetCalSet q) s = .next t ∧
       ((∀ e ∈ l, gEnabled (gztEntry s e.1) = true) → t.prj.calStaged = [⟨c.id, l, none, mst s⟩] ∧ t.prj.cal = s.prj.cal) ∧
       ((∀ e ∈ l, gEnabled (gztEntry s e.1) = false ∧ willEnable s e.1 = false) →
         t.prj.calStaged = [] ∧ findCmd t c.id = none ∧ (∀ e ∈ l, t.prj.cal.get e.1 identityCal = e.2) ∧
         ∀ n, (∀ e ∈ l, e.1 ≠ n) → t.prj.cal.get n identityCal = s.prj.cal.get n identityCal) ∧
       ChangesOnly (.prj :: .enc :: .regs 6 :: .regs 7 :: ringParts) s t)

/-- PRESENT_SCHEDULE that passes its checks at least 1 ms ahead, with MFT valid and the loads and the pool admitted: the schedule
waits for its START: the schedules accepted whose START comes before it, and then it, are those to come; and the command waits
for T_0(0).
HOLD and RESUME with TIMED and an instant ahead are accepted and wait for it. Otherwise they act at once: a RESUME leaves held none
of the views it names, and has ended; a HOLD holds them, and the PRESENTs of that instant of those views are not sent. -/
def Obligations.SchedulesAndHolds : Prop :=
  (∀ (q : Nat) (r : Row) (c : Cmd) (s : State), DataIn (.presentSchedule q) q r c s →
     let m := markPast s c
     let rs := records 16 (psViews c.entry) c.data
     let k : Sched := ⟨psViews c.entry, psPeriod c.entry, psStart c.entry, rs⟩
     let p : Plan := { planOf m with sched := some k }
     recordsBad k.period 0 0 rs = none → getB s Rg.MER_STATUS_TIME_VALID = true → 1000000 ≤ mstDiff k.start (mst s) →
     p.badPort m = none → p.loadOk = true → admits m p 0 = true → scribeFits m p 0 = true →
     ∃ t, exec (.presentSchedule q) s = .next t ∧
       t.sht.next = s.sht.next.filter (fun o => decide (mstDiff o.start k.start < 0)) ++ [k] ∧
       t.sht.waits = s.sht.waits ++ [⟨c.id, k.start, k.shows 0 0, false⟩] ∧ t.sht.running = s.sht.running ∧
       ChangesOnly [.sht, .hif, .regs 6, .regs 7] s t) ∧
  (∀ (q : Nat) (r : Row) (f : Fetched) (rest : List Fetched) (s : State), MayBegin (.hold q) q r f rest s →
     startHold s f.entry = .run →
     let mask := eTarget f.entry % 256
     let ahead : Prop := bit (hFlags f.entry) 3 = true ∧ 0 < mstDiff (leAt f.entry 24 4) (mst s)
     ∃ t, exec (.hold q) s = .next t ∧
       (ahead → t.sht.holds = s.sht.holds ++ [⟨s.hif.cmdSeq, mask, hFlags f.entry, leAt f.entry 24 4, false, false⟩] ∧
         ChangesOnly (.sht :: ringParts) s t) ∧
       (¬ahead → hResume (hFlags f.entry) = true →
         (∀ v, v < 8 → bit (getF t Rg.SHT_SCHED_STATUS_HELD) v = (bit (getF s Rg.SHT_SCHED_STATUS_HELD) v && !bit mask v)) ∧
         findCmd t s.hif.cmdSeq = none ∧ ChangesOnly (.sht :: .regs 8 :: ringParts) s t) ∧
       (¬ahead → hResume (hFlags f.entry) = false →
         (∀ v, v < 8 → bit (getF t Rg.SHT_SCHED_STATUS_HELD) v = (bit (getF s Rg.SHT_SCHED_STATUS_HELD) v || bit mask v)) ∧
         ∀ p ∈ t.sht.presents, p ∈ s.sht.presents ∧ ¬(bit mask p.view = true ∧ p.at_ = mst s)))

/-- ROLLCALL, on an enabled port. DISCOVER and PING, with no roll-call command in progress there: the request is sent and its window
opens. CAL_PUSH, its block read, with no push in progress there: the port pushes that block to its position, to be acknowledged
with its CRC. DIAG RC_CAPTURE of an enabled Contour sheet: the capture is the sheet's newest, of the pictures asked for. These
commands wait. -/
def Obligations.RollcallAndCapture : Prop :=
  (∀ (q : Nat) (r : Row) (f : Fetched) (rest : List Fetched) (s : State),
    (MayBegin (.rollcall q) q r f rest s → startRollcall s f.entry = .run →
      ∃ t, exec (.rollcall q) s = .next t ∧
        getRollcall t (eTarget f.entry) =
          some ⟨rcAction f.entry, some s.hif.cmdSeq, s.sht.reqSeq % 65536, s.now, none, none, [], [], []⟩ ∧
        t.sht.reqSeq = s.sht.reqSeq + 1 ∧
        ChangesOnly (.sw :: .tm :: .sht :: .regs 8 :: .regs 10 :: .regs 11 :: .regs 15 :: ringParts) s t) ∧
    (MayBegin (.rcCapture q) q r f rest s → startRcCapture s f.entry = .run →
      ∃ t, exec (.rcCapture q) s = .next t ∧
        getEnc t (eTarget f.entry) = { getEnc s (eTarget f.entry) with captures := (getEnc s (eTarget f.entry)).captures ++
          [⟨s.hif.cmdSeq, leAt f.entry 21 1, none, 0, eAddr f.entry⟩] } ∧
        (∀ n, n ≠ eTarget f.entry → getEnc t n = getEnc s n) ∧ ChangesOnly (.enc :: ringParts) s t)) ∧
  ∀ (q : Nat) (r : Row) (c : Cmd) (s : State), DataIn (.rollcall q) q r c s → rcAction c.entry = 2 →
    getPush s (eTarget c.entry) = none →
    ∃ t, exec (.rollcall q) s = .next t ∧
      getPush t (eTarget c.entry) = some ⟨c.id, leAt c.entry 21 1, leAt c.entry 22 1, crc32c c.data, some s.now⟩ ∧
      (∀ p, p ≠ eTarget c.entry → getPush t p = getPush s p) ∧
      ChangesOnly (.sw :: .tm :: .sht :: .regs 8 :: .regs 10 :: .regs 11 :: ringParts) s t

/-- PORT_CONFIG. ENABLE keeps the entry, without its reserved bits, as the port's configuration and shows it in PRT_CFG: one that
differs only in what applies with the link up leaves the port as it is; any other starts its bring-up, with auto-negotiation,
training or the wait for lock, and marks the bond's other lanes. DISABLE leaves it disabled with its queues empty; the remaining
action empties the queues and starts the bring-up again. No other port's state changes.
PORT_MEASURE without a new estimate stores the channel record at HOST_ADDR, raises PRT_MEASURE_DONE and completes OK; with one it
waits for it, behind those that wait already. -/
def Obligations.PortsSetUp : Prop :=
  ∀ (q : Nat) (r : Row) (f : Fetched) (rest : List Fetched) (s : State),
    let p := eTarget f.entry
    let first (t : State) : Prop := ∀ c, c = (getPort t p).cfg →
      portState t p = (if cfgAn c then prtAn else if cfgLt c then prtTraining else prtWaitLock)
    (MayBegin (.portConfig q) q r f rest s → startPortConfig s f.entry = .run →
      ∃ t, exec (.portConfig q) s = .next t ∧ findCmd t s.hif.cmdSeq = none ∧
        (∀ o, o ≠ p → o < 128 → portState t o = portState s o) ∧
        (pcAction f.entry = 1 → (getPort t p).cfg = kept portMask f.entry ∧
          getF t Rg.PRT_CFG_MAX_FRAME p = cfgMaxFrame f.entry ∧
          (if portEnabled s p = true ∧ softChange (getPort s p).cfg (kept portMask f.entry) = true then portState t p = portState s p
           else first t ∧ ∀ l ∈ (bondLanes p f.entry).drop 1, l < 128 → getB t Rg.PRT_STATUS_BOND_MEMBER l = true)) ∧
        (pcAction f.entry = 0 → portEnabled t p = false ∧ (portEnabled s p = true → ∀ c, c < 8 → getQueue t p c = [])) ∧
        (pcAction f.entry = 2 → first t ∧ ∀ c, c < 8 → getQueue t p c = [])) ∧
    (MayBegin (.portMeasure q) q r f rest s → startPortMeasure s f.entry = .run →
      (bit (leAt f.entry 20 1) 0 = false →
        ∃ u, exec (.portMeasure q) s = .next (drainInvalid (complete u (begun s q f rest).1 St.ok) q 16) ∧
          StoresBytes (eAddr f.entry) (measureRecord u p (measureLengths u p)) s u ∧
          ChangesOnly [.host, .ev, .bgLog, .regs 4, .regs 10] (begun s q f rest).2 u) ∧
      (bit (leAt f.entry 20 1) 0 = true →
        ∃ t, exec (.portMeasure q) s = .next t ∧
          getPort t p = { getPort s p with measure := (getPort s p).measure ++ [s.hif.cmdSeq] } ∧
          (∀ o, o ≠ p → getPort t o = getPort s o) ∧ ChangesOnly (.ports :: ringParts) s t))

/-- TABLE_UPDATE, on a table with no update in progress: if every entry, without its reserved bits, is valid and finds room, the
table takes them all at once (CLEAR empties it), the table's epoch bit flips, and the update waits at its fence; an invalid entry
ends it INVALID_FIELD and a full bucket NO_RESOURCE, with the tables as they were. With an update of the table at its fence the
next one waits behind it. MIRROR_SET sets its session as the entry says, without what its kind ignores, and the inset port shown
is that of the active sessions. The other tables and sessions are as they were. -/
def Obligations.SwitchTablesSet : Prop :=
  (∀ (q : Nat) (r : Row) (c : Cmd) (s : State), DataIn (.tableUpdate q) q r c s → tTable c.entry ≤ 2 → tOp c.entry < 2 →
    (∀ x ∈ s.sw.updates, x.cmd ≠ c.id) →
    let k := tTable c.entry
    ((∀ x ∈ s.sw.updates, x.table ≠ k) →
      ∃ t, exec (.tableUpdate q) s = .next t ∧
        match applyEntries s k (tOp c.entry) 0 ((records (entrySize k) (c.data.length / entrySize k) c.data).map (kept (tableMask k)))
            (getTable s k) false with
        | .ok m => getTable t k = m ∧ (∀ j, j ≤ 2 → j ≠ k → getTable t j = getTable s j) ∧
            (∀ j, j ≤ 2 → bit (epochNow t) j = (if j = k then !bit (epochNow s) j else bit (epochNow s) j)) ∧
            t.sw.updates = s.sw.updates ++ [⟨c.id, k, tOp c.entry, c.data, some s.now⟩] ∧
            ChangesOnly [.sw, .hif, .regs 11] s t
        | .invalid d => t = completeId (markPast s c) c.id St.invalidField 0 d
        | .overflow => t = completeId (markPast s c) c.id St.noResource) ∧
    ((∃ x, s.sw.updates.find? (·.table == k) = some x ∧ x.since.isSome = true) →
      ∃ t, exec (.tableUpdate q) s = .next t ∧ t.sw.updates = s.sw.updates ++ [⟨c.id, k, tOp c.entry, c.data, none⟩] ∧
        ChangesOnly [.sw, .hif] s t ∧ ∀ j, getTable t j = getTable s j)) ∧
  (∀ (q : Nat) (r : Row) (f : Fetched) (rest : List Fetched) (s : State), MayBegin (.tableUpdate q) q r f rest s →
    startTableUpdate s f.entry = .run → (∀ x ∈ s.sw.updates, x.table ≠ tTable f.entry ∧ x.cmd ≠ s.hif.cmdSeq) →
    ∃ u, exec (.tableUpdate q) s = .next (drainInvalid u q 16) ∧ getTable u (tTable f.entry) = [] ∧
      (∀ j, j ≤ 2 → j ≠ tTable f.entry → getTable u j = getTable s j) ∧
      (∀ j, j ≤ 2 → bit (epochNow u) j = (if j = tTable f.entry then !bit (epochNow s) j else bit (epochNow s) j)) ∧
      u.sw.updates = s.sw.updates ++ [⟨s.hif.cmdSeq, tTable f.entry, 2, [], some s.now⟩] ∧ ChangesOnly [.sw, .hif, .regs 11] s u) ∧
  (∀ (q : Nat) (r : Row) (f : Fetched) (rest : List Fetched) (s : State), MayBegin (.mirrorSet q) q r f rest s →
    startMirrorSet s f.entry = .run →
    ∃ u, exec (.mirrorSet q) s = .next (drainInvalid (complete u (begun s q f rest).1 St.ok) q 16) ∧
      getMirror u (eTarget f.entry) = mirrorOf f.entry ∧ mirrorOn u (eTarget f.entry) = (leAt f.entry 20 1 != 0) ∧
      (leAt f.entry 20 1 ≠ 0 → getF u Rg.SW_MIRROR_INSET = leAt f.entry 24 1) ∧
      (∀ i, i < 4 → i ≠ eTarget f.entry → getMirror u i = getMirror s i ∧ mirrorOn u i = mirrorOn s i) ∧
      ChangesOnly [.sw, .regs 11] (begun s q f rest).2 u)

/-- SHAPER_SET that enables a disabled shaper fills its bucket; one that disables a shaper leaves it off, and the settings that
waited complete; on one that refills, the rate waits for its slot, and on one that does not, it is in force. METER_SET sets its
meter's rates, sizes, actions and bindings: with its list, the pairs of the list, taken from the other meters; without one,
OK_ZERO, no pair with UNBIND_ALL, else those it had; its buckets fill with FILL or from no binding, and are clipped otherwise.
GATE_LIST_SET keeps its list as the port's next, to start at its base time or at the first cycle from it that is far enough ahead,
and completes OK with that instant; an interval out of range or a start 2 s or more ahead ends it INVALID_FIELD. Other ports, classes
and meters are otherwise as they were. -/
def Obligations.TrafficSet : Prop :=
  (∀ (q : Nat) (r : Row) (f : Fetched) (rest : List Fetched) (s : State), MayBegin (.shaperSet q) q r f rest s →
    startShaperSet s f.entry = .run →
    let x := getShaper s (eTarget f.entry) (leAt f.entry 20 1)
    let others (u : State) : Prop := ChangesOnly (.tm :: ringParts) s u ∧
      ∀ p k, p < 146 → k < 8 → (p, k) ≠ (eTarget f.entry, leAt f.entry 20 1) → getShaper u p k = getShaper s p k
    (sEnable f.entry = false ∨ x.enabled = false →
      ∃ u, exec (.shaperSet q) s = .next (drainInvalid (complete u (begun s q f rest).1 St.ok) q 16) ∧ others u ∧
        getShaper u (eTarget f.entry) (leAt f.entry 20 1) = if sEnable f.entry then
            ⟨true, sRate f.entry, sBurst f.entry, sBurst f.entry, s.now * 65536, false, []⟩
          else { Shaper.init with burst := x.burst }) ∧
    (sEnable f.entry = true → x.enabled = true → refilling x = true ∨ x.next ≠ [] →
      ∃ u, exec (.shaperSet q) s = .next (drainInvalid u q 16) ∧ others u ∧
        getShaper u (eTarget f.entry) (leAt f.entry 20 1) = { x with
          burst := sBurst f.entry, credit := min x.credit (sBurst f.entry), next := x.next ++ [(s.hif.cmdSeq, sRate f.entry)] }) ∧
    (sEnable f.entry = true → x.enabled = true → refilling x = false → x.next = [] →
      ∃ u, exec (.shaperSet q) s = .next (drainInvalid (complete u (begun s q f rest).1 St.ok) q 16) ∧ others u ∧
        getShaper u (eTarget f.entry) (leAt f.entry 20 1) = placeShaper s { x with
          rate := sRate f.entry, burst := sBurst f.entry, credit := min x.credit (sBurst f.entry), last := s.now * 65536 })) ∧
  (let set (s u : State) (e d : List Byte) : Prop :=
     let was := refillMeter s (getMeter s (eTarget e))
     let m := getMeter u (eTarget e)
     let listed := (records 4 (d.length / 4) d).map fun b => (leAt b 0 1, leAt b 1 1)
     let full := bit (leAt e 20 1) 0 = true ∨ was.bindings = []
     m.actYellow = leAt e 21 1 ∧ m.actRed = leAt e 22 1 ∧ m.cir = leAt e 24 4 ∧ m.pir = leAt e 28 4 ∧
     m.cbs = leAt e 32 2 ∧ m.pbs = leAt e 34 2 ∧
     m.bindings = (if d ≠ [] then listed else if bit (leAt e 20 1) 1 then [] else (getMeter s (eTarget e)).bindings) ∧
     (full → m.tc = leAt e 32 2 * one16 ∧ m.tp = leAt e 34 2 * one16) ∧
     (¬ full → m.tc = min was.tc (leAt e 32 2 * one16) ∧ m.tp = min was.tp (leAt e 34 2 * one16)) ∧
     (∀ k, k ≠ eTarget e → getMeter u k = { getMeter s k with bindings := (getMeter u k).bindings } ∧
       ∀ b ∈ (getMeter u k).bindings, ∀ l ∈ listed, l.1 = b.1 → l.2 &&& b.2 = 0)
   (∀ (q : Nat) (r : Row) (c : Cmd) (s : State), DataIn (.meterSet q) q r c s → c.data ≠ [] →
     badBinding s 0 (records 4 (c.data.length / 4) c.data) = none →
     ∃ u, exec (.meterSet q) s = .next (complete u c St.ok) ∧ set s u c.entry c.data ∧ ChangesOnly [.tm] (markPast s c) u) ∧
   (∀ (q : Nat) (r : Row) (f : Fetched) (rest : List Fetched) (s : State), MayBegin (.meterSet q) q r f rest s →
     startMeterSet s f.entry = .run →
     ∃ u, exec (.meterSet q) s = .next (drainInvalid (complete u (begun s q f rest).1 St.okZero) q 16) ∧
       set s u f.entry [] ∧ ChangesOnly [.tm] (begun s q f rest).2 u)) ∧
  (let kept (s u : State) (e d : List Byte) : Prop :=
     let start := gateStart (gBase e) (gCycle e) (mft16 s + getF s Rg.TM_CTRL_GATE_LEAD_US * 1000 * 65536)
     getGateNext u (eTarget e) = some ⟨(records 8 (d.length / 8) d).map fun b => (leAt b 0 1, leAt b 4 4), start, gCycle e⟩ ∧
     getB u Rg.TM_GATE_STATUS_PENDING (eTarget e) = true ∧
     (∀ p, p ≠ eTarget e → getGateNext u p = getGateNext s p) ∧ ∀ p, getGate u p = getGate s p
   (∀ (q : Nat) (r : Row) (c : Cmd) (s : State), DataIn (.gateListSet q) q r c s → eTarget c.entry < 128 →
     let start := gateStart (gBase c.entry) (gCycle c.entry) (mft16 s + getF s Rg.TM_CTRL_GATE_LEAD_US * 1000 * 65536)
     ∃ u st x d, exec (.gateListSet q) s = .next (complete u c st x d) ∧
       match badGate 0 (records 8 (c.data.length / 8) c.data) with
       | some k => u = markPast s c ∧ st = St.invalidField ∧ x = 0 ∧ d = k
       | none =>
         if mft16 s + 2000000000 * 65536 ≤ start then u = markPast s c ∧ st = St.invalidField ∧ x = 0 ∧ d = 20
         else kept s u c.entry c.data ∧ ChangesOnly [.tm, .regs 12] (markPast s c) u ∧ st = St.ok ∧ x = start / 65536 % 2 ^ 32 ∧ d = 0) ∧
   (∀ (q : Nat) (r : Row) (f : Fetched) (rest : List Fetched) (s : State), MayBegin (.gateListSet q) q r f rest s →
     startGateListSet s f.entry = .run →
     let start := gateStart (gBase f.entry) (gCycle f.entry) (mft16 s + getF s Rg.TM_CTRL_GATE_LEAD_US * 1000 * 65536)
     start < mft16 s + 2000000000 * 65536 →
     ∃ u, exec (.gateListSet q) s = .next (drainInvalid (complete u (begun s q f rest).1 St.ok (start / 65536 % 2 ^ 32)) q 16) ∧
       kept s u f.entry [] ∧ ChangesOnly [.tm, .regs 12] (begun s q f rest).2 u))

/-- POWER_STATE. An alarm less than 2 s ahead ends it TIME_PAST; to the present state it completes OK with the MST; while another
enters it ends BUSY. Else a deeper state begins its entry: PWR_STATE shows the target, the units that the entry affects are asked,
and the window is the entry's. RUN is there at once, with the alarm set or cleared. With DOMAIN, ON shows the policy and wakes a
domain that is not on; AUTO and OFF are refused where an enabled lane holds the domain, set where it is used or not on, and else
ask the domain. WATCH_CONFIG's settings show in the registers, and those in force are as they were. -/
def Obligations.PowerCommands : Prop :=
  (∀ (q : Nat) (r : Row) (f : Fetched) (rest : List Fetched) (s : State), MayBegin (.powerState q) q r f rest s →
    startPowerState s f.entry = .run → findCmd s s.hif.cmdSeq = none →
    let tgt := leAt f.entry 20 1
    let d := leAt f.entry 22 1
    let p := leAt f.entry 23 1
    let ends (st x : Nat) : Prop :=
      exec (.powerState q) s = .next (drainInvalid (complete (begun s q f rest).2 (begun s q f rest).1 st x) q 16)
    let asks (t : State) (aim : Nat) (gate : Option (Nat × Nat)) (units : List Nat) : Prop :=
      t.pwr.entry = some ⟨aim, gate, some s.hif.cmdSeq, units, [],
        s.now + (if leAt f.entry 28 2 = 0 then getF s Rg.PWR_CTRL_AUTO_WINDOW_MS else leAt f.entry 28 2) * 1000000, false,
        bit (leAt f.entry 21 1) 1⟩
    let done (t : State) : Prop := findCmd t s.hif.cmdSeq = none
    (alarmLate s f.entry = true → ends St.timePast 0) ∧
    (alarmLate s f.entry = false →
      (domainFlag f.entry = false → tgt = devState s → ends St.ok (mst s)) ∧
      (domainFlag f.entry = true ∨ tgt ≠ devState s → entering s = true → ends St.busy 0) ∧
      (domainFlag f.entry = false → tgt ≠ devState s → entering s = false →
        ∃ t, exec (.powerState q) s = .next t ∧
          (tgt ≠ 0 → asks t tgt none (entryUnits s tgt none) ∧ getF t Rg.PWR_STATE_TARGET = tgt ∧ getF t Rg.PWR_STATE_ENTERING = 1 ∧
            devState t = devState s ∧ ChangesOnly (.pwr :: .regs 2 :: ringParts) s t) ∧
          (tgt = 0 → done t ∧ devState t = 0 ∧ getF t Rg.PWR_RTC_ALARM_ARMED = (alarmValid f.entry).toNat ∧
            (alarmValid f.entry = true → getF t Rg.PWR_RTC_ALARM_SEC_LOW = leAt f.entry 24 4))) ∧
      (domainFlag f.entry = true → entering s = false →
        ∃ t, exec (.powerState q) s = .next t ∧
          (p = 0 → getF t Rg.PWR_DOMAIN_POLICY d = 0 ∧
            (domainState s d ∈ [domRetained, domOff, domWaking] → domainState t d = domWaking ∧ asks t 0 (some (d, 0)) []) ∧
            (domainState s d ∉ [domRetained, domOff, domWaking] → done t)) ∧
          (p ≠ 0 → laneHolds s d = true → done t ∧ getF t Rg.PWR_DOMAIN_POLICY d = getF s Rg.PWR_DOMAIN_POLICY d ∧
            getF t Rg.PWR_STATE_REFUSE_DOMAIN = d ∧ getF t Rg.PWR_STATE_REFUSE_REASON = 2) ∧
          (p ≠ 0 → laneHolds s d = false → (domainUsed s d || !domainOn s d) = true →
            done t ∧ getF t Rg.PWR_DOMAIN_POLICY d = p) ∧
          (p ≠ 0 → laneHolds s d = false → (domainUsed s d || !domainOn s d) = false →
            asks t 0 (some (d, p)) (entryUnits s 0 (some (d, p))) ∧
            getF t Rg.PWR_DOMAIN_POLICY d = getF s Rg.PWR_DOMAIN_POLICY d)))) ∧
  (let set (u : State) (e b : List Byte) : Prop := getF u Rg.PWR_WATCH_CFG_PERIOD_MS = leAt e 20 4 % 2 ^ 16 ∧
     getF u Rg.PWR_WATCH_CFG_COMPARATORS = b.length / 16 ∧ getF u Rg.PWR_WAKE_EN_ENABLE = leAt e 24 1 % 64 ∧
     ∀ i, i < 8 → getF u Rg.PWR_WATCH_CMP_RECORD i = leAt (b.drop (16 * i)) 0 8
   (∀ (q : Nat) (r : Row) (c : Cmd) (s : State), DataIn (.watchConfig q) q r c s → c.data ≠ [] → c.data.length ≤ 128 →
     c.data.length % 16 = 0 →
     ∃ t, exec (.watchConfig q) s = .next t ∧
       match badRecord 16 badComparator (c.data.length / 16) 0 c.data with
       | none => ∃ u, t = complete u c St.ok ∧ set u c.entry c.data ∧ ChangesOnly [.regs 2] (markPast s c) u
       | some k => t = complete (markPast s c) c St.invalidField 0 k) ∧
   (∀ (q : Nat) (r : Row) (f : Fetched) (rest : List Fetched) (s : State), MayBegin (.watchConfig q) q r f rest s →
     startWatchConfig s f.entry = .run →
     ∃ u, exec (.watchConfig q) s = .next (drainInvalid (complete u (begun s q f rest).1 St.okZero) q 16) ∧
       set u f.entry [] ∧ ChangesOnly [.regs 2] (begun s q f rest).2 u))

/-- EDITION_LOAD and FW_STAGE, their image read: one that passes its checks (for firmware the header's, and then the root key, the
digest, the signature and the security version) marks the slot it will go to empty (for firmware the one not running) and begins
its programming, and the command waits; another ends the command, AUTH_FAIL if it is not authentic. EDITION_LOAD with ERASE marks
its slot empty and begins the erasure. EDITION_SELECT begins a
selection: SELECT_PENDING and REQUESTED show it, and the command waits. (The directory's sequence has not reached its last value.) -/
def Obligations.ImagesTaken : Prop :=
  (let begins (s t : State) (id n : Nat) (img : List Byte) : Prop := t.sec.jobs = s.sec.jobs ++ [⟨id, true, n, img⟩] ∧
     (dirOf t).ed.get n none = none ∧ (dirOf t).fw = (dirOf s).fw ∧ getF t Rg.TOP_EDITION_SERIAL_SERIAL n = 0
   (∀ (q : Nat) (r : Row) (c : Cmd) (s : State), DataIn (.editionLoad q) q r c s → eTarget c.entry < 4 → c.data ≠ [] →
     (dirOf s).seq + 1 < 2 ^ 32 →
     ∃ t, exec (.editionLoad q) s = .next t ∧
       match edCommandCheck (markPast s c) c.data with
       | none => begins s t c.id (eTarget c.entry) c.data ∧ ChangesOnly [.hif, .sec, .regs 0] s t
       | some (k, d) => t = if isAuth k then complete (authFail (markPast s c)) c St.authFail
           else complete (markPast s c) c St.invalidField 0 d) ∧
   (∀ (q : Nat) (r : Row) (f : Fetched) (rest : List Fetched) (s : State), MayBegin (.editionLoad q) q r f rest s →
     startEditionLoad s f.entry = .run → (dirOf s).seq + 1 < 2 ^ 32 →
     ∃ t, exec (.editionLoad q) s = .next t ∧ begins s t s.hif.cmdSeq (eTarget f.entry) [] ∧
       ChangesOnly (.sec :: .regs 0 :: ringParts) s t)) ∧
  (∀ (q : Nat) (r : Row) (c : Cmd) (s : State), DataIn (.fwStage q) q r c s →
    (dirOf s).seq + 1 < 2 ^ 32 →
    ∃ t, exec (.fwStage q) s = .next t ∧
      match fwHeaderBad c.data with
      | none => if fwAuthentic s c.data then t.sec.jobs = s.sec.jobs ++ [⟨c.id, false, otherSlot s, c.data⟩] ∧
            (dirOf t).fw.get (otherSlot s) none = none ∧ (dirOf t).ed = (dirOf s).ed ∧ t.sec.slot = s.sec.slot ∧
            ChangesOnly [.hif, .sec] s t
          else t = complete (authFail (markPast s c)) c St.authFail
      | some d => t = complete (markPast s c) c St.invalidField 0 d) ∧
  (∀ (q : Nat) (r : Row) (f : Fetched) (rest : List Fetched) (s : State), MayBegin (.editionSelect q) q r f rest s →
    startEditionSelect s f.entry = .run →
    ∃ t, exec (.editionSelect q) s = .next t ∧
      t.sec.select = some ⟨s.hif.cmdSeq, eTarget f.entry, s.now, false, [], 0, [], false, 0, 0, []⟩ ∧
      getF t Rg.TOP_EDITION_STATUS_SELECT_PENDING = 1 ∧ getF t Rg.TOP_EDITION_STATUS_REQUESTED = eTarget f.entry ∧
      getF t Rg.TOP_EDITION_STATUS_ACTIVE = getF s Rg.TOP_EDITION_STATUS_ACTIVE ∧
      ChangesOnly (.select :: .regs 0 :: ringParts) s t)

/-- FW_ACTIVATE: ARM and NOW with a staged image make the next start a trial of the other slot, NOW with a reset 1 ms later;
CONFIRM of a trial makes the slot on trial the active one, and COMMIT_SVN raises the fused security version to the running
image's; REVERT makes the other slot active if its image is accepted. They complete OK. Without a staged image, without a trial, or
with the other slot's image not accepted they end STATE_CONFLICT and change nothing. -/
def Obligations.FirmwareActivated : Prop :=
  ∀ (q : Nat) (r : Row) (f : Fetched) (rest : List Fetched) (s : State), MayBegin (.fwActivate q) q r f rest s →
    startFwActivate s f.entry = .run → (dirOf s).seq + 1 < 2 ^ 32 →
    let a := leAt f.entry 20 1
    let conflict : Prop :=
      exec (.fwActivate q) s = .next (drainInvalid (complete (begun s q f rest).2 (begun s q f rest).1 St.stateConflict) q 16)
    (a ≤ 1 ∧ stagedValid s = false ∨ a = 2 ∧ getB s Rg.TOP_STATUS_TRIAL = false → conflict) ∧
    (a ≤ 1 → stagedValid s = true →
      ∃ t, exec (.fwActivate q) s = .next t ∧ findCmd t s.hif.cmdSeq = none ∧
        (dirOf t).trial = true ∧ (dirOf t).trialSlot = otherSlot s ∧
        (dirOf t).active = (dirOf s).active ∧ (dirOf t).fw = (dirOf s).fw ∧ (dirOf t).ed = (dirOf s).ed ∧
        t.sec.resetAt = (if a = 1 then some (s.now + 1000000) else s.sec.resetAt) ∧ t.sec.otp = s.sec.otp ∧
        ChangesOnly (.sec :: ringParts) s t) ∧
    (a = 2 → getB s Rg.TOP_STATUS_TRIAL = true →
      ∃ u, exec (.fwActivate q) s = .next (drainInvalid (complete u (begun s q f rest).1 St.ok) q 16) ∧
        (dirOf u).active = (dirOf s).trialSlot ∧ (dirOf u).trial = false ∧ getB u Rg.TOP_STATUS_TRIAL = false ∧
        u.sec.otp = (if bit (leAt f.entry 21 1) 0 then
          { s.sec.otp with svn := max s.sec.otp.svn (fwSvn (fwImage s (s.sec.slot.getD 0))) } else s.sec.otp) ∧
        ChangesOnly [.sec, .regs 0] (begun s q f rest).2 u) ∧
    (a = 3 → if fwSlotOk s (otherSlot s) = true then
        ∃ u, exec (.fwActivate q) s = .next (drainInvalid (complete u (begun s q f rest).1 St.ok) q 16) ∧
          (dirOf u).active = otherSlot s ∧ (dirOf u).trial = false ∧ getB u Rg.TOP_STATUS_TRIAL = false ∧ u.sec.otp = s.sec.otp ∧
          ChangesOnly [.sec, .regs 0] (begun s q f rest).2 u
      else conflict)

/-- DIAG LIFECYCLE to a later state, to LOCKED with its token, burns exactly the fuses up to it, RETIRED erasing the identity key,
and raises
SEC_LIFECYCLE_CHANGE; the state in force changes only at the next start. Without the token it ends AUTH_FAIL, to a state already
burnt STATE_CONFLICT. DIAG OWNER_BIND burns the owner key's hash if
the root key has signed the record, once only. DIAG PATCH_LOAD puts the host's patch set in force, or with CLEAR takes it away: the
last 64 nanowords are the set's. They complete OK. -/
def Obligations.DeviceSecured : Prop :=
  (let burnt (s u : State) (t : Nat) : Prop :=
     u.sec.otp = { s.sec.otp with lifecycle := s.sec.otp.lifecycle ||| (2 ^ t - 1), idKey := s.sec.otp.idKey && decide (t < 3) } ∧
     lifecycle u = lifecycle s
   (∀ (q : Nat) (r : Row) (f : Fetched) (rest : List Fetched) (s : State), MayBegin (.diagLifecycle q) q r f rest s →
     startLifecycle s f.entry = .run →
     ∃ u, exec (.diagLifecycle q) s = .next (drainInvalid (complete u (begun s q f rest).1 St.ok) q 16) ∧
       burnt s u (leAt f.entry 21 1) ∧ ChangesOnly [.ev, .bgLog, .sec, .regs 4] (begun s q f rest).2 u) ∧
   (∀ (q : Nat) (r : Row) (c : Cmd) (s : State), DataIn (.diagLifecycle q) q r c s → leAt c.entry 21 1 = 1 →
     ∃ t, exec (.diagLifecycle q) s = .next t ∧
       if 1 ≤ burntState s then t = complete (markPast s c) c St.stateConflict
       else if tokenOk s 1 c.data = false then t = complete (markPast s c) c St.authFail
       else ∃ u, t = complete u c St.ok ∧ burnt s u 1 ∧ ChangesOnly [.ev, .bgLog, .sec, .regs 4] (markPast s c) u)) ∧
  (∀ (q : Nat) (r : Row) (c : Cmd) (s : State), DataIn (.diagOwnerBind q) q r c s →
    ∃ u, exec (.diagOwnerBind q) s = .next (complete u c (if ownerClosed s then St.stateConflict
        else if ownerRecordOk s c.data then St.ok else St.authFail)) ∧
      u.sec.otp = (if ownerClosed s = false ∧ ownerRecordOk s c.data = true then
        { s.sec.otp with ownerHash := digestBytes (ownerKey c.data) } else s.sec.otp) ∧
      ChangesOnly [.sec] (markPast s c) u) ∧
  (let patched (s u : State) (p : Option (List Byte)) : Prop := u.sec.hostPatches = p ∧ u.sec.otp = s.sec.otp ∧
     u.sec.micro = s.sec.micro ∧ ∀ i, i < 64 → nanoword u (1984 + i) = leAt (patchSet u) (512 + 16 * i) 16
   (∀ (q : Nat) (r : Row) (c : Cmd) (s : State), DataIn (.diagPatchLoad q) q r c s → c.data ≠ [] →
     ∃ u, exec (.diagPatchLoad q) s = .next (complete u c St.ok) ∧ patched s u (some c.data) ∧
       ChangesOnly [.tmr, .ev, .bgLog, .sec, .regs 4, .regs 5] (markPast s c) u) ∧
   (∀ (q : Nat) (r : Row) (f : Fetched) (rest : List Fetched) (s : State), MayBegin (.diagPatchLoad q) q r f rest s →
     startPatchLoad s f.entry = .run →
     ∃ u, exec (.diagPatchLoad q) s = .next (drainInvalid (complete u (begun s q f rest).1 St.ok) q 16) ∧ patched s u none ∧
       ChangesOnly [.tmr, .ev, .bgLog, .sec, .regs 4, .regs 5] (begun s q f rest).2 u))

/-- WEAR_CURVE_SET, its curves read, puts the three in force, or ends INVALID_FIELD; with CLEAR and no curves it takes them away. With
UPDATE_NOW a gain pass begins, or follows the one that runs.
DOSE_SAVE outside a gain pass stores the dose file at HOST_ADDR and completes OK with its size; one too long for the buffer ends it
INVALID_FIELD. DOSE_LOAD outside a gain pass takes every record's doses from a file that passes its checks; a wrong CRC ends it
DATA_ERROR, another field INVALID_FIELD, with the doses as they were. During a gain pass both wait. -/
def Obligations.WearAndDoses : Prop :=
  (let begins (s u : State) (k : Curves) : Prop :=
     match s.bg.pass with
     | some p => u.bg.pass = some p ∧ u.bg.passAgain = true
     | none => u.bg.pass = some ⟨k, if k.isEmpty then s.prj.doseSize.map (·.1) else wallSet s⟩ ∧ getF u Rg.SNS_AGE_STATUS_RUNNING = 1
   let set (s u : State) (e : List Byte) (k : Curves) : Prop :=
     u.bg.curves = some k ∧ getB u Rg.SNS_AGE_STATUS_CURVES_VALID = !k.isEmpty ∧
     (if bit (leAt e 20 1) 1 then begins s u k else u.bg.pass = s.bg.pass)
   (∀ (q : Nat) (r : Row) (c : Cmd) (s : State), DataIn (.wearCurveSet q) q r c s → c.data ≠ [] →
     ∃ t, exec (.wearCurveSet q) s = .next t ∧
       match badCurves c.data with
       | some d => t = complete (markPast s c) c St.invalidField 0 d
       | none => ∃ u, t = complete u c St.ok ∧ set s u c.entry (curvesOf c.data) ∧ ChangesOnly [.bg, .regs 15] (markPast s c) u) ∧
   (∀ (q : Nat) (r : Row) (f : Fetched) (rest : List Fetched) (s : State), MayBegin (.wearCurveSet q) q r f rest s →
     startWearCurveSet s f.entry = .run →
     ∃ u, exec (.wearCurveSet q) s = .next (drainInvalid (complete u (begun s q f rest).1 St.ok) q 16) ∧ set s u f.entry [] ∧
       ChangesOnly [.bg, .regs 15] (begun s q f rest).2 u)) ∧
  (∀ (q : Nat) (r : Row) (f : Fetched) (rest : List Fetched) (s : State), MayBegin (.doseSave q) q r f rest s →
    startDoseSave s f.entry = .run →
    let b := doseFile s (doseSheets s (eTarget f.entry) (leAt f.entry 20 2))
    (s.bg.pass.isSome = true → ∃ u, exec (.doseSave q) s = .next (takeDose (drainInvalid u q 16)) ∧
      u.bg = { s.bg with doseWait := s.bg.doseWait ++ [s.hif.cmdSeq] } ∧ ChangesOnly [.bg, .hif] (begun s q f rest).2 u) ∧
    (s.bg.pass = none → eLen f.entry < b.length → exec (.doseSave q) s =
      .next (takeDose (drainInvalid (complete (begun s q f rest).2 (begun s q f rest).1 St.invalidField b.length 16) q 16))) ∧
    (s.bg.pass = none → b.length ≤ eLen f.entry →
      ∃ u, exec (.doseSave q) s = .next (takeDose (drainInvalid (complete u (begun s q f rest).1 St.ok b.length) q 16)) ∧
        StoresBytes (eAddr f.entry) b (begun s q f rest).2 u ∧
        (∀ d ∈ doseSheets s (eTarget f.entry) (leAt f.entry 20 2), u.bg.doseChanged.any (·.1 == d) = false) ∧
        ChangesOnly [.host, .bg] (begun s q f rest).2 u)) ∧
  (∀ (q : Nat) (r : Row) (c : Cmd) (s : State), DataIn (.doseLoad q) q r c s →
    let b := c.data
    let rs := doseRecords b (leAt b 6 2) 64
    let ends (st d : Nat) : Prop := exec (.doseLoad q) s = .next (takeDose (complete (markPast s c) c st 0 d))
    (s.bg.pass.isSome = true → ∃ u, exec (.doseLoad q) s = .next (takeDose u) ∧
      u.bg = { s.bg with doseWait := s.bg.doseWait ++ [c.id] } ∧ ChangesOnly [.bg, .hif] s u) ∧
    (s.bg.pass = none →
      if b.length < 64 ∨ crc32c (b.take 60) ≠ leAt b 60 4 then ends St.dataError 0
      else if leAt b 0 4 ≠ 0x45534F44 then ends St.invalidField (bufDetail 0 0)
      else if leAt b 4 2 ≠ 1 then ends St.invalidField (bufDetail 4 0)
      else if leAt b 8 4 ≠ b.length then ends St.invalidField (bufDetail 8 0)
      else if ∃ x ∈ rs, crc32c x.2.2.2.2.2 ≠ x.2.2.2.2.1 then ends St.dataError 0
      else match rs.find? fun x => !doseSizeOk s x with
        | some x => ends St.invalidField x.1
        | none => ∃ u, exec (.doseLoad q) s = .next (takeDose (complete u c St.ok)) ∧
          (∀ d, u.prj.dose.get d [] = match rs.reverse.find? (·.2.1 == d) with
            | some x => doseMapOf x.2.2.2.2.2
            | none => s.prj.dose.get d []) ∧
          (bit (leAt c.entry 22 1) 0 = false → u.bg.pass = none) ∧ ChangesOnly [.prj, .bg, .regs 15] (markPast s c) u))

/-! ### Completions, steps and what every step keeps -/

/-- A command that completes on a completion ring that is enabled, has room and holds nothing back, with the host reachable: the
16 bytes of its entry stand in the next slot, CQ_TAIL shows one entry more, the written count has grown by one, and the command
is no more; every byte of host memory outside the slot and CQ_TAIL is as it was. -/
def Obligations.CompletionPosted : Prop :=
  ∀ (s : State) (c k : Cmd) (status result detail : Nat), findCmd s c.id = some k → k.discard = false → doseOp k = false →
    getB s Rg.HIF_CQ_CFG_ENABLE (cqOf s c.sq) = true → hostReachable s = true → cqFull s (cqOf s c.sq) = false →
    (getCq s (cqOf s c.sq)).held = [] → (getCq s (cqOf s c.sq)).waiting = [] →
    let n := (getCq s (cqOf s c.sq)).written
    let depthExp := getF s Rg.HIF_CQ_CFG_DEPTH_EXP (cqOf s c.sq)
    let a := cqBase s (cqOf s c.sq) + 16 * (n % 2 ^ depthExp)
    let tail := dbrec s + 0xC00 + 16 * cqOf s c.sq
    let t := complete s c status result detail
    (a + 16 ≤ tail ∨ tail + 4 ≤ a →
      hostRead t a 16 = leBytes 2 (eCid c.entry) ++ leBytes 1 status ++ leBytes 1 (passValue n depthExp) ++ leBytes 1 c.sq ++
        leBytes 1 (eOpcode c.entry) ++ leBytes 2 (getSq s c.sq).head ++ leBytes 4 (result % 2 ^ 32) ++ leBytes 4 (detail % 2 ^ 32)) ∧
    leNat (hostRead t tail 4) = (n + 1) % 2 ^ 32 ∧ (getCq t (cqOf s c.sq)).written = (n + 1) % 2 ^ 32 ∧ findCmd t c.id = none ∧
    (∀ x, (x < a ∨ a + 16 ≤ x) → (x < tail ∨ tail + 4 ≤ x) → memByte t.host x = memByte s.host x) ∧ ChangesOnly ringParts s t

/-- A step with a command at the front of the queue is that command's execution on the rest. -/
def Obligations.StepTakesFront : Prop :=
  ∀ (c : Instr) (rest : List Instr) (s : State), s.pending = c :: rest → step s = exec c { s with pending := rest }

/-- With no command waiting, a step is one TIMECLK cycle of 1 ns (the model's choice, log 2): the Meridian clock advances by its
increment, wrapping, where Meridian runs; every fourth cycle, where the Compass runs, one microinstruction gives the next microword
address and the stack as its SEQ says, a BRANCH to one of the 16 words that its conditions choose; a gated domain that has a user
begins to wake. Nothing else changes but the pins. -/
def Obligations.IdleStep : Prop :=
  ∀ s : State, s.pending = [] → ∃ t, step s = .next t ∧ t.now = s.now + 1 ∧
    (meridianRuns s = true → clock48 t = (clock48 s + clockInc s) % (2 ^ 48 * 1000000000 * 2 ^ 48)) ∧
    (meridianRuns s = false → clock48 t = clock48 s) ∧
    (let w := microword s s.sec.pc
     let target := w / 2 ^ 11 % 2 ^ 13 * 2
     let after := (s.sec.pc + 1) % 2 ^ 14
     if (s.now + 1) % 4 = 0 ∧ compassRuns s = true then
       match seqOf (nanoword s (w % 2 ^ 11)) with
       | .next => t.sec.pc = after ∧ t.sec.stack = s.sec.stack
       | .jump => t.sec.pc = target ∧ t.sec.stack = s.sec.stack
       | .branch => (∃ c, c < 16 ∧ t.sec.pc = target ||| c) ∧ t.sec.stack = s.sec.stack
       | .call => t.sec.pc = target ∧ (s.sec.stack.length < 8 → t.sec.stack = after :: s.sec.stack)
       | .ret => ∀ a l, s.sec.stack = a :: l → t.sec.pc = a ∧ t.sec.stack = l
     else t.sec = s.sec ∧ t.freeCtr = s.freeCtr) ∧
    (∀ d, 1 ≤ d → d < 80 → domainState t d = if running s = true ∧ getF s Rg.PWR_STATE_STATE ≤ 2 ∧ userWaits s d = true ∧
      (domainState s d = domRetained ∨ domainState s d = domOff) then domWaking else domainState s d) ∧
    ChangesOnly [.freeCtr, .mer, .sec, .pins, .regs 2, .regs 14] s t

/-- Every command, in every state, is answered by a next state: none ends the run. That a command which the state does not allow
has no effect is the model's choice (log 1). -/
def Obligations.EveryCommandGoesOn : Prop := ∀ (c : Instr) (s : State), ∃ t, exec c s = .next t

/-- Every step keeps the invariant: memories in canonical form, the event queue within 32 entries, the event log within 4,096,
and a Meridian time that is a time. -/
def Obligations.InvariantKept : Prop := ∀ s t : State, Inv s → step s = .next t → Inv t

/-- In every step the fuses only burn: no lifecycle bit is cleared, the security version never falls, an erased identity key and
a bound owner key stay, and what was written in manufacture stays. -/
def Obligations.FusesNeverClear : Prop := ∀ s t : State, step s = .next t → FusesOnlyBurn s.sec.otp t.sec.otp

/-- The queue is served first in, first out; the reference time moves only in a step on an empty queue (the model's choice, log
2); what was sent on the wire stays sent; free values are only taken. -/
def Obligations.StepsInOrder : Prop :=
  ∀ s t : State, step s = .next t → t.pending = s.pending.tail ∧ t.now = (if s.pending = [] then s.now + 1 else s.now) ∧
    s.wire <+: t.wire ∧ s.freeCtr ≤ t.freeCtr

/-- The invariant holds at reset. Reset leaves no command waiting, nothing written down in host memory and HBM, no ring, port,
stream or schedule in use, and these registers at the values of the register tables. What the model chose for reset (logs 3, 4, 8 and 9) is not among them, but
that host memory and HBM list nothing. -/
def Obligations.ResetState : Prop :=
  let s := State.reset
  Inv s ∧ (s.pending, s.host, s.mem.hbm, s.hif.cmds, s.sht.running) = ([], [], [], [], none) ∧
  (∀ n, getStream s n = Stream.init) ∧ (∀ p, p < 128 → portEnabled s p = false) ∧
  (∀ q, q < 64 → sqState s q = sqDisabled) ∧
  (∀ i, i < 64 → getF s Rg.HIF_DMA_CH_OWNER i = 0xFF ∧ getF s Rg.HIF_DMA_CH_ENGINE i = i % 4) ∧
  (∀ p, p < 130 → getF s Rg.TM_SCHED_STRICT p = 0xC0 ∧ getF s Rg.TM_GATE_STATUS_STATES p = 0xFF) ∧
  getF s Rg.TOP_ID_DEVICE = 0x8128 ∧ getF s Rg.TOP_ID_STEPPING = 0xA1 ∧ getF s Rg.SCR_CORE_ENABLE_ENABLE = 0xFFFFFF ∧
  getF s Rg.SCR_DISPATCH_CTRL_ADMIT_LIMIT = 22800 ∧ getF s Rg.SCR_ENC_CTRL_I_PERIOD = 120 ∧ getF s Rg.SHT_CTRL_ETHERTYPE = 0x88B5 ∧
  getF s Rg.SHT_GUARD_GUARD_NS = 20000 ∧ getF s Rg.SHT_LAUNCH_LEAD_US = 200 ∧ getF s Rg.MER_SERVO_GAIN_KP = 0x4000 ∧
  getF s Rg.MER_SERVO_LOCK_LOCK_COUNT = 16 ∧ getF s Rg.SW_POOL_STATUS_FREE = 196608 ∧ getF s Rg.HIF_CTRL_IDLE_US = 50 ∧
  getF s Rg.ECC_SCRUB_CTRL_HBM_CAP_MBS = 64 ∧ getF s Rg.PWR_WATCH_CFG_PERIOD_MS = 1000 ∧ getF s Rg.SNS_AGE_CTRL_FLOOR = 16384 ∧
  getF s Rg.FLT_POLICY_UC_LIMIT = 4

/-- Frames: a command changes only the parts of the state that its row acts on; every other part, whole, is as it was. -/
def Obligations.CommandFrames : Prop :=
  ∀ (c : Instr) (s t : State), exec c s = .next t → ∀ p, mayChange c p = false → p.same s t

/-! ### The host interface -/

/-- An awake ring polls and fetches what is posted, up to 8 entries; with nothing posted it notes since when it is idle. A poll
that host memory answers with errors is counted; the sixteenth in a row, or more posted than the ring's depth, puts the ring in
ERROR with HIF_RING_ERROR. A kick wakes a ring asleep, clears NEEDS_KICK and fetches; on an awake ring it has no effect, and on a
disabled one, or at another offset, it is discarded with HIF_DOORBELL_INVALID. Idle long enough, an engine writes
NEEDS_KICK and sleeps, unless the record, read again, shows new entries: then it clears NEEDS_KICK and stays awake. The stores
are the host's own writes, which reach memory first (in the sleep, between the two readings). -/
def Obligations.RingsFetch : Prop :=
  ∀ (q n : Nat) (stores : List (Nat × List Byte)) (s : State), q < 64 →
    let u := hostStores s stores
    (sqState s q = sqAwake → getF s Rg.HIF_STATUS_DSTATE = 0 →
      (Posted u q n →
        ∃ t, exec (.sqPoll q stores false) s = .next t ∧ Fetches u q n t ∧ sqState t q = sqAwake ∧
          (n = 0 → (getSq t q).idleSince = some ((getSq s q).idleSince.getD s.now)) ∧ ChangesOnly [.host, .hif] s t) ∧
      (∃ t, exec (.sqPoll q stores true) s = .next t ∧ (getSq t q).failedReads = (getSq s q).failedReads + 1 ∧
        (if 16 ≤ (getSq s q).failedReads + 1 then sqState t q = sqError ∧ lastEvent t Ev.HIF_RING_ERROR 0 0
          else sqState t q = sqAwake)) ∧
      (s.hif.linkUp = true → sqDepth s q < (sqTail u q + 2 ^ 32 - (getSq s q).head) % 2 ^ 32 →
        ∃ t, exec (.sqPoll q stores false) s = .next t ∧ sqState t q = sqError ∧ lastEvent t Ev.HIF_RING_ERROR 0 0)) ∧
    (sqState s q = sqAsleep → Posted (writeNeedsKick u q false) q n →
      ∃ t, exec (.sqDoorbellKick (4096 * q) stores) s = .next t ∧ Fetches (writeNeedsKick u q false) q n t ∧
        sqState t q = sqAwake ∧ leNat (hostRead t (dbrec s + 0x804 + 16 * q) 1) = 0 ∧ ChangesOnly [.host, .hif, .regs 3] s t) ∧
    (sqState s q = sqAwake → exec (.sqDoorbellKick (4096 * q) stores) s = .next u) ∧
    (∀ off, off % 4096 ≠ 0 ∨ 64 ≤ off / 4096 ∨ sqState s (off / 4096) = sqDisabled →
      ∃ t, exec (.sqDoorbellKick off stores) s = .next t ∧ lastEvent t Ev.HIF_DOORBELL_INVALID 0 0 ∧
        ChangesOnly [.host, .ev, .bgLog, .regs 4] s t) ∧
    (∀ a, sqState s q = sqAwake → (getSq s q).idleSince = some a → a + getF s Rg.HIF_CTRL_IDLE_US * 1000 ≤ s.now →
      let w := hostStores (writeNeedsKick s q true) stores
      ∃ t, exec (.sqEngineSleep q stores) s = .next t ∧
        (if sqTail w q = (getSq s q).head then t.host = w.host ∧ sqState t q = sqAsleep
          else leNat (hostRead t (dbrec s + 0x804 + 16 * q) 1) = 0 ∧ sqState t q = sqAwake) ∧
        (getSq t q).queue = (getSq s q).queue ∧ (getSq t q).head = (getSq s q).head)

/-- Enabling a disabled submission ring with a legal depth, an enabled completion ring and a free DMA channel starts it from
count 0 on that channel; without one of these it stays disabled with HIF_RING_CONFIG. Enabling a completion ring with a legal
depth starts it from count 0; a disable that no enabled ring forbids disables it, another is ignored with HIF_RING_CONFIG.
STOP, or ENABLE 0, of a running ring with no transfer under way: nothing waits to start on it any more, and it is STOPPED
with ENABLE still 1, or DISABLED with its DMA channel free. STOP has no effect on a ring STOPPED or DISABLED. -/
def Obligations.RingsEnabledAndStopped : Prop :=
  (∀ (q : Nat) (s : State), q < 64 →
     let dep := getF s Rg.HIF_SQ_CFG_DEPTH_EXP q
     (sqState s q = sqDisabled →
       ∃ t, exec (.sqEnable q) s = .next t ∧
         (if 4 ≤ dep ∧ dep ≤ 16 ∧ getB s Rg.HIF_CQ_CFG_ENABLE (cqOf s q) = true ∧ (freeChannel s).isSome = true then
           sqState t q = sqAwake ∧ getF t Rg.HIF_SQ_CTRL_ENABLE q = 1 ∧ getSq t q = SqRing.init ∧
           some (getF t Rg.HIF_SQ_CTRL_CHANNEL q) = freeChannel s ∧
           getF t Rg.HIF_DMA_CH_OWNER (getF t Rg.HIF_SQ_CTRL_CHANNEL q) = q
         else sqState t q = sqDisabled ∧ getF t Rg.HIF_SQ_CTRL_ENABLE q = 0 ∧ lastEvent t Ev.HIF_RING_CONFIG 0 0)) ∧
     (∀ depth vector, depth < 32 → vector < 256 → getB s Rg.HIF_CQ_CFG_ENABLE q = false →
       ∃ t, exec (.cqEnable q depth vector) s = .next t ∧ getF t Rg.HIF_CQ_CFG_DEPTH_EXP q = depth ∧
         getF t Rg.HIF_CQ_CFG_VECTOR q = vector ∧
         (if 4 ≤ depth ∧ depth ≤ 16 then getB t Rg.HIF_CQ_CFG_ENABLE q = true ∧ getCq t q = CqRing.init
           else getB t Rg.HIF_CQ_CFG_ENABLE q = false ∧ lastEvent t Ev.HIF_RING_CONFIG 0 0)) ∧
     (getB s Rg.HIF_CQ_CFG_ENABLE q = true →
       ∃ t, exec (.cqDisable q) s = .next t ∧
         (if cqNamed s q = true then getB t Rg.HIF_CQ_CFG_ENABLE q = true ∧ lastEvent t Ev.HIF_RING_CONFIG 0 0
           else getB t Rg.HIF_CQ_CFG_ENABLE q = false ∧ getCq t q = CqRing.init))) ∧
  (∀ (q : Nat) (enable : Bool) (s : State), q < 64 →
     (sqState s q = sqAwake ∨ sqState s q = sqAsleep → hasTransfer s q = false →
       (∃ t, exec (.sqStop q enable) s = .next t ∧ (getSq t q).queue = [] ∧
         (if enable then sqState t q = sqStopped ∧ getF t Rg.HIF_SQ_CTRL_ENABLE q = getF s Rg.HIF_SQ_CTRL_ENABLE q
           else sqState t q = sqDisabled ∧ getF t Rg.HIF_SQ_CTRL_ENABLE q = 0)) ∧
       ∃ t, exec (.sqDisable q) s = .next t ∧ (getSq t q).queue = [] ∧ sqState t q = sqDisabled ∧
         getF t Rg.HIF_SQ_CTRL_ENABLE q = 0 ∧ ∀ c, c < 64 → getF t Rg.HIF_DMA_CH_OWNER c ≠ q) ∧
     (sqState s q = sqStopped ∨ sqState s q = sqDisabled → exec (.sqStop q enable) s = .next s))

/-- A DMA descriptor that ends, with the host reachable, has read its bytes for the command of the channel served: at most 64 KiB,
and not past the end of a circular buffer. Of a command whose ring stops it was the last: the command ends ABORTED with the bytes
read. A read that fails ends its command DATA_ERROR, counted, with the event of its kind, whichever of the three that is.
Held completions are written, oldest first, as many as the host has freed slots for (the ring's slots lie outside the doorbell
records); the rest stay in their order.
A vector whose time has run out since the first counted entry fires: its count and timer are cleared, and its MSI-X write is
sent, or pends while it is masked or the host cannot be reached; before that time nothing happens. A mask write takes effect;
unmasking sends a delivery that pends, or leaves it pending while the host cannot be reached. -/
def Obligations.TransfersAndVectors : Prop :=
  (∀ (e ch : Nat) (c : Cmd) (s : State), e < 4 → engineNext s e = some ch → channelCmd s ch = some c → findCmd s c.id = some c →
     (hostReachable s = true →
       let n := descriptorLen c
       let a := match c.circ with
         | none => c.addr
         | some (base, size) => base + c.addr % size
       (c.lastDesc = false →
         ∃ t k, exec (.dmaDescriptorDone e) s = .next t ∧ findCmd t c.id = some k ∧ k.left = c.left - n ∧
           k.addr = c.addr + n ∧ k.data = c.data ++ hostRead s a n ∧ t.hif.rr = s.hif.rr.set e ch 63 ∧
           getF t Rg.HIF_DMA_ENGINE_DESCRIPTORS e = min (getF s Rg.HIF_DMA_ENGINE_DESCRIPTORS e + 1)
             (2 ^ Rg.HIF_DMA_ENGINE_DESCRIPTORS.width - 1) ∧
           ChangesOnly [.hif, .regs 3] s t) ∧
       (c.lastDesc = true →
         ∃ t u k, exec (.dmaDescriptorDone e) s = .next t ∧ t = finishStop (complete u k St.aborted k.data.length) c.sq ∧
           findCmd t c.id = none ∧ k.id = c.id ∧ k.sq = c.sq ∧ k.entry = c.entry ∧ k.data = c.data ++ hostRead s a n ∧
           ChangesOnly [.hif, .regs 3] s u)) ∧
     ∀ k : DmaError, ∃ t u, exec (.dmaCompletionTimeout e k) s = .next t ∧ t = finishStop (complete u c St.dataError) c.sq ∧
       findCmd t c.id = none ∧ lastEvent u (if k = .poisoned then Ev.HIF_POISONED else Ev.HIF_CPL_TIMEOUT) 0 0 ∧
       (let f := if k = .poisoned then Rg.HIF_ERR_COUNT_POISONED else Rg.HIF_ERR_COUNT_CPL_TIMEOUT
        getF u f = min (getF s f + 1) (2 ^ f.width - 1)) ∧
       ChangesOnly [.ev, .bgLog, .regs 3, .regs 4] s u) ∧
  (∀ (q : Nat) (stores : List (Nat × List Byte)) (s : State), q < 64 → hostReachable s = true →
     let r := getCq s q
     let depth := 2 ^ getF s Rg.HIF_CQ_CFG_DEPTH_EXP q
     let used := (r.written + 2 ^ 32 - cqHead (hostStores s stores) q) % 2 ^ 32
     let n := min (depth - used) (r.held.length + r.waiting.length)
     (r.held = [] → r.waiting = []) → cqBase s q + 16 * depth ≤ dbrec s ∨ dbrec s + 0x1000 ≤ cqBase s q →
     ∃ t, exec (.cqHeldRelease q stores) s = .next t ∧ (getCq t q).held ++ (getCq t q).waiting = (r.held ++ r.waiting).drop n ∧
       (0 < n → (getCq t q).written = (r.written + n) % 2 ^ 32) ∧ (n = 0 → (getCq t q).written = r.written) ∧
       t.hif.cmds = s.hif.cmds ∧ ∀ k, k ≠ q → getCq t k = getCq s k) ∧
  (∀ (v : Nat) (s : State), v < 256 →
     let x := getVec s v
     let sent (t : State) : Prop := t.wire = s.wire ++ [.msix v x.addr x.data]
     (∀ a, x.timerAt = some a →
       (s.now < a + getF s Rg.HIF_VEC_MOD_TIME_US v * 1000 → exec (.vectorModerationTimeout v) s = .next s) ∧
       (a + getF s Rg.HIF_VEC_MOD_TIME_US v * 1000 ≤ s.now →
         ∃ t, exec (.vectorModerationTimeout v) s = .next t ∧ getF t Rg.HIF_VEC_MOD_PENDING v = 0 ∧
           getVec t v = { x with timerAt := none, pend := x.mask || !hostReachable s } ∧
           (x.mask = true → t.wire = s.wire) ∧ (x.mask = false → hostReachable s = true → sent t))) ∧
     ∀ m, ∃ t, exec (.msixVectorMask v m) s = .next t ∧
       getVec t v = { x with mask := m, pend := x.pend && (m || !hostReachable s) } ∧
       (m = true ∨ x.pend = false → t.wire = s.wire) ∧ (m = false → x.pend = true → hostReachable s = true → sent t))

/-- An access to a BAR0 offset that no register occupies: a read answers 0 and a write is ignored; either raises
HIF_BAR0_UNMAPPED and records the offset in HIF_UNMAPPED_ADDR. Nothing else changes. -/
def Obligations.UnmappedAccess : Prop :=
  ∀ (off : Nat) (write : Bool) (s : State), occupied off = false → off < 2 ^ 26 →
    ∃ t, exec (.bar0UnmappedAccess off write) s = .next t ∧ t.wire = (if write then s.wire else s.wire ++ [.readData off 0]) ∧
      lastEvent t Ev.HIF_BAR0_UNMAPPED (domainOf off) off ∧ getF t Rg.HIF_UNMAPPED_ADDR_OFFSET = off ∧
      getF t Rg.HIF_UNMAPPED_ADDR_VALID = 1 ∧ ChangesOnly [.wire, .ev, .bgLog, .regs 3, .regs 4] s t

/-- An access that the function does not accept. One of bad size or alignment, or to a BAR that is not there: a read is answered
with an Unsupported Request, a write is discarded, and in both cases HIF_BAR_ACCESS is raised. A poisoned write is counted, with
HIF_POISONED; a malformed TLP is answered with an error message of its severity, and HIF_BAR_ACCESS; an unexpected completion is
only logged. All but a missing BAR show in AER.
An access to a register whose domain is not ON: with wake-on-access a domain RETAINED or OFF wakes and the access waits for it,
as it does while the domain is WAKING; otherwise the stand-in responder answers 0xDEAD_0000 plus the domain number, or discards
the write, and PWR_STANDIN_ACCESS is raised. -/
def Obligations.AccessesAnswered : Prop :=
  (∀ (off : Nat) (write : Bool) (s : State), off < 2 ^ 32 →
     (∀ k : BarViolation, k = .size ∨ k = .noBar →
       ∃ t, exec (.barAccessInvalid k off write) s = .next t ∧ t.wire = (if write then s.wire else s.wire ++ [.unsupported off]) ∧
         t.hif = (if k = .size then { s.hif with aer := { s.hif.aer with unsupported := true } } else s.hif) ∧
         lastEvent t Ev.HIF_BAR_ACCESS (domainOf off) off ∧ ChangesOnly [.wire, .hif, .ev, .bgLog, .regs 4] s t) ∧
     (∃ t, exec (.barAccessInvalid .poisonedWrite off write) s = .next t ∧
       t.hif = { s.hif with aer := { s.hif.aer with poisoned := true } } ∧ lastEvent t Ev.HIF_POISONED 0 0 ∧
       getF t Rg.HIF_ERR_COUNT_POISONED = min (getF s Rg.HIF_ERR_COUNT_POISONED + 1) (2 ^ Rg.HIF_ERR_COUNT_POISONED.width - 1) ∧
       ChangesOnly [.hif, .ev, .bgLog, .regs 3, .regs 4] s t) ∧
     (∀ fatal, ∃ t, exec (.barAccessInvalid (.malformed fatal) off write) s = .next t ∧ t.wire = s.wire ++ [.pcieError fatal] ∧
       t.hif = { s.hif with aer := { s.hif.aer with malformed := true } } ∧ lastEvent t Ev.HIF_BAR_ACCESS 0 off ∧
       ChangesOnly [.wire, .hif, .ev, .bgLog, .regs 4] s t) ∧
     exec (.barAccessInvalid .unexpectedCompletion off write) s =
       .next { s with hif := { s.hif with aer := { s.hif.aer with unexpected := true } } }) ∧
  (∀ (off : Nat) (w : Option Nat) (s : State), off % 4 = 0 → off < 0x04000000 → occupied off = true →
     let d := domainOf off
     let wakes : Prop := getB s Rg.PWR_DOMAIN_WAKE_ON_ACCESS d = true ∧ (domainState s d = domRetained ∨ domainState s d = domOff)
     domainState s d ≠ domOn →
     ∃ t, exec (.gatedDomainAccess off w) s = .next t ∧
       (wakes ∨ domainState s d = domWaking →
         domainState t d = domWaking ∧ t.pwr.held = s.pwr.held ++ [⟨d, off, w⟩] ∧ ChangesOnly [.pwr, .regs 2] s t) ∧
       (¬wakes → domainState s d ≠ domWaking →
         t.wire = (if w.isSome then s.wire else s.wire ++ [.readData off (0xDEAD0000 + d)]) ∧
           domainState t d = domainState s d ∧ lastEvent t Ev.PWR_STANDIN_ACCESS d off ∧
           ChangesOnly [.wire, .ev, .bgLog, .regs 2, .regs 4] s t))

/-- A write to a register without behaviour of its own and without a limit on what it stores: RW fields take the value, W1C bits
written as 1 clear, W1S bits written as 1 set, every other bit and every other register is as it was. A read of a register
without behaviour of its own answers the word and clears its RC fields.
An access of 8 bytes does what the two of 4 bytes do, the lower first. A write of 4 bytes in BAR2 is a kick, and a read there
answers 0. A read of the configuration space gives, in word 0, the Device ID 0x8128 above the vendor
identifier, and the class 0x048000.
An access to the BAR4 window where it is not implemented is one to a BAR that is not there; where it is, a read within one code
word whose stack serves answers the bytes of the HBM, and a write of a whole one replaces it. -/
def Obligations.RegistersAccessed : Prop :=
  (∀ (off v : Nat) (r : RegD) (i b : Nat) (s : State), off % 4 = 0 → off < 0x04000000 → ¬(0x00C10000 ≤ off ∧ off < 0x00C11020) →
    findReg regTable off = some (r, i, b) → domainState s (domainOf off) = domOn → v < 2 ^ 32 →
    (systemWrite s r i b off v = none → unitWrite s r i b off v = none → storeLimits.all (fun l => l.1.base != r.base) = true →
      ∃ t, exec (.registerWrite .word off v) s = .next t ∧
        (∀ k, k < 32 → bit (regW t off).toNat k =
          (if bit (accMask r b .rw) k then bit v k
           else if bit (accMask r b .w1c) k then bit (regW s off).toNat k && !bit v k
           else if bit (accMask r b .w1s) k then bit (regW s off).toNat k || bit v k
           else bit (regW s off).toNat k)) ∧
        (∀ o, o ≠ off → regW t o = regW s o) ∧ ChangesOnly [.regs (off / 0x400000)] s t) ∧
    (viewWord s off = none → unitRead s off = none → portBlockOf off = none →
      ∃ t, exec (.rcRegisterRead .word off) s = .next t ∧ t.wire = s.wire ++ [.readData off (regW s off).toNat] ∧
        (∀ k, k < 32 → bit (regW t off).toNat k = (bit (regW s off).toNat k && !bit (accMask r b .rc) k)) ∧
        (∀ o, o ≠ off → regW t o = regW s o) ∧ ChangesOnly [.wire, .regs (off / 0x400000)] s t)) ∧
  (∀ (off v : Nat) (s : State), off % 8 = 0 → off < 0x04000000 →
    (∃ t u, exec (.registerWrite .word off (v % 2 ^ 32)) s = .next t ∧
      exec (.registerWrite .word (off + 4) (v / 2 ^ 32)) t = .next u ∧ exec (.registerWrite .pair off v) s = .next u) ∧
    ∃ t u, exec (.rcRegisterRead .word off) s = .next t ∧ exec (.rcRegisterRead .word (off + 4)) t = .next u ∧
      exec (.rcRegisterRead .pair off) s = .next u) ∧
  (∀ (off v : Nat) (s : State), exec (.registerWrite .page off v) s = exec (.sqDoorbellKick off []) s ∧
    exec (.rcRegisterRead .page off) s = .next { s with wire := s.wire ++ [.readData off 0] } ∧
    ∃ x, exec (.rcRegisterRead .config off) s = .next { s with wire := s.wire ++ [.config off x] } ∧ x < 2 ^ 32 ∧
      (off / 4 = 0 → x / 2 ^ 16 = 0x8128) ∧ (off / 4 = 2 → x / 2 ^ 8 = 0x048000)) ∧
  ∀ (off len wait v : Nat) (s : State),
    (getB s Rg.MEM_BAR4_CTRL_IMPLEMENTED = false →
      exec (.registerWrite (.window len wait) off v) s = exec (.barAccessInvalid .noBar off true) s ∧
      exec (.rcRegisterRead (.window len wait) off) s = exec (.barAccessInvalid .noBar off false) s) ∧
    (getB s Rg.MEM_BAR4_CTRL_IMPLEMENTED = true → off + len ≤ 2 ^ 34 →
      let a := getF s Rg.MEM_BAR4_CTRL_BASE_GIB * 2 ^ 30 + off
      let w := a / 32
      w < 2 * stackWords → stackRuns s (wordStack w) = true → channelDown s w = false → getMerge s (wordStack w) = [] →
      (0 < len → a % 32 + len ≤ 32 → hbmFlips (getHbm s w) = 0 → (getHbm s w).poison = false →
        ∃ t, exec (.rcRegisterRead (.window len wait) off) s = .next t ∧ t.mem.hbm = s.mem.hbm ∧
          t.wire = s.wire ++ [.window off (some ((getHbm s w).data / 256 ^ (a % 32) % 256 ^ len))]) ∧
      (a % 32 = 0 → len = 32 → getB s Rg.ECC_FLIP_CTRL_ARM = false →
        ∃ t, exec (.registerWrite (.window len wait) off v) s = .next t ∧ getHbm t w = ⟨v % 2 ^ 256, 0, 0, false⟩ ∧
          ∀ x, x ≠ w → getHbm t x = getHbm s x))

/-- A Function Level Reset and a hot reset disable every ring, free every DMA channel, mask every vector and clear every
moderation count; the commands in flight stay, with their completions discarded, and no survey or telemetry buffer is registered.
Presentation, streams, projection and switch are as they were. A hot reset also takes the link down; it comes where the units run
and the device is not in WATCH or DORMANT. -/
def Obligations.FunctionResets : Prop :=
  ∀ s : State,
    let done (t : State) : Prop := (∀ q, q < 64 → sqState t q = sqDisabled ∧ getF t Rg.HIF_CQ_CFG_ENABLE q = 0 ∧
        getF t Rg.HIF_DMA_CH_OWNER q = 0xFF ∧ getSq t q = SqRing.init ∧ getCq t q = CqRing.init) ∧
      (∀ v, v < 256 → (getVec t v).mask = true ∧ getF t Rg.HIF_VEC_MOD_PENDING v = 0) ∧
      t.hif.cmds.map (·.id) = s.hif.cmds.map (·.id) ∧ (∀ c ∈ t.hif.cmds, c.discard = true) ∧
      t.ev.surveyBuf = none ∧ t.bg.telemetry = none ∧ t.sht = s.sht ∧ t.scr = s.scr ∧ t.prj = s.prj ∧ t.sw = s.sw ∧ t.tm = s.tm
    (∃ t, exec .functionLevelReset s = .next t ∧ done t ∧ lastEvent t Ev.RST_FLR 0 0 ∧
      ChangesOnly [.hif, .ev, .bgLog, .bg, .regs 3, .regs 4] s t) ∧
    (unitsRun s = true → devState s ≤ 2 → ∃ t, exec .pcieHotReset s = .next t ∧ done t ∧ t.hif.linkUp = false ∧
      ChangesOnly [.hif, .ev, .tmr, .bgLog, .bg, .regs 1, .regs 3, .regs 4, .regs 5] s t)

/-- The link and the device power states of the function. D3hot shows in HIF_STATUS, and every vector's count becomes a PME
request. On return to D0 the PME status is clear and WAKE_N released; with nothing held, the vectors that pend unmasked are sent.
A link that goes down to L1 only shows it; one that leaves L0 otherwise fails every command with data left to read, and is
counted, with HIF_LINK_DOWN; a link that is down stays so. On its return at a speed and width it trains to, HIF_STATUS shows
them and the failed commands have ended; with nothing held, pending or failed, nothing else has changed. Up already, it only leaves
L1. -/
def Obligations.LinkStates : Prop :=
  ∀ s : State,
    (∀ pmeEn, ∃ t, exec (.d3hotEntry pmeEn) s = .next t ∧ getF t Rg.HIF_STATUS_DSTATE = 3 ∧
      (∀ v, v < 256 → getF t Rg.HIF_VEC_MOD_PENDING v = 0) ∧ t.hif.pmeEn = pmeEn ∧
      ((∃ v, v < 256 ∧ getF s Rg.HIF_VEC_MOD_PENDING v ≠ 0) → t.hif.pmeStatus = true ∧ (pmeEn = true → .pme ∈ t.wire))) ∧
    (∃ t, exec .d0Return s = .next t ∧ getF t Rg.HIF_STATUS_DSTATE = 0 ∧ t.hif.pmeStatus = false ∧ t.pins.wakeN = true ∧
      (s.hif.linkUp = true → (∀ q, q < 64 → (getCq s q).held = []) →
        ∀ v, v < 256 → (getVec t v).pend = ((getVec s v).pend && (getVec s v).mask))) ∧
    (s.hif.linkUp = true →
      (∃ t, exec (.pcieLinkDown false) s = .next t ∧ t.hif.linkUp = false ∧
        t.hif.cmds = s.hif.cmds.map (fun c => if 0 < c.left then { c with dmaFailed := true } else c) ∧
        lastEvent t Ev.HIF_LINK_DOWN 0 0 ∧ ChangesOnly [.hif, .ev, .bgLog, .regs 3, .regs 4] s t) ∧
      ∃ t, exec (.pcieLinkDown true) s = .next t ∧ getF t Rg.HIF_STATUS_L1 = 1 ∧ t.hif = s.hif ∧ ChangesOnly [.regs 3] s t) ∧
    (∀ aspm, s.hif.linkUp = false → exec (.pcieLinkDown aspm) s = .next s) ∧
    (∀ speed width, s.hif.linkUp = false → 1 ≤ speed → speed ≤ 5 → width ∈ [1, 2, 4, 8, 16] →
      ∃ t, exec (.pcieLinkReturn speed width) s = .next t ∧ t.hif.linkUp = true ∧ getF t Rg.HIF_STATUS_SPEED = speed ∧
        getF t Rg.HIF_STATUS_WIDTH = width ∧ (∀ c ∈ s.hif.cmds, c.dmaFailed = true → findCmd t c.id = none) ∧
        ((∀ q, q < 64 → (getCq s q).held = []) → (∀ v, v < 256 → (getVec s v).pend = false) →
          (∀ c ∈ s.hif.cmds, c.dmaFailed = false) → t.hif = { s.hif with linkUp := true } ∧ ChangesOnly [.hif, .regs 3] s t)) ∧
    (∀ speed width, s.hif.linkUp = true → ∃ t, exec (.pcieLinkReturn speed width) s = .next t ∧ getF t Rg.HIF_STATUS_L1 = 0 ∧
      t.hif = s.hif ∧ ChangesOnly [.regs 3] s t)

/-! ### Projection -/

/-- FRAME mode. With every waited-for source complete, the composition of a started picture starts, from the sources of that
moment, and with one late it does not; at the latest-start instant it starts whatever is late, with PRJ_SOURCE_LATE if a layer is.
Done, the back canvas holds the composition of the sources latched, every latitude ready, and the front canvas is as it was. Other
views are as they were.
THROUGH mode. Once the rows that every enabled layer that covers a latitude needs for it are there, the latitude is composed: its map
bit is set and its rows stand in the back canvas, each layer read from its rows that are there, a surface from the buffer latched when
the picture began; until then, the back canvas is as it was. The other latitudes and the front canvas are as they were. -/
def Obligations.PicturesComposed : Prop :=
  (∀ (v : Nat) (s : State),
     (mayCompose s v = true → ∃ t, exec (.compositionStart v) s = .next t ∧
       if lateLayers s v = [] then (getView t v).composing = some (latchSources (rebind s v) v).1 ∧
         (getView t v).back = (getView s v).back ∧ (getView t v).front = (getView s v).front ∧ ∀ w, w ≠ v → getView t w = getView s w
       else t = s) ∧
     (∀ b, mayCompose s v = true → nextBoundary s v = some b → reached s (latestBefore b (getView s v).applied) = true →
       ∃ u, exec (.compositionLatestStart v) s = .next (startComposition u v) ∧
         (if lateLayers s v = [] then u = s
           else lastEvent u Ev.PRJ_SOURCE_LATE (v % 65536) ((getView s v).picture % 65536) ∧ ChangesOnly [.ev, .bgLog, .regs 4] s u) ∧
         ((getView (startComposition u v) v).composing).isSome = true) ∧
     (∀ srcs, (getView s v).composing = some srcs → (getView s v).applied.through = false → composerOn s = true →
       ∃ t, exec (.compositionDone v) s = .next t ∧
         getView t v = { getView s v with
           back := ⟨composeCanvas (getView s v).applied s.prj.coef srcs, allReady (getView s v).applied.h⟩, composing := none,
           backDone := true } ∧
         (∀ w, w ≠ v → getView t w = getView s w) ∧ ChangesOnly [.prj] s t)) ∧
  (∀ (v lat : Nat) (s : State),
     let x := getView s v
     let p := x.applied
     let covers (d : List Byte) : Prop := lDstY d < (16 * lat + 16 : Nat) ∧ ((16 * lat : Nat) : Int) < lDstY d + lDstH d
     x.started = true → p.through = true → viewOn p = true → lat < latitudes p.h → composerOn s = true →
     x.back.map.getD lat true = false → x.back.rows.length = p.h → (∀ l, x.composing = some l → l.length = p.layers.length) →
     ∃ t, exec (.latitudeCompose v lat) s = .next t ∧ (getView t v).front = x.front ∧ (∀ w, w ≠ v → getView t w = getView s w) ∧
       ((∃ q ∈ p.layers.zipIdx, layerEnabled q.1 = true ∧ covers q.1 ∧ throughSource (rebind s v) v lat q.2 q.1 = none) →
         (getView t v).back = x.back) ∧
       ((∀ q ∈ p.layers.zipIdx, layerEnabled q.1 = true → covers q.1 → throughSource (rebind s v) v lat q.2 q.1 ≠ none) →
         ∃ srcs : List LayerSource, (getView t v).back.map = x.back.map.set lat true ∧
           (∀ y, y < p.h → (getView t v).back.rows.getD y [] =
             if y / 16 = lat then composeRow p s.prj.coef srcs y else x.back.rows.getD y []) ∧
           ∀ q ∈ p.layers.zipIdx,
             (lType q.1 = 2 → srcs.getD q.2 .empty = ((getView t v).composing.getD []).getD q.2 .empty) ∧
             (lType q.1 ≠ 2 → layerEnabled q.1 = true → covers q.1 →
               some (srcs.getD q.2 .empty) = throughSource (rebind s v) v lat q.2 q.1)))

/-- Sheet output of the oldest picture of a sheet with every latitude of its region ready and its domains on: a raw sheet's picture,
framed as far as staged, is framed whole and done with; a Contour sheet's rows are all in its input buffer and marked, and the sheet
is ready for a core if none has it. With what the next band needs not ready, or a domain off, nothing changes. Once the emission
instants of a picture's units up to one have come, a raw sheet's units up to that one have gone, the picture late; a Contour sheet's
rows up to that unit's last are coded. -/
def Obligations.SheetsOutput : Prop :=
  ∀ (n : Nat) (pic : SheetPic) (rest : List SheetPic) (s : State), s.prj.sheets.get n [] = pic :: rest →
    let e := pic.entry
    let ready (l : List Nat) : Prop := (∀ x ∈ l, (cutFrom s pic).map.getD x false = true) ∧
      domainOn s (31 + gLane e) = true ∧ domainOn s 35 = true
    (pic.bands < gCellRows e → ¬ ready (bandNeeds e pic.bands) → exec (.sheetOutputStart n) s = .next s) ∧
    (pic.bands < gCellRows e → (∀ j, j < gCellRows e → ready (bandNeeds e j)) →
      ∃ t, exec (.sheetOutputStart n) s = .next t ∧ (∀ m, m ≠ n → t.prj.sheets.get m [] = s.prj.sheets.get m []) ∧
        (gContour e = false → pic.sent = pic.bands → t.prj.sheets.get n [] = rest) ∧
        (gContour e = true → ∃ out, t.prj.sheets.get n [] = out :: rest ∧ out.bands = gCellRows e ∧ out.entry = e ∧
          out.rows.length = pic.rows.length + (gH e - 16 * pic.bands) ∧
          (coreOf s (true, n) = none → n ∈ t.scr.readySheets))) ∧
    (∀ j, j < gUnits e → (∀ i, i ≤ j → reached s (unitInstant s pic i) = true) →
      (gContour e = false → pic.sent ≤ j → (∀ p, rest.head? = some p → reached s (unitInstant s p p.sent) = false) →
        ∃ t, exec (.unitEmissionInstant n j) s = .next t ∧ (∀ m, m ≠ n → t.prj.sheets.get m [] = s.prj.sheets.get m []) ∧
          if j + 1 = gUnits e then t.prj.sheets.get n [] = rest
          else ∃ out, t.prj.sheets.get n [] = out :: rest ∧ out.sent = j + 1 ∧ out.late = true ∧ out.entry = e) ∧
      (gContour e = true → (∀ i, i < gCellRows e → reached s (markInstant s pic i) = true) →
        (∀ r, (getEnc s n).run = some r → r.hdr.cellRows = gCellRows e ∧ r.hdr.sliceRows = max 1 (gSliceRows e)) →
        ∃ t, exec (.unitEmissionInstant n j) s = .next t ∧ (∀ m, m ≠ n → getEnc t m = getEnc s m) ∧
          ((getEnc t n).run = none ∨
            ∃ r, (getEnc t n).run = some r ∧ min ((j + 1) * max 1 (gSliceRows e)) (gCellRows e) ≤ r.row)))

/-- A write of PRJ_COEF_DATA with bank 5 selected sets its coefficient while no layer uses the host bank; while one does it is
ignored with PRJ_COEF_BUSY; another bank selected, or at a place that holds no coefficient, it is ignored.
The core that has a sheet's picture codes its next row, once that is marked, or late, or the picture is closed early: the picture goes
on with the row after, or is done with after its last, and the core is free. A poisoned read of the row closes the picture early.
Otherwise the core waits. A refresh request is kept for every enabled Contour sheet that it names, and makes no other change. -/
def Obligations.BankWrittenRowsCoded : Prop :=
  (∀ (i value : Nat) (s : State), ∃ t, exec (.prjCoefWrite i value) s = .next t ∧
       (if 1024 ≤ i ∨ 512 ≤ i ∧ 6 ≤ i % 8 ∨ getF s Rg.PRJ_COEF_SEL_BANK ≠ 5 then t = s
        else if hostBankUsed s = true then lastEvent t Ev.PRJ_COEF_BUSY 0 0 ∧ ChangesOnly [.ev, .bgLog, .regs 4] s t
        else t.prj.coef.get i 0 = value % 4096 ∧ (∀ k, k ≠ i → t.prj.coef.get k 0 = s.prj.coef.get k 0) ∧ ChangesOnly [.prj] s t)) ∧
  (∀ (n c : Nat) (poisoned : Bool) (pic : SheetPic) (r : EncRun) (s : State), coreOf s (true, n) = some c →
     coreState s c = coreEncode ∨ coreState s c = coreWait → domainOn s (6 + c) = true →
     headPic s n = some pic → (getEnc s n).run = some r → r.row < r.hdr.cellRows →
     ∃ t, exec (.cellRowCode n poisoned) s = .next t ∧
       if r.early = true ∨ r.row < pic.bands ∨ reached s (markInstant s pic r.row) = true then
         if r.row + 1 < r.hdr.cellRows then ∃ u, (getEnc t n).run = some u ∧ u.row = r.row + 1 ∧ u.hdr = r.hdr ∧
           (poisoned = true → r.row < pic.bands → u.early = true)
         else (getEnc t n).run = none ∧ (getCore t c).job = none
       else getEnc t n = getEnc s n ∧ coreState t c = coreWait ∧ ChangesOnly [.regs 6] s t) ∧
  (∀ (n : Nat) (all : Bool) (s : State),
     ∃ t, exec (.encRefresh n all) s = .next t ∧ ChangesOnly [.enc] s t ∧
       ∀ m, getEnc t m = (if (if all then s.prj.gzt.any (·.1 == m) else m == n) && gEnabled (gztEntry s m) && gContour (gztEntry s m) then
           { getEnc s m with refresh := true } else getEnc s m))
/-! ### Streams and decoding -/

/-- A valid packet of a stream, with room for it. One that is next in order, the window empty, is taken: the next key follows it.
One ahead of a gap waits in the window under its key. One that comes late, or whose key is in the window, is dropped and counted; the
64th late one in a row resynchronises the stream to itself. One that has no room in the input buffer is dropped and
counted, with SCR_INPUT_OVERFLOW; one that is not valid for the stream with SCR_RTP_INVALID; one for a stream that is closed or fed
by the host, or too large, only counted. Other streams are as they were. While the shared block is off nothing happens. -/
def Obligations.PacketsReordered : Prop :=
  ∀ (n : Nat) (b : List Byte) (s : State),
    let x := getStream s n
    let key := packetKey s n b
    let room : Prop := oFormat x.opened = f2110 ∨ heldBytes x + (rtpPayload b).length ≤ inputBuffer x.opened
    let drops : Nat := getF s Rg.SCR_INTAKE_DROP_DROPPED
    let others (t : State) : Prop := ∀ m, m ≠ n → getStream t m = getStream s m
    let counted (t : State) : Prop := others t ∧ (drops < 2 ^ 32 - 1 → getF t Rg.SCR_INTAKE_DROP_DROPPED = drops + 1)
    let taken (t : State) : Prop := others t ∧ (getStream t n).nextKey = some (keyNext x key) ∧ (getStream t n).window = []
    let told (t : State) (ev : Nat) : Prop := t.ev.log.getLast?.map (fun r => (r.source, r.param)) = some (ev, n % 65536)
    (domainOn s 30 = false → exec (.streamPacketReceive n b) s = .next s) ∧
    (domainOn s 30 = true → validPacket s n b →
      ((x.nextKey = none ∨ x.nextKey = some key) → x.window = [] → room → allCells s < 32256 →
        ∃ t, exec (.streamPacketReceive n b) s = .next t ∧ taken t) ∧
      (∀ k, x.nextKey = some k → 0 < keyDiff x key k → keyDiff x key k < 512 → x.window.get k none = none →
        x.window.get key none = none → room → oReorder x.opened ≠ 0 →
        allCells (setStream s n { x with window := x.window.set key (some (packetOf s b)) none }) < 32256 →
        ∃ t, exec (.streamPacketReceive n b) s = .next t ∧ (getStream t n).window = x.window.set key (some (packetOf s b)) none ∧
          (getStream t n).nextKey = some k ∧ others t) ∧
      (∀ k, x.nextKey = some k → (keyDiff x key k < 0 ∧ x.behind + 1 < 64) ∨ (0 ≤ keyDiff x key k ∧ (x.window.get key none).isSome = true) →
        ∃ t, exec (.streamPacketReceive n b) s = .next t ∧ counted t ∧
          getStream t n = { x with behind := if keyDiff x key k < 0 then x.behind + 1 else 0 }) ∧
      (∀ k, x.nextKey = some k → keyDiff x key k < 0 → 64 ≤ x.behind + 1 → x.window = [] → allCells s < 32256 →
        ∃ t, exec (.streamPacketReceive n b) s = .next t ∧ taken t ∧ (getStream t n).behind = 0) ∧
      (x.window.get key none = none → (∀ k, x.nextKey = some k → 0 ≤ keyDiff x key k) → ¬ room →
        ∃ t, exec (.streamPacketReceive n b) s = .next t ∧ counted t ∧ told t Ev.SCR_INPUT_OVERFLOW ∧
          getStream t n = { x with behind := 0 })) ∧
    (domainOn s 30 = true → ¬ validPacket s n b →
      ∃ t, exec (.streamPacketReceive n b) s = .next t ∧ counted t ∧ getStream t n = x ∧
        if x.state = stClosed ∨ x.state = stClosing ∨ oHost x.opened = true ∨ datagramOk x.opened b = false then
          ChangesOnly [.regs 6] s t
        else told t Ev.SCR_RTP_INVALID)

/-- At the reorder time of a gap, the missing packets up to the first that waits are counted lost, and that one is taken; before it
nothing changes. A band of an ST 2110-20 picture whose rows are all in, or that can get no more, is committed, concealed where
pixel groups are lost, and the luma of those that arrived stands; the last band ends the picture, which is delivered unless the
stream, not yet running, has lost some of it. A band that may still get rows waits. -/
def Obligations.GapsAndBands : Prop :=
  (∀ (n k m a : Nat) (s : State),
    let x := getStream s n
    x.gapAt = some a → x.nextKey = some k →
    (s.now < a + 1000 * oReorder x.opened → exec (.reorderTimeout n) s = .next s) ∧
    (a + 1000 * oReorder x.opened ≤ s.now → firstKey x k = some m → 0 < keyDiff x m k →
      ∃ t, exec (.reorderTimeout n) s = .next t ∧ (getStream t n).packetsLost = min 65535 (x.packetsLost + (keyDiff x m k).toNat) ∧
        (getStream t n).window.get m none = none ∧ (∀ p, x.window = [(m, some p)] → (getStream t n).nextKey = some (keyNext x m)) ∧
        ∀ i, i ≠ n → getStream t i = getStream s i)) ∧
  (∀ (n : Nat) (r : Raster) (s : State),
    let x := getStream s n
    let hi := min (r.committed + 16) (oMaxH x.opened)
    let full := (rangeFrom r.committed (hi - r.committed)).all (rowFull x.opened r)
    let ends : Prop := full = true ∨ r.closed = true ∨ r.lost = true ∧ hi ≤ r.topRow
    let luma (p : Planes) (y i : Nat) : Nat := ((p.getD 0 []).getD y []).getD i 0
    x.raster = some r →
    (¬ ends → exec (.st2110BandCommit n) s = .next s) ∧
    (ends → ∃ t, exec (.st2110BandCommit n) s = .next t ∧
      (getStream t n).slicesLost = (if full then x.slicesLost else min 65535 (x.slicesLost + 1)) ∧
      (if hi = oMaxH x.opened then
        (getStream t n).raster = none ∧ (getStream t n).pictures = if x.state = stSyncing ∧ (r.lost = true ∨ full = false) then x.pictures
          else x.pictures + 1
      else ∃ u, (getStream t n).raster = some u ∧ u.committed = hi ∧ u.lost = (r.lost || !full) ∧ (full = true → u.planes = r.planes) ∧
        ∀ y i, groupIn x.opened r y (i / groupAcross (oChroma x.opened) (oMaxDepth x.opened)) = true →
          luma u.planes y i = luma r.planes y i) ∧
      ∀ i, i ≠ n → getStream t i = getStream s i))

/-- A core that is ready is given the picture chosen; one of another stream or sheet than its last needs a context switch, which
ends after its time with the core encoding or decoding, and the context the one used last; one of the same begins at once. A Contour
picture whose header holds and fits the stream has its header then; another is given up, and the core is free. With no
picture to choose only late ones are dropped. SCR_CORE_ENABLE takes the value written. -/
def Obligations.PicturesDispatched : Prop :=
  let begun (s t : State) (c : Nat) (sheet : Bool) (n : Nat) : Prop :=
    (sheet = true → coreState t c = coreEncode ∧ (getCore t c).job = some (true, n) ∧
      (∀ p, headPic s n = some p → (getEnc t n).run.isSome = true)) ∧
    (∀ j, sheet = false → (getStream s n).job = some j → j.core = c →
      let e := (getStream s n).opened
      let runs : Prop := coreState t c = coreDecode ∧
        (getStream t n).state = if (getStream s n).state = stSyncing then stRunning else (getStream s n).state
      (oFormat e = fHevc → runs ∧ ∃ k, (getStream t n).job = some k ∧ k.au = j.au ∧ k.start = auIntra (getStream s n) j.au ∧
        k.mode = (getStream s n).mode ∧ k.freeze = (getStream s n).freeze ∧ k.hashStrict = (getStream s n).hashStrict) ∧
      (oFormat e ≠ fHevc →
        (∀ h, auHeaderOk (getStream s n) j.au = true → auHeader j.au = .ok h → h.w ≤ oMaxW e → h.h ≤ oMaxH e → h.depth ≤ oMaxDepth e →
          (if h.c422 then 1 else 2) ≤ oChroma e →
          runs ∧ ∃ k, (getStream t n).job = some k ∧ k.au = j.au ∧ k.hdr = some h ∧ k.rec_ = h.blank ∧ k.start = (h.ptype == 0)) ∧
        (auHeaderOk (getStream s n) j.au = false ∨ (∀ h, auHeader j.au = .ok h →
            oMaxW e < h.w ∨ oMaxH e < h.h ∨ oMaxDepth e < h.depth ∨ oChroma e < (if h.c422 then 1 else 2)) →
          (getStream t n).job = none ∧ (getCore t c).job = none ∧ coreState t c = coreIdle)))
  (∀ (c : Nat) (s : State), coreReady s c →
    (chooseJob (pruned s) = none → exec (.dispatchPicture c) s = .next (pruned s)) ∧
    (∀ sheet n, chooseJob (pruned s) = some (sheet, n) → n < 4096 →
      (sheet = false → (readyUnit (getStream (pruned s) n)).isSome = true) →
      ((getCore s c).last ≠ some (sheet, n) →
        ∃ t, exec (.dispatchPicture c) s = .next t ∧ (getCore t c).job = some (sheet, n) ∧ (getCore t c).since = s.now ∧
          coreState t c = coreSwitch ∧ getB t Rg.SCR_CORE_STATUS_SHEET c = sheet ∧ getF t Rg.SCR_CORE_STATUS_ID c = n ∧
          (sheet = false → ∃ j, (getStream t n).job = some j ∧ j.core = c ∧ readyUnit (getStream (pruned s) n) = some j.au) ∧
          ∀ d, d ≠ c → (getCore t d).job = (getCore s d).job ∧ (getCore t d).last = (getCore s d).last) ∧
      ((getCore s c).last = some (sheet, n) →
        ∃ u t, exec (.dispatchPicture c) s = .next t ∧ begun u t c sheet n ∧ ChangesOnly [.scr, .regs 6, .regs 7] (pruned s) u ∧
          (sheet = false → ∃ j, j.core = c ∧ readyUnit (getStream (pruned s) n) = some j.au ∧ getStream u n =
            { getStream (pruned s) n with job := some j, aus := (getStream (pruned s) n).aus.drop 1 })))) ∧
  (∀ (c n : Nat) (sheet : Bool) (s : State), c < 24 → (getCore s c).job = some (sheet, n) → coreState s c = coreSwitch →
    let done := elapsed s (getCore s c).since (if s.scr.cache.contains (sheet, n) then 4000 else 12000)
    (done = false → exec (.contextSwitchDone c) s = .next s) ∧
    (done = true → ∃ t, exec (.contextSwitchDone c) s = .next t ∧ begun s t c sheet n ∧ t.scr.cache.getLast? = some (sheet, n))) ∧
  (∀ (v : Nat) (s : State), ∃ t, exec (.coreEnableWrite v) s = .next t ∧ getF t Rg.SCR_CORE_ENABLE_ENABLE = v % 2 ^ 24 ∧
    (∀ o, o ≠ fldAddr Rg.SCR_CORE_ENABLE_ENABLE 0 → regW t o = regW s o) ∧ ChangesOnly [.regs 6] s t)

/-- The next slice of a Contour picture, all its bytes in and none lost before it: with a good CRC that decodes, its rows are
committed as decoded; with a bad CRC, undecodable, or with bytes that can come no more, they are lost: replaced, committed, and the
picture marked. A slice not yet in leaves the core waiting; one whose header does not hold is passed over, with SCR_SLICE_ERROR; bytes
after the last whole slice are told once. A whole HEVC slice segment that passes commits the rows that H.265 decoding gave, those
that concealment set left as they are, its absent references with their substitutes; one that does not pass loses its rows; one beyond
the stream's limits ends the picture. -/
def Obligations.SlicesDecoded : Prop :=
  (∀ (c n : Nat) (hevc : Option HevcSlice) (j : Job) (h : PicHdr) (s : State), c < 24 → decodes s c n j →
    (coreState s c = coreDecode ∨ coreState s c = coreWait) → j.hdr = some h →
    let x := getStream s n
    let b := j.au.data.drop j.next
    (auEnd j.au < j.next + 12 → ∃ t, exec (.sliceDecodeDone c hevc) s = .next t ∧ (getStream t n).job = some { j with
      tail := j.tail || (j.au.whole && decide (j.next < max (auEnd j.au) j.au.data.length)) }) ∧
    (j.next + 12 ≤ auEnd j.au → rangeIn j.au j.next (j.next + 12) = true →
      (checkSlice h b j.lastSlice (auEnd j.au - j.next) = none →
        ∃ t k, exec (.sliceDecodeDone c hevc) s = .next t ∧ (getStream t n).job = some { j with next := k } ∧ j.next < k) ∧
      ∀ sl, checkSlice h b j.lastSlice (auEnd j.au - j.next) = some sl →
      let hi := min h.h (16 * (sl.firstRow + sl.rows))
      let here := rangeIn j.au j.next (j.next + sl.length)
      let out := decodeSlice h x.prev x.anchor sl b ⟨j.rec_, j.readPrev, j.readAnchor, j.missing⟩
      (min (16 * sl.firstRow) h.h ≤ j.rows → j.rows < hi →
        (∀ r, here = true → sliceCrcOk sl b = true → out = some r →
          ∃ t, exec (.sliceDecodeDone c hevc) s = .next t ∧ (getStream t n).job = some { j with
            next := j.next + sl.length, lastSlice := some sl.index, rec_ := r.planes, readPrev := r.readPrev,
            readAnchor := r.readAnchor, missing := r.missing, rows := hi, committed := hi }) ∧
        (here = true ∧ (sliceCrcOk sl b = false ∨ out = none) ∨ here = false ∧ j.au.whole = true →
          ∃ t k, exec (.sliceDecodeDone c hevc) s = .next t ∧ (getStream t n).job = some k ∧ k.lost = true ∧ k.rows = hi ∧
            k.committed = hi ∧ (getStream t n).concealed = true ∧ (getStream t n).slicesLost = min 65535 (x.slicesLost + 1))) ∧
      (j.au.whole = false → here = false →
        ∃ t, exec (.sliceDecodeDone c hevc) s = .next t ∧ coreState t c = coreWait ∧ t.scr = s.scr))) ∧
  (∀ (c n : Nat) (r : HevcSlice) (j : Job) (s : State), c < 24 → decodes s c n j →
    (coreState s c = coreDecode ∨ coreState s c = coreWait) → j.hdr = none → oFormat (getStream s n).opened = fHevc →
    let x := getStream s n
    let segments := j.au.nals.filter fun p => p.1.isEmpty || nalVcl p.1
    (segments[j.next]? = none → j.au.whole = false →
      ∃ t, exec (.sliceDecodeDone c (some r)) s = .next t ∧ coreState t c = coreWait ∧ t.scr = s.scr) ∧
    (∀ nal, segments[j.next]? = some nal → nal.2 = true ∨ nal.1 = [] ∨ j.au.whole = true →
      let hi := if r.last then r.h else min r.through r.h
      let passes := segmentPasses j nal.2 r
      let luma (p : Planes) (y : Nat) : List Nat := (p.getD 0 []).getD y []
      let hidden (y : Nat) : Bool := j.hidden.any fun q => decide (q.1 ≤ y) && decide (y < q.2)
      (r.limit = true → ∃ t, exec (.sliceDecodeDone c (some r)) s = .next t ∧ (getStream t n).job = none ∧ (getCore t c).job = none) ∧
      (r.limit = false → ∃ t k, exec (.sliceDecodeDone c (some r)) s = .next t ∧ coreState t c = coreDecode ∧
        (getStream t n).job = some k ∧ k.next = j.next + 1 ∧ k.sliceOk = passes ∧
        (∀ p ∈ r.refs, (getStream t n).dpb.any (·.1 == p) = true) ∧
        k.missing = (j.missing || r.refs.any fun p => !x.dpb.any fun q => q.1 == p) ∧
        (passes = true → k.lost = j.lost ∧ k.rows = (if r.last then r.h else max j.rows hi) ∧
          ∀ y, y < ((hevcPlanes r).getD 0 []).length → luma k.rec_ y =
            if hidden y = true ∧ y < (j.rec_.getD 0 []).length then luma j.rec_ y else luma (hevcPlanes r) y) ∧
        (passes = false → k.rows = max j.rows hi ∧ (j.rows < hi → k.lost = true ∧ (getStream t n).concealed = true ∧
          (getStream t n).slicesLost = min 65535 (x.slicesLost + 1))))))

/-- A picture all of whose rows are in ends: its core is free, its Contour reference slots update, an HEVC picture stands in the decoded
picture buffer, and a Contour picture is delivered; of a stream that has returned to SYNCING it changes no slot and is not delivered.
At its deadline a picture for which nothing more comes is concealed, ends in the same way and is delivered; one still coming in is cut
off there, its last packet counted lost. With no picture on a core or coming in, a running stream's expected one is a miss at its deadline. -/
def Obligations.PicturesEnd : Prop :=
  (∀ (c n : Nat) (j : Job) (s : State), c < 24 → decodes s c n j →
    let x := getStream s n
    let ended (t : State) : Prop := (getStream t n).job = none ∧ (getCore t c).job = none ∧ (getCore t c).last = some (false, n) ∧
      coreState t c = coreIdle
    let goesOn : Prop := x.closing = none ∧ x.eos = false
    (∀ e, pictureWhole j = true → coreState s c ≠ coreSwitch →
      ∃ t, exec (.pictureDecodeDone c e) s = .next t ∧ ended t ∧
        (∀ h, j.hdr = some h → goesOn → j.orphan = false → (getStream t n).pictures = x.pictures + 1 ∧
          (getStream t n).lastDecoded = some (toSlot h j.rec_) ∧
          (getStream t n).prev = (if h.isRef then some (toSlot h j.rec_) else x.prev) ∧
          (getStream t n).anchor = (if h.anchorLoad then some (toSlot h j.rec_) else x.anchor)) ∧
        (∀ o, e = some o → j.hdr = none → goesOn → j.orphan = false → (getStream t n).lastDecoded = some { j.pic with planes := j.rec_ } ∧
          (o.poc, { j.pic with planes := j.rec_ }) ∈ (getStream t n).dpb) ∧
        (goesOn → j.orphan = true → (getStream t n).pictures = x.pictures ∧ (getStream t n).prev = x.prev ∧
          (getStream t n).anchor = x.anchor ∧ (getStream t n).dpb = x.dpb)) ∧
    (reached s j.deadline = false → exec (.pictureDeadline n) s = .next s) ∧
    (reached s j.deadline = true → x.window = [] →
      (stalled s j = false → exec (.pictureDeadline n) s = .next s) ∧
      (stalled s j = true → ∃ t, exec (.pictureDeadline n) s = .next t ∧ ended t ∧
        (goesOn → j.orphan = false → jobHeight j ≠ 0 → (getStream t n).pictures = x.pictures + 1)))) ∧
  (∀ (n d : Nat) (s : State),
    let x := getStream s n
    x.job = none → x.window = [] → inputDeadline s n = some d →
    (∀ ts, openTs x = some ts →
      (reached s d = false → exec (.pictureDeadline n) s = .next s) ∧
      (reached s d = true → oMaxH x.opened ≤ 16384 →
        ∃ t, exec (.pictureDeadline n) s = .next t ∧ (getStream t n).packetsLost = min 65535 (x.packetsLost + 1) ∧
          (∀ a, x.asm = some a → (getStream t n).aus.length = x.aus.length + 1 ∧ (getStream t n).asm.any (·.dead) = true) ∧
          (x.asm = none → (getStream t n).raster = none) ∧ ∀ m, m ≠ n → getStream t m = getStream s m))) ∧
  (∀ (n t0 : Nat) (s : State),
    let x := getStream s n
    x.job = none → x.asm = none → x.raster = none → x.expected = some t0 → x.state = stRunning → x.aus = [] →
    reached s (pictureDeadline s n t0 t0) = true →
    ∃ t, exec (.pictureDeadline n) s = .next t ∧ (getStream t n).deadlineMiss = min 65535 (x.deadlineMiss + 1) ∧
      (getStream t n).misses = x.misses + 1 ∧ (getStream t n).expected = some ((t0 + oPeriod x.opened) % 2 ^ 32) ∧
      ∀ m, m ≠ n → getStream t m = getStream s m)

/-! ### Sheet transport -/

/-- Replies of cabinets at a port that is up (R180, R181, R183, R197). The first response of a position to a running roll-call stores
the cabinet's record and, with valid stamps, the delay worked out from it unless LOCK is set; a ping that moves the delay by more than
50 ns is told; a record out of range and an impossible delay are reported. A second response, or one from another hop, discards the
position's. A CAL_ACK that matches the push ends its command, OK where its CRC is right and DATA_ERROR where not. Every other reply is
counted and reported; a frame of a downstream type at most once in a second. A loss report is counted once per sheet and picture,
reported, and refreshes a Contour sheet with NACK_REFRESH at most once in 8 pictures.
The end of a window ends the roll-call, and its command with the sixteen records in host memory; a calibration block not acknowledged
in a second ends as DATA_ERROR, with its event; a ping that is due, where the Compass's services run, starts a roll-call of kind PING on
every enabled port that has none. Before those times nothing changes. -/
def Obligations.RepliesTaken : Prop :=
  (∀ (p : Nat) (b : List Byte) (s : State), p < 128 → portUp s p = true →
    let rcd := (hPayload b).take 64
    let h := cabPosition rcd
    let k := 16 * p + h
    let counted (t : State) : Prop :=
      getF t Rg.SHT_NACK_COUNT_REPLY_INVALID = min (getF s Rg.SHT_NACK_COUNT_REPLY_INVALID + 1) 65535
    let dropped : Prop := ∃ t, exec (.rollcallRspReceive p b) s = .next t ∧ counted t ∧ lastEvent t Ev.SHT_REPLY_INVALID p (hHop b)
    (hVersion b ≠ 1 → dropped) ∧
    (hVersion b = 1 → hType b ≠ ftRollcallRsp → hType b ≠ ftNack → 5 < hType b → dropped) ∧
    (hVersion b = 1 → hType b ≠ ftRollcallRsp → hType b ≠ ftNack → hType b ≤ 5 →
      ∃ t, exec (.rollcallRspReceive p b) s = .next t ∧ counted t ∧
        if oncePerSecond s (s.sht.loopAt.get p none) then lastEvent t Ev.SHT_REPLY_INVALID p (hHop b) else t.ev = s.ev) ∧
    (hVersion b = 1 → hType b = ftRollcallRsp → cabKind rcd = 2 →
      (getPush s p = none → dropped) ∧
      ∀ x, getPush s p = some x →
        (hHop b ≠ x.hop ∨ h ≠ x.hop ∨ hPicture b ≠ x.block → dropped) ∧
        (hHop b = x.hop → h = x.hop → hPicture b = x.block → ∀ c, findCmd s x.cmd = some c →
          exec (.rollcallRspReceive p b) s = .next (complete (setPush s p none) c
            (if beAt rcd 44 4 = x.crc ∧ beAt rcd 48 1 = 0 then St.ok else St.dataError)))) ∧
    (hVersion b = 1 → hType b = ftRollcallRsp → cabKind rcd ≠ 2 →
      (getRollcall s p = none → dropped) ∧
      ∀ r, getRollcall s p = some r →
        (hPicture b ≠ r.req ∨ 15 < h → dropped) ∧
        (hPicture b = r.req → h ≤ 15 → h ≠ hHop b ∨ h ∈ r.bad ∨ r.rsps.get h [] ≠ [] →
          ∃ t u, exec (.rollcallRspReceive p b) s = .next t ∧ getRollcall t p = some u ∧ u.rsps = r.rsps.erase h ∧ h ∈ u.bad ∧
            counted t ∧ lastEvent t Ev.SHT_REPLY_INVALID p h ∧
            ∀ w rec, r.old.get h none = some (w, rec) → hopRecord t p h = rec ∧ getF t Rg.SHT_HOP_DELAY_DELAY_NS k = w % 2 ^ 24 ∧
              getF t Rg.SHT_HOP_DELAY_VALID k = w / 2 ^ 31 % 2) ∧
        (hPicture b = r.req → h ≤ 15 → hHop b = h → h ∉ r.bad → r.rsps.get h [] = [] →
          ∃ t u, exec (.rollcallRspReceive p b) s = .next t ∧ hopRecord t p h = rcd ∧ getRollcall t p = some u ∧
            u.rsps = r.rsps.insert h rcd ∧ u.lastAt = some s.now ∧ u.cmd = r.cmd ∧
            (∀ i, i ≠ k → t.sht.recs.get i [] = s.sht.recs.get i []) ∧
            (recordInRange rcd = false → lastEvent t Ev.SHT_REPLY_INVALID p h) ∧
            ∀ t1, r.t1 = some t1 → stampsValid s p = true →
              (hopTime t1 (ingressStamp s p) (cabTurnaround rcd) = none → lastEvent t Ev.SHT_REPLY_INVALID p h) ∧
              ∀ d, hopTime t1 (ingressStamp s p) (cabTurnaround rcd) = some d →
                let old := getF s Rg.SHT_HOP_DELAY_DELAY_NS k
                if getB s Rg.SHT_HOP_DELAY_LOCK k then getF t Rg.SHT_HOP_DELAY_DELAY_NS k = old
                else getF t Rg.SHT_HOP_DELAY_DELAY_NS k = d ∧ getF t Rg.SHT_HOP_DELAY_VALID k = 1 ∧
                  (r.kind = 1 → getB s Rg.SHT_HOP_DELAY_VALID k = true → old + 50 < d ∨ d + 50 < old → recordInRange rcd = true →
                    lastEvent t Ev.SHT_DELAY_CHANGED p h))) ∧
    (hVersion b = 1 → hType b = ftNack →
      let n := hSheet b
      let e := gztEntry s n
      let key := (n, reportedPicture s b)
      (key ∈ s.sht.nacks → exec (.nackReportReceive p b) s = .next s ∧ exec (.rollcallRspReceive p b) s = .next s) ∧
      (key ∉ s.sht.nacks → ∃ t, exec (.nackReportReceive p b) s = .next t ∧ exec (.rollcallRspReceive p b) s = .next t ∧
        key ∈ t.sht.nacks ∧ getF t Rg.SHT_NACK_COUNT_NACKS = min (getF s Rg.SHT_NACK_COUNT_NACKS + 1) 65535 ∧
        (sheetReported s p b = false → lastEvent t Ev.SHT_REPLY_INVALID p (hHop b) ∧ t.enc = s.enc) ∧
        (sheetReported s p b = true → lastEvent t Ev.SHT_NACK n (hPicture b + 65536 * hView b) ∧
          (gContour e = true → getB s Rg.SHT_CTRL_NACK_REFRESH = true →
            (∀ o, s.sht.nackRefresh.get n none = some o → o + 8 ≤ (getView s (gView e)).picture ∨ (getView s (gView e)).picture < o) →
            (getEnc t n).refresh = true ∧ t.sht.nackRefresh.get n none = some (getView s (gView e)).picture))))) ∧
  (∀ (p : Nat) (b : List Byte) (s : State), ¬ (p < 128 ∧ portUp s p = true) →
    exec (.rollcallRspReceive p b) s = .next s ∧ exec (.nackReportReceive p b) s = .next s) ∧
  (∀ (p : Nat) (r : RollCall) (s : State), getRollcall s p = some r →
    (windowOver s r = false → exec (.rollcallWindowEnd p) s = .next s) ∧
    (windowOver s r = true →
      (r.cmd = none ∨ (∃ id, r.cmd = some id ∧ findCmd s id = none) →
        ∃ t, exec (.rollcallWindowEnd p) s = .next t ∧ getRollcall t p = none) ∧
      (∀ id c, r.cmd = some id → findCmd s id = some c → (∀ h, (r.rsps.get h []).length ≤ 64) →
        ∃ t, exec (.rollcallWindowEnd p) s = .next (complete t c St.ok r.rsps.length) ∧ getRollcall t p = none ∧
          lastEvent t Ev.SHT_ROLLCALL_DONE p 0 ∧ hostRead t (eAddr c.entry) 1024 =
            (List.range 16).flatMap fun h => r.rsps.get h [] ++ zeros (64 - (r.rsps.get h []).length)))) ∧
  (∀ (p : Nat) (x : Push) (s : State), getPush s p = some x →
    ((∀ a, x.lastAt = some a → s.now < a + secNs) → exec (.calAckTimeout p) s = .next s) ∧
    (∀ a, x.lastAt = some a → a + secNs ≤ s.now →
      ∃ t, exec (.calAckTimeout p) s = .next t ∧ getPush t p = none ∧ findCmd t x.cmd = none ∧
        lastEvent t Ev.SHT_CABINET_SILENT p x.hop)) ∧
  (∀ s : State,
    (getF s Rg.SHT_PING_PERIOD_S = 0 ∨ s.now < s.sht.pingAt + getF s Rg.SHT_PING_PERIOD_S * secNs ∨ servicesRun s = false →
      exec .backgroundPing s = .next s) ∧
    (getF s Rg.SHT_PING_PERIOD_S ≠ 0 → s.sht.pingAt + getF s Rg.SHT_PING_PERIOD_S * secNs ≤ s.now → servicesRun s = true →
      ∃ t, exec .backgroundPing s = .next t ∧ t.sht.pingAt = s.now ∧ ∀ p, p < 128 →
        (if portEnabled s p = true ∧ getRollcall s p = none then
          ∃ r, getRollcall t p = some r ∧ r.kind = 1 ∧ r.cmd = none ∧ r.sentAt = s.now else getRollcall t p = getRollcall s p)))

/-- Presentation (R187, R191 to R194, R196). A schedule's command ends when its first picture's time is reached, PARTIAL where one of
its PRESENTs was refused. The one PRESENT of a port that is due, with no HOLD due, is dropped while its view is held, and refused where
the port is down, counted and reported as SHT_PRESENT_PARTIAL; an untimed one is queued, or refused in the same way where the queue
does not take it; a timed one goes to the launch slot: it leaves at once where the slot is empty and the MAC can start it, reported where
it is later than the margin, and waits there where the MAC can start none of the slot's frames. A port goes idle for its next launch.
A HOLD at its instant holds its views, drops their PRESENTs of that instant and stops the schedule if asked; a RESUME takes its views
out of the hold, and ends OK. Before those instants nothing changes. -/
def Obligations.PresentsLaunched : Prop :=
  (∀ (w : SchedWait) (c : Cmd) (s : State), (s.sht.waits.filter fun w => reached s w.at_) = [w] → findCmd s w.cmd = some c →
    exec .scheduleFirstPresent s = .next (complete
      { s with sht := { s.sht with waits := s.sht.waits.filter (·.cmd != w.cmd) } } c
      (if w.refused then St.partly else St.ok) w.start)) ∧
  (∀ s : State, (∀ w ∈ s.sht.waits, reached s w.at_ = false) → exec .scheduleFirstPresent s = .next s) ∧
  (∀ (port : Nat) (p : Present) (s : State), domainOn s 5 = true → port < 128 → p.view < 8 → p.port = port →
    (s.sht.presents.filter fun p => p.port == port && reached s p.at_) = [p] → dueHolds s false = [] →
    let rest := s.sht.presents.filter fun p => !(p.port == port && reached s p.at_)
    let cls := presentClass s
    let f : QFrame := ⟨0, presentFrame s p, 0, false, epochNow s, false, false, 0, 129, 0, .plain⟩
    let k : Launch := ⟨none, p.at_, f, cls, getF s Rg.SHT_LAUNCH_MARGIN_NS⟩
    let late := (mstDiff (mst s) p.at_).toNat
    let refused (t : State) : Prop := lastEvent t Ev.SHT_PRESENT_PARTIAL p.view 0 ∧ bit (getF t Rg.SHT_PARTIAL_PORTS) port = true ∧
      t.sht.shown = s.sht.shown
    ∃ t, exec (.presentLaunch port) s = .next t ∧ t.sht.presents = rest ∧
      (viewHeld s p.view = true → t.sht = { s.sht with presents := rest } ∧ t.wire = s.wire ∧ t.tm = s.tm) ∧
      (viewHeld s p.view = false → portUp s port = false → refused t ∧ t.tm = s.tm ∧
        getF t Rg.PRT_FLUSHED_FRAMES port = min (getF s Rg.PRT_FLUSHED_FRAMES port + 1) (2 ^ 32 - 1)) ∧
      (viewHeld s p.view = false → portUp s port = true → p.timed = false → refused t ∨
        (t.sht.shown.get p.view 0 = p.picture ∧ (getQueue s port cls).length < (getQueue t port cls).length ∧
          ∃ q ∈ getQueue t port cls, q.bytes = presentFrame s p)) ∧
      (viewHeld s p.view = false → portUp s port = true → p.timed = true → t.sht.shown.get p.view 0 = p.picture ∧
        ((∀ l ∈ (getPort s port).slot ++ [k], slotReady s port l = false) → (getPort t port).slot = (getPort s port).slot ++ [k] ∧
          t.wire = s.wire) ∧
        ((getPort s port).slot = [] → slotReady s port k = true → (getPort t port).slot = [] ∧
          (∃ b, t.wire = s.wire ++ [.frame port b]) ∧
          (getF s Rg.SHT_LAUNCH_MARGIN_NS < late → lastEvent t Ev.SHT_LAUNCH_LATE port 0 ∧
            getF t Rg.SHT_COUNTS_LAUNCH_LATE = min (getF s Rg.SHT_COUNTS_LAUNCH_LATE + 1) 65535)))) ∧
  (∀ (port : Nat) (s : State), port < 128 →
    ∃ t, exec (.launchIdleStart port) s = .next t ∧ (getPort t port).idle = idlePeriod s port ∧
      ∀ i, i ≠ port → getPort t i = getPort s i) ∧
  (∀ (h : HoldCmd) (s : State), dueHolds s false = [h] → h.mask < 256 →
    ∃ t, exec .holdInstant s = .next t ∧ getF t Rg.SHT_SCHED_STATUS_HELD = (getF s Rg.SHT_SCHED_STATUS_HELD ||| h.mask) ∧
      (∀ p ∈ t.sht.presents, p ∈ s.sht.presents ∧ ¬(bit h.mask p.view = true ∧ p.at_ = h.at_)) ∧
      (hStop h.flags = false → t.sht.running = s.sht.running) ∧
      (hStop h.flags = true → t.sht.running = none ∧ getF t Rg.SHT_SCHED_STATUS_RUNNING = 0)) ∧
  (∀ (h : HoldCmd) (s : State), dueHolds s true = [h] → h.mask < 256 →
    ∃ u, exec .resumeInstant s = .next (completeId u h.cmd St.ok h.at_) ∧ u.hif = s.hif ∧
      (∀ v, v < 8 → bit (getF u Rg.SHT_SCHED_STATUS_HELD) v = (bit (getF s Rg.SHT_SCHED_STATUS_HELD) v && !bit h.mask v)) ∧
      (∀ x ∈ u.sht.holds, x.cmd ≠ h.cmd) ∧ u.sht.running = s.sht.running) ∧
  (∀ (port : Nat) (s : State), domainOn s 5 = false → exec (.presentLaunch port) s = .next s) ∧
  (∀ s : State, (dueHolds s false = [] → exec .holdInstant s = .next s) ∧ (dueHolds s true = [] → exec .resumeInstant s = .next s))

/-! ### Meridian -/

/-- Relative output at a dose follows the curve of its colour: from its last point on that point's output; between two points,
from the largest index whose dose is not above, the line to the next point, the division truncating toward zero. -/
def Obligations.OutputCurve : Prop :=
  ∀ (curve : List (Nat × Nat)) (d : Nat), curve.length = 16 → curve.Pairwise (fun a b => a.1 < b.1) → (curve.getD 0 (0, 0)).1 = 0 →
    let dose (i : Nat) : Nat := (curve.getD i (0, 0)).1
    let out (i : Nat) : Int := (curve.getD i (0, 0)).2
    (dose 15 ≤ d → relativeOutput curve d = out 15) ∧
    ∀ i, i < 15 → dose i ≤ d → d < dose (i + 1) →
      relativeOutput curve d = out i + ((out (i + 1) - out i) * ((d : Int) - dose i)).tdiv ((dose (i + 1) : Int) - dose i)

/-- Clearing ARM of a trigger that is no schedule's (R223): an instant that is then at least 8 ns ahead does not occur; a nearer
one still fires, once. A LAUNCH trigger no longer holds its port idle (R226). -/
def Obligations.TriggerDisarmed : Prop :=
  ∀ (n fields : Nat) (s : State), n < 16 → domainOn s 5 = true → trigOwned s n = false → trigArmed s n = true → trigAction s n ≠ 3 →
    ∃ t, exec (.triggerDisarm n fields) s = .next t ∧ trigArmed t n = false ∧
      (let port := getF s Rg.MER_TRIG_CTRL_PORT n
       trigAction s n = 2 → (getPort s port).idle ≠ none → (getPort t port).idle = idlePeriod t port) ∧
      ∀ u, (∀ off, regW u off = regW t off) → getTrig u n = getTrig t n → u.sht.next = [] →
        let x := trigInstant s n (getTrig s n).j
        (8 ≤ mstDiff x (mst s) → exec (.triggerInstant n) u = .next u) ∧
        (mstDiff x (mst s) < 8 → reached u (trigDue s n (getTrig s n).j) = true → ∃ v, exec (.triggerInstant n) u = .next v ∧
          getF v Rg.MER_TRIG_STATUS_FIRED n = min (getF u Rg.MER_TRIG_STATUS_FIRED n + 1) 65535 ∧
          ∀ w, (∀ off, regW w off = regW v off) → getTrig w n = getTrig v n → w.sht.next = [] → exec (.triggerInstant n) w = .next w)

/-- The clock (R200 to R203, R213 to R217), where Meridian is on. LATCH copies the running time. SET takes the staged time and STEP
adds the signed nanoseconds; each clears LOCKED, sets TIME_VALID and counts in STEPS; a staged time with too many nanoseconds is
refused; the bits of one write act in this order. A software frequency is clamped to 1,000 ppm, and taken only without a source. A
sample below the step threshold runs the proportional-integral loop, and locks after LOCK_COUNT good ones; of those at or beyond it the
third of one sign in a row steps the clock, or slews it where a schedule runs without STEP_RUNNING, and the earlier ones change
neither time nor frequency. Without samples for four intervals the servo holds over. Where Meridian is off these commands change
nothing. -/
def Obligations.MeridianDisciplined : Prop :=
  (∀ s : State, domainOn s 5 = true →
    let moved (t : State) (x : Nat) : Prop := clock48 t = x % (2 ^ 48 * 1000000000 * 2 ^ 48) ∧ getF t Rg.MER_STATUS_LOCKED = 0 ∧
      getF t Rg.MER_STATUS_STEPS = min (getF s Rg.MER_STATUS_STEPS + 1) 255
    (∃ t, exec (.merTimeLatch false false) s = .next t ∧ t.mer.latSec = s.mer.sec ∧ t.mer.latNs = s.mer.ns ∧
      t.mer.latFrac = s.mer.frac / 2 ^ 32 ∧ getF t Rg.MER_MST_LATCHED = mst s ∧ clock48 t = clock48 s ∧ ChangesOnly [.mer, .regs 9] s t ∧
      exec (.merTimeLatch true false) s = exec (.merTimeSet false false) t ∧
      exec (.merTimeLatch false true) s = exec (.merTimeStep false false) t ∧
      exec (.merTimeLatch true true) s = exec (.merTimeSet false true) t) ∧
    (∃ t, exec (.merTimeSet false false) s = .next t ∧ exec (.merTimeSet false true) s = exec (.merTimeStep false false) t ∧
      (s.mer.setNs < 1000000000 → getF t Rg.MER_STATUS_TIME_VALID = 1 ∧
        moved t ((s.mer.setSec * 1000000000 + s.mer.setNs) * 2 ^ 48 + s.mer.setFrac * 2 ^ 32)) ∧
      (1000000000 ≤ s.mer.setNs → lastEvent t Ev.MER_TRIG_INVALID 0 0 ∧ t.mer = s.mer)) ∧
    (∃ t, exec (.merTimeStep false false) s = .next t ∧ getF t Rg.MER_STATUS_TIME_VALID = 1 ∧
      moved t ((clock48 s : Int) + getS s Rg.MER_STEP_OFFSET_NS * 2 ^ 48).toNat) ∧
    (∀ b, exec (.merTimeSet true b) s = exec (.merTimeLatch true b) s ∧ exec (.merTimeStep true b) s = exec (.merTimeLatch b true) s ∧
      exec (.merTimeStep false true) s = exec (.merTimeSet false true) s) ∧
    (∀ v, ∃ t, exec (.merFreqAdjWrite v) s = .next t ∧ getS t Rg.MER_FREQ_ADJ_ADJ =
      (if merSource s = sourceFree then clampI (-65536000000) 65536000000 (signed 40 v) else getS s Rg.MER_FREQ_ADJ_ADJ)) ∧
    (∀ e l : Int, -2 ^ 39 ≤ e → e < 2 ^ 39 →
      let big := 16000 * max 1 (getF s Rg.MER_SERVO_STEP_STEP_US)
      let run := if s.mer.stepRun ≠ 0 ∧ s.mer.stepNeg = decide (e < 0) then s.mer.stepRun + 1 else 1
      let slew : Int := getF s Rg.MER_SERVO_STEP_SLEW_PPM * 65536000
      let sampled (t : State) : Prop := getS t Rg.MER_SERVO_OFFSET_OFFSET = e ∧ getF t Rg.MER_STATUS_HOLDOVER = 0 ∧
        t.mer.sampleAt = some s.now ∧ t.mer.sampleL = l ∧
        (e.natAbs < big →
          t.mer.integ = clampI (-65536000000) 65536000000
            (s.mer.integ - getF s Rg.MER_SERVO_GAIN_KI * (e * 2 ^ (12 - l).toNat) / 65536) ∧
          getS t Rg.MER_FREQ_ADJ_ADJ = clampI (-65536000000) 65536000000
            (t.mer.integ - getF s Rg.MER_SERVO_GAIN_KP * (e * 2 ^ (12 - l).toNat) / 65536) ∧
          getF t Rg.MER_STATUS_SLEWING = 0 ∧ t.mer.stepRun = 0 ∧ clock48 t = clock48 s ∧
          (e.natAbs ≤ 16 * getF s Rg.MER_SERVO_LOCK_LOCK_NS → max 1 (getF s Rg.MER_SERVO_LOCK_LOCK_COUNT) ≤ s.mer.lockRun + 1 →
            getB s Rg.MER_STATUS_LOCKED = false → getF t Rg.MER_STATUS_LOCKED = 1 ∧ getF t Rg.MER_STATUS_TIME_VALID = 1)) ∧
        (big ≤ e.natAbs → t.mer.integ = s.mer.integ ∧
          (run < 3 → getS t Rg.MER_FREQ_ADJ_ADJ = getS s Rg.MER_FREQ_ADJ_ADJ ∧ clock48 t = clock48 s ∧ t.mer.stepRun = run) ∧
          (3 ≤ run → t.mer.stepRun = 0 ∧
            if s.sht.running = none ∨ getB s Rg.MER_CTRL_STEP_RUNNING = true then
              moved t ((clock48 s : Int) - round16 e * 2 ^ 48).toNat
            else clock48 t = clock48 s ∧ getF t Rg.MER_STATUS_SLEWING = 1 ∧
              getS t Rg.MER_FREQ_ADJ_ADJ = clampI (-65536000000) 65536000000 (s.mer.integ - if 0 < e then slew else -slew)))
      (merSource s ≠ sourceFree → l = servoLog s → ∃ t, exec (.servoSample e) s = .next t ∧ sampled t) ∧
      (∀ hi, merSource s = sourceHost → hi < 2 ^ 13 → l = clampI (-7) 4 (signed 5 (hi / 256)) →
        e = signed 40 (hi % 256 * 2 ^ 32 + (regW s 0x02400048).toNat) →
        ∃ t, exec (.merServoOffsetWrite hi) s = .next t ∧ sampled t)) ∧
    (∀ e, merSource s = sourceFree → exec (.servoSample e) s = .next s) ∧
    (∀ hi, merSource s ≠ sourceHost → exec (.merServoOffsetWrite hi) s = .next s) ∧
    (∀ a, merSource s ≠ sourceFree → getB s Rg.MER_STATUS_HOLDOVER = false → s.mer.sampleAt = some a →
      (s.now < a + 4 * logIntervalNs s.mer.sampleL → exec .holdoverTimeout s = .next s) ∧
      (a + 4 * logIntervalNs s.mer.sampleL ≤ s.now →
        ∃ t, exec .holdoverTimeout s = .next t ∧ getF t Rg.MER_STATUS_HOLDOVER = 1 ∧ getF t Rg.MER_STATUS_LOCKED = 0 ∧
          getS t Rg.MER_FREQ_ADJ_ADJ = clampI (-65536000000) 65536000000 s.mer.integ ∧ lastEvent t Ev.MER_HOLDOVER 0 0 ∧
          clock48 t = clock48 s))) ∧
  (∀ s : State, domainOn s 5 = false →
    ∀ c ∈ [Instr.merTimeLatch false false, .merTimeSet false false, .merTimeStep false false, .holdoverTimeout], exec c s = .next s)

/-- PTP messages, triggers and timing pins, where Meridian and, for PTP, the Compass run (R205 to R212, R218 to R220, R224 to R226,
R228; message layouts of IEEE 1588, log 16). Messages beyond 1,024 of a port in a second, ill formed ones and those outside the profile
are dropped and counted in INVALID, those beyond the device's total in OVERLOAD. An Announce that cannot be used is reported, one of a
better or the same master is kept; from the master a slave port follows a two-step Sync is kept, its Follow_Up gives the servo an offset
sample or discards the Sync, and a Delay_Resp averages the path delay; a master port answers a Delay_Req. Each interval's message is sent
with the port's next sequence number. A trigger arms where its fields are in range; at its instant it fires, counted and stamped: by an
event, a pulse, or the head frame of a queue entering the launch slot. Pulses end; PPS_OUT rises at its second; a captured edge is
queued, or reported where 32 wait, and is the sample of a servo that takes it; reading the queue pops it. -/
def Obligations.PtpTriggersPins : Prop :=
  (∀ (p o : Nat) (b : List Byte) (stamp : Int) (s : State), p < 128 → ptpRuns s = true → ptpAt b = some o →
    let m := b.drop o
    let u := ptpCount s p
    let at_ := stamp - getF s Rg.MER_TS_CORR_INGRESS (portRate s p)
    let x := getPtp s p
    let invalid (t : State) : Prop := getF t Rg.MER_PTP_STATUS_INVALID = min (getF s Rg.MER_PTP_STATUS_INVALID + 1) 65535
    let told (t : State) : Prop := oncePerSecond s s.mer.ptpInvalidAt = true → lastEvent t Ev.MER_PTP_INVALID p 0
    let taken := ptpAdmits (mType m == msgDelayReq && ptpState s p == ptpMaster) u.mer.ptpIn u.mer.ptpReqIn
    let e (arrived corr : Int) : Int := arrived - mTime m 34 - corr - getF s Rg.MER_PTP_MPD_DELAY p
    let sampled (t : State) (e : Int) : Prop := merSource s = sourcePtp → getB s Rg.MER_PTP_MPD_VALID p = true → x.multi = false →
      -2 ^ 39 ≤ e → e < 2 ^ 39 → getS t Rg.MER_SERVO_OFFSET_OFFSET = e ∧ t.mer.sampleAt = some s.now
    ∃ t, exec (.ptpMessageReceive p b stamp) s = .next t ∧
      (1024 < (getPtp u p).count → invalid t ∧ told t) ∧
      ((getPtp u p).count ≤ 1024 → taken = false →
        getF t Rg.MER_PTP_STATUS_OVERLOAD = min (getF s Rg.MER_PTP_STATUS_OVERLOAD + 1) 65535) ∧
      ((getPtp u p).count ≤ 1024 → taken = true →
        (ptpWellFormed m = false → invalid t ∧ told t) ∧
        (ptpWellFormed m = true → ptpInProfile s b m = false → invalid t ∧ ChangesOnly [.mer, .regs 9] s t) ∧
        (ptpWellFormed m = true → ptpInProfile s b m = true → portRole s p ≠ 0 →
          (mType m = msgAnnounce → 255 ≤ beAt m 61 2 ∨ mSource m / 65536 = clockIdentity s →
            lastEvent t Ev.MER_PTP_INVALID p 0 ∧ (getPtp t p).best = x.best) ∧
          (mType m = msgAnnounce → beAt m 61 2 < 255 → mSource m / 65536 ≠ clockIdentity s →
            (getPtp t p).best = match x.best with
              | none => some (announceOf s m)
              | some a => if a.source = mSource m ∨ announceFresh s a = false ∨
                  lexLess (announceKey (announceOf s m) p) (announceKey a p) = true then some (announceOf s m) else some a) ∧
          (mType m = msgSync → stampsValid s p = true → fromMaster s p m = true →
            (mTwoStep m = true → (getPtp t p).sync = some (mSeq m, fullTime s at_, mCorr16 m + portAsym s p, s.now)) ∧
            (mTwoStep m = false → (getPtp t p).sync = none ∧ sampled t (e (fullTime s at_) (mCorr16 m + portAsym s p)))) ∧
          (∀ seq t2 corr since, mType m = msgFollowUp → fromMaster s p m = true → x.sync = some (seq, t2, corr, since) →
            (getPtp t p).sync = none ∧
            (seq = mSeq m → s.now ≤ since + logIntervalNs (ptpLogSync s) → sampled t (e t2 (corr + mCorr16 m)))) ∧
          (∀ seq t3 ms, mType m = msgDelayResp → fromMaster s p m = true → ptpPeerDelay s = false → x.req = some (seq, t3) →
            x.ms = some ms → seq = mSeq m → beAt m 44 10 = portIdentity s p →
            let d := (ms + (mTime m 34 - fullTime s t3 - mCorr16 m)) / 2
            (d < 0 ∨ 16000000 < d → lastEvent t Ev.MER_PTP_INVALID p 0 ∧ getF t Rg.MER_PTP_MPD_DELAY p = getF s Rg.MER_PTP_MPD_DELAY p) ∧
            (0 ≤ d → d ≤ 16000000 → getF t Rg.MER_PTP_MPD_VALID p = 1 ∧ getF t Rg.MER_PTP_MPD_DELAY p =
              if getB s Rg.MER_PTP_MPD_VALID p then (7 * getF s Rg.MER_PTP_MPD_DELAY p + d.toNat) / 8 else d.toNat)) ∧
          (mType m = msgDelayReq → stampsValid s p = true → ptpState s p = ptpMaster → ptpPeerDelay s = false →
            ∃ v, ChangesOnly [.mer] s v ∧ t = sendPtp v p (ptpHeader s p msgDelayResp 54 0 (mSeq m)
              (mCorr m - fullTime s at_ % 16 * 4096) (ptpLogSync s) ++ timeBytes (fullTime s at_) ++ beBytes 10 (mSource m)) .plain
              (ptpOverUdp b))))) ∧
  (∀ (p : Nat) (b : List Byte) (stamp : Int) (s : State), ¬ (p < 128 ∧ ptpRuns s = true) ∨ ptpAt b = none →
    exec (.ptpMessageReceive p b stamp) s = .next s) ∧
  (∀ (p : Nat) (s : State), p < 128 → ptpRuns s = true → portUp s p = true →
    let n := (getPtp s p).seq
    let udp := portOverUdp s p
    let counted (t : State) : Prop := (getPtp t p).seq = (n + 1) % 65536
    (if ptpState s p = ptpMaster then ∃ t, counted t ∧ ChangesOnly [.mer] s t ∧ exec (.ptpSyncInterval p) s =
        .next (sendPtp t p (ptpHeader s p msgSync 44 (if ptpTwoStep s then 2 else 0) n 0 (ptpLogSync s) ++ zeros 10) .ptp udp)
      else exec (.ptpSyncInterval p) s = .next s) ∧
    (ptpState (bmca s) p = ptpMaster → ∃ t, counted t ∧ ChangesOnly [.mer] (bmca s) t ∧ exec (.ptpAnnounceInterval p) s =
      .next (sendPtp t p (patch (ptpHeader t p msgAnnounce 64 0 n 0 (ptpLogAnnounce t)) 7 (beBytes 1 8) ++ announceBody t) .plain udp)) ∧
    (onSlave s p = true ∨ ptpState s p = ptpMaster → ∃ t, counted t ∧ (getPtp t p).req = none ∧ ChangesOnly [.mer] s t ∧
      exec (.ptpDelayReqInterval p) s = .next (sendPtp t p
        (if onSlave s p = true ∧ ptpPeerDelay s = false then ptpHeader s p msgDelayReq 44 0 n (-(portAsym s p * 4096)) 127 ++ zeros 10
          else ptpHeader s p msgPdelayReq 54 0 n (-(portAsym s p * 4096)) 127 ++ zeros 20) .ptp udp))) ∧
  (∀ (n fields : Nat) (s : State), n < 16 → domainOn s 5 = true → trigOwned s n = false → trigArmed s n = false →
    let u := setF s trigCtrlWord n (fields % 2 ^ 31)
    (trigFieldsOk u n = true → 0 < mstDiff (trigInstant s n 0) (mst s) →
      ∃ t, exec (.triggerArm n fields) s = .next t ∧ trigArmed t n = true ∧ getTrig t n = ⟨0, false⟩ ∧
        getF t trigCtrlWord n = fields % 2 ^ 31 + 2 ^ 31) ∧
    (trigFieldsOk u n = false → ∃ t, exec (.triggerArm n fields) s = .next t ∧ trigArmed t n = false ∧
      lastEvent t Ev.MER_TRIG_INVALID n 0)) ∧
  (∀ (n : Nat) (s : State), n < 16 → domainOn s 5 = true → trigArmed s n = true → s.sht.next = [] →
    let j := (getTrig s n).j
    let x := trigInstant s n j
    let port := getF s Rg.MER_TRIG_CTRL_PORT n
    let cls := getF s Rg.MER_TRIG_CTRL_CLASS n
    (reached s (trigDue s n j) = false → exec (.triggerInstant n) s = .next s) ∧
    (reached s (trigDue s n j) = true → trigAction s n ≠ 3 →
      ∃ t, exec (.triggerInstant n) s = .next t ∧ (getTrig t n).j = j + 1 ∧
        getF t Rg.MER_TRIG_STATUS_FIRED n = min (getF s Rg.MER_TRIG_STATUS_FIRED n + 1) 65535 ∧
        (trigAction s n < 2 → getF t Rg.MER_TRIG_LAST_LAST n = x) ∧
        (trigAction s n = 0 → lastEvent t Ev.MER_TRIG_FIRED n x) ∧
        (trigAction s n = 1 → t.mer.pulses.get n none =
          some (s.now + 10 * getF s Rg.MER_TRIG_CTRL_WIDTH n, getF s Rg.MER_TRIG_CTRL_PIN_MASK n)) ∧
        (trigAction s n = 2 → getQueue s port cls = [] → lastEvent t Ev.MER_LAUNCH_EMPTY n x) ∧
        (∀ f r, trigAction s n = 2 → getQueue s port cls = f :: r →
          let k : Launch := ⟨some n, x, f, cls, 8⟩
          (∀ l ∈ (getPort s port).slot ++ [k], slotReady s port l = false) →
            getQueue t port cls = r ∧ (getPort t port).slot = (getPort s port).slot ++ [k]))) ∧
  (∀ (n a pins : Nat) (s : State), s.mer.pulses.get n none = some (a, pins) →
    (s.now < a → exec (.triggerPulseEnd n) s = .next s) ∧
    (a ≤ s.now → ∃ t, exec (.triggerPulseEnd n) s = .next t ∧ t.mer.pulses.get n none = none ∧
      ∀ k, k ≠ n → t.mer.pulses.get k none = s.mer.pulses.get k none)) ∧
  (∀ s : State, domainOn s 5 = true →
    let w := getF s Rg.MER_PPS_OUT_WIDTH_US
    let since := s.mer.sec * 1000000000 + s.mer.ns - getF s Rg.MER_PIN_COMP_IN_NS
    (getB s Rg.MER_CTRL_PPS_OUT_EN = true → w ≠ 0 →
      atSecond s (getS s Rg.MER_PPS_OUT_OFFSET_NS - getF s Rg.MER_PIN_COMP_OUT_NS) = true →
      ∃ t, exec .ppsOutPulse s = .next t ∧ t.pins.ppsOut = true ∧ t.mer.ppsEnd = some (s.now + 1000 * w)) ∧
    (∀ sync, ∃ t, exec (.pinEdgeCapture sync (sync && getB s Rg.MER_SYNC_IN_FALLING)) s = .next t ∧
      (if s.mer.captures.length < 32 then t.mer.captures = s.mer.captures ++ [⟨since % 2 ^ 32, sync⟩]
        else t.mer.captures = s.mer.captures ∧ lastEvent t Ev.MER_CAPTURE_OVERFLOW 0 0) ∧
      (sync = false → merSource s = sourcePps → t.mer.sampleAt = some s.now ∧
        getS t Rg.MER_SERVO_OFFSET_OFFSET = 16 * nearestDist since 1000000000) ∧
      (sync = true → merSource s = sourceSync → getF s Rg.MER_SYNC_IN_PERIOD_NS ≠ 0 → t.mer.sampleAt = some s.now ∧
        getS t Rg.MER_SERVO_OFFSET_OFFSET = 16 * nearestDist since (getF s Rg.MER_SYNC_IN_PERIOD_NS))) ∧
    (∀ sync, exec (.pinEdgeCapture sync (!(sync && getB s Rg.MER_SYNC_IN_FALLING))) s = .next s) ∧
    ∃ t, exec .merCapturePop s = .next t ∧ t.mer.captures = s.mer.captures.drop 1 ∧
      t.wire = s.wire ++ [.readData 0x02400064 (captureView s / 2 ^ 32)])

/-! ### Ports, the switch and the traffic manager -/

/-- Bring-up of a port (R233 to R235, R248, R414). Auto-negotiation records the partner's word and goes on at the highest common
rate, or tries again a second later; training goes on to lock, or is reported and tried again; a lock held for 1 ms, with the domains
that the port needs ON, brings the link up at its rate. Loss of the link counts, empties the port's queues and starts bring-up again,
or holds the port after 8 losses in 10 s, until the hold ends. Outside its stage each of these changes nothing. An estimate of every
lane gives the port the loss of its worst lane and ends the measurements that wait for it. Adaptation moves each equaliser setting by at
most one step a millisecond. A received pause sets on a CASCADE port, and its time out ends, the pause of a class. -/
def Obligations.PortsBroughtUp : Prop :=
  (∀ (p : Nat) (s : State), p < 128 →
    let x := getPort s p
    let first (t : State) : Prop := portState t p = (if cfgAn x.cfg then prtAn else if cfgLt x.cfg then prtTraining else prtWaitLock) ∧
      (getPort t p).since = s.now
    (∀ ability fec, portState s p = prtAn → x.since ≤ s.now →
      ∃ t, exec (.autoNegotiationDone p ability fec) s = .next t ∧
        getF t Rg.PRT_AN_PARTNER_ABILITY p = ability % 2 ^ 23 ∧ getF t Rg.PRT_AN_PARTNER_FEC p = fec % 16 ∧
        (resolveRate x.cfg ability fec = none → portState t p = prtAn ∧ getPort t p = { x with since := s.now + secNs } ∧
          lastEvent t Ev.PRT_AN_FAIL p 0) ∧
        (∀ r, resolveRate x.cfg ability fec = some r → getPort t p = { x with resolved := some r, since := s.now } ∧
          portState t p = (if cfgLt x.cfg then prtTraining else prtWaitLock))) ∧
    (∀ ability fec, portState s p ≠ prtAn ∨ s.now < x.since → exec (.autoNegotiationDone p ability fec) s = .next s) ∧
    (portState s p = prtTraining → x.since ≤ s.now → s.now < x.since + 500 * msNs →
      ∃ t, exec (.linkTrainingDone p) s = .next t ∧ portState t p = prtWaitLock ∧ getPort t p = { x with since := s.now }) ∧
    (portState s p = prtTraining → x.since + 500 * msNs ≤ s.now →
      ∃ t, exec (.linkTrainingTimeout p) s = .next t ∧ lastEvent t Ev.PRT_TRAIN_FAIL p 0 ∧
        (if cfgAn x.cfg then portState t p = prtAn ∧ getPort t p = { x with since := s.now }
          else portState t p = prtTraining ∧ getPort t p = { x with since := s.now + secNs })) ∧
    (portState s p ≠ prtTraining → exec (.linkTrainingDone p) s = .next s ∧ exec (.linkTrainingTimeout p) s = .next s) ∧
    (portState s p = prtWaitLock → x.since + msNs ≤ s.now → (∀ d ∈ portDomains p, domainOn s d = true) →
      let r := if cfgAn x.cfg then x.resolved.getD (lowestAdvertised x.cfg) else cfgRate x.cfg
      r < 16 → ∃ t, exec (.linkLockHeld p) s = .next t ∧ portState t p = prtUp ∧ getF t Rg.PRT_STATUS_RATE p = r ∧
        getF t Rg.PRT_STATUS_FEC_ACTIVE p = (if 2 ≤ r then 1 else 0) ∧ (getPort t p).resolved = some r ∧
        bit (getF t Rg.PRT_LINK_UP_UP (p / 64)) (p % 64) = true) ∧
    (portState s p ≠ prtWaitLock ∨ s.now < x.since + msNs ∨ (∃ d ∈ portDomains p, domainOn s d = false) →
      exec (.linkLockHeld p) s = .next s) ∧
    (portState s p = prtUp →
      let downs := (x.downs ++ [s.now]).filter fun a => decide (s.now < a + 10 * secNs)
      ∃ t, exec (.linkLoss p) s = .next t ∧ getF t Rg.PRT_STATUS_DOWN_COUNT p = min (getF s Rg.PRT_STATUS_DOWN_COUNT p + 1) 255 ∧
        (∀ c, c < 8 → getQueue t p c = []) ∧
        (if 8 ≤ downs.length then portState t p = prtHeld ∧ (getPort t p).heldUntil = s.now + 10 * secNs ∧
            lastEvent t Ev.PRT_LINK_FLAP p 0
          else first t ∧ (getPort t p).downs = downs)) ∧
    (portState s p ≠ prtUp → exec (.linkLoss p) s = .next s) ∧
    (portState s p = prtHeld → x.heldUntil ≤ s.now → ∃ t, exec (.linkFlapHoldEnd p) s = .next t ∧ first t) ∧
    (portState s p ≠ prtHeld ∨ s.now < x.heldUntil → exec (.linkFlapHoldEnd p) s = .next s) ∧
    (∀ est, x.measure = [] → exec (.equaliserEstimateDone p est) s = .next s) ∧
    (∀ est w, x.measure ≠ [] → w ∈ est → (∀ e ∈ est, e.1 < w.1 ∨ e = w) →
      ∃ t, exec (.equaliserEstimateDone p est) s = .next t ∧ (getPort t p).measure = [] ∧ (getPort t p).snr = w.2 % 65536 ∧
        getF t Rg.PRT_CHAN_IL p = w.1 % 65536 ∧ ∀ id ∈ x.measure, findCmd t id = none) ∧
    (∀ est id c, x.measure = [id] → findCmd s id = some c →
      ∃ u, exec (.equaliserEstimateDone p est) s = .next (complete u c St.ok) ∧ lastEvent u Ev.PRT_MEASURE_DONE p 0) ∧
    (∀ b, isPause b = true → portCascade s p = true → portUp s p = true →
      let word (k : Nat) : Nat := beAt b (payloadAt b + 2 * k) 2
      let paused (q : Nat) : Option Nat := if q = 0 then none else some (s.now + quantaNs s p q)
      ∃ t, exec (.pauseFrameReceive p b) s = .next t ∧ (∀ i, i ≠ p → getPort t i = getPort s i) ∧
        (word 0 = 1 → ∀ c, c < 8 → (getPort t p).pauses.get c none = paused (word 1)) ∧
        (word 0 = 0x0101 → ∀ c, c < 8 → (getPort t p).pauses.get c none =
          (if bit (word 1) c && bit (cfgPfcClasses x.cfg) c then paused (word (2 + c)) else x.pauses.get c none))) ∧
    (∀ b, isPause b = false ∨ portCascade s p = false ∨ portUp s p = false → exec (.pauseFrameReceive p b) s = .next s) ∧
    ∃ t, exec (.pauseQuantaExpiry p) s = .next t ∧
      ∀ e, e ∈ (getPort t p).pauses ↔ e ∈ x.pauses ∧ ∃ a, e.2 = some a ∧ s.now < a) ∧
  (∀ (l : Nat) (ctle : Int) (dfe : List Int) (s : State),
    let old := s.bg.equaliser.get l Equaliser.init
    (laneUp s l = true → adaptDue s l = true →
      ∃ t, exec (.laneAdaptStep l ctle dfe) s = .next t ∧ (t.bg.equaliser.get l Equaliser.init).ctle = old.ctle + max (-1) (min 1 ctle) ∧
        (∀ i, (t.bg.equaliser.get l Equaliser.init).dfe.getD i 0 = old.dfe.getD i 0 + max (-1) (min 1 (dfe.getD i 0))) ∧
        adaptDue t l = false ∧ ∀ k, k ≠ l → t.bg.equaliser.get k Equaliser.init = s.bg.equaliser.get k Equaliser.init) ∧
    (laneUp s l = false ∨ adaptDue s l = false → exec (.laneAdaptStep l ctle dfe) s = .next s))

/-- Forwarding and scheduling (R240 to R250, R254 to R267). An arriving frame's codewords are counted; a short frame and one with a
fault and no cut-through copy are counted and go nowhere; a good one for one port is queued there, counted as refused or dropped where
the port cannot take it, or handed at once to the internal sink it is for. A table update whose old frames have left, or have been dropped
at its time out, completes. The port starts a launch frame that it can, else the frame of the queue chosen. A shaper's slot adds the
credits due, up to its burst, and the settings that waited take force; a scan places the refills that are near. A pending gate list
becomes operational at its start, and the gate states shown follow the list. Before those times nothing changes. -/
def Obligations.SwitchAndTrafficRun : Prop :=
  (∀ (p fault corrected bad : Nat) (b : List Byte) (s : State), domainOn s 36 = true → domainOn s 37 = true → p < 128 →
    portUp s p = true →
    let cls := ingressClass s p b
    let d := lookup s p b
    let quiet := getB s Rg.TM_CTRL_METER_EN = false ∧ getF s Rg.SW_MIRROR_ACTIVE = 0
    let good := fault = 0 ∧ 60 ≤ b.length ∧ b.length ≤ cfgMaxFrame (getPort s p).cfg - 4 ∧ bit (beAt b 6 1) 0 = false ∧ isPause b = false
    let sat32 (n k : Nat) : Nat := min (n + k) (2 ^ 32 - 1)
    ∃ t, exec (.frameLookup p b fault corrected bad) s = .next t ∧
      getF t Rg.PRT_FEC_CORRECTED p = min (getF s Rg.PRT_FEC_CORRECTED p + corrected) 65535 ∧
      getF t Rg.PRT_FEC_UNCORRECTED p = min (getF s Rg.PRT_FEC_UNCORRECTED p + bad) 65535 ∧
      (fault ≠ 3 → b.length < 60 → t.tm = s.tm ∧ t.wire = s.wire ∧
        getF t Rg.PRT_RX_ERRORS_LENGTH p = min (getF s Rg.PRT_RX_ERRORS_LENGTH p + 1) 65535) ∧
      (fault = 1 ∨ fault = 2 → 60 ≤ b.length → quiet → (∀ q ∈ d.dest, cutThrough s p q cls = false) → t.tm = s.tm ∧ t.wire = s.wire ∧
        getF t Rg.PRT_RX_ERRORS_FCS p = min (getF s Rg.PRT_RX_ERRORS_FCS p + 1) 65535) ∧
      (good → quiet → getF t Rg.PRT_RX_FRAMES_FRAMES p = sat32 (getF s Rg.PRT_RX_FRAMES_FRAMES p) 1 ∧
        ∀ q, d.dest = [q] →
          (q < 130 → canTake s q cls = true → (bufferFrame s (inputGroup p) p cls (cellsFor b.length) 1).isSome = true →
            (getQueue t q cls).map (·.bytes) = (getQueue s q cls).map (·.bytes) ++ [b]) ∧
          (q < 130 → canTake s q cls = false → t.tm = s.tm ∧
            (d.multicast = true ∨ portUp s q = false → q < 128 →
              getF t Rg.PRT_FLUSHED_FRAMES q = sat32 (getF s Rg.PRT_FLUSHED_FRAMES q) 1) ∧
            (d.multicast = false → portUp s q = true → getF t Rg.SW_DROP_THRESHOLD = min (getF s Rg.SW_DROP_THRESHOLD + 1) 65535)) ∧
          (130 ≤ q → q < 146 → t.tm = s.tm ∧ t.wire = s.wire ++ [match d.stream with
            | some n => .intake q n b
            | none => .frame q b]))) ∧
  (∀ (p fault corrected bad : Nat) (b : List Byte) (s : State),
    domainOn s 36 = false ∨ domainOn s 37 = false ∨ 138 ≤ p ∨ (p < 128 ∧ portUp s p = false) →
    exec (.frameLookup p b fault corrected bad) s = .next s) ∧
  (∀ (n : Nat) (s : State), n < 3 →
    (fencing s n = none → exec (.tableFenceReached n) s = .next s ∧ exec (.tableFenceTimeout n) s = .next s) ∧
    ∀ u, fencing s n = some u →
      let due := u.since.getD s.now + getF s Rg.SW_CTRL_FENCE_TIMEOUT_MS * msNs
      let done (t : State) : Prop := findCmd t u.cmd = none ∧ (∀ x ∈ t.sw.updates, x.cmd ≠ u.cmd) ∧
        bit (getF t Rg.SW_EPOCH_FENCE_PENDING) n = false
      let old := (∃ q ∈ s.tm.queues, ∃ f ∈ q.2, oldEpoch s n f = true) ∨ ∃ p ∈ s.ports, ∃ l ∈ p.2.slot, oldEpoch s n l.frame = true
      (old → exec (.tableFenceReached n) s = .next s) ∧
      (s.now < due → exec (.tableFenceTimeout n) s = .next s) ∧
      ((∀ x ∈ s.sw.updates, x.table = n → x.cmd = u.cmd) →
        (¬old → ∃ t, exec (.tableFenceReached n) s = .next t ∧ done t ∧ lastEvent t Ev.SW_TABLE_FENCE 0 0) ∧
        (due ≤ s.now → ∃ t, exec (.tableFenceTimeout n) s = .next t ∧ done t ∧
          ∀ port c f, f ∈ getQueue t port c → oldEpoch t n f = false))) ∧
  (∀ (port : Nat) (s : State), port < 130 → portUp s port = true → getF s Rg.FLT_STATE_STATE ≠ 2 → domainOn s 38 = true →
    relocking s 2 = false →
    let u := dropOversize s port
    ((∃ l ∈ (getPort s port).slot, slotReady s port l = true) →
      ∃ t, exec (.tmFrameSelect port) s = .next t ∧ (getPort t port).slot.length + 1 = (getPort s port).slot.length) ∧
    ((∀ l ∈ (getPort s port).slot, slotReady s port l = false) →
      (chooseQueue u port = none → exec (.tmFrameSelect port) s = .next u) ∧
      ∀ c f r, chooseQueue u port = some c → getQueue u port c = f :: r →
        ∃ t b, exec (.tmFrameSelect port) s = .next t ∧ r <+: getQueue t port c ∧
          (if f.stomp then .stomped port b else .frame port b) ∈ t.wire)) ∧
  (∀ (port : Nat) (s : State), 130 ≤ port ∨ portUp s port = false ∨ getF s Rg.FLT_STATE_STATE = 2 ∨ domainOn s 38 = false ∨
    relocking s 2 = true → exec (.tmFrameSelect port) s = .next s) ∧
  (∀ (port c : Nat) (s : State), domainOn s 38 = true →
    let x := getShaper s port c
    let dt := s.now * 65536 - x.last
    let k := dt / shaperInterval x.rate
    (refilling x = true → x.overflow = false → shaperInterval x.rate ≤ dt →
      ∃ t, exec (.shaperRefill port c) s = .next t ∧ (getShaper t port c).credit = min x.burst (x.credit + k) ∧
        (getShaper t port c).last = x.last + k * shaperInterval x.rate ∧ (getShaper t port c).next = [] ∧
        (getShaper t port c).rate = (x.next.getLast?.map (·.2)).getD x.rate ∧ ∀ q ∈ x.next, findCmd t q.1 = none) ∧
    (x.overflow = true ∨ (refilling x = true ∧ dt < shaperInterval x.rate) ∨ (refilling x = false ∧ x.next = []) →
      exec (.shaperRefill port c) s = .next s)) ∧
  (∀ s : State, ∃ t, exec .wheelOverflowScan s = .next t ∧ ∀ port c, getShaper t port c =
    (if (getShaper s port c).overflow then placeShaper s (getShaper s port c) else getShaper s port c)) ∧
  ∀ (p : Nat) (s : State), p < 128 → domainOn s 5 = true →
    let shown (o : Option GateList) : Nat := match o with
      | none => 255
      | some g => gateStateAt (gateSegs g.cycle g.entries) (gatePos g (mft16 s)) % 256
    (∀ g, getGateNext s p = some g →
      let now := if g.entries = [] then none else some g
      (mft16 s < g.start → exec (.gateListStart p) s = .next s) ∧
      (g.start ≤ mft16 s →
        ∃ t, exec (.gateListStart p) s = .next t ∧ getGateNext t p = none ∧ getGate t p = now ∧
          getF t Rg.TM_GATE_STATUS_PENDING p = 0 ∧ getF t Rg.TM_GATE_STATUS_OPERATIONAL p = now.isSome.toNat ∧
          getF t Rg.TM_GATE_STATUS_STATES p = shown now ∧ lastEvent t Ev.TM_GATE_ACTIVE p 0)) ∧
    ∃ t, exec (.gateEntryChange p) s = .next t ∧ getF t Rg.TM_GATE_STATUS_STATES p = shown (getGate s p) ∧ t.tm = s.tm

/-- The die-to-die links (R13, R14, R208). A retried flit is a counted CE of its source. A link that drops makes stamps invalid and is
retrained, again and again as its time comes, where the Compass runs; after three retrains its die is a UC fault, whose reaction runs
unless one of the die runs already or holds its unit; in FE the fault is merged. When the link returns stamps stay invalid for 1 ms, and
a reaction that waits for it ends. A link that works is neither retrained nor declared lost. -/
def Obligations.DieLinksRetrained : Prop :=
  ∀ (die : Nat) (s : State), die < 2 →
    let source := Ev.PRT_D2D_DOWN_W + die
    (∃ t, exec (.d2dFlitRetry die) s = .next t ∧ getSticky t (Ev.PRT_D2D_RETRY_W + die) = true ∧
      lastEvent t (Ev.PRT_D2D_RETRY_W + die) 41 0 ∧
      getF t Rg.FLT_CE_COUNT_COUNT = min (getF s Rg.FLT_CE_COUNT_COUNT + 1) (2 ^ 32 - 1)) ∧
    (getLink s die = none →
      (∃ t, exec (.d2dLinkLoss die) s = .next t ∧ getLink t die = some (s.now, 1) ∧
        lastEvent t Ev.MER_TS_INVALID 0 0 ∧ stampsValid t (64 * die) = false) ∧
      exec (.dieLinkRetrain die) s = .next s ∧ exec (.dieLinkDown die) s = .next s ∧ exec (.dieLinkReturn die) s = .next s) ∧
    ∀ a n, getLink s die = some (a, n) →
      let due := a + if n < 3 then 10 * msNs else secNs
      exec (.d2dLinkLoss die) s = .next s ∧
      (due ≤ s.now → compassRuns s = true →
        ∃ t, exec (.dieLinkRetrain die) s = .next t ∧ getLink t die = some (s.now, n + 1) ∧ ∀ d, d ≠ die → getLink t d = getLink s d) ∧
      (s.now < due ∨ compassRuns s = false → exec (.dieLinkRetrain die) s = .next s) ∧
      (n < 3 ∨ dieReacts s source = true → exec (.dieLinkDown die) s = .next s) ∧
      (3 ≤ n → dieReacts s source = false → (∀ r ∈ s.ev.reactions ++ s.ev.held, r.unit ≠ source) →
        ∃ t, exec (.dieLinkDown die) s = .next t ∧ getSticky t source = true ∧ isLevel t source = true ∧
          (inFe s = true → t.ev.merged = s.ev.merged + 1) ∧
          (inFe s = false → ∃ r ∈ t.ev.reactions, r.source = source ∧ r.start = s.now)) ∧
      ∃ t, exec (.dieLinkReturn die) s = .next t ∧ getLink t die = none ∧
        ((∀ r ∈ s.ev.reactions, r.source ≠ source) → t.mer.tsBad.get die none = some (s.now + msNs) ∧ isLevel t source = false) ∧
        (∀ r, s.ev.reactions = [r] → r.source = source → r.absorbed = false → overLimit s r = false →
          r.param < 65536 → t.ev.reactions = [] ∧ lastEvent t Ev.FLT_UNIT_RESTORED r.param 0)

/-! ### Events, faults and memory -/

/-- Events (R303 to R306), while the event controller runs. Sources that would write to a full queue wait, each counted once; the first
other pending source is delivered: to the event queue, where its filling is an event, and to its vector as enabled, a fault at once and
an event as the vector's moderation counts; it is active, or idle again with AUTO_ACK on an edge. With none to deliver nothing else
changes. A pop answers the head of the queue and latches its DATA and MST. ACK moves an active source to idle, or to pending where it
occurred again or its level holds. -/
def Obligations.EventsDelivered : Prop :=
  (∀ s : State, controllerRuns s = true →
    ∃ t, exec .eventDeliver s = .next t ∧ (∀ m ∈ pendingSources s, blocked s m = true → (getSrc t m).stalled = true) ∧
      ((∀ m ∈ pendingSources s, blocked s m = true) → t.ev.evq = s.ev.evq ∧ t.wire = s.wire ∧ ∀ m, srcState t m = srcState s m) ∧
      ∀ n, (pendingSources s).find? (fun m => !blocked s m) = some n → (n = Ev.INT_EVQ_OVERFLOW → s.ev.evq.length + 1 < 32) →
        let x := getSrc s n
        let v := getF s Rg.INT_SRC_CFG_VECTOR n
        let y := getVec s v
        let k := getF s Rg.HIF_VEC_MOD_PENDING v
        let fires := sourceClass n ≠ .event ∨ getF s Rg.HIF_VEC_MOD_TIME_US v = 0 ∨ getF s Rg.HIF_VEC_MOD_COUNT v ≤ k + 1
        let queued := getB s Rg.INT_SRC_CFG_EVQ_EN n = true
        srcState t n = (if getB s Rg.INT_SRC_CFG_AUTO_ACK n = true ∧ 2 ≤ getF s Rg.INT_SRC_CFG_SENSE n then srcIdle else srcActive) ∧
        (queued → t.ev.evq = s.ev.evq ++ [⟨n, x.collapsed, x.param, x.data, x.mst⟩] ∧
          (s.ev.evq.length = 31 → lastEvent t Ev.INT_EVQ_OVERFLOW 0 0)) ∧
        (¬ queued → t.ev.evq = s.ev.evq) ∧
        (getB s Rg.INT_SRC_CFG_VEC_EN n = false → t.wire = s.wire ∧ t.hif = s.hif) ∧
        (getB s Rg.INT_SRC_CFG_VEC_EN n = true → fires → getF t Rg.HIF_VEC_MOD_PENDING v = 0 ∧ (getVec t v).timerAt = none ∧
          (y.mask = true → (getVec t v).pend = true ∧ t.wire = s.wire) ∧
          (y.mask = false → hostReachable s = true → t.wire = s.wire ++ [.msix v y.addr y.data])) ∧
        (getB s Rg.INT_SRC_CFG_VEC_EN n = true → ¬ fires → t.wire = s.wire ∧ getF t Rg.HIF_VEC_MOD_PENDING v = min (k + 1) 255 ∧
          (k = 0 → (getVec t v).timerAt = some s.now))) ∧
  (∀ s : State, controllerRuns s = false → exec .eventDeliver s = .next s) ∧
  (∀ s : State, ∃ t, exec .intEvqPop s = .next t ∧
    t.wire = s.wire ++ [.readData 0x01002000 ((s.ev.evq.head?.map evWord).getD 0)] ∧ t.ev.evq = s.ev.evq.tail ∧
    (∀ r l, s.ev.evq = r :: l → getF t Rg.INT_EVQ_DATA_VALUE = r.data % 2 ^ 32 ∧ getF t Rg.INT_EVQ_MST_VALUE = r.mst % 2 ^ 32) ∧
    (s.ev.evq = [] → ∀ off, regW t off = regW s off)) ∧
  ∀ (n : Nat) (s : State), n < 1024 → ∃ t, exec (.intSrcAck n) s = .next t ∧
    srcState t n = (if srcState s n = srcActivePending ∨ srcState s n = srcActive ∧ levelHolds s n = true then srcPending
      else if srcState s n = srcActive then srcIdle else srcState s n) ∧ ∀ k, k ≠ n → srcState t k = srcState s k

/-- Faults (R309 to R315, R317 to R320). A CE is counted and sticky. A UC is sticky and starts the reaction of its unit, unless it names
none or the unit is held; in FE, or while the unit's reaction runs, it is merged. The reaction ends with the unit running, or held at
the limit. A fatal fault, with the device in RUN and the Compass running, stops presentation, shows FAULT_N and starts the survey; one
more is merged. A survey is stored in flash or in the host's buffer and counted, one that the host does not take goes to flash.
Clearing sticky bits, with no unit held, leaves those whose cause lasts, and ends the fatal state with the last of its class; clearing
the first record empties it. FLT_TEST makes one fault of the class written. -/
def Obligations.FaultsTaken : Prop :=
  ∀ s : State,
    let counted (n : Nat) (t : State) : Prop := getSticky t n = true ∧
      getF t Rg.FLT_CE_COUNT_COUNT = min (getF s Rg.FLT_CE_COUNT_COUNT + 1) (2 ^ 32 - 1)
    let merged (n : Nat) (t : State) : Prop := getSticky t n = true ∧ t.ev.merged = s.ev.merged + 1 ∧ t.ev.reactions = s.ev.reactions ∧
      getF t Rg.FLT_MERGED_COUNT = min (getF s Rg.FLT_MERGED_COUNT + 1) (2 ^ 32 - 1)
    let reacts (n unit : Nat) (t : State) : Prop := getSticky t n = true ∧
      ∃ r ∈ t.ev.reactions, r.source = n ∧ r.unit = unit ∧ r.start = s.now
    let fatal (n : Nat) (t : State) : Prop := getSticky t n = true ∧
      (inFe s = true → merged n t) ∧
      (inFe s = false → s.pwr.committed = none → napping s = false → compassRuns s = true → inFe t = true ∧ t.pins.faultN = false ∧
        t.sht.running = none ∧ t.ev.survey.isSome = true ∧ getF t Rg.FLT_STATE_SURVEY = 1)
    (∀ n dom loc, ∃ t, exec (.hardwareFault n dom loc) s = .next t ∧
      (sourceNamed n = false ∨ n ∈ ownRow ∨ sourceClass n = .event → t = s) ∧
      (sourceNamed n = true → n ∉ ownRow →
        (sourceClass n = .ce → counted n t) ∧
        (sourceClass n = .uc → ucUnit n dom = none →
          (inFe s = true → merged n t) ∧ (inFe s = false → getSticky t n = true ∧ t.ev.reactions = s.ev.reactions)) ∧
        (∀ u, sourceClass n = .uc → ucUnit n dom = some u →
          (inFe s = true ∨ (∃ r ∈ s.ev.reactions, r.unit = u.unit) → merged n t) ∧
          (inFe s = false → (∀ r ∈ s.ev.reactions, r.unit ≠ u.unit) →
            ((∃ r ∈ s.ev.held, r.unit = u.unit) → getSticky t n = true ∧ t.ev.reactions = s.ev.reactions) ∧
            ((∀ r ∈ s.ev.held, r.unit ≠ u.unit) → reacts n u.unit t))))) ∧
    (exec (.fltTest 0) s = .next s ∧ (∃ t, exec (.fltTest 1) s = .next t ∧ counted Ev.FLT_TEST_CE t) ∧
      (inFe s = false → (∀ r ∈ s.ev.reactions ++ s.ev.held, r.unit ≠ unitTest) →
        ∃ t, exec (.fltTest 2) s = .next t ∧ reacts Ev.FLT_TEST_UC unitTest t) ∧
      (inFe s = true ∨ (s.pwr.committed = none ∧ napping s = false ∧ compassRuns s = true) →
        ∃ t, exec (.fltTest 3) s = .next t ∧ fatal Ev.FLT_TEST_FE t)) ∧
    (∀ r, s.ev.reactions = [r] → r.absorbed = false → isPllUnit r.unit = false → isLinkSource r.source = false →
      (r.unit = unitTest → r.start + 10 * usNs ≤ s.now) → r.param < 65536 →
      ∃ t, exec (.ucResetDone r.unit) s = .next t ∧ t.ev.reactions = [] ∧
        (if overLimit s r then t.ev.held = s.ev.held ++ [r] ∧ lastEvent t Ev.FLT_UNIT_HELD r.param 0
          else t.ev.held = s.ev.held ∧ lastEvent t Ev.FLT_UNIT_RESTORED r.param 0)) ∧
    (∀ u, (∀ r ∈ s.ev.reactions, r.unit ≠ u) → exec (.ucResetDone u) s = .next s) ∧
    (∀ r fails, s.ev.survey = some r → r.clockLoss = false →
      let done (t : State) : Prop := t.ev.survey = none ∧ t.ev.surveySeq = s.ev.surveySeq + 1 ∧ getF t Rg.FLT_STATE_SURVEY = 2 ∧
        lastEvent t Ev.FLT_SURVEY_DONE 0 0
      (r.toFlash = true → getF s Rg.FLT_POLICY_ACTION = 0 →
        ∃ t, exec (.surveyDone fails) s = .next t ∧ done t ∧ t.ev.flashSurvey = surveyBytes s r) ∧
      (r.toFlash = false → fails = true ∨ hostReachable s = false →
        ∃ t, exec (.surveyDone fails) s = .next t ∧ t.ev.survey = some { r with toFlash := true } ∧
          getF t Rg.FLT_STATE_DESTINATION = 1) ∧
      (∀ b, r.toFlash = false → r.buf = some b → fails = false → hostReachable s = true → getF s Rg.FLT_POLICY_ACTION = 0 →
        ∃ t, exec (.surveyDone fails) s = .next t ∧ done t ∧ StoresBytes b.addr (surveyBytes s r) s t)) ∧
    (s.ev.survey = none → ∀ fails, exec (.surveyDone fails) s = .next s) ∧
    (∀ w v, w < 32 → s.ev.held = [] →
      ∃ t, exec (.fltStickyClear w v) s = .next t ∧
        (inFe s = false → ∀ k, k < 32 →
          getSticky t (32 * w + k) = (getSticky s (32 * w + k) && !(bit v k && !isLevel s (32 * w + k)))) ∧
        (inFe s = true → s.ev.reactions = [] → (∀ n ∈ feSources, getSticky t n = false) → inFe t = false ∧ t.pins.faultN = true)) ∧
    (getB s Rg.FLT_FIRST_SRC_VALID = true → ∃ t, exec .fltFirstClear s = .next t ∧ getF t Rg.FLT_FIRST_SRC_VALID = 0 ∧
      getF t Rg.FLT_FIRST_SRC_SOURCE = 0 ∧ getF t Rg.FLT_FIRST_MST_MST = 0 ∧ t.ev.firstLoc = []) ∧
    (getB s Rg.FLT_FIRST_SRC_VALID = false → exec .fltFirstClear s = .next s)

/-- Memory (R326, R330, R334 to R340). A request's wait is kept, and counted where it is late; one beyond the HBM is an uncorrectable
error. Narrow writes and the old word fill a merge entry; one all covered, and the oldest after its time, goes to HBM, with a corruption
that is armed for it. A retraining hold, where no waiting request is urgent and nothing is due, counts, begins anew after a drift, and
ends the retraining with the 32nd; one that waits too long is reported once. A sweep repairs a triplicated word with one bad copy, and is
fatal for one with three different ones. Scrubbing reads the next word, of a channel that serves: a clean one stays, a single flipped bit
is corrected and counted, two poison the word; the last words of both stacks end a pass. ECC_FLIP_CTRL takes the value written. -/
def Obligations.MemoryChecked : Prop :=
  (∀ (k w port wait : Nat) (writes : Stores) (s : State),
    let n := k * stackWords + w
    ∃ t, exec (.mergeReadReturn k w writes port wait) s = .next t ∧
      (port < 16 → getF t Rg.MEM_QOS_STAT_MAX_WAIT_100NS port =
          max (getF s Rg.MEM_QOS_STAT_MAX_WAIT_100NS port) (min 65535 (wait / 100)) ∧
        getF t Rg.MEM_QOS_STAT_LATE port = (if wait < 4 * getF s Rg.MEM_QOS_CFG_TARGET_NS port then getF s Rg.MEM_QOS_STAT_LATE port
          else min (getF s Rg.MEM_QOS_STAT_LATE port + 1) 65535)) ∧
      (2 * stackWords ≤ n → t.mem.hbm = s.mem.hbm ∧ getSticky t Ev.ECC_UC_HBM = true ∧
        getF t Rg.ECC_COUNT_HBM_UC = min (getF s Rg.ECC_COUNT_HBM_UC + 1) 65535) ∧
      (k < 2 → w < stackWords → stackRuns s k = true → channelDown s n = false →
        (∀ o b, writes = [(o, b)] → getMerge s k = [] → 0 < b.length → b.length < 32 → o + b.length ≤ 32 → hbmFlips (getHbm s n) = 0 →
          t.mem.hbm = s.mem.hbm ∧ ∃ e, getMerge t k = [e] ∧ e.word = n ∧ e.filled = true ∧ e.poison = (getHbm s n).poison ∧
            ∀ i, i < 32 → e.bytes.get i none = some (if o ≤ i ∧ i < o + b.length then (b.getD (i - o) 0).toNat
              else (getHbm s n).data / 256 ^ i % 256)) ∧
        (∀ e, getMerge s k = [e] → e.word = n → mergeWhole (writes.foldl mergeAdd e) = true → getB s Rg.ECC_FLIP_CTRL_ARM = false →
          getMerge t k = [] ∧ getHbm t n = ⟨mergeData (writes.foldl mergeAdd e) % 2 ^ 256, 0, 0, (writes.foldl mergeAdd e).poison⟩ ∧
          ∀ i, i ≠ n → getHbm t i = getHbm s i))) ∧
  (∀ (k : Nat) (s : State), stackRuns s k = true →
    ((getMerge s k).find? (fun e => !channelDown s e.word) = none → exec (.mergeEntryTimeout k) s = .next s) ∧
    ∀ e, (getMerge s k).find? (fun e => !channelDown s e.word) = some e →
      (s.now < e.since + usNs → exec (.mergeEntryTimeout k) s = .next s) ∧
      (e.since + usNs ≤ s.now → hbmFlips (getHbm s e.word) = 0 →
        let old := getHbm s e.word
        let x := if e.filled = true ∨ mergeWhole e = true then e else mergeFill e old.data old.poison
        let d := mergeData x % 2 ^ 256
        ∃ t, exec (.mergeEntryTimeout k) s = .next t ∧ getMerge t k = (getMerge s k).filter (fun y => y.word != e.word) ∧
          (∀ w, w ≠ e.word → getHbm t w = getHbm s w) ∧
          if flipStrikes s (1 + wordStack e.word) e.word then getF t Rg.ECC_FLIP_CTRL_ARM = 0 ∧ lastEvent t Ev.ECC_FLIP_DONE 0 0 ∧
            getHbm t e.word = ⟨d, getF s Rg.ECC_FLIP_MASK_VALUE % 2 ^ 64, getF s Rg.ECC_FLIP_CHECK_VALUE % 2 ^ 16, x.poison⟩
          else getHbm t e.word = ⟨d, 0, 0, x.poison⟩)) ∧
  (∀ (k : Nat) (waiting : List (Nat × Nat)) (lanes : List (Nat × Nat × Nat)) (s : State), stackRuns s k = true → compassRuns s = true →
    let u := checkRetrain s k
    let x := getRetrain u k
    let now := (stackTemp u k).getD x.began
    let may := x.active = true ∧ getB u Rg.MEM_RETRAIN_CTRL_ENABLE = true ∧ (∀ a, x.lastHold = some a → a + 100 * usNs ≤ s.now) ∧
      quietAhead u = true ∧ ∀ r ∈ waiting, urgency (getF s Rg.MEM_QOS_CFG_TARGET_NS r.1) r.2 < 2
    let y := { x with holds := x.holds + 1, lastHold := some s.now, seek := s.now, deferred := false }
    (¬ may → exec (.retrainHold k waiting lanes) s = .next u) ∧
    (may → ∃ t, exec (.retrainHold k waiting lanes) s = .next t ∧
      if drifted now x.began (getF u Rg.MEM_RETRAIN_CTRL_THRESHOLD_C) then getRetrain t k = { y with holds := 0, began := now }
      else if x.holds + 1 < 32 then getRetrain t k = y
      else getRetrain t k = { y with active := false, temp := celsius now, drift := false } ∧ lastEvent t Ev.MEM_RETRAIN_DONE 0 0)) ∧
  (∀ (k : Nat) (s : State), stackRuns s k = true →
    let x := getRetrain s k
    let due := x.active = true ∧ getB s Rg.MEM_RETRAIN_CTRL_ENABLE = true ∧ x.deferred = false ∧ x.seek + 100 * msNs ≤ s.now
    (due → ∃ t, exec (.retrainDeferred k) s = .next t ∧ getRetrain t k = { x with deferred := true } ∧
      lastEvent t Ev.MEM_RETRAIN_DEFERRED 0 0) ∧
    (¬ due → exec (.retrainDeferred k) s = .next s)) ∧
  (∀ (k : Nat) (s : State), stackRuns s k = false → exec (.mergeEntryTimeout k) s = .next s ∧ exec (.retrainDeferred k) s = .next s ∧
    (∀ waiting lanes, exec (.retrainHold k waiting lanes) s = .next s) ∧ ∀ wait, exec (.hbmScrubStep k wait) s = .next s) ∧
  (∀ (w : Nat) (s : State), w < 32 → (∀ j, j < 32 → j ≠ w → allEqual (tmrCopies s j) = true) →
    let v := vote (tmrCopies s w) % 2 ^ 32
    (allEqual (tmrCopies s w) = false → allDiffer (tmrCopies s w) = false → getB s Rg.ECC_FLIP_CTRL_ARM = false →
      ∃ t, exec .tmrSweep s = .next t ∧ tmrCopies t w = (v, v, v) ∧ getF t Rg.ECC_TMR_STATUS_LAST_WORD = w ∧
        getF t Rg.ECC_TMR_STATUS_MISMATCHES = min (getF s Rg.ECC_TMR_STATUS_MISMATCHES + 1) 65535) ∧
    (allDiffer (tmrCopies s w) = true → inFe s = false → s.pwr.committed = none → napping s = false → compassRuns s = true →
      ∃ t, exec .tmrSweep s = .next t ∧ inFe t = true ∧ getSticky t Ev.ECC_TMR_FAIL = true)) ∧
  (∀ (k wait : Nat) (s : State), stackRuns s k = true → getF s Rg.ECC_SCRUB_CTRL_HBM_PERIOD_H ≠ 0 →
    getB s Rg.ECC_FLIP_CTRL_ARM = false → s.mem.scrub.get k 0 < stackWords →
    let i := s.mem.scrub.get k 0
    let w := k * stackWords + i
    let x := getHbm s w
    ∃ t, exec (.hbmScrubStep k wait) s = .next t ∧ (∀ i, i ≠ w → getHbm t i = getHbm s i) ∧
      (i + 1 < stackWords → t.mem.scrub.get k 0 = i + 1) ∧
      (i + 1 = stackWords → t.mem.scrub.get k 0 = 0 ∧ (s.mem.scrub.get (3 - k) 0 = 1 → lastEvent t Ev.ECC_SCRUB_PASS 0 0 ∧
        getF t Rg.ECC_SCRUB_STATUS_HBM_PASSES = min (getF s Rg.ECC_SCRUB_STATUS_HBM_PASSES + 1) 65535)) ∧
      (channelDown s w = true → t.mem.hbm = s.mem.hbm) ∧
      (channelDown s w = false →
        (hbmFlips x = 0 → t.mem.hbm = s.mem.hbm) ∧
        (hbmFlips x = 1 → getHbm t w = ⟨x.data % 2 ^ 256, 0, 0, x.poison⟩ ∧
          getF t Rg.ECC_COUNT_HBM_CE = min (getF s Rg.ECC_COUNT_HBM_CE + 1) 65535) ∧
        (hbmFlips x = 2 → x.poison = false → getHbm t w = ⟨x.data % 2 ^ 256, 0, 0, true⟩ ∧
          getF t Rg.ECC_COUNT_HBM_UC = min (getF s Rg.ECC_COUNT_HBM_UC + 1) 65535))) ∧
  (∀ (m words d : Nat) (last : Bool) (s : State), getF s Rg.ECC_SCRUB_CTRL_SRAM_PERIOD_MIN ≠ 0 → domainOn s d = true → d < 80 →
    m < 4096 → getB s Rg.ECC_FLIP_CTRL_ARM = false →
    let i := s.mem.sramScrub.get m 0 % max 1 words
    let x := getSram s m i
    let flips := popCount x.flipData 64 + popCount x.flipCheck 8
    ∃ t, exec (.sramScrubStep m words d last) s = .next t ∧
      (flips ≤ 1 → t.mem.sramScrub.get m 0 = (i + 1) % max 1 words ∧ getF t Rg.ECC_SCRUB_STATUS_SRAM_PASSES =
        (if last then min (getF s Rg.ECC_SCRUB_STATUS_SRAM_PASSES + 1) 65535 else getF s Rg.ECC_SCRUB_STATUS_SRAM_PASSES)) ∧
      (flips = 0 → getSram t m i = x) ∧
      (flips = 1 → getSram t m i = { x with flipData := 0, flipCheck := 0 } ∧
        getF t Rg.ECC_COUNT_SRAM_CE = min (getF s Rg.ECC_COUNT_SRAM_CE + 1) 65535) ∧
      (flips = 2 → getSticky t Ev.ECC_UC_SRAM = true)) ∧
  ∀ (v : Nat) (s : State), ∃ t, exec (.eccFlipArm v) s = .next t ∧ getF t Rg.ECC_FLIP_CTRL_TARGET = v % 8 ∧
    getF t Rg.ECC_FLIP_CTRL_ANY = v / 8 % 2 ∧ getF t Rg.ECC_FLIP_CTRL_MACRO = v / 16 % 4096 ∧
    getF t Rg.ECC_FLIP_CTRL_ARM = v / 2 ^ 31 % 2

/-! ### Clocks, resets and start-up -/

/-- Oscillators, PLLs, the measuring counter and clock gates. TRO is judged up to five times, then clocks hold; XO that passes is
used, one that fails or does not start gives coast mode. A PLL locks, loses lock, or is late, at clock start or in service, where its
lock ends the reaction that waits for it, and relocks at the frequency written within its limits. The loss of XO before READY, but in
a warm reset, gives coast mode, and from READY on is a clock-loss reset; in WATCH and in coast mode it is only shown. Gates close on
idle units; one that is busy stays open and is counted; a drain answers what is held for its domain. -/
def Obligations.ClocksJudged : Prop :=
  ∀ s : State,
    let coasts (t : State) : Prop := getF t Rg.CLK_STATUS_COAST = 1 ∧ getF t Rg.CLK_STATUS_XO_FAIL = 1 ∧ getF t Rg.CLK_STATUS_XO_OK = 0 ∧
      getF t Rg.CLK_BOOT_STATUS_CODE = 2 ∧ lastEvent t Ev.CLK_COAST 0 0
    let locking (t : State) : Prop := t.clk.stage = .pllLock ∧ ∀ n, n < 6 → getRelock t n = some s.now
    (∀ count, s.clk.stage = .troJudge → s.clk.troAt ≤ s.now →
      let tries := min (getF s Rg.CLK_BOOT_STATUS_TRO_TRIES + 1) 7
      ∃ t, exec (.troJudgment count) s = .next t ∧ getF t Rg.CLK_JUDGE_TRO_COUNT = min count (2 ^ 20 - 1) ∧
        getF t Rg.CLK_BOOT_STATUS_TRO_TRIES = tries ∧
        (if 375000 ≤ count ∧ count ≤ 406250 then t.clk.stage = .xoWait
          else if tries < 5 then t.clk.stage = .troJudge ∧ t.clk.troAt = s.now + msNs
          else t.clk.stage = .hold ∧ phase t = 9 ∧ getF t Rg.CLK_BOOT_STATUS_CODE = 3 ∧ t.pins.faultN = false)) ∧
    (∀ count, s.clk.stage = .xoWait → ∃ t, exec (.xoJudgment count) s = .next t ∧ locking t ∧
      getF t Rg.CLK_JUDGE_XO_COUNT = min count 65535 ∧
      (if 4015 ≤ count ∧ count ≤ 4177 then getF t Rg.CLK_STATUS_XO_OK = 1 ∧ getF t Rg.CLK_STATUS_XO_FAIL = 0 ∧
        getF t Rg.CLK_STATUS_COAST = getF s Rg.CLK_STATUS_COAST else coasts t)) ∧
    (s.clk.stage = .xoWait → s.clk.xoAt + 10 * msNs ≤ s.now → ∃ t, exec .xoAmplitudeTimeout s = .next t ∧ locking t ∧ coasts t) ∧
    (∀ n, n < 6 →
      (pllLocked s n = false → (getRelock s n).isSome = true → pllIsOff s n = false → s.clk.stage = .pllLock →
        ∃ t, exec (.pllLock n) s = .next t ∧ pllLocked t n = true ∧ getRelock t n = none ∧
          ((∀ m, m < 6 → m ≠ n → pllLocked s m = true) → t.clk.stage = .done ∧ phase t = (if s.clk.perst then 1 else 2)) ∧
          ((∃ m, m < 6 ∧ m ≠ n ∧ pllLocked s m = false) → t.clk.stage = .pllLock ∧ phase t = phase s)) ∧
      (pllLocked s n = false → (getRelock s n).isSome = true → pllIsOff s n = false → s.clk.stage = .done →
        ∃ t, exec (.pllLock n) s = .next t ∧ (pllReaction s n = none → pllLocked t n = true ∧ getRelock t n = none) ∧
          ∀ r, s.ev.reactions = [r] → pllReaction s n = some r → overLimit s r = false → r.param < 65536 →
            t.ev.reactions = [] ∧ lastEvent t Ev.FLT_UNIT_RESTORED r.param 0) ∧
      (pllLocked s n = true ∨ getRelock s n = none ∨ pllIsOff s n = true → exec (.pllLock n) s = .next s) ∧
      (pllLocked s n = false ∨ s.clk.stage ≠ .done → exec (.pllUnlock n) s = .next s) ∧
      (pllLocked s n = true → s.clk.stage = .done → ∃ t, exec (.pllUnlock n) s = .next t ∧ pllLocked t n = false ∧
        getF t Rg.CLK_PLL_CFG_UNLOCKS n = min (getF s Rg.CLK_PLL_CFG_UNLOCKS n + 1) 255 ∧ getSticky t (pllSource n) = true) ∧
      (∀ a, pllLocked s n = false → getRelock s n = some a → a + msNs ≤ s.now →
        (s.clk.stage = .pllLock → ∃ t, exec (.pllRelockTimeout n) s = .next t ∧ getF t Rg.CLK_BOOT_STATUS_CODE = 4 ∧
          ChangesOnly [.regs 1] s t) ∧
        (s.clk.stage ≠ .pllLock → sourceClass (pllSource n) = .uc → ∃ t, exec (.pllRelockTimeout n) s = .next t ∧
          (getRelock t n = some s.now ∨ pllIsOff t n = true)) ∧
        (s.clk.stage ≠ .pllLock → sourceClass (pllSource n) ≠ .uc → exec (.pllRelockTimeout n) s = .next s)) ∧
      ∀ mhz, mhz < 4096 → (if running s = true ∧ s.sht.running = none then
        ∃ t, exec (.clkPllFreqWrite n mhz) s = .next t ∧
          getF t Rg.CLK_PLL_CFG_FREQ_MHZ n = max (pllLowestTable.getD n 0) (min (pllNominalTable.getD n 0) mhz) ∧
          (pllIsOff s n = false → pllLocked t n = false ∧ getRelock t n = some s.now)
        else exec (.clkPllFreqWrite n mhz) s = .next s)) ∧
    (getB s Rg.CLK_STATUS_COAST = true → ∃ t, exec .xoLoss s = .next t ∧ getF t Rg.CLK_STATUS_XO_OK = 0 ∧ ChangesOnly [.regs 1] s t) ∧
    (getB s Rg.CLK_STATUS_COAST = false → devState s ≤ 2 → s.clk.stage = .pllLock → ∃ t, exec .xoLoss s = .next t ∧ locking t ∧
      coasts t ∧ ∀ n, n < 6 → pllLocked t n = false) ∧
    (getB s Rg.CLK_STATUS_COAST = false → devState s ≤ 2 → s.clk.stage = .done → phase s < phReady → warmRuns s = false →
      ∃ t, exec .xoLoss s = .next t ∧ coasts t ∧ t.clk.stage = .done ∧ phase t = phase s) ∧
    (getB s Rg.CLK_STATUS_COAST = false → devState s = 3 → ∃ t, exec .xoLoss s = .next t ∧ getF t Rg.CLK_STATUS_XO_OK = 0 ∧
      getF t Rg.CLK_STATUS_XO_FAIL = 1 ∧ ChangesOnly [.regs 1] s t) ∧
    (getB s Rg.CLK_STATUS_COAST = false → devState s ≤ 2 → s.clk.stage = .done → phReady ≤ phase s ∨ warmRuns s = true →
      ∃ t, exec .xoLoss s = .next t ∧ getF t Rg.CLK_STATUS_XO_OK = 0 ∧ getF t Rg.CLK_STATUS_XO_FAIL = 1 ∧ t.pins.faultN = false ∧
        t.clk.stage = .troJudge ∧ phase t = 0 ∧ getF t Rg.RST_CAUSE_KIND = kindClockLoss ∧ t.hif.linkUp = false) ∧
    (∀ count, getB s Rg.CLK_STATUS_COAST = true → 4015 ≤ count → count ≤ 4177 → ∃ t, exec (.xoReturn count) s = .next t ∧
      getF t Rg.CLK_STATUS_XO_OK = 1 ∧ getF t Rg.CLK_STATUS_COAST = getF s Rg.CLK_STATUS_COAST) ∧
    (∀ count, phase s = phReady ∨ phase s = phSafe → getB s Rg.CLK_STATUS_COAST = false → devState s ≤ 2 →
      ∃ t, exec (.troCheck count) s = .next t ∧
        getF t Rg.CLK_STATUS_TRO_BAD = (if 4015 ≤ count ∧ count ≤ 4177 then 0 else 1) ∧ ChangesOnly [.regs 1] s t) ∧
    (∀ v, ∃ t, exec (.clkMeasStart v) s = .next t ∧
      getF t Rg.CLK_MEAS_CTRL_MEAS_SEL = (if v % 32 < 24 then v % 32 else 0) ∧
      getF t Rg.CLK_MEAS_CTRL_REF_SEL = (if v / 256 % 32 < 24 then v / 256 % 32 else 1) ∧
      getF t Rg.CLK_MEAS_CTRL_WINDOW_LOG2 = max 8 (min 24 (v / 65536 % 32)) ∧
      (if bit v 24 then t.clk.measAt = some s.now ∧ getF t Rg.CLK_MEAS_CTRL_BUSY = 1 ∧ getF t Rg.CLK_MEAS_RESULT_DONE = 0 ∧
        getF t Rg.CLK_MEAS_RESULT_NO_CLOCK = 0 else t.clk = s.clk)) ∧
    (∀ a, s.clk.measAt = some a →
      (∀ count, ∃ t, exec (.clkMeasDone count) s = .next t ∧ t.clk.measAt = none ∧ getF t Rg.CLK_MEAS_CTRL_BUSY = 0 ∧
        getF t Rg.CLK_MEAS_RESULT_DONE = 1 ∧ getF t Rg.CLK_MEAS_RESULT_COUNT = min count (2 ^ 32 - 1) ∧
        lastEvent t Ev.CLK_MEASURE_DONE 0 0) ∧
      (a + secNs ≤ s.now → ∃ t, exec .clkMeasNoClock s = .next t ∧ t.clk.measAt = none ∧ getF t Rg.CLK_MEAS_CTRL_BUSY = 0 ∧
        getF t Rg.CLK_MEAS_RESULT_NO_CLOCK = 1)) ∧
    ∀ d, 1 ≤ d → d < 80 →
      (mayGate s d = true → unitIdle s d = true → ∃ t, exec (.clockGateIdleClose d) s = .next t ∧ t.clk.gated.get d false = true) ∧
      (mayGate s d = false ∨ unitIdle s d = false → exec (.clockGateIdleClose d) s = .next s) ∧
      (closeAsked s d = false → exec (.gateBusyTimeout d) s = .next s) ∧
      (closeAsked s d = true → ∃ t, exec (.gateBusyTimeout d) s = .next t ∧ t.clk.gated.get d false = false ∧
        getF t Rg.PWR_DOMAIN_GATE_TIMEOUTS d = min (getF s Rg.PWR_DOMAIN_GATE_TIMEOUTS d + 1) 255) ∧
      (domainState s d = domDraining ∨ domainState s d = domReset → ∃ t, exec (.drainReplyTimeout d) s = .next t ∧
        t.pwr.held = s.pwr.held.filter (fun h => h.domain != d) ∧
        ∀ h, s.pwr.held.filter (fun h => h.domain == d) = [h] →
          t.wire = (if h.write.isSome then s.wire else s.wire ++ [.readData h.off (0xDEAD0000 + d)]))

/-- Resets and start-up. Power-on keeps fuses, host and wire, and starts the clocks, or the test mode's hold. PERST_N asserted in
service is a cold reset that waits for it, or isolated a hot reset; before T0 it only holds T0 back; in the hold it is a cold reset
that ends a hold of code 3; asserted twice it does nothing. Deasserted, the EDITION pins are sampled and a waiting start-up goes on.
A warm reset keeps the link, the clocks and the HBM; before T0 WARM does nothing. A domain reset ends with the domain on; one in
reset or out of range is only noted, and one of a lost die waits with GO set. Firmware that verifies leads to HBM training, or to
the survey after a clock loss, and none to recovery; training that passes, or keeps the contents, leads to the edition; an accepted
edition to READY, and none to SAFE; each in its own phase alone. -/
def Obligations.ResetsAndStartUp : Prop :=
  ∀ s : State,
    (∀ b : Board, ∃ t, exec (.powerOnReset b) s = .next t ∧ t.sec.otp = s.sec.otp ∧ t.host = s.host ∧ t.wire = s.wire ∧
      t.pins.edition = b.edition ∧ t.pins.refclk = b.refclk ∧ t.clk.perst = true ∧ t.hif = Hif.init ∧
      (if b.testMode then t.clk.stage = .hold ∧ phase t = 9 ∧ t.pins.faultN = false
        else t.clk.stage = .troJudge ∧ phase t = 0 ∧ t.pins.faultN = true)) ∧
    (s.clk.perst = true → exec .perstAssert s = .next s) ∧
    (s.clk.perst = false → devState s ≤ 2 → s.clk.stage ≠ .hold → phase s ≤ 1 →
      exec .perstAssert s = .next { s with clk := { s.clk with perst := true } }) ∧
    (s.clk.perst = false → devState s ≤ 2 → s.clk.stage = .hold →
      ∃ t, exec .perstAssert s = .next t ∧ t.clk.perst = true ∧ t.hif = Hif.init ∧
        (if getF s Rg.CLK_BOOT_STATUS_CODE = 3 then t.clk.stage = .troJudge ∧ phase t = 0 else t.clk.stage = .hold ∧ phase t = 9)) ∧
    (s.clk.perst = false → devState s = 0 → s.pwr.committed = none → s.clk.stage = .done → 2 ≤ phase s →
      (getB s Rg.RST_CTRL_PERST_ISOLATE = false ∨ phase s ≠ phReady ∨ s.sec.edition = [] →
        ∃ t, exec .perstAssert s = .next t ∧ phase t = 1 ∧ t.clk.perst = true ∧ t.hif = Hif.init ∧
          getF t Rg.RST_CAUSE_KIND = kindColdPerst ∧ t.sec.otp = s.sec.otp) ∧
      (getB s Rg.RST_CTRL_PERST_ISOLATE = true → phase s = phReady → s.sec.edition ≠ [] →
        ∃ t, exec .perstAssert s = .next t ∧ phase t = phase s ∧ t.clk.perst = true ∧ t.hif.linkUp = false ∧ t.hif.sq = [] ∧
          getF t Rg.RST_CAUSE_KIND = kindHot ∧ t.sec.edition = s.sec.edition)) ∧
    (∀ edition, (s.clk.perst = false → exec (.perstDeassert edition) s = .next s) ∧
      (s.clk.perst = true → ∃ t, exec (.perstDeassert edition) s = .next t ∧ t.clk.perst = false ∧
        t.pins.edition = edition % 4 ∧ phase t = (if phase s = 1 then 2 else phase s))) ∧
    (∀ v, bit v 0 = false ∨ unitsRun s = false → ∃ t, exec (.rstWarm v) s = .next t ∧
      getF t Rg.RST_CTRL_PERST_ISOLATE = v / 2 % 2 ∧ ChangesOnly [.regs 1] s t) ∧
    (∀ v, bit v 0 = true → unitsRun s = true → (∀ k, k < 2 → getMerge s k = []) →
      ∃ t, exec (.rstWarm v) s = .next t ∧ t.hif.linkUp = s.hif.linkUp ∧ t.hif.cmds = [] ∧ t.mem.hbm = s.mem.hbm ∧
        getF t Rg.RST_CAUSE_KIND = kindWarmSoftware ∧
        phase t = (if s.clk.stage = .done ∧ devState s ≤ 2 then (if s.clk.perst then 1 else 2) else 0)) ∧
    (∀ d, unitsRun s = false ∨ d = 0 ∨ (79 < d ∧ d < 128) ∨
        (d < 80 ∧ ((dieOf d).map (linkIsDown s)).getD false = false ∧ domainState s d = domReset) →
      exec (.rstDomainGo d) s = .next (setF s Rg.RST_DOMAIN_DOMAIN 0 d)) ∧
    (∀ d die, unitsRun s = true → dieOf d = some die → linkIsDown s die = true →
      ∃ t, exec (.rstDomainGo d) s = .next t ∧ d ∈ t.clk.domainWait ∧ getF t Rg.RST_DOMAIN_GO = 1 ∧
        domainState t d = domainState s d) ∧
    (∀ d, 1 ≤ d → d < 80 → unitsRun s = true → ((dieOf d).map (linkIsDown s)).getD false = false → domainState s d ≠ domReset →
      ∃ t, exec (.rstDomainGo d) s = .next t ∧ domainState t d = domOn ∧ getF t Rg.RST_DOMAIN_DOMAIN = d ∧ phase t = phase s) ∧
    (phase s ≠ 2 → exec .firmwareVerified s = .next s) ∧
    (phase s = 2 → s.pwr.waking = none → (dirOf s).trial = false →
      let n := (dirOf s).active % 2
      ∃ t, exec .firmwareVerified s = .next t ∧
        (if fwSlotOk s n = true ∨ fwSlotOk s (1 - n) = true then
          t.sec.slot = some (if fwSlotOk s n then n else 1 - n) ∧ getF t Rg.CMP_STATUS_STATE = 1 ∧
            phase t = (if s.clk.surveyWait then 3 else 4)
          else t.sec.slot = none ∧ getF t Rg.TOP_STATUS_RECOVERY = 1 ∧ phase t = phSafe)) ∧
    (∀ trained kept lanes temps,
      (phase s ≠ 4 ∨ isLevel s Ev.MEM_TRAIN_FAIL = true → exec (.hbmTrainingDone trained kept lanes temps) s = .next s) ∧
      (phase s = 4 → isLevel s Ev.MEM_TRAIN_FAIL = false →
        (s.clk.restore = true → kept = (true, true) → ∃ t, exec (.hbmTrainingDone trained kept lanes temps) s = .next t ∧
          phase t = 5 ∧ isTrained t 0 = true ∧ isTrained t 1 = true ∧ t.mem.hbm = s.mem.hbm ∧ t.mem.selfRefresh = [] ∧
          getF t Rg.RST_CAUSE_HBM_KEPT = 1 ∧ getF t Rg.RST_CAUSE_HBM_LOST = 0) ∧
        (s.clk.restore = false → trained = (true, true) → lanesPass 0 lanes = true → lanesPass 1 lanes = true →
          ∃ t, exec (.hbmTrainingDone trained kept lanes temps) s = .next t ∧ phase t = 5 ∧ isTrained t 0 = true ∧
            isTrained t 1 = true ∧ t.mem.hbm = [] ∧ t.mem.selfRefresh = []))) ∧
    (phase s ≠ 5 → exec .startupEditionApply s = .next s) ∧
    (phase s = 5 → s.pwr.waking = none → ∃ t, exec .startupEditionApply s = .next t ∧
      getF t Rg.TOP_EDITION_STATUS_REQUESTED = requestedEdition s ∧ getF t Rg.TOP_EDITION_STATUS_FALLBACK = (startupChoice s).2 ∧
      (match (startupChoice s).1 with
        | some n => phase t = (if getB s Rg.CLK_STATUS_COAST then phCoast else phReady) ∧ getF t Rg.TOP_EDITION_STATUS_ACTIVE = n ∧
          t.sec.edition = slotImage s n
        | none => phase t = phSafe ∧ getF t Rg.TOP_STATUS_SAFE = 1 ∧ t.sec.edition = []))


/-! ### Power (15_power.md) -/

/-- Power entries and wakes. A unit asked that refuses ends the entry, named with its reason; one that defers is asked again at its
time; the last acknowledgement makes the entry: IDLE and NAP at once, WATCH and DORMANT committed, a domain retained or off. The
window's end abandons it, BUSY. A domain that wakes serves the accesses held for it. A committed entry goes on when its completion
is passed or after 1 ms: the clocks stop and the domains are retained (WATCH) or off (DORMANT). Comparators, the alarm and wake
sources that are enabled, and faults of PD00, wake the device; from WATCH it comes back to RUN with the domains on. The real-time
clock loads the whole second. Where there is no such entry, time or state, a row changes nothing. -/
def Obligations.PowerMoves : Prop :=
  ∀ s : State,
    let ends (e : PwrEntry) (c : Host.Outcome State Fault Refusal) (d r status detail : Nat) : Prop :=
      ∃ u, u.pwr.entry = none ∧ devState u = devState s ∧ getF u Rg.PWR_STATE_ENTERING = 0 ∧
        (r ≠ 0 → getF u Rg.PWR_STATE_REFUSE_DOMAIN = d ∧ getF u Rg.PWR_STATE_REFUSE_REASON = r) ∧
        lastEvent u Ev.PWR_ENTRY_REFUSED d r ∧ ChangesOnly [.pwr, .ev, .bgLog, .regs 2, .regs 4] s u ∧
        c = .next (match e.cmd with | some id => completeId u id status 0 detail | none => u)
    (s.pwr.entry = none → ∀ d us, exec (.powerUnitAnswer d us) s = .next s ∧ exec (.powerDeferRetry d) s = .next s ∧
      exec .entryWindowTimeout s = .next s) ∧
    (∀ e, s.pwr.entry = some e → (∀ d ∈ e.units, d < 80) →
      (∀ d us, d ∉ e.units ∨ e.deadline ≤ s.now ∨ (e.answers.get d .none ≠ .none ∧ (refusal s e d = none ∨ d ≠ 0)) ∨
          (us = 0 ∧ mustDefer s d = true ∧ refusal s e d = none) → exec (.powerUnitAnswer d us) s = .next s) ∧
      (∀ d us, d ∈ e.units → s.now < e.deadline →
        (∀ r, e.answers.get d .none = .none ∨ d = 0 → refusal s e d = some r →
          ends e (exec (.powerUnitAnswer d us) s) d r St.stateConflict (d + 256 * r)) ∧
        (e.answers.get d .none = .none → refusal s e d = none → us ≠ 0 → ∃ t, exec (.powerUnitAnswer d us) s = .next t ∧
          t.pwr = { s.pwr with entry := some { e with deferred := true,
                                                      answers := e.answers.set d (.defer (s.now + min us 65535 * 1000)) .none } } ∧
          ChangesOnly [.pwr, .ev, .bgLog, .regs 4] s t) ∧
        (e.answers.get d .none = .none → refusal s e d = none → mustDefer s d = false →
          let e1 : PwrEntry := { e with answers := e.answers.set d .ack .none }
          (allAcked e1 = false → exec (.powerUnitAnswer d 0) s = .next { s with pwr := { s.pwr with entry := some e1 } }) ∧
          (allAcked e1 = true → refusal s e 0 = none → ∃ t, exec (.powerUnitAnswer d 0) s = .next t ∧ t.pwr.entry = none ∧
            (e.domain = none → e.target = 1 ∨ e.target = 2 → devState t = e.target) ∧
            (e.domain = none → 3 ≤ e.target → t.pwr.committed.map (fun c => (c.1, c.2.1)) = some (e.target, s.now) ∧
              devState t = devState s) ∧
            ∀ g p, e.domain = some (g, p) → 1 ≤ g → g < 80 → policyAllowed g p = true →
              domainState t g = (if p = 2 then domOff else domRetained)))) ∧
      (∀ d, (∀ a, e.answers.get d .none = .defer a → s.now < a) → exec (.powerDeferRetry d) s = .next s) ∧
      (∀ d a, e.answers.get d .none = .defer a → a ≤ s.now →
        exec (.powerDeferRetry d) s = .next { s with pwr := { s.pwr with entry := some { e with answers := e.answers.set d .none .none } } }) ∧
      (s.now < e.deadline ∨ allAcked e = true → exec .entryWindowTimeout s = .next s) ∧
      (e.deadline ≤ s.now → allAcked e = false →
        ends e (exec .entryWindowTimeout s) ((e.units.find? fun d => e.answers.get d .none != .ack).getD 0) 0 St.busy 0)) ∧
    (∀ d, (mayAutoGate s d = false → exec (.autoDomainGate d) s = .next s) ∧
      (mayAutoGate s d = true →
        let g := (d, getF s Rg.PWR_DOMAIN_POLICY d)
        exec (.autoDomainGate d) s = .next { s with pwr := { s.pwr with entry := some ⟨0, some g, none, entryUnits s 0 (some g), [],
          s.now + getF s Rg.PWR_CTRL_AUTO_WINDOW_MS * msNs, false, false⟩ } })) ∧
    (∀ d, (domainState s d ≠ domWaking → exec (.domainWakeDone d) s = .next s) ∧
      (1 ≤ d → d < 80 → domainState s d = domWaking →
        ∃ u, ∀ v, v = (s.pwr.held.filter fun h => h.domain == d).foldl (fun x h => reachReg x h.off h.write) u →
          domainState u d = domOn ∧ u.pwr = { s.pwr with held := s.pwr.held.filter fun h => h.domain != d } ∧
          exec (.domainWakeDone d) s = .next (match v.pwr.entry with
            | some e => if e.domain = some (d, 0) then entryOk (clearEntry v) e.cmd else v
            | none => v))) ∧
    (s.pwr.committed = none → exec .watchEntryProceed s = .next s) ∧
    (∀ tgt since q w, s.pwr.committed = some (tgt, since, q, w) → tgt = 3 ∨ tgt = 4 →
      let passed := q < 64 ∧ hostReachable s = true ∧ (cqHead s q + 2 ^ 32 - w) % 2 ^ 32 < 2 ^ 31
      (¬ passed → s.now < since + msNs → exec .watchEntryProceed s = .next s) ∧
      (passed ∨ since + msNs ≤ s.now →
        ∃ t, exec .watchEntryProceed s = .next t ∧ devState t = tgt ∧ t.pwr.committed = none ∧ getF t Rg.PWR_STATE_ENTERING = 0 ∧
          t.hif.linkUp = false ∧ (∀ n, n < 6 → pllLocked t n = false) ∧
          ∀ d, 1 ≤ d → d < 80 → domainState t d = (if tgt = 4 then domOff
            else if domainState s d = domOff ∨ domainState s d = domReset then domainState s d else domRetained))) ∧
    (∀ temps rails lanes sync,
      (devState s ≠ 3 ∨ s.pwr.waking ≠ none → exec (.watchSample temps rails lanes sync) s = .next s) ∧
      (devState s = 3 → s.pwr.waking = none → s.pwr.committed = none →
        ∃ t, exec (.watchSample temps rails lanes sync) s = .next t ∧ devState t = 3 ∧
          getF t Rg.PWR_WATCH_STATUS_SAMPLES = min (getF s Rg.PWR_WATCH_STATUS_SAMPLES + 1) (2 ^ 24 - 1) ∧
          ∀ i, i < s.pwr.cmps.length → ∀ r, s.pwr.cmps.getD i 0 = r → cmpKind r ≠ 0 →
            (cmpMatches r temps rails lanes sync = false → t.pwr.runs.get i 0 = 0) ∧
            (cmpMatches r temps rails lanes sync = true → t.pwr.runs.get i 0 = s.pwr.runs.get i 0 + 1 ∧
              (bits r 24 8 ≤ s.pwr.runs.get i 0 + 1 → getF t Rg.PWR_WATCH_STATUS_MATCHED = 1 ∧ i ∈ t.pwr.matched ∧
                (bits r 48 8 = 0 → bit s.pwr.wakeEn 1 = true → t.pwr.waking = some 3))))) ∧
    (getB s Rg.PWR_RTC_ALARM_ARMED = false ∨ rtcSec s % 2 ^ 32 ≠ getF s Rg.PWR_RTC_ALARM_SEC_LOW → exec .rtcAlarm s = .next s) ∧
    (getB s Rg.PWR_RTC_ALARM_ARMED = true → rtcSec s % 2 ^ 32 = getF s Rg.PWR_RTC_ALARM_SEC_LOW →
      ∃ t, exec .rtcAlarm s = .next t ∧ (devState s = 0 → s.pwr.committed = none →
          getF t Rg.PWR_RTC_ALARM_ARMED = 0 ∧ ChangesOnly [.tmr, .regs 2] s t) ∧
        (devState s = 3 → s.pwr.committed = none → s.pwr.waking = none → bit s.pwr.wakeEn 0 = true →
          t.pwr.waking = some 3 ∧ getF t Rg.PWR_WAKE_RECORD_VALID = 1)) ∧
    (getB s Rg.MER_STATUS_TIME_VALID = false ∨ domainOn s 5 = false ∨ atSecond s 0 = false → exec .rtcSecondLoad s = .next s) ∧
    (getB s Rg.MER_STATUS_TIME_VALID = true → domainOn s 5 = true → atSecond s 0 = true →
      exec .rtcSecondLoad s = .next { s with pwr := { s.pwr with rtcBase := s.mer.sec * 32768, rtcAt := s.now } }) ∧
    (∀ seen fault, s.pwr.committed = none →
      (devState s = 0 ∨ (aonFault fault = none ∧ seen % 64 &&& s.pwr.wakeEn % 64 = 0) → exec (.wakeEvent seen fault) s = .next s) ∧
      (devState s = 1 ∨ devState s = 2 → aonFault fault ≠ none ∨ seen % 64 &&& s.pwr.wakeEn % 64 ≠ 0 →
        ∃ t, exec (.wakeEvent seen fault) s = .next t ∧ devState t = 0 ∧ (aonFault fault = none →
          getF t Rg.PWR_WAKE_RECORD_VALID = 1 ∧ getF t Rg.PWR_WAKE_RECORD_FROM = devState s ∧ lastEvent t Ev.PWR_WAKE 0 0)) ∧
      (s.pwr.waking = none → aonFault fault ≠ none ∨ seen % 64 &&& s.pwr.wakeEn % 64 ≠ 0 →
        (devState s = 3 → ∃ t, exec (.wakeEvent seen fault) s = .next t ∧ devState t = 3 ∧
          t.pwr.waking = some 3 ∧ t.pwr.wakeFault = aonFault fault ∧ getF t Rg.PWR_WAKE_RECORD_FROM = 3) ∧
        (devState s = 4 → s.clk.perst = false → ∃ t, exec (.wakeEvent seen fault) s = .next t ∧
          devState t = 0 ∧ t.pwr.waking = some 4 ∧ t.clk.stage = .troJudge ∧ phase t = 0 ∧
          ∀ d, 1 ≤ d → d < 80 → domainState t d = domOn))) ∧
    ∀ count, (s.pwr.waking ≠ some 3 ∨ devState s ≠ 3 → exec (.watchWakeDone count) s = .next s) ∧
      (s.pwr.waking = some 3 → devState s = 3 →
        ∃ t, exec (.watchWakeDone count) s = .next t ∧ devState t = 0 ∧ t.pwr.waking = none ∧
          (s.pwr.wakeFault = none → s.clk.perst = false → t.mem.selfRefresh = [] ∧
            ∀ d, 1 ≤ d → d < 80 → domainState s d = domRetained → domainState t d = domOn))


/-! ### Editions, firmware and the Compass (16_editions_security.md) -/

/-- Editions and firmware. A selection's staging keeps an image that may apply until its instant, or ends the selection: no image
STATE_CONFLICT, not authentic AUTH_FAIL, a bad field INVALID_FIELD. At its instant the image becomes the running edition; the
command completes when its staged parts have. Without a schedule the instant is the end of staging. Programming that ends leaves
image and digest in its slot, one that fails an empty slot, DATA_ERROR. FW_ACTIVATE NOW resets warm at its time. The Compass watchdog
halts it: a fatal fault without a survey, which the policy may end with a warm reset. Out of its state each row changes nothing. The
sections' layouts are the model's where the spec is silent (log 23). -/
def Obligations.EditionsApplied : Prop :=
  ∀ s : State,
    let done (y : Select) (c : Host.Outcome State Fault Refusal) : Prop :=
      ∃ t, c = .next t ∧ t.sec.edition = y.image ∧ getF t Rg.TOP_EDITION_STATUS_ACTIVE = y.slot ∧
        getF t Rg.TOP_STATUS_UNSIGNED_EDITION = (if edSigned y.image then 0 else 1) ∧
        getF t Rg.TOP_EDITION_STATUS_SELECT_PENDING = 0 ∧ getF t Rg.TOP_EDITION_STATUS_FALLBACK = 0 ∧
        getF t Rg.TOP_STATUS_SAFE = 0 ∧ (getF s Rg.TOP_STATUS_SAFE = 1 → phase t = phReady) ∧
        (t.sec.select = none ∨ ∃ z, t.sec.select = some z ∧ z.applied = true ∧ ∃ id ∈ z.waits, findCmd t id ≠ none)
    (s.sec.select = none → exec .editionStagingDone s = .next s ∧ exec .editionApplyInstant s = .next s) ∧
    (∀ x, s.sec.select = some x →
      let ends (l : List Part) (status detail : Nat) : Prop :=
        ∃ u, u.sec.select = none ∧ getF u Rg.TOP_EDITION_STATUS_SELECT_PENDING = 0 ∧ ChangesOnly l s u ∧
          exec .editionStagingDone s = .next (x.deferred.foldl runDeferred (completeId u x.cmd status 0 detail))
      (x.staged = false →
        let img := slotImage s x.slot
        let t := (edBuild s img).1
        let ids := sectionsDiffering s t
        (img = [] → ends [.select, .regs 0] St.stateConflict 0) ∧
        (∀ k i, img ≠ [] → edCommandCheck s img = some (k, i) →
          if isAuth k then ends [.select, .ev, .bgLog, .regs 0, .regs 4, .regs 13] St.authFail 0
          else ends [.select, .regs 0] St.invalidField i) ∧
        (img ≠ [] → edCommandCheck s img = none →
          (3 ∈ ids → anyStream s = true ∨ anyView s = true → ends [.select, .regs 0] St.stateConflict 0) ∧
          (3 ∉ ids ∨ (anyStream s = false ∧ anyView s = false) →
            let y : Select := { x with staged := true, image := img, j := (getTrig s 0).j, differed := (ids.map (2 ^ ·)).sum }
            (edLoadOk s t = false → ends [.select, .regs 0] St.noResource 0) ∧
            (edLoadOk s t = true → (scheduleOf s 0).isSome = true →
              exec .editionStagingDone s = .next { s with sec := { s.sec with select := some y } }) ∧
            (edLoadOk s t = true → (scheduleOf s 0).isSome = false → x.deferred = [] → x.slot < 4 →
              done y (exec .editionStagingDone s))))) ∧
      (x.staged = true → exec .editionStagingDone s = .next s) ∧
      (x.applied = false → x.staged = true → instantDue s x = true → x.deferred = [] → x.slot < 4 →
        done x (exec .editionApplyInstant s)) ∧
      (x.applied = false → x.staged = false ∨ instantDue s x = false → exec .editionApplyInstant s = .next s) ∧
      (x.applied = true → (∀ id ∈ x.waits, findCmd s id = none) → exec .editionApplyInstant s =
        .next (completeId { s with sec := { s.sec with select := none } } x.cmd St.ok x.at_ x.differed))) ∧
    (∀ a, s.sec.resetAt = some a → (if a ≤ s.now then
        ∃ t, exec .fwActivateReset s = .next t ∧ t.sec.resetAt = none ∧ t.hif.cmds = [] ∧ t.hif.linkUp = s.hif.linkUp ∧
          getF t Rg.RST_CAUSE_KIND = kindWarmSoftware ∧ ((∀ k, k < 2 → getMerge s k = []) → t.mem.hbm = s.mem.hbm) ∧
          phase t = (if s.clk.stage = .done ∧ devState s ≤ 2 then (if s.clk.perst then 1 else 2) else 0)
      else exec .fwActivateReset s = .next s)) ∧
    (s.sec.resetAt = none → exec .fwActivateReset s = .next s) ∧
    (s.sec.jobs = [] → ∀ ok, exec (.flashProgramDone ok) s = .next s) ∧
    (∀ j rest, s.sec.jobs = j :: rest → (dirOf s).seq + 1 < 2 ^ 32 →
      (flashUsable s = true → j.image = [] →
        exec (.flashProgramDone true) s = .next (completeId { s with sec := { s.sec with jobs := rest } } j.cmd St.ok (leAt [] 12 4))) ∧
      (flashUsable s = true → j.image ≠ [] → ∃ u, exec (.flashProgramDone true) s = .next (completeId u j.cmd St.ok (leAt j.image 12 4)) ∧
        u.sec.jobs = rest ∧ ChangesOnly [.sec, .regs 0] s u ∧
        (if j.edition then u.sec.flash.ed.get j.slot [] = j.image ∧ u.sec.flash.fw = s.sec.flash.fw ∧
            (dirOf u).ed.get j.slot none = some (Config.sm3 (j.image.take (edEnd j.image))) ∧
            (j.slot < 4 → getF u Rg.TOP_EDITION_SERIAL_SERIAL j.slot = edSerial j.image)
          else u.sec.flash.fw.get j.slot [] = j.image ∧ u.sec.flash.ed = s.sec.flash.ed ∧
            (dirOf u).fw.get j.slot none = some (Config.sm3 (fwBody j.image)))) ∧
      ∀ ok, ok = false ∨ flashUsable s = false →
      ∃ u, exec (.flashProgramDone ok) s = .next (completeId u j.cmd St.dataError) ∧ u.sec.jobs = rest ∧
        ChangesOnly [.sec, .regs 0] s u ∧
        (if j.edition then u.sec.flash.ed.get j.slot [] = [] ∧ (dirOf u).ed.get j.slot none = none
          else u.sec.flash.fw.get j.slot [] = [] ∧ (dirOf u).fw.get j.slot none = none)) ∧
    (compassRuns s = false → exec .cmpWatchdog s = .next s) ∧
    (compassRuns s = true → inFe s = true → ∃ t, exec .cmpWatchdog s = .next t ∧ getF t Rg.CMP_STATUS_STATE = 2 ∧ inFe t = true) ∧
    (compassRuns s = true → inFe s = false → getF s Rg.FLT_POLICY_ACTION = 1 → ∃ t, exec .cmpWatchdog s = .next t ∧
      inFe t = false ∧ t.pins.faultN = true ∧ t.hif.cmds = [] ∧ getF t Rg.RST_CAUSE_KIND = kindWarmPolicy) ∧
    (compassRuns s = true → inFe s = false → napping s = false → getF s Rg.FLT_POLICY_ACTION ≠ 1 →
      ∃ t, exec .cmpWatchdog s = .next t ∧ getF t Rg.CMP_STATUS_STATE = 2 ∧ inFe t = true ∧ getSticky t Ev.CMP_WATCHDOG = true ∧
        t.pins.faultN = false ∧ t.sht.running = none ∧ getF t Rg.FLT_STATE_SURVEY = 3 ∧ t.ev.survey = s.ev.survey)


/-! ### Background services and the SMBus target (17_background_services.md, 18_package.md) -/

/-- The ageing engine, flash records and sensors. With curves a pass starts when asked or due, or again after the one that runs.
Its end puts each block's gain in force, staged where the view has a schedule. Due dose summaries go to the least erased of three
slots; fault records to the log's sectors. Each second's telemetry record is stored in its ring, or counted as lost. Passes,
summaries, flushes and records wait while the background services do not run. Samples are shown with their flags and counted
against the warning; in DORMANT sensor 10, critical twice, wakes the device. The layouts of the two flash bodies and of the telemetry record's open
fields are the model's (logs 5 and 24). -/
def Obligations.BackgroundRuns : Prop :=
  ∀ s : State,
    (s.bg.curves = none → exec .ageUpdateNow s = .next s) ∧
    (∀ c p, s.bg.curves = some c → s.bg.pass = some p →
      exec .ageUpdateNow s = .next { s with bg := { s.bg with passAgain := true } }) ∧
    (∀ c, s.bg.curves = some c → s.bg.pass = none →
      let p : GainPass := ⟨c, if c.isEmpty then s.prj.doseSize.map (·.1) else wallSet s⟩
      (∃ t, exec .ageUpdateNow s = .next t ∧ getF t Rg.SNS_AGE_STATUS_RUNNING = 1 ∧
        t.bg = { s.bg with pass := some p, passAgain := false } ∧ ChangesOnly [.bg, .regs 15] s t) ∧
      (getB s Rg.SNS_AGE_CTRL_ENABLE = true → s.bg.passAt + 60 * getF s Rg.SNS_AGE_CTRL_PERIOD_MIN ≤ rtcSec s → servicesRun s = true →
        ∃ t, exec .ageingPass s = .next t ∧ getF t Rg.SNS_AGE_STATUS_RUNNING = 1 ∧
          t.bg = { s.bg with pass := some p, passAgain := false, passAt := rtcSec s } ∧ ChangesOnly [.bg, .regs 15] s t)) ∧
    (getB s Rg.SNS_AGE_CTRL_ENABLE = true → s.bg.passAt + 60 * getF s Rg.SNS_AGE_CTRL_PERIOD_MIN ≤ rtcSec s → servicesRun s = true →
      (s.bg.curves = none → exec .ageingPass s = .next { s with bg := { s.bg with passAt := rtcSec s } }) ∧
      (s.bg.curves ≠ none → s.bg.pass ≠ none →
        exec .ageingPass s = .next { s with bg := { s.bg with passAt := rtcSec s, passAgain := true } })) ∧
    (getB s Rg.SNS_AGE_CTRL_ENABLE = false ∨ rtcSec s < s.bg.passAt + 60 * getF s Rg.SNS_AGE_CTRL_PERIOD_MIN ∨ servicesRun s = false →
      exec .ageingPass s = .next s) ∧
    (s.bg.pass = none ∨ domainOn s 35 = false → exec .ageingPassDone s = .next s) ∧
    (∀ p c, s.bg.pass = some p → s.bg.passAgain = true → s.bg.doseWait = [] → domainOn s 35 = true → s.bg.curves = some c → c ≠ [] →
      ∃ t, exec .ageingPassDone s = .next t ∧ t.bg.pass.map (·.curves) = some c ∧ t.bg.passAgain = false ∧
        getF t Rg.SNS_AGE_STATUS_RUNNING = 1 ∧ getF t Rg.SNS_AGE_STATUS_PASSES = min (getF s Rg.SNS_AGE_STATUS_PASSES + 1) 65535) ∧
    (∀ p, s.bg.pass = some p → s.bg.passAgain = false → s.bg.doseWait = [] → domainOn s 35 = true →
      let refs := (List.range 3).map fun c => if p.curves.isEmpty then 32768 else passRef s p c
      let gains (d : Nat) : SMap Nat := if p.curves.isEmpty then [] else passGains s p refs d
      ∃ t, exec .ageingPassDone s = .next t ∧ t.bg.pass = none ∧ getF t Rg.SNS_AGE_STATUS_RUNNING = 0 ∧
        getF t Rg.SNS_AGE_STATUS_PASSES = min (getF s Rg.SNS_AGE_STATUS_PASSES + 1) 65535 ∧
        getF t Rg.SNS_AGE_REF_REF = refs.getD 0 0 + 2 ^ 16 * refs.getD 1 0 + 2 ^ 32 * refs.getD 2 0 ∧
        (∀ d ∈ p.sheets, ∀ v, v < 8 → if viewUses s v d = true ∧ (scheduleOf s v).isSome = true
          then (8 * d + v, gains d) ∈ t.prj.gainStaged else t.prj.gain.get (8 * d + v) [] = gains d) ∧
        t.prj.dose = s.prj.dose ∧ ChangesOnly [.prj, .bg, .regs 15] s t) ∧
    (let h := getF s Rg.SNS_SUMMARY_PERIOD_H
      if h ≠ 0 ∧ s.bg.summaryAt + h * 3600 * secNs ≤ s.now ∧ flashUsable s = true ∧ servicesRun s = true then
        let m := s.sec.flash.summary
        let k := leastErased m [0, 1, 2]
        let r := summarySheets s s.prj.doseSize 0
        ∃ t, exec .summaryWrite s = .next t ∧ t.sec.flash = { s.sec.flash with
            summary := m.set k ⟨newestSeq m + 1, (m.get k FlashArea.init).erases + 1, curveBytes s ++ r.1⟩ FlashArea.init } ∧
          t.bg = { s.bg with summaryAt := s.now } ∧ getF t Rg.SNS_SUMMARY_SLOT = k ∧
          getF t Rg.SNS_SUMMARY_TRUNCATED = (if r.2 then 1 else 0) ∧
          getF t Rg.SNS_SUMMARY_WRITES = min (getF s Rg.SNS_SUMMARY_WRITES + 1) 65535 ∧ ChangesOnly [.bg, .sec, .regs 15] s t
      else exec .summaryWrite s = .next s) ∧
    (s.bg.faultBuf ≠ [] → 64 ≤ s.bg.faultBuf.length ∨ s.bg.flushAt + 10 * secNs ≤ s.now → flashUsable s = true → servicesRun s = true →
      exec .faultLogFlush s = .next { s with
        sec := { s.sec with flash := { s.sec.flash with log := s.bg.faultBuf.foldl logRecord s.sec.flash.log } }
        bg := { s.bg with faultBuf := [], flushAt := s.now } }) ∧
    (s.bg.faultBuf = [] ∨ (s.bg.faultBuf.length < 64 ∧ s.now < s.bg.flushAt + 10 * secNs) ∨ flashUsable s = false ∨
      servicesRun s = false → exec .faultLogFlush s = .next s) ∧
    (telemetryDue s = false → exec .telemetryRecord s = .next s) ∧
    (telemetryDue s = true → s.bg.telemetry = none →
      exec .telemetryRecord s = .next { s with bg := { s.bg with teleAt := some (s.mer.sec, s.now), teleCounts := [] } }) ∧
    (∀ x, telemetryDue s = true → s.bg.telemetry = some x → ∃ t, exec .telemetryRecord s = .next t ∧
      t.bg = { s.bg with telemetry := some { x with seq := (x.seq + 1) % 2 ^ 32 }, teleCounts := [], teleAt := some (s.mer.sec, s.now) } ∧
      (if hostReachable s = true ∧ (channelOf s ownerTelemetry).isSome = true ∧ servicesRun s = true then
        StoresBytes (x.addr + x.seq * 1024 % x.size) (teleRecord s x.seq) s t ∧ getF t Rg.SNS_TELEMETRY_SEQ = x.seq % 2 ^ 32 ∧
          t.freeCtr = s.freeCtr + 2 ∧ ChangesOnly [.host, .freeCtr, .bgLog, .bg, .regs 15] s t
        else getF t Rg.SNS_TELEMETRY_LOST = min (getF s Rg.SNS_TELEMETRY_LOST + 1) (2 ^ 32 - 1) ∧
          ChangesOnly [.bgLog, .bg, .regs 15] s t)) ∧
    (∀ temps rails : List Int, devState s = 3 ∨ 4 < devState s ∨ (devState s = 4 ∧ s.pwr.waking ≠ none) →
      exec (.sensorSample temps rails) s = .next s) ∧
    (∀ temps rails : List Int, devState s = 4 → s.pwr.waking = none → s.pwr.committed = none → s.clk.perst = false → 10 < temps.length →
      tempCrit s 10 (temps.getD 10 0) = true → (getTempMon s 10).crit = 1 → isLevel s Ev.SNS_TEMP_CRIT = false →
      ∃ t, exec (.sensorSample temps rails) s = .next t ∧ devState t = 0 ∧ t.pwr.waking = some 4 ∧
        t.pwr.wakeFault = some Ev.SNS_TEMP_CRIT ∧ t.clk.stage = .troJudge) ∧
    (∀ temps rails : List Int, devState s ≤ 2 → temps.length ≤ 32 → rails.length ≤ 12 →
      (∀ v ∈ temps ++ rails, -32768 ≤ v ∧ v < 32768) → (∀ m ∈ s.bg.temps ++ s.bg.rails, m.2.crit = 0) →
      (∀ i, i < temps.length → tempCrit s i (temps.getD i 0) = false) → (∀ i, i < rails.length → railCrit s i (rails.getD i 0) = false) →
      ∃ t, exec (.sensorSample temps rails) s = .next t ∧
        (∀ i, i < temps.length → ∀ v, v = temps.getD i 0 → let past := v ≠ openSensor ∧ getS s Rg.SNS_TEMP_THR_HIGH i < v
          getS t Rg.SNS_TEMP_VALUE i = v ∧ getF t Rg.SNS_TEMP_CRIT i = 0 ∧ (getB t Rg.SNS_TEMP_HIGH i = true ↔ past) ∧
          (past → (getTempMon t i).warn = min ((getTempMon s i).warn + 1) 4) ∧ (¬ past → (getTempMon t i).warn = 0)) ∧
        (∀ i, i < rails.length → getS t Rg.SNS_RAIL_MV i = rails.getD i 0 ∧ getF t Rg.SNS_RAIL_CRIT i = 0) ∧
        ChangesOnly [.ev, .bgLog, .bg, .mem, .regs 4, .regs 5, .regs 15] s t)

/-- The SMBus target. It takes an offset; a read answers the word there and a write reaches the register, each moving the offset
by 4; a domain that is not on answers its stand-in and takes nothing, its domain not woken; no register answers 0, and one that is
not live in clock hold a free value. It wakes the device where source 5 is enabled, and resets it cold or warm: cold, clock start
that has not ended goes on where it is; warm, units still in their first reset stay there. -/
def Obligations.SmbusServed : Prop :=
  ∀ s : State,
    (∀ off, exec (.smbusSetOffset off) s = .next { s with sec := { s.sec with smbOffset := off % 2 ^ 32 } }) ∧
    (let off := s.sec.smbOffset
      let d := domainOf off
      let moved (t : State) : Prop := t.sec.smbOffset = (off + 4) % 2 ^ 32
      (off % 4 ≠ 0 ∨ 0x04000000 ≤ off ∨ occupied off = false →
        (∃ t, exec .smbusRead s = .next t ∧ moved t ∧ t.wire = s.wire ++ [.smbus (leBytes 4 0)]) ∧
        ∀ v, ∃ t, exec (.smbusWrite v) s = .next t ∧ moved t ∧ t.wire = s.wire) ∧
      (off % 4 = 0 → off < 0x04000000 → occupied off = true → smbLive s off = false →
        (∃ t, exec .smbusRead s = .next t ∧ moved t ∧ t.wire = s.wire ++ [.smbus (leBytes 4 (Config.free s.freeCtr))] ∧
          t.freeCtr = s.freeCtr + 1) ∧
        ∀ v, exec (.smbusWrite v) s = .next { s with sec := { s.sec with smbOffset := (off + 4) % 2 ^ 32 } }) ∧
      (off % 4 = 0 → off < 0x04000000 → occupied off = true → smbLive s off = true →
      (domainOn s d = true →
        (∃ t, exec .smbusRead s = .next t ∧ moved t ∧
          (unitRead (smbAnswer s (peekWord s off)) off = none → t.wire = s.wire ++ [.smbus (leBytes 4 (peekWord s off))])) ∧
        ∀ v, ∃ t, exec (.smbusWrite v) s = .next t ∧ moved t ∧ t = { regWrite s off v with sec := t.sec } ∧
          { t.sec with smbOffset := 0 } = { (regWrite s off v).sec with smbOffset := 0 }) ∧
      (domainOn s d = false → d < 80 →
        (∃ t, exec .smbusRead s = .next t ∧ moved t ∧ t.wire = s.wire ++ [.smbus (leBytes 4 (standIn d))] ∧ domainState t d = domainState s d) ∧
        ∀ v, ∃ t, exec (.smbusWrite v) s = .next t ∧ moved t ∧ domainState t d = domainState s d ∧ t.wire = s.wire ∧
          getF t Rg.PWR_DOMAIN_STANDIN_ACCESSES d = min (getF s Rg.PWR_DOMAIN_STANDIN_ACCESSES d + 1) 255 ∧
          lastEvent t Ev.PWR_STANDIN_ACCESS d (off % 2 ^ 32) ∧ ChangesOnly [.sec, .ev, .bgLog, .regs 2, .regs 4] s t))) ∧
    (s.pwr.committed = none → (devState s = 0 ∨ bit s.pwr.wakeEn 5 = false → exec .smbusWake s = .next s) ∧
      (bit s.pwr.wakeEn 5 = true →
        (devState s = 4 → s.pwr.waking = none → s.clk.perst = false → ∃ t, exec .smbusWake s = .next t ∧ devState t = 0 ∧
          t.pwr.waking = some 4 ∧ t.clk.stage = .troJudge ∧ getF t Rg.PWR_WAKE_RECORD_SOURCE = 5) ∧
        (devState s = 1 ∨ devState s = 2 → ∃ t, exec .smbusWake s = .next t ∧ devState t = 0 ∧ getF t Rg.PWR_WAKE_RECORD_SOURCE = 5) ∧
        (devState s = 3 → s.pwr.waking = none → ∃ t, exec .smbusWake s = .next t ∧ t.pwr.waking = some 3 ∧
          getF t Rg.PWR_WAKE_RECORD_SOURCE = 5))) ∧
    (∃ t, exec .smbusColdReset s = .next t ∧
      (if s.clk.stage = .done then phase t = (if 2 < devState s then 0 else if s.clk.perst then 1 else 2)
        else t.clk.stage = s.clk.stage ∧ phase t = (if s.clk.stage = .hold then 9 else 0)) ∧
      getF t Rg.RST_CAUSE_KIND = kindColdSmbus ∧ t.hif = Hif.init ∧ t.mem.hbm = [] ∧ t.sec.otp = s.sec.otp ∧ t.host = s.host) ∧
    (unitsRun s = true → ∃ t, exec .smbusWarmReset s = .next t ∧ getF t Rg.RST_CAUSE_KIND = kindWarmSmbus ∧
      t.hif.linkUp = s.hif.linkUp ∧ t.hif.cmds = [] ∧ ((∀ k, k < 2 → getMerge s k = []) → t.mem.hbm = s.mem.hbm) ∧
      phase t = (if s.clk.stage = .done ∧ devState s ≤ 2 then (if s.clk.perst then 1 else 2) else 0)) ∧
    (unitsRun s = false → exec .smbusWarmReset s = .next s)
end

