-- ==== Sys2Proof/Laws/SMap.lean ====
section
/-!
SUPPORT. Laws of the sparse map: what a key reads after a write, and that writes keep the canonical form.
-/

set_option Elab.async false

namespace Sys2Proof

variable {α : Type}

/-- The canonical form: keys rise strictly, and no entry equals what an unlisted key reads as. -/
def SMap.canon [DecidableEq α] (m : SMap α) (d : α) : Bool := m.sorted && m.all fun e => e.2 != d

theorem SMap.get_insert_same (m : SMap α) (k : Nat) (v d : α) : (m.insert k v).get k d = v := by
  induction m with
  | nil => simp [SMap.insert, SMap.get]
  | cons e r ih =>
    obtain ⟨j, w⟩ := e
    simp only [SMap.insert]
    split
    · simp [SMap.get]
    · split
      · simp [SMap.get]
      · rename_i h1 h2
        simp only [SMap.get]
        rw [if_neg (Ne.symm h2)]
        exact ih

theorem SMap.get_insert_ne (m : SMap α) {k l : Nat} (v d : α) (h : l ≠ k) : (m.insert k v).get l d = m.get l d := by
  induction m with
  | nil => simp [SMap.insert, SMap.get, Ne.symm h]
  | cons e r ih =>
    obtain ⟨j, w⟩ := e
    simp only [SMap.insert]
    split
    · simp [SMap.get, Ne.symm h]
    · split
      · subst_vars
        simp [SMap.get, Ne.symm h]
      · simp only [SMap.get]
        split
        · rfl
        · exact ih

theorem SMap.get_erase_same (m : SMap α) (k : Nat) (d : α) : (m.erase k).get k d = d := by
  induction m with
  | nil => rfl
  | cons e r ih =>
    obtain ⟨j, w⟩ := e
    simp only [SMap.erase]
    split
    · exact ih
    · rename_i h
      simp only [SMap.get]
      rw [if_neg (Ne.symm h)]
      exact ih

theorem SMap.get_erase_ne (m : SMap α) {k l : Nat} (d : α) (h : l ≠ k) : (m.erase k).get l d = m.get l d := by
  induction m with
  | nil => rfl
  | cons e r ih =>
    obtain ⟨j, w⟩ := e
    simp only [SMap.erase]
    split
    · subst_vars
      simp only [SMap.get]
      rw [if_neg (Ne.symm h)]
      exact ih
    · simp only [SMap.get]
      split
      · rfl
      · exact ih

/-- A written key reads what was written. -/
@[simp] theorem SMap.get_set_same [DecidableEq α] (m : SMap α) (k : Nat) (v d : α) : (m.set k v d).get k d = v := by
  unfold SMap.set
  split
  · subst_vars
    exact SMap.get_erase_same m k _
  · exact SMap.get_insert_same m k v d

/-- Every other key reads what it read. -/
theorem SMap.get_set_ne [DecidableEq α] (m : SMap α) {k l : Nat} (v d e : α) (h : l ≠ k) :
    (m.set k v d).get l e = m.get l e := by
  unfold SMap.set
  split
  · exact SMap.get_erase_ne m e h
  · exact SMap.get_insert_ne m v e h

/-- Every key of the map is above a bound. -/
def SMap.above (m : SMap α) (b : Nat) : Prop := ∀ e ∈ m, b < e.1

theorem SMap.sorted_cons (e : Nat × α) (r : SMap α) : SMap.sorted (e :: r) = true ↔ SMap.above r e.1 ∧ r.sorted = true := by
  induction r generalizing e with
  | nil => obtain ⟨a, b⟩ := e; simp [SMap.sorted, SMap.above]
  | cons f t ih =>
    obtain ⟨a, b⟩ := e
    obtain ⟨c, d⟩ := f
    simp only [SMap.sorted, Bool.and_eq_true, decide_eq_true_eq]
    constructor
    · rintro ⟨h1, h2⟩
      refine ⟨?_, h2⟩
      intro x hx
      simp only [List.mem_cons] at hx
      rcases hx with rfl | hx
      · exact h1
      · have := ((ih (c, d)).1 h2).1 x hx
        simp only at this
        omega
    · rintro ⟨h1, h2⟩
      exact ⟨h1 (c, d) (by simp), h2⟩

theorem SMap.mem_insert {m : SMap α} {k : Nat} {v : α} {e : Nat × α} (h : e ∈ m.insert k v) : e = (k, v) ∨ e ∈ m := by
  induction m with
  | nil => simpa [SMap.insert] using h
  | cons f r ih =>
    obtain ⟨j, w⟩ := f
    simp only [SMap.insert] at h
    split at h
    · simpa using h
    · split at h
      · simp only [List.mem_cons] at h ⊢
        rcases h with h | h
        · exact .inl h
        · exact .inr (.inr h)
      · simp only [List.mem_cons] at h ⊢
        rcases h with h | h
        · exact .inr (.inl h)
        · rcases ih h with h | h
          · exact .inl h
          · exact .inr (.inr h)

theorem SMap.mem_erase {m : SMap α} {k : Nat} {e : Nat × α} (h : e ∈ m.erase k) : e ∈ m := by
  induction m with
  | nil => simp [SMap.erase] at h
  | cons f r ih =>
    obtain ⟨j, w⟩ := f
    simp only [SMap.erase] at h
    split at h
    · exact List.mem_cons_of_mem _ (ih h)
    · simp only [List.mem_cons] at h ⊢
      rcases h with h | h
      · exact .inl h
      · exact .inr (ih h)

theorem SMap.sorted_insert {m : SMap α} (k : Nat) (v : α) (h : m.sorted = true) : (m.insert k v).sorted = true := by
  induction m with
  | nil => rfl
  | cons f r ih =>
    obtain ⟨j, w⟩ := f
    obtain ⟨h1, h2⟩ := (SMap.sorted_cons _ _).1 h
    simp only [SMap.insert]
    split
    · rename_i hk
      refine (SMap.sorted_cons _ _).2 ⟨?_, h⟩
      intro x hx
      simp only [List.mem_cons] at hx
      rcases hx with rfl | hx
      · exact hk
      · exact Nat.lt_trans hk (h1 x hx)
    · split
      · rename_i hk
        subst hk
        exact (SMap.sorted_cons _ _).2 ⟨h1, h2⟩
      · refine (SMap.sorted_cons _ _).2 ⟨?_, ih h2⟩
        intro x hx
        rcases SMap.mem_insert hx with rfl | hx
        · simp only; omega
        · exact h1 x hx

theorem SMap.sorted_erase {m : SMap α} (k : Nat) (h : m.sorted = true) : (m.erase k).sorted = true := by
  induction m with
  | nil => rfl
  | cons f r ih =>
    obtain ⟨j, w⟩ := f
    obtain ⟨h1, h2⟩ := (SMap.sorted_cons _ _).1 h
    simp only [SMap.erase]
    split
    · exact ih h2
    · exact (SMap.sorted_cons _ _).2 ⟨fun x hx => h1 x (SMap.mem_erase hx), ih h2⟩

theorem SMap.sorted_filter {m : SMap α} (p : Nat × α → Bool) (h : m.sorted = true) : SMap.sorted (m.filter p) = true := by
  induction m with
  | nil => rfl
  | cons f r ih =>
    obtain ⟨h1, h2⟩ := (SMap.sorted_cons _ _).1 h
    rw [List.filter_cons]
    split
    · exact (SMap.sorted_cons _ _).2 ⟨fun x hx => h1 x (List.mem_filter.1 hx).1, ih h2⟩
    · exact ih h2

/-- A write keeps the canonical form. -/
theorem SMap.canon_set [DecidableEq α] {m : SMap α} (k : Nat) (v d : α) (h : m.canon d = true) : (m.set k v d).canon d = true := by
  simp only [SMap.canon, Bool.and_eq_true, List.all_eq_true] at h ⊢
  unfold SMap.set
  split
  · exact ⟨SMap.sorted_erase k h.1, fun x hx => h.2 x (SMap.mem_erase hx)⟩
  · rename_i hv
    refine ⟨SMap.sorted_insert k v h.1, fun x hx => ?_⟩
    rcases SMap.mem_insert hx with rfl | hx
    · simpa using hv
    · exact h.2 x hx

/-- Dropping entries keeps the canonical form. -/
theorem SMap.canon_filter [DecidableEq α] {m : SMap α} (p : Nat × α → Bool) (d : α) (h : m.canon d = true) :
    SMap.canon (m.filter p) d = true := by
  simp only [SMap.canon, Bool.and_eq_true, List.all_eq_true] at h ⊢
  exact ⟨SMap.sorted_filter p h.1, fun x hx => h.2 x (List.mem_filter.1 hx).1⟩

end Sys2Proof
end

