-- ==== Sys2Proof/Laws/Regs.lean ====
section
/-!
SUPPORT. Laws of the registers: a field reads what was written to it, every other word and every other field of the same word
reads what it read, and nothing but the registers changes.
-/

set_option Elab.async false

namespace Sys2Proof.Machine

/-! ### Words -/

@[simp] theorem regW_setW_same (s : State) (off : Nat) (v : Word) : regW (setW s off v) off = v := by
  simp only [regW, setW, SMap.get_set_same]

theorem regW_setW_ne (s : State) {off off' : Nat} (v : Word) (h : off' ≠ off) : regW (setW s off v) off' = regW s off' := by
  simp only [regW, setW]
  exact SMap.get_set_ne _ _ _ _ h

/-- Words outside the n words from off. -/
theorem regW_setRegsNat_ne (s : State) (off v n : Nat) {off' : Nat} (h : off' < off ∨ off + 4 * n ≤ off') :
    regW (setRegsNat s off v n) off' = regW s off' := by
  induction n generalizing s off v with
  | zero => rfl
  | succ k ih =>
    rw [setRegsNat, ih _ _ _ (by omega)]
    exact regW_setW_ne _ _ (by omega)

theorem regsNat_setRegsNat_ne (s : State) (off v n : Nat) {off' m : Nat} (h : off' + 4 * m ≤ off ∨ off + 4 * n ≤ off') :
    regsNat (setRegsNat s off v n) off' m = regsNat s off' m := by
  induction m generalizing off' with
  | zero => rfl
  | succ k ih =>
    rw [regsNat, regsNat, ih (by omega), regW_setRegsNat_ne _ _ _ _ (by omega)]

theorem regsNat_setRegsNat_same (s : State) (off v n : Nat) : regsNat (setRegsNat s off v n) off n = v % 2 ^ (32 * n) := by
  induction n generalizing s off v with
  | zero => simp [regsNat, Nat.mod_one]
  | succ k ih =>
    rw [setRegsNat, regsNat, ih, regW_setRegsNat_ne _ _ _ _ (by omega), regW_setW_same, BitVec.toNat_ofNat]
    rw [show 32 * (k + 1) = 32 + 32 * k by omega, Nat.pow_add, Nat.mod_mul]

/-- The words of a field hold less than their size. -/
theorem regsNat_lt (s : State) (off n : Nat) : regsNat s off n < 2 ^ (32 * n) := by
  induction n generalizing off with
  | zero => simp [regsNat]
  | succ k ih =>
    have h1 := (regW s off).isLt
    have h2 := ih (off + 4)
    rw [regsNat, show 32 * (k + 1) = 32 + 32 * k by omega, Nat.pow_add]
    have h3 : 2 ^ 32 * regsNat s (off + 4) k + 2 ^ 32 ≤ 2 ^ 32 * 2 ^ (32 * k) := by
      rw [← Nat.mul_succ]
      exact Nat.mul_le_mul_left _ h2
    omega

/-! ### Fields -/

theorem fld_fits (f : Fld) : f.lo % 32 + f.width ≤ 32 * fldWords f := by
  unfold fldWords
  omega

/-- It is what stands above the run, the new run, and what stands below. -/
theorem replaced_eq (old v l w : Nat) :
    replaced old v l w = (2 ^ w * (old / 2 ^ (l + w)) + v % 2 ^ w) * 2 ^ l + old % 2 ^ l := by
  unfold replaced
  have e1 : old = 2 ^ l * (old / 2 ^ l) + old % 2 ^ l := (Nat.div_add_mod old (2 ^ l)).symm
  have e2 : old / 2 ^ l = 2 ^ w * (old / 2 ^ (l + w)) + old / 2 ^ l % 2 ^ w := by
    rw [Nat.pow_add, ← Nat.div_div_eq_div_mul]
    exact (Nat.div_add_mod _ _).symm
  generalize old / 2 ^ (l + w) = a at e2 ⊢
  generalize old / 2 ^ l % 2 ^ w = b at e2 ⊢
  generalize v % 2 ^ w = d
  have e3 : old = (2 ^ w * a) * 2 ^ l + b * 2 ^ l + old % 2 ^ l := by
    rw [← Nat.add_mul, ← e2, Nat.mul_comm]
    exact e1
  rw [Nat.add_mul]
  omega

/-- The run reads what replaced it. -/
theorem replaced_run (old v l w : Nat) : replaced old v l w / 2 ^ l % 2 ^ w = v % 2 ^ w := by
  have hl : 0 < 2 ^ l := Nat.two_pow_pos l
  rw [replaced_eq, Nat.mul_comm _ (2 ^ l), Nat.mul_add_div hl, Nat.div_eq_of_lt (Nat.mod_lt _ hl), Nat.add_zero,
    Nat.mul_add_mod, Nat.mod_mod]

/-- Bits below the run. -/
theorem replaced_below (old v l w : Nat) {l' w' : Nat} (h : l' + w' ≤ l) :
    replaced old v l w / 2 ^ l' % 2 ^ w' = old / 2 ^ l' % 2 ^ w' := by
  have key : ∀ n : Nat, n / 2 ^ l' % 2 ^ w' = n % 2 ^ l / 2 ^ l' % 2 ^ w' := by
    intro n
    rw [← Nat.mod_mul_right_div_self, ← Nat.mod_mul_right_div_self, ← Nat.pow_add, Nat.mod_mod_of_dvd]
    exact Nat.pow_dvd_pow 2 h
  rw [key, key old, replaced_eq, Nat.mul_comm _ (2 ^ l), Nat.mul_add_mod, Nat.mod_mod]

/-- Bits above the run. -/
theorem replaced_above (old v l w : Nat) {l' w' : Nat} (h : l + w ≤ l') :
    replaced old v l w / 2 ^ l' % 2 ^ w' = old / 2 ^ l' % 2 ^ w' := by
  have hl : 0 < 2 ^ l := Nat.two_pow_pos l
  have hw : 0 < 2 ^ w := Nat.two_pow_pos w
  obtain ⟨k, rfl⟩ := Nat.exists_eq_add_of_le h
  have e : replaced old v l w / 2 ^ (l + w) = old / 2 ^ (l + w) := by
    rw [Nat.pow_add 2 l w, ← Nat.div_div_eq_div_mul, ← Nat.pow_add, replaced_eq, Nat.mul_comm _ (2 ^ l), Nat.mul_add_div hl,
      Nat.div_eq_of_lt (Nat.mod_lt _ hl), Nat.add_zero, Nat.mul_add_div hw, Nat.div_eq_of_lt (Nat.mod_lt _ hw), Nat.add_zero]
  rw [Nat.pow_add, ← Nat.div_div_eq_div_mul, ← Nat.div_div_eq_div_mul, e]

theorem replaced_lt (old v l w : Nat) {n : Nat} (ho : old < 2 ^ n) (h : l + w ≤ n) : replaced old v l w < 2 ^ n := by
  have e : replaced old v l w / 2 ^ n % 2 ^ (replaced old v l w) = old / 2 ^ n % 2 ^ (replaced old v l w) :=
    replaced_above old v l w h
  rw [Nat.div_eq_of_lt ho, Nat.zero_mod] at e
  have lt : replaced old v l w / 2 ^ n < 2 ^ (replaced old v l w) :=
    Nat.lt_of_le_of_lt (Nat.div_le_self _ _) Nat.lt_two_pow_self
  rw [Nat.mod_eq_of_lt lt] at e
  exact (Nat.div_eq_zero_iff_lt (Nat.two_pow_pos n)).1 e

theorem getF_eq (s : State) (f : Fld) {i : Nat} (hi : i < fldCount f) :
    getF s f i = regsNat s (fldAddr f i) (fldWords f) / 2 ^ (f.lo % 32) % 2 ^ f.width := by
  rw [getF, if_pos hi]

theorem setF_eq (s : State) (f : Fld) {i : Nat} (v : Nat) (hi : i < fldCount f) : setF s f i v =
    setRegsNat s (fldAddr f i) (replaced (regsNat s (fldAddr f i) (fldWords f)) v (f.lo % 32) f.width) (fldWords f) := by
  rw [setF, if_pos hi]

/-- A copy that does not exist takes no write. -/
theorem setF_absent (s : State) (f : Fld) {i : Nat} (v : Nat) (hi : ¬i < fldCount f) : setF s f i v = s := by
  rw [setF, if_neg hi]

/-- A field reads what was written to it, cut to its width. -/
theorem getF_setF_same (s : State) (f : Fld) {i : Nat} (v : Nat) (hi : i < fldCount f) :
    getF (setF s f i v) f i = v % 2 ^ f.width := by
  rw [getF_eq _ _ hi, setF_eq _ _ _ hi, regsNat_setRegsNat_same,
    Nat.mod_eq_of_lt (replaced_lt _ _ _ _ (regsNat_lt _ _ _) (fld_fits f)), replaced_run]

/-- A field whose words lie elsewhere. -/
theorem getF_setF_ne (s : State) (f g : Fld) (i j v : Nat)
    (h : fldAddr g j + 4 * fldWords g ≤ fldAddr f i ∨ fldAddr f i + 4 * fldWords f ≤ fldAddr g j) :
    getF (setF s f i v) g j = getF s g j := by
  by_cases hi : i < fldCount f
  · rw [getF, getF, setF_eq _ _ _ hi, regsNat_setRegsNat_ne _ _ _ _ h]
  · rw [setF_absent _ _ _ hi]

/-- Another field of the same words. -/
theorem getF_setF_bits (s : State) (f g : Fld) (i j v : Nat) (ha : fldAddr g j = fldAddr f i) (hw : fldWords g = fldWords f)
    (h : g.lo % 32 + g.width ≤ f.lo % 32 ∨ f.lo % 32 + f.width ≤ g.lo % 32) : getF (setF s f i v) g j = getF s g j := by
  by_cases hi : i < fldCount f
  · rw [getF, getF, setF_eq _ _ _ hi, ha, hw, regsNat_setRegsNat_same,
      Nat.mod_eq_of_lt (replaced_lt _ _ _ _ (regsNat_lt _ _ _) (fld_fits f))]
    rcases h with h | h
    · rw [replaced_below _ _ _ _ h]
    · rw [replaced_above _ _ _ _ h]
  · rw [setF_absent _ _ _ hi]

/-- A word outside the field's words. -/
theorem regW_setF_ne (s : State) (f : Fld) (i v : Nat) {off : Nat} (h : off < fldAddr f i ∨ fldAddr f i + 4 * fldWords f ≤ off) :
    regW (setF s f i v) off = regW s off := by
  by_cases hi : i < fldCount f
  · rw [setF_eq _ _ _ hi, regW_setRegsNat_ne _ _ _ _ h]
  · rw [setF_absent _ _ _ hi]

theorem getF_lt (s : State) (f : Fld) (i : Nat) : getF s f i < 2 ^ f.width := by
  unfold getF
  split
  · exact Nat.mod_lt _ (Nat.two_pow_pos _)
  · exact Nat.two_pow_pos _

/-! ### Nothing else changes -/

/-- The registers apart, the state is the same. -/
theorem setRegsNat_regs (s : State) (off v n : Nat) : ∃ r, setRegsNat s off v n = { s with regs := r } := by
  induction n generalizing s off v with
  | zero => exact ⟨s.regs, rfl⟩
  | succ k ih =>
    obtain ⟨r, h⟩ := ih (setW s off (BitVec.ofNat 32 v)) (off + 4) (v / 2 ^ 32)
    exact ⟨r, h⟩

theorem setF_regs (s : State) (f : Fld) (i v : Nat) : ∃ r, setF s f i v = { s with regs := r } := by
  unfold setF
  split
  · exact setRegsNat_regs _ _ _ _
  · exact ⟨s.regs, rfl⟩

theorem regsNat_congr {s t : State} (h : t.regs = s.regs) (off n : Nat) : regsNat t off n = regsNat s off n := by
  induction n generalizing off with
  | zero => rfl
  | succ m ih => rw [regsNat, regsNat, ih, regW, regW, h]

/-- Fields read only the registers. -/
theorem getF_congr {s t : State} (h : t.regs = s.regs) (f : Fld) (i : Nat) : getF t f i = getF s f i := by
  rw [getF, getF, regsNat_congr h]

end Sys2Proof.Machine
end

