-- ==== Sys2Proof/Laws/State.lean ====
section
/-!
SUPPORT. What each update of one field leaves: every other field as it was, and the value given where it was put.
-/

set_option Elab.async false

namespace Sys2Proof.Machine

/-! ### setW -/

@[simp] theorem setW_pending (s : State) (off : Nat) (v : Word) : (setW s off v).pending = s.pending := rfl
@[simp] theorem setW_now (s : State) (off : Nat) (v : Word) : (setW s off v).now = s.now := rfl
@[simp] theorem setW_freeCtr (s : State) (off : Nat) (v : Word) : (setW s off v).freeCtr = s.freeCtr := rfl
@[simp] theorem setW_wire (s : State) (off : Nat) (v : Word) : (setW s off v).wire = s.wire := rfl
@[simp] theorem setW_host (s : State) (off : Nat) (v : Word) : (setW s off v).host = s.host := rfl
@[simp] theorem setW_hif (s : State) (off : Nat) (v : Word) : (setW s off v).hif = s.hif := rfl
@[simp] theorem setW_ev (s : State) (off : Nat) (v : Word) : (setW s off v).ev = s.ev := rfl
@[simp] theorem setW_clk (s : State) (off : Nat) (v : Word) : (setW s off v).clk = s.clk := rfl
@[simp] theorem setW_pwr (s : State) (off : Nat) (v : Word) : (setW s off v).pwr = s.pwr := rfl
@[simp] theorem setW_mer (s : State) (off : Nat) (v : Word) : (setW s off v).mer = s.mer := rfl
@[simp] theorem setW_mem (s : State) (off : Nat) (v : Word) : (setW s off v).mem = s.mem := rfl
@[simp] theorem setW_prj (s : State) (off : Nat) (v : Word) : (setW s off v).prj = s.prj := rfl
@[simp] theorem setW_ports (s : State) (off : Nat) (v : Word) : (setW s off v).ports = s.ports := rfl
@[simp] theorem setW_sw (s : State) (off : Nat) (v : Word) : (setW s off v).sw = s.sw := rfl
@[simp] theorem setW_tm (s : State) (off : Nat) (v : Word) : (setW s off v).tm = s.tm := rfl
@[simp] theorem setW_sht (s : State) (off : Nat) (v : Word) : (setW s off v).sht = s.sht := rfl
@[simp] theorem setW_scr (s : State) (off : Nat) (v : Word) : (setW s off v).scr = s.scr := rfl
@[simp] theorem setW_enc (s : State) (off : Nat) (v : Word) : (setW s off v).enc = s.enc := rfl
@[simp] theorem setW_bg (s : State) (off : Nat) (v : Word) : (setW s off v).bg = s.bg := rfl
@[simp] theorem setW_sec (s : State) (off : Nat) (v : Word) : (setW s off v).sec = s.sec := rfl
@[simp] theorem setW_pins (s : State) (off : Nat) (v : Word) : (setW s off v).pins = s.pins := rfl

/-! ### hostWrite -/

@[simp] theorem hostWrite_pending (s : State) (a : Nat) (b : List Byte) : (hostWrite s a b).pending = s.pending := rfl
@[simp] theorem hostWrite_now (s : State) (a : Nat) (b : List Byte) : (hostWrite s a b).now = s.now := rfl
@[simp] theorem hostWrite_freeCtr (s : State) (a : Nat) (b : List Byte) : (hostWrite s a b).freeCtr = s.freeCtr := rfl
@[simp] theorem hostWrite_wire (s : State) (a : Nat) (b : List Byte) : (hostWrite s a b).wire = s.wire := rfl
@[simp] theorem hostWrite_regs (s : State) (a : Nat) (b : List Byte) : (hostWrite s a b).regs = s.regs := rfl
@[simp] theorem hostWrite_hif (s : State) (a : Nat) (b : List Byte) : (hostWrite s a b).hif = s.hif := rfl
@[simp] theorem hostWrite_ev (s : State) (a : Nat) (b : List Byte) : (hostWrite s a b).ev = s.ev := rfl
@[simp] theorem hostWrite_clk (s : State) (a : Nat) (b : List Byte) : (hostWrite s a b).clk = s.clk := rfl
@[simp] theorem hostWrite_pwr (s : State) (a : Nat) (b : List Byte) : (hostWrite s a b).pwr = s.pwr := rfl
@[simp] theorem hostWrite_mer (s : State) (a : Nat) (b : List Byte) : (hostWrite s a b).mer = s.mer := rfl
@[simp] theorem hostWrite_mem (s : State) (a : Nat) (b : List Byte) : (hostWrite s a b).mem = s.mem := rfl
@[simp] theorem hostWrite_prj (s : State) (a : Nat) (b : List Byte) : (hostWrite s a b).prj = s.prj := rfl
@[simp] theorem hostWrite_ports (s : State) (a : Nat) (b : List Byte) : (hostWrite s a b).ports = s.ports := rfl
@[simp] theorem hostWrite_sw (s : State) (a : Nat) (b : List Byte) : (hostWrite s a b).sw = s.sw := rfl
@[simp] theorem hostWrite_tm (s : State) (a : Nat) (b : List Byte) : (hostWrite s a b).tm = s.tm := rfl
@[simp] theorem hostWrite_sht (s : State) (a : Nat) (b : List Byte) : (hostWrite s a b).sht = s.sht := rfl
@[simp] theorem hostWrite_scr (s : State) (a : Nat) (b : List Byte) : (hostWrite s a b).scr = s.scr := rfl
@[simp] theorem hostWrite_enc (s : State) (a : Nat) (b : List Byte) : (hostWrite s a b).enc = s.enc := rfl
@[simp] theorem hostWrite_bg (s : State) (a : Nat) (b : List Byte) : (hostWrite s a b).bg = s.bg := rfl
@[simp] theorem hostWrite_sec (s : State) (a : Nat) (b : List Byte) : (hostWrite s a b).sec = s.sec := rfl
@[simp] theorem hostWrite_pins (s : State) (a : Nat) (b : List Byte) : (hostWrite s a b).pins = s.pins := rfl

/-! ### emit -/

@[simp] theorem emit_pending (s : State) (e : Emission) : (emit s e).pending = s.pending := rfl
@[simp] theorem emit_now (s : State) (e : Emission) : (emit s e).now = s.now := rfl
@[simp] theorem emit_freeCtr (s : State) (e : Emission) : (emit s e).freeCtr = s.freeCtr := rfl
@[simp] theorem emit_host (s : State) (e : Emission) : (emit s e).host = s.host := rfl
@[simp] theorem emit_regs (s : State) (e : Emission) : (emit s e).regs = s.regs := rfl
@[simp] theorem emit_hif (s : State) (e : Emission) : (emit s e).hif = s.hif := rfl
@[simp] theorem emit_ev (s : State) (e : Emission) : (emit s e).ev = s.ev := rfl
@[simp] theorem emit_clk (s : State) (e : Emission) : (emit s e).clk = s.clk := rfl
@[simp] theorem emit_pwr (s : State) (e : Emission) : (emit s e).pwr = s.pwr := rfl
@[simp] theorem emit_mer (s : State) (e : Emission) : (emit s e).mer = s.mer := rfl
@[simp] theorem emit_mem (s : State) (e : Emission) : (emit s e).mem = s.mem := rfl
@[simp] theorem emit_prj (s : State) (e : Emission) : (emit s e).prj = s.prj := rfl
@[simp] theorem emit_ports (s : State) (e : Emission) : (emit s e).ports = s.ports := rfl
@[simp] theorem emit_sw (s : State) (e : Emission) : (emit s e).sw = s.sw := rfl
@[simp] theorem emit_tm (s : State) (e : Emission) : (emit s e).tm = s.tm := rfl
@[simp] theorem emit_sht (s : State) (e : Emission) : (emit s e).sht = s.sht := rfl
@[simp] theorem emit_scr (s : State) (e : Emission) : (emit s e).scr = s.scr := rfl
@[simp] theorem emit_enc (s : State) (e : Emission) : (emit s e).enc = s.enc := rfl
@[simp] theorem emit_bg (s : State) (e : Emission) : (emit s e).bg = s.bg := rfl
@[simp] theorem emit_sec (s : State) (e : Emission) : (emit s e).sec = s.sec := rfl
@[simp] theorem emit_pins (s : State) (e : Emission) : (emit s e).pins = s.pins := rfl

/-! ### setTmrCopies -/

@[simp] theorem setTmrCopies_pending (s : State) (w : Nat) (c : Nat × Nat × Nat) : (setTmrCopies s w c).pending = s.pending := rfl
@[simp] theorem setTmrCopies_now (s : State) (w : Nat) (c : Nat × Nat × Nat) : (setTmrCopies s w c).now = s.now := rfl
@[simp] theorem setTmrCopies_freeCtr (s : State) (w : Nat) (c : Nat × Nat × Nat) : (setTmrCopies s w c).freeCtr = s.freeCtr := rfl
@[simp] theorem setTmrCopies_wire (s : State) (w : Nat) (c : Nat × Nat × Nat) : (setTmrCopies s w c).wire = s.wire := rfl
@[simp] theorem setTmrCopies_host (s : State) (w : Nat) (c : Nat × Nat × Nat) : (setTmrCopies s w c).host = s.host := rfl
@[simp] theorem setTmrCopies_regs (s : State) (w : Nat) (c : Nat × Nat × Nat) : (setTmrCopies s w c).regs = s.regs := rfl
@[simp] theorem setTmrCopies_hif (s : State) (w : Nat) (c : Nat × Nat × Nat) : (setTmrCopies s w c).hif = s.hif := rfl
@[simp] theorem setTmrCopies_ev (s : State) (w : Nat) (c : Nat × Nat × Nat) : (setTmrCopies s w c).ev = s.ev := rfl
@[simp] theorem setTmrCopies_clk (s : State) (w : Nat) (c : Nat × Nat × Nat) : (setTmrCopies s w c).clk = s.clk := rfl
@[simp] theorem setTmrCopies_pwr (s : State) (w : Nat) (c : Nat × Nat × Nat) : (setTmrCopies s w c).pwr = s.pwr := rfl
@[simp] theorem setTmrCopies_mer (s : State) (w : Nat) (c : Nat × Nat × Nat) : (setTmrCopies s w c).mer = s.mer := rfl
@[simp] theorem setTmrCopies_prj (s : State) (w : Nat) (c : Nat × Nat × Nat) : (setTmrCopies s w c).prj = s.prj := rfl
@[simp] theorem setTmrCopies_ports (s : State) (w : Nat) (c : Nat × Nat × Nat) : (setTmrCopies s w c).ports = s.ports := rfl
@[simp] theorem setTmrCopies_sw (s : State) (w : Nat) (c : Nat × Nat × Nat) : (setTmrCopies s w c).sw = s.sw := rfl
@[simp] theorem setTmrCopies_tm (s : State) (w : Nat) (c : Nat × Nat × Nat) : (setTmrCopies s w c).tm = s.tm := rfl
@[simp] theorem setTmrCopies_sht (s : State) (w : Nat) (c : Nat × Nat × Nat) : (setTmrCopies s w c).sht = s.sht := rfl
@[simp] theorem setTmrCopies_scr (s : State) (w : Nat) (c : Nat × Nat × Nat) : (setTmrCopies s w c).scr = s.scr := rfl
@[simp] theorem setTmrCopies_enc (s : State) (w : Nat) (c : Nat × Nat × Nat) : (setTmrCopies s w c).enc = s.enc := rfl
@[simp] theorem setTmrCopies_bg (s : State) (w : Nat) (c : Nat × Nat × Nat) : (setTmrCopies s w c).bg = s.bg := rfl
@[simp] theorem setTmrCopies_sec (s : State) (w : Nat) (c : Nat × Nat × Nat) : (setTmrCopies s w c).sec = s.sec := rfl
@[simp] theorem setTmrCopies_pins (s : State) (w : Nat) (c : Nat × Nat × Nat) : (setTmrCopies s w c).pins = s.pins := rfl

/-! ### setVec -/

@[simp] theorem setVec_pending (s : State) (v : Nat) (x : Vec) : (setVec s v x).pending = s.pending := rfl
@[simp] theorem setVec_now (s : State) (v : Nat) (x : Vec) : (setVec s v x).now = s.now := rfl
@[simp] theorem setVec_freeCtr (s : State) (v : Nat) (x : Vec) : (setVec s v x).freeCtr = s.freeCtr := rfl
@[simp] theorem setVec_wire (s : State) (v : Nat) (x : Vec) : (setVec s v x).wire = s.wire := rfl
@[simp] theorem setVec_host (s : State) (v : Nat) (x : Vec) : (setVec s v x).host = s.host := rfl
@[simp] theorem setVec_regs (s : State) (v : Nat) (x : Vec) : (setVec s v x).regs = s.regs := rfl
@[simp] theorem setVec_ev (s : State) (v : Nat) (x : Vec) : (setVec s v x).ev = s.ev := rfl
@[simp] theorem setVec_clk (s : State) (v : Nat) (x : Vec) : (setVec s v x).clk = s.clk := rfl
@[simp] theorem setVec_pwr (s : State) (v : Nat) (x : Vec) : (setVec s v x).pwr = s.pwr := rfl
@[simp] theorem setVec_mer (s : State) (v : Nat) (x : Vec) : (setVec s v x).mer = s.mer := rfl
@[simp] theorem setVec_mem (s : State) (v : Nat) (x : Vec) : (setVec s v x).mem = s.mem := rfl
@[simp] theorem setVec_prj (s : State) (v : Nat) (x : Vec) : (setVec s v x).prj = s.prj := rfl
@[simp] theorem setVec_ports (s : State) (v : Nat) (x : Vec) : (setVec s v x).ports = s.ports := rfl
@[simp] theorem setVec_sw (s : State) (v : Nat) (x : Vec) : (setVec s v x).sw = s.sw := rfl
@[simp] theorem setVec_tm (s : State) (v : Nat) (x : Vec) : (setVec s v x).tm = s.tm := rfl
@[simp] theorem setVec_sht (s : State) (v : Nat) (x : Vec) : (setVec s v x).sht = s.sht := rfl
@[simp] theorem setVec_scr (s : State) (v : Nat) (x : Vec) : (setVec s v x).scr = s.scr := rfl
@[simp] theorem setVec_enc (s : State) (v : Nat) (x : Vec) : (setVec s v x).enc = s.enc := rfl
@[simp] theorem setVec_bg (s : State) (v : Nat) (x : Vec) : (setVec s v x).bg = s.bg := rfl
@[simp] theorem setVec_sec (s : State) (v : Nat) (x : Vec) : (setVec s v x).sec = s.sec := rfl
@[simp] theorem setVec_pins (s : State) (v : Nat) (x : Vec) : (setVec s v x).pins = s.pins := rfl
@[simp] theorem getVec_setVec_same (s : State) (v : Nat) (x : Vec) : getVec (setVec s v x) v = x := SMap.get_set_same _ _ _ _
theorem getVec_setVec_ne (s : State) (v : Nat) (x : Vec) {j : Nat} (h : j ≠ v) : getVec (setVec s v x) j = getVec s j := SMap.get_set_ne _ _ _ _ h

/-! ### setSrc -/

@[simp] theorem setSrc_pending (s : State) (n : Nat) (x : Src) : (setSrc s n x).pending = s.pending := rfl
@[simp] theorem setSrc_now (s : State) (n : Nat) (x : Src) : (setSrc s n x).now = s.now := rfl
@[simp] theorem setSrc_freeCtr (s : State) (n : Nat) (x : Src) : (setSrc s n x).freeCtr = s.freeCtr := rfl
@[simp] theorem setSrc_wire (s : State) (n : Nat) (x : Src) : (setSrc s n x).wire = s.wire := rfl
@[simp] theorem setSrc_host (s : State) (n : Nat) (x : Src) : (setSrc s n x).host = s.host := rfl
@[simp] theorem setSrc_regs (s : State) (n : Nat) (x : Src) : (setSrc s n x).regs = s.regs := rfl
@[simp] theorem setSrc_hif (s : State) (n : Nat) (x : Src) : (setSrc s n x).hif = s.hif := rfl
@[simp] theorem setSrc_clk (s : State) (n : Nat) (x : Src) : (setSrc s n x).clk = s.clk := rfl
@[simp] theorem setSrc_pwr (s : State) (n : Nat) (x : Src) : (setSrc s n x).pwr = s.pwr := rfl
@[simp] theorem setSrc_mer (s : State) (n : Nat) (x : Src) : (setSrc s n x).mer = s.mer := rfl
@[simp] theorem setSrc_mem (s : State) (n : Nat) (x : Src) : (setSrc s n x).mem = s.mem := rfl
@[simp] theorem setSrc_prj (s : State) (n : Nat) (x : Src) : (setSrc s n x).prj = s.prj := rfl
@[simp] theorem setSrc_ports (s : State) (n : Nat) (x : Src) : (setSrc s n x).ports = s.ports := rfl
@[simp] theorem setSrc_sw (s : State) (n : Nat) (x : Src) : (setSrc s n x).sw = s.sw := rfl
@[simp] theorem setSrc_tm (s : State) (n : Nat) (x : Src) : (setSrc s n x).tm = s.tm := rfl
@[simp] theorem setSrc_sht (s : State) (n : Nat) (x : Src) : (setSrc s n x).sht = s.sht := rfl
@[simp] theorem setSrc_scr (s : State) (n : Nat) (x : Src) : (setSrc s n x).scr = s.scr := rfl
@[simp] theorem setSrc_enc (s : State) (n : Nat) (x : Src) : (setSrc s n x).enc = s.enc := rfl
@[simp] theorem setSrc_bg (s : State) (n : Nat) (x : Src) : (setSrc s n x).bg = s.bg := rfl
@[simp] theorem setSrc_sec (s : State) (n : Nat) (x : Src) : (setSrc s n x).sec = s.sec := rfl
@[simp] theorem setSrc_pins (s : State) (n : Nat) (x : Src) : (setSrc s n x).pins = s.pins := rfl
@[simp] theorem getSrc_setSrc_same (s : State) (n : Nat) (x : Src) : getSrc (setSrc s n x) n = x := SMap.get_set_same _ _ _ _
theorem getSrc_setSrc_ne (s : State) (n : Nat) (x : Src) {j : Nat} (h : j ≠ n) : getSrc (setSrc s n x) j = getSrc s j := SMap.get_set_ne _ _ _ _ h

/-! ### setLevel -/

@[simp] theorem setLevel_pending (s : State) (n : Nat) (b : Bool) : (setLevel s n b).pending = s.pending := rfl
@[simp] theorem setLevel_now (s : State) (n : Nat) (b : Bool) : (setLevel s n b).now = s.now := rfl
@[simp] theorem setLevel_freeCtr (s : State) (n : Nat) (b : Bool) : (setLevel s n b).freeCtr = s.freeCtr := rfl
@[simp] theorem setLevel_wire (s : State) (n : Nat) (b : Bool) : (setLevel s n b).wire = s.wire := rfl
@[simp] theorem setLevel_host (s : State) (n : Nat) (b : Bool) : (setLevel s n b).host = s.host := rfl
@[simp] theorem setLevel_regs (s : State) (n : Nat) (b : Bool) : (setLevel s n b).regs = s.regs := rfl
@[simp] theorem setLevel_hif (s : State) (n : Nat) (b : Bool) : (setLevel s n b).hif = s.hif := rfl
@[simp] theorem setLevel_clk (s : State) (n : Nat) (b : Bool) : (setLevel s n b).clk = s.clk := rfl
@[simp] theorem setLevel_pwr (s : State) (n : Nat) (b : Bool) : (setLevel s n b).pwr = s.pwr := rfl
@[simp] theorem setLevel_mer (s : State) (n : Nat) (b : Bool) : (setLevel s n b).mer = s.mer := rfl
@[simp] theorem setLevel_mem (s : State) (n : Nat) (b : Bool) : (setLevel s n b).mem = s.mem := rfl
@[simp] theorem setLevel_prj (s : State) (n : Nat) (b : Bool) : (setLevel s n b).prj = s.prj := rfl
@[simp] theorem setLevel_ports (s : State) (n : Nat) (b : Bool) : (setLevel s n b).ports = s.ports := rfl
@[simp] theorem setLevel_sw (s : State) (n : Nat) (b : Bool) : (setLevel s n b).sw = s.sw := rfl
@[simp] theorem setLevel_tm (s : State) (n : Nat) (b : Bool) : (setLevel s n b).tm = s.tm := rfl
@[simp] theorem setLevel_sht (s : State) (n : Nat) (b : Bool) : (setLevel s n b).sht = s.sht := rfl
@[simp] theorem setLevel_scr (s : State) (n : Nat) (b : Bool) : (setLevel s n b).scr = s.scr := rfl
@[simp] theorem setLevel_enc (s : State) (n : Nat) (b : Bool) : (setLevel s n b).enc = s.enc := rfl
@[simp] theorem setLevel_bg (s : State) (n : Nat) (b : Bool) : (setLevel s n b).bg = s.bg := rfl
@[simp] theorem setLevel_sec (s : State) (n : Nat) (b : Bool) : (setLevel s n b).sec = s.sec := rfl
@[simp] theorem setLevel_pins (s : State) (n : Nat) (b : Bool) : (setLevel s n b).pins = s.pins := rfl
@[simp] theorem isLevel_setLevel_same (s : State) (n : Nat) (b : Bool) : isLevel (setLevel s n b) n = b := SMap.get_set_same _ _ _ _
theorem isLevel_setLevel_ne (s : State) (n : Nat) (b : Bool) {j : Nat} (h : j ≠ n) : isLevel (setLevel s n b) j = isLevel s j := SMap.get_set_ne _ _ _ _ h

/-! ### setSq -/

@[simp] theorem setSq_pending (s : State) (q : Nat) (r : SqRing) : (setSq s q r).pending = s.pending := rfl
@[simp] theorem setSq_now (s : State) (q : Nat) (r : SqRing) : (setSq s q r).now = s.now := rfl
@[simp] theorem setSq_freeCtr (s : State) (q : Nat) (r : SqRing) : (setSq s q r).freeCtr = s.freeCtr := rfl
@[simp] theorem setSq_wire (s : State) (q : Nat) (r : SqRing) : (setSq s q r).wire = s.wire := rfl
@[simp] theorem setSq_host (s : State) (q : Nat) (r : SqRing) : (setSq s q r).host = s.host := rfl
@[simp] theorem setSq_regs (s : State) (q : Nat) (r : SqRing) : (setSq s q r).regs = s.regs := rfl
@[simp] theorem setSq_ev (s : State) (q : Nat) (r : SqRing) : (setSq s q r).ev = s.ev := rfl
@[simp] theorem setSq_clk (s : State) (q : Nat) (r : SqRing) : (setSq s q r).clk = s.clk := rfl
@[simp] theorem setSq_pwr (s : State) (q : Nat) (r : SqRing) : (setSq s q r).pwr = s.pwr := rfl
@[simp] theorem setSq_mer (s : State) (q : Nat) (r : SqRing) : (setSq s q r).mer = s.mer := rfl
@[simp] theorem setSq_mem (s : State) (q : Nat) (r : SqRing) : (setSq s q r).mem = s.mem := rfl
@[simp] theorem setSq_prj (s : State) (q : Nat) (r : SqRing) : (setSq s q r).prj = s.prj := rfl
@[simp] theorem setSq_ports (s : State) (q : Nat) (r : SqRing) : (setSq s q r).ports = s.ports := rfl
@[simp] theorem setSq_sw (s : State) (q : Nat) (r : SqRing) : (setSq s q r).sw = s.sw := rfl
@[simp] theorem setSq_tm (s : State) (q : Nat) (r : SqRing) : (setSq s q r).tm = s.tm := rfl
@[simp] theorem setSq_sht (s : State) (q : Nat) (r : SqRing) : (setSq s q r).sht = s.sht := rfl
@[simp] theorem setSq_scr (s : State) (q : Nat) (r : SqRing) : (setSq s q r).scr = s.scr := rfl
@[simp] theorem setSq_enc (s : State) (q : Nat) (r : SqRing) : (setSq s q r).enc = s.enc := rfl
@[simp] theorem setSq_bg (s : State) (q : Nat) (r : SqRing) : (setSq s q r).bg = s.bg := rfl
@[simp] theorem setSq_sec (s : State) (q : Nat) (r : SqRing) : (setSq s q r).sec = s.sec := rfl
@[simp] theorem setSq_pins (s : State) (q : Nat) (r : SqRing) : (setSq s q r).pins = s.pins := rfl
@[simp] theorem getSq_setSq_same (s : State) (q : Nat) (r : SqRing) : getSq (setSq s q r) q = r := SMap.get_set_same _ _ _ _
theorem getSq_setSq_ne (s : State) (q : Nat) (r : SqRing) {j : Nat} (h : j ≠ q) : getSq (setSq s q r) j = getSq s j := SMap.get_set_ne _ _ _ _ h

/-! ### setCq -/

@[simp] theorem setCq_pending (s : State) (q : Nat) (r : CqRing) : (setCq s q r).pending = s.pending := rfl
@[simp] theorem setCq_now (s : State) (q : Nat) (r : CqRing) : (setCq s q r).now = s.now := rfl
@[simp] theorem setCq_freeCtr (s : State) (q : Nat) (r : CqRing) : (setCq s q r).freeCtr = s.freeCtr := rfl
@[simp] theorem setCq_wire (s : State) (q : Nat) (r : CqRing) : (setCq s q r).wire = s.wire := rfl
@[simp] theorem setCq_host (s : State) (q : Nat) (r : CqRing) : (setCq s q r).host = s.host := rfl
@[simp] theorem setCq_regs (s : State) (q : Nat) (r : CqRing) : (setCq s q r).regs = s.regs := rfl
@[simp] theorem setCq_ev (s : State) (q : Nat) (r : CqRing) : (setCq s q r).ev = s.ev := rfl
@[simp] theorem setCq_clk (s : State) (q : Nat) (r : CqRing) : (setCq s q r).clk = s.clk := rfl
@[simp] theorem setCq_pwr (s : State) (q : Nat) (r : CqRing) : (setCq s q r).pwr = s.pwr := rfl
@[simp] theorem setCq_mer (s : State) (q : Nat) (r : CqRing) : (setCq s q r).mer = s.mer := rfl
@[simp] theorem setCq_mem (s : State) (q : Nat) (r : CqRing) : (setCq s q r).mem = s.mem := rfl
@[simp] theorem setCq_prj (s : State) (q : Nat) (r : CqRing) : (setCq s q r).prj = s.prj := rfl
@[simp] theorem setCq_ports (s : State) (q : Nat) (r : CqRing) : (setCq s q r).ports = s.ports := rfl
@[simp] theorem setCq_sw (s : State) (q : Nat) (r : CqRing) : (setCq s q r).sw = s.sw := rfl
@[simp] theorem setCq_tm (s : State) (q : Nat) (r : CqRing) : (setCq s q r).tm = s.tm := rfl
@[simp] theorem setCq_sht (s : State) (q : Nat) (r : CqRing) : (setCq s q r).sht = s.sht := rfl
@[simp] theorem setCq_scr (s : State) (q : Nat) (r : CqRing) : (setCq s q r).scr = s.scr := rfl
@[simp] theorem setCq_enc (s : State) (q : Nat) (r : CqRing) : (setCq s q r).enc = s.enc := rfl
@[simp] theorem setCq_bg (s : State) (q : Nat) (r : CqRing) : (setCq s q r).bg = s.bg := rfl
@[simp] theorem setCq_sec (s : State) (q : Nat) (r : CqRing) : (setCq s q r).sec = s.sec := rfl
@[simp] theorem setCq_pins (s : State) (q : Nat) (r : CqRing) : (setCq s q r).pins = s.pins := rfl
@[simp] theorem getCq_setCq_same (s : State) (q : Nat) (r : CqRing) : getCq (setCq s q r) q = r := SMap.get_set_same _ _ _ _
theorem getCq_setCq_ne (s : State) (q : Nat) (r : CqRing) {j : Nat} (h : j ≠ q) : getCq (setCq s q r) j = getCq s j := SMap.get_set_ne _ _ _ _ h

/-! ### putCmd -/

@[simp] theorem putCmd_pending (s : State) (c : Cmd) : (putCmd s c).pending = s.pending := rfl
@[simp] theorem putCmd_now (s : State) (c : Cmd) : (putCmd s c).now = s.now := rfl
@[simp] theorem putCmd_freeCtr (s : State) (c : Cmd) : (putCmd s c).freeCtr = s.freeCtr := rfl
@[simp] theorem putCmd_wire (s : State) (c : Cmd) : (putCmd s c).wire = s.wire := rfl
@[simp] theorem putCmd_host (s : State) (c : Cmd) : (putCmd s c).host = s.host := rfl
@[simp] theorem putCmd_regs (s : State) (c : Cmd) : (putCmd s c).regs = s.regs := rfl
@[simp] theorem putCmd_ev (s : State) (c : Cmd) : (putCmd s c).ev = s.ev := rfl
@[simp] theorem putCmd_clk (s : State) (c : Cmd) : (putCmd s c).clk = s.clk := rfl
@[simp] theorem putCmd_pwr (s : State) (c : Cmd) : (putCmd s c).pwr = s.pwr := rfl
@[simp] theorem putCmd_mer (s : State) (c : Cmd) : (putCmd s c).mer = s.mer := rfl
@[simp] theorem putCmd_mem (s : State) (c : Cmd) : (putCmd s c).mem = s.mem := rfl
@[simp] theorem putCmd_prj (s : State) (c : Cmd) : (putCmd s c).prj = s.prj := rfl
@[simp] theorem putCmd_ports (s : State) (c : Cmd) : (putCmd s c).ports = s.ports := rfl
@[simp] theorem putCmd_sw (s : State) (c : Cmd) : (putCmd s c).sw = s.sw := rfl
@[simp] theorem putCmd_tm (s : State) (c : Cmd) : (putCmd s c).tm = s.tm := rfl
@[simp] theorem putCmd_sht (s : State) (c : Cmd) : (putCmd s c).sht = s.sht := rfl
@[simp] theorem putCmd_scr (s : State) (c : Cmd) : (putCmd s c).scr = s.scr := rfl
@[simp] theorem putCmd_enc (s : State) (c : Cmd) : (putCmd s c).enc = s.enc := rfl
@[simp] theorem putCmd_bg (s : State) (c : Cmd) : (putCmd s c).bg = s.bg := rfl
@[simp] theorem putCmd_sec (s : State) (c : Cmd) : (putCmd s c).sec = s.sec := rfl
@[simp] theorem putCmd_pins (s : State) (c : Cmd) : (putCmd s c).pins = s.pins := rfl

/-! ### dropCmd -/

@[simp] theorem dropCmd_pending (s : State) (id : Nat) : (dropCmd s id).pending = s.pending := rfl
@[simp] theorem dropCmd_now (s : State) (id : Nat) : (dropCmd s id).now = s.now := rfl
@[simp] theorem dropCmd_freeCtr (s : State) (id : Nat) : (dropCmd s id).freeCtr = s.freeCtr := rfl
@[simp] theorem dropCmd_wire (s : State) (id : Nat) : (dropCmd s id).wire = s.wire := rfl
@[simp] theorem dropCmd_host (s : State) (id : Nat) : (dropCmd s id).host = s.host := rfl
@[simp] theorem dropCmd_regs (s : State) (id : Nat) : (dropCmd s id).regs = s.regs := rfl
@[simp] theorem dropCmd_ev (s : State) (id : Nat) : (dropCmd s id).ev = s.ev := rfl
@[simp] theorem dropCmd_clk (s : State) (id : Nat) : (dropCmd s id).clk = s.clk := rfl
@[simp] theorem dropCmd_pwr (s : State) (id : Nat) : (dropCmd s id).pwr = s.pwr := rfl
@[simp] theorem dropCmd_mer (s : State) (id : Nat) : (dropCmd s id).mer = s.mer := rfl
@[simp] theorem dropCmd_mem (s : State) (id : Nat) : (dropCmd s id).mem = s.mem := rfl
@[simp] theorem dropCmd_prj (s : State) (id : Nat) : (dropCmd s id).prj = s.prj := rfl
@[simp] theorem dropCmd_ports (s : State) (id : Nat) : (dropCmd s id).ports = s.ports := rfl
@[simp] theorem dropCmd_sw (s : State) (id : Nat) : (dropCmd s id).sw = s.sw := rfl
@[simp] theorem dropCmd_tm (s : State) (id : Nat) : (dropCmd s id).tm = s.tm := rfl
@[simp] theorem dropCmd_sht (s : State) (id : Nat) : (dropCmd s id).sht = s.sht := rfl
@[simp] theorem dropCmd_scr (s : State) (id : Nat) : (dropCmd s id).scr = s.scr := rfl
@[simp] theorem dropCmd_enc (s : State) (id : Nat) : (dropCmd s id).enc = s.enc := rfl
@[simp] theorem dropCmd_bg (s : State) (id : Nat) : (dropCmd s id).bg = s.bg := rfl
@[simp] theorem dropCmd_sec (s : State) (id : Nat) : (dropCmd s id).sec = s.sec := rfl
@[simp] theorem dropCmd_pins (s : State) (id : Nat) : (dropCmd s id).pins = s.pins := rfl

/-! ### setHbm -/

@[simp] theorem setHbm_pending (s : State) (w : Nat) (x : HbmWord) : (setHbm s w x).pending = s.pending := rfl
@[simp] theorem setHbm_now (s : State) (w : Nat) (x : HbmWord) : (setHbm s w x).now = s.now := rfl
@[simp] theorem setHbm_freeCtr (s : State) (w : Nat) (x : HbmWord) : (setHbm s w x).freeCtr = s.freeCtr := rfl
@[simp] theorem setHbm_wire (s : State) (w : Nat) (x : HbmWord) : (setHbm s w x).wire = s.wire := rfl
@[simp] theorem setHbm_host (s : State) (w : Nat) (x : HbmWord) : (setHbm s w x).host = s.host := rfl
@[simp] theorem setHbm_regs (s : State) (w : Nat) (x : HbmWord) : (setHbm s w x).regs = s.regs := rfl
@[simp] theorem setHbm_hif (s : State) (w : Nat) (x : HbmWord) : (setHbm s w x).hif = s.hif := rfl
@[simp] theorem setHbm_ev (s : State) (w : Nat) (x : HbmWord) : (setHbm s w x).ev = s.ev := rfl
@[simp] theorem setHbm_clk (s : State) (w : Nat) (x : HbmWord) : (setHbm s w x).clk = s.clk := rfl
@[simp] theorem setHbm_pwr (s : State) (w : Nat) (x : HbmWord) : (setHbm s w x).pwr = s.pwr := rfl
@[simp] theorem setHbm_mer (s : State) (w : Nat) (x : HbmWord) : (setHbm s w x).mer = s.mer := rfl
@[simp] theorem setHbm_prj (s : State) (w : Nat) (x : HbmWord) : (setHbm s w x).prj = s.prj := rfl
@[simp] theorem setHbm_ports (s : State) (w : Nat) (x : HbmWord) : (setHbm s w x).ports = s.ports := rfl
@[simp] theorem setHbm_sw (s : State) (w : Nat) (x : HbmWord) : (setHbm s w x).sw = s.sw := rfl
@[simp] theorem setHbm_tm (s : State) (w : Nat) (x : HbmWord) : (setHbm s w x).tm = s.tm := rfl
@[simp] theorem setHbm_sht (s : State) (w : Nat) (x : HbmWord) : (setHbm s w x).sht = s.sht := rfl
@[simp] theorem setHbm_scr (s : State) (w : Nat) (x : HbmWord) : (setHbm s w x).scr = s.scr := rfl
@[simp] theorem setHbm_enc (s : State) (w : Nat) (x : HbmWord) : (setHbm s w x).enc = s.enc := rfl
@[simp] theorem setHbm_bg (s : State) (w : Nat) (x : HbmWord) : (setHbm s w x).bg = s.bg := rfl
@[simp] theorem setHbm_sec (s : State) (w : Nat) (x : HbmWord) : (setHbm s w x).sec = s.sec := rfl
@[simp] theorem setHbm_pins (s : State) (w : Nat) (x : HbmWord) : (setHbm s w x).pins = s.pins := rfl
@[simp] theorem getHbm_setHbm_same (s : State) (w : Nat) (x : HbmWord) : getHbm (setHbm s w x) w = x := SMap.get_set_same _ _ _ _
theorem getHbm_setHbm_ne (s : State) (w : Nat) (x : HbmWord) {j : Nat} (h : j ≠ w) : getHbm (setHbm s w x) j = getHbm s j := SMap.get_set_ne _ _ _ _ h

/-! ### setMerge -/

@[simp] theorem setMerge_pending (s : State) (k : Nat) (l : List MergeEntry) : (setMerge s k l).pending = s.pending := rfl
@[simp] theorem setMerge_now (s : State) (k : Nat) (l : List MergeEntry) : (setMerge s k l).now = s.now := rfl
@[simp] theorem setMerge_freeCtr (s : State) (k : Nat) (l : List MergeEntry) : (setMerge s k l).freeCtr = s.freeCtr := rfl
@[simp] theorem setMerge_wire (s : State) (k : Nat) (l : List MergeEntry) : (setMerge s k l).wire = s.wire := rfl
@[simp] theorem setMerge_host (s : State) (k : Nat) (l : List MergeEntry) : (setMerge s k l).host = s.host := rfl
@[simp] theorem setMerge_regs (s : State) (k : Nat) (l : List MergeEntry) : (setMerge s k l).regs = s.regs := rfl
@[simp] theorem setMerge_hif (s : State) (k : Nat) (l : List MergeEntry) : (setMerge s k l).hif = s.hif := rfl
@[simp] theorem setMerge_ev (s : State) (k : Nat) (l : List MergeEntry) : (setMerge s k l).ev = s.ev := rfl
@[simp] theorem setMerge_clk (s : State) (k : Nat) (l : List MergeEntry) : (setMerge s k l).clk = s.clk := rfl
@[simp] theorem setMerge_pwr (s : State) (k : Nat) (l : List MergeEntry) : (setMerge s k l).pwr = s.pwr := rfl
@[simp] theorem setMerge_mer (s : State) (k : Nat) (l : List MergeEntry) : (setMerge s k l).mer = s.mer := rfl
@[simp] theorem setMerge_prj (s : State) (k : Nat) (l : List MergeEntry) : (setMerge s k l).prj = s.prj := rfl
@[simp] theorem setMerge_ports (s : State) (k : Nat) (l : List MergeEntry) : (setMerge s k l).ports = s.ports := rfl
@[simp] theorem setMerge_sw (s : State) (k : Nat) (l : List MergeEntry) : (setMerge s k l).sw = s.sw := rfl
@[simp] theorem setMerge_tm (s : State) (k : Nat) (l : List MergeEntry) : (setMerge s k l).tm = s.tm := rfl
@[simp] theorem setMerge_sht (s : State) (k : Nat) (l : List MergeEntry) : (setMerge s k l).sht = s.sht := rfl
@[simp] theorem setMerge_scr (s : State) (k : Nat) (l : List MergeEntry) : (setMerge s k l).scr = s.scr := rfl
@[simp] theorem setMerge_enc (s : State) (k : Nat) (l : List MergeEntry) : (setMerge s k l).enc = s.enc := rfl
@[simp] theorem setMerge_bg (s : State) (k : Nat) (l : List MergeEntry) : (setMerge s k l).bg = s.bg := rfl
@[simp] theorem setMerge_sec (s : State) (k : Nat) (l : List MergeEntry) : (setMerge s k l).sec = s.sec := rfl
@[simp] theorem setMerge_pins (s : State) (k : Nat) (l : List MergeEntry) : (setMerge s k l).pins = s.pins := rfl
@[simp] theorem getMerge_setMerge_same (s : State) (k : Nat) (l : List MergeEntry) : getMerge (setMerge s k l) k = l := SMap.get_set_same _ _ _ _
theorem getMerge_setMerge_ne (s : State) (k : Nat) (l : List MergeEntry) {j : Nat} (h : j ≠ k) : getMerge (setMerge s k l) j = getMerge s j := SMap.get_set_ne _ _ _ _ h

/-! ### setStream -/

@[simp] theorem setStream_pending (s : State) (n : Nat) (x : Stream) : (setStream s n x).pending = s.pending := rfl
@[simp] theorem setStream_now (s : State) (n : Nat) (x : Stream) : (setStream s n x).now = s.now := rfl
@[simp] theorem setStream_freeCtr (s : State) (n : Nat) (x : Stream) : (setStream s n x).freeCtr = s.freeCtr := rfl
@[simp] theorem setStream_wire (s : State) (n : Nat) (x : Stream) : (setStream s n x).wire = s.wire := rfl
@[simp] theorem setStream_host (s : State) (n : Nat) (x : Stream) : (setStream s n x).host = s.host := rfl
@[simp] theorem setStream_regs (s : State) (n : Nat) (x : Stream) : (setStream s n x).regs = s.regs := rfl
@[simp] theorem setStream_hif (s : State) (n : Nat) (x : Stream) : (setStream s n x).hif = s.hif := rfl
@[simp] theorem setStream_ev (s : State) (n : Nat) (x : Stream) : (setStream s n x).ev = s.ev := rfl
@[simp] theorem setStream_clk (s : State) (n : Nat) (x : Stream) : (setStream s n x).clk = s.clk := rfl
@[simp] theorem setStream_pwr (s : State) (n : Nat) (x : Stream) : (setStream s n x).pwr = s.pwr := rfl
@[simp] theorem setStream_mer (s : State) (n : Nat) (x : Stream) : (setStream s n x).mer = s.mer := rfl
@[simp] theorem setStream_mem (s : State) (n : Nat) (x : Stream) : (setStream s n x).mem = s.mem := rfl
@[simp] theorem setStream_prj (s : State) (n : Nat) (x : Stream) : (setStream s n x).prj = s.prj := rfl
@[simp] theorem setStream_ports (s : State) (n : Nat) (x : Stream) : (setStream s n x).ports = s.ports := rfl
@[simp] theorem setStream_sw (s : State) (n : Nat) (x : Stream) : (setStream s n x).sw = s.sw := rfl
@[simp] theorem setStream_tm (s : State) (n : Nat) (x : Stream) : (setStream s n x).tm = s.tm := rfl
@[simp] theorem setStream_sht (s : State) (n : Nat) (x : Stream) : (setStream s n x).sht = s.sht := rfl
@[simp] theorem setStream_enc (s : State) (n : Nat) (x : Stream) : (setStream s n x).enc = s.enc := rfl
@[simp] theorem setStream_bg (s : State) (n : Nat) (x : Stream) : (setStream s n x).bg = s.bg := rfl
@[simp] theorem setStream_sec (s : State) (n : Nat) (x : Stream) : (setStream s n x).sec = s.sec := rfl
@[simp] theorem setStream_pins (s : State) (n : Nat) (x : Stream) : (setStream s n x).pins = s.pins := rfl
@[simp] theorem getStream_setStream_same (s : State) (n : Nat) (x : Stream) : getStream (setStream s n x) n = x := SMap.get_set_same _ _ _ _
theorem getStream_setStream_ne (s : State) (n : Nat) (x : Stream) {j : Nat} (h : j ≠ n) : getStream (setStream s n x) j = getStream s j := SMap.get_set_ne _ _ _ _ h

/-! ### setCore -/

@[simp] theorem setCore_pending (s : State) (c : Nat) (x : Core) : (setCore s c x).pending = s.pending := rfl
@[simp] theorem setCore_now (s : State) (c : Nat) (x : Core) : (setCore s c x).now = s.now := rfl
@[simp] theorem setCore_freeCtr (s : State) (c : Nat) (x : Core) : (setCore s c x).freeCtr = s.freeCtr := rfl
@[simp] theorem setCore_wire (s : State) (c : Nat) (x : Core) : (setCore s c x).wire = s.wire := rfl
@[simp] theorem setCore_host (s : State) (c : Nat) (x : Core) : (setCore s c x).host = s.host := rfl
@[simp] theorem setCore_regs (s : State) (c : Nat) (x : Core) : (setCore s c x).regs = s.regs := rfl
@[simp] theorem setCore_hif (s : State) (c : Nat) (x : Core) : (setCore s c x).hif = s.hif := rfl
@[simp] theorem setCore_ev (s : State) (c : Nat) (x : Core) : (setCore s c x).ev = s.ev := rfl
@[simp] theorem setCore_clk (s : State) (c : Nat) (x : Core) : (setCore s c x).clk = s.clk := rfl
@[simp] theorem setCore_pwr (s : State) (c : Nat) (x : Core) : (setCore s c x).pwr = s.pwr := rfl
@[simp] theorem setCore_mer (s : State) (c : Nat) (x : Core) : (setCore s c x).mer = s.mer := rfl
@[simp] theorem setCore_mem (s : State) (c : Nat) (x : Core) : (setCore s c x).mem = s.mem := rfl
@[simp] theorem setCore_prj (s : State) (c : Nat) (x : Core) : (setCore s c x).prj = s.prj := rfl
@[simp] theorem setCore_ports (s : State) (c : Nat) (x : Core) : (setCore s c x).ports = s.ports := rfl
@[simp] theorem setCore_sw (s : State) (c : Nat) (x : Core) : (setCore s c x).sw = s.sw := rfl
@[simp] theorem setCore_tm (s : State) (c : Nat) (x : Core) : (setCore s c x).tm = s.tm := rfl
@[simp] theorem setCore_sht (s : State) (c : Nat) (x : Core) : (setCore s c x).sht = s.sht := rfl
@[simp] theorem setCore_enc (s : State) (c : Nat) (x : Core) : (setCore s c x).enc = s.enc := rfl
@[simp] theorem setCore_bg (s : State) (c : Nat) (x : Core) : (setCore s c x).bg = s.bg := rfl
@[simp] theorem setCore_sec (s : State) (c : Nat) (x : Core) : (setCore s c x).sec = s.sec := rfl
@[simp] theorem setCore_pins (s : State) (c : Nat) (x : Core) : (setCore s c x).pins = s.pins := rfl
@[simp] theorem getCore_setCore_same (s : State) (c : Nat) (x : Core) : getCore (setCore s c x) c = x := SMap.get_set_same _ _ _ _
theorem getCore_setCore_ne (s : State) (c : Nat) (x : Core) {j : Nat} (h : j ≠ c) : getCore (setCore s c x) j = getCore s j := SMap.get_set_ne _ _ _ _ h

/-! ### setEnc -/

@[simp] theorem setEnc_pending (s : State) (n : Nat) (x : EncSheet) : (setEnc s n x).pending = s.pending := rfl
@[simp] theorem setEnc_now (s : State) (n : Nat) (x : EncSheet) : (setEnc s n x).now = s.now := rfl
@[simp] theorem setEnc_freeCtr (s : State) (n : Nat) (x : EncSheet) : (setEnc s n x).freeCtr = s.freeCtr := rfl
@[simp] theorem setEnc_wire (s : State) (n : Nat) (x : EncSheet) : (setEnc s n x).wire = s.wire := rfl
@[simp] theorem setEnc_host (s : State) (n : Nat) (x : EncSheet) : (setEnc s n x).host = s.host := rfl
@[simp] theorem setEnc_regs (s : State) (n : Nat) (x : EncSheet) : (setEnc s n x).regs = s.regs := rfl
@[simp] theorem setEnc_hif (s : State) (n : Nat) (x : EncSheet) : (setEnc s n x).hif = s.hif := rfl
@[simp] theorem setEnc_ev (s : State) (n : Nat) (x : EncSheet) : (setEnc s n x).ev = s.ev := rfl
@[simp] theorem setEnc_clk (s : State) (n : Nat) (x : EncSheet) : (setEnc s n x).clk = s.clk := rfl
@[simp] theorem setEnc_pwr (s : State) (n : Nat) (x : EncSheet) : (setEnc s n x).pwr = s.pwr := rfl
@[simp] theorem setEnc_mer (s : State) (n : Nat) (x : EncSheet) : (setEnc s n x).mer = s.mer := rfl
@[simp] theorem setEnc_mem (s : State) (n : Nat) (x : EncSheet) : (setEnc s n x).mem = s.mem := rfl
@[simp] theorem setEnc_prj (s : State) (n : Nat) (x : EncSheet) : (setEnc s n x).prj = s.prj := rfl
@[simp] theorem setEnc_ports (s : State) (n : Nat) (x : EncSheet) : (setEnc s n x).ports = s.ports := rfl
@[simp] theorem setEnc_sw (s : State) (n : Nat) (x : EncSheet) : (setEnc s n x).sw = s.sw := rfl
@[simp] theorem setEnc_tm (s : State) (n : Nat) (x : EncSheet) : (setEnc s n x).tm = s.tm := rfl
@[simp] theorem setEnc_sht (s : State) (n : Nat) (x : EncSheet) : (setEnc s n x).sht = s.sht := rfl
@[simp] theorem setEnc_scr (s : State) (n : Nat) (x : EncSheet) : (setEnc s n x).scr = s.scr := rfl
@[simp] theorem setEnc_bg (s : State) (n : Nat) (x : EncSheet) : (setEnc s n x).bg = s.bg := rfl
@[simp] theorem setEnc_sec (s : State) (n : Nat) (x : EncSheet) : (setEnc s n x).sec = s.sec := rfl
@[simp] theorem setEnc_pins (s : State) (n : Nat) (x : EncSheet) : (setEnc s n x).pins = s.pins := rfl
@[simp] theorem getEnc_setEnc_same (s : State) (n : Nat) (x : EncSheet) : getEnc (setEnc s n x) n = x := SMap.get_set_same _ _ _ _
theorem getEnc_setEnc_ne (s : State) (n : Nat) (x : EncSheet) {j : Nat} (h : j ≠ n) : getEnc (setEnc s n x) j = getEnc s j := SMap.get_set_ne _ _ _ _ h

/-! ### setView -/

@[simp] theorem setView_pending (s : State) (v : Nat) (x : View) : (setView s v x).pending = s.pending := rfl
@[simp] theorem setView_now (s : State) (v : Nat) (x : View) : (setView s v x).now = s.now := rfl
@[simp] theorem setView_freeCtr (s : State) (v : Nat) (x : View) : (setView s v x).freeCtr = s.freeCtr := rfl
@[simp] theorem setView_wire (s : State) (v : Nat) (x : View) : (setView s v x).wire = s.wire := rfl
@[simp] theorem setView_host (s : State) (v : Nat) (x : View) : (setView s v x).host = s.host := rfl
@[simp] theorem setView_regs (s : State) (v : Nat) (x : View) : (setView s v x).regs = s.regs := rfl
@[simp] theorem setView_hif (s : State) (v : Nat) (x : View) : (setView s v x).hif = s.hif := rfl
@[simp] theorem setView_ev (s : State) (v : Nat) (x : View) : (setView s v x).ev = s.ev := rfl
@[simp] theorem setView_clk (s : State) (v : Nat) (x : View) : (setView s v x).clk = s.clk := rfl
@[simp] theorem setView_pwr (s : State) (v : Nat) (x : View) : (setView s v x).pwr = s.pwr := rfl
@[simp] theorem setView_mer (s : State) (v : Nat) (x : View) : (setView s v x).mer = s.mer := rfl
@[simp] theorem setView_mem (s : State) (v : Nat) (x : View) : (setView s v x).mem = s.mem := rfl
@[simp] theorem setView_ports (s : State) (v : Nat) (x : View) : (setView s v x).ports = s.ports := rfl
@[simp] theorem setView_sw (s : State) (v : Nat) (x : View) : (setView s v x).sw = s.sw := rfl
@[simp] theorem setView_tm (s : State) (v : Nat) (x : View) : (setView s v x).tm = s.tm := rfl
@[simp] theorem setView_sht (s : State) (v : Nat) (x : View) : (setView s v x).sht = s.sht := rfl
@[simp] theorem setView_scr (s : State) (v : Nat) (x : View) : (setView s v x).scr = s.scr := rfl
@[simp] theorem setView_enc (s : State) (v : Nat) (x : View) : (setView s v x).enc = s.enc := rfl
@[simp] theorem setView_bg (s : State) (v : Nat) (x : View) : (setView s v x).bg = s.bg := rfl
@[simp] theorem setView_sec (s : State) (v : Nat) (x : View) : (setView s v x).sec = s.sec := rfl
@[simp] theorem setView_pins (s : State) (v : Nat) (x : View) : (setView s v x).pins = s.pins := rfl
@[simp] theorem getView_setView_same (s : State) (v : Nat) (x : View) : getView (setView s v x) v = x := SMap.get_set_same _ _ _ _
theorem getView_setView_ne (s : State) (v : Nat) (x : View) {j : Nat} (h : j ≠ v) : getView (setView s v x) j = getView s j := SMap.get_set_ne _ _ _ _ h

/-! ### setSurface -/

@[simp] theorem setSurface_pending (s : State) (n : Nat) (x : Option Surface) : (setSurface s n x).pending = s.pending := rfl
@[simp] theorem setSurface_now (s : State) (n : Nat) (x : Option Surface) : (setSurface s n x).now = s.now := rfl
@[simp] theorem setSurface_freeCtr (s : State) (n : Nat) (x : Option Surface) : (setSurface s n x).freeCtr = s.freeCtr := rfl
@[simp] theorem setSurface_wire (s : State) (n : Nat) (x : Option Surface) : (setSurface s n x).wire = s.wire := rfl
@[simp] theorem setSurface_host (s : State) (n : Nat) (x : Option Surface) : (setSurface s n x).host = s.host := rfl
@[simp] theorem setSurface_regs (s : State) (n : Nat) (x : Option Surface) : (setSurface s n x).regs = s.regs := rfl
@[simp] theorem setSurface_hif (s : State) (n : Nat) (x : Option Surface) : (setSurface s n x).hif = s.hif := rfl
@[simp] theorem setSurface_ev (s : State) (n : Nat) (x : Option Surface) : (setSurface s n x).ev = s.ev := rfl
@[simp] theorem setSurface_clk (s : State) (n : Nat) (x : Option Surface) : (setSurface s n x).clk = s.clk := rfl
@[simp] theorem setSurface_pwr (s : State) (n : Nat) (x : Option Surface) : (setSurface s n x).pwr = s.pwr := rfl
@[simp] theorem setSurface_mer (s : State) (n : Nat) (x : Option Surface) : (setSurface s n x).mer = s.mer := rfl
@[simp] theorem setSurface_mem (s : State) (n : Nat) (x : Option Surface) : (setSurface s n x).mem = s.mem := rfl
@[simp] theorem setSurface_ports (s : State) (n : Nat) (x : Option Surface) : (setSurface s n x).ports = s.ports := rfl
@[simp] theorem setSurface_sw (s : State) (n : Nat) (x : Option Surface) : (setSurface s n x).sw = s.sw := rfl
@[simp] theorem setSurface_tm (s : State) (n : Nat) (x : Option Surface) : (setSurface s n x).tm = s.tm := rfl
@[simp] theorem setSurface_sht (s : State) (n : Nat) (x : Option Surface) : (setSurface s n x).sht = s.sht := rfl
@[simp] theorem setSurface_scr (s : State) (n : Nat) (x : Option Surface) : (setSurface s n x).scr = s.scr := rfl
@[simp] theorem setSurface_enc (s : State) (n : Nat) (x : Option Surface) : (setSurface s n x).enc = s.enc := rfl
@[simp] theorem setSurface_bg (s : State) (n : Nat) (x : Option Surface) : (setSurface s n x).bg = s.bg := rfl
@[simp] theorem setSurface_sec (s : State) (n : Nat) (x : Option Surface) : (setSurface s n x).sec = s.sec := rfl
@[simp] theorem setSurface_pins (s : State) (n : Nat) (x : Option Surface) : (setSurface s n x).pins = s.pins := rfl
@[simp] theorem getSurface_setSurface_same (s : State) (n : Nat) (x : Option Surface) : getSurface (setSurface s n x) n = x := SMap.get_set_same _ _ _ _
theorem getSurface_setSurface_ne (s : State) (n : Nat) (x : Option Surface) {j : Nat} (h : j ≠ n) : getSurface (setSurface s n x) j = getSurface s j := SMap.get_set_ne _ _ _ _ h

/-! ### setPort -/

@[simp] theorem setPort_pending (s : State) (p : Nat) (x : Port) : (setPort s p x).pending = s.pending := rfl
@[simp] theorem setPort_now (s : State) (p : Nat) (x : Port) : (setPort s p x).now = s.now := rfl
@[simp] theorem setPort_freeCtr (s : State) (p : Nat) (x : Port) : (setPort s p x).freeCtr = s.freeCtr := rfl
@[simp] theorem setPort_wire (s : State) (p : Nat) (x : Port) : (setPort s p x).wire = s.wire := rfl
@[simp] theorem setPort_host (s : State) (p : Nat) (x : Port) : (setPort s p x).host = s.host := rfl
@[simp] theorem setPort_regs (s : State) (p : Nat) (x : Port) : (setPort s p x).regs = s.regs := rfl
@[simp] theorem setPort_hif (s : State) (p : Nat) (x : Port) : (setPort s p x).hif = s.hif := rfl
@[simp] theorem setPort_ev (s : State) (p : Nat) (x : Port) : (setPort s p x).ev = s.ev := rfl
@[simp] theorem setPort_clk (s : State) (p : Nat) (x : Port) : (setPort s p x).clk = s.clk := rfl
@[simp] theorem setPort_pwr (s : State) (p : Nat) (x : Port) : (setPort s p x).pwr = s.pwr := rfl
@[simp] theorem setPort_mer (s : State) (p : Nat) (x : Port) : (setPort s p x).mer = s.mer := rfl
@[simp] theorem setPort_mem (s : State) (p : Nat) (x : Port) : (setPort s p x).mem = s.mem := rfl
@[simp] theorem setPort_prj (s : State) (p : Nat) (x : Port) : (setPort s p x).prj = s.prj := rfl
@[simp] theorem setPort_sw (s : State) (p : Nat) (x : Port) : (setPort s p x).sw = s.sw := rfl
@[simp] theorem setPort_tm (s : State) (p : Nat) (x : Port) : (setPort s p x).tm = s.tm := rfl
@[simp] theorem setPort_sht (s : State) (p : Nat) (x : Port) : (setPort s p x).sht = s.sht := rfl
@[simp] theorem setPort_scr (s : State) (p : Nat) (x : Port) : (setPort s p x).scr = s.scr := rfl
@[simp] theorem setPort_enc (s : State) (p : Nat) (x : Port) : (setPort s p x).enc = s.enc := rfl
@[simp] theorem setPort_bg (s : State) (p : Nat) (x : Port) : (setPort s p x).bg = s.bg := rfl
@[simp] theorem setPort_sec (s : State) (p : Nat) (x : Port) : (setPort s p x).sec = s.sec := rfl
@[simp] theorem setPort_pins (s : State) (p : Nat) (x : Port) : (setPort s p x).pins = s.pins := rfl
@[simp] theorem getPort_setPort_same (s : State) (p : Nat) (x : Port) : getPort (setPort s p x) p = x := SMap.get_set_same _ _ _ _
theorem getPort_setPort_ne (s : State) (p : Nat) (x : Port) {j : Nat} (h : j ≠ p) : getPort (setPort s p x) j = getPort s j := SMap.get_set_ne _ _ _ _ h

/-! ### setShaper -/

@[simp] theorem setShaper_pending (s : State) (port cls : Nat) (x : Shaper) : (setShaper s port cls x).pending = s.pending := rfl
@[simp] theorem setShaper_now (s : State) (port cls : Nat) (x : Shaper) : (setShaper s port cls x).now = s.now := rfl
@[simp] theorem setShaper_freeCtr (s : State) (port cls : Nat) (x : Shaper) : (setShaper s port cls x).freeCtr = s.freeCtr := rfl
@[simp] theorem setShaper_wire (s : State) (port cls : Nat) (x : Shaper) : (setShaper s port cls x).wire = s.wire := rfl
@[simp] theorem setShaper_host (s : State) (port cls : Nat) (x : Shaper) : (setShaper s port cls x).host = s.host := rfl
@[simp] theorem setShaper_regs (s : State) (port cls : Nat) (x : Shaper) : (setShaper s port cls x).regs = s.regs := rfl
@[simp] theorem setShaper_hif (s : State) (port cls : Nat) (x : Shaper) : (setShaper s port cls x).hif = s.hif := rfl
@[simp] theorem setShaper_ev (s : State) (port cls : Nat) (x : Shaper) : (setShaper s port cls x).ev = s.ev := rfl
@[simp] theorem setShaper_clk (s : State) (port cls : Nat) (x : Shaper) : (setShaper s port cls x).clk = s.clk := rfl
@[simp] theorem setShaper_pwr (s : State) (port cls : Nat) (x : Shaper) : (setShaper s port cls x).pwr = s.pwr := rfl
@[simp] theorem setShaper_mer (s : State) (port cls : Nat) (x : Shaper) : (setShaper s port cls x).mer = s.mer := rfl
@[simp] theorem setShaper_mem (s : State) (port cls : Nat) (x : Shaper) : (setShaper s port cls x).mem = s.mem := rfl
@[simp] theorem setShaper_prj (s : State) (port cls : Nat) (x : Shaper) : (setShaper s port cls x).prj = s.prj := rfl
@[simp] theorem setShaper_ports (s : State) (port cls : Nat) (x : Shaper) : (setShaper s port cls x).ports = s.ports := rfl
@[simp] theorem setShaper_sw (s : State) (port cls : Nat) (x : Shaper) : (setShaper s port cls x).sw = s.sw := rfl
@[simp] theorem setShaper_sht (s : State) (port cls : Nat) (x : Shaper) : (setShaper s port cls x).sht = s.sht := rfl
@[simp] theorem setShaper_scr (s : State) (port cls : Nat) (x : Shaper) : (setShaper s port cls x).scr = s.scr := rfl
@[simp] theorem setShaper_enc (s : State) (port cls : Nat) (x : Shaper) : (setShaper s port cls x).enc = s.enc := rfl
@[simp] theorem setShaper_bg (s : State) (port cls : Nat) (x : Shaper) : (setShaper s port cls x).bg = s.bg := rfl
@[simp] theorem setShaper_sec (s : State) (port cls : Nat) (x : Shaper) : (setShaper s port cls x).sec = s.sec := rfl
@[simp] theorem setShaper_pins (s : State) (port cls : Nat) (x : Shaper) : (setShaper s port cls x).pins = s.pins := rfl

/-! ### setMeter -/

@[simp] theorem setMeter_pending (s : State) (m : Nat) (x : Meter) : (setMeter s m x).pending = s.pending := rfl
@[simp] theorem setMeter_now (s : State) (m : Nat) (x : Meter) : (setMeter s m x).now = s.now := rfl
@[simp] theorem setMeter_freeCtr (s : State) (m : Nat) (x : Meter) : (setMeter s m x).freeCtr = s.freeCtr := rfl
@[simp] theorem setMeter_wire (s : State) (m : Nat) (x : Meter) : (setMeter s m x).wire = s.wire := rfl
@[simp] theorem setMeter_host (s : State) (m : Nat) (x : Meter) : (setMeter s m x).host = s.host := rfl
@[simp] theorem setMeter_regs (s : State) (m : Nat) (x : Meter) : (setMeter s m x).regs = s.regs := rfl
@[simp] theorem setMeter_hif (s : State) (m : Nat) (x : Meter) : (setMeter s m x).hif = s.hif := rfl
@[simp] theorem setMeter_ev (s : State) (m : Nat) (x : Meter) : (setMeter s m x).ev = s.ev := rfl
@[simp] theorem setMeter_clk (s : State) (m : Nat) (x : Meter) : (setMeter s m x).clk = s.clk := rfl
@[simp] theorem setMeter_pwr (s : State) (m : Nat) (x : Meter) : (setMeter s m x).pwr = s.pwr := rfl
@[simp] theorem setMeter_mer (s : State) (m : Nat) (x : Meter) : (setMeter s m x).mer = s.mer := rfl
@[simp] theorem setMeter_mem (s : State) (m : Nat) (x : Meter) : (setMeter s m x).mem = s.mem := rfl
@[simp] theorem setMeter_prj (s : State) (m : Nat) (x : Meter) : (setMeter s m x).prj = s.prj := rfl
@[simp] theorem setMeter_ports (s : State) (m : Nat) (x : Meter) : (setMeter s m x).ports = s.ports := rfl
@[simp] theorem setMeter_sw (s : State) (m : Nat) (x : Meter) : (setMeter s m x).sw = s.sw := rfl
@[simp] theorem setMeter_sht (s : State) (m : Nat) (x : Meter) : (setMeter s m x).sht = s.sht := rfl
@[simp] theorem setMeter_scr (s : State) (m : Nat) (x : Meter) : (setMeter s m x).scr = s.scr := rfl
@[simp] theorem setMeter_enc (s : State) (m : Nat) (x : Meter) : (setMeter s m x).enc = s.enc := rfl
@[simp] theorem setMeter_bg (s : State) (m : Nat) (x : Meter) : (setMeter s m x).bg = s.bg := rfl
@[simp] theorem setMeter_sec (s : State) (m : Nat) (x : Meter) : (setMeter s m x).sec = s.sec := rfl
@[simp] theorem setMeter_pins (s : State) (m : Nat) (x : Meter) : (setMeter s m x).pins = s.pins := rfl
@[simp] theorem getMeter_setMeter_same (s : State) (m : Nat) (x : Meter) : getMeter (setMeter s m x) m = x := SMap.get_set_same _ _ _ _
theorem getMeter_setMeter_ne (s : State) (m : Nat) (x : Meter) {j : Nat} (h : j ≠ m) : getMeter (setMeter s m x) j = getMeter s j := SMap.get_set_ne _ _ _ _ h

/-! ### setTrig -/

@[simp] theorem setTrig_pending (s : State) (n : Nat) (t : Trig) : (setTrig s n t).pending = s.pending := rfl
@[simp] theorem setTrig_now (s : State) (n : Nat) (t : Trig) : (setTrig s n t).now = s.now := rfl
@[simp] theorem setTrig_freeCtr (s : State) (n : Nat) (t : Trig) : (setTrig s n t).freeCtr = s.freeCtr := rfl
@[simp] theorem setTrig_wire (s : State) (n : Nat) (t : Trig) : (setTrig s n t).wire = s.wire := rfl
@[simp] theorem setTrig_host (s : State) (n : Nat) (t : Trig) : (setTrig s n t).host = s.host := rfl
@[simp] theorem setTrig_regs (s : State) (n : Nat) (t : Trig) : (setTrig s n t).regs = s.regs := rfl
@[simp] theorem setTrig_hif (s : State) (n : Nat) (t : Trig) : (setTrig s n t).hif = s.hif := rfl
@[simp] theorem setTrig_ev (s : State) (n : Nat) (t : Trig) : (setTrig s n t).ev = s.ev := rfl
@[simp] theorem setTrig_clk (s : State) (n : Nat) (t : Trig) : (setTrig s n t).clk = s.clk := rfl
@[simp] theorem setTrig_pwr (s : State) (n : Nat) (t : Trig) : (setTrig s n t).pwr = s.pwr := rfl
@[simp] theorem setTrig_mem (s : State) (n : Nat) (t : Trig) : (setTrig s n t).mem = s.mem := rfl
@[simp] theorem setTrig_prj (s : State) (n : Nat) (t : Trig) : (setTrig s n t).prj = s.prj := rfl
@[simp] theorem setTrig_ports (s : State) (n : Nat) (t : Trig) : (setTrig s n t).ports = s.ports := rfl
@[simp] theorem setTrig_sw (s : State) (n : Nat) (t : Trig) : (setTrig s n t).sw = s.sw := rfl
@[simp] theorem setTrig_tm (s : State) (n : Nat) (t : Trig) : (setTrig s n t).tm = s.tm := rfl
@[simp] theorem setTrig_sht (s : State) (n : Nat) (t : Trig) : (setTrig s n t).sht = s.sht := rfl
@[simp] theorem setTrig_scr (s : State) (n : Nat) (t : Trig) : (setTrig s n t).scr = s.scr := rfl
@[simp] theorem setTrig_enc (s : State) (n : Nat) (t : Trig) : (setTrig s n t).enc = s.enc := rfl
@[simp] theorem setTrig_bg (s : State) (n : Nat) (t : Trig) : (setTrig s n t).bg = s.bg := rfl
@[simp] theorem setTrig_sec (s : State) (n : Nat) (t : Trig) : (setTrig s n t).sec = s.sec := rfl
@[simp] theorem setTrig_pins (s : State) (n : Nat) (t : Trig) : (setTrig s n t).pins = s.pins := rfl
@[simp] theorem getTrig_setTrig_same (s : State) (n : Nat) (t : Trig) : getTrig (setTrig s n t) n = t := SMap.get_set_same _ _ _ _
theorem getTrig_setTrig_ne (s : State) (n : Nat) (t : Trig) {j : Nat} (h : j ≠ n) : getTrig (setTrig s n t) j = getTrig s j := SMap.get_set_ne _ _ _ _ h

/-! ### setPtp -/

@[simp] theorem setPtp_pending (s : State) (p : Nat) (x : PtpPort) : (setPtp s p x).pending = s.pending := rfl
@[simp] theorem setPtp_now (s : State) (p : Nat) (x : PtpPort) : (setPtp s p x).now = s.now := rfl
@[simp] theorem setPtp_freeCtr (s : State) (p : Nat) (x : PtpPort) : (setPtp s p x).freeCtr = s.freeCtr := rfl
@[simp] theorem setPtp_wire (s : State) (p : Nat) (x : PtpPort) : (setPtp s p x).wire = s.wire := rfl
@[simp] theorem setPtp_host (s : State) (p : Nat) (x : PtpPort) : (setPtp s p x).host = s.host := rfl
@[simp] theorem setPtp_regs (s : State) (p : Nat) (x : PtpPort) : (setPtp s p x).regs = s.regs := rfl
@[simp] theorem setPtp_hif (s : State) (p : Nat) (x : PtpPort) : (setPtp s p x).hif = s.hif := rfl
@[simp] theorem setPtp_ev (s : State) (p : Nat) (x : PtpPort) : (setPtp s p x).ev = s.ev := rfl
@[simp] theorem setPtp_clk (s : State) (p : Nat) (x : PtpPort) : (setPtp s p x).clk = s.clk := rfl
@[simp] theorem setPtp_pwr (s : State) (p : Nat) (x : PtpPort) : (setPtp s p x).pwr = s.pwr := rfl
@[simp] theorem setPtp_mem (s : State) (p : Nat) (x : PtpPort) : (setPtp s p x).mem = s.mem := rfl
@[simp] theorem setPtp_prj (s : State) (p : Nat) (x : PtpPort) : (setPtp s p x).prj = s.prj := rfl
@[simp] theorem setPtp_ports (s : State) (p : Nat) (x : PtpPort) : (setPtp s p x).ports = s.ports := rfl
@[simp] theorem setPtp_sw (s : State) (p : Nat) (x : PtpPort) : (setPtp s p x).sw = s.sw := rfl
@[simp] theorem setPtp_tm (s : State) (p : Nat) (x : PtpPort) : (setPtp s p x).tm = s.tm := rfl
@[simp] theorem setPtp_sht (s : State) (p : Nat) (x : PtpPort) : (setPtp s p x).sht = s.sht := rfl
@[simp] theorem setPtp_scr (s : State) (p : Nat) (x : PtpPort) : (setPtp s p x).scr = s.scr := rfl
@[simp] theorem setPtp_enc (s : State) (p : Nat) (x : PtpPort) : (setPtp s p x).enc = s.enc := rfl
@[simp] theorem setPtp_bg (s : State) (p : Nat) (x : PtpPort) : (setPtp s p x).bg = s.bg := rfl
@[simp] theorem setPtp_sec (s : State) (p : Nat) (x : PtpPort) : (setPtp s p x).sec = s.sec := rfl
@[simp] theorem setPtp_pins (s : State) (p : Nat) (x : PtpPort) : (setPtp s p x).pins = s.pins := rfl
@[simp] theorem getPtp_setPtp_same (s : State) (p : Nat) (x : PtpPort) : getPtp (setPtp s p x) p = x := SMap.get_set_same _ _ _ _
theorem getPtp_setPtp_ne (s : State) (p : Nat) (x : PtpPort) {j : Nat} (h : j ≠ p) : getPtp (setPtp s p x) j = getPtp s j := SMap.get_set_ne _ _ _ _ h

/-! ### setRollcall -/

@[simp] theorem setRollcall_pending (s : State) (p : Nat) (x : Option RollCall) : (setRollcall s p x).pending = s.pending := rfl
@[simp] theorem setRollcall_now (s : State) (p : Nat) (x : Option RollCall) : (setRollcall s p x).now = s.now := rfl
@[simp] theorem setRollcall_freeCtr (s : State) (p : Nat) (x : Option RollCall) : (setRollcall s p x).freeCtr = s.freeCtr := rfl
@[simp] theorem setRollcall_wire (s : State) (p : Nat) (x : Option RollCall) : (setRollcall s p x).wire = s.wire := rfl
@[simp] theorem setRollcall_host (s : State) (p : Nat) (x : Option RollCall) : (setRollcall s p x).host = s.host := rfl
@[simp] theorem setRollcall_regs (s : State) (p : Nat) (x : Option RollCall) : (setRollcall s p x).regs = s.regs := rfl
@[simp] theorem setRollcall_hif (s : State) (p : Nat) (x : Option RollCall) : (setRollcall s p x).hif = s.hif := rfl
@[simp] theorem setRollcall_ev (s : State) (p : Nat) (x : Option RollCall) : (setRollcall s p x).ev = s.ev := rfl
@[simp] theorem setRollcall_clk (s : State) (p : Nat) (x : Option RollCall) : (setRollcall s p x).clk = s.clk := rfl
@[simp] theorem setRollcall_pwr (s : State) (p : Nat) (x : Option RollCall) : (setRollcall s p x).pwr = s.pwr := rfl
@[simp] theorem setRollcall_mer (s : State) (p : Nat) (x : Option RollCall) : (setRollcall s p x).mer = s.mer := rfl
@[simp] theorem setRollcall_mem (s : State) (p : Nat) (x : Option RollCall) : (setRollcall s p x).mem = s.mem := rfl
@[simp] theorem setRollcall_prj (s : State) (p : Nat) (x : Option RollCall) : (setRollcall s p x).prj = s.prj := rfl
@[simp] theorem setRollcall_ports (s : State) (p : Nat) (x : Option RollCall) : (setRollcall s p x).ports = s.ports := rfl
@[simp] theorem setRollcall_sw (s : State) (p : Nat) (x : Option RollCall) : (setRollcall s p x).sw = s.sw := rfl
@[simp] theorem setRollcall_tm (s : State) (p : Nat) (x : Option RollCall) : (setRollcall s p x).tm = s.tm := rfl
@[simp] theorem setRollcall_scr (s : State) (p : Nat) (x : Option RollCall) : (setRollcall s p x).scr = s.scr := rfl
@[simp] theorem setRollcall_enc (s : State) (p : Nat) (x : Option RollCall) : (setRollcall s p x).enc = s.enc := rfl
@[simp] theorem setRollcall_bg (s : State) (p : Nat) (x : Option RollCall) : (setRollcall s p x).bg = s.bg := rfl
@[simp] theorem setRollcall_sec (s : State) (p : Nat) (x : Option RollCall) : (setRollcall s p x).sec = s.sec := rfl
@[simp] theorem setRollcall_pins (s : State) (p : Nat) (x : Option RollCall) : (setRollcall s p x).pins = s.pins := rfl
@[simp] theorem getRollcall_setRollcall_same (s : State) (p : Nat) (x : Option RollCall) : getRollcall (setRollcall s p x) p = x := SMap.get_set_same _ _ _ _
theorem getRollcall_setRollcall_ne (s : State) (p : Nat) (x : Option RollCall) {j : Nat} (h : j ≠ p) : getRollcall (setRollcall s p x) j = getRollcall s j := SMap.get_set_ne _ _ _ _ h

/-! ### setPush -/

@[simp] theorem setPush_pending (s : State) (p : Nat) (x : Option Push) : (setPush s p x).pending = s.pending := rfl
@[simp] theorem setPush_now (s : State) (p : Nat) (x : Option Push) : (setPush s p x).now = s.now := rfl
@[simp] theorem setPush_freeCtr (s : State) (p : Nat) (x : Option Push) : (setPush s p x).freeCtr = s.freeCtr := rfl
@[simp] theorem setPush_wire (s : State) (p : Nat) (x : Option Push) : (setPush s p x).wire = s.wire := rfl
@[simp] theorem setPush_host (s : State) (p : Nat) (x : Option Push) : (setPush s p x).host = s.host := rfl
@[simp] theorem setPush_regs (s : State) (p : Nat) (x : Option Push) : (setPush s p x).regs = s.regs := rfl
@[simp] theorem setPush_hif (s : State) (p : Nat) (x : Option Push) : (setPush s p x).hif = s.hif := rfl
@[simp] theorem setPush_ev (s : State) (p : Nat) (x : Option Push) : (setPush s p x).ev = s.ev := rfl
@[simp] theorem setPush_clk (s : State) (p : Nat) (x : Option Push) : (setPush s p x).clk = s.clk := rfl
@[simp] theorem setPush_pwr (s : State) (p : Nat) (x : Option Push) : (setPush s p x).pwr = s.pwr := rfl
@[simp] theorem setPush_mer (s : State) (p : Nat) (x : Option Push) : (setPush s p x).mer = s.mer := rfl
@[simp] theorem setPush_mem (s : State) (p : Nat) (x : Option Push) : (setPush s p x).mem = s.mem := rfl
@[simp] theorem setPush_prj (s : State) (p : Nat) (x : Option Push) : (setPush s p x).prj = s.prj := rfl
@[simp] theorem setPush_ports (s : State) (p : Nat) (x : Option Push) : (setPush s p x).ports = s.ports := rfl
@[simp] theorem setPush_sw (s : State) (p : Nat) (x : Option Push) : (setPush s p x).sw = s.sw := rfl
@[simp] theorem setPush_tm (s : State) (p : Nat) (x : Option Push) : (setPush s p x).tm = s.tm := rfl
@[simp] theorem setPush_scr (s : State) (p : Nat) (x : Option Push) : (setPush s p x).scr = s.scr := rfl
@[simp] theorem setPush_enc (s : State) (p : Nat) (x : Option Push) : (setPush s p x).enc = s.enc := rfl
@[simp] theorem setPush_bg (s : State) (p : Nat) (x : Option Push) : (setPush s p x).bg = s.bg := rfl
@[simp] theorem setPush_sec (s : State) (p : Nat) (x : Option Push) : (setPush s p x).sec = s.sec := rfl
@[simp] theorem setPush_pins (s : State) (p : Nat) (x : Option Push) : (setPush s p x).pins = s.pins := rfl
@[simp] theorem getPush_setPush_same (s : State) (p : Nat) (x : Option Push) : getPush (setPush s p x) p = x := SMap.get_set_same _ _ _ _
theorem getPush_setPush_ne (s : State) (p : Nat) (x : Option Push) {j : Nat} (h : j ≠ p) : getPush (setPush s p x) j = getPush s j := SMap.get_set_ne _ _ _ _ h

/-! ### setUpdates -/

@[simp] theorem setUpdates_pending (s : State) (l : List TableUpd) : (setUpdates s l).pending = s.pending := rfl
@[simp] theorem setUpdates_now (s : State) (l : List TableUpd) : (setUpdates s l).now = s.now := rfl
@[simp] theorem setUpdates_freeCtr (s : State) (l : List TableUpd) : (setUpdates s l).freeCtr = s.freeCtr := rfl
@[simp] theorem setUpdates_wire (s : State) (l : List TableUpd) : (setUpdates s l).wire = s.wire := rfl
@[simp] theorem setUpdates_host (s : State) (l : List TableUpd) : (setUpdates s l).host = s.host := rfl
@[simp] theorem setUpdates_regs (s : State) (l : List TableUpd) : (setUpdates s l).regs = s.regs := rfl
@[simp] theorem setUpdates_hif (s : State) (l : List TableUpd) : (setUpdates s l).hif = s.hif := rfl
@[simp] theorem setUpdates_ev (s : State) (l : List TableUpd) : (setUpdates s l).ev = s.ev := rfl
@[simp] theorem setUpdates_clk (s : State) (l : List TableUpd) : (setUpdates s l).clk = s.clk := rfl
@[simp] theorem setUpdates_pwr (s : State) (l : List TableUpd) : (setUpdates s l).pwr = s.pwr := rfl
@[simp] theorem setUpdates_mer (s : State) (l : List TableUpd) : (setUpdates s l).mer = s.mer := rfl
@[simp] theorem setUpdates_mem (s : State) (l : List TableUpd) : (setUpdates s l).mem = s.mem := rfl
@[simp] theorem setUpdates_prj (s : State) (l : List TableUpd) : (setUpdates s l).prj = s.prj := rfl
@[simp] theorem setUpdates_ports (s : State) (l : List TableUpd) : (setUpdates s l).ports = s.ports := rfl
@[simp] theorem setUpdates_tm (s : State) (l : List TableUpd) : (setUpdates s l).tm = s.tm := rfl
@[simp] theorem setUpdates_sht (s : State) (l : List TableUpd) : (setUpdates s l).sht = s.sht := rfl
@[simp] theorem setUpdates_scr (s : State) (l : List TableUpd) : (setUpdates s l).scr = s.scr := rfl
@[simp] theorem setUpdates_enc (s : State) (l : List TableUpd) : (setUpdates s l).enc = s.enc := rfl
@[simp] theorem setUpdates_bg (s : State) (l : List TableUpd) : (setUpdates s l).bg = s.bg := rfl
@[simp] theorem setUpdates_sec (s : State) (l : List TableUpd) : (setUpdates s l).sec = s.sec := rfl
@[simp] theorem setUpdates_pins (s : State) (l : List TableUpd) : (setUpdates s l).pins = s.pins := rfl

/-! ### setOtp -/

@[simp] theorem setOtp_pending (s : State) (o : Otp) : (setOtp s o).pending = s.pending := rfl
@[simp] theorem setOtp_now (s : State) (o : Otp) : (setOtp s o).now = s.now := rfl
@[simp] theorem setOtp_freeCtr (s : State) (o : Otp) : (setOtp s o).freeCtr = s.freeCtr := rfl
@[simp] theorem setOtp_wire (s : State) (o : Otp) : (setOtp s o).wire = s.wire := rfl
@[simp] theorem setOtp_host (s : State) (o : Otp) : (setOtp s o).host = s.host := rfl
@[simp] theorem setOtp_regs (s : State) (o : Otp) : (setOtp s o).regs = s.regs := rfl
@[simp] theorem setOtp_hif (s : State) (o : Otp) : (setOtp s o).hif = s.hif := rfl
@[simp] theorem setOtp_ev (s : State) (o : Otp) : (setOtp s o).ev = s.ev := rfl
@[simp] theorem setOtp_clk (s : State) (o : Otp) : (setOtp s o).clk = s.clk := rfl
@[simp] theorem setOtp_pwr (s : State) (o : Otp) : (setOtp s o).pwr = s.pwr := rfl
@[simp] theorem setOtp_mer (s : State) (o : Otp) : (setOtp s o).mer = s.mer := rfl
@[simp] theorem setOtp_mem (s : State) (o : Otp) : (setOtp s o).mem = s.mem := rfl
@[simp] theorem setOtp_prj (s : State) (o : Otp) : (setOtp s o).prj = s.prj := rfl
@[simp] theorem setOtp_ports (s : State) (o : Otp) : (setOtp s o).ports = s.ports := rfl
@[simp] theorem setOtp_sw (s : State) (o : Otp) : (setOtp s o).sw = s.sw := rfl
@[simp] theorem setOtp_tm (s : State) (o : Otp) : (setOtp s o).tm = s.tm := rfl
@[simp] theorem setOtp_sht (s : State) (o : Otp) : (setOtp s o).sht = s.sht := rfl
@[simp] theorem setOtp_scr (s : State) (o : Otp) : (setOtp s o).scr = s.scr := rfl
@[simp] theorem setOtp_enc (s : State) (o : Otp) : (setOtp s o).enc = s.enc := rfl
@[simp] theorem setOtp_bg (s : State) (o : Otp) : (setOtp s o).bg = s.bg := rfl
@[simp] theorem setOtp_pins (s : State) (o : Otp) : (setOtp s o).pins = s.pins := rfl

/-! ### putSelect -/

@[simp] theorem putSelect_pending (s : State) (x : Select) : (putSelect s x).pending = s.pending := rfl
@[simp] theorem putSelect_now (s : State) (x : Select) : (putSelect s x).now = s.now := rfl
@[simp] theorem putSelect_freeCtr (s : State) (x : Select) : (putSelect s x).freeCtr = s.freeCtr := rfl
@[simp] theorem putSelect_wire (s : State) (x : Select) : (putSelect s x).wire = s.wire := rfl
@[simp] theorem putSelect_host (s : State) (x : Select) : (putSelect s x).host = s.host := rfl
@[simp] theorem putSelect_regs (s : State) (x : Select) : (putSelect s x).regs = s.regs := rfl
@[simp] theorem putSelect_hif (s : State) (x : Select) : (putSelect s x).hif = s.hif := rfl
@[simp] theorem putSelect_ev (s : State) (x : Select) : (putSelect s x).ev = s.ev := rfl
@[simp] theorem putSelect_clk (s : State) (x : Select) : (putSelect s x).clk = s.clk := rfl
@[simp] theorem putSelect_pwr (s : State) (x : Select) : (putSelect s x).pwr = s.pwr := rfl
@[simp] theorem putSelect_mer (s : State) (x : Select) : (putSelect s x).mer = s.mer := rfl
@[simp] theorem putSelect_mem (s : State) (x : Select) : (putSelect s x).mem = s.mem := rfl
@[simp] theorem putSelect_prj (s : State) (x : Select) : (putSelect s x).prj = s.prj := rfl
@[simp] theorem putSelect_ports (s : State) (x : Select) : (putSelect s x).ports = s.ports := rfl
@[simp] theorem putSelect_sw (s : State) (x : Select) : (putSelect s x).sw = s.sw := rfl
@[simp] theorem putSelect_tm (s : State) (x : Select) : (putSelect s x).tm = s.tm := rfl
@[simp] theorem putSelect_sht (s : State) (x : Select) : (putSelect s x).sht = s.sht := rfl
@[simp] theorem putSelect_scr (s : State) (x : Select) : (putSelect s x).scr = s.scr := rfl
@[simp] theorem putSelect_enc (s : State) (x : Select) : (putSelect s x).enc = s.enc := rfl
@[simp] theorem putSelect_bg (s : State) (x : Select) : (putSelect s x).bg = s.bg := rfl
@[simp] theorem putSelect_pins (s : State) (x : Select) : (putSelect s x).pins = s.pins := rfl

/-! ### setLink -/

@[simp] theorem setLink_pending (s : State) (die : Nat) (x : Option (Nat × Nat)) : (setLink s die x).pending = s.pending := rfl
@[simp] theorem setLink_now (s : State) (die : Nat) (x : Option (Nat × Nat)) : (setLink s die x).now = s.now := rfl
@[simp] theorem setLink_freeCtr (s : State) (die : Nat) (x : Option (Nat × Nat)) : (setLink s die x).freeCtr = s.freeCtr := rfl
@[simp] theorem setLink_wire (s : State) (die : Nat) (x : Option (Nat × Nat)) : (setLink s die x).wire = s.wire := rfl
@[simp] theorem setLink_host (s : State) (die : Nat) (x : Option (Nat × Nat)) : (setLink s die x).host = s.host := rfl
@[simp] theorem setLink_regs (s : State) (die : Nat) (x : Option (Nat × Nat)) : (setLink s die x).regs = s.regs := rfl
@[simp] theorem setLink_hif (s : State) (die : Nat) (x : Option (Nat × Nat)) : (setLink s die x).hif = s.hif := rfl
@[simp] theorem setLink_ev (s : State) (die : Nat) (x : Option (Nat × Nat)) : (setLink s die x).ev = s.ev := rfl
@[simp] theorem setLink_pwr (s : State) (die : Nat) (x : Option (Nat × Nat)) : (setLink s die x).pwr = s.pwr := rfl
@[simp] theorem setLink_mer (s : State) (die : Nat) (x : Option (Nat × Nat)) : (setLink s die x).mer = s.mer := rfl
@[simp] theorem setLink_mem (s : State) (die : Nat) (x : Option (Nat × Nat)) : (setLink s die x).mem = s.mem := rfl
@[simp] theorem setLink_prj (s : State) (die : Nat) (x : Option (Nat × Nat)) : (setLink s die x).prj = s.prj := rfl
@[simp] theorem setLink_ports (s : State) (die : Nat) (x : Option (Nat × Nat)) : (setLink s die x).ports = s.ports := rfl
@[simp] theorem setLink_sw (s : State) (die : Nat) (x : Option (Nat × Nat)) : (setLink s die x).sw = s.sw := rfl
@[simp] theorem setLink_tm (s : State) (die : Nat) (x : Option (Nat × Nat)) : (setLink s die x).tm = s.tm := rfl
@[simp] theorem setLink_sht (s : State) (die : Nat) (x : Option (Nat × Nat)) : (setLink s die x).sht = s.sht := rfl
@[simp] theorem setLink_scr (s : State) (die : Nat) (x : Option (Nat × Nat)) : (setLink s die x).scr = s.scr := rfl
@[simp] theorem setLink_enc (s : State) (die : Nat) (x : Option (Nat × Nat)) : (setLink s die x).enc = s.enc := rfl
@[simp] theorem setLink_bg (s : State) (die : Nat) (x : Option (Nat × Nat)) : (setLink s die x).bg = s.bg := rfl
@[simp] theorem setLink_sec (s : State) (die : Nat) (x : Option (Nat × Nat)) : (setLink s die x).sec = s.sec := rfl
@[simp] theorem setLink_pins (s : State) (die : Nat) (x : Option (Nat × Nat)) : (setLink s die x).pins = s.pins := rfl
@[simp] theorem getLink_setLink_same (s : State) (die : Nat) (x : Option (Nat × Nat)) : getLink (setLink s die x) die = x := SMap.get_set_same _ _ _ _
theorem getLink_setLink_ne (s : State) (die : Nat) (x : Option (Nat × Nat)) {j : Nat} (h : j ≠ die) : getLink (setLink s die x) j = getLink s j := SMap.get_set_ne _ _ _ _ h

/-! ### setStage -/

@[simp] theorem setStage_pending (s : State) (g : ClkStage) : (setStage s g).pending = s.pending := rfl
@[simp] theorem setStage_now (s : State) (g : ClkStage) : (setStage s g).now = s.now := rfl
@[simp] theorem setStage_freeCtr (s : State) (g : ClkStage) : (setStage s g).freeCtr = s.freeCtr := rfl
@[simp] theorem setStage_wire (s : State) (g : ClkStage) : (setStage s g).wire = s.wire := rfl
@[simp] theorem setStage_host (s : State) (g : ClkStage) : (setStage s g).host = s.host := rfl
@[simp] theorem setStage_regs (s : State) (g : ClkStage) : (setStage s g).regs = s.regs := rfl
@[simp] theorem setStage_hif (s : State) (g : ClkStage) : (setStage s g).hif = s.hif := rfl
@[simp] theorem setStage_ev (s : State) (g : ClkStage) : (setStage s g).ev = s.ev := rfl
@[simp] theorem setStage_pwr (s : State) (g : ClkStage) : (setStage s g).pwr = s.pwr := rfl
@[simp] theorem setStage_mer (s : State) (g : ClkStage) : (setStage s g).mer = s.mer := rfl
@[simp] theorem setStage_mem (s : State) (g : ClkStage) : (setStage s g).mem = s.mem := rfl
@[simp] theorem setStage_prj (s : State) (g : ClkStage) : (setStage s g).prj = s.prj := rfl
@[simp] theorem setStage_ports (s : State) (g : ClkStage) : (setStage s g).ports = s.ports := rfl
@[simp] theorem setStage_sw (s : State) (g : ClkStage) : (setStage s g).sw = s.sw := rfl
@[simp] theorem setStage_tm (s : State) (g : ClkStage) : (setStage s g).tm = s.tm := rfl
@[simp] theorem setStage_sht (s : State) (g : ClkStage) : (setStage s g).sht = s.sht := rfl
@[simp] theorem setStage_scr (s : State) (g : ClkStage) : (setStage s g).scr = s.scr := rfl
@[simp] theorem setStage_enc (s : State) (g : ClkStage) : (setStage s g).enc = s.enc := rfl
@[simp] theorem setStage_bg (s : State) (g : ClkStage) : (setStage s g).bg = s.bg := rfl
@[simp] theorem setStage_sec (s : State) (g : ClkStage) : (setStage s g).sec = s.sec := rfl
@[simp] theorem setStage_pins (s : State) (g : ClkStage) : (setStage s g).pins = s.pins := rfl

/-! ### setRelock -/

@[simp] theorem setRelock_pending (s : State) (n : Nat) (x : Option Nat) : (setRelock s n x).pending = s.pending := rfl
@[simp] theorem setRelock_now (s : State) (n : Nat) (x : Option Nat) : (setRelock s n x).now = s.now := rfl
@[simp] theorem setRelock_freeCtr (s : State) (n : Nat) (x : Option Nat) : (setRelock s n x).freeCtr = s.freeCtr := rfl
@[simp] theorem setRelock_wire (s : State) (n : Nat) (x : Option Nat) : (setRelock s n x).wire = s.wire := rfl
@[simp] theorem setRelock_host (s : State) (n : Nat) (x : Option Nat) : (setRelock s n x).host = s.host := rfl
@[simp] theorem setRelock_regs (s : State) (n : Nat) (x : Option Nat) : (setRelock s n x).regs = s.regs := rfl
@[simp] theorem setRelock_hif (s : State) (n : Nat) (x : Option Nat) : (setRelock s n x).hif = s.hif := rfl
@[simp] theorem setRelock_ev (s : State) (n : Nat) (x : Option Nat) : (setRelock s n x).ev = s.ev := rfl
@[simp] theorem setRelock_pwr (s : State) (n : Nat) (x : Option Nat) : (setRelock s n x).pwr = s.pwr := rfl
@[simp] theorem setRelock_mer (s : State) (n : Nat) (x : Option Nat) : (setRelock s n x).mer = s.mer := rfl
@[simp] theorem setRelock_mem (s : State) (n : Nat) (x : Option Nat) : (setRelock s n x).mem = s.mem := rfl
@[simp] theorem setRelock_prj (s : State) (n : Nat) (x : Option Nat) : (setRelock s n x).prj = s.prj := rfl
@[simp] theorem setRelock_ports (s : State) (n : Nat) (x : Option Nat) : (setRelock s n x).ports = s.ports := rfl
@[simp] theorem setRelock_sw (s : State) (n : Nat) (x : Option Nat) : (setRelock s n x).sw = s.sw := rfl
@[simp] theorem setRelock_tm (s : State) (n : Nat) (x : Option Nat) : (setRelock s n x).tm = s.tm := rfl
@[simp] theorem setRelock_sht (s : State) (n : Nat) (x : Option Nat) : (setRelock s n x).sht = s.sht := rfl
@[simp] theorem setRelock_scr (s : State) (n : Nat) (x : Option Nat) : (setRelock s n x).scr = s.scr := rfl
@[simp] theorem setRelock_enc (s : State) (n : Nat) (x : Option Nat) : (setRelock s n x).enc = s.enc := rfl
@[simp] theorem setRelock_bg (s : State) (n : Nat) (x : Option Nat) : (setRelock s n x).bg = s.bg := rfl
@[simp] theorem setRelock_sec (s : State) (n : Nat) (x : Option Nat) : (setRelock s n x).sec = s.sec := rfl
@[simp] theorem setRelock_pins (s : State) (n : Nat) (x : Option Nat) : (setRelock s n x).pins = s.pins := rfl
@[simp] theorem getRelock_setRelock_same (s : State) (n : Nat) (x : Option Nat) : getRelock (setRelock s n x) n = x := SMap.get_set_same _ _ _ _
theorem getRelock_setRelock_ne (s : State) (n : Nat) (x : Option Nat) {j : Nat} (h : j ≠ n) : getRelock (setRelock s n x) j = getRelock s j := SMap.get_set_ne _ _ _ _ h

/-! ### setF -/

@[simp] theorem setF_pending (s : State) (f : Fld) (i v : Nat) : (setF s f i v).pending = s.pending := by
  obtain ⟨r, h⟩ := setF_regs s f i v
  rw [h]
@[simp] theorem setF_now (s : State) (f : Fld) (i v : Nat) : (setF s f i v).now = s.now := by
  obtain ⟨r, h⟩ := setF_regs s f i v
  rw [h]
@[simp] theorem setF_freeCtr (s : State) (f : Fld) (i v : Nat) : (setF s f i v).freeCtr = s.freeCtr := by
  obtain ⟨r, h⟩ := setF_regs s f i v
  rw [h]
@[simp] theorem setF_wire (s : State) (f : Fld) (i v : Nat) : (setF s f i v).wire = s.wire := by
  obtain ⟨r, h⟩ := setF_regs s f i v
  rw [h]
@[simp] theorem setF_host (s : State) (f : Fld) (i v : Nat) : (setF s f i v).host = s.host := by
  obtain ⟨r, h⟩ := setF_regs s f i v
  rw [h]
@[simp] theorem setF_hif (s : State) (f : Fld) (i v : Nat) : (setF s f i v).hif = s.hif := by
  obtain ⟨r, h⟩ := setF_regs s f i v
  rw [h]
@[simp] theorem setF_ev (s : State) (f : Fld) (i v : Nat) : (setF s f i v).ev = s.ev := by
  obtain ⟨r, h⟩ := setF_regs s f i v
  rw [h]
@[simp] theorem setF_clk (s : State) (f : Fld) (i v : Nat) : (setF s f i v).clk = s.clk := by
  obtain ⟨r, h⟩ := setF_regs s f i v
  rw [h]
@[simp] theorem setF_pwr (s : State) (f : Fld) (i v : Nat) : (setF s f i v).pwr = s.pwr := by
  obtain ⟨r, h⟩ := setF_regs s f i v
  rw [h]
@[simp] theorem setF_mer (s : State) (f : Fld) (i v : Nat) : (setF s f i v).mer = s.mer := by
  obtain ⟨r, h⟩ := setF_regs s f i v
  rw [h]
@[simp] theorem setF_mem (s : State) (f : Fld) (i v : Nat) : (setF s f i v).mem = s.mem := by
  obtain ⟨r, h⟩ := setF_regs s f i v
  rw [h]
@[simp] theorem setF_prj (s : State) (f : Fld) (i v : Nat) : (setF s f i v).prj = s.prj := by
  obtain ⟨r, h⟩ := setF_regs s f i v
  rw [h]
@[simp] theorem setF_ports (s : State) (f : Fld) (i v : Nat) : (setF s f i v).ports = s.ports := by
  obtain ⟨r, h⟩ := setF_regs s f i v
  rw [h]
@[simp] theorem setF_sw (s : State) (f : Fld) (i v : Nat) : (setF s f i v).sw = s.sw := by
  obtain ⟨r, h⟩ := setF_regs s f i v
  rw [h]
@[simp] theorem setF_tm (s : State) (f : Fld) (i v : Nat) : (setF s f i v).tm = s.tm := by
  obtain ⟨r, h⟩ := setF_regs s f i v
  rw [h]
@[simp] theorem setF_sht (s : State) (f : Fld) (i v : Nat) : (setF s f i v).sht = s.sht := by
  obtain ⟨r, h⟩ := setF_regs s f i v
  rw [h]
@[simp] theorem setF_scr (s : State) (f : Fld) (i v : Nat) : (setF s f i v).scr = s.scr := by
  obtain ⟨r, h⟩ := setF_regs s f i v
  rw [h]
@[simp] theorem setF_enc (s : State) (f : Fld) (i v : Nat) : (setF s f i v).enc = s.enc := by
  obtain ⟨r, h⟩ := setF_regs s f i v
  rw [h]
@[simp] theorem setF_bg (s : State) (f : Fld) (i v : Nat) : (setF s f i v).bg = s.bg := by
  obtain ⟨r, h⟩ := setF_regs s f i v
  rw [h]
@[simp] theorem setF_sec (s : State) (f : Fld) (i v : Nat) : (setF s f i v).sec = s.sec := by
  obtain ⟨r, h⟩ := setF_regs s f i v
  rw [h]
@[simp] theorem setF_pins (s : State) (f : Fld) (i v : Nat) : (setF s f i v).pins = s.pins := by
  obtain ⟨r, h⟩ := setF_regs s f i v
  rw [h]

end Sys2Proof.Machine
end

