-- ==== Sys2Proof/Laws/Keep.lean ====
section
/-!
SUPPORT. What every operation keeps, as one relation between a state and a later one, with the laws of the operations that
change something in it.
-/

set_option Elab.async false

namespace Sys2Proof.Machine

theorem FusesOnlyBurn.refl (a : Otp) : FusesOnlyBurn a a :=
  ⟨rfl, rfl, rfl, rfl, fun _ h => h, Nat.le_refl _, rfl, fun _ => rfl, fun h => h⟩

theorem FusesOnlyBurn.trans {a b c : Otp} (h : FusesOnlyBurn a b) (k : FusesOnlyBurn b c) : FusesOnlyBurn a c :=
  ⟨k.rootHash.trans h.rootHash, k.serial.trans h.serial, k.troTrim.trans h.troTrim, k.idCert.trans h.idCert,
   fun i x => k.lifecycle i (h.lifecycle i x), Nat.le_trans h.svn k.svn, k.policy.trans h.policy,
   fun x => (k.ownerHash (by rw [h.ownerHash x]; exact x)).trans (h.ownerHash x), fun x => k.idKey (h.idKey x)⟩

/-- From o to s the queue and the reference time have not moved, free values have only been taken, what was sent stays sent,
fuses have only burnt, and the invariant holds if it held. -/
structure Keep (o s : State) : Prop where
  pending : s.pending = o.pending
  now : s.now = o.now
  free : o.freeCtr ≤ s.freeCtr
  wire : o.wire <+: s.wire
  fuses : FusesOnlyBurn o.sec.otp s.sec.otp
  inv : Inv o → Inv s

theorem Keep.refl (s : State) : Keep s s :=
  ⟨rfl, rfl, Nat.le_refl _, List.prefix_refl _, FusesOnlyBurn.refl _, fun h => h⟩

theorem Keep.trans {a b c : State} (h : Keep a b) (k : Keep b c) : Keep a c :=
  ⟨k.pending.trans h.pending, k.now.trans h.now, Nat.le_trans h.free k.free, h.wire.trans k.wire, h.fuses.trans k.fuses,
   fun i => k.inv (h.inv i)⟩

/-- A meaning answers a next state that keeps, or stops. -/
def KeepOut (o : State) (r : Host.Outcome State Fault Refusal) : Prop := ∀ t, r = .next t → Keep o t

theorem keepOut_next {o s : State} (h : Keep o s) : KeepOut o (.next s) := by
  intro t e
  cases e
  exact h

/-- An update of fields that the relation does not look at. -/
theorem keep_mk {o s : State} {pending now freeCtr wire host regs hif ev clk pwr mer mem prj ports sw tm sht scr enc bg sec pins}
    (h1 : pending = s.pending) (h2 : now = s.now) (h3 : freeCtr = s.freeCtr) (h4 : wire = s.wire) (h5 : host = s.host)
    (h6 : regs = s.regs) (h7 : Ev.evq ev = s.ev.evq) (h8 : Ev.log ev = s.ev.log) (h9 : Mer.ns mer = s.mer.ns)
    (h10 : Mer.frac mer = s.mer.frac) (h11 : Mem.hbm mem = s.mem.hbm) (h12 : Sec.otp sec = s.sec.otp) (h : Keep o s) :
    Keep o ⟨pending, now, freeCtr, wire, host, regs, hif, ev, clk, pwr, mer, mem, prj, ports, sw, tm, sht, scr, enc, bg, sec, pins⟩ := by
  subst h1 h2 h3 h4 h5 h6
  refine ⟨h.pending, h.now, h.free, h.wire, ?_, fun i => ?_⟩
  · rw [h12]; exact h.fuses
  · have j := h.inv i
    refine ⟨j.host, j.regs, ?_, ?_, ?_, ?_⟩
    · show hbmWf mem.hbm = true
      rw [h11]; exact j.hbm
    · show ev.evq.length ≤ 32
      rw [h7]; exact j.evq
    · show ev.log.length ≤ 4096
      rw [h8]; exact j.log
    · have := j.time
      simp only [Mer.isTime] at this ⊢
      rw [h9, h10]; exact this

/-- The same with a new Meridian time. -/
theorem keep_mk_time {o s : State} {pending now freeCtr wire host regs hif ev clk pwr mer mem prj ports sw tm sht scr enc bg sec pins}
    (h1 : pending = s.pending) (h2 : now = s.now) (h3 : freeCtr = s.freeCtr) (h4 : wire = s.wire) (h5 : host = s.host)
    (h6 : regs = s.regs) (h7 : Ev.evq ev = s.ev.evq) (h8 : Ev.log ev = s.ev.log) (h9 : Mer.isTime mer = true)
    (h11 : Mem.hbm mem = s.mem.hbm) (h12 : Sec.otp sec = s.sec.otp) (h : Keep o s) :
    Keep o ⟨pending, now, freeCtr, wire, host, regs, hif, ev, clk, pwr, mer, mem, prj, ports, sw, tm, sht, scr, enc, bg, sec, pins⟩ := by
  subst h1 h2 h3 h4 h5 h6
  refine ⟨h.pending, h.now, h.free, h.wire, ?_, fun i => ?_⟩
  · rw [h12]; exact h.fuses
  · have j := h.inv i
    refine ⟨j.host, j.regs, ?_, ?_, ?_, h9⟩
    · show hbmWf mem.hbm = true
      rw [h11]; exact j.hbm
    · show ev.evq.length ≤ 32
      rw [h7]; exact j.evq
    · show ev.log.length ≤ 4096
      rw [h8]; exact j.log

theorem keep_ite {o a b : State} {c : Prop} [Decidable c] (hb : Keep o b) (ha : Keep o b → Keep o a) :
    Keep o (if c then a else b) := by
  split
  · exact ha hb
  · exact hb

theorem keep_ite_fst {α : Type} {o : State} {a b : State × α} {c : Prop} [Decidable c] (hb : Keep o b.1)
    (ha : Keep o b.1 → Keep o a.1) : Keep o (if c then a else b).1 := by
  split
  · exact ha hb
  · exact hb

theorem keep_ite_snd {α : Type} {o : State} {a b : α × State} {c : Prop} [Decidable c] (hb : Keep o b.2)
    (ha : Keep o b.2 → Keep o a.2) : Keep o (if c then a else b).2 := by
  split
  · exact ha hb
  · exact hb

theorem keepOut_ite {o : State} {a b : Host.Outcome State Fault Refusal} {c : Prop} [Decidable c] (ha : KeepOut o a)
    (hb : KeepOut o b) : KeepOut o (if c then a else b) := by
  split
  · exact ha
  · exact hb

theorem keep_foldl {α : Type} {o s : State} {l : List α} {f : State → α → State} (hf : ∀ s x, Keep o s → Keep o (f s x))
    (h : Keep o s) : Keep o (l.foldl f s) := by
  induction l generalizing s with
  | nil => exact h
  | cons x t ih => exact ih (hf s x h)

theorem keep_foldl_fst {α β : Type} {o : State} {p : State × β} {l : List α} {f : State × β → α → State × β}
    (hf : ∀ p x, Keep o p.1 → Keep o (f p x).1) (h : Keep o p.1) : Keep o (l.foldl f p).1 := by
  induction l generalizing p with
  | nil => exact h
  | cons x t ih => exact ih (hf p x h)

theorem keep_foldl_snd {α β : Type} {o : State} {p : β × State} {l : List α} {f : β × State → α → β × State}
    (hf : ∀ p x, Keep o p.2 → Keep o (f p x).2) (h : Keep o p.2) : Keep o (l.foldl f p).2 := by
  induction l generalizing p with
  | nil => exact h
  | cons x t ih => exact ih (hf p x h)

theorem keep_foldS {α : Type} {o s : State} {l : List α} {f : State → α → State} (hf : ∀ s x, Keep o s → Keep o (f s x))
    (h : Keep o s) : Keep o (foldS l f s) := keep_foldl hf h

theorem keep_snd {α : Type} {o s : State} {p : α × State} {a : α} (e : p = (a, s)) (h : Keep o p.2) : Keep o s := by
  subst e; exact h

theorem keep_fst {α : Type} {o s : State} {p : State × α} {a : α} (e : p = (s, a)) (h : Keep o p.1) : Keep o s := by
  subst e; exact h

theorem keep_some {α : Type} {o s : State} {p : Option (α × State)} {a : α} (e : p = some (a, s))
    (h : ∀ a t, p = some (a, t) → Keep o t) : Keep o s := h a s e

/-- A state that may be missing keeps, if it is there. -/
def KeepOpt (o : State) (p : Option State) : Prop := ∀ t, p = some t → Keep o t

theorem keep_of_opt {o s : State} {p : Option State} (h : KeepOpt o p) (e : p = some s) : Keep o s := h s e

theorem keepOpt_none {o : State} : KeepOpt o none := fun _ e => nomatch e

theorem keepOpt_some {o s : State} (h : Keep o s) : KeepOpt o (some s) := by
  intro t e
  cases e
  exact h

theorem keepOpt_ite {o : State} {a b : Option State} {c : Prop} [Decidable c] (ha : KeepOpt o a) (hb : KeepOpt o b) :
    KeepOpt o (if c then a else b) := by
  split
  · exact ha
  · exact hb

theorem keepOpt_orElse {o : State} {a : Option State} {b : Unit → Option State} (ha : KeepOpt o a) (hb : KeepOpt o (b ())) :
    KeepOpt o (a.orElse b) := by
  cases a with
  | none => exact hb
  | some _ => exact ha

theorem keep_getD {o d : State} {a : Option State} (ha : KeepOpt o a) (hd : Keep o d) : Keep o (a.getD d) := by
  cases a with
  | none => exact hd
  | some t => exact ha t rfl

/-! ### Operations that change what the relation looks at -/

theorem keep_setW {o s : State} {off : Nat} {v : Word} (h : Keep o s) : Keep o (setW s off v) := by
  refine ⟨h.pending, h.now, h.free, h.wire, h.fuses, fun i => ?_⟩
  have j := h.inv i
  refine ⟨j.host, ?_, j.hbm, j.evq, j.log, j.time⟩
  have hr := j.regs
  simp only [regsWf, Bool.and_eq_true, List.all_eq_true] at hr ⊢
  unfold setW
  simp only [SMap.set]
  split
  · exact ⟨SMap.sorted_erase _ hr.1, fun x hx => hr.2 x (SMap.mem_erase hx)⟩
  · rename_i hv
    refine ⟨SMap.sorted_insert _ _ hr.1, fun x hx => ?_⟩
    rcases SMap.mem_insert hx with rfl | hx
    · simpa using hv
    · exact hr.2 x hx

theorem keep_regsFilter {o s : State} {p : Nat × Word → Bool} (h : Keep o s) :
    Keep o { s with regs := s.regs.filter p } := by
  refine ⟨h.pending, h.now, h.free, h.wire, h.fuses, fun i => ?_⟩
  have j := h.inv i
  refine ⟨j.host, ?_, j.hbm, j.evq, j.log, j.time⟩
  have hr := j.regs
  simp only [regsWf, Bool.and_eq_true, List.all_eq_true] at hr ⊢
  exact ⟨SMap.sorted_filter _ hr.1, fun x hx => hr.2 x (List.mem_filter.1 hx).1⟩

theorem keep_resetRegs {o s : State} {lo hi : Nat} (h : Keep o s) : Keep o (resetRegs s lo hi) := keep_regsFilter h

theorem memWf_writeByte {m : List Host.Cell} (a : Nat) (b : Byte) (h : memWf m = true) : memWf (memWriteByte m a b) = true :=
  SMap.canon_set (d := (0 : Byte)) a b h

theorem memWf_write {m : List Host.Cell} {a : Nat} {b : List Byte} (h : memWf m = true) : memWf (memWrite m a b) = true := by
  induction b generalizing m a with
  | nil => exact h
  | cons x t ih => exact ih (memWf_writeByte a x h)

theorem keep_hostWrite {o s : State} {a : Nat} {b : List Byte} (h : Keep o s) : Keep o (hostWrite s a b) := by
  refine ⟨h.pending, h.now, h.free, h.wire, h.fuses, fun i => ?_⟩
  have j := h.inv i
  exact ⟨memWf_write j.host, j.regs, j.hbm, j.evq, j.log, j.time⟩

theorem keep_emit {o s : State} {e : Emission} (h : Keep o s) : Keep o (emit s e) := by
  refine ⟨h.pending, h.now, h.free, h.wire.trans (List.prefix_append _ _), h.fuses, fun i => ?_⟩
  have j := h.inv i
  exact ⟨j.host, j.regs, j.hbm, j.evq, j.log, j.time⟩

theorem keep_free {o s : State} {n : Nat} (h : Keep o s) : Keep o { s with freeCtr := s.freeCtr + n } := by
  refine ⟨h.pending, h.now, Nat.le_trans h.free (Nat.le_add_right _ n), h.wire, h.fuses, fun i => ?_⟩
  have j := h.inv i
  exact ⟨j.host, j.regs, j.hbm, j.evq, j.log, j.time⟩

theorem keep_setHbm {o s : State} {w : Nat} {x : HbmWord} (h : Keep o s) : Keep o (setHbm s w x) := by
  refine ⟨h.pending, h.now, h.free, h.wire, h.fuses, fun i => ?_⟩
  have j := h.inv i
  exact ⟨j.host, j.regs, SMap.canon_set w x HbmWord.init j.hbm, j.evq, j.log, j.time⟩

theorem log_bound (l : List EvRec) (r : EvRec) : ((l ++ [r]).drop (l.length + 1 - 4096)).length ≤ 4096 := by
  rw [List.length_drop, List.length_append, List.length_singleton]
  generalize l.length + 1 = n
  omega

theorem keep_evlog {o s : State} {l : List EvRec} (hl : l.length ≤ 4096) (h : Keep o s) :
    Keep o { s with ev := { s.ev with log := l } } := by
  refine ⟨h.pending, h.now, h.free, h.wire, h.fuses, fun i => ?_⟩
  have j := h.inv i
  exact ⟨j.host, j.regs, j.hbm, j.evq, hl, j.time⟩

theorem keep_log {o s : State} {r : EvRec} (h : Keep o s) :
    Keep o { s with ev := { s.ev with log := (s.ev.log ++ [r]).drop (s.ev.log.length + 1 - 4096) } } :=
  keep_evlog (log_bound s.ev.log r) h

theorem keep_evq {o s : State} {l : List EvRec} (hl : s.ev.evq.length ≤ 32 → l.length ≤ 32) (h : Keep o s) :
    Keep o { s with ev := { s.ev with evq := l } } := by
  refine ⟨h.pending, h.now, h.free, h.wire, h.fuses, fun i => ?_⟩
  have j := h.inv i
  exact ⟨j.host, j.regs, j.hbm, hl j.evq, j.log, j.time⟩

theorem keep_push {o s : State} {r : EvRec} (h : Keep o s) :
    Keep o { s with ev := { s.ev with evq := if s.ev.evq.length < 32 then s.ev.evq ++ [r] else s.ev.evq } } := by
  refine keep_evq (fun k => ?_) h
  split
  · simp only [List.length_append, List.length_singleton]; omega
  · exact k

theorem keep_setOtp {o s : State} {x : Otp} (hx : FusesOnlyBurn s.sec.otp x) (h : Keep o s) : Keep o (setOtp s x) := by
  refine ⟨h.pending, h.now, h.free, h.wire, h.fuses.trans hx, fun i => ?_⟩
  have j := h.inv i
  exact ⟨j.host, j.regs, j.hbm, j.evq, j.log, j.time⟩

theorem keep_mer {o s : State} {m : Mer} (hm : s.mer.isTime = true → m.isTime = true) (h : Keep o s) :
    Keep o { s with mer := m } := by
  refine ⟨h.pending, h.now, h.free, h.wire, h.fuses, fun i => ?_⟩
  have j := h.inv i
  exact ⟨j.host, j.regs, j.hbm, j.evq, j.log, hm j.time⟩

theorem keep_whole_second {o s : State} {x : Nat} (h : Keep o s) :
    Keep o { s with mer := { s.mer with sec := x, ns := 0, frac := 0 } } := keep_mer (fun _ => rfl) h

end Sys2Proof.Machine
end

