-- ==== Sys2Proof/Laws/Frame.lean ====
section
/-!
SUPPORT. Frames: what an operation leaves as it was, said once for the operations over registers and for an update of State's
fields. The parts that may change are those of which w says true.
-/

set_option Elab.async false

namespace Sys2Proof.Machine

/-- From o to s no part has changed but those of which w says true. -/
def Fr (w : Part → Bool) (o s : State) : Prop := ∀ p, w p = false → p.same o s

theorem Part.same_refl (p : Part) (s : State) : p.same s s := by
  cases p <;> first | rfl | exact ⟨rfl, rfl⟩ | exact fun _ _ => rfl

theorem Fr.refl (w : Part → Bool) (s : State) : Fr w s s := fun p _ => p.same_refl s

theorem Part.same_trans {p : Part} {a b c : State} (h : p.same a b) (k : p.same b c) : p.same a c := by
  cases p <;> first | exact Eq.trans k h | exact ⟨k.1.trans h.1, k.2.trans h.2⟩ | exact fun o e => (k o e).trans (h o e)

theorem Fr.trans {w : Part → Bool} {a b c : State} (h : Fr w a b) (k : Fr w b c) : Fr w a c :=
  fun p hp => Part.same_trans (h p hp) (k p hp)

theorem changesOnly_of_fr {l : List Part} {s t : State} (h : Fr (fun p => decide (p ∈ l)) s t) : ChangesOnly l s t :=
  fun p hp => h p (decide_eq_false hp)

/-- A meaning answers a next state that differs in no other part, or stops. -/
def FrOut (w : Part → Bool) (o : State) (r : Host.Outcome State Fault Refusal) : Prop := ∀ t, r = .next t → Fr w o t

theorem frOut_next {w : Part → Bool} {o s : State} (h : Fr w o s) : FrOut w o (.next s) := by
  intro t e
  cases e
  exact h

/-- An update of fields whose parts may change; the others are the same. -/
theorem fr_mk {w : Part → Bool} {o s : State}
    {pending now freeCtr wire host regs hif ev clk pwr mer mem prj ports sw tm sht scr enc bg sec pins} (_h0 : now = s.now)
    (h : Fr w o s)
    (h1 : w .freeCtr = true ∨ freeCtr = s.freeCtr := by first | exact .inl ‹_› | exact .inr rfl | exact .inl rfl)
    (h2 : w .wire = true ∨ wire = s.wire := by first | exact .inl ‹_› | exact .inr rfl | exact .inl rfl)
    (h3 : w .host = true ∨ host = s.host := by first | exact .inl ‹_› | exact .inr rfl | exact .inl rfl)
    (h4 : (∀ k, w (.regs k) = true) ∨ regs = s.regs := by first | exact .inl ‹_› | exact .inr rfl | exact .inl rfl)
    (h5 : w .hif = true ∨ hif = s.hif := by first | exact .inl ‹_› | exact .inr rfl | exact .inl rfl)
    (h6 : w .ev = true ∨ ev = s.ev := by first | exact .inl ‹_› | exact .inr rfl | exact .inl rfl)
    (h7 : w .clk = true ∨ clk = s.clk := by first | exact .inl ‹_› | exact .inr rfl | exact .inl rfl)
    (h8 : w .pwr = true ∨ pwr = s.pwr := by first | exact .inl ‹_› | exact .inr rfl | exact .inl rfl)
    (h9 : w .mer = true ∨ mer = s.mer := by first | exact .inl ‹_› | exact .inr rfl | exact .inl rfl)
    (h10 : w .tmr = true ∨ Mem.tmr mem = s.mem.tmr := by first | exact .inl ‹_› | exact .inr rfl | exact .inl rfl)
    (h11 : w .mem = true ∨ { mem with tmr := [] } = { s.mem with tmr := [] } := by first | exact .inl ‹_› | exact .inr rfl | exact .inl rfl)
    (h12 : w .prj = true ∨ prj = s.prj := by first | exact .inl ‹_› | exact .inr rfl | exact .inl rfl)
    (h13 : w .ports = true ∨ ports = s.ports := by first | exact .inl ‹_› | exact .inr rfl | exact .inl rfl)
    (h14 : w .sw = true ∨ sw = s.sw := by first | exact .inl ‹_› | exact .inr rfl | exact .inl rfl)
    (h15 : w .tm = true ∨ tm = s.tm := by first | exact .inl ‹_› | exact .inr rfl | exact .inl rfl)
    (h16 : w .sht = true ∨ sht = s.sht := by first | exact .inl ‹_› | exact .inr rfl | exact .inl rfl)
    (h17 : w .scr = true ∨ scr = s.scr := by first | exact .inl ‹_› | exact .inr rfl | exact .inl rfl)
    (h18 : w .enc = true ∨ enc = s.enc := by first | exact .inl ‹_› | exact .inr rfl | exact .inl rfl)
    (h19 : w .bgLog = true ∨ (Bg.faultBuf bg = s.bg.faultBuf ∧ Bg.teleCounts bg = s.bg.teleCounts) := by
      first | exact .inl ‹_› | exact .inr ⟨rfl, rfl⟩ | exact .inl rfl)
    (h20 : w .bg = true ∨ { bg with faultBuf := [], teleCounts := [] } = { s.bg with faultBuf := [], teleCounts := [] } := by
      first | exact .inl ‹_› | exact .inr rfl | exact .inl rfl)
    (h21 : w .select = true ∨ Sec.select sec = s.sec.select := by first | exact .inl ‹_› | exact .inr rfl | exact .inl rfl)
    (h22 : w .sec = true ∨ { sec with select := none } = { s.sec with select := none } := by
      first | exact .inl ‹_› | exact .inr rfl | exact .inl rfl)
    (h23 : w .pins = true ∨ pins = s.pins := by first | exact .inl ‹_› | exact .inr rfl | exact .inl rfl) :
    Fr w o ⟨pending, now, freeCtr, wire, host, regs, hif, ev, clk, pwr, mer, mem, prj, ports, sw, tm, sht, scr, enc, bg, sec, pins⟩ := by
  refine Fr.trans h (fun p hp => ?_)
  have pick : ∀ {a : Prop} {q : Part}, w q = false → (w q = true ∨ a) → a := by
    intro a q hf hd
    rcases hd with hd | hd
    · rw [hf] at hd
      cases hd
    · exact hd
  cases p
  case regs k =>
    rcases h4 with h4 | h4
    · have := h4 k
      rw [hp] at this
      cases this
    · intro off _
      simp only [regW, h4]
  all_goals exact pick hp (by assumption)

theorem fr_ite {w : Part → Bool} {o a b : State} {c : Prop} [Decidable c] (hb : Fr w o b) (ha : Fr w o b → Fr w o a) :
    Fr w o (if c then a else b) := by
  split
  · exact ha hb
  · exact hb

theorem fr_ite_fst {α : Type} {w : Part → Bool} {o : State} {a b : State × α} {c : Prop} [Decidable c] (hb : Fr w o b.1)
    (ha : Fr w o b.1 → Fr w o a.1) : Fr w o (if c then a else b).1 := by
  split
  · exact ha hb
  · exact hb

theorem fr_ite_snd {α : Type} {w : Part → Bool} {o : State} {a b : α × State} {c : Prop} [Decidable c] (hb : Fr w o b.2)
    (ha : Fr w o b.2 → Fr w o a.2) : Fr w o (if c then a else b).2 := by
  split
  · exact ha hb
  · exact hb

theorem frOut_ite {w : Part → Bool} {o : State} {a b : Host.Outcome State Fault Refusal} {c : Prop} [Decidable c]
    (ha : FrOut w o a) (hb : FrOut w o b) : FrOut w o (if c then a else b) := by
  split
  · exact ha
  · exact hb

theorem fr_foldl {α : Type} {w : Part → Bool} {o s : State} {l : List α} {f : State → α → State}
    (hf : ∀ s x, Fr w o s → Fr w o (f s x)) (h : Fr w o s) : Fr w o (l.foldl f s) := by
  induction l generalizing s with
  | nil => exact h
  | cons x t ih => exact ih (hf s x h)

theorem fr_foldl_fst {α β : Type} {w : Part → Bool} {o : State} {p : State × β} {l : List α} {f : State × β → α → State × β}
    (hf : ∀ p x, Fr w o p.1 → Fr w o (f p x).1) (h : Fr w o p.1) : Fr w o (l.foldl f p).1 := by
  induction l generalizing p with
  | nil => exact h
  | cons x t ih => exact ih (hf p x h)

theorem fr_foldl_snd {α β : Type} {w : Part → Bool} {o : State} {p : β × State} {l : List α} {f : β × State → α → β × State}
    (hf : ∀ p x, Fr w o p.2 → Fr w o (f p x).2) (h : Fr w o p.2) : Fr w o (l.foldl f p).2 := by
  induction l generalizing p with
  | nil => exact h
  | cons x t ih => exact ih (hf p x h)

theorem fr_foldS {α : Type} {w : Part → Bool} {o s : State} {l : List α} {f : State → α → State}
    (hf : ∀ s x, Fr w o s → Fr w o (f s x)) (h : Fr w o s) : Fr w o (foldS l f s) := fr_foldl hf h

theorem fr_snd {α : Type} {w : Part → Bool} {o s : State} {p : α × State} {a : α} (e : p = (a, s)) (h : Fr w o p.2) : Fr w o s := by
  subst e; exact h

theorem fr_fst {α : Type} {w : Part → Bool} {o s : State} {p : State × α} {a : α} (e : p = (s, a)) (h : Fr w o p.1) : Fr w o s := by
  subst e; exact h

/-- A state that may be missing differs in no other part, if it is there. -/
def FrOpt (w : Part → Bool) (o : State) (p : Option State) : Prop := ∀ t, p = some t → Fr w o t

theorem fr_of_opt {w : Part → Bool} {o s : State} {p : Option State} (h : FrOpt w o p) (e : p = some s) : Fr w o s := h s e

theorem frOpt_none {w : Part → Bool} {o : State} : FrOpt w o none := fun _ e => nomatch e

theorem frOpt_some {w : Part → Bool} {o s : State} (h : Fr w o s) : FrOpt w o (some s) := by
  intro t e
  cases e
  exact h

theorem frOpt_ite {w : Part → Bool} {o : State} {a b : Option State} {c : Prop} [Decidable c] (ha : FrOpt w o a)
    (hb : FrOpt w o b) : FrOpt w o (if c then a else b) := by
  split
  · exact ha
  · exact hb

theorem frOpt_orElse {w : Part → Bool} {o : State} {a : Option State} {b : Unit → Option State} (ha : FrOpt w o a)
    (hb : FrOpt w o (b ())) : FrOpt w o (a.orElse b) := by
  cases a with
  | none => exact hb
  | some _ => exact ha

theorem fr_getD {w : Part → Bool} {o d : State} {a : Option State} (ha : FrOpt w o a) (hd : Fr w o d) : Fr w o (a.getD d) := by
  cases a with
  | none => exact hd
  | some t => exact ha t rfl

/-! ### Registers -/

/-- An update of the registers that leaves every window as it was that may not change. -/
theorem fr_regs {w : Part → Bool} {o s : State} {r : SMap Word} (h : Fr w o s)
    (hr : ∀ k off, w (.regs k) = false → off / 0x400000 = k → regW { s with regs := r } off = regW s off) :
    Fr w o { s with regs := r } := by
  refine Fr.trans h (fun p hp => ?_)
  cases p <;> first | rfl | exact ⟨rfl, rfl⟩ | exact fun off e => hr _ off hp e

/-- Every register may change. -/
theorem fr_anyRegs {w : Part → Bool} {o s : State} {r : SMap Word} (c : ∀ k, w (.regs k) = true) (h : Fr w o s) :
    Fr w o { s with regs := r } :=
  fr_regs h (fun k _ hk _ => absurd (c k) (by rw [hk]; exact Bool.false_ne_true))

theorem fr_setW {w : Part → Bool} {o s : State} {off k : Nat} {v : Word} (hk : off / 0x400000 = k) (c : w (.regs k) = true)
    (h : Fr w o s) : Fr w o (setW s off v) := by
  refine fr_regs h (fun j x hj hx => ?_)
  refine regW_setW_ne s v (fun e => ?_)
  rw [e, hk] at hx
  rw [← hx, c] at hj
  cases hj

theorem fr_setW_any {w : Part → Bool} {o s : State} {off : Nat} {v : Word} (c : ∀ k, w (.regs k) = true) (h : Fr w o s) :
    Fr w o (setW s off v) := fr_anyRegs c h

/-- The window that holds every copy of a field. -/
def fldWin (f : Fld) : Nat := f.base / 0x400000

/-- Every copy of a field lies in one window. -/
def fldIn (f : Fld) : Bool :=
  decide (f.base + f.s1 * (f.n1 - 1) + f.s2 * (f.n2 - 1) + 4 * (f.lo / 32) + 4 * fldWords f ≤ (fldWin f + 1) * 0x400000) &&
  decide (0 < f.n2)

theorem fldAddr_bounds {f : Fld} {i : Nat} (hf : fldIn f = true) (hi : i < fldCount f) :
    fldWin f * 0x400000 ≤ fldAddr f i ∧ fldAddr f i + 4 * fldWords f ≤ (fldWin f + 1) * 0x400000 := by
  simp only [fldIn, Bool.and_eq_true, decide_eq_true_eq] at hf
  obtain ⟨h1, h2⟩ := hf
  have h3 : i / f.n2 ≤ f.n1 - 1 := by
    have : i / f.n2 < f.n1 := (Nat.div_lt_iff_lt_mul h2).2 hi
    omega
  have h4 : i % f.n2 ≤ f.n2 - 1 := by
    have := Nat.mod_lt i h2
    omega
  have h5 := Nat.mul_le_mul_left f.s1 h3
  have h6 := Nat.mul_le_mul_left f.s2 h4
  have h7 : fldWin f * 0x400000 ≤ f.base := Nat.div_mul_le_self _ _
  unfold fldAddr
  omega

theorem fr_setF {w : Part → Bool} {o s : State} {f : Fld} {i v : Nat} (k : Nat) (hk : (fldIn f && fldWin f == k) = true)
    (c : w (.regs k) = true) (h : Fr w o s) : Fr w o (setF s f i v) := by
  obtain ⟨h1, h2⟩ : fldIn f = true ∧ fldWin f = k := by simpa using hk
  subst h2
  by_cases hi : i < fldCount f
  · obtain ⟨r, hr⟩ := setF_regs s f i v
    have hb := fldAddr_bounds h1 hi
    have key : ∀ j off, w (.regs j) = false → off / 0x400000 = j → regW (setF s f i v) off = regW s off := by
      intro j off hj e
      refine regW_setF_ne s f i v ?_
      have hne : j ≠ fldWin f := by
        intro e'
        rw [e', c] at hj
        cases hj
      have h5 : j * 0x400000 ≤ off := by rw [← e]; exact Nat.div_mul_le_self _ _
      have h6 : off < (j + 1) * 0x400000 := by rw [← e, Nat.add_mul, Nat.one_mul]; exact Nat.lt_div_mul_add (by decide)
      generalize fldWin f = q at *
      rcases Nat.lt_or_ge j q with hl | hl
      · have := Nat.mul_le_mul_right 0x400000 (show j + 1 ≤ q from hl)
        left; omega
      · have := Nat.mul_le_mul_right 0x400000 (show q + 1 ≤ j by omega)
        right; omega
    rw [hr] at key ⊢
    exact fr_regs h key
  · rw [setF_absent s f v hi]
    exact h

theorem fr_setF_any {w : Part → Bool} {o s : State} {f : Fld} {i v : Nat} (c : ∀ k, w (.regs k) = true) (h : Fr w o s) :
    Fr w o (setF s f i v) := by
  obtain ⟨r, hr⟩ := setF_regs s f i v
  rw [hr]
  exact fr_anyRegs c h

theorem fr_setB {w : Part → Bool} {o s : State} {f : Fld} {i : Nat} {b : Bool} (k : Nat)
    (hk : (fldIn f && fldWin f == k) = true) (c : w (.regs k) = true) (h : Fr w o s) : Fr w o (setB s f i b) := fr_setF k hk c h

theorem fr_setB_any {w : Part → Bool} {o s : State} {f : Fld} {i : Nat} {b : Bool} (c : ∀ k, w (.regs k) = true)
    (h : Fr w o s) : Fr w o (setB s f i b) := fr_setF_any c h

theorem fr_setS {w : Part → Bool} {o s : State} {f : Fld} {i : Nat} {v : Int} (k : Nat)
    (hk : (fldIn f && fldWin f == k) = true) (c : w (.regs k) = true) (h : Fr w o s) : Fr w o (setS s f i v) := fr_setF k hk c h

theorem fr_setS_any {w : Part → Bool} {o s : State} {f : Fld} {i : Nat} {v : Int} (c : ∀ k, w (.regs k) = true)
    (h : Fr w o s) : Fr w o (setS s f i v) := fr_setF_any c h

theorem fr_addF {w : Part → Bool} {o s : State} {f : Fld} {i n : Nat} (k : Nat)
    (hk : (fldIn f && fldWin f == k) = true) (c : w (.regs k) = true) (h : Fr w o s) : Fr w o (addF s f i n) := fr_setF k hk c h

theorem fr_addF_any {w : Part → Bool} {o s : State} {f : Fld} {i n : Nat} (c : ∀ k, w (.regs k) = true)
    (h : Fr w o s) : Fr w o (addF s f i n) := fr_setF_any c h

theorem fr_setRegsNat_any {w : Part → Bool} {o s : State} {off v n : Nat} (c : ∀ k, w (.regs k) = true) (h : Fr w o s) :
    Fr w o (setRegsNat s off v n) := by
  obtain ⟨r, hr⟩ := setRegsNat_regs s off v n
  rw [hr]
  exact fr_anyRegs c h

theorem SMap.get_filter_true {m : SMap Word} {p : Nat × Word → Bool} {k : Nat} {d : Word} (hp : ∀ v, p (k, v) = true) :
    SMap.get (m.filter p) k d = m.get k d := by
  induction m with
  | nil => rfl
  | cons e r ih =>
    obtain ⟨j, v⟩ := e
    rw [List.filter_cons]
    by_cases hj : j = k
    · subst hj
      rw [if_pos (hp v)]
      simp only [SMap.get, if_pos]
    · split
      · simp only [SMap.get, if_neg hj]
        exact ih
      · simp only [SMap.get, if_neg hj]
        exact ih

theorem fr_resetRegs {w : Part → Bool} {o s : State} {lo hi : Nat} (k : Nat)
    (hk : (decide (k * 0x400000 ≤ lo) && decide (hi ≤ (k + 1) * 0x400000)) = true) (c : w (.regs k) = true) (h : Fr w o s) :
    Fr w o (resetRegs s lo hi) := by
  simp only [Bool.and_eq_true, decide_eq_true_eq] at hk
  refine fr_regs h (fun j off hj e => ?_)
  have hne : j ≠ k := by
    intro e'
    rw [e', c] at hj
    cases hj
  have h5 : j * 0x400000 ≤ off := by rw [← e]; exact Nat.div_mul_le_self _ _
  have h6 : off < (j + 1) * 0x400000 := by rw [← e, Nat.add_mul, Nat.one_mul]; exact Nat.lt_div_mul_add (by decide)
  refine SMap.get_filter_true (fun v => ?_)
  simp only [Bool.or_eq_true, decide_eq_true_eq]
  rcases Nat.lt_or_ge j k with hl | hl
  · have := Nat.mul_le_mul_right 0x400000 (show j + 1 ≤ k from hl)
    left; omega
  · have := Nat.mul_le_mul_right 0x400000 (show k + 1 ≤ j by omega)
    right; omega

theorem fr_resetRegs_any {w : Part → Bool} {o s : State} {lo hi : Nat} (c : ∀ k, w (.regs k) = true) (h : Fr w o s) :
    Fr w o (resetRegs s lo hi) := fr_anyRegs c h

theorem regsNat_same {s t : State} {off k n : Nat} (h : (Part.regs k).same s t) (h1 : k * 0x400000 ≤ off)
    (h2 : off + 4 * n ≤ (k + 1) * 0x400000) : regsNat t off n = regsNat s off n := by
  induction n generalizing off with
  | zero => rfl
  | succ m ih =>
    have e : off / 0x400000 = k := by
      rw [Nat.div_eq_iff (by decide)]
      omega
    rw [regsNat, regsNat, h off e, ih (by omega) (by omega)]

/-- A field reads the same if its window is the same. -/
theorem getF_same {s t : State} {f : Fld} {i k : Nat} (hk : (fldIn f && fldWin f == k) = true) (h : (Part.regs k).same s t) :
    getF t f i = getF s f i := by
  obtain ⟨h1, h2⟩ : fldIn f = true ∧ fldWin f = k := by simpa using hk
  subst h2
  by_cases hi : i < fldCount f
  · have hb := fldAddr_bounds h1 hi
    rw [getF_eq _ _ hi, getF_eq _ _ hi, regsNat_same h hb.1 hb.2]
  · simp [getF, hi]

end Sys2Proof.Machine
end

