-- ==== Sys2Proof/Laws/FrameOps.lean ====
section
/-!
SUPPORT. What the operations of Machine/Ops.lean leave as it was.
-/

set_option Elab.async false

namespace Sys2Proof.Machine

theorem fr_addT {w : Part → Bool} {o s : State} {a1 : Nat} {a2 : optParam Nat 1} (c_bgLog : w .bgLog = true)
    (h : Fr w o s) :
    Fr w o (addT s a1 a2) := by
  rw [addT]
  repeat' with_reducible first | assumption | refine fr_mk rfl ?_

theorem fr_hostWrite {w : Part → Bool} {o s : State} {a1 : Nat} {a2 : List Byte} (c_host : w .host = true) (h : Fr w o s) :
    Fr w o (hostWrite s a1 a2) := by
  rw [hostWrite]
  repeat' with_reducible first | assumption | refine fr_mk rfl ?_

theorem fr_hostStores {w : Part → Bool} {o s : State} {a1 : List (Nat × List Byte)} (c_host : w .host = true)
    (h : Fr w o s) :
    Fr w o (hostStores s a1) := by
  rw [hostStores]
  repeat' with_reducible first
    | assumption | refine fr_hostWrite c_host ?_ | apply fr_foldl | apply fr_foldl_fst | apply fr_foldl_snd | intro _

theorem fr_emit {w : Part → Bool} {o s : State} {a1 : Emission} (c_wire : w .wire = true) (h : Fr w o s) :
    Fr w o (emit s a1) := by
  rw [emit]
  repeat' with_reducible first | assumption | refine fr_mk rfl ?_

theorem fr_setDomain {w : Part → Bool} {o s : State} {a1 : Nat} {a2 : Nat} (c_r2 : w (.regs 2) = true) (h : Fr w o s) :
    Fr w o (setDomain s a1 a2) := by
  rw [setDomain]
  repeat' with_reducible first | assumption | refine fr_setF 2 (by decide) c_r2 ?_

theorem fr_freshIndex {w : Part → Bool} {o s : State} (c_freeCtr : w .freeCtr = true) (h : Fr w o s) :
    Fr w o (freshIndex s).2 := by
  rw [freshIndex]
  repeat' with_reducible first | assumption | refine fr_mk rfl ?_

theorem fr_setTmrCopies {w : Part → Bool} {o s : State} {a1 : Nat} {a2 : Nat × Nat × Nat} (c_tmr : w .tmr = true)
    (h : Fr w o s) :
    Fr w o (setTmrCopies s a1 a2) := by
  rw [setTmrCopies]
  repeat' with_reducible first | assumption | refine fr_mk rfl ?_

end Sys2Proof.Machine
end

