-- ==== Sys2Proof/Laws/FrameFlags.lean ====
section
/-!
SUPPORT. What the operations of Machine/Flags.lean leave as it was.
-/

set_option Elab.async false

namespace Sys2Proof.Machine

theorem fr_setVec {w : Part → Bool} {o s : State} {a1 : Nat} {a2 : Vec} (c_hif : w .hif = true) (h : Fr w o s) :
    Fr w o (setVec s a1 a2) := by
  rw [setVec]
  repeat' with_reducible first | assumption | apply fr_ite | intro _ | (dsimp only; split) | refine fr_mk rfl ?_

theorem fr_requestPme {w : Part → Bool} {o s : State} (c_wire : w .wire = true) (c_hif : w .hif = true)
    (c_pins : w .pins = true) (h : Fr w o s) :
    Fr w o (requestPme s) := by
  rw [requestPme]
  repeat' with_reducible first
    | assumption | apply fr_ite | refine fr_emit c_wire ?_ | intro _ | (dsimp only; split) | refine fr_mk rfl ?_

theorem fr_exitL1 {w : Part → Bool} {o s : State} (c_r3 : w (.regs 3) = true) (h : Fr w o s) :
    Fr w o (exitL1 s) := by
  rw [exitL1]
  repeat' with_reducible first | assumption | refine fr_setF 3 (by decide) c_r3 ?_

theorem fr_sendVector {w : Part → Bool} {o s : State} {a1 : Nat} (c_wire : w .wire = true) (c_hif : w .hif = true)
    (c_pins : w .pins = true) (c_r3 : w (.regs 3) = true) (h : Fr w o s) :
    Fr w o (sendVector s a1) := by
  rw [sendVector]
  repeat' with_reducible first
    | assumption | apply fr_ite | refine fr_setVec c_hif ?_ | refine fr_emit c_wire ?_ | refine fr_exitL1 c_r3 ?_
    | refine fr_requestPme c_wire c_hif c_pins ?_ | intro _

theorem fr_fireVector {w : Part → Bool} {o s : State} {a1 : Nat} (c_wire : w .wire = true) (c_hif : w .hif = true)
    (c_pins : w .pins = true) (c_r3 : w (.regs 3) = true) (h : Fr w o s) :
    Fr w o (fireVector s a1) := by
  rw [fireVector]
  repeat' with_reducible first
    | assumption | refine fr_setF 3 (by decide) c_r3 ?_ | refine fr_sendVector c_wire c_hif c_pins c_r3 ?_
    | refine fr_setVec c_hif ?_

theorem fr_countVector {w : Part → Bool} {o s : State} {a1 : Nat} (c_wire : w .wire = true) (c_hif : w .hif = true)
    (c_pins : w .pins = true) (c_r3 : w (.regs 3) = true) (h : Fr w o s) :
    Fr w o (countVector s a1).1 := by
  rw [countVector]
  repeat' with_reducible first
    | assumption | apply fr_ite | apply fr_ite_fst | refine fr_setF 3 (by decide) c_r3 ?_
    | refine fr_fireVector c_wire c_hif c_pins c_r3 ?_ | refine fr_setVec c_hif ?_ | intro _

theorem fr_setSrc {w : Part → Bool} {o s : State} {a1 : Nat} {a2 : Src} (c_ev : w .ev = true) (h : Fr w o s) :
    Fr w o (setSrc s a1 a2) := by
  rw [setSrc]
  repeat' with_reducible first | assumption | refine fr_mk rfl ?_

theorem fr_senseSource {w : Part → Bool} {o s : State} {a1 : Nat} {a2 : Nat} {a3 : Nat} (c_ev : w .ev = true)
    (c_r4 : w (.regs 4) = true) (h : Fr w o s) :
    Fr w o (senseSource s a1 a2 a3) := by
  rw [senseSource]
  repeat' with_reducible first
    | assumption | apply fr_ite | refine fr_setF 4 (by decide) c_r4 ?_ | refine fr_setSrc c_ev ?_ | intro _

theorem fr_logOccurrence {w : Part → Bool} {o s : State} {a1 : Nat} {a2 : Nat} {a3 : Nat} (c_ev : w .ev = true)
    (c_bgLog : w .bgLog = true) (h : Fr w o s) :
    Fr w o (logOccurrence s a1 a2 a3) := by
  rw [logOccurrence]
  repeat' with_reducible first | assumption | apply fr_ite | intro _ | (dsimp only; split) | refine fr_mk rfl ?_

theorem fr_occur {w : Part → Bool} {o s : State} {a1 : Nat} {a2 : Nat} {a3 : Nat} {a4 : Edge} (c_ev : w .ev = true)
    (c_bgLog : w .bgLog = true) (c_r4 : w (.regs 4) = true) (h : Fr w o s) :
    Fr w o (occur s a1 a2 a3 a4) := by
  rw [occur]
  repeat' with_reducible first
    | assumption | apply fr_ite | refine fr_senseSource c_ev c_r4 ?_ | refine fr_logOccurrence c_ev c_bgLog ?_ | intro _

theorem fr_raiseEv {w : Part → Bool} {o s : State} {a1 : Nat} {a2 : optParam Nat 0} {a3 : optParam Nat 0}
    (c_ev : w .ev = true) (c_bgLog : w .bgLog = true) (c_r4 : w (.regs 4) = true) (h : Fr w o s) :
    Fr w o (raiseEv s a1 a2 a3) := by
  rw [raiseEv]
  repeat' with_reducible first | assumption | refine fr_occur c_ev c_bgLog c_r4 ?_

theorem fr_setSticky {w : Part → Bool} {o s : State} {a1 : Nat} {a2 : Bool} (c_r4 : w (.regs 4) = true) (h : Fr w o s) :
    Fr w o (setSticky s a1 a2) := by
  rw [setSticky]
  repeat' with_reducible first | assumption | refine fr_setF 4 (by decide) c_r4 ?_

theorem fr_setLevel {w : Part → Bool} {o s : State} {a1 : Nat} {a2 : Bool} (c_ev : w .ev = true) (h : Fr w o s) :
    Fr w o (setLevel s a1 a2) := by
  rw [setLevel]
  repeat' with_reducible first | assumption | refine fr_mk rfl ?_

theorem fr_faultRecord {w : Part → Bool} {o s : State} {a1 : Nat} {a2 : Nat} {a3 : Nat} (c_ev : w .ev = true)
    (c_bgLog : w .bgLog = true) (c_r4 : w (.regs 4) = true) (h : Fr w o s) :
    Fr w o (faultRecord s a1 a2 a3) := by
  rw [faultRecord]
  repeat' with_reducible first
    | assumption | apply fr_ite | refine fr_setSticky c_r4 ?_ | refine fr_occur c_ev c_bgLog c_r4 ?_
    | refine fr_setLevel c_ev ?_ | intro _

theorem fr_causeEnds {w : Part → Bool} {o s : State} {a1 : Nat} (c_ev : w .ev = true) (c_bgLog : w .bgLog = true)
    (c_r4 : w (.regs 4) = true) (h : Fr w o s) :
    Fr w o (causeEnds s a1) := by
  rw [causeEnds]
  repeat' with_reducible first
    | assumption | apply fr_ite | refine fr_occur c_ev c_bgLog c_r4 ?_ | refine fr_setLevel c_ev ?_ | intro _

theorem fr_raiseCe {w : Part → Bool} {o s : State} {a1 : Nat} {a2 : optParam Nat 0} {a3 : optParam Nat 0}
    (c_ev : w .ev = true) (c_bgLog : w .bgLog = true) (c_r4 : w (.regs 4) = true) (h : Fr w o s) :
    Fr w o (raiseCe s a1 a2 a3) := by
  rw [raiseCe]
  repeat' with_reducible first
    | assumption | refine fr_addF 4 (by decide) c_r4 ?_ | refine fr_faultRecord c_ev c_bgLog c_r4 ?_

theorem fr_pushEvq {w : Part → Bool} {o s : State} {a1 : EvRec} (c_ev : w .ev = true) (c_bgLog : w .bgLog = true)
    (c_r4 : w (.regs 4) = true) (h : Fr w o s) :
    Fr w o (pushEvq s a1) := by
  rw [pushEvq]
  repeat' with_reducible first
    | assumption | apply fr_ite | refine fr_raiseEv c_ev c_bgLog c_r4 ?_ | intro _ | (dsimp only; split)
    | refine fr_mk rfl ?_

theorem fr_deliverSource {w : Part → Bool} {o s : State} {a1 : Nat} (c_wire : w .wire = true) (c_hif : w .hif = true)
    (c_ev : w .ev = true) (c_bgLog : w .bgLog = true) (c_pins : w .pins = true) (c_r3 : w (.regs 3) = true)
    (c_r4 : w (.regs 4) = true) (h : Fr w o s) :
    Fr w o (deliverSource s a1) := by
  rw [deliverSource]
  repeat' with_reducible first
    | assumption | apply fr_ite | apply fr_ite_fst | refine fr_setF 4 (by decide) c_r4 ?_
    | refine fr_pushEvq c_ev c_bgLog c_r4 ?_ | refine fr_countVector c_wire c_hif c_pins c_r3 ?_
    | refine fr_fireVector c_wire c_hif c_pins c_r3 ?_ | intro _

theorem fr_writeTmr {w : Part → Bool} {o s : State} {a1 : Nat} {a2 : Nat} (c_ev : w .ev = true) (c_tmr : w .tmr = true)
    (c_bgLog : w .bgLog = true) (c_r4 : w (.regs 4) = true) (c_r5 : w (.regs 5) = true) (h : Fr w o s) :
    Fr w o (writeTmr s a1 a2) := by
  rw [writeTmr]
  repeat' with_reducible first
    | assumption | apply fr_ite | refine fr_setB 5 (by decide) c_r5 ?_ | refine fr_setTmrCopies c_tmr ?_
    | refine fr_raiseEv c_ev c_bgLog c_r4 ?_ | intro _

theorem fr_writeWakeRecord {w : Part → Bool} {o s : State} {a1 : Nat} {a2 : Nat} {a3 : Nat} (c_ev : w .ev = true)
    (c_tmr : w .tmr = true) (c_bgLog : w .bgLog = true) (c_r2 : w (.regs 2) = true) (c_r4 : w (.regs 4) = true)
    (c_r5 : w (.regs 5) = true) (h : Fr w o s) :
    Fr w o (writeWakeRecord s a1 a2 a3) := by
  rw [writeWakeRecord]
  repeat' with_reducible first
    | assumption | refine fr_setF 2 (by decide) c_r2 ?_ | refine fr_writeTmr c_ev c_tmr c_bgLog c_r4 c_r5 ?_

theorem fr_shallowToRun {w : Part → Bool} {o s : State} (c_r1 : w (.regs 1) = true) (c_r2 : w (.regs 2) = true)
    (h : Fr w o s) :
    Fr w o (shallowToRun s) := by
  rw [shallowToRun]
  repeat' with_reducible first
    | assumption | apply fr_ite | refine fr_setF 1 (by decide) c_r1 ?_ | refine fr_setF 2 (by decide) c_r2 ?_
    | refine fr_setDomain c_r2 ?_ | apply fr_foldS | intro _

theorem fr_wakeShallow {w : Part → Bool} {o s : State} {a1 : Nat} (c_ev : w .ev = true) (c_tmr : w .tmr = true)
    (c_bgLog : w .bgLog = true) (c_r1 : w (.regs 1) = true) (c_r2 : w (.regs 2) = true) (c_r4 : w (.regs 4) = true)
    (c_r5 : w (.regs 5) = true) (h : Fr w o s) :
    Fr w o (wakeShallow s a1) := by
  rw [wakeShallow]
  repeat' with_reducible first
    | assumption | refine fr_raiseEv c_ev c_bgLog c_r4 ?_ | refine fr_shallowToRun c_r1 c_r2 ?_
    | refine fr_writeWakeRecord c_ev c_tmr c_bgLog c_r2 c_r4 c_r5 ?_

theorem fr_abortEntry {w : Part → Bool} {o s : State} {a1 : Nat} (c_ev : w .ev = true) (c_pwr : w .pwr = true)
    (c_tmr : w .tmr = true) (c_bgLog : w .bgLog = true) (c_r2 : w (.regs 2) = true) (c_r4 : w (.regs 4) = true)
    (c_r5 : w (.regs 5) = true) (h : Fr w o s) :
    Fr w o (abortEntry s a1) := by
  rw [abortEntry.eq_def]
  repeat' with_reducible first
    | assumption | refine fr_setF 2 (by decide) c_r2 ?_ | refine fr_writeWakeRecord c_ev c_tmr c_bgLog c_r2 c_r4 c_r5 ?_
    | refine fr_raiseEv c_ev c_bgLog c_r4 ?_ | (dsimp only; split) | refine fr_mk rfl ?_

theorem fr_wakeLight {w : Part → Bool} {o s : State} {a1 : Nat} (c_ev : w .ev = true) (c_pwr : w .pwr = true)
    (c_tmr : w .tmr = true) (c_bgLog : w .bgLog = true) (c_r1 : w (.regs 1) = true) (c_r2 : w (.regs 2) = true)
    (c_r4 : w (.regs 4) = true) (c_r5 : w (.regs 5) = true) (h : Fr w o s) :
    Fr w o (wakeLight s a1) := by
  rw [wakeLight]
  repeat' with_reducible first
    | assumption | apply fr_ite | refine fr_abortEntry c_ev c_pwr c_tmr c_bgLog c_r2 c_r4 c_r5 ?_
    | refine fr_shallowToRun c_r1 c_r2 ?_ | refine fr_wakeShallow c_ev c_tmr c_bgLog c_r1 c_r2 c_r4 c_r5 ?_ | intro _

theorem fr_wakeDomains {w : Part → Bool} {o s : State} {a1 : List Nat} (c_r2 : w (.regs 2) = true) (h : Fr w o s) :
    Fr w o (wakeDomains s a1) := by
  rw [wakeDomains]
  repeat' with_reducible first
    | assumption | apply fr_ite | refine fr_setDomain c_r2 ?_ | apply fr_foldS | intro _

end Sys2Proof.Machine
end

