-- ==== Sys2Proof/Laws/FrameRings.lean ====
section
/-!
SUPPORT. What the operations of Machine/Rings.lean leave as it was.
-/

set_option Elab.async false

namespace Sys2Proof.Machine

theorem fr_setSq {w : Part → Bool} {o s : State} {a1 : Nat} {a2 : SqRing} (c_hif : w .hif = true) (h : Fr w o s) :
    Fr w o (setSq s a1 a2) := by
  rw [setSq]
  repeat' with_reducible first | assumption | apply fr_ite | intro _ | (dsimp only; split) | refine fr_mk rfl ?_

theorem fr_setCq {w : Part → Bool} {o s : State} {a1 : Nat} {a2 : CqRing} (c_hif : w .hif = true) (h : Fr w o s) :
    Fr w o (setCq s a1 a2) := by
  rw [setCq]
  repeat' with_reducible first | assumption | apply fr_ite | intro _ | (dsimp only; split) | refine fr_mk rfl ?_

theorem fr_setSqState {w : Part → Bool} {o s : State} {a1 : Nat} {a2 : Nat} (c_r3 : w (.regs 3) = true) (h : Fr w o s) :
    Fr w o (setSqState s a1 a2) := by
  rw [setSqState]
  repeat' with_reducible first | assumption | refine fr_setF 3 (by decide) c_r3 ?_

theorem fr_writeSqHead {w : Part → Bool} {o s : State} {a1 : Nat} (c_host : w .host = true) (h : Fr w o s) :
    Fr w o (writeSqHead s a1) := by
  rw [writeSqHead]
  repeat' with_reducible first | assumption | refine fr_hostWrite c_host ?_

theorem fr_writeNeedsKick {w : Part → Bool} {o s : State} {a1 : Nat} {a2 : Bool} (c_host : w .host = true) (h : Fr w o s) :
    Fr w o (writeNeedsKick s a1 a2) := by
  rw [writeNeedsKick]
  repeat' with_reducible first | assumption | refine fr_hostWrite c_host ?_

theorem fr_writeCqTail {w : Part → Bool} {o s : State} {a1 : Nat} (c_host : w .host = true) (h : Fr w o s) :
    Fr w o (writeCqTail s a1) := by
  rw [writeCqTail]
  repeat' with_reducible first | assumption | refine fr_hostWrite c_host ?_

theorem fr_idleArmedCheck {w : Part → Bool} {o s : State} {a1 : Nat} (c_wire : w .wire = true) (c_hif : w .hif = true)
    (c_pins : w .pins = true) (c_r3 : w (.regs 3) = true) (h : Fr w o s) :
    Fr w o (idleArmedCheck s a1) := by
  rw [idleArmedCheck]
  repeat' with_reducible first
    | assumption | apply fr_ite | refine fr_fireVector c_wire c_hif c_pins c_r3 ?_ | intro _

theorem fr_writeCompletion {w : Part → Bool} {o s : State} {a1 : Nat} {a2 : Completion} (c_wire : w .wire = true)
    (c_host : w .host = true) (c_hif : w .hif = true) (c_pins : w .pins = true) (c_r3 : w (.regs 3) = true) (h : Fr w o s) :
    Fr w o (writeCompletion s a1 a2) := by
  rw [writeCompletion]
  repeat' with_reducible first
    | assumption | apply fr_ite | apply fr_ite_fst | apply fr_ite_snd | refine fr_hostWrite c_host ?_
    | refine fr_exitL1 c_r3 ?_ | refine fr_setCq c_hif ?_ | refine fr_writeCqTail c_host ?_
    | refine fr_idleArmedCheck c_wire c_hif c_pins c_r3 ?_ | refine fr_countVector c_wire c_hif c_pins c_r3 ?_ | intro _

theorem fr_holdCompletion {w : Part → Bool} {o s : State} {a1 : Nat} {a2 : Completion} (c_hif : w .hif = true)
    (h : Fr w o s) :
    Fr w o (holdCompletion s a1 a2) := by
  rw [holdCompletion]
  repeat' with_reducible first | assumption | apply fr_ite | refine fr_setCq c_hif ?_ | intro _

theorem fr_noteFull {w : Part → Bool} {o s : State} {a1 : Nat} (c_hif : w .hif = true) (c_ev : w .ev = true)
    (c_bgLog : w .bgLog = true) (c_r4 : w (.regs 4) = true) (h : Fr w o s) :
    Fr w o (noteFull s a1) := by
  rw [noteFull]
  repeat' with_reducible first
    | assumption | apply fr_ite | refine fr_raiseEv c_ev c_bgLog c_r4 ?_ | refine fr_setCq c_hif ?_ | intro _

theorem fr_postCompletion {w : Part → Bool} {o s : State} {a1 : Completion} (c_wire : w .wire = true)
    (c_host : w .host = true) (c_hif : w .hif = true) (c_ev : w .ev = true) (c_bgLog : w .bgLog = true)
    (c_pins : w .pins = true) (c_r3 : w (.regs 3) = true) (c_r4 : w (.regs 4) = true) (h : Fr w o s) :
    Fr w o (postCompletion s a1) := by
  rw [postCompletion]
  repeat' with_reducible first
    | assumption | apply fr_ite | refine fr_holdCompletion c_hif ?_ | refine fr_requestPme c_wire c_hif c_pins ?_
    | refine fr_noteFull c_hif c_ev c_bgLog c_r4 ?_ | refine fr_writeCompletion c_wire c_host c_hif c_pins c_r3 ?_ | intro _

theorem fr_dropCmd {w : Part → Bool} {o s : State} {a1 : Nat} (c_hif : w .hif = true) (h : Fr w o s) :
    Fr w o (dropCmd s a1) := by
  rw [dropCmd]
  repeat' with_reducible first | assumption | apply fr_ite | intro _ | (dsimp only; split) | refine fr_mk rfl ?_

theorem fr_putCmd {w : Part → Bool} {o s : State} {a1 : Cmd} (c_hif : w .hif = true) (h : Fr w o s) :
    Fr w o (putCmd s a1) := by
  rw [putCmd]
  repeat' with_reducible first | assumption | apply fr_ite | intro _ | (dsimp only; split) | refine fr_mk rfl ?_

theorem fr_takeChannel {w : Part → Bool} {o s : State} {a1 : Nat} (c_r3 : w (.regs 3) = true) (h : Fr w o s) :
    ∀ a t, takeChannel s a1 = some (a, t) → Fr w o t := by
  intro a t e
  rw [takeChannel] at e
  split at e
  · cases e
  · cases e
    exact fr_setF 3 (by decide) c_r3 h

theorem fr_releaseChannel {w : Part → Bool} {o s : State} {a1 : Nat} (c_r3 : w (.regs 3) = true) (h : Fr w o s) :
    Fr w o (releaseChannel s a1) := by
  rw [releaseChannel]
  repeat' with_reducible first
    | assumption | apply fr_ite | refine fr_setF 3 (by decide) c_r3 ?_ | apply fr_foldS | intro _

theorem fr_releaseDose {w : Part → Bool} {o s : State} (c_r3 : w (.regs 3) = true) (h : Fr w o s) :
    Fr w o (releaseDose s) := by
  rw [releaseDose.eq_def]
  repeat' with_reducible first | assumption | refine fr_setF 3 (by decide) c_r3 ?_ | split

theorem fr_takeDose {w : Part → Bool} {o s : State} (c_r3 : w (.regs 3) = true) (h : Fr w o s) : Fr w o (takeDose s) := by
  rw [takeDose]
  split
  · cases e : takeChannel s ownerDose with
    | none => exact h
    | some r => exact fr_takeChannel c_r3 h r.1 r.2 e
  · exact h

theorem fr_complete {w : Part → Bool} {o s : State} {a1 : Cmd} {a2 : Nat} {a3 : optParam Nat 0} {a4 : optParam Nat 0}
    (c_wire : w .wire = true) (c_host : w .host = true) (c_hif : w .hif = true) (c_ev : w .ev = true)
    (c_bgLog : w .bgLog = true) (c_pins : w .pins = true) (c_r3 : w (.regs 3) = true) (c_r4 : w (.regs 4) = true)
    (h : Fr w o s) :
    Fr w o (complete s a1 a2 a3 a4) := by
  rw [complete.eq_def]
  repeat' with_reducible first
    | assumption | apply fr_ite | refine fr_dropCmd c_hif ?_ | refine fr_releaseDose c_r3 ?_
    | refine fr_postCompletion c_wire c_host c_hif c_ev c_bgLog c_pins c_r3 c_r4 ?_ | intro _ | split

theorem fr_completeId {w : Part → Bool} {o s : State} {a1 : Nat} {a2 : Nat} {a3 : optParam Nat 0} {a4 : optParam Nat 0}
    (c_wire : w .wire = true) (c_host : w .host = true) (c_hif : w .hif = true) (c_ev : w .ev = true)
    (c_bgLog : w .bgLog = true) (c_pins : w .pins = true) (c_r3 : w (.regs 3) = true) (c_r4 : w (.regs 4) = true)
    (h : Fr w o s) :
    Fr w o (completeId s a1 a2 a3 a4) := by
  rw [completeId.eq_def]
  repeat' with_reducible first
    | assumption | refine fr_complete c_wire c_host c_hif c_ev c_bgLog c_pins c_r3 c_r4 ?_ | split

theorem fr_completeFetched {w : Part → Bool} {o s : State} {a1 : Nat} {a2 : Fetched} {a3 : Nat} (c_wire : w .wire = true)
    (c_host : w .host = true) (c_hif : w .hif = true) (c_ev : w .ev = true) (c_bgLog : w .bgLog = true)
    (c_pins : w .pins = true) (c_r3 : w (.regs 3) = true) (c_r4 : w (.regs 4) = true) (h : Fr w o s) :
    Fr w o (completeFetched s a1 a2 a3) := by
  rw [completeFetched]
  repeat' with_reducible first
    | assumption | refine fr_postCompletion c_wire c_host c_hif c_ev c_bgLog c_pins c_r3 c_r4 ?_

theorem fr_ringError {w : Part → Bool} {o s : State} {a1 : Nat} (c_ev : w .ev = true) (c_bgLog : w .bgLog = true)
    (c_r3 : w (.regs 3) = true) (c_r4 : w (.regs 4) = true) (h : Fr w o s) :
    Fr w o (ringError s a1) := by
  rw [ringError]
  repeat' with_reducible first
    | assumption | refine fr_raiseEv c_ev c_bgLog c_r4 ?_ | refine fr_setSqState c_r3 ?_

theorem fr_drainInvalid {w : Part → Bool} {o s : State} {a1 : Nat} {a2 : Nat} (c_wire : w .wire = true)
    (c_host : w .host = true) (c_hif : w .hif = true) (c_ev : w .ev = true) (c_bgLog : w .bgLog = true)
    (c_pins : w .pins = true) (c_r3 : w (.regs 3) = true) (c_r4 : w (.regs 4) = true) (h : Fr w o s) :
    Fr w o (drainInvalid s a1 a2) := by
  induction a2 generalizing s a1 with
  | zero => exact h
  | succ k ih =>
    rw [drainInvalid]
    repeat' with_reducible first
      | assumption | apply fr_ite | apply ih | refine fr_completeFetched c_wire c_host c_hif c_ev c_bgLog c_pins c_r3 c_r4 ?_
      | refine fr_setSq c_hif ?_ | intro _ | split

theorem fr_fetchEntries {w : Part → Bool} {o s : State} {a1 : Nat} {a2 : Nat} (c_hif : w .hif = true) (c_ev : w .ev = true)
    (c_bgLog : w .bgLog = true) (c_r3 : w (.regs 3) = true) (c_r4 : w (.regs 4) = true) (h : Fr w o s) :
    Fr w o (fetchEntries s a1 a2) := by
  induction a2 generalizing s a1 with
  | zero => exact h
  | succ k ih =>
    rw [fetchEntries]
    repeat' with_reducible first
      | assumption | apply fr_ite | apply ih | refine fr_setSq c_hif ?_ | refine fr_ringError c_ev c_bgLog c_r3 c_r4 ?_
      | intro _

theorem fr_pollRing {w : Part → Bool} {o s : State} {a1 : Nat} {a2 : Bool} (c_wire : w .wire = true)
    (c_host : w .host = true) (c_hif : w .hif = true) (c_ev : w .ev = true) (c_bgLog : w .bgLog = true)
    (c_pins : w .pins = true) (c_r3 : w (.regs 3) = true) (c_r4 : w (.regs 4) = true) (h : Fr w o s) :
    Fr w o (pollRing s a1 a2) := by
  rw [pollRing]
  repeat' with_reducible first
    | assumption | apply fr_ite | refine fr_setSq c_hif ?_ | refine fr_ringError c_ev c_bgLog c_r3 c_r4 ?_
    | refine fr_fetchEntries c_hif c_ev c_bgLog c_r3 c_r4 ?_
    | refine fr_drainInvalid c_wire c_host c_hif c_ev c_bgLog c_pins c_r3 c_r4 ?_ | refine fr_writeSqHead c_host ?_
    | intro _

theorem fr_beginWake {w : Part → Bool} {o s : State} {a1 : Nat} (c_ev : w .ev = true) (c_tmr : w .tmr = true)
    (c_bgLog : w .bgLog = true) (c_r1 : w (.regs 1) = true) (c_r2 : w (.regs 2) = true) (c_r4 : w (.regs 4) = true)
    (c_r5 : w (.regs 5) = true) (h : Fr w o s) :
    Fr w o (beginWake s a1) := by
  rw [beginWake]
  repeat' with_reducible first
    | assumption | apply fr_ite | refine fr_wakeShallow c_ev c_tmr c_bgLog c_r1 c_r2 c_r4 c_r5 ?_ | intro _

theorem fr_addCmd {w : Part → Bool} {o s : State} {a1 : Nat} {a2 : Fetched} {a3 : Nat} {a4 : Nat} {a5 : Option (Nat × Nat)}
    {a6 : Bool} (c_hif : w .hif = true) (h : Fr w o s) :
    Fr w o (addCmd s a1 a2 a3 a4 a5 a6).2 := by
  rw [addCmd]
  repeat' with_reducible first
    | assumption | apply fr_ite | apply fr_ite_snd | intro _ | (dsimp only; split) | refine fr_mk rfl ?_

theorem fr_markPast {w : Part → Bool} {o s : State} {a1 : Cmd} (c_hif : w .hif = true) (h : Fr w o s) :
    Fr w o (markPast s a1) := by
  rw [markPast]
  repeat' with_reducible first | assumption | refine fr_putCmd c_hif ?_

theorem fr_deferCmd {w : Part → Bool} {o s : State} {a1 : Cmd} {a2 : List Byte} (c_select : w .select = true)
    (h : Fr w o s) :
    Fr w o (deferCmd s a1 a2) := by
  rw [deferCmd.eq_def]
  repeat' with_reducible first | assumption | (dsimp only; split) | refine fr_mk rfl ?_

theorem fr_ringRow {w : Part → Bool} {o s : State} {a0 : Nat} {a1 : List Byte → Bool} {a2 : State → List Byte → Begin}
    {a3 : State → Cmd → List Byte → State} {a4 : Nat} (c_wire : w .wire = true) (c_host : w .host = true) (c_hif : w .hif = true) (c_ev : w .ev = true) (c_tmr : w .tmr = true) (c_bgLog : w .bgLog = true) (c_select : w .select = true) (c_pins : w .pins = true) (c_r1 : w (.regs 1) = true) (c_r2 : w (.regs 2) = true) (c_r3 : w (.regs 3) = true) (c_r4 : w (.regs 4) = true) (c_r5 : w (.regs 5) = true)
    (hr : ∀ s c d, Fr w o s → Fr w o (a3 s c d)) (h : Fr w o s) :
    Fr w o (ringRow a0 a1 a2 a3 a4 s) := by
  rw [ringRow]
  repeat' with_reducible first
    | assumption | apply fr_ite | apply hr
    | refine fr_drainInvalid c_wire c_host c_hif c_ev c_bgLog c_pins c_r3 c_r4 ?_
    | refine fr_completeFetched c_wire c_host c_hif c_ev c_bgLog c_pins c_r3 c_r4 ?_
    | refine fr_setSq c_hif ?_
    | refine fr_beginWake c_ev c_tmr c_bgLog c_r1 c_r2 c_r4 c_r5 ?_
    | refine fr_wakeDomains c_r2 ?_
    | refine fr_addCmd c_hif ?_
    | refine fr_deferCmd c_select ?_
    | refine fr_complete c_wire c_host c_hif c_ev c_bgLog c_pins c_r3 c_r4 ?_
    | refine fr_markPast c_hif ?_
    | intro _ | split | (dsimp only; split)

theorem fr_finishStop {w : Part → Bool} {o s : State} {a1 : Nat} (c_hif : w .hif = true) (c_r3 : w (.regs 3) = true)
    (h : Fr w o s) :
    Fr w o (finishStop s a1) := by
  rw [finishStop]
  repeat' with_reducible first
    | assumption | apply fr_ite | refine fr_setF 3 (by decide) c_r3 ?_ | refine fr_releaseChannel c_r3 ?_
    | refine fr_setSqState c_r3 ?_ | refine fr_setSq c_hif ?_ | intro _

end Sys2Proof.Machine
end

