-- ==== Sys2Proof/Laws/FrameTmOps.lean ====
section
/-!
SUPPORT. What the operations of Machine/TmOps.lean leave as it was.
-/

set_option Elab.async false

namespace Sys2Proof.Machine

theorem fr_setPort {w : Part → Bool} {o s : State} {a1 : Nat} {a2 : Port} (c_ports : w .ports = true) (h : Fr w o s) :
    Fr w o (setPort s a1 a2) := by
  rw [setPort]
  repeat' with_reducible first | assumption | refine fr_mk rfl ?_

theorem fr_bufferFrame {w : Part → Bool} {o s : State} {a1 : Nat} {a2 : Nat} {a3 : Nat} {a4 : Nat} {a5 : Nat}
    (c_sw : w .sw = true) (h : Fr w o s) :
    ∀ a t, bufferFrame s a1 a2 a3 a4 a5 = some (a, t) → Fr w o t := by
  intro a t e
  rw [bufferFrame] at e
  repeat' first | (cases e; done) | split at e | (dsimp only at e; split at e)
  all_goals cases e
  repeat' with_reducible first
    | assumption | apply fr_ite | apply fr_ite_fst | apply fr_ite_snd | intro _ | (dsimp only; split) | refine fr_mk rfl ?_

theorem fr_poolEmpty {w : Part → Bool} {o s : State} (c_ev : w .ev = true) (c_bgLog : w .bgLog = true)
    (c_r4 : w (.regs 4) = true) (c_r11 : w (.regs 11) = true) (h : Fr w o s) :
    Fr w o (poolEmpty s) := by
  rw [poolEmpty]
  repeat' with_reducible first
    | assumption | refine fr_addF 11 (by decide) c_r11 ?_ | refine fr_raiseEv c_ev c_bgLog c_r4 ?_
    | refine fr_addT c_bgLog ?_

theorem fr_pfcOne {w : Part → Bool} {o s : State} {a1 : Nat} {a2 : Nat} {a3 : Nat} {a4 : Nat} (c_wire : w .wire = true)
    (c_ports : w .ports = true) (h : Fr w o s) :
    Fr w o (pfcOne s a1 a2 a3 a4) := by
  rw [pfcOne]
  repeat' with_reducible first
    | assumption | apply fr_ite | refine fr_emit c_wire ?_ | refine fr_setPort c_ports ?_ | intro _

theorem fr_pfcCheck {w : Part → Bool} {o s : State} {a1 : Nat} (c_wire : w .wire = true) (c_ports : w .ports = true)
    (h : Fr w o s) :
    Fr w o (pfcCheck s a1) := by
  rw [pfcCheck]
  repeat' with_reducible first
    | assumption | apply fr_ite | refine fr_pfcOne c_wire c_ports ?_ | apply fr_foldS | intro _

theorem fr_releaseFrame {w : Part → Bool} {o s : State} {a1 : Nat} {a2 : Nat} {a3 : QFrame} (c_wire : w .wire = true)
    (c_ports : w .ports = true) (c_sw : w .sw = true) (c_r11 : w (.regs 11) = true) (h : Fr w o s) :
    Fr w o (releaseFrame s a1 a2 a3) := by
  rw [releaseFrame]
  repeat' with_reducible first
    | assumption | apply fr_ite | refine fr_setF 11 (by decide) c_r11 ?_ | refine fr_pfcCheck c_wire c_ports ?_
    | apply fr_foldl | apply fr_foldl_fst | apply fr_foldl_snd | intro _ | (dsimp only; split) | refine fr_mk rfl ?_

theorem fr_setQueue {w : Part → Bool} {o s : State} {a1 : Nat} {a2 : Nat} {a3 : List QFrame} (c_tm : w .tm = true)
    (h : Fr w o s) :
    Fr w o (setQueue s a1 a2 a3) := by
  rw [setQueue]
  repeat' with_reducible first | assumption | refine fr_mk rfl ?_

theorem fr_headArrives {w : Part → Bool} {o s : State} {a1 : Nat} {a2 : Nat} (c_tm : w .tm = true) (h : Fr w o s) :
    Fr w o (headArrives s a1 a2) := by
  rw [headArrives.eq_def]
  repeat' with_reducible first | assumption | (dsimp only; split) | refine fr_mk rfl ?_

theorem fr_pushFrame {w : Part → Bool} {o s : State} {a1 : Nat} {a2 : Nat} {a3 : QFrame} (c_sw : w .sw = true)
    (c_tm : w .tm = true) (c_r11 : w (.regs 11) = true) (h : Fr w o s) :
    Fr w o (pushFrame s a1 a2 a3) := by
  rw [pushFrame]
  repeat' with_reducible first
    | assumption | apply fr_ite | refine fr_setF 11 (by decide) c_r11 ?_ | refine fr_setQueue c_tm ?_
    | refine fr_headArrives c_tm ?_ | intro _ | (dsimp only; split) | refine fr_mk rfl ?_

theorem fr_popFrame {w : Part → Bool} {o s : State} {a1 : Nat} {a2 : Nat} (c_wire : w .wire = true)
    (c_ports : w .ports = true) (c_sw : w .sw = true) (c_tm : w .tm = true) (c_r11 : w (.regs 11) = true) (h : Fr w o s) :
    Fr w o (popFrame s a1 a2) := by
  rw [popFrame.eq_def]
  repeat' with_reducible first
    | assumption | refine fr_headArrives c_tm ?_ | refine fr_setQueue c_tm ?_
    | refine fr_releaseFrame c_wire c_ports c_sw c_r11 ?_ | split

theorem fr_countFlushed {w : Part → Bool} {o s : State} {a1 : Nat} {a2 : Nat} (c_bgLog : w .bgLog = true)
    (c_r10 : w (.regs 10) = true) (h : Fr w o s) :
    Fr w o (countFlushed s a1 a2) := by
  rw [countFlushed]
  repeat' with_reducible first
    | assumption | apply fr_ite | refine fr_addF 10 (by decide) c_r10 ?_ | refine fr_addT c_bgLog ?_ | intro _

theorem fr_mirrorDropped {w : Part → Bool} {o s : State} (c_bgLog : w .bgLog = true) (c_r11 : w (.regs 11) = true)
    (h : Fr w o s) :
    Fr w o (mirrorDropped s) := by
  rw [mirrorDropped]
  repeat' with_reducible first
    | assumption | refine fr_addF 11 (by decide) c_r11 ?_ | refine fr_addT c_bgLog ?_

theorem fr_mirrorCopy {w : Part → Bool} {o s : State} {a1 : Nat} {a2 : Nat} {a3 : List Byte} {a4 : Bool}
    (c_sw : w .sw = true) (c_tm : w .tm = true) (c_bgLog : w .bgLog = true) (c_r11 : w (.regs 11) = true) (h : Fr w o s) :
    Fr w o (mirrorCopy s a1 a2 a3 a4) := by
  rw [mirrorCopy]
  repeat' with_reducible first
    | assumption | apply fr_ite | refine fr_mirrorDropped c_bgLog c_r11 ?_
    | refine fr_bufferFrame c_sw ?_ _ _ (by assumption) | refine fr_pushFrame c_sw c_tm c_r11 ?_
    | refine fr_snd (by assumption) ?_ | refine fr_fst (by assumption) ?_ | intro _ | split

theorem fr_portMirrors {w : Part → Bool} {o s : State} {a1 : Nat} {a2 : Nat} {a3 : List Byte} {a4 : Bool}
    (c_sw : w .sw = true) (c_tm : w .tm = true) (c_bgLog : w .bgLog = true) (c_r11 : w (.regs 11) = true) (h : Fr w o s) :
    Fr w o (portMirrors s a1 a2 a3 a4) := by
  rw [portMirrors]
  repeat' with_reducible first
    | assumption | refine fr_mirrorCopy c_sw c_tm c_bgLog c_r11 ?_ | apply fr_foldS | intro _

theorem fr_sendFrame {w : Part → Bool} {o s : State} {a1 : Nat} {a2 : Nat} {a3 : Nat} {a4 : List Byte} {a5 : FrameTag}
    (c_ev : w .ev = true) (c_sw : w .sw = true) (c_tm : w .tm = true) (c_bgLog : w .bgLog = true)
    (c_r4 : w (.regs 4) = true) (c_r10 : w (.regs 10) = true) (c_r11 : w (.regs 11) = true) (h : Fr w o s) :
    Fr w o (sendFrame s a1 a2 a3 a4 a5).2 := by
  rw [sendFrame]
  repeat' with_reducible first
    | assumption | apply fr_ite | apply fr_ite_snd | refine fr_addF 11 (by decide) c_r11 ?_
    | refine fr_portMirrors c_sw c_tm c_bgLog c_r11 ?_ | refine fr_countFlushed c_bgLog c_r10 ?_ | refine fr_addT c_bgLog ?_
    | refine fr_bufferFrame c_sw ?_ _ _ (by assumption) | refine fr_poolEmpty c_ev c_bgLog c_r4 c_r11 ?_
    | refine fr_pushFrame c_sw c_tm c_r11 ?_ | refine fr_snd (by assumption) ?_ | refine fr_fst (by assumption) ?_ | intro _
    | split | (dsimp only; split)

theorem fr_setShtPartial {w : Part → Bool} {o s : State} {a1 : Nat} (c_r8 : w (.regs 8) = true) (h : Fr w o s) :
    Fr w o (setShtPartial s a1) := by
  rw [setShtPartial]
  repeat' with_reducible first | assumption | apply fr_ite | refine fr_setF 8 (by decide) c_r8 ?_ | intro _

theorem fr_holdsProgress {w : Part → Bool} {o s : State} (c_wire : w .wire = true) (c_host : w .host = true)
    (c_hif : w .hif = true) (c_ev : w .ev = true) (c_sht : w .sht = true) (c_bgLog : w .bgLog = true)
    (c_pins : w .pins = true) (c_r3 : w (.regs 3) = true) (c_r4 : w (.regs 4) = true) (h : Fr w o s) :
    Fr w o (holdsProgress s) := by
  rw [holdsProgress]
  repeat' with_reducible first
    | assumption | apply fr_ite | refine fr_completeId c_wire c_host c_hif c_ev c_bgLog c_pins c_r3 c_r4 ?_ | apply fr_foldS
    | intro _ | (dsimp only; split) | refine fr_mk rfl ?_

theorem fr_holdRefused {w : Part → Bool} {o s : State} {a1 : Nat} {a2 : Nat} (c_sht : w .sht = true)
    (c_r8 : w (.regs 8) = true) (h : Fr w o s) :
    Fr w o (holdRefused s a1 a2) := by
  rw [holdRefused]
  repeat' with_reducible first
    | assumption | apply fr_ite | refine fr_setShtPartial c_r8 ?_ | intro _ | (dsimp only; split) | refine fr_mk rfl ?_

theorem fr_frameLost {w : Part → Bool} {o s : State} {a1 : Nat} {a2 : QFrame} (c_sht : w .sht = true)
    (c_r8 : w (.regs 8) = true) (h : Fr w o s) :
    Fr w o (frameLost s a1 a2) := by
  rw [frameLost.eq_def]
  repeat' with_reducible first | assumption | refine fr_holdRefused c_sht c_r8 ?_ | split

theorem fr_flushPort {w : Part → Bool} {o s : State} {a1 : Nat} (c_wire : w .wire = true) (c_host : w .host = true)
    (c_hif : w .hif = true) (c_ev : w .ev = true) (c_ports : w .ports = true) (c_sw : w .sw = true) (c_tm : w .tm = true)
    (c_sht : w .sht = true) (c_bgLog : w .bgLog = true) (c_pins : w .pins = true) (c_r3 : w (.regs 3) = true)
    (c_r4 : w (.regs 4) = true) (c_r8 : w (.regs 8) = true) (c_r10 : w (.regs 10) = true) (c_r11 : w (.regs 11) = true)
    (h : Fr w o s) :
    Fr w o (flushPort s a1) := by
  rw [flushPort]
  repeat' with_reducible first
    | assumption | refine fr_countFlushed c_bgLog c_r10 ?_ | refine fr_frameLost c_sht c_r8 ?_
    | refine fr_releaseFrame c_wire c_ports c_sw c_r11 ?_ | refine fr_setQueue c_tm ?_
    | refine fr_holdsProgress c_wire c_host c_hif c_ev c_sht c_bgLog c_pins c_r3 c_r4 ?_ | apply fr_foldS | intro _

theorem fr_setShaper {w : Part → Bool} {o s : State} {a1 : Nat} {a2 : Nat} {a3 : Shaper} (c_tm : w .tm = true)
    (h : Fr w o s) :
    Fr w o (setShaper s a1 a2 a3) := by
  rw [setShaper]
  repeat' with_reducible first | assumption | refine fr_mk rfl ?_

theorem fr_takeCredit {w : Part → Bool} {o s : State} {a1 : Nat} {a2 : Nat} (c_tm : w .tm = true) (h : Fr w o s) :
    Fr w o (takeCredit s a1 a2) := by
  rw [takeCredit]
  repeat' with_reducible first | assumption | apply fr_ite | refine fr_setShaper c_tm ?_ | intro _

end Sys2Proof.Machine
end

