-- ==== Sys2Proof/Laws/FrameTransmit.lean ====
section
/-!
SUPPORT. What the operations of Machine/Transmit.lean leave as it was.
-/

set_option Elab.async false

namespace Sys2Proof.Machine

theorem fr_setPtp {w : Part → Bool} {o s : State} {a1 : Nat} {a2 : PtpPort} (c_mer : w .mer = true) (h : Fr w o s) :
    Fr w o (setPtp s a1 a2) := by
  rw [setPtp]
  repeat' with_reducible first | assumption | refine fr_mk rfl ?_

theorem fr_ptpSecondRoll {w : Part → Bool} {o s : State} (c_mer : w .mer = true) (h : Fr w o s) :
    Fr w o (ptpSecondRoll s) := by
  rw [ptpSecondRoll]
  repeat' with_reducible first | assumption | apply fr_ite | intro _ | (dsimp only; split) | refine fr_mk rfl ?_

theorem fr_ptpOverload {w : Part → Bool} {o s : State} (c_r9 : w (.regs 9) = true) (h : Fr w o s) :
    Fr w o (ptpOverload s) := by
  rw [ptpOverload]
  repeat' with_reducible first | assumption | refine fr_addF 9 (by decide) c_r9 ?_

theorem fr_sendPtp {w : Part → Bool} {o s : State} {a1 : Nat} {a2 : List Byte} {a3 : FrameTag} {a4 : Bool}
    (c_ev : w .ev = true) (c_mer : w .mer = true) (c_sw : w .sw = true) (c_tm : w .tm = true) (c_bgLog : w .bgLog = true)
    (c_r4 : w (.regs 4) = true) (c_r9 : w (.regs 9) = true) (c_r10 : w (.regs 10) = true) (c_r11 : w (.regs 11) = true)
    (h : Fr w o s) :
    Fr w o (sendPtp s a1 a2 a3 a4) := by
  rw [sendPtp]
  repeat' with_reducible first
    | assumption | apply fr_ite | apply fr_ite_snd | refine fr_ptpSecondRoll c_mer ?_ | refine fr_ptpOverload c_r9 ?_
    | refine fr_sendFrame c_ev c_sw c_tm c_bgLog c_r4 c_r10 c_r11 ?_ | intro _ | (dsimp only; split) | refine fr_mk rfl ?_

theorem fr_ptpStamped {w : Part → Bool} {o s : State} {a1 : Nat} {a2 : Int} {a3 : List Byte} {a4 : Bool}
    (c_ev : w .ev = true) (c_mer : w .mer = true) (c_sw : w .sw = true) (c_tm : w .tm = true) (c_bgLog : w .bgLog = true)
    (c_r4 : w (.regs 4) = true) (c_r9 : w (.regs 9) = true) (c_r10 : w (.regs 10) = true) (c_r11 : w (.regs 11) = true)
    (h : Fr w o s) :
    Fr w o (ptpStamped s a1 a2 a3 a4) := by
  rw [ptpStamped]
  repeat' with_reducible first
    | assumption | apply fr_ite | refine fr_sendPtp c_ev c_mer c_sw c_tm c_bgLog c_r4 c_r9 c_r10 c_r11 ?_
    | refine fr_setPtp c_mer ?_ | intro _

theorem fr_transmit {w : Part → Bool} {o s : State} {a1 : Nat} {a2 : Int} {a3 : QFrame} (c_wire : w .wire = true)
    (c_ev : w .ev = true) (c_mer : w .mer = true) (c_sw : w .sw = true) (c_tm : w .tm = true) (c_sht : w .sht = true)
    (c_bgLog : w .bgLog = true) (c_r4 : w (.regs 4) = true) (c_r9 : w (.regs 9) = true) (c_r10 : w (.regs 10) = true)
    (c_r11 : w (.regs 11) = true) (h : Fr w o s) :
    Fr w o (transmit s a1 a2 a3) := by
  rw [transmit.eq_def]
  repeat' with_reducible first
    | assumption | apply fr_ite | refine fr_addF 10 (by decide) c_r10 ?_ | refine fr_addF 11 (by decide) c_r11 ?_
    | refine fr_emit c_wire ?_ | refine fr_addT c_bgLog ?_ | refine fr_raiseEv c_ev c_bgLog c_r4 ?_
    | refine fr_portMirrors c_sw c_tm c_bgLog c_r11 ?_
    | refine fr_ptpStamped c_ev c_mer c_sw c_tm c_bgLog c_r4 c_r9 c_r10 c_r11 ?_ | intro _ | split | (dsimp only; split)
    | refine fr_mk rfl ?_

end Sys2Proof.Machine
end

