-- ==== Sys2Proof/Laws/FrameWallOps.lean ====
section
/-!
SUPPORT. What the operations of Machine/WallOps.lean leave as it was.
-/

set_option Elab.async false

namespace Sys2Proof.Machine

theorem fr_setView {w : Part → Bool} {o s : State} {a1 : Nat} {a2 : View} (c_prj : w .prj = true) (h : Fr w o s) :
    Fr w o (setView s a1 a2) := by
  rw [setView]
  repeat' with_reducible first | assumption | refine fr_mk rfl ?_

end Sys2Proof.Machine
end

