-- ==== Sys2Proof/Laws/FrameFrames.lean ====
section
/-!
SUPPORT. What the operations of Machine/Frames.lean leave as it was.
-/

set_option Elab.async false

namespace Sys2Proof.Machine

theorem fr_emitUnit {w : Part → Bool} {o s : State} {a1 : Nat} {a2 : List Byte} {a3 : Nat} {a4 : Nat} {a5 : Bool} {a6 : Nat}
    {a7 : List Byte} (c_ev : w .ev = true) (c_sw : w .sw = true) (c_tm : w .tm = true) (c_bgLog : w .bgLog = true)
    (c_r4 : w (.regs 4) = true) (c_r10 : w (.regs 10) = true) (c_r11 : w (.regs 11) = true) (h : Fr w o s) :
    Fr w o (emitUnit s a1 a2 a3 a4 a5 a6 a7) := by
  rw [emitUnit]
  repeat' with_reducible first
    | assumption | apply fr_ite | apply fr_ite_fst | apply fr_ite_snd
    | refine fr_sendFrame c_ev c_sw c_tm c_bgLog c_r4 c_r10 c_r11 ?_ | apply fr_foldl | apply fr_foldl_fst
    | apply fr_foldl_snd | intro _

end Sys2Proof.Machine
end

