-- ==== Sys2Proof/Laws/FrameStreamOps.lean ====
section
/-!
SUPPORT. What the operations of Machine/StreamOps.lean leave as it was.
-/

set_option Elab.async false

namespace Sys2Proof.Machine

theorem fr_setStream {w : Part → Bool} {o s : State} {a1 : Nat} {a2 : Stream} (c_scr : w .scr = true) (h : Fr w o s) :
    Fr w o (setStream s a1 a2) := by
  rw [setStream]
  repeat' with_reducible first | assumption | refine fr_mk rfl ?_

theorem fr_setEnc {w : Part → Bool} {o s : State} {a1 : Nat} {a2 : EncSheet} (c_enc : w .enc = true) (h : Fr w o s) :
    Fr w o (setEnc s a1 a2) := by
  rw [setEnc]
  repeat' with_reducible first | assumption | refine fr_mk rfl ?_

theorem fr_streamEvent {w : Part → Bool} {o s : State} {a1 : Nat} {a2 : Nat} (c_ev : w .ev = true)
    (c_bgLog : w .bgLog = true) (c_r4 : w (.regs 4) = true) (h : Fr w o s) :
    Fr w o (streamEvent s a1 a2) := by
  rw [streamEvent]
  repeat' with_reducible first | assumption | refine fr_raiseEv c_ev c_bgLog c_r4 ?_

theorem fr_refreshLoads {w : Part → Bool} {o s : State} (c_r6 : w (.regs 6) = true) (c_r7 : w (.regs 7) = true)
    (h : Fr w o s) :
    Fr w o (refreshLoads s) := by
  rw [refreshLoads]
  repeat' with_reducible first
    | assumption | apply fr_ite | refine fr_setF 6 (by decide) c_r6 ?_ | refine fr_setF 7 (by decide) c_r7 ?_
    | apply fr_foldS | intro _

theorem fr_rebind {w : Part → Bool} {o s : State} {a1 : Nat} (c_prj : w .prj = true) (h : Fr w o s) :
    Fr w o (rebind s a1) := by
  rw [rebind.eq_def]
  repeat' with_reducible first
    | assumption | apply fr_ite | apply fr_ite_fst | refine fr_setView c_prj ?_ | apply fr_foldS | intro _ | split

end Sys2Proof.Machine
end

