-- ==== Sys2Proof/Laws/FrameEdits.lean ====
section
/-!
SUPPORT. What the operations of Machine/Edits.lean leave as it was.
-/

set_option Elab.async false

namespace Sys2Proof.Machine

theorem fr_complain {w : Part → Bool} {o s : State} {a1 : Cmd} {a2 : Nat} (c_wire : w .wire = true)
    (c_host : w .host = true) (c_hif : w .hif = true) (c_ev : w .ev = true) (c_bgLog : w .bgLog = true)
    (c_pins : w .pins = true) (c_r3 : w (.regs 3) = true) (c_r4 : w (.regs 4) = true) (h : Fr w o s) :
    Fr w o (complain s a1 a2) := by
  rw [complain]
  repeat' with_reducible first
    | assumption | refine fr_complete c_wire c_host c_hif c_ev c_bgLog c_pins c_r3 c_r4 ?_

theorem fr_runLayerSet {w : Part → Bool} {o s : State} {a1 : Cmd} {a2 : List Byte} (c_wire : w .wire = true)
    (c_host : w .host = true) (c_hif : w .hif = true) (c_ev : w .ev = true) (c_prj : w .prj = true)
    (c_bgLog : w .bgLog = true) (c_pins : w .pins = true) (c_r3 : w (.regs 3) = true) (c_r4 : w (.regs 4) = true)
    (h : Fr w o s) :
    Fr w o (runLayerSet s a1 a2) := by
  rw [runLayerSet.eq_def]
  repeat' with_reducible first
    | assumption | refine fr_complain c_wire c_host c_hif c_ev c_bgLog c_pins c_r3 c_r4 ?_
    | refine fr_complete c_wire c_host c_hif c_ev c_bgLog c_pins c_r3 c_r4 ?_ | refine fr_setView c_prj ?_ | apply fr_foldl
    | apply fr_foldl_fst | apply fr_foldl_snd | intro _ | split

theorem fr_showView {w : Part → Bool} {o s : State} {a1 : Nat} (c_r7 : w (.regs 7) = true) (h : Fr w o s) :
    Fr w o (showView s a1) := by
  rw [showView]
  repeat' with_reducible first | assumption | refine fr_setF 7 (by decide) c_r7 ?_

theorem fr_applyCommits {w : Part → Bool} {o s : State} {a1 : Nat} {a2 : Nat} (c_wire : w .wire = true)
    (c_host : w .host = true) (c_hif : w .hif = true) (c_ev : w .ev = true) (c_prj : w .prj = true)
    (c_bgLog : w .bgLog = true) (c_pins : w .pins = true) (c_r3 : w (.regs 3) = true) (c_r4 : w (.regs 4) = true)
    (c_r7 : w (.regs 7) = true) (h : Fr w o s) :
    Fr w o (applyCommits s a1 a2) := by
  rw [applyCommits.eq_def]
  repeat' with_reducible first
    | assumption | apply fr_ite | apply fr_ite_fst | refine fr_showView c_r7 ?_ | refine fr_setView c_prj ?_
    | refine fr_completeId c_wire c_host c_hif c_ev c_bgLog c_pins c_r3 c_r4 ?_ | refine fr_raiseEv c_ev c_bgLog c_r4 ?_
    | apply fr_foldS | intro _ | split | (dsimp only; split)

theorem fr_endCaptures {w : Part → Bool} {o s : State} {a1 : Nat} (c_wire : w .wire = true) (c_host : w .host = true)
    (c_hif : w .hif = true) (c_ev : w .ev = true) (c_enc : w .enc = true) (c_bgLog : w .bgLog = true)
    (c_pins : w .pins = true) (c_r3 : w (.regs 3) = true) (c_r4 : w (.regs 4) = true) (h : Fr w o s) :
    Fr w o (endCaptures s a1) := by
  rw [endCaptures]
  repeat' with_reducible first
    | assumption | refine fr_completeId c_wire c_host c_hif c_ev c_bgLog c_pins c_r3 c_r4 ?_ | refine fr_setEnc c_enc ?_
    | apply fr_foldS | intro _

theorem fr_setDoseMap {w : Part → Bool} {o s : State} {a1 : Nat} {a2 : Option (Nat × Nat)} {a3 : SMap Nat}
    (c_prj : w .prj = true) (h : Fr w o s) :
    Fr w o (setDoseMap s a1 a2 a3) := by
  rw [setDoseMap]
  repeat' with_reducible first | assumption | intro _ | refine fr_mk rfl ?_

theorem fr_followDose {w : Part → Bool} {o s : State} {a1 : Nat} {a2 : Nat} {a3 : List Byte} (c_prj : w .prj = true)
    (h : Fr w o s) :
    Fr w o (followDose s a1 a2 a3) := by
  rw [followDose]
  repeat' with_reducible first
    | assumption | apply fr_ite | apply fr_ite_snd | refine fr_setDoseMap c_prj ?_ | intro _

theorem fr_applyEntry {w : Part → Bool} {o s : State} {a1 : Nat} {a2 : List Byte} (c_wire : w .wire = true)
    (c_host : w .host = true) (c_hif : w .hif = true) (c_ev : w .ev = true) (c_prj : w .prj = true) (c_enc : w .enc = true)
    (c_bgLog : w .bgLog = true) (c_pins : w .pins = true) (c_r3 : w (.regs 3) = true) (c_r4 : w (.regs 4) = true)
    (h : Fr w o s) :
    Fr w o (applyEntry s a1 a2) := by
  rw [applyEntry]
  repeat' with_reducible first
    | assumption | apply fr_ite | refine fr_followDose c_prj ?_ | refine fr_setEnc c_enc ?_
    | refine fr_endCaptures c_wire c_host c_hif c_ev c_enc c_bgLog c_pins c_r3 c_r4 ?_ | intro _ | (dsimp only; split)
    | refine fr_mk rfl ?_

theorem fr_gztShow {w : Part → Bool} {o s : State} (c_r7 : w (.regs 7) = true) (h : Fr w o s) :
    Fr w o (gztShow s) := by
  rw [gztShow]
  repeat' with_reducible first | assumption | refine fr_setF 7 (by decide) c_r7 ?_ | intro _

theorem fr_finishUpdates {w : Part → Bool} {o s : State} (c_wire : w .wire = true) (c_host : w .host = true)
    (c_hif : w .hif = true) (c_ev : w .ev = true) (c_prj : w .prj = true) (c_bgLog : w .bgLog = true)
    (c_pins : w .pins = true) (c_r3 : w (.regs 3) = true) (c_r4 : w (.regs 4) = true) (c_r7 : w (.regs 7) = true)
    (h : Fr w o s) :
    Fr w o (finishUpdates s) := by
  rw [finishUpdates]
  repeat' with_reducible first
    | assumption | refine fr_raiseEv c_ev c_bgLog c_r4 ?_
    | refine fr_completeId c_wire c_host c_hif c_ev c_bgLog c_pins c_r3 c_r4 ?_ | refine fr_gztShow c_r7 ?_ | apply fr_foldS
    | intro _ | refine fr_mk rfl ?_

theorem fr_applyGazetteer {w : Part → Bool} {o s : State} {a1 : Nat} {a2 : AppliedAt} (c_wire : w .wire = true)
    (c_host : w .host = true) (c_hif : w .hif = true) (c_ev : w .ev = true) (c_prj : w .prj = true) (c_enc : w .enc = true)
    (c_bgLog : w .bgLog = true) (c_pins : w .pins = true) (c_r3 : w (.regs 3) = true) (c_r4 : w (.regs 4) = true)
    (h : Fr w o s) :
    Fr w o (applyGazetteer s a1 a2) := by
  rw [applyGazetteer]
  repeat' with_reducible first
    | assumption | apply fr_ite | apply fr_ite_fst | apply fr_ite_snd
    | refine fr_applyEntry c_wire c_host c_hif c_ev c_prj c_enc c_bgLog c_pins c_r3 c_r4 ?_ | apply fr_foldS | intro _
    | split | (dsimp only; split) | refine fr_mk rfl ?_

theorem fr_applyCal {w : Part → Bool} {o s : State} {a1 : Nat → Bool} {a2 : AppliedAt} (c_prj : w .prj = true)
    (h : Fr w o s) :
    Fr w o (applyCal s a1 a2) := by
  rw [applyCal]
  repeat' with_reducible first
    | assumption | apply fr_ite | apply fr_ite_fst | apply fr_ite_snd | apply fr_foldS | apply fr_foldl | apply fr_foldl_fst
    | apply fr_foldl_snd | intro _ | split | (dsimp only; split) | refine fr_mk rfl ?_

theorem fr_applyGains {w : Part → Bool} {o s : State} {a1 : Nat} (c_prj : w .prj = true) (h : Fr w o s) :
    Fr w o (applyGains s a1) := by
  rw [applyGains]
  repeat' with_reducible first
    | assumption | apply fr_foldl | apply fr_foldl_fst | apply fr_foldl_snd | intro _ | refine fr_mk rfl ?_

theorem fr_applyIdleCal {w : Part → Bool} {o s : State} (c_prj : w .prj = true) (h : Fr w o s) :
    Fr w o (applyIdleCal s) := by
  rw [applyIdleCal]
  repeat' with_reducible first | assumption | refine fr_applyCal c_prj ?_ | intro _

theorem fr_applyEdits {w : Part → Bool} {o s : State} {a1 : Nat} {a2 : AppliedAt} (c_wire : w .wire = true)
    (c_host : w .host = true) (c_hif : w .hif = true) (c_ev : w .ev = true) (c_prj : w .prj = true) (c_enc : w .enc = true)
    (c_bgLog : w .bgLog = true) (c_pins : w .pins = true) (c_r3 : w (.regs 3) = true) (c_r4 : w (.regs 4) = true)
    (c_r6 : w (.regs 6) = true) (c_r7 : w (.regs 7) = true) (h : Fr w o s) :
    Fr w o (applyEdits s a1 a2) := by
  rw [applyEdits]
  repeat' with_reducible first
    | assumption | refine fr_applyCommits c_wire c_host c_hif c_ev c_prj c_bgLog c_pins c_r3 c_r4 c_r7 ?_
    | refine fr_applyGazetteer c_wire c_host c_hif c_ev c_prj c_enc c_bgLog c_pins c_r3 c_r4 ?_
    | refine fr_applyCal c_prj ?_ | refine fr_refreshLoads c_r6 c_r7 ?_
    | refine fr_finishUpdates c_wire c_host c_hif c_ev c_prj c_bgLog c_pins c_r3 c_r4 c_r7 ?_
    | refine fr_applyGains c_prj ?_ | refine fr_applyIdleCal c_prj ?_ | intro _

theorem fr_settleEdits {w : Part → Bool} {o s : State} (c_wire : w .wire = true) (c_host : w .host = true)
    (c_hif : w .hif = true) (c_ev : w .ev = true) (c_prj : w .prj = true) (c_enc : w .enc = true)
    (c_bgLog : w .bgLog = true) (c_pins : w .pins = true) (c_r3 : w (.regs 3) = true) (c_r4 : w (.regs 4) = true)
    (c_r6 : w (.regs 6) = true) (c_r7 : w (.regs 7) = true) (h : Fr w o s) :
    Fr w o (settleEdits s) := by
  rw [settleEdits]
  repeat' with_reducible first
    | assumption | apply fr_ite
    | refine fr_applyEdits c_wire c_host c_hif c_ev c_prj c_enc c_bgLog c_pins c_r3 c_r4 c_r6 c_r7 ?_
    | refine fr_refreshLoads c_r6 c_r7 ?_
    | refine fr_finishUpdates c_wire c_host c_hif c_ev c_prj c_bgLog c_pins c_r3 c_r4 c_r7 ?_
    | refine fr_applyIdleCal c_prj ?_ | apply fr_foldS | intro _

theorem fr_gztReject {w : Part → Bool} {o s : State} {a1 : Nat} {a2 : Nat} (c_r7 : w (.regs 7) = true) (h : Fr w o s) :
    Fr w o (gztReject s a1 a2) := by
  rw [gztReject]
  repeat' with_reducible first | assumption | refine fr_setF 7 (by decide) c_r7 ?_

theorem fr_loadCheck {w : Part → Bool} {o s : State} {a1 : Plan} (c_r8 : w (.regs 8) = true) (h : Fr w o s) :
    FrOpt w o (loadCheck s a1) := by
  rw [loadCheck]
  repeat' with_reducible first
    | assumption | apply frOpt_none | apply frOpt_ite | apply frOpt_some | split | apply fr_ite
    | refine fr_setF 8 (by decide) c_r8 ?_ | intro _ | split | (dsimp only; split)

theorem fr_runViewCommit {w : Part → Bool} {o s : State} {a1 : Cmd} {a2 : List Byte} (c_wire : w .wire = true)
    (c_host : w .host = true) (c_hif : w .hif = true) (c_ev : w .ev = true) (c_prj : w .prj = true) (c_enc : w .enc = true)
    (c_bgLog : w .bgLog = true) (c_pins : w .pins = true) (c_r3 : w (.regs 3) = true) (c_r4 : w (.regs 4) = true)
    (c_r6 : w (.regs 6) = true) (c_r7 : w (.regs 7) = true) (c_r8 : w (.regs 8) = true) (h : Fr w o s) :
    Fr w o (runViewCommit s a1 a2) := by
  rw [runViewCommit.eq_def]
  repeat' with_reducible first
    | assumption | apply fr_ite | apply fr_ite_fst | apply fr_ite_snd
    | refine fr_complain c_wire c_host c_hif c_ev c_bgLog c_pins c_r3 c_r4 ?_ | refine fr_gztReject c_r7 ?_
    | refine fr_complete c_wire c_host c_hif c_ev c_bgLog c_pins c_r3 c_r4 ?_
    | refine fr_of_opt (fr_loadCheck c_r8 ?_) (by assumption)
    | refine fr_settleEdits c_wire c_host c_hif c_ev c_prj c_enc c_bgLog c_pins c_r3 c_r4 c_r6 c_r7 ?_
    | refine fr_setView c_prj ?_ | intro _ | split | (dsimp only; split)

theorem fr_setSurface {w : Part → Bool} {o s : State} {a1 : Nat} {a2 : Option Surface} (c_prj : w .prj = true)
    (h : Fr w o s) :
    Fr w o (setSurface s a1 a2) := by
  rw [setSurface]
  repeat' with_reducible first | assumption | refine fr_mk rfl ?_

theorem fr_doSurfaceWrite {w : Part → Bool} {o s : State} {a1 : Cmd} {a2 : List Byte} (c_wire : w .wire = true)
    (c_host : w .host = true) (c_hif : w .hif = true) (c_ev : w .ev = true) (c_prj : w .prj = true)
    (c_bgLog : w .bgLog = true) (c_pins : w .pins = true) (c_r3 : w (.regs 3) = true) (c_r4 : w (.regs 4) = true)
    (h : Fr w o s) :
    Fr w o (doSurfaceWrite s a1 a2) := by
  rw [doSurfaceWrite.eq_def]
  repeat' with_reducible first
    | assumption | apply fr_ite | refine fr_complete c_wire c_host c_hif c_ev c_bgLog c_pins c_r3 c_r4 ?_
    | refine fr_setSurface c_prj ?_ | intro _ | split | (dsimp only; split)

theorem fr_runSurfaceWrite {w : Part → Bool} {o s : State} {a1 : Cmd} {a2 : List Byte} (c_wire : w .wire = true)
    (c_host : w .host = true) (c_hif : w .hif = true) (c_ev : w .ev = true) (c_prj : w .prj = true)
    (c_bgLog : w .bgLog = true) (c_pins : w .pins = true) (c_r3 : w (.regs 3) = true) (c_r4 : w (.regs 4) = true)
    (c_r6 : w (.regs 6) = true) (c_r7 : w (.regs 7) = true) (h : Fr w o s) :
    Fr w o (runSurfaceWrite s a1 a2) := by
  rw [runSurfaceWrite]
  repeat' with_reducible first
    | assumption | apply fr_ite | apply fr_ite_fst | refine fr_refreshLoads c_r6 c_r7 ?_
    | refine fr_complete c_wire c_host c_hif c_ev c_bgLog c_pins c_r3 c_r4 ?_ | refine fr_setSurface c_prj ?_
    | refine fr_doSurfaceWrite c_wire c_host c_hif c_ev c_prj c_bgLog c_pins c_r3 c_r4 ?_ | intro _ | (dsimp only; split)
    | refine fr_mk rfl ?_

theorem fr_surfaceResume {w : Part → Bool} {o s : State} {a1 : Nat} (c_wire : w .wire = true) (c_host : w .host = true)
    (c_hif : w .hif = true) (c_ev : w .ev = true) (c_prj : w .prj = true) (c_bgLog : w .bgLog = true)
    (c_pins : w .pins = true) (c_r3 : w (.regs 3) = true) (c_r4 : w (.regs 4) = true) (h : Fr w o s) :
    Fr w o (surfaceResume s a1) := by
  rw [surfaceResume.eq_def]
  repeat' with_reducible first
    | assumption | apply fr_ite | apply fr_ite_fst | apply fr_ite_snd
    | refine fr_doSurfaceWrite c_wire c_host c_hif c_ev c_prj c_bgLog c_pins c_r3 c_r4 ?_ | intro _ | split
    | (dsimp only; split) | refine fr_mk rfl ?_

theorem fr_runGazetteerUpdate {w : Part → Bool} {o s : State} {a1 : Cmd} {a2 : List Byte} (c_wire : w .wire = true)
    (c_host : w .host = true) (c_hif : w .hif = true) (c_ev : w .ev = true) (c_prj : w .prj = true) (c_enc : w .enc = true)
    (c_bgLog : w .bgLog = true) (c_pins : w .pins = true) (c_r3 : w (.regs 3) = true) (c_r4 : w (.regs 4) = true)
    (c_r6 : w (.regs 6) = true) (c_r7 : w (.regs 7) = true) (c_r8 : w (.regs 8) = true) (h : Fr w o s) :
    Fr w o (runGazetteerUpdate s a1 a2) := by
  rw [runGazetteerUpdate.eq_def]
  repeat' with_reducible first
    | assumption | apply fr_ite | apply fr_ite_fst | apply fr_ite_snd
    | refine fr_complain c_wire c_host c_hif c_ev c_bgLog c_pins c_r3 c_r4 ?_ | refine fr_gztReject c_r7 ?_
    | refine fr_of_opt (fr_loadCheck c_r8 ?_) (by assumption)
    | refine fr_complete c_wire c_host c_hif c_ev c_bgLog c_pins c_r3 c_r4 ?_
    | refine fr_settleEdits c_wire c_host c_hif c_ev c_prj c_enc c_bgLog c_pins c_r3 c_r4 c_r6 c_r7 ?_
    | refine fr_gztShow c_r7 ?_ | intro _ | split | (dsimp only; split) | refine fr_mk rfl ?_

theorem fr_runSheetCalSet {w : Part → Bool} {o s : State} {a1 : Cmd} {a2 : List Byte} (c_wire : w .wire = true)
    (c_host : w .host = true) (c_hif : w .hif = true) (c_ev : w .ev = true) (c_prj : w .prj = true) (c_enc : w .enc = true)
    (c_bgLog : w .bgLog = true) (c_pins : w .pins = true) (c_r3 : w (.regs 3) = true) (c_r4 : w (.regs 4) = true)
    (c_r6 : w (.regs 6) = true) (c_r7 : w (.regs 7) = true) (h : Fr w o s) :
    Fr w o (runSheetCalSet s a1 a2) := by
  rw [runSheetCalSet]
  repeat' with_reducible first
    | assumption | refine fr_settleEdits c_wire c_host c_hif c_ev c_prj c_enc c_bgLog c_pins c_r3 c_r4 c_r6 c_r7 ?_
    | intro _ | refine fr_mk rfl ?_

theorem fr_coefWrite {w : Part → Bool} {o s : State} {a1 : Nat} {a2 : Nat} (c_ev : w .ev = true) (c_prj : w .prj = true)
    (c_bgLog : w .bgLog = true) (c_r4 : w (.regs 4) = true) (h : Fr w o s) :
    Fr w o (coefWrite s a1 a2) := by
  rw [coefWrite]
  repeat' with_reducible first
    | assumption | apply fr_ite | refine fr_raiseEv c_ev c_bgLog c_r4 ?_ | intro _ | (dsimp only; split)
    | refine fr_mk rfl ?_

end Sys2Proof.Machine
end

