-- ==== Sys2Proof/Laws/FrameEncode.lean ====
section
/-!
SUPPORT. What the operations of Machine/Encode.lean leave as it was.
-/

set_option Elab.async false

namespace Sys2Proof.Machine

theorem fr_setCore {w : Part → Bool} {o s : State} {a1 : Nat} {a2 : Core} (c_scr : w .scr = true) (h : Fr w o s) :
    Fr w o (setCore s a1 a2) := by
  rw [setCore]
  repeat' with_reducible first | assumption | refine fr_mk rfl ?_

theorem fr_setCoreState {w : Part → Bool} {o s : State} {a1 : Nat} {a2 : Nat} (c_r6 : w (.regs 6) = true) (h : Fr w o s) :
    Fr w o (setCoreState s a1 a2) := by
  rw [setCoreState]
  repeat' with_reducible first | assumption | refine fr_setF 6 (by decide) c_r6 ?_

theorem fr_countBusy {w : Part → Bool} {o s : State} {a1 : Nat} (c_scr : w .scr = true) (h : Fr w o s) :
    Fr w o (countBusy s a1) := by
  rw [countBusy]
  repeat' with_reducible first
    | assumption | apply fr_ite | apply fr_ite_fst | apply fr_ite_snd | intro _ | split | (dsimp only; split)
    | refine fr_mk rfl ?_

theorem fr_busyRoll {w : Part → Bool} {o s : State} (c_scr : w .scr = true) (c_r6 : w (.regs 6) = true) (h : Fr w o s) :
    Fr w o (busyRoll s) := by
  rw [busyRoll]
  repeat' with_reducible first
    | assumption | apply fr_ite | apply fr_ite_fst | apply fr_ite_snd | refine fr_setF 6 (by decide) c_r6 ?_
    | refine fr_countBusy c_scr ?_ | intro _ | (dsimp only; split) | refine fr_mk rfl ?_

theorem fr_saveContext {w : Part → Bool} {o s : State} {a1 : Bool × Nat} (c_scr : w .scr = true) (h : Fr w o s) :
    Fr w o (saveContext s a1) := by
  rw [saveContext]
  repeat' with_reducible first | assumption | refine fr_mk rfl ?_

theorem fr_freeCore {w : Part → Bool} {o s : State} {a1 : Nat} (c_scr : w .scr = true) (c_r6 : w (.regs 6) = true)
    (h : Fr w o s) :
    Fr w o (freeCore s a1) := by
  rw [freeCore.eq_def]
  repeat' with_reducible first
    | assumption | refine fr_setF 6 (by decide) c_r6 ?_ | refine fr_countBusy c_scr ?_ | refine fr_busyRoll c_scr c_r6 ?_
    | refine fr_setCore c_scr ?_ | refine fr_saveContext c_scr ?_ | refine fr_setCoreState c_r6 ?_ | split
    | (dsimp only; split) | refine fr_mk rfl ?_

theorem fr_setPics {w : Part → Bool} {o s : State} {a1 : Nat} {a2 : List SheetPic} (c_prj : w .prj = true) (h : Fr w o s) :
    Fr w o (setPics s a1 a2) := by
  rw [setPics]
  repeat' with_reducible first | assumption | refine fr_mk rfl ?_

theorem fr_setHeadPic {w : Part → Bool} {o s : State} {a1 : Nat} {a2 : SheetPic} (c_prj : w .prj = true) (h : Fr w o s) :
    Fr w o (setHeadPic s a1 a2) := by
  rw [setHeadPic]
  repeat' with_reducible first | assumption | refine fr_setPics c_prj ?_

theorem fr_dropHeadPic {w : Part → Bool} {o s : State} {a1 : Nat} (c_prj : w .prj = true) (h : Fr w o s) :
    Fr w o (dropHeadPic s a1) := by
  rw [dropHeadPic]
  repeat' with_reducible first | assumption | refine fr_setPics c_prj ?_

theorem fr_startEncode {w : Part → Bool} {o s : State} {a1 : Nat} {a2 : SheetPic} (c_enc : w .enc = true) (h : Fr w o s) :
    Fr w o (startEncode s a1 a2) := by
  rw [startEncode]
  repeat' with_reducible first
    | assumption | apply fr_ite | refine fr_setEnc c_enc ?_ | intro _ | split | (dsimp only; split)

theorem fr_makeReady {w : Part → Bool} {o s : State} {a1 : Nat} (c_scr : w .scr = true) (h : Fr w o s) :
    Fr w o (makeReady s a1) := by
  rw [makeReady]
  repeat' with_reducible first | assumption | refine fr_mk rfl ?_

theorem fr_writeCaptures {w : Part → Bool} {o s : State} {a1 : Nat} {a2 : EncRun} (c_wire : w .wire = true)
    (c_host : w .host = true) (c_hif : w .hif = true) (c_ev : w .ev = true) (c_enc : w .enc = true)
    (c_bgLog : w .bgLog = true) (c_pins : w .pins = true) (c_r3 : w (.regs 3) = true) (c_r4 : w (.regs 4) = true)
    (h : Fr w o s) :
    Fr w o (writeCaptures s a1 a2) := by
  rw [writeCaptures]
  repeat' with_reducible first
    | assumption | apply fr_ite | refine fr_hostWrite c_host ?_
    | refine fr_completeId c_wire c_host c_hif c_ev c_bgLog c_pins c_r3 c_r4 ?_ | refine fr_setEnc c_enc ?_ | apply fr_foldS
    | intro _

theorem fr_rowEvent {w : Part → Bool} {o s : State} {a1 : Nat} {a2 : Nat} {a3 : EncRun} (c_ev : w .ev = true)
    (c_bgLog : w .bgLog = true) (c_r4 : w (.regs 4) = true) (h : Fr w o s) :
    Fr w o (rowEvent s a1 a2 a3) := by
  rw [rowEvent]
  repeat' with_reducible first | assumption | refine fr_raiseEv c_ev c_bgLog c_r4 ?_

theorem fr_sheetEvent {w : Part → Bool} {o s : State} {a1 : Nat} {a2 : Nat} {a3 : Nat} {a4 : Nat} (c_ev : w .ev = true)
    (c_bgLog : w .bgLog = true) (c_r4 : w (.regs 4) = true) (h : Fr w o s) :
    Fr w o (sheetEvent s a1 a2 a3 a4) := by
  rw [sheetEvent]
  repeat' with_reducible first | assumption | refine fr_raiseEv c_ev c_bgLog c_r4 ?_

theorem fr_closePicture {w : Part → Bool} {o s : State} {a1 : Nat} {a2 : EncRun} (c_wire : w .wire = true)
    (c_host : w .host = true) (c_hif : w .hif = true) (c_ev : w .ev = true) (c_prj : w .prj = true) (c_scr : w .scr = true)
    (c_enc : w .enc = true) (c_bgLog : w .bgLog = true) (c_pins : w .pins = true) (c_r3 : w (.regs 3) = true)
    (c_r4 : w (.regs 4) = true) (c_r6 : w (.regs 6) = true) (h : Fr w o s) :
    Fr w o (closePicture s a1 a2) := by
  rw [closePicture.eq_def]
  repeat' with_reducible first
    | assumption | apply fr_ite | refine fr_addF 6 (by decide) c_r6 ?_ | refine fr_setEnc c_enc ?_
    | refine fr_addT c_bgLog ?_ | refine fr_dropHeadPic c_prj ?_
    | refine fr_writeCaptures c_wire c_host c_hif c_ev c_enc c_bgLog c_pins c_r3 c_r4 ?_ | refine fr_makeReady c_scr ?_
    | refine fr_saveContext c_scr ?_ | refine fr_freeCore c_scr c_r6 ?_ | intro _ | split | (dsimp only; split)
    | refine fr_mk rfl ?_

theorem fr_rowCoded {w : Part → Bool} {o s : State} {a1 : Nat} {a2 : EncRun} (c_wire : w .wire = true)
    (c_host : w .host = true) (c_hif : w .hif = true) (c_ev : w .ev = true) (c_prj : w .prj = true) (c_sw : w .sw = true)
    (c_tm : w .tm = true) (c_scr : w .scr = true) (c_enc : w .enc = true) (c_bgLog : w .bgLog = true)
    (c_pins : w .pins = true) (c_r3 : w (.regs 3) = true) (c_r4 : w (.regs 4) = true) (c_r6 : w (.regs 6) = true)
    (c_r10 : w (.regs 10) = true) (c_r11 : w (.regs 11) = true) (h : Fr w o s) :
    Fr w o (rowCoded s a1 a2) := by
  rw [rowCoded]
  repeat' with_reducible first
    | assumption | apply fr_ite | apply fr_ite_fst | apply fr_ite_snd | refine fr_setEnc c_enc ?_
    | refine fr_emitUnit c_ev c_sw c_tm c_bgLog c_r4 c_r10 c_r11 ?_ | refine fr_setHeadPic c_prj ?_
    | refine fr_closePicture c_wire c_host c_hif c_ev c_prj c_scr c_enc c_bgLog c_pins c_r3 c_r4 c_r6 ?_ | intro _ | split
    | (dsimp only; split)

theorem fr_repeatActivity {w : Part → Bool} {o s : State} {a1 : Nat} {a2 : EncRun} (c_freeCtr : w .freeCtr = true)
    (h : Fr w o s) :
    Fr w o (repeatActivity s a1 a2).2 := by
  rw [repeatActivity]
  repeat' with_reducible first
    | assumption | apply fr_ite | apply fr_ite_fst | apply fr_ite_snd | refine fr_freshIndex c_freeCtr ?_ | intro _ | split
    | (dsimp only; split)

theorem fr_repeatSheetRow {w : Part → Bool} {o s : State} {a1 : Nat} (c_freeCtr : w .freeCtr = true)
    (c_wire : w .wire = true) (c_host : w .host = true) (c_hif : w .hif = true) (c_ev : w .ev = true)
    (c_prj : w .prj = true) (c_sw : w .sw = true) (c_tm : w .tm = true) (c_scr : w .scr = true) (c_enc : w .enc = true)
    (c_bgLog : w .bgLog = true) (c_pins : w .pins = true) (c_r3 : w (.regs 3) = true) (c_r4 : w (.regs 4) = true)
    (c_r6 : w (.regs 6) = true) (c_r10 : w (.regs 10) = true) (c_r11 : w (.regs 11) = true) (h : Fr w o s) :
    Fr w o (repeatSheetRow s a1) := by
  rw [repeatSheetRow.eq_def]
  repeat' with_reducible first
    | assumption | apply fr_ite | apply fr_ite_fst | apply fr_ite_snd | refine fr_repeatActivity c_freeCtr ?_
    | refine fr_rowCoded c_wire c_host c_hif c_ev c_prj c_sw c_tm c_scr c_enc c_bgLog c_pins c_r3 c_r4 c_r6 c_r10 c_r11 ?_
    | intro _ | split

theorem fr_repeatSheetRows {w : Part → Bool} {o s : State} {a1 : Nat} {a2 : Nat} (c_freeCtr : w .freeCtr = true)
    (c_wire : w .wire = true) (c_host : w .host = true) (c_hif : w .hif = true) (c_ev : w .ev = true)
    (c_prj : w .prj = true) (c_sw : w .sw = true) (c_tm : w .tm = true) (c_scr : w .scr = true) (c_enc : w .enc = true)
    (c_bgLog : w .bgLog = true) (c_pins : w .pins = true) (c_r3 : w (.regs 3) = true) (c_r4 : w (.regs 4) = true)
    (c_r6 : w (.regs 6) = true) (c_r10 : w (.regs 10) = true) (c_r11 : w (.regs 11) = true) (h : Fr w o s) :
    Fr w o (repeatSheetRows s a1 a2) := by
  induction a2 generalizing s a1 with
  | zero => exact h
  | succ k ih =>
    rw [repeatSheetRows]
    repeat' with_reducible first
      | assumption | apply ih
      | refine fr_repeatSheetRow c_freeCtr c_wire c_host c_hif c_ev c_prj c_sw c_tm c_scr c_enc c_bgLog c_pins c_r3 c_r4 c_r6 c_r10 c_r11 ?_

theorem fr_codeMarkedRow {w : Part → Bool} {o s : State} {a1 : Nat} (c_wire : w .wire = true) (c_host : w .host = true)
    (c_hif : w .hif = true) (c_ev : w .ev = true) (c_prj : w .prj = true) (c_sw : w .sw = true) (c_tm : w .tm = true)
    (c_scr : w .scr = true) (c_enc : w .enc = true) (c_bgLog : w .bgLog = true) (c_pins : w .pins = true)
    (c_r3 : w (.regs 3) = true) (c_r4 : w (.regs 4) = true) (c_r6 : w (.regs 6) = true) (c_r10 : w (.regs 10) = true)
    (c_r11 : w (.regs 11) = true) (h : Fr w o s) :
    Fr w o (codeMarkedRow s a1) := by
  rw [codeMarkedRow.eq_def]
  repeat' with_reducible first
    | assumption | apply fr_ite | refine fr_addF 6 (by decide) c_r6 ?_ | refine fr_rowEvent c_ev c_bgLog c_r4 ?_
    | refine fr_rowCoded c_wire c_host c_hif c_ev c_prj c_sw c_tm c_scr c_enc c_bgLog c_pins c_r3 c_r4 c_r6 c_r10 c_r11 ?_
    | intro _ | split | (dsimp only; split)

theorem fr_closeEarly {w : Part → Bool} {o s : State} {a1 : Nat} (c_ev : w .ev = true) (c_scr : w .scr = true)
    (c_enc : w .enc = true) (c_bgLog : w .bgLog = true) (c_r4 : w (.regs 4) = true) (h : Fr w o s) :
    Fr w o (closeEarly s a1) := by
  rw [closeEarly.eq_def]
  repeat' with_reducible first
    | assumption | apply fr_ite | refine fr_makeReady c_scr ?_ | refine fr_startEncode c_enc ?_
    | refine fr_rowEvent c_ev c_bgLog c_r4 ?_ | refine fr_setEnc c_enc ?_ | intro _ | split | (dsimp only; split)
    | refine fr_mk rfl ?_

theorem fr_closingJob {w : Part → Bool} {o s : State} {a1 : Nat} (c_ev : w .ev = true) (c_scr : w .scr = true)
    (c_enc : w .enc = true) (c_bgLog : w .bgLog = true) (c_r4 : w (.regs 4) = true) (h : Fr w o s) :
    Fr w o (closingJob s a1) := by
  rw [closingJob.eq_def]
  repeat' with_reducible first
    | assumption | refine fr_setEnc c_enc ?_ | refine fr_rowEvent c_ev c_bgLog c_r4 ?_ | (dsimp only; split)
    | refine fr_mk rfl ?_

theorem fr_requestI {w : Part → Bool} {o s : State} {a1 : Nat} (c_enc : w .enc = true) (h : Fr w o s) :
    Fr w o (requestI s a1) := by
  rw [requestI]
  repeat' with_reducible first | assumption | apply fr_ite | refine fr_setEnc c_enc ?_ | intro _

theorem fr_encRefresh {w : Part → Bool} {o s : State} {a1 : Nat} {a2 : Bool} (c_enc : w .enc = true) (h : Fr w o s) :
    Fr w o (encRefresh s a1 a2) := by
  rw [encRefresh]
  repeat' with_reducible first
    | assumption | apply fr_ite | apply fr_ite_fst | refine fr_requestI c_enc ?_ | apply fr_foldS | intro _

theorem fr_runRcCapture {w : Part → Bool} {o s : State} {a1 : Cmd} {a2 : List Byte} (c_enc : w .enc = true) (h : Fr w o s) :
    Fr w o (runRcCapture s a1 a2) := by
  rw [runRcCapture]
  repeat' with_reducible first | assumption | refine fr_setEnc c_enc ?_

end Sys2Proof.Machine
end

