-- ==== Sys2Proof/Laws/FrameProjection.lean ====
section
/-!
SUPPORT. What the operations of Machine/Projection.lean leave as it was.
-/

set_option Elab.async false

namespace Sys2Proof.Machine

theorem fr_noteReaders {w : Part → Bool} {o s : State} {a1 : Nat} {a2 : Bool} (c_prj : w .prj = true) (h : Fr w o s) :
    Fr w o (noteReaders s a1 a2) := by
  rw [noteReaders]
  repeat' with_reducible first
    | assumption | apply fr_ite | apply fr_ite_fst | apply fr_ite_snd | intro _ | (dsimp only; split) | refine fr_mk rfl ?_

theorem fr_latchSources {w : Part → Bool} {o s : State} {a1 : Nat} (c_ev : w .ev = true) (c_prj : w .prj = true)
    (c_bgLog : w .bgLog = true) (c_r4 : w (.regs 4) = true) (h : Fr w o s) :
    Fr w o (latchSources s a1).2 := by
  rw [latchSources]
  repeat' with_reducible first
    | assumption | apply fr_ite | apply fr_ite_fst | apply fr_ite_snd | refine fr_raiseEv c_ev c_bgLog c_r4 ?_
    | refine fr_setView c_prj ?_ | apply fr_foldS | intro _

theorem fr_startComposition {w : Part → Bool} {o s : State} {a1 : Nat} (c_ev : w .ev = true) (c_prj : w .prj = true)
    (c_bgLog : w .bgLog = true) (c_r4 : w (.regs 4) = true) (h : Fr w o s) :
    Fr w o (startComposition s a1) := by
  rw [startComposition]
  repeat' with_reducible first
    | assumption | refine fr_rebind c_prj ?_ | refine fr_latchSources c_ev c_prj c_bgLog c_r4 ?_
    | refine fr_noteReaders c_prj ?_ | refine fr_setView c_prj ?_

theorem fr_latestStart {w : Part → Bool} {o s : State} {a1 : Nat} (c_ev : w .ev = true) (c_prj : w .prj = true)
    (c_bgLog : w .bgLog = true) (c_r4 : w (.regs 4) = true) (h : Fr w o s) :
    Fr w o (latestStart s a1) := by
  rw [latestStart.eq_def]
  repeat' with_reducible first
    | assumption | apply fr_ite | refine fr_raiseEv c_ev c_bgLog c_r4 ?_
    | refine fr_startComposition c_ev c_prj c_bgLog c_r4 ?_ | intro _ | split

theorem fr_compositionDone {w : Part → Bool} {o s : State} {a1 : Nat} (c_prj : w .prj = true) (h : Fr w o s) :
    Fr w o (compositionDone s a1) := by
  rw [compositionDone.eq_def]
  repeat' with_reducible first
    | assumption | apply fr_ite | refine fr_noteReaders c_prj ?_ | refine fr_setView c_prj ?_ | intro _ | split
    | (dsimp only; split)

theorem fr_composeLatitude {w : Part → Bool} {o s : State} {a1 : Nat} {a2 : Nat} (c_ev : w .ev = true)
    (c_prj : w .prj = true) (c_bgLog : w .bgLog = true) (c_r4 : w (.regs 4) = true) (h : Fr w o s) :
    Fr w o (composeLatitude s a1 a2) := by
  rw [composeLatitude]
  repeat' with_reducible first
    | assumption | apply fr_ite | apply fr_ite_fst | apply fr_ite_snd | refine fr_rebind c_prj ?_
    | refine fr_startComposition c_ev c_prj c_bgLog c_r4 ?_ | refine fr_setView c_prj ?_ | refine fr_noteReaders c_prj ?_
    | intro _

theorem fr_startSheets {w : Part → Bool} {o s : State} {a1 : Nat} {a2 : Nat} {a3 : Nat} {a4 : Bool} {a5 : Option Canvas}
    {a6 : Bool} (c_prj : w .prj = true) (c_scr : w .scr = true) (c_enc : w .enc = true) (h : Fr w o s) :
    Fr w o (startSheets s a1 a2 a3 a4 a5 a6) := by
  rw [startSheets]
  repeat' with_reducible first
    | assumption | apply fr_ite | apply fr_ite_fst | apply fr_ite_snd | refine fr_setEnc c_enc ?_
    | refine fr_setPics c_prj ?_ | refine fr_makeReady c_scr ?_ | apply fr_foldS | intro _ | split | (dsimp only; split)

theorem fr_keepMeans {w : Part → Bool} {o s : State} {a1 : Nat} {a2 : Nat} {a3 : List Nat} {a4 : Nat}
    (c_prj : w .prj = true) (h : Fr w o s) :
    Fr w o (keepMeans s a1 a2 a3 a4) := by
  rw [keepMeans]
  repeat' with_reducible first
    | assumption | apply fr_ite | apply fr_ite_fst | intro _ | (dsimp only; split) | refine fr_mk rfl ?_

theorem fr_measureDose {w : Part → Bool} {o s : State} {a1 : Nat} {a2 : SheetPic} {a3 : List Nat} (c_ev : w .ev = true)
    (c_prj : w .prj = true) (c_bgLog : w .bgLog = true) (c_bg : w .bg = true) (c_r4 : w (.regs 4) = true) (h : Fr w o s) :
    Fr w o (measureDose s a1 a2 a3) := by
  rw [measureDose]
  repeat' with_reducible first
    | assumption | apply fr_ite | apply fr_ite_fst | apply fr_ite_snd | refine fr_keepMeans c_prj ?_
    | refine fr_sheetEvent c_ev c_bgLog c_r4 ?_ | intro _ | (dsimp only; split) | refine fr_mk rfl ?_

theorem fr_stageBand {w : Part → Bool} {o s : State} {a1 : Nat} {a2 : SheetPic} {a3 : List (List Pix)} (c_ev : w .ev = true)
    (c_prj : w .prj = true) (c_bgLog : w .bgLog = true) (c_bg : w .bg = true) (c_r4 : w (.regs 4) = true) (h : Fr w o s) :
    Fr w o (stageBand s a1 a2 a3).1 := by
  rw [stageBand]
  repeat' with_reducible first
    | assumption | apply fr_ite | apply fr_ite_fst | apply fr_ite_snd | refine fr_setHeadPic c_prj ?_
    | refine fr_measureDose c_ev c_prj c_bgLog c_bg c_r4 ?_ | intro _ | split | (dsimp only; split) | refine fr_mk rfl ?_

theorem fr_frameBand {w : Part → Bool} {o s : State} {a1 : Nat} {a2 : List (List Pix)} (c_ev : w .ev = true)
    (c_prj : w .prj = true) (c_sw : w .sw = true) (c_tm : w .tm = true) (c_bgLog : w .bgLog = true)
    (c_r4 : w (.regs 4) = true) (c_r10 : w (.regs 10) = true) (c_r11 : w (.regs 11) = true) (h : Fr w o s) :
    Fr w o (frameBand s a1 a2) := by
  rw [frameBand.eq_def]
  repeat' with_reducible first
    | assumption | apply fr_ite | refine fr_emitUnit c_ev c_sw c_tm c_bgLog c_r4 c_r10 c_r11 ?_
    | refine fr_dropHeadPic c_prj ?_ | refine fr_setHeadPic c_prj ?_ | intro _ | split | (dsimp only; split)
    | refine fr_mk rfl ?_

theorem fr_markBand {w : Part → Bool} {o s : State} {a1 : Nat} {a2 : List (List Pix)} (c_prj : w .prj = true)
    (c_scr : w .scr = true) (c_enc : w .enc = true) (h : Fr w o s) :
    Fr w o (markBand s a1 a2) := by
  rw [markBand.eq_def]
  repeat' with_reducible first
    | assumption | apply fr_ite | refine fr_setHeadPic c_prj ?_ | refine fr_setEnc c_enc ?_ | refine fr_makeReady c_scr ?_
    | intro _ | split | (dsimp only; split) | refine fr_mk rfl ?_

theorem fr_lateLatitudes {w : Part → Bool} {o s : State} {a1 : SheetPic} {a2 : List Nat} (c_ev : w .ev = true)
    (c_prj : w .prj = true) (c_bgLog : w .bgLog = true) (c_r4 : w (.regs 4) = true) (c_r7 : w (.regs 7) = true)
    (h : Fr w o s) :
    Fr w o (lateLatitudes s a1 a2) := by
  rw [lateLatitudes]
  repeat' with_reducible first
    | assumption | apply fr_ite | refine fr_addF 7 (by decide) c_r7 ?_ | refine fr_addT c_bgLog ?_
    | refine fr_setView c_prj ?_ | refine fr_raiseEv c_ev c_bgLog c_r4 ?_ | apply fr_foldS | intro _

theorem fr_tellLate {w : Part → Bool} {o s : State} {a1 : Nat} (c_ev : w .ev = true) (c_prj : w .prj = true)
    (c_bgLog : w .bgLog = true) (c_r4 : w (.regs 4) = true) (h : Fr w o s) :
    Fr w o (tellLate s a1) := by
  rw [tellLate.eq_def]
  repeat' with_reducible first
    | assumption | apply fr_ite | refine fr_sheetEvent c_ev c_bgLog c_r4 ?_ | refine fr_addT c_bgLog ?_
    | refine fr_setHeadPic c_prj ?_ | intro _ | split | (dsimp only; split) | refine fr_mk rfl ?_

theorem fr_stageLate {w : Part → Bool} {o s : State} {a1 : Nat} {a2 : SheetPic} (c_ev : w .ev = true)
    (c_prj : w .prj = true) (c_bgLog : w .bgLog = true) (c_bg : w .bg = true) (c_r4 : w (.regs 4) = true)
    (c_r7 : w (.regs 7) = true) (h : Fr w o s) :
    Fr w o (stageLate s a1 a2).1 := by
  rw [stageLate]
  repeat' with_reducible first
    | assumption | refine fr_stageBand c_ev c_prj c_bgLog c_bg c_r4 ?_
    | refine fr_lateLatitudes c_ev c_prj c_bgLog c_r4 c_r7 ?_

theorem fr_noteLateRow {w : Part → Bool} {o s : State} {a1 : Nat} {a2 : Nat} {a3 : Bool} (c_ev : w .ev = true)
    (c_prj : w .prj = true) (c_bgLog : w .bgLog = true) (c_r4 : w (.regs 4) = true) (h : Fr w o s) :
    Fr w o (noteLateRow s a1 a2 a3) := by
  rw [noteLateRow.eq_def]
  repeat' with_reducible first
    | assumption | apply fr_ite | refine fr_tellLate c_ev c_prj c_bgLog c_r4 ?_ | refine fr_setHeadPic c_prj ?_ | intro _
    | split | (dsimp only; split) | refine fr_mk rfl ?_

theorem fr_outputBand {w : Part → Bool} {o s : State} {a1 : Nat} (c_ev : w .ev = true) (c_prj : w .prj = true)
    (c_sw : w .sw = true) (c_tm : w .tm = true) (c_scr : w .scr = true) (c_enc : w .enc = true) (c_bgLog : w .bgLog = true)
    (c_bg : w .bg = true) (c_r4 : w (.regs 4) = true) (c_r10 : w (.regs 10) = true) (c_r11 : w (.regs 11) = true)
    (h : Fr w o s) :
    Fr w o (outputBand s a1) := by
  rw [outputBand.eq_def]
  repeat' with_reducible first
    | assumption | apply fr_ite | apply fr_ite_fst | apply fr_ite_snd | refine fr_stageBand c_ev c_prj c_bgLog c_bg c_r4 ?_
    | refine fr_markBand c_prj c_scr c_enc ?_ | refine fr_noteLateRow c_ev c_prj c_bgLog c_r4 ?_
    | refine fr_frameBand c_ev c_prj c_sw c_tm c_bgLog c_r4 c_r10 c_r11 ?_ | intro _ | split | (dsimp only; split)

theorem fr_outputBands {w : Part → Bool} {o s : State} {a1 : Nat} {a2 : Nat} (c_ev : w .ev = true) (c_prj : w .prj = true)
    (c_sw : w .sw = true) (c_tm : w .tm = true) (c_scr : w .scr = true) (c_enc : w .enc = true) (c_bgLog : w .bgLog = true)
    (c_bg : w .bg = true) (c_r4 : w (.regs 4) = true) (c_r10 : w (.regs 10) = true) (c_r11 : w (.regs 11) = true)
    (h : Fr w o s) :
    Fr w o (outputBands s a1 a2) := by
  induction a2 generalizing s a1 with
  | zero => exact h
  | succ k ih =>
    rw [outputBands]
    repeat' with_reducible first
      | assumption | apply ih | refine fr_outputBand c_ev c_prj c_sw c_tm c_scr c_enc c_bgLog c_bg c_r4 c_r10 c_r11 ?_

theorem fr_sheetOutput {w : Part → Bool} {o s : State} {a1 : Nat} (c_ev : w .ev = true) (c_prj : w .prj = true)
    (c_sw : w .sw = true) (c_tm : w .tm = true) (c_scr : w .scr = true) (c_enc : w .enc = true) (c_bgLog : w .bgLog = true)
    (c_bg : w .bg = true) (c_r4 : w (.regs 4) = true) (c_r10 : w (.regs 10) = true) (c_r11 : w (.regs 11) = true)
    (h : Fr w o s) :
    Fr w o (sheetOutput s a1) := by
  rw [sheetOutput.eq_def]
  repeat' with_reducible first
    | assumption | refine fr_outputBands c_ev c_prj c_sw c_tm c_scr c_enc c_bgLog c_bg c_r4 c_r10 c_r11 ?_ | split
    | (dsimp only; split)

theorem fr_forceRaw {w : Part → Bool} {o s : State} {a1 : Nat} {a2 : SheetPic} (c_ev : w .ev = true) (c_prj : w .prj = true)
    (c_sw : w .sw = true) (c_tm : w .tm = true) (c_bgLog : w .bgLog = true) (c_bg : w .bg = true)
    (c_r4 : w (.regs 4) = true) (c_r7 : w (.regs 7) = true) (c_r10 : w (.regs 10) = true) (c_r11 : w (.regs 11) = true)
    (h : Fr w o s) :
    Fr w o (forceRaw s a1 a2) := by
  rw [forceRaw]
  repeat' with_reducible first
    | assumption | refine fr_stageLate c_ev c_prj c_bgLog c_bg c_r4 c_r7 ?_
    | refine fr_frameBand c_ev c_prj c_sw c_tm c_bgLog c_r4 c_r10 c_r11 ?_ | refine fr_tellLate c_ev c_prj c_bgLog c_r4 ?_

theorem fr_lateCellRow {w : Part → Bool} {o s : State} {a1 : Nat} {a2 : SheetPic} (c_freeCtr : w .freeCtr = true)
    (c_wire : w .wire = true) (c_host : w .host = true) (c_hif : w .hif = true) (c_ev : w .ev = true)
    (c_prj : w .prj = true) (c_sw : w .sw = true) (c_tm : w .tm = true) (c_scr : w .scr = true) (c_enc : w .enc = true)
    (c_bgLog : w .bgLog = true) (c_bg : w .bg = true) (c_pins : w .pins = true) (c_r3 : w (.regs 3) = true)
    (c_r4 : w (.regs 4) = true) (c_r6 : w (.regs 6) = true) (c_r7 : w (.regs 7) = true) (c_r10 : w (.regs 10) = true)
    (c_r11 : w (.regs 11) = true) (h : Fr w o s) :
    Fr w o (lateCellRow s a1 a2) := by
  rw [lateCellRow]
  repeat' with_reducible first
    | assumption | refine fr_stageLate c_ev c_prj c_bgLog c_bg c_r4 c_r7 ?_
    | refine fr_repeatSheetRow c_freeCtr c_wire c_host c_hif c_ev c_prj c_sw c_tm c_scr c_enc c_bgLog c_pins c_r3 c_r4 c_r6 c_r10 c_r11 ?_
    | refine fr_noteLateRow c_ev c_prj c_bgLog c_r4 ?_ | refine fr_markBand c_prj c_scr c_enc ?_

theorem fr_missedCellRow {w : Part → Bool} {o s : State} {a1 : Nat} {a2 : SheetPic} (c_freeCtr : w .freeCtr = true)
    (c_wire : w .wire = true) (c_host : w .host = true) (c_hif : w .hif = true) (c_ev : w .ev = true)
    (c_prj : w .prj = true) (c_sw : w .sw = true) (c_tm : w .tm = true) (c_scr : w .scr = true) (c_enc : w .enc = true)
    (c_bgLog : w .bgLog = true) (c_pins : w .pins = true) (c_r3 : w (.regs 3) = true) (c_r4 : w (.regs 4) = true)
    (c_r6 : w (.regs 6) = true) (c_r10 : w (.regs 10) = true) (c_r11 : w (.regs 11) = true) (h : Fr w o s) :
    Fr w o (missedCellRow s a1 a2) := by
  rw [missedCellRow]
  repeat' with_reducible first
    | assumption | apply fr_ite | refine fr_addF 6 (by decide) c_r6 ?_ | refine fr_addT c_bgLog ?_
    | refine fr_sheetEvent c_ev c_bgLog c_r4 ?_ | refine fr_setHeadPic c_prj ?_
    | refine fr_repeatSheetRow c_freeCtr c_wire c_host c_hif c_ev c_prj c_sw c_tm c_scr c_enc c_bgLog c_pins c_r3 c_r4 c_r6 c_r10 c_r11 ?_
    | refine fr_tellLate c_ev c_prj c_bgLog c_r4 ?_ | intro _ | split | (dsimp only; split) | refine fr_mk rfl ?_

theorem fr_forceCellRow {w : Part → Bool} {o s : State} {a1 : Nat} {a2 : Nat} (c_freeCtr : w .freeCtr = true)
    (c_wire : w .wire = true) (c_host : w .host = true) (c_hif : w .hif = true) (c_ev : w .ev = true)
    (c_prj : w .prj = true) (c_sw : w .sw = true) (c_tm : w .tm = true) (c_scr : w .scr = true) (c_enc : w .enc = true)
    (c_bgLog : w .bgLog = true) (c_bg : w .bg = true) (c_pins : w .pins = true) (c_r3 : w (.regs 3) = true)
    (c_r4 : w (.regs 4) = true) (c_r6 : w (.regs 6) = true) (c_r7 : w (.regs 7) = true) (c_r10 : w (.regs 10) = true)
    (c_r11 : w (.regs 11) = true) (h : Fr w o s) :
    Fr w o (forceCellRow s a1 a2) := by
  rw [forceCellRow.eq_def]
  repeat' with_reducible first
    | assumption | apply fr_ite
    | refine fr_repeatSheetRow c_freeCtr c_wire c_host c_hif c_ev c_prj c_sw c_tm c_scr c_enc c_bgLog c_pins c_r3 c_r4 c_r6 c_r10 c_r11 ?_
    | refine fr_missedCellRow c_freeCtr c_wire c_host c_hif c_ev c_prj c_sw c_tm c_scr c_enc c_bgLog c_pins c_r3 c_r4 c_r6 c_r10 c_r11 ?_
    | refine fr_lateCellRow c_freeCtr c_wire c_host c_hif c_ev c_prj c_sw c_tm c_scr c_enc c_bgLog c_bg c_pins c_r3 c_r4 c_r6 c_r7 c_r10 c_r11 ?_
    | intro _ | split | (dsimp only; split)

theorem fr_forceCellRows {w : Part → Bool} {o s : State} {a1 : Nat} {a2 : Nat} {a3 : Nat} (c_freeCtr : w .freeCtr = true)
    (c_wire : w .wire = true) (c_host : w .host = true) (c_hif : w .hif = true) (c_ev : w .ev = true)
    (c_prj : w .prj = true) (c_sw : w .sw = true) (c_tm : w .tm = true) (c_scr : w .scr = true) (c_enc : w .enc = true)
    (c_bgLog : w .bgLog = true) (c_bg : w .bg = true) (c_pins : w .pins = true) (c_r3 : w (.regs 3) = true)
    (c_r4 : w (.regs 4) = true) (c_r6 : w (.regs 6) = true) (c_r7 : w (.regs 7) = true) (c_r10 : w (.regs 10) = true)
    (c_r11 : w (.regs 11) = true) (h : Fr w o s) :
    Fr w o (forceCellRows s a1 a2 a3) := by
  induction a3 generalizing s a1 a2 with
  | zero => exact h
  | succ k ih =>
    rw [forceCellRows]
    repeat' with_reducible first
      | assumption | apply ih
      | refine fr_forceCellRow c_freeCtr c_wire c_host c_hif c_ev c_prj c_sw c_tm c_scr c_enc c_bgLog c_bg c_pins c_r3 c_r4 c_r6 c_r7 c_r10 c_r11 ?_

theorem fr_forceBands {w : Part → Bool} {o s : State} {a1 : Nat} {a2 : Nat} {a3 : Nat} (c_ev : w .ev = true)
    (c_prj : w .prj = true) (c_sw : w .sw = true) (c_tm : w .tm = true) (c_bgLog : w .bgLog = true) (c_bg : w .bg = true)
    (c_r4 : w (.regs 4) = true) (c_r7 : w (.regs 7) = true) (c_r10 : w (.regs 10) = true) (c_r11 : w (.regs 11) = true)
    (h : Fr w o s) :
    Fr w o (forceBands s a1 a2 a3) := by
  induction a3 generalizing s a1 a2 with
  | zero => exact h
  | succ k ih =>
    rw [forceBands]
    repeat' with_reducible first
      | assumption | apply fr_ite | apply ih | refine fr_forceRaw c_ev c_prj c_sw c_tm c_bgLog c_bg c_r4 c_r7 c_r10 c_r11 ?_
      | intro _ | split | (dsimp only; split)

theorem fr_emissionInstant {w : Part → Bool} {o s : State} {a1 : Nat} {a2 : Nat} (c_freeCtr : w .freeCtr = true)
    (c_wire : w .wire = true) (c_host : w .host = true) (c_hif : w .hif = true) (c_ev : w .ev = true)
    (c_prj : w .prj = true) (c_sw : w .sw = true) (c_tm : w .tm = true) (c_scr : w .scr = true) (c_enc : w .enc = true)
    (c_bgLog : w .bgLog = true) (c_bg : w .bg = true) (c_pins : w .pins = true) (c_r3 : w (.regs 3) = true)
    (c_r4 : w (.regs 4) = true) (c_r6 : w (.regs 6) = true) (c_r7 : w (.regs 7) = true) (c_r10 : w (.regs 10) = true)
    (c_r11 : w (.regs 11) = true) (h : Fr w o s) :
    Fr w o (emissionInstant s a1 a2) := by
  rw [emissionInstant.eq_def]
  repeat' with_reducible first
    | assumption | apply fr_ite | refine fr_startEncode c_enc ?_
    | refine fr_forceCellRows c_freeCtr c_wire c_host c_hif c_ev c_prj c_sw c_tm c_scr c_enc c_bgLog c_bg c_pins c_r3 c_r4 c_r6 c_r7 c_r10 c_r11 ?_
    | refine fr_forceBands c_ev c_prj c_sw c_tm c_bgLog c_bg c_r4 c_r7 c_r10 c_r11 ?_ | intro _ | split

theorem fr_codeCellRow {w : Part → Bool} {o s : State} {a1 : Nat} {a2 : Nat} {a3 : Bool} (c_freeCtr : w .freeCtr = true)
    (c_wire : w .wire = true) (c_host : w .host = true) (c_hif : w .hif = true) (c_ev : w .ev = true)
    (c_prj : w .prj = true) (c_sw : w .sw = true) (c_tm : w .tm = true) (c_scr : w .scr = true) (c_enc : w .enc = true)
    (c_bgLog : w .bgLog = true) (c_bg : w .bg = true) (c_pins : w .pins = true) (c_r3 : w (.regs 3) = true)
    (c_r4 : w (.regs 4) = true) (c_r6 : w (.regs 6) = true) (c_r7 : w (.regs 7) = true) (c_r10 : w (.regs 10) = true)
    (c_r11 : w (.regs 11) = true) (h : Fr w o s) :
    Fr w o (codeCellRow s a1 a2 a3) := by
  rw [codeCellRow.eq_def]
  repeat' with_reducible first
    | assumption | apply fr_ite | refine fr_setCoreState c_r6 ?_
    | refine fr_repeatSheetRow c_freeCtr c_wire c_host c_hif c_ev c_prj c_sw c_tm c_scr c_enc c_bgLog c_pins c_r3 c_r4 c_r6 c_r10 c_r11 ?_
    | refine fr_closeEarly c_ev c_scr c_enc c_bgLog c_r4 ?_
    | refine fr_codeMarkedRow c_wire c_host c_hif c_ev c_prj c_sw c_tm c_scr c_enc c_bgLog c_pins c_r3 c_r4 c_r6 c_r10 c_r11 ?_
    | refine fr_lateCellRow c_freeCtr c_wire c_host c_hif c_ev c_prj c_sw c_tm c_scr c_enc c_bgLog c_bg c_pins c_r3 c_r4 c_r6 c_r7 c_r10 c_r11 ?_
    | intro _ | split | (dsimp only; split)

theorem fr_tellNoDelay {w : Part → Bool} {o s : State} {a1 : Nat} {a2 : Nat} (c_ev : w .ev = true) (c_sht : w .sht = true)
    (c_bgLog : w .bgLog = true) (c_r4 : w (.regs 4) = true) (h : Fr w o s) :
    Fr w o (tellNoDelay s a1 a2) := by
  rw [tellNoDelay]
  repeat' with_reducible first
    | assumption | apply fr_ite | refine fr_raiseEv c_ev c_bgLog c_r4 ?_ | intro _ | (dsimp only; split)
    | refine fr_mk rfl ?_

theorem fr_preparePresents {w : Part → Bool} {o s : State} {a1 : Sched} {a2 : Nat} {a3 : Nat} (c_ev : w .ev = true)
    (c_sht : w .sht = true) (c_bgLog : w .bgLog = true) (c_r4 : w (.regs 4) = true) (h : Fr w o s) :
    Fr w o (preparePresents s a1 a2 a3) := by
  rw [preparePresents]
  repeat' with_reducible first
    | assumption | apply fr_ite | apply fr_ite_snd | refine fr_tellNoDelay c_ev c_sht c_bgLog c_r4 ?_ | apply fr_foldS
    | intro _ | split | (dsimp only; split) | refine fr_mk rfl ?_

theorem fr_endPicture {w : Part → Bool} {o s : State} {a1 : Nat} (c_ev : w .ev = true) (c_prj : w .prj = true)
    (c_sht : w .sht = true) (c_scr : w .scr = true) (c_enc : w .enc = true) (c_bgLog : w .bgLog = true)
    (c_r4 : w (.regs 4) = true) (c_r7 : w (.regs 7) = true) (h : Fr w o s) :
    Fr w o (endPicture s a1) := by
  rw [endPicture]
  repeat' with_reducible first
    | assumption | apply fr_ite | apply fr_ite_fst | apply fr_ite_snd | refine fr_addF 7 (by decide) c_r7 ?_
    | refine fr_setPics c_prj ?_ | refine fr_setView c_prj ?_ | refine fr_startSheets c_prj c_scr c_enc ?_
    | refine fr_raiseEv c_ev c_bgLog c_r4 ?_ | apply fr_foldS | intro _ | (dsimp only; split) | refine fr_mk rfl ?_

theorem fr_beginPicture {w : Part → Bool} {o s : State} {a1 : Sched} {a2 : Nat} {a3 : Nat} (c_ev : w .ev = true)
    (c_prj : w .prj = true) (c_sht : w .sht = true) (c_scr : w .scr = true) (c_enc : w .enc = true)
    (c_bgLog : w .bgLog = true) (c_r4 : w (.regs 4) = true) (c_r7 : w (.regs 7) = true) (h : Fr w o s) :
    Fr w o (beginPicture s a1 a2 a3) := by
  rw [beginPicture]
  repeat' with_reducible first
    | assumption | apply fr_ite | apply fr_ite_fst | apply fr_ite_snd | refine fr_setF 7 (by decide) c_r7 ?_
    | refine fr_setView c_prj ?_ | refine fr_rebind c_prj ?_ | refine fr_preparePresents c_ev c_sht c_bgLog c_r4 ?_
    | refine fr_startSheets c_prj c_scr c_enc ?_ | intro _

theorem fr_ownTrigger {w : Part → Bool} {o s : State} {a1 : Nat} {a2 : Nat} {a3 : Nat} {a4 : Nat} {a5 : Nat} {a6 : Nat}
    (c_mer : w .mer = true) (c_r9 : w (.regs 9) = true) (h : Fr w o s) :
    Fr w o (ownTrigger s a1 a2 a3 a4 a5 a6) := by
  rw [ownTrigger]
  repeat' with_reducible first | assumption | refine fr_setF 9 (by decide) c_r9 ?_ | refine fr_mk rfl ?_

theorem fr_releaseTrigger {w : Part → Bool} {o s : State} {a1 : Nat} (c_mer : w .mer = true) (c_r9 : w (.regs 9) = true)
    (h : Fr w o s) :
    Fr w o (releaseTrigger s a1) := by
  rw [releaseTrigger]
  repeat' with_reducible first | assumption | refine fr_setF 9 (by decide) c_r9 ?_ | refine fr_mk rfl ?_

theorem fr_ownTriggers {w : Part → Bool} {o s : State} {a1 : Sched} (c_mer : w .mer = true) (c_r9 : w (.regs 9) = true)
    (h : Fr w o s) :
    Fr w o (ownTriggers s a1) := by
  rw [ownTriggers]
  repeat' with_reducible first
    | assumption | apply fr_ite | refine fr_ownTrigger c_mer c_r9 ?_ | refine fr_releaseTrigger c_mer c_r9 ?_
    | apply fr_foldS | intro _ | split

theorem fr_switchSchedule {w : Part → Bool} {o s : State} (c_wire : w .wire = true) (c_host : w .host = true)
    (c_hif : w .hif = true) (c_ev : w .ev = true) (c_mer : w .mer = true) (c_prj : w .prj = true) (c_sht : w .sht = true)
    (c_enc : w .enc = true) (c_bgLog : w .bgLog = true) (c_pins : w .pins = true) (c_r3 : w (.regs 3) = true)
    (c_r4 : w (.regs 4) = true) (c_r6 : w (.regs 6) = true) (c_r7 : w (.regs 7) = true) (c_r8 : w (.regs 8) = true)
    (c_r9 : w (.regs 9) = true) (h : Fr w o s) :
    Fr w o (switchSchedule s) := by
  rw [switchSchedule.eq_def]
  repeat' with_reducible first
    | assumption | refine fr_setF 8 (by decide) c_r8 ?_ | refine fr_ownTriggers c_mer c_r9 ?_
    | refine fr_settleEdits c_wire c_host c_hif c_ev c_prj c_enc c_bgLog c_pins c_r3 c_r4 c_r6 c_r7 ?_
    | refine fr_setView c_prj ?_ | apply fr_foldS | intro _ | (dsimp only; split) | refine fr_mk rfl ?_

theorem fr_viewBoundary {w : Part → Bool} {o s : State} {a1 : Nat} {a2 : Nat} (c_wire : w .wire = true)
    (c_host : w .host = true) (c_hif : w .hif = true) (c_ev : w .ev = true) (c_prj : w .prj = true) (c_sht : w .sht = true)
    (c_scr : w .scr = true) (c_enc : w .enc = true) (c_bgLog : w .bgLog = true) (c_pins : w .pins = true)
    (c_r3 : w (.regs 3) = true) (c_r4 : w (.regs 4) = true) (c_r6 : w (.regs 6) = true) (c_r7 : w (.regs 7) = true)
    (h : Fr w o s) :
    Fr w o (viewBoundary s a1 a2) := by
  rw [viewBoundary.eq_def]
  repeat' with_reducible first
    | assumption | refine fr_noteReaders c_prj ?_ | refine fr_endPicture c_ev c_prj c_sht c_scr c_enc c_bgLog c_r4 c_r7 ?_
    | refine fr_applyEdits c_wire c_host c_hif c_ev c_prj c_enc c_bgLog c_pins c_r3 c_r4 c_r6 c_r7 ?_
    | refine fr_beginPicture c_ev c_prj c_sht c_scr c_enc c_bgLog c_r4 c_r7 ?_ | split

theorem fr_stopSchedule {w : Part → Bool} {o s : State} (c_wire : w .wire = true) (c_host : w .host = true)
    (c_hif : w .hif = true) (c_ev : w .ev = true) (c_mer : w .mer = true) (c_prj : w .prj = true)
    (c_ports : w .ports = true) (c_sht : w .sht = true) (c_enc : w .enc = true) (c_bgLog : w .bgLog = true)
    (c_pins : w .pins = true) (c_r3 : w (.regs 3) = true) (c_r4 : w (.regs 4) = true) (c_r6 : w (.regs 6) = true)
    (c_r7 : w (.regs 7) = true) (c_r8 : w (.regs 8) = true) (c_r9 : w (.regs 9) = true) (h : Fr w o s) :
    Fr w o (stopSchedule s) := by
  rw [stopSchedule]
  repeat' with_reducible first
    | assumption | refine fr_setF 8 (by decide) c_r8 ?_ | refine fr_setView c_prj ?_
    | refine fr_releaseTrigger c_mer c_r9 ?_
    | refine fr_settleEdits c_wire c_host c_hif c_ev c_prj c_enc c_bgLog c_pins c_r3 c_r4 c_r6 c_r7 ?_
    | refine fr_completeId c_wire c_host c_hif c_ev c_bgLog c_pins c_r3 c_r4 ?_ | apply fr_foldS | intro _
    | refine fr_mk rfl ?_

end Sys2Proof.Machine
end

