-- ==== Sys2Proof/Laws/FrameRollCall.lean ====
section
/-!
SUPPORT. What the operations of Machine/RollCall.lean leave as it was.
-/

set_option Elab.async false

namespace Sys2Proof.Machine

theorem fr_showChain {w : Part → Bool} {o s : State} {a1 : Nat} (c_r8 : w (.regs 8) = true) (h : Fr w o s) :
    Fr w o (showChain s a1) := by
  rw [showChain]
  repeat' with_reducible first
    | assumption | apply fr_ite | apply fr_ite_fst | apply fr_ite_snd | refine fr_setF 8 (by decide) c_r8 ?_
    | apply fr_foldl | apply fr_foldl_fst | apply fr_foldl_snd | intro _

theorem fr_wallLoad {w : Part → Bool} {o s : State} (c_r15 : w (.regs 15) = true) (h : Fr w o s) :
    Fr w o (wallLoad s) := by
  rw [wallLoad]
  repeat' with_reducible first | assumption | refine fr_setF 15 (by decide) c_r15 ?_ | intro _

theorem fr_setRollcall {w : Part → Bool} {o s : State} {a1 : Nat} {a2 : Option RollCall} (c_sht : w .sht = true)
    (h : Fr w o s) :
    Fr w o (setRollcall s a1 a2) := by
  rw [setRollcall]
  repeat' with_reducible first | assumption | refine fr_mk rfl ?_

theorem fr_setPush {w : Part → Bool} {o s : State} {a1 : Nat} {a2 : Option Push} (c_sht : w .sht = true) (h : Fr w o s) :
    Fr w o (setPush s a1 a2) := by
  rw [setPush]
  repeat' with_reducible first | assumption | refine fr_mk rfl ?_

theorem fr_sendRollcall {w : Part → Bool} {o s : State} {a1 : Nat} {a2 : Nat} {a3 : Option Nat} (c_ev : w .ev = true)
    (c_sw : w .sw = true) (c_tm : w .tm = true) (c_sht : w .sht = true) (c_bgLog : w .bgLog = true)
    (c_r4 : w (.regs 4) = true) (c_r10 : w (.regs 10) = true) (c_r11 : w (.regs 11) = true) (h : Fr w o s) :
    Fr w o (sendRollcall s a1 a2 a3) := by
  rw [sendRollcall]
  repeat' with_reducible first
    | assumption | refine fr_setRollcall c_sht ?_ | refine fr_sendFrame c_ev c_sw c_tm c_bgLog c_r4 c_r10 c_r11 ?_
    | refine fr_mk rfl ?_

theorem fr_clearChain {w : Part → Bool} {o s : State} {a1 : Nat} (c_sht : w .sht = true) (c_r8 : w (.regs 8) = true)
    (c_r15 : w (.regs 15) = true) (h : Fr w o s) :
    Fr w o (clearChain s a1) := by
  rw [clearChain]
  repeat' with_reducible first
    | assumption | apply fr_ite | refine fr_setF 8 (by decide) c_r8 ?_ | refine fr_wallLoad c_r15 ?_
    | refine fr_showChain c_r8 ?_ | apply fr_foldS | intro _ | (dsimp only; split) | refine fr_mk rfl ?_

theorem fr_sendPush {w : Part → Bool} {o s : State} {a1 : Nat} {a2 : Nat} {a3 : Nat} {a4 : List Byte} (c_ev : w .ev = true)
    (c_sw : w .sw = true) (c_tm : w .tm = true) (c_bgLog : w .bgLog = true) (c_r4 : w (.regs 4) = true)
    (c_r10 : w (.regs 10) = true) (c_r11 : w (.regs 11) = true) (h : Fr w o s) :
    Fr w o (sendPush s a1 a2 a3 a4) := by
  rw [sendPush]
  repeat' with_reducible first
    | assumption | apply fr_ite | apply fr_ite_fst | apply fr_ite_snd
    | refine fr_sendFrame c_ev c_sw c_tm c_bgLog c_r4 c_r10 c_r11 ?_ | apply fr_foldl | apply fr_foldl_fst
    | apply fr_foldl_snd | intro _

theorem fr_runRollcall {w : Part → Bool} {o s : State} {a1 : Cmd} {a2 : List Byte} (c_wire : w .wire = true)
    (c_host : w .host = true) (c_hif : w .hif = true) (c_ev : w .ev = true) (c_sw : w .sw = true) (c_tm : w .tm = true)
    (c_sht : w .sht = true) (c_bgLog : w .bgLog = true) (c_pins : w .pins = true) (c_r3 : w (.regs 3) = true)
    (c_r4 : w (.regs 4) = true) (c_r8 : w (.regs 8) = true) (c_r10 : w (.regs 10) = true) (c_r11 : w (.regs 11) = true)
    (c_r15 : w (.regs 15) = true) (h : Fr w o s) :
    Fr w o (runRollcall s a1 a2) := by
  rw [runRollcall]
  repeat' with_reducible first
    | assumption | apply fr_ite | refine fr_complete c_wire c_host c_hif c_ev c_bgLog c_pins c_r3 c_r4 ?_
    | refine fr_sendPush c_ev c_sw c_tm c_bgLog c_r4 c_r10 c_r11 ?_ | refine fr_setPush c_sht ?_
    | refine fr_completeId c_wire c_host c_hif c_ev c_bgLog c_pins c_r3 c_r4 ?_
    | refine fr_sendRollcall c_ev c_sw c_tm c_sht c_bgLog c_r4 c_r10 c_r11 ?_ | refine fr_clearChain c_sht c_r8 c_r15 ?_
    | intro _ | split

theorem fr_replyInvalid {w : Part → Bool} {o s : State} {a1 : Nat} {a2 : Nat} (c_ev : w .ev = true)
    (c_bgLog : w .bgLog = true) (c_r4 : w (.regs 4) = true) (c_r8 : w (.regs 8) = true) (h : Fr w o s) :
    Fr w o (replyInvalid s a1 a2) := by
  rw [replyInvalid]
  repeat' with_reducible first
    | assumption | refine fr_addF 8 (by decide) c_r8 ?_ | refine fr_raiseEv c_ev c_bgLog c_r4 ?_

theorem fr_writeDelay {w : Part → Bool} {o s : State} {a1 : Nat} {a2 : Nat} {a3 : Nat} {a4 : Nat} (c_ev : w .ev = true)
    (c_bgLog : w .bgLog = true) (c_r4 : w (.regs 4) = true) (c_r8 : w (.regs 8) = true) (h : Fr w o s) :
    Fr w o (writeDelay s a1 a2 a3 a4) := by
  rw [writeDelay]
  repeat' with_reducible first
    | assumption | apply fr_ite | refine fr_setF 8 (by decide) c_r8 ?_ | refine fr_raiseEv c_ev c_bgLog c_r4 ?_ | intro _

theorem fr_restoreHop {w : Part → Bool} {o s : State} {a1 : Nat} {a2 : Nat} {a3 : RollCall} (c_sht : w .sht = true)
    (c_r8 : w (.regs 8) = true) (h : Fr w o s) :
    Fr w o (restoreHop s a1 a2 a3) := by
  rw [restoreHop.eq_def]
  repeat' with_reducible first
    | assumption | refine fr_setF 8 (by decide) c_r8 ?_ | refine fr_showChain c_r8 ?_ | (dsimp only; split)
    | refine fr_mk rfl ?_

theorem fr_countAnswers {w : Part → Bool} {o s : State} {a1 : Nat} {a2 : RollCall} (c_r8 : w (.regs 8) = true)
    (h : Fr w o s) :
    Fr w o (countAnswers s a1 a2) := by
  rw [countAnswers]
  repeat' with_reducible first | assumption | apply fr_ite | refine fr_setF 8 (by decide) c_r8 ?_ | intro _

theorem fr_takeResponse {w : Part → Bool} {o s : State} {a1 : Nat} {a2 : RollCall} {a3 : Nat} {a4 : List Byte}
    (c_ev : w .ev = true) (c_sht : w .sht = true) (c_bgLog : w .bgLog = true) (c_r4 : w (.regs 4) = true)
    (c_r8 : w (.regs 8) = true) (h : Fr w o s) :
    Fr w o (takeResponse s a1 a2 a3 a4) := by
  rw [takeResponse]
  repeat' with_reducible first
    | assumption | apply fr_ite | refine fr_setRollcall c_sht ?_ | refine fr_countAnswers c_r8 ?_
    | refine fr_showChain c_r8 ?_ | refine fr_writeDelay c_ev c_bgLog c_r4 c_r8 ?_ | refine fr_raiseEv c_ev c_bgLog c_r4 ?_
    | intro _ | split | (dsimp only; split) | refine fr_mk rfl ?_

theorem fr_discardHop {w : Part → Bool} {o s : State} {a1 : Nat} {a2 : Nat} {a3 : RollCall} (c_ev : w .ev = true)
    (c_sht : w .sht = true) (c_bgLog : w .bgLog = true) (c_r4 : w (.regs 4) = true) (c_r8 : w (.regs 8) = true)
    (h : Fr w o s) :
    Fr w o (discardHop s a1 a2 a3) := by
  rw [discardHop]
  repeat' with_reducible first
    | assumption | refine fr_restoreHop c_sht c_r8 ?_ | refine fr_replyInvalid c_ev c_bgLog c_r4 c_r8 ?_
    | refine fr_countAnswers c_r8 ?_ | refine fr_setRollcall c_sht ?_

theorem fr_calAck {w : Part → Bool} {o s : State} {a1 : Nat} {a2 : List Byte} {a3 : List Byte} (c_wire : w .wire = true)
    (c_host : w .host = true) (c_hif : w .hif = true) (c_ev : w .ev = true) (c_sht : w .sht = true)
    (c_bgLog : w .bgLog = true) (c_pins : w .pins = true) (c_r3 : w (.regs 3) = true) (c_r4 : w (.regs 4) = true)
    (c_r8 : w (.regs 8) = true) (h : Fr w o s) :
    Fr w o (calAck s a1 a2 a3) := by
  rw [calAck.eq_def]
  repeat' with_reducible first
    | assumption | apply fr_ite | refine fr_replyInvalid c_ev c_bgLog c_r4 c_r8 ?_
    | refine fr_completeId c_wire c_host c_hif c_ev c_bgLog c_pins c_r3 c_r4 ?_ | refine fr_setPush c_sht ?_ | intro _
    | split

theorem fr_rollcallRsp {w : Part → Bool} {o s : State} {a1 : Nat} {a2 : List Byte} (c_wire : w .wire = true)
    (c_host : w .host = true) (c_hif : w .hif = true) (c_ev : w .ev = true) (c_sht : w .sht = true)
    (c_bgLog : w .bgLog = true) (c_pins : w .pins = true) (c_r3 : w (.regs 3) = true) (c_r4 : w (.regs 4) = true)
    (c_r8 : w (.regs 8) = true) (h : Fr w o s) :
    Fr w o (rollcallRsp s a1 a2) := by
  rw [rollcallRsp]
  repeat' with_reducible first
    | assumption | apply fr_ite | refine fr_calAck c_wire c_host c_hif c_ev c_sht c_bgLog c_pins c_r3 c_r4 c_r8 ?_
    | refine fr_replyInvalid c_ev c_bgLog c_r4 c_r8 ?_ | refine fr_discardHop c_ev c_sht c_bgLog c_r4 c_r8 ?_
    | refine fr_takeResponse c_ev c_sht c_bgLog c_r4 c_r8 ?_ | intro _ | split | (dsimp only; split)

theorem fr_nackRefresh {w : Part → Bool} {o s : State} {a1 : Nat} (c_sht : w .sht = true) (c_enc : w .enc = true)
    (h : Fr w o s) :
    Fr w o (nackRefresh s a1) := by
  rw [nackRefresh]
  repeat' with_reducible first
    | assumption | apply fr_ite | refine fr_requestI c_enc ?_ | intro _ | (dsimp only; split) | refine fr_mk rfl ?_

theorem fr_nackReport {w : Part → Bool} {o s : State} {a1 : Nat} {a2 : List Byte} (c_ev : w .ev = true)
    (c_sht : w .sht = true) (c_enc : w .enc = true) (c_bgLog : w .bgLog = true) (c_r4 : w (.regs 4) = true)
    (c_r8 : w (.regs 8) = true) (h : Fr w o s) :
    Fr w o (nackReport s a1 a2) := by
  rw [nackReport]
  repeat' with_reducible first
    | assumption | apply fr_ite | apply fr_ite_fst | apply fr_ite_snd | refine fr_addF 8 (by decide) c_r8 ?_
    | refine fr_addT c_bgLog ?_ | refine fr_nackRefresh c_sht c_enc ?_ | refine fr_sheetEvent c_ev c_bgLog c_r4 ?_
    | refine fr_raiseEv c_ev c_bgLog c_r4 ?_ | intro _ | (dsimp only; split) | refine fr_mk rfl ?_

theorem fr_loopReply {w : Part → Bool} {o s : State} {a1 : Nat} {a2 : List Byte} (c_ev : w .ev = true)
    (c_sht : w .sht = true) (c_bgLog : w .bgLog = true) (c_r4 : w (.regs 4) = true) (c_r8 : w (.regs 8) = true)
    (h : Fr w o s) :
    Fr w o (loopReply s a1 a2) := by
  rw [loopReply]
  repeat' with_reducible first
    | assumption | apply fr_ite | refine fr_addF 8 (by decide) c_r8 ?_ | refine fr_raiseEv c_ev c_bgLog c_r4 ?_ | intro _
    | (dsimp only; split) | refine fr_mk rfl ?_

theorem fr_sheetReply {w : Part → Bool} {o s : State} {a1 : Nat} {a2 : List Byte} (c_wire : w .wire = true)
    (c_host : w .host = true) (c_hif : w .hif = true) (c_ev : w .ev = true) (c_sht : w .sht = true) (c_enc : w .enc = true)
    (c_bgLog : w .bgLog = true) (c_pins : w .pins = true) (c_r3 : w (.regs 3) = true) (c_r4 : w (.regs 4) = true)
    (c_r8 : w (.regs 8) = true) (h : Fr w o s) :
    Fr w o (sheetReply s a1 a2) := by
  rw [sheetReply]
  repeat' with_reducible first
    | assumption | apply fr_ite | refine fr_replyInvalid c_ev c_bgLog c_r4 c_r8 ?_
    | refine fr_rollcallRsp c_wire c_host c_hif c_ev c_sht c_bgLog c_pins c_r3 c_r4 c_r8 ?_
    | refine fr_nackReport c_ev c_sht c_enc c_bgLog c_r4 c_r8 ?_ | refine fr_loopReply c_ev c_sht c_bgLog c_r4 c_r8 ?_
    | intro _

theorem fr_checkCapabilities {w : Part → Bool} {o s : State} {a1 : Nat} {a2 : RollCall} (c_ev : w .ev = true)
    (c_bgLog : w .bgLog = true) (c_r4 : w (.regs 4) = true) (h : Fr w o s) :
    Fr w o (checkCapabilities s a1 a2) := by
  rw [checkCapabilities]
  repeat' with_reducible first
    | assumption | apply fr_ite | apply fr_ite_fst | apply fr_ite_snd | refine fr_sheetEvent c_ev c_bgLog c_r4 ?_
    | apply fr_foldS | intro _ | split

theorem fr_windowEnd {w : Part → Bool} {o s : State} {a1 : Nat} (c_wire : w .wire = true) (c_host : w .host = true)
    (c_hif : w .hif = true) (c_ev : w .ev = true) (c_sht : w .sht = true) (c_bgLog : w .bgLog = true)
    (c_pins : w .pins = true) (c_r3 : w (.regs 3) = true) (c_r4 : w (.regs 4) = true) (c_r15 : w (.regs 15) = true)
    (h : Fr w o s) :
    Fr w o (windowEnd s a1) := by
  rw [windowEnd.eq_def]
  repeat' with_reducible first
    | assumption | apply fr_ite | refine fr_setRollcall c_sht ?_ | refine fr_wallLoad c_r15 ?_
    | refine fr_checkCapabilities c_ev c_bgLog c_r4 ?_
    | refine fr_complete c_wire c_host c_hif c_ev c_bgLog c_pins c_r3 c_r4 ?_ | refine fr_raiseEv c_ev c_bgLog c_r4 ?_
    | refine fr_hostWrite c_host ?_ | intro _ | split | (dsimp only; split)

theorem fr_calTimeout {w : Part → Bool} {o s : State} {a1 : Nat} (c_wire : w .wire = true) (c_host : w .host = true)
    (c_hif : w .hif = true) (c_ev : w .ev = true) (c_sht : w .sht = true) (c_bgLog : w .bgLog = true)
    (c_pins : w .pins = true) (c_r3 : w (.regs 3) = true) (c_r4 : w (.regs 4) = true) (h : Fr w o s) :
    Fr w o (calTimeout s a1) := by
  rw [calTimeout.eq_def]
  repeat' with_reducible first
    | assumption | apply fr_ite | refine fr_raiseEv c_ev c_bgLog c_r4 ?_
    | refine fr_completeId c_wire c_host c_hif c_ev c_bgLog c_pins c_r3 c_r4 ?_ | refine fr_setPush c_sht ?_ | intro _
    | split

theorem fr_backgroundPing {w : Part → Bool} {o s : State} (c_ev : w .ev = true) (c_sw : w .sw = true) (c_tm : w .tm = true)
    (c_sht : w .sht = true) (c_bgLog : w .bgLog = true) (c_r4 : w (.regs 4) = true) (c_r10 : w (.regs 10) = true)
    (c_r11 : w (.regs 11) = true) (h : Fr w o s) :
    Fr w o (backgroundPing s) := by
  rw [backgroundPing]
  repeat' with_reducible first
    | assumption | apply fr_ite | refine fr_sendRollcall c_ev c_sw c_tm c_sht c_bgLog c_r4 c_r10 c_r11 ?_ | apply fr_foldS
    | intro _ | (dsimp only; split) | refine fr_mk rfl ?_

end Sys2Proof.Machine
end

