-- ==== Sys2Proof/Laws/FrameTriggers.lean ====
section
/-!
SUPPORT. What the operations of Machine/Triggers.lean leave as it was.
-/

set_option Elab.async false

namespace Sys2Proof.Machine

theorem fr_setTrig {w : Part → Bool} {o s : State} {a1 : Nat} {a2 : Trig} (c_mer : w .mer = true) (h : Fr w o s) :
    Fr w o (setTrig s a1 a2) := by
  rw [setTrig]
  repeat' with_reducible first | assumption | refine fr_mk rfl ?_

theorem fr_setIdle {w : Part → Bool} {o s : State} {a1 : Nat} (c_ports : w .ports = true) (h : Fr w o s) :
    Fr w o (setIdle s a1) := by
  rw [setIdle]
  repeat' with_reducible first | assumption | refine fr_setPort c_ports ?_ | refine fr_mk rfl ?_

theorem fr_endIdle {w : Part → Bool} {o s : State} {a1 : Nat} (c_ports : w .ports = true) (h : Fr w o s) :
    Fr w o (endIdle s a1) := by
  rw [endIdle]
  repeat' with_reducible first
    | assumption | apply fr_ite | refine fr_setIdle c_ports ?_ | intro _ | split | (dsimp only; split)

theorem fr_sendLaunch {w : Part → Bool} {o s : State} {a1 : Nat} {a2 : Launch} (c_wire : w .wire = true)
    (c_host : w .host = true) (c_hif : w .hif = true) (c_ev : w .ev = true) (c_mer : w .mer = true)
    (c_ports : w .ports = true) (c_sw : w .sw = true) (c_tm : w .tm = true) (c_sht : w .sht = true)
    (c_bgLog : w .bgLog = true) (c_pins : w .pins = true) (c_r3 : w (.regs 3) = true) (c_r4 : w (.regs 4) = true)
    (c_r8 : w (.regs 8) = true) (c_r9 : w (.regs 9) = true) (c_r10 : w (.regs 10) = true) (c_r11 : w (.regs 11) = true)
    (h : Fr w o s) :
    Fr w o (sendLaunch s a1 a2) := by
  rw [sendLaunch.eq_def]
  repeat' with_reducible first
    | assumption | apply fr_ite | refine fr_setF 8 (by decide) c_r8 ?_ | refine fr_setF 9 (by decide) c_r9 ?_
    | refine fr_addF 8 (by decide) c_r8 ?_ | refine fr_addF 9 (by decide) c_r9 ?_
    | refine fr_transmit c_wire c_ev c_mer c_sw c_tm c_sht c_bgLog c_r4 c_r9 c_r10 c_r11 ?_
    | refine fr_raiseEv c_ev c_bgLog c_r4 ?_
    | refine fr_holdsProgress c_wire c_host c_hif c_ev c_sht c_bgLog c_pins c_r3 c_r4 ?_
    | refine fr_releaseFrame c_wire c_ports c_sw c_r11 ?_ | intro _ | split

theorem fr_serveSlot {w : Part → Bool} {o s : State} {a1 : Nat} (c_wire : w .wire = true) (c_host : w .host = true)
    (c_hif : w .hif = true) (c_ev : w .ev = true) (c_mer : w .mer = true) (c_ports : w .ports = true) (c_sw : w .sw = true)
    (c_tm : w .tm = true) (c_sht : w .sht = true) (c_bgLog : w .bgLog = true) (c_pins : w .pins = true)
    (c_r3 : w (.regs 3) = true) (c_r4 : w (.regs 4) = true) (c_r8 : w (.regs 8) = true) (c_r9 : w (.regs 9) = true)
    (c_r10 : w (.regs 10) = true) (c_r11 : w (.regs 11) = true) (h : Fr w o s) :
    Fr w o (serveSlot s a1) := by
  rw [serveSlot.eq_def]
  repeat' with_reducible first
    | assumption | refine fr_endIdle c_ports ?_
    | refine fr_sendLaunch c_wire c_host c_hif c_ev c_mer c_ports c_sw c_tm c_sht c_bgLog c_pins c_r3 c_r4 c_r8 c_r9 c_r10 c_r11 ?_
    | refine fr_setPort c_ports ?_ | split | (dsimp only; split)

theorem fr_enterSlot {w : Part → Bool} {o s : State} {a1 : Nat} {a2 : Launch} (c_wire : w .wire = true)
    (c_host : w .host = true) (c_hif : w .hif = true) (c_ev : w .ev = true) (c_mer : w .mer = true)
    (c_ports : w .ports = true) (c_sw : w .sw = true) (c_tm : w .tm = true) (c_sht : w .sht = true)
    (c_bgLog : w .bgLog = true) (c_pins : w .pins = true) (c_r3 : w (.regs 3) = true) (c_r4 : w (.regs 4) = true)
    (c_r8 : w (.regs 8) = true) (c_r9 : w (.regs 9) = true) (c_r10 : w (.regs 10) = true) (c_r11 : w (.regs 11) = true)
    (h : Fr w o s) :
    Fr w o (enterSlot s a1 a2) := by
  rw [enterSlot]
  repeat' with_reducible first
    | assumption
    | refine fr_serveSlot c_wire c_host c_hif c_ev c_mer c_ports c_sw c_tm c_sht c_bgLog c_pins c_r3 c_r4 c_r8 c_r9 c_r10 c_r11 ?_
    | refine fr_setPort c_ports ?_

theorem fr_trigGoOn {w : Part → Bool} {o s : State} {a1 : Nat} {a2 : Nat} (c_mer : w .mer = true)
    (c_r9 : w (.regs 9) = true) (h : Fr w o s) :
    Fr w o (trigGoOn s a1 a2) := by
  rw [trigGoOn]
  repeat' with_reducible first
    | assumption | apply fr_ite | refine fr_setF 9 (by decide) c_r9 ?_ | refine fr_setTrig c_mer ?_ | intro _

theorem fr_trigArm {w : Part → Bool} {o s : State} {a1 : Nat} (c_ev : w .ev = true) (c_mer : w .mer = true)
    (c_bgLog : w .bgLog = true) (c_r4 : w (.regs 4) = true) (c_r9 : w (.regs 9) = true) (h : Fr w o s) :
    Fr w o (trigArm s a1) := by
  rw [trigArm]
  repeat' with_reducible first
    | assumption | apply fr_ite | refine fr_setF 9 (by decide) c_r9 ?_ | refine fr_addF 9 (by decide) c_r9 ?_
    | refine fr_raiseEv c_ev c_bgLog c_r4 ?_ | refine fr_setTrig c_mer ?_ | refine fr_trigGoOn c_mer c_r9 ?_ | intro _

theorem fr_trigDisarm {w : Part → Bool} {o s : State} {a1 : Nat} (c_mer : w .mer = true) (c_ports : w .ports = true)
    (c_r9 : w (.regs 9) = true) (h : Fr w o s) :
    Fr w o (trigDisarm s a1) := by
  rw [trigDisarm]
  repeat' with_reducible first
    | assumption | apply fr_ite | refine fr_setF 9 (by decide) c_r9 ?_ | refine fr_setTrig c_mer ?_
    | refine fr_endIdle c_ports ?_ | intro _ | split | (dsimp only; split)

theorem fr_trigCtrlWrite {w : Part → Bool} {o s : State} {a1 : Nat} {a2 : Nat} (c_ev : w .ev = true) (c_mer : w .mer = true)
    (c_ports : w .ports = true) (c_bgLog : w .bgLog = true) (c_r4 : w (.regs 4) = true) (c_r9 : w (.regs 9) = true)
    (h : Fr w o s) :
    Fr w o (trigCtrlWrite s a1 a2) := by
  rw [trigCtrlWrite]
  repeat' with_reducible first
    | assumption | apply fr_ite | refine fr_setF 9 (by decide) c_r9 ?_ | refine fr_raiseEv c_ev c_bgLog c_r4 ?_
    | refine fr_trigDisarm c_mer c_ports c_r9 ?_ | refine fr_setTrig c_mer ?_
    | refine fr_trigArm c_ev c_mer c_bgLog c_r4 c_r9 ?_ | intro _

theorem fr_trigFieldWrite {w : Part → Bool} {o s : State} {a1 : Nat} {a2 : Nat} {a3 : Nat} (c_ev : w .ev = true)
    (c_bgLog : w .bgLog = true) (cR : ∀ k, w (.regs k) = true) (h : Fr w o s) :
    Fr w o (trigFieldWrite s a1 a2 a3) := by
  rw [trigFieldWrite]
  repeat' with_reducible first
    | assumption | apply fr_ite | refine fr_setW_any cR ?_ | refine fr_raiseEv c_ev c_bgLog (cR 4) ?_ | intro _

theorem fr_showSync {w : Part → Bool} {o s : State} (c_pins : w .pins = true) (h : Fr w o s) :
    Fr w o (showSync s) := by
  rw [showSync]
  repeat' with_reducible first | assumption | intro _ | (dsimp only; split) | refine fr_mk rfl ?_

theorem fr_setPulse {w : Part → Bool} {o s : State} {a1 : Nat} {a2 : Option (Nat × Nat)} (c_mer : w .mer = true)
    (c_pins : w .pins = true) (h : Fr w o s) :
    Fr w o (setPulse s a1 a2) := by
  rw [setPulse]
  repeat' with_reducible first | assumption | refine fr_showSync c_pins ?_ | refine fr_mk rfl ?_

theorem fr_pulseEnd {w : Part → Bool} {o s : State} {a1 : Nat} (c_mer : w .mer = true) (c_pins : w .pins = true)
    (h : Fr w o s) :
    Fr w o (pulseEnd s a1) := by
  rw [pulseEnd.eq_def]
  repeat' with_reducible first | assumption | apply fr_ite | refine fr_setPulse c_mer c_pins ?_ | intro _ | split

theorem fr_launchHead {w : Part → Bool} {o s : State} {a1 : Nat} {a2 : Nat} (c_wire : w .wire = true)
    (c_host : w .host = true) (c_hif : w .hif = true) (c_ev : w .ev = true) (c_mer : w .mer = true)
    (c_ports : w .ports = true) (c_sw : w .sw = true) (c_tm : w .tm = true) (c_sht : w .sht = true)
    (c_bgLog : w .bgLog = true) (c_pins : w .pins = true) (c_r3 : w (.regs 3) = true) (c_r4 : w (.regs 4) = true)
    (c_r8 : w (.regs 8) = true) (c_r9 : w (.regs 9) = true) (c_r10 : w (.regs 10) = true) (c_r11 : w (.regs 11) = true)
    (h : Fr w o s) :
    Fr w o (launchHead s a1 a2) := by
  rw [launchHead.eq_def]
  repeat' with_reducible first
    | assumption | refine fr_raiseEv c_ev c_bgLog c_r4 ?_ | refine fr_endIdle c_ports ?_
    | refine fr_enterSlot c_wire c_host c_hif c_ev c_mer c_ports c_sw c_tm c_sht c_bgLog c_pins c_r3 c_r4 c_r8 c_r9 c_r10 c_r11 ?_
    | refine fr_headArrives c_tm ?_ | refine fr_setQueue c_tm ?_ | split | (dsimp only; split)

theorem fr_trigAct {w : Part → Bool} {o s : State} {a1 : Nat} {a2 : Nat} (c_wire : w .wire = true) (c_host : w .host = true)
    (c_hif : w .hif = true) (c_ev : w .ev = true) (c_mer : w .mer = true) (c_prj : w .prj = true)
    (c_ports : w .ports = true) (c_sw : w .sw = true) (c_tm : w .tm = true) (c_sht : w .sht = true) (c_scr : w .scr = true)
    (c_enc : w .enc = true) (c_bgLog : w .bgLog = true) (c_pins : w .pins = true) (c_r3 : w (.regs 3) = true)
    (c_r4 : w (.regs 4) = true) (c_r6 : w (.regs 6) = true) (c_r7 : w (.regs 7) = true) (c_r8 : w (.regs 8) = true)
    (c_r9 : w (.regs 9) = true) (c_r10 : w (.regs 10) = true) (c_r11 : w (.regs 11) = true) (h : Fr w o s) :
    Fr w o (trigAct s a1 a2) := by
  rw [trigAct]
  repeat' with_reducible first
    | assumption | apply fr_ite | refine fr_setF 9 (by decide) c_r9 ?_ | refine fr_addF 9 (by decide) c_r9 ?_
    | refine fr_launchHead c_wire c_host c_hif c_ev c_mer c_ports c_sw c_tm c_sht c_bgLog c_pins c_r3 c_r4 c_r8 c_r9 c_r10 c_r11 ?_
    | refine fr_raiseEv c_ev c_bgLog c_r4 ?_ | refine fr_setPulse c_mer c_pins ?_
    | refine fr_viewBoundary c_wire c_host c_hif c_ev c_prj c_sht c_scr c_enc c_bgLog c_pins c_r3 c_r4 c_r6 c_r7 ?_
    | intro _

theorem fr_fireTrigger {w : Part → Bool} {o s : State} {a1 : Nat} (c_wire : w .wire = true) (c_host : w .host = true)
    (c_hif : w .hif = true) (c_ev : w .ev = true) (c_mer : w .mer = true) (c_prj : w .prj = true)
    (c_ports : w .ports = true) (c_sw : w .sw = true) (c_tm : w .tm = true) (c_sht : w .sht = true) (c_scr : w .scr = true)
    (c_enc : w .enc = true) (c_bgLog : w .bgLog = true) (c_pins : w .pins = true) (c_r3 : w (.regs 3) = true)
    (c_r4 : w (.regs 4) = true) (c_r6 : w (.regs 6) = true) (c_r7 : w (.regs 7) = true) (c_r8 : w (.regs 8) = true)
    (c_r9 : w (.regs 9) = true) (c_r10 : w (.regs 10) = true) (c_r11 : w (.regs 11) = true) (h : Fr w o s) :
    Fr w o (fireTrigger s a1) := by
  rw [fireTrigger]
  repeat' with_reducible first
    | assumption | apply fr_ite
    | refine fr_trigAct c_wire c_host c_hif c_ev c_mer c_prj c_ports c_sw c_tm c_sht c_scr c_enc c_bgLog c_pins c_r3 c_r4 c_r6 c_r7 c_r8 c_r9 c_r10 c_r11 ?_
    | refine fr_trigGoOn c_mer c_r9 ?_ | refine fr_setTrig c_mer ?_ | intro _

theorem fr_trigger {w : Part → Bool} {o s : State} {a1 : Nat} (c_wire : w .wire = true) (c_host : w .host = true)
    (c_hif : w .hif = true) (c_ev : w .ev = true) (c_mer : w .mer = true) (c_prj : w .prj = true)
    (c_ports : w .ports = true) (c_sw : w .sw = true) (c_tm : w .tm = true) (c_sht : w .sht = true) (c_scr : w .scr = true)
    (c_enc : w .enc = true) (c_bgLog : w .bgLog = true) (c_pins : w .pins = true) (c_r3 : w (.regs 3) = true)
    (c_r4 : w (.regs 4) = true) (c_r6 : w (.regs 6) = true) (c_r7 : w (.regs 7) = true) (c_r8 : w (.regs 8) = true)
    (c_r9 : w (.regs 9) = true) (c_r10 : w (.regs 10) = true) (c_r11 : w (.regs 11) = true) (h : Fr w o s) :
    Fr w o (trigger s a1) := by
  rw [trigger]
  repeat' with_reducible first
    | assumption | apply fr_ite
    | refine fr_fireTrigger c_wire c_host c_hif c_ev c_mer c_prj c_ports c_sw c_tm c_sht c_scr c_enc c_bgLog c_pins c_r3 c_r4 c_r6 c_r7 c_r8 c_r9 c_r10 c_r11 ?_
    | refine fr_switchSchedule c_wire c_host c_hif c_ev c_mer c_prj c_sht c_enc c_bgLog c_pins c_r3 c_r4 c_r6 c_r7 c_r8 c_r9 ?_
    | intro _

theorem fr_stepTrigger {w : Part → Bool} {o s : State} {a1 : Nat} {a2 : Int} {a3 : Int} (c_wire : w .wire = true)
    (c_host : w .host = true) (c_hif : w .hif = true) (c_ev : w .ev = true) (c_mer : w .mer = true) (c_prj : w .prj = true)
    (c_ports : w .ports = true) (c_sw : w .sw = true) (c_tm : w .tm = true) (c_sht : w .sht = true) (c_scr : w .scr = true)
    (c_enc : w .enc = true) (c_bgLog : w .bgLog = true) (c_pins : w .pins = true) (c_r3 : w (.regs 3) = true)
    (c_r4 : w (.regs 4) = true) (c_r6 : w (.regs 6) = true) (c_r7 : w (.regs 7) = true) (c_r8 : w (.regs 8) = true)
    (c_r9 : w (.regs 9) = true) (c_r10 : w (.regs 10) = true) (c_r11 : w (.regs 11) = true) (h : Fr w o s) :
    Fr w o (stepTrigger s a1 a2 a3) := by
  rw [stepTrigger]
  repeat' with_reducible first
    | assumption | apply fr_ite | refine fr_addF 9 (by decide) c_r9 ?_
    | refine fr_trigAct c_wire c_host c_hif c_ev c_mer c_prj c_ports c_sw c_tm c_sht c_scr c_enc c_bgLog c_pins c_r3 c_r4 c_r6 c_r7 c_r8 c_r9 c_r10 c_r11 ?_
    | refine fr_trigGoOn c_mer c_r9 ?_ | intro _

end Sys2Proof.Machine
end

