-- ==== Sys2Proof/Laws/FramePresent.lean ====
section
/-!
SUPPORT. What the operations of Machine/Present.lean leave as it was.
-/

set_option Elab.async false

namespace Sys2Proof.Machine

theorem fr_acceptSchedule {w : Part → Bool} {o s : State} {a1 : Nat} {a2 : Sched} (c_sht : w .sht = true)
    (c_r6 : w (.regs 6) = true) (c_r7 : w (.regs 7) = true) (h : Fr w o s) :
    Fr w o (acceptSchedule s a1 a2) := by
  rw [acceptSchedule]
  repeat' with_reducible first
    | assumption | refine fr_refreshLoads c_r6 c_r7 ?_ | intro _ | refine fr_mk rfl ?_

theorem fr_runPresentSchedule {w : Part → Bool} {o s : State} {a1 : Cmd} {a2 : List Byte} (c_wire : w .wire = true)
    (c_host : w .host = true) (c_hif : w .hif = true) (c_ev : w .ev = true) (c_sht : w .sht = true)
    (c_bgLog : w .bgLog = true) (c_pins : w .pins = true) (c_r3 : w (.regs 3) = true) (c_r4 : w (.regs 4) = true)
    (c_r6 : w (.regs 6) = true) (c_r7 : w (.regs 7) = true) (c_r8 : w (.regs 8) = true) (h : Fr w o s) :
    Fr w o (runPresentSchedule s a1 a2) := by
  rw [runPresentSchedule.eq_def]
  repeat' with_reducible first
    | assumption | apply fr_ite | refine fr_setF 8 (by decide) c_r8 ?_
    | refine fr_complete c_wire c_host c_hif c_ev c_bgLog c_pins c_r3 c_r4 ?_ | refine fr_acceptSchedule c_sht c_r6 c_r7 ?_
    | intro _ | split | (dsimp only; split)

theorem fr_firstPresents {w : Part → Bool} {o s : State} (c_wire : w .wire = true) (c_host : w .host = true)
    (c_hif : w .hif = true) (c_ev : w .ev = true) (c_sht : w .sht = true) (c_bgLog : w .bgLog = true)
    (c_pins : w .pins = true) (c_r3 : w (.regs 3) = true) (c_r4 : w (.regs 4) = true) (h : Fr w o s) :
    Fr w o (firstPresents s) := by
  rw [firstPresents]
  repeat' with_reducible first
    | assumption | apply fr_ite | refine fr_completeId c_wire c_host c_hif c_ev c_bgLog c_pins c_r3 c_r4 ?_ | apply fr_foldS
    | intro _ | (dsimp only; split) | refine fr_mk rfl ?_

theorem fr_refusePresent {w : Part → Bool} {o s : State} {a1 : Present} (c_ev : w .ev = true) (c_sht : w .sht = true)
    (c_bgLog : w .bgLog = true) (c_r4 : w (.regs 4) = true) (c_r8 : w (.regs 8) = true) (h : Fr w o s) :
    Fr w o (refusePresent s a1) := by
  rw [refusePresent]
  repeat' with_reducible first
    | assumption | apply fr_ite | refine fr_setShtPartial c_r8 ?_ | refine fr_addT c_bgLog ?_
    | refine fr_raiseEv c_ev c_bgLog c_r4 ?_ | intro _ | (dsimp only; split) | refine fr_mk rfl ?_

theorem fr_launchPresent {w : Part → Bool} {o s : State} {a1 : Present} (c_wire : w .wire = true) (c_host : w .host = true)
    (c_hif : w .hif = true) (c_ev : w .ev = true) (c_mer : w .mer = true) (c_ports : w .ports = true) (c_sw : w .sw = true)
    (c_tm : w .tm = true) (c_sht : w .sht = true) (c_bgLog : w .bgLog = true) (c_pins : w .pins = true)
    (c_r3 : w (.regs 3) = true) (c_r4 : w (.regs 4) = true) (c_r8 : w (.regs 8) = true) (c_r9 : w (.regs 9) = true)
    (c_r10 : w (.regs 10) = true) (c_r11 : w (.regs 11) = true) (h : Fr w o s) :
    Fr w o (launchPresent s a1) := by
  rw [launchPresent]
  repeat' with_reducible first
    | assumption | apply fr_ite | apply fr_ite_fst | apply fr_ite_snd
    | refine fr_refusePresent c_ev c_sht c_bgLog c_r4 c_r8 ?_ | refine fr_countFlushed c_bgLog c_r10 ?_
    | refine fr_enterSlot c_wire c_host c_hif c_ev c_mer c_ports c_sw c_tm c_sht c_bgLog c_pins c_r3 c_r4 c_r8 c_r9 c_r10 c_r11 ?_
    | refine fr_portMirrors c_sw c_tm c_bgLog c_r11 ?_ | refine fr_sendFrame c_ev c_sw c_tm c_bgLog c_r4 c_r10 c_r11 ?_
    | intro _ | (dsimp only; split) | refine fr_mk rfl ?_

theorem fr_idleStart {w : Part → Bool} {o s : State} {a1 : Nat} (c_ports : w .ports = true) (h : Fr w o s) :
    Fr w o (idleStart s a1) := by
  rw [idleStart]
  repeat' with_reducible first | assumption | apply fr_ite | refine fr_setIdle c_ports ?_ | intro _

theorem fr_sendHolds {w : Part → Bool} {o s : State} {a1 : Nat} {a2 : Nat} {a3 : Nat} {a4 : Nat} {a5 : Nat}
    (c_ev : w .ev = true) (c_sw : w .sw = true) (c_tm : w .tm = true) (c_sht : w .sht = true) (c_bgLog : w .bgLog = true)
    (c_r4 : w (.regs 4) = true) (c_r8 : w (.regs 8) = true) (c_r10 : w (.regs 10) = true) (c_r11 : w (.regs 11) = true)
    (h : Fr w o s) :
    Fr w o (sendHolds s a1 a2 a3 a4 a5) := by
  rw [sendHolds]
  repeat' with_reducible first
    | assumption | apply fr_ite | apply fr_ite_fst | apply fr_ite_snd
    | refine fr_sendFrame c_ev c_sw c_tm c_bgLog c_r4 c_r10 c_r11 ?_ | refine fr_holdRefused c_sht c_r8 ?_ | apply fr_foldS
    | intro _

theorem fr_dropPresents {w : Part → Bool} {o s : State} {a1 : Nat} {a2 : Nat} (c_sht : w .sht = true)
    (c_r8 : w (.regs 8) = true) (h : Fr w o s) :
    Fr w o (dropPresents s a1 a2) := by
  rw [dropPresents]
  repeat' with_reducible first
    | assumption | refine fr_addF 8 (by decide) c_r8 ?_ | intro _ | refine fr_mk rfl ?_

theorem fr_setHeld {w : Part → Bool} {o s : State} {a1 : Nat} (c_r8 : w (.regs 8) = true) (h : Fr w o s) :
    Fr w o (setHeld s a1) := by
  rw [setHeld]
  repeat' with_reducible first | assumption | refine fr_setF 8 (by decide) c_r8 ?_

theorem fr_putHold {w : Part → Bool} {o s : State} {a1 : HoldCmd} (c_sht : w .sht = true) (h : Fr w o s) :
    Fr w o (putHold s a1) := by
  rw [putHold]
  repeat' with_reducible first | assumption | apply fr_ite | intro _ | (dsimp only; split) | refine fr_mk rfl ?_

theorem fr_holdNow {w : Part → Bool} {o s : State} {a1 : HoldCmd} (c_wire : w .wire = true) (c_host : w .host = true)
    (c_hif : w .hif = true) (c_ev : w .ev = true) (c_mer : w .mer = true) (c_prj : w .prj = true)
    (c_ports : w .ports = true) (c_sw : w .sw = true) (c_tm : w .tm = true) (c_sht : w .sht = true) (c_enc : w .enc = true)
    (c_bgLog : w .bgLog = true) (c_pins : w .pins = true) (c_r3 : w (.regs 3) = true) (c_r4 : w (.regs 4) = true)
    (c_r6 : w (.regs 6) = true) (c_r7 : w (.regs 7) = true) (c_r8 : w (.regs 8) = true) (c_r9 : w (.regs 9) = true)
    (c_r10 : w (.regs 10) = true) (c_r11 : w (.regs 11) = true) (h : Fr w o s) :
    Fr w o (holdNow s a1) := by
  rw [holdNow]
  repeat' with_reducible first
    | assumption | apply fr_ite | refine fr_putHold c_sht ?_
    | refine fr_sendHolds c_ev c_sw c_tm c_sht c_bgLog c_r4 c_r8 c_r10 c_r11 ?_ | refine fr_setHeld c_r8 ?_
    | refine fr_dropPresents c_sht c_r8 ?_
    | refine fr_stopSchedule c_wire c_host c_hif c_ev c_mer c_prj c_ports c_sht c_enc c_bgLog c_pins c_r3 c_r4 c_r6 c_r7 c_r8 c_r9 ?_
    | refine fr_holdsProgress c_wire c_host c_hif c_ev c_sht c_bgLog c_pins c_r3 c_r4 ?_ | apply fr_foldS | intro _

theorem fr_resumeNow {w : Part → Bool} {o s : State} {a1 : HoldCmd} (c_wire : w .wire = true) (c_host : w .host = true)
    (c_hif : w .hif = true) (c_ev : w .ev = true) (c_sht : w .sht = true) (c_bgLog : w .bgLog = true)
    (c_pins : w .pins = true) (c_r3 : w (.regs 3) = true) (c_r4 : w (.regs 4) = true) (c_r8 : w (.regs 8) = true)
    (h : Fr w o s) :
    Fr w o (resumeNow s a1) := by
  rw [resumeNow]
  repeat' with_reducible first
    | assumption | refine fr_setF 8 (by decide) c_r8 ?_
    | refine fr_completeId c_wire c_host c_hif c_ev c_bgLog c_pins c_r3 c_r4 ?_ | intro _ | refine fr_mk rfl ?_

theorem fr_runHold {w : Part → Bool} {o s : State} {a1 : Cmd} {a2 : List Byte} (c_wire : w .wire = true)
    (c_host : w .host = true) (c_hif : w .hif = true) (c_ev : w .ev = true) (c_mer : w .mer = true) (c_prj : w .prj = true)
    (c_ports : w .ports = true) (c_sw : w .sw = true) (c_tm : w .tm = true) (c_sht : w .sht = true) (c_enc : w .enc = true)
    (c_bgLog : w .bgLog = true) (c_pins : w .pins = true) (c_r3 : w (.regs 3) = true) (c_r4 : w (.regs 4) = true)
    (c_r6 : w (.regs 6) = true) (c_r7 : w (.regs 7) = true) (c_r8 : w (.regs 8) = true) (c_r9 : w (.regs 9) = true)
    (c_r10 : w (.regs 10) = true) (c_r11 : w (.regs 11) = true) (h : Fr w o s) :
    Fr w o (runHold s a1 a2) := by
  rw [runHold]
  repeat' with_reducible first
    | assumption | apply fr_ite | refine fr_resumeNow c_wire c_host c_hif c_ev c_sht c_bgLog c_pins c_r3 c_r4 c_r8 ?_
    | refine fr_holdNow c_wire c_host c_hif c_ev c_mer c_prj c_ports c_sw c_tm c_sht c_enc c_bgLog c_pins c_r3 c_r4 c_r6 c_r7 c_r8 c_r9 c_r10 c_r11 ?_
    | intro _ | (dsimp only; split) | refine fr_mk rfl ?_

theorem fr_launchDue {w : Part → Bool} {o s : State} {a1 : Nat} {a2 : Nat} (c_wire : w .wire = true)
    (c_host : w .host = true) (c_hif : w .hif = true) (c_ev : w .ev = true) (c_mer : w .mer = true) (c_prj : w .prj = true)
    (c_ports : w .ports = true) (c_sw : w .sw = true) (c_tm : w .tm = true) (c_sht : w .sht = true) (c_enc : w .enc = true)
    (c_bgLog : w .bgLog = true) (c_pins : w .pins = true) (c_r3 : w (.regs 3) = true) (c_r4 : w (.regs 4) = true)
    (c_r6 : w (.regs 6) = true) (c_r7 : w (.regs 7) = true) (c_r8 : w (.regs 8) = true) (c_r9 : w (.regs 9) = true)
    (c_r10 : w (.regs 10) = true) (c_r11 : w (.regs 11) = true) (h : Fr w o s) :
    Fr w o (launchDue s a1 a2) := by
  induction a2 generalizing s a1 with
  | zero => exact h
  | succ k ih =>
    rw [launchDue]
    repeat' with_reducible first
      | assumption | apply fr_ite | apply ih
      | refine fr_holdNow c_wire c_host c_hif c_ev c_mer c_prj c_ports c_sw c_tm c_sht c_enc c_bgLog c_pins c_r3 c_r4 c_r6 c_r7 c_r8 c_r9 c_r10 c_r11 ?_
      | refine fr_launchPresent c_wire c_host c_hif c_ev c_mer c_ports c_sw c_tm c_sht c_bgLog c_pins c_r3 c_r4 c_r8 c_r9 c_r10 c_r11 ?_
      | apply fr_foldS | intro _ | (dsimp only; split) | refine fr_mk rfl ?_

theorem fr_faultHold {w : Part → Bool} {o s : State} (c_wire : w .wire = true) (c_host : w .host = true)
    (c_hif : w .hif = true) (c_ev : w .ev = true) (c_sht : w .sht = true) (c_bgLog : w .bgLog = true)
    (c_pins : w .pins = true) (c_r3 : w (.regs 3) = true) (c_r4 : w (.regs 4) = true) (c_r8 : w (.regs 8) = true)
    (h : Fr w o s) :
    Fr w o (faultHold s) := by
  rw [faultHold]
  repeat' with_reducible first
    | assumption | apply fr_ite | refine fr_emit c_wire ?_ | refine fr_setShtPartial c_r8 ?_
    | refine fr_completeId c_wire c_host c_hif c_ev c_bgLog c_pins c_r3 c_r4 ?_ | apply fr_foldS | intro _
    | (dsimp only; split) | refine fr_mk rfl ?_

theorem fr_stopHold {w : Part → Bool} {o s : State} (c_wire : w .wire = true) (h : Fr w o s) :
    Fr w o (stopHold s) := by
  rw [stopHold]
  repeat' with_reducible first | assumption | apply fr_ite | refine fr_emit c_wire ?_ | apply fr_foldS | intro _

end Sys2Proof.Machine
end

