-- ==== Sys2Proof/Laws/FrameIntake.lean ====
section
/-!
SUPPORT. What the operations of Machine/Intake.lean leave as it was.
-/

set_option Elab.async false

namespace Sys2Proof.Machine

theorem fr_onStream {w : Part → Bool} {o s : State} {a1 : Nat} {a2 : Stream → Stream} (c_scr : w .scr = true)
    (h : Fr w o s) :
    Fr w o (onStream s a1 a2) := by
  rw [onStream]
  repeat' with_reducible first | assumption | refine fr_setStream c_scr ?_

theorem fr_toSyncing {w : Part → Bool} {o s : State} {a1 : Nat} (c_scr : w .scr = true) (h : Fr w o s) :
    Fr w o (toSyncing s a1) := by
  rw [toSyncing]
  repeat' with_reducible first | assumption | refine fr_onStream c_scr ?_ | intro _

theorem fr_toRunning {w : Part → Bool} {o s : State} {a1 : Nat} (c_ev : w .ev = true) (c_scr : w .scr = true)
    (c_bgLog : w .bgLog = true) (c_r4 : w (.regs 4) = true) (h : Fr w o s) :
    Fr w o (toRunning s a1) := by
  rw [toRunning]
  repeat' with_reducible first
    | assumption | apply fr_ite | refine fr_streamEvent c_ev c_bgLog c_r4 ?_ | refine fr_onStream c_scr ?_ | intro _

theorem fr_deliver {w : Part → Bool} {o s : State} {a1 : Nat} {a2 : Delivered} (c_scr : w .scr = true) (h : Fr w o s) :
    Fr w o (deliver s a1 a2) := by
  rw [deliver]
  repeat' with_reducible first | assumption | apply fr_ite | refine fr_setStream c_scr ?_ | intro _

theorem fr_flushOutput {w : Part → Bool} {o s : State} {a1 : Nat} {a2 : Nat} (c_scr : w .scr = true) (h : Fr w o s) :
    Fr w o (flushOutput s a1 a2) := by
  induction a2 generalizing s a1 with
  | zero => exact h
  | succ k ih =>
    rw [flushOutput]
    repeat' with_reducible first
      | assumption | apply fr_ite | apply fr_ite_fst | apply fr_ite_snd | apply ih | refine fr_deliver c_scr ?_
      | refine fr_setStream c_scr ?_ | apply fr_foldl | apply fr_foldl_fst | apply fr_foldl_snd | intro _ | split

theorem fr_maybeEnded {w : Part → Bool} {o s : State} {a1 : Nat} (c_ev : w .ev = true) (c_scr : w .scr = true)
    (c_bgLog : w .bgLog = true) (c_r4 : w (.regs 4) = true) (h : Fr w o s) :
    Fr w o (maybeEnded s a1) := by
  rw [maybeEnded]
  repeat' with_reducible first
    | assumption | apply fr_ite | refine fr_flushOutput c_scr ?_ | refine fr_streamEvent c_ev c_bgLog c_r4 ?_
    | refine fr_onStream c_scr ?_ | intro _

theorem fr_runStreamOpen {w : Part → Bool} {o s : State} {a1 : Cmd} {a2 : List Byte} (c_wire : w .wire = true)
    (c_host : w .host = true) (c_hif : w .hif = true) (c_ev : w .ev = true) (c_scr : w .scr = true)
    (c_bgLog : w .bgLog = true) (c_pins : w .pins = true) (c_r3 : w (.regs 3) = true) (c_r4 : w (.regs 4) = true)
    (c_r6 : w (.regs 6) = true) (c_r7 : w (.regs 7) = true) (h : Fr w o s) :
    Fr w o (runStreamOpen s a1 a2) := by
  rw [runStreamOpen]
  repeat' with_reducible first
    | assumption | refine fr_complete c_wire c_host c_hif c_ev c_bgLog c_pins c_r3 c_r4 ?_
    | refine fr_refreshLoads c_r6 c_r7 ?_ | refine fr_setStream c_scr ?_

theorem fr_attachPicture {w : Part → Bool} {o s : State} {a1 : Nat} (c_prj : w .prj = true) (h : Fr w o s) :
    Fr w o (attachPicture s a1) := by
  rw [attachPicture.eq_def]
  repeat' with_reducible first
    | assumption | refine fr_setView c_prj ?_ | apply fr_foldS | apply fr_foldl | apply fr_foldl_fst | apply fr_foldl_snd
    | intro _ | split

theorem fr_finishClose {w : Part → Bool} {o s : State} {a1 : Nat} {a2 : Nat} (c_wire : w .wire = true)
    (c_host : w .host = true) (c_hif : w .hif = true) (c_ev : w .ev = true) (c_prj : w .prj = true) (c_scr : w .scr = true)
    (c_bgLog : w .bgLog = true) (c_pins : w .pins = true) (c_r3 : w (.regs 3) = true) (c_r4 : w (.regs 4) = true)
    (c_r6 : w (.regs 6) = true) (c_r7 : w (.regs 7) = true) (h : Fr w o s) :
    Fr w o (finishClose s a1 a2) := by
  rw [finishClose]
  repeat' with_reducible first
    | assumption | refine fr_attachPicture c_prj ?_ | refine fr_setView c_prj ?_
    | refine fr_completeId c_wire c_host c_hif c_ev c_bgLog c_pins c_r3 c_r4 ?_ | refine fr_refreshLoads c_r6 c_r7 ?_
    | refine fr_setStream c_scr ?_ | apply fr_foldS | intro _

theorem fr_abortData {w : Part → Bool} {o s : State} {a1 : Nat} {a2 : Nat} (c_wire : w .wire = true)
    (c_host : w .host = true) (c_hif : w .hif = true) (c_ev : w .ev = true) (c_scr : w .scr = true)
    (c_bgLog : w .bgLog = true) (c_pins : w .pins = true) (c_r3 : w (.regs 3) = true) (c_r4 : w (.regs 4) = true)
    (h : Fr w o s) :
    Fr w o (abortData s a1 a2) := by
  rw [abortData]
  repeat' with_reducible first
    | assumption | refine fr_completeId c_wire c_host c_hif c_ev c_bgLog c_pins c_r3 c_r4 ?_ | refine fr_onStream c_scr ?_
    | apply fr_foldS | intro _

theorem fr_beginAu {w : Part → Bool} {o s : State} {a1 : Nat} {a2 : Option Nat} {a3 : Nat} (c_scr : w .scr = true)
    (h : Fr w o s) :
    Fr w o (beginAu s a1 a2 a3) := by
  rw [beginAu]
  repeat' with_reducible first
    | assumption | apply fr_ite | apply fr_ite_fst | refine fr_onStream c_scr ?_ | intro _

theorem fr_readyAu {w : Part → Bool} {o s : State} {a1 : Nat} {a2 : Bool} (c_scr : w .scr = true) (h : Fr w o s) :
    Fr w o (readyAu s a1 a2) := by
  rw [readyAu]
  repeat' with_reducible first | assumption | apply fr_ite | refine fr_onStream c_scr ?_ | intro _

theorem fr_noteTimestamp {w : Part → Bool} {o s : State} {a1 : Nat} {a2 : Option Nat} (c_ev : w .ev = true)
    (c_scr : w .scr = true) (c_bgLog : w .bgLog = true) (c_r4 : w (.regs 4) = true) (h : Fr w o s) :
    Fr w o (noteTimestamp s a1 a2) := by
  rw [noteTimestamp.eq_def]
  repeat' with_reducible first
    | assumption | apply fr_ite | refine fr_onStream c_scr ?_ | refine fr_streamEvent c_ev c_bgLog c_r4 ?_ | intro _ | split

theorem fr_endAu {w : Part → Bool} {o s : State} {a1 : Nat} {a2 : Nat} {a3 : Bool} (c_ev : w .ev = true)
    (c_scr : w .scr = true) (c_bgLog : w .bgLog = true) (c_r4 : w (.regs 4) = true) (h : Fr w o s) :
    Fr w o (endAu s a1 a2 a3) := by
  rw [endAu.eq_def]
  repeat' with_reducible first
    | assumption | apply fr_ite | refine fr_readyAu c_scr ?_ | refine fr_noteTimestamp c_ev c_scr c_bgLog c_r4 ?_
    | refine fr_onStream c_scr ?_ | intro _ | split | (dsimp only; split)

theorem fr_seekUnit {w : Part → Bool} {o s : State} {a1 : Nat} {a2 : Nat} (c_scr : w .scr = true) (h : Fr w o s) :
    Fr w o (seekUnit s a1 a2) := by
  rw [seekUnit]
  repeat' with_reducible first | assumption | refine fr_onStream c_scr ?_ | intro _ | refine fr_mk rfl ?_

theorem fr_takeContour {w : Part → Bool} {o s : State} {a1 : Nat} {a2 : Nat} (c_ev : w .ev = true) (c_scr : w .scr = true)
    (c_bgLog : w .bgLog = true) (c_r4 : w (.regs 4) = true) (h : Fr w o s) :
    Fr w o (takeContour s a1 a2) := by
  induction a2 generalizing s a1 with
  | zero => exact h
  | succ k ih =>
    rw [takeContour]
    repeat' with_reducible first
      | assumption | apply fr_ite | apply ih | refine fr_onStream c_scr ?_ | refine fr_seekUnit c_scr ?_
      | refine fr_beginAu c_scr ?_ | refine fr_streamEvent c_ev c_bgLog c_r4 ?_ | refine fr_endAu c_ev c_scr c_bgLog c_r4 ?_
      | refine fr_readyAu c_scr ?_ | intro _

theorem fr_addNal {w : Part → Bool} {o s : State} {a1 : Nat} {a2 : List Byte} {a3 : Bool} (c_scr : w .scr = true)
    (h : Fr w o s) :
    Fr w o (addNal s a1 a2 a3) := by
  rw [addNal]
  repeat' with_reducible first
    | assumption | apply fr_ite | refine fr_onStream c_scr ?_ | refine fr_readyAu c_scr ?_ | intro _

theorem fr_dropBytes {w : Part → Bool} {o s : State} {a1 : Nat} {a2 : Nat} (c_scr : w .scr = true) (h : Fr w o s) :
    Fr w o (dropBytes s a1 a2) := by
  rw [dropBytes]
  repeat' with_reducible first | assumption | refine fr_onStream c_scr ?_ | intro _ | refine fr_mk rfl ?_

theorem fr_annexNal {w : Part → Bool} {o s : State} {a1 : Nat} {a2 : List Byte} {a3 : Bool} {a4 : Nat} {a5 : Nat}
    (c_ev : w .ev = true) (c_scr : w .scr = true) (c_bgLog : w .bgLog = true) (c_r4 : w (.regs 4) = true) (h : Fr w o s) :
    Fr w o (annexNal s a1 a2 a3 a4 a5) := by
  rw [annexNal]
  repeat' with_reducible first
    | assumption | apply fr_ite | apply fr_ite_fst | refine fr_endAu c_ev c_scr c_bgLog c_r4 ?_ | refine fr_addNal c_scr ?_
    | refine fr_beginAu c_scr ?_ | refine fr_onStream c_scr ?_ | refine fr_streamEvent c_ev c_bgLog c_r4 ?_ | intro _
    | refine fr_mk rfl ?_

theorem fr_takeAnnexB {w : Part → Bool} {o s : State} {a1 : Nat} {a2 : Bool} {a3 : Nat} (c_ev : w .ev = true)
    (c_scr : w .scr = true) (c_bgLog : w .bgLog = true) (c_r4 : w (.regs 4) = true) (h : Fr w o s) :
    Fr w o (takeAnnexB s a1 a2 a3) := by
  induction a3 generalizing s a1 a2 with
  | zero => exact h
  | succ k ih =>
    rw [takeAnnexB]
    repeat' with_reducible first
      | assumption | apply fr_ite | apply fr_ite_fst | apply fr_ite_snd | apply ih | refine fr_dropBytes c_scr ?_
      | refine fr_annexNal c_ev c_scr c_bgLog c_r4 ?_ | intro _ | split | (dsimp only; split)

theorem fr_hevcOversize {w : Part → Bool} {o s : State} {a1 : Nat} (c_ev : w .ev = true) (c_scr : w .scr = true)
    (c_bgLog : w .bgLog = true) (c_r4 : w (.regs 4) = true) (h : Fr w o s) :
    Fr w o (hevcOversize s a1) := by
  rw [hevcOversize]
  repeat' with_reducible first
    | assumption | apply fr_ite | refine fr_onStream c_scr ?_ | refine fr_streamEvent c_ev c_bgLog c_r4 ?_ | intro _

theorem fr_rangeEnd {w : Part → Bool} {o s : State} {a1 : Nat} {a2 : List Byte} (c_ev : w .ev = true)
    (c_scr : w .scr = true) (c_bgLog : w .bgLog = true) (c_r4 : w (.regs 4) = true) (h : Fr w o s) :
    Fr w o (rangeEnd s a1 a2) := by
  rw [rangeEnd]
  repeat' with_reducible first
    | assumption | apply fr_ite | refine fr_takeAnnexB c_ev c_scr c_bgLog c_r4 ?_
    | refine fr_endAu c_ev c_scr c_bgLog c_r4 ?_ | refine fr_onStream c_scr ?_
    | refine fr_maybeEnded c_ev c_scr c_bgLog c_r4 ?_ | intro _

theorem fr_feed {w : Part → Bool} {o s : State} {a1 : Nat} {a2 : Nat} {a3 : List Byte} (c_ev : w .ev = true)
    (c_scr : w .scr = true) (c_bgLog : w .bgLog = true) (c_r4 : w (.regs 4) = true) (h : Fr w o s) :
    Fr w o (feed s a1 a2 a3).1 := by
  induction a2 generalizing s a1 a3 with
  | zero => exact h
  | succ k ih =>
    rw [feed]
    repeat' with_reducible first
      | assumption | apply fr_ite | apply fr_ite_fst | apply ih | refine fr_onStream c_scr ?_
      | refine fr_takeContour c_ev c_scr c_bgLog c_r4 ?_ | refine fr_hevcOversize c_ev c_scr c_bgLog c_r4 ?_
      | refine fr_takeAnnexB c_ev c_scr c_bgLog c_r4 ?_ | intro _

theorem fr_rangeBegin {w : Part → Bool} {o s : State} {a1 : Nat} {a2 : List Byte} (c_scr : w .scr = true) (h : Fr w o s) :
    Fr w o (rangeBegin s a1 a2) := by
  rw [rangeBegin]
  repeat' with_reducible first
    | assumption | apply fr_ite | refine fr_onStream c_scr ?_ | refine fr_toSyncing c_scr ?_ | intro _

theorem fr_feedWaits {w : Part → Bool} {o s : State} {a1 : Nat} {a2 : Nat} (c_wire : w .wire = true)
    (c_host : w .host = true) (c_hif : w .hif = true) (c_ev : w .ev = true) (c_scr : w .scr = true)
    (c_bgLog : w .bgLog = true) (c_pins : w .pins = true) (c_r3 : w (.regs 3) = true) (c_r4 : w (.regs 4) = true)
    (h : Fr w o s) :
    Fr w o (feedWaits s a1 a2) := by
  induction a2 generalizing s a1 with
  | zero => exact h
  | succ k ih =>
    rw [feedWaits]
    repeat' with_reducible first
      | assumption | apply fr_ite | apply fr_ite_fst | apply fr_ite_snd | apply ih | refine fr_rangeBegin c_scr ?_
      | refine fr_feed c_ev c_scr c_bgLog c_r4 ?_ | refine fr_onStream c_scr ?_
      | refine fr_complete c_wire c_host c_hif c_ev c_bgLog c_pins c_r3 c_r4 ?_
      | refine fr_rangeEnd c_ev c_scr c_bgLog c_r4 ?_ | intro _ | split

theorem fr_runStreamData {w : Part → Bool} {o s : State} {a1 : Cmd} {a2 : List Byte} (c_wire : w .wire = true)
    (c_host : w .host = true) (c_hif : w .hif = true) (c_ev : w .ev = true) (c_scr : w .scr = true)
    (c_bgLog : w .bgLog = true) (c_pins : w .pins = true) (c_r3 : w (.regs 3) = true) (c_r4 : w (.regs 4) = true)
    (h : Fr w o s) :
    Fr w o (runStreamData s a1 a2) := by
  rw [runStreamData]
  repeat' with_reducible first
    | assumption | apply fr_ite | refine fr_complete c_wire c_host c_hif c_ev c_bgLog c_pins c_r3 c_r4 ?_
    | refine fr_feedWaits c_wire c_host c_hif c_ev c_scr c_bgLog c_pins c_r3 c_r4 ?_ | refine fr_setStream c_scr ?_
    | intro _

theorem fr_runStreamConcealSet {w : Part → Bool} {o s : State} {a1 : Cmd} {a2 : List Byte} (c_wire : w .wire = true)
    (c_host : w .host = true) (c_hif : w .hif = true) (c_ev : w .ev = true) (c_scr : w .scr = true)
    (c_bgLog : w .bgLog = true) (c_pins : w .pins = true) (c_r3 : w (.regs 3) = true) (c_r4 : w (.regs 4) = true)
    (h : Fr w o s) :
    Fr w o (runStreamConcealSet s a1 a2) := by
  rw [runStreamConcealSet]
  repeat' with_reducible first
    | assumption | refine fr_complete c_wire c_host c_hif c_ev c_bgLog c_pins c_r3 c_r4 ?_ | refine fr_onStream c_scr ?_
    | intro _

theorem fr_putSegment {w : Part → Bool} {o s : State} {a1 : Nat} {a2 : Nat × Nat × List Byte} (c_ev : w .ev = true)
    (c_scr : w .scr = true) (c_bgLog : w .bgLog = true) (c_r4 : w (.regs 4) = true) (h : Fr w o s) :
    Fr w o (putSegment s a1 a2) := by
  rw [putSegment]
  repeat' with_reducible first
    | assumption | apply fr_ite | refine fr_streamEvent c_ev c_bgLog c_r4 ?_ | refine fr_setStream c_scr ?_
    | refine fr_snd (by assumption) ?_ | refine fr_fst (by assumption) ?_ | intro _ | split

theorem fr_endRaster {w : Part → Bool} {o s : State} {a1 : Nat} (c_ev : w .ev = true) (c_scr : w .scr = true)
    (c_bgLog : w .bgLog = true) (c_r4 : w (.regs 4) = true) (h : Fr w o s) :
    Fr w o (endRaster s a1) := by
  rw [endRaster.eq_def]
  repeat' with_reducible first
    | assumption | apply fr_ite | refine fr_setStream c_scr ?_ | refine fr_toRunning c_ev c_scr c_bgLog c_r4 ?_
    | refine fr_onStream c_scr ?_ | refine fr_deliver c_scr ?_ | intro _ | split | (dsimp only; split)

theorem fr_commitBand {w : Part → Bool} {o s : State} {a1 : Nat} (c_ev : w .ev = true) (c_scr : w .scr = true)
    (c_bgLog : w .bgLog = true) (c_r4 : w (.regs 4) = true) (h : Fr w o s) :
    Fr w o (commitBand s a1) := by
  rw [commitBand.eq_def]
  repeat' with_reducible first
    | assumption | apply fr_ite | refine fr_setStream c_scr ?_ | refine fr_streamEvent c_ev c_bgLog c_r4 ?_
    | refine fr_endRaster c_ev c_scr c_bgLog c_r4 ?_ | intro _ | split | (dsimp only; split)

theorem fr_closeRaster {w : Part → Bool} {o s : State} {a1 : Nat} {a2 : Nat} (c_ev : w .ev = true) (c_scr : w .scr = true)
    (c_bgLog : w .bgLog = true) (c_r4 : w (.regs 4) = true) (h : Fr w o s) :
    Fr w o (closeRaster s a1 a2) := by
  induction a2 generalizing s a1 with
  | zero => exact h
  | succ k ih =>
    rw [closeRaster]
    repeat' with_reducible first
      | assumption | apply fr_ite | apply ih | refine fr_onStream c_scr ?_ | refine fr_commitBand c_ev c_scr c_bgLog c_r4 ?_
      | intro _

theorem fr_beginRaster {w : Part → Bool} {o s : State} {a1 : Nat} {a2 : Nat} (c_ev : w .ev = true) (c_scr : w .scr = true)
    (c_bgLog : w .bgLog = true) (c_r4 : w (.regs 4) = true) (h : Fr w o s) :
    Fr w o (beginRaster s a1 a2) := by
  rw [beginRaster]
  repeat' with_reducible first
    | assumption | refine fr_noteTimestamp c_ev c_scr c_bgLog c_r4 ?_ | refine fr_onStream c_scr ?_ | intro _
    | refine fr_mk rfl ?_

theorem fr_rasterRows {w : Part → Bool} {o s : State} {a1 : Nat} {a2 : List Byte} (c_ev : w .ev = true)
    (c_scr : w .scr = true) (c_bgLog : w .bgLog = true) (c_r4 : w (.regs 4) = true) (h : Fr w o s) :
    Fr w o (rasterRows s a1 a2) := by
  rw [rasterRows]
  repeat' with_reducible first
    | assumption | apply fr_ite | apply fr_ite_fst | apply fr_ite_snd | refine fr_streamEvent c_ev c_bgLog c_r4 ?_
    | refine fr_putSegment c_ev c_scr c_bgLog c_r4 ?_ | apply fr_foldS | intro _ | split | (dsimp only; split)

theorem fr_takeRaster {w : Part → Bool} {o s : State} {a1 : Nat} {a2 : Packet} (c_ev : w .ev = true) (c_scr : w .scr = true)
    (c_bgLog : w .bgLog = true) (c_r4 : w (.regs 4) = true) (h : Fr w o s) :
    Fr w o (takeRaster s a1 a2) := by
  rw [takeRaster]
  repeat' with_reducible first
    | assumption | apply fr_ite | refine fr_streamEvent c_ev c_bgLog c_r4 ?_ | refine fr_onStream c_scr ?_
    | refine fr_closeRaster c_ev c_scr c_bgLog c_r4 ?_ | refine fr_beginRaster c_ev c_scr c_bgLog c_r4 ?_
    | refine fr_rasterRows c_ev c_scr c_bgLog c_r4 ?_ | intro _

theorem fr_splitAu {w : Part → Bool} {o s : State} {a1 : Nat} {a2 : Nat} (c_ev : w .ev = true) (c_scr : w .scr = true)
    (c_bgLog : w .bgLog = true) (c_r4 : w (.regs 4) = true) (h : Fr w o s) :
    Fr w o (splitAu s a1 a2) := by
  rw [splitAu.eq_def]
  repeat' with_reducible first
    | assumption | apply fr_ite | refine fr_endAu c_ev c_scr c_bgLog c_r4 ?_ | intro _ | split

theorem fr_takeContourPacket {w : Part → Bool} {o s : State} {a1 : Nat} {a2 : Packet} (c_ev : w .ev = true)
    (c_scr : w .scr = true) (c_bgLog : w .bgLog = true) (c_r4 : w (.regs 4) = true) (c_r6 : w (.regs 6) = true)
    (h : Fr w o s) :
    Fr w o (takeContourPacket s a1 a2) := by
  rw [takeContourPacket.eq_def]
  repeat' with_reducible first
    | assumption | apply fr_ite | refine fr_addF 6 (by decide) c_r6 ?_ | refine fr_beginAu c_scr ?_
    | refine fr_splitAu c_ev c_scr c_bgLog c_r4 ?_ | refine fr_endAu c_ev c_scr c_bgLog c_r4 ?_
    | refine fr_streamEvent c_ev c_bgLog c_r4 ?_ | refine fr_onStream c_scr ?_ | refine fr_readyAu c_scr ?_ | intro _
    | split | (dsimp only; split)

theorem fr_lostNal {w : Part → Bool} {o s : State} {a1 : Nat} (c_scr : w .scr = true) (h : Fr w o s) :
    Fr w o (lostNal s a1) := by
  rw [lostNal]
  repeat' with_reducible first | assumption | refine fr_onStream c_scr ?_ | intro _

theorem fr_setFragment {w : Part → Bool} {o s : State} {a1 : Nat} {a2 : Option Bool} (c_scr : w .scr = true)
    (h : Fr w o s) :
    Fr w o (setFragment s a1 a2) := by
  rw [setFragment]
  repeat' with_reducible first | assumption | refine fr_onStream c_scr ?_ | intro _ | refine fr_mk rfl ?_

theorem fr_fuPacket {w : Part → Bool} {o s : State} {a1 : Nat} {a2 : List Byte} (c_ev : w .ev = true)
    (c_scr : w .scr = true) (c_bgLog : w .bgLog = true) (c_r4 : w (.regs 4) = true) (h : Fr w o s) :
    Fr w o (fuPacket s a1 a2) := by
  rw [fuPacket.eq_def]
  repeat' with_reducible first
    | assumption | apply fr_ite | apply fr_ite_fst | refine fr_setFragment c_scr ?_ | refine fr_onStream c_scr ?_
    | refine fr_addNal c_scr ?_ | refine fr_lostNal c_scr ?_ | refine fr_streamEvent c_ev c_bgLog c_r4 ?_ | intro _ | split

theorem fr_takeHevcPacket {w : Part → Bool} {o s : State} {a1 : Nat} {a2 : Packet} (c_ev : w .ev = true)
    (c_scr : w .scr = true) (c_bgLog : w .bgLog = true) (c_r4 : w (.regs 4) = true) (h : Fr w o s) :
    Fr w o (takeHevcPacket s a1 a2) := by
  rw [takeHevcPacket]
  repeat' with_reducible first
    | assumption | apply fr_ite | refine fr_beginAu c_scr ?_ | refine fr_splitAu c_ev c_scr c_bgLog c_r4 ?_
    | refine fr_setFragment c_scr ?_ | refine fr_addNal c_scr ?_ | refine fr_fuPacket c_ev c_scr c_bgLog c_r4 ?_
    | refine fr_streamEvent c_ev c_bgLog c_r4 ?_ | refine fr_lostNal c_scr ?_ | refine fr_onStream c_scr ?_
    | refine fr_endAu c_ev c_scr c_bgLog c_r4 ?_ | apply fr_foldS | intro _

theorem fr_takePacket {w : Part → Bool} {o s : State} {a1 : Nat} {a2 : Packet} (c_ev : w .ev = true) (c_scr : w .scr = true)
    (c_bgLog : w .bgLog = true) (c_r4 : w (.regs 4) = true) (c_r6 : w (.regs 6) = true) (h : Fr w o s) :
    Fr w o (takePacket s a1 a2) := by
  rw [takePacket]
  repeat' with_reducible first
    | assumption | apply fr_ite | refine fr_toSyncing c_scr ?_ | refine fr_takeRaster c_ev c_scr c_bgLog c_r4 ?_
    | refine fr_takeContourPacket c_ev c_scr c_bgLog c_r4 c_r6 ?_ | refine fr_takeHevcPacket c_ev c_scr c_bgLog c_r4 ?_
    | intro _

theorem fr_showCells {w : Part → Bool} {o s : State} (c_r6 : w (.regs 6) = true) (h : Fr w o s) :
    Fr w o (showCells s) := by
  rw [showCells]
  repeat' with_reducible first | assumption | refine fr_setF 6 (by decide) c_r6 ?_

theorem fr_releaseInOrder {w : Part → Bool} {o s : State} {a1 : Nat} {a2 : Nat} (c_ev : w .ev = true)
    (c_scr : w .scr = true) (c_bgLog : w .bgLog = true) (c_r4 : w (.regs 4) = true) (c_r6 : w (.regs 6) = true)
    (h : Fr w o s) :
    Fr w o (releaseInOrder s a1 a2) := by
  induction a2 generalizing s a1 with
  | zero => exact h
  | succ k ih =>
    rw [releaseInOrder]
    repeat' with_reducible first
      | assumption | apply ih | refine fr_onStream c_scr ?_ | refine fr_takePacket c_ev c_scr c_bgLog c_r4 c_r6 ?_
      | refine fr_setStream c_scr ?_ | intro _ | split

theorem fr_losePackets {w : Part → Bool} {o s : State} {a1 : Nat} {a2 : Nat} (c_ev : w .ev = true) (c_scr : w .scr = true)
    (c_bgLog : w .bgLog = true) (c_r4 : w (.regs 4) = true) (h : Fr w o s) :
    Fr w o (losePackets s a1 a2) := by
  rw [losePackets]
  repeat' with_reducible first
    | assumption | apply fr_ite | refine fr_setStream c_scr ?_ | refine fr_streamEvent c_ev c_bgLog c_r4 ?_ | intro _
    | split | (dsimp only; split) | refine fr_mk rfl ?_

theorem fr_loseGap {w : Part → Bool} {o s : State} {a1 : Nat} (c_ev : w .ev = true) (c_scr : w .scr = true)
    (c_bgLog : w .bgLog = true) (c_r4 : w (.regs 4) = true) (h : Fr w o s) :
    Fr w o (loseGap s a1) := by
  rw [loseGap.eq_def]
  repeat' with_reducible first
    | assumption | apply fr_ite | refine fr_losePackets c_ev c_scr c_bgLog c_r4 ?_ | refine fr_onStream c_scr ?_ | intro _
    | split | (dsimp only; split) | refine fr_mk rfl ?_

theorem fr_passGap {w : Part → Bool} {o s : State} {a1 : Nat} (c_ev : w .ev = true) (c_scr : w .scr = true)
    (c_bgLog : w .bgLog = true) (c_r4 : w (.regs 4) = true) (c_r6 : w (.regs 6) = true) (h : Fr w o s) :
    Fr w o (passGap s a1) := by
  rw [passGap]
  repeat' with_reducible first
    | assumption | refine fr_showCells c_r6 ?_ | refine fr_releaseInOrder c_ev c_scr c_bgLog c_r4 c_r6 ?_
    | refine fr_loseGap c_ev c_scr c_bgLog c_r4 ?_

theorem fr_loseAllGaps {w : Part → Bool} {o s : State} {a1 : Nat} {a2 : Nat} (c_ev : w .ev = true) (c_scr : w .scr = true)
    (c_bgLog : w .bgLog = true) (c_r4 : w (.regs 4) = true) (c_r6 : w (.regs 6) = true) (h : Fr w o s) :
    Fr w o (loseAllGaps s a1 a2) := by
  induction a2 generalizing s a1 with
  | zero => exact h
  | succ k ih =>
    rw [loseAllGaps]
    repeat' with_reducible first
      | assumption | apply fr_ite | apply ih | refine fr_passGap c_ev c_scr c_bgLog c_r4 c_r6 ?_ | intro _

theorem fr_stagingPressure {w : Part → Bool} {o s : State} (c_ev : w .ev = true) (c_scr : w .scr = true)
    (c_bgLog : w .bgLog = true) (c_r4 : w (.regs 4) = true) (c_r6 : w (.regs 6) = true) (h : Fr w o s) :
    Fr w o (stagingPressure s) := by
  rw [stagingPressure]
  repeat' with_reducible first
    | assumption | apply fr_ite | apply fr_ite_fst | apply fr_ite_snd | refine fr_streamEvent c_ev c_bgLog c_r4 ?_
    | refine fr_loseAllGaps c_ev c_scr c_bgLog c_r4 c_r6 ?_ | apply fr_foldl | apply fr_foldl_fst | apply fr_foldl_snd
    | intro _

theorem fr_dropPacket {w : Part → Bool} {o s : State} (c_r6 : w (.regs 6) = true) (h : Fr w o s) :
    Fr w o (dropPacket s) := by
  rw [dropPacket]
  repeat' with_reducible first | assumption | refine fr_addF 6 (by decide) c_r6 ?_

theorem fr_loseBehind {w : Part → Bool} {o s : State} {a1 : Nat} {a2 : Nat} {a3 : Nat} (c_ev : w .ev = true)
    (c_scr : w .scr = true) (c_bgLog : w .bgLog = true) (c_r4 : w (.regs 4) = true) (c_r6 : w (.regs 6) = true)
    (h : Fr w o s) :
    Fr w o (loseBehind s a1 a2 a3) := by
  induction a3 generalizing s a1 a2 with
  | zero => exact h
  | succ k ih =>
    rw [loseBehind]
    repeat' with_reducible first
      | assumption | apply fr_ite | apply ih | refine fr_takePacket c_ev c_scr c_bgLog c_r4 c_r6 ?_
      | refine fr_setStream c_scr ?_ | refine fr_losePackets c_ev c_scr c_bgLog c_r4 ?_ | intro _ | split

theorem fr_acceptPacket {w : Part → Bool} {o s : State} {a1 : Nat} {a2 : Nat} {a3 : Packet} (c_ev : w .ev = true)
    (c_scr : w .scr = true) (c_bgLog : w .bgLog = true) (c_r4 : w (.regs 4) = true) (c_r6 : w (.regs 6) = true)
    (h : Fr w o s) :
    Fr w o (acceptPacket s a1 a2 a3) := by
  rw [acceptPacket]
  repeat' with_reducible first
    | assumption | apply fr_ite | refine fr_onStream c_scr ?_ | refine fr_loseBehind c_ev c_scr c_bgLog c_r4 c_r6 ?_
    | refine fr_releaseInOrder c_ev c_scr c_bgLog c_r4 c_r6 ?_ | refine fr_passGap c_ev c_scr c_bgLog c_r4 c_r6 ?_
    | refine fr_stagingPressure c_ev c_scr c_bgLog c_r4 c_r6 ?_ | refine fr_showCells c_r6 ?_ | intro _

theorem fr_receivePacket {w : Part → Bool} {o s : State} {a1 : Nat} {a2 : List Byte} (c_ev : w .ev = true)
    (c_scr : w .scr = true) (c_bgLog : w .bgLog = true) (c_r4 : w (.regs 4) = true) (c_r6 : w (.regs 6) = true)
    (h : Fr w o s) :
    Fr w o (receivePacket s a1 a2) := by
  rw [receivePacket]
  repeat' with_reducible first
    | assumption | apply fr_ite | refine fr_dropPacket c_r6 ?_ | refine fr_streamEvent c_ev c_bgLog c_r4 ?_
    | refine fr_loseAllGaps c_ev c_scr c_bgLog c_r4 c_r6 ?_ | refine fr_acceptPacket c_ev c_scr c_bgLog c_r4 c_r6 ?_
    | refine fr_onStream c_scr ?_ | refine fr_setStream c_scr ?_ | intro _

end Sys2Proof.Machine
end

