-- ==== Sys2Proof/Laws/FrameDecoding.lean ====
section
/-!
SUPPORT. What the operations of Machine/Decoding.lean leave as it was.
-/

set_option Elab.async false

namespace Sys2Proof.Machine

theorem fr_setJob {w : Part → Bool} {o s : State} {a1 : Nat} {a2 : Job} (c_scr : w .scr = true) (h : Fr w o s) :
    Fr w o (setJob s a1 a2) := by
  rw [setJob]
  repeat' with_reducible first | assumption | refine fr_onStream c_scr ?_ | intro _

theorem fr_pruneAus {w : Part → Bool} {o s : State} {a1 : Nat} {a2 : Nat} (c_ev : w .ev = true) (c_scr : w .scr = true)
    (c_bgLog : w .bgLog = true) (c_r4 : w (.regs 4) = true) (h : Fr w o s) :
    Fr w o (pruneAus s a1 a2) := by
  induction a2 generalizing s a1 with
  | zero => exact h
  | succ k ih =>
    rw [pruneAus]
    repeat' with_reducible first
      | assumption | apply fr_ite | apply ih | refine fr_maybeEnded c_ev c_scr c_bgLog c_r4 ?_ | refine fr_setStream c_scr ?_
      | refine fr_streamEvent c_ev c_bgLog c_r4 ?_ | intro _ | split

theorem fr_pruneEarly {w : Part → Bool} {o s : State} {a1 : Nat} (c_ev : w .ev = true) (c_scr : w .scr = true)
    (c_bgLog : w .bgLog = true) (c_r4 : w (.regs 4) = true) (h : Fr w o s) :
    Fr w o (pruneEarly s a1) := by
  rw [pruneEarly.eq_def]
  repeat' with_reducible first
    | assumption | apply fr_ite | refine fr_streamEvent c_ev c_bgLog c_r4 ?_ | refine fr_setStream c_scr ?_ | intro _
    | split | (dsimp only; split) | refine fr_mk rfl ?_

theorem fr_dropJob {w : Part → Bool} {o s : State} {a1 : Nat} {a2 : Job} (c_scr : w .scr = true) (h : Fr w o s) :
    Fr w o (dropJob s a1 a2) := by
  rw [dropJob]
  repeat' with_reducible first | assumption | apply fr_ite | refine fr_onStream c_scr ?_ | intro _

theorem fr_afterPicture {w : Part → Bool} {o s : State} {a1 : Nat} (c_wire : w .wire = true) (c_host : w .host = true)
    (c_hif : w .hif = true) (c_ev : w .ev = true) (c_prj : w .prj = true) (c_scr : w .scr = true)
    (c_bgLog : w .bgLog = true) (c_pins : w .pins = true) (c_r3 : w (.regs 3) = true) (c_r4 : w (.regs 4) = true)
    (c_r6 : w (.regs 6) = true) (c_r7 : w (.regs 7) = true) (h : Fr w o s) :
    Fr w o (afterPicture s a1) := by
  rw [afterPicture.eq_def]
  repeat' with_reducible first
    | assumption | refine fr_finishClose c_wire c_host c_hif c_ev c_prj c_scr c_bgLog c_pins c_r3 c_r4 c_r6 c_r7 ?_
    | refine fr_maybeEnded c_ev c_scr c_bgLog c_r4 ?_ | split | (dsimp only; split)

theorem fr_giveUp {w : Part → Bool} {o s : State} {a1 : Nat} (c_wire : w .wire = true) (c_host : w .host = true)
    (c_hif : w .hif = true) (c_ev : w .ev = true) (c_prj : w .prj = true) (c_scr : w .scr = true)
    (c_bgLog : w .bgLog = true) (c_pins : w .pins = true) (c_r3 : w (.regs 3) = true) (c_r4 : w (.regs 4) = true)
    (c_r6 : w (.regs 6) = true) (c_r7 : w (.regs 7) = true) (h : Fr w o s) :
    Fr w o (giveUp s a1) := by
  rw [giveUp]
  repeat' with_reducible first
    | assumption | refine fr_freeCore c_scr c_r6 ?_ | refine fr_dropJob c_scr ?_
    | refine fr_afterPicture c_wire c_host c_hif c_ev c_prj c_scr c_bgLog c_pins c_r3 c_r4 c_r6 c_r7 ?_ | split

theorem fr_checkStreamHeader {w : Part → Bool} {o s : State} {a1 : Nat} {a2 : List Byte} (c_ev : w .ev = true)
    (c_scr : w .scr = true) (c_bgLog : w .bgLog = true) (c_r4 : w (.regs 4) = true) (h : Fr w o s) :
    Fr w o (checkStreamHeader s a1 a2) := by
  rw [checkStreamHeader]
  repeat' with_reducible first
    | assumption | apply fr_ite | refine fr_streamEvent c_ev c_bgLog c_r4 ?_ | refine fr_setStream c_scr ?_ | intro _

theorem fr_beginContour {w : Part → Bool} {o s : State} {a1 : Nat} {a2 : Job} (c_wire : w .wire = true)
    (c_host : w .host = true) (c_hif : w .hif = true) (c_ev : w .ev = true) (c_prj : w .prj = true) (c_scr : w .scr = true)
    (c_bgLog : w .bgLog = true) (c_pins : w .pins = true) (c_r3 : w (.regs 3) = true) (c_r4 : w (.regs 4) = true)
    (c_r6 : w (.regs 6) = true) (c_r7 : w (.regs 7) = true) (h : Fr w o s) :
    Fr w o (beginContour s a1 a2) := by
  rw [beginContour.eq_def]
  repeat' with_reducible first
    | assumption | apply fr_ite | refine fr_checkStreamHeader c_ev c_scr c_bgLog c_r4 ?_
    | refine fr_giveUp c_wire c_host c_hif c_ev c_prj c_scr c_bgLog c_pins c_r3 c_r4 c_r6 c_r7 ?_
    | refine fr_streamEvent c_ev c_bgLog c_r4 ?_ | refine fr_onStream c_scr ?_
    | refine fr_toRunning c_ev c_scr c_bgLog c_r4 ?_ | refine fr_setJob c_scr ?_ | intro _ | split

theorem fr_startOnCore {w : Part → Bool} {o s : State} {a1 : Nat} (c_wire : w .wire = true) (c_host : w .host = true)
    (c_hif : w .hif = true) (c_ev : w .ev = true) (c_prj : w .prj = true) (c_scr : w .scr = true) (c_enc : w .enc = true)
    (c_bgLog : w .bgLog = true) (c_pins : w .pins = true) (c_r3 : w (.regs 3) = true) (c_r4 : w (.regs 4) = true)
    (c_r6 : w (.regs 6) = true) (c_r7 : w (.regs 7) = true) (h : Fr w o s) :
    Fr w o (startOnCore s a1) := by
  rw [startOnCore.eq_def]
  repeat' with_reducible first
    | assumption | apply fr_ite | refine fr_startEncode c_enc ?_ | refine fr_setCoreState c_r6 ?_
    | refine fr_freeCore c_scr c_r6 ?_ | refine fr_setJob c_scr ?_ | refine fr_toRunning c_ev c_scr c_bgLog c_r4 ?_
    | refine fr_beginContour c_wire c_host c_hif c_ev c_prj c_scr c_bgLog c_pins c_r3 c_r4 c_r6 c_r7 ?_ | intro _ | split
    | (dsimp only; split)

theorem fr_dispatch {w : Part → Bool} {o s : State} {a1 : Nat} (c_wire : w .wire = true) (c_host : w .host = true)
    (c_hif : w .hif = true) (c_ev : w .ev = true) (c_prj : w .prj = true) (c_scr : w .scr = true) (c_enc : w .enc = true)
    (c_bgLog : w .bgLog = true) (c_pins : w .pins = true) (c_r3 : w (.regs 3) = true) (c_r4 : w (.regs 4) = true)
    (c_r6 : w (.regs 6) = true) (c_r7 : w (.regs 7) = true) (h : Fr w o s) :
    Fr w o (dispatch s a1) := by
  rw [dispatch]
  repeat' with_reducible first
    | assumption | apply fr_ite | apply fr_ite_fst | apply fr_ite_snd | refine fr_setF 6 (by decide) c_r6 ?_
    | refine fr_pruneEarly c_ev c_scr c_bgLog c_r4 ?_ | refine fr_pruneAus c_ev c_scr c_bgLog c_r4 ?_
    | refine fr_setStream c_scr ?_ | refine fr_setCore c_scr ?_ | refine fr_countBusy c_scr ?_
    | refine fr_busyRoll c_scr c_r6 ?_
    | refine fr_startOnCore c_wire c_host c_hif c_ev c_prj c_scr c_enc c_bgLog c_pins c_r3 c_r4 c_r6 c_r7 ?_
    | refine fr_setCoreState c_r6 ?_ | apply fr_foldS | intro _ | split | (dsimp only; split)

theorem fr_loseRows {w : Part → Bool} {o s : State} {a1 : Nat} {a2 : Nat} {a3 : Nat} (c_ev : w .ev = true)
    (c_scr : w .scr = true) (c_bgLog : w .bgLog = true) (c_r4 : w (.regs 4) = true) (h : Fr w o s) :
    Fr w o (loseRows s a1 a2 a3) := by
  rw [loseRows.eq_def]
  repeat' with_reducible first
    | assumption | apply fr_ite | refine fr_streamEvent c_ev c_bgLog c_r4 ?_ | refine fr_setStream c_scr ?_ | intro _
    | split | (dsimp only; split)

theorem fr_waitInput {w : Part → Bool} {o s : State} {a1 : Job} (c_r6 : w (.regs 6) = true) (h : Fr w o s) :
    Fr w o (waitInput s a1) := by
  rw [waitInput]
  repeat' with_reducible first | assumption | apply fr_ite | refine fr_setCoreState c_r6 ?_ | intro _

theorem fr_contourSlice {w : Part → Bool} {o s : State} {a1 : Nat} {a2 : Job} {a3 : PicHdr} {a4 : SliceHdr} {a5 : Nat}
    (c_ev : w .ev = true) (c_scr : w .scr = true) (c_bgLog : w .bgLog = true) (c_r4 : w (.regs 4) = true) (h : Fr w o s) :
    Fr w o (contourSlice s a1 a2 a3 a4 a5) := by
  rw [contourSlice.eq_def]
  repeat' with_reducible first
    | assumption | apply fr_ite | refine fr_loseRows c_ev c_scr c_bgLog c_r4 ?_ | refine fr_setJob c_scr ?_
    | refine fr_streamEvent c_ev c_bgLog c_r4 ?_ | intro _ | split | (dsimp only; split)

theorem fr_contourTail {w : Part → Bool} {o s : State} {a1 : Nat} {a2 : Job} (c_ev : w .ev = true) (c_scr : w .scr = true)
    (c_bgLog : w .bgLog = true) (c_r4 : w (.regs 4) = true) (h : Fr w o s) :
    Fr w o (contourTail s a1 a2) := by
  rw [contourTail]
  repeat' with_reducible first
    | assumption | apply fr_ite | refine fr_streamEvent c_ev c_bgLog c_r4 ?_ | refine fr_setJob c_scr ?_ | intro _ | split
    | (dsimp only; split) | refine fr_mk rfl ?_

theorem fr_nextContour {w : Part → Bool} {o s : State} {a1 : Nat} {a2 : Job} {a3 : PicHdr} (c_ev : w .ev = true)
    (c_scr : w .scr = true) (c_bgLog : w .bgLog = true) (c_r4 : w (.regs 4) = true) (c_r6 : w (.regs 6) = true)
    (h : Fr w o s) :
    Fr w o (nextContour s a1 a2 a3) := by
  rw [nextContour]
  repeat' with_reducible first
    | assumption | apply fr_ite | refine fr_contourTail c_ev c_scr c_bgLog c_r4 ?_ | refine fr_setJob c_scr ?_
    | refine fr_waitInput c_r6 ?_ | refine fr_contourSlice c_ev c_scr c_bgLog c_r4 ?_ | refine fr_setCoreState c_r6 ?_
    | refine fr_streamEvent c_ev c_bgLog c_r4 ?_ | intro _ | split | (dsimp only; split)

theorem fr_nextHevc {w : Part → Bool} {o s : State} {a1 : Nat} {a2 : Job} {a3 : HevcSlice} (c_wire : w .wire = true)
    (c_host : w .host = true) (c_hif : w .hif = true) (c_ev : w .ev = true) (c_prj : w .prj = true) (c_scr : w .scr = true)
    (c_bgLog : w .bgLog = true) (c_pins : w .pins = true) (c_r3 : w (.regs 3) = true) (c_r4 : w (.regs 4) = true)
    (c_r6 : w (.regs 6) = true) (c_r7 : w (.regs 7) = true) (h : Fr w o s) :
    Fr w o (nextHevc s a1 a2 a3) := by
  rw [nextHevc.eq_def]
  repeat' with_reducible first
    | assumption | apply fr_ite | apply fr_ite_fst | apply fr_ite_snd | refine fr_waitInput c_r6 ?_
    | refine fr_giveUp c_wire c_host c_hif c_ev c_prj c_scr c_bgLog c_pins c_r3 c_r4 c_r6 c_r7 ?_
    | refine fr_streamEvent c_ev c_bgLog c_r4 ?_ | refine fr_onStream c_scr ?_ | refine fr_setCoreState c_r6 ?_
    | refine fr_setJob c_scr ?_ | refine fr_loseRows c_ev c_scr c_bgLog c_r4 ?_ | intro _ | split | (dsimp only; split)

theorem fr_judgeDeadline {w : Part → Bool} {o s : State} {a1 : Nat} {a2 : Bool} {a3 : Bool} (c_ev : w .ev = true)
    (c_scr : w .scr = true) (c_bgLog : w .bgLog = true) (c_r4 : w (.regs 4) = true) (c_r6 : w (.regs 6) = true)
    (h : Fr w o s) :
    Fr w o (judgeDeadline s a1 a2 a3) := by
  rw [judgeDeadline]
  repeat' with_reducible first
    | assumption | apply fr_ite | refine fr_addF 6 (by decide) c_r6 ?_ | refine fr_addT c_bgLog ?_
    | refine fr_setStream c_scr ?_ | refine fr_streamEvent c_ev c_bgLog c_r4 ?_ | refine fr_onStream c_scr ?_ | intro _

theorem fr_bumpOutput {w : Part → Bool} {o s : State} {a1 : Nat} {a2 : List Int} (c_scr : w .scr = true) (h : Fr w o s) :
    Fr w o (bumpOutput s a1 a2) := by
  rw [bumpOutput]
  repeat' with_reducible first
    | assumption | refine fr_deliver c_scr ?_ | refine fr_setStream c_scr ?_ | apply fr_foldS | intro _ | split
    | (dsimp only; split)

theorem fr_closeContour {w : Part → Bool} {o s : State} {a1 : Nat} {a2 : Job} {a3 : PicHdr} (c_ev : w .ev = true)
    (c_scr : w .scr = true) (c_bgLog : w .bgLog = true) (c_r4 : w (.regs 4) = true) (h : Fr w o s) :
    Fr w o (closeContour s a1 a2 a3) := by
  rw [closeContour]
  repeat' with_reducible first
    | assumption | apply fr_ite | refine fr_setStream c_scr ?_ | refine fr_streamEvent c_ev c_bgLog c_r4 ?_ | intro _

theorem fr_closeHevc {w : Part → Bool} {o s : State} {a1 : Nat} {a2 : Job} {a3 : HevcEnd} (c_ev : w .ev = true)
    (c_scr : w .scr = true) (c_bgLog : w .bgLog = true) (c_r4 : w (.regs 4) = true) (h : Fr w o s) :
    Fr w o (closeHevc s a1 a2 a3) := by
  rw [closeHevc]
  repeat' with_reducible first
    | assumption | apply fr_ite | apply fr_ite_fst | refine fr_streamEvent c_ev c_bgLog c_r4 ?_
    | refine fr_setStream c_scr ?_ | intro _

theorem fr_closeJob {w : Part → Bool} {o s : State} {a1 : Nat} {a2 : Job} {a3 : HevcEnd} (c_ev : w .ev = true)
    (c_scr : w .scr = true) (c_bgLog : w .bgLog = true) (c_r4 : w (.regs 4) = true) (h : Fr w o s) :
    Fr w o (closeJob s a1 a2 a3) := by
  rw [closeJob.eq_def]
  repeat' with_reducible first
    | assumption | refine fr_closeContour c_ev c_scr c_bgLog c_r4 ?_ | refine fr_closeHevc c_ev c_scr c_bgLog c_r4 ?_
    | split

theorem fr_outputJob {w : Part → Bool} {o s : State} {a1 : Nat} {a2 : Job} {a3 : HevcEnd} {a4 : Delivered}
    (c_scr : w .scr = true) (h : Fr w o s) :
    Fr w o (outputJob s a1 a2 a3 a4) := by
  rw [outputJob.eq_def]
  repeat' with_reducible first
    | assumption | apply fr_ite | apply fr_ite_fst | refine fr_deliver c_scr ?_ | refine fr_bumpOutput c_scr ?_
    | refine fr_onStream c_scr ?_ | intro _ | split

theorem fr_endPictureOf {w : Part → Bool} {o s : State} {a1 : Nat} {a2 : HevcEnd} (c_wire : w .wire = true)
    (c_host : w .host = true) (c_hif : w .hif = true) (c_ev : w .ev = true) (c_prj : w .prj = true) (c_scr : w .scr = true)
    (c_bgLog : w .bgLog = true) (c_pins : w .pins = true) (c_r3 : w (.regs 3) = true) (c_r4 : w (.regs 4) = true)
    (c_r6 : w (.regs 6) = true) (c_r7 : w (.regs 7) = true) (h : Fr w o s) :
    Fr w o (endPictureOf s a1 a2) := by
  rw [endPictureOf.eq_def]
  repeat' with_reducible first
    | assumption | apply fr_ite | refine fr_closeJob c_ev c_scr c_bgLog c_r4 ?_ | refine fr_dropJob c_scr ?_
    | refine fr_judgeDeadline c_ev c_scr c_bgLog c_r4 c_r6 ?_ | refine fr_outputJob c_scr ?_
    | refine fr_afterPicture c_wire c_host c_hif c_ev c_prj c_scr c_bgLog c_pins c_r3 c_r4 c_r6 c_r7 ?_
    | refine fr_freeCore c_scr c_r6 ?_ | intro _ | split

theorem fr_concludePicture {w : Part → Bool} {o s : State} {a1 : Nat} (c_wire : w .wire = true) (c_host : w .host = true)
    (c_hif : w .hif = true) (c_ev : w .ev = true) (c_prj : w .prj = true) (c_scr : w .scr = true)
    (c_bgLog : w .bgLog = true) (c_pins : w .pins = true) (c_r3 : w (.regs 3) = true) (c_r4 : w (.regs 4) = true)
    (c_r6 : w (.regs 6) = true) (c_r7 : w (.regs 7) = true) (h : Fr w o s) :
    Fr w o (concludePicture s a1) := by
  rw [concludePicture.eq_def]
  repeat' with_reducible first
    | assumption | apply fr_ite
    | refine fr_giveUp c_wire c_host c_hif c_ev c_prj c_scr c_bgLog c_pins c_r3 c_r4 c_r6 c_r7 ?_
    | refine fr_onStream c_scr ?_ | refine fr_loseRows c_ev c_scr c_bgLog c_r4 ?_
    | refine fr_endPictureOf c_wire c_host c_hif c_ev c_prj c_scr c_bgLog c_pins c_r3 c_r4 c_r6 c_r7 ?_ | intro _ | split

theorem fr_loseOfPicture {w : Part → Bool} {o s : State} {a1 : Nat} {a2 : Nat} {a3 : Nat} (c_ev : w .ev = true)
    (c_scr : w .scr = true) (c_bgLog : w .bgLog = true) (c_r4 : w (.regs 4) = true) (c_r6 : w (.regs 6) = true)
    (h : Fr w o s) :
    Fr w o (loseOfPicture s a1 a2 a3) := by
  induction a3 generalizing s a1 a2 with
  | zero => exact h
  | succ k ih =>
    rw [loseOfPicture]
    repeat' with_reducible first
      | assumption | apply fr_ite | apply ih | refine fr_passGap c_ev c_scr c_bgLog c_r4 c_r6 ?_ | intro _ | split
      | (dsimp only; split)

theorem fr_inputDue {w : Part → Bool} {o s : State} {a1 : Nat} {a2 : Nat} (c_ev : w .ev = true) (c_scr : w .scr = true)
    (c_bgLog : w .bgLog = true) (c_r4 : w (.regs 4) = true) (c_r6 : w (.regs 6) = true) (h : Fr w o s) :
    Fr w o (inputDue s a1 a2) := by
  rw [inputDue]
  repeat' with_reducible first
    | assumption | apply fr_ite | refine fr_loseOfPicture c_ev c_scr c_bgLog c_r4 c_r6 ?_
    | refine fr_losePackets c_ev c_scr c_bgLog c_r4 ?_ | refine fr_endAu c_ev c_scr c_bgLog c_r4 ?_
    | refine fr_closeRaster c_ev c_scr c_bgLog c_r4 ?_ | intro _ | split | (dsimp only; split)

theorem fr_missExpected {w : Part → Bool} {o s : State} {a1 : Nat} (c_ev : w .ev = true) (c_scr : w .scr = true)
    (c_bgLog : w .bgLog = true) (c_r4 : w (.regs 4) = true) (c_r6 : w (.regs 6) = true) (h : Fr w o s) :
    Fr w o (missExpected s a1) := by
  rw [missExpected.eq_def]
  repeat' with_reducible first
    | assumption | apply fr_ite | refine fr_judgeDeadline c_ev c_scr c_bgLog c_r4 c_r6 ?_ | refine fr_setStream c_scr ?_
    | intro _ | split | (dsimp only; split) | refine fr_mk rfl ?_

theorem fr_pictureDue {w : Part → Bool} {o s : State} {a1 : Nat} (c_wire : w .wire = true) (c_host : w .host = true)
    (c_hif : w .hif = true) (c_ev : w .ev = true) (c_prj : w .prj = true) (c_scr : w .scr = true)
    (c_bgLog : w .bgLog = true) (c_pins : w .pins = true) (c_r3 : w (.regs 3) = true) (c_r4 : w (.regs 4) = true)
    (c_r6 : w (.regs 6) = true) (c_r7 : w (.regs 7) = true) (h : Fr w o s) :
    Fr w o (pictureDue s a1) := by
  rw [pictureDue.eq_def]
  repeat' with_reducible first
    | assumption | apply fr_ite | refine fr_loseOfPicture c_ev c_scr c_bgLog c_r4 c_r6 ?_
    | refine fr_concludePicture c_wire c_host c_hif c_ev c_prj c_scr c_bgLog c_pins c_r3 c_r4 c_r6 c_r7 ?_
    | refine fr_inputDue c_ev c_scr c_bgLog c_r4 c_r6 ?_ | refine fr_missExpected c_ev c_scr c_bgLog c_r4 c_r6 ?_ | intro _
    | split | (dsimp only; split)

theorem fr_runStreamClose {w : Part → Bool} {o s : State} {a1 : Cmd} {a2 : List Byte} (c_wire : w .wire = true)
    (c_host : w .host = true) (c_hif : w .hif = true) (c_ev : w .ev = true) (c_prj : w .prj = true) (c_scr : w .scr = true)
    (c_bgLog : w .bgLog = true) (c_pins : w .pins = true) (c_r3 : w (.regs 3) = true) (c_r4 : w (.regs 4) = true)
    (c_r6 : w (.regs 6) = true) (c_r7 : w (.regs 7) = true) (h : Fr w o s) :
    Fr w o (runStreamClose s a1 a2) := by
  rw [runStreamClose.eq_def]
  repeat' with_reducible first
    | assumption | apply fr_ite | refine fr_abortData c_wire c_host c_hif c_ev c_scr c_bgLog c_pins c_r3 c_r4 ?_
    | refine fr_onStream c_scr ?_ | refine fr_showCells c_r6 ?_
    | refine fr_finishClose c_wire c_host c_hif c_ev c_prj c_scr c_bgLog c_pins c_r3 c_r4 c_r6 c_r7 ?_
    | refine fr_concludePicture c_wire c_host c_hif c_ev c_prj c_scr c_bgLog c_pins c_r3 c_r4 c_r6 c_r7 ?_ | intro _ | split
    | (dsimp only; split)

theorem fr_resetCore {w : Part → Bool} {o s : State} {a1 : Nat} (c_wire : w .wire = true) (c_host : w .host = true)
    (c_hif : w .hif = true) (c_ev : w .ev = true) (c_prj : w .prj = true) (c_scr : w .scr = true) (c_enc : w .enc = true)
    (c_bgLog : w .bgLog = true) (c_pins : w .pins = true) (c_r3 : w (.regs 3) = true) (c_r4 : w (.regs 4) = true)
    (c_r6 : w (.regs 6) = true) (c_r7 : w (.regs 7) = true) (h : Fr w o s) :
    Fr w o (resetCore s a1) := by
  rw [resetCore]
  repeat' with_reducible first
    | assumption | refine fr_closingJob c_ev c_scr c_enc c_bgLog c_r4 ?_
    | refine fr_completeId c_wire c_host c_hif c_ev c_bgLog c_pins c_r3 c_r4 ?_
    | refine fr_concludePicture c_wire c_host c_hif c_ev c_prj c_scr c_bgLog c_pins c_r3 c_r4 c_r6 c_r7 ?_
    | refine fr_abortData c_wire c_host c_hif c_ev c_scr c_bgLog c_pins c_r3 c_r4 ?_ | refine fr_freeCore c_scr c_r6 ?_
    | refine fr_raiseEv c_ev c_bgLog c_r4 ?_ | refine fr_setCoreState c_r6 ?_ | split

theorem fr_resetShared {w : Part → Bool} {o s : State} (c_wire : w .wire = true) (c_host : w .host = true)
    (c_hif : w .hif = true) (c_ev : w .ev = true) (c_prj : w .prj = true) (c_scr : w .scr = true)
    (c_bgLog : w .bgLog = true) (c_pins : w .pins = true) (c_r3 : w (.regs 3) = true) (c_r4 : w (.regs 4) = true)
    (c_r6 : w (.regs 6) = true) (c_r7 : w (.regs 7) = true) (h : Fr w o s) :
    Fr w o (resetShared s) := by
  rw [resetShared]
  repeat' with_reducible first
    | assumption | apply fr_ite | apply fr_ite_fst
    | refine fr_abortData c_wire c_host c_hif c_ev c_scr c_bgLog c_pins c_r3 c_r4 ?_
    | refine fr_finishClose c_wire c_host c_hif c_ev c_prj c_scr c_bgLog c_pins c_r3 c_r4 c_r6 c_r7 ?_
    | refine fr_toSyncing c_scr ?_ | refine fr_onStream c_scr ?_ | refine fr_showCells c_r6 ?_ | apply fr_foldS | intro _
    | split | (dsimp only; split) | refine fr_mk rfl ?_

end Sys2Proof.Machine
end

