-- ==== Sys2Proof/Laws/FrameBmca.lean ====
section
/-!
SUPPORT. What the operations of Machine/Bmca.lean leave as it was.
-/

set_option Elab.async false

namespace Sys2Proof.Machine

theorem fr_bmca {w : Part → Bool} {o s : State} (c_ev : w .ev = true) (c_mer : w .mer = true) (c_bgLog : w .bgLog = true)
    (c_r4 : w (.regs 4) = true) (c_r9 : w (.regs 9) = true) (h : Fr w o s) :
    Fr w o (bmca s) := by
  rw [bmca]
  repeat' with_reducible first
    | assumption | apply fr_ite | apply fr_ite_fst | refine fr_setF 9 (by decide) c_r9 ?_
    | refine fr_setB 9 (by decide) c_r9 ?_ | refine fr_raiseEv c_ev c_bgLog c_r4 ?_ | apply fr_foldS | intro _
    | (dsimp only; split) | refine fr_mk rfl ?_

theorem fr_ptpPortDown {w : Part → Bool} {o s : State} {a1 : Nat} (c_ev : w .ev = true) (c_mer : w .mer = true)
    (c_bgLog : w .bgLog = true) (c_r4 : w (.regs 4) = true) (c_r9 : w (.regs 9) = true) (h : Fr w o s) :
    Fr w o (ptpPortDown s a1) := by
  rw [ptpPortDown]
  repeat' with_reducible first
    | assumption | apply fr_ite | refine fr_setPtp c_mer ?_ | refine fr_bmca c_ev c_mer c_bgLog c_r4 c_r9 ?_ | intro _

end Sys2Proof.Machine
end

