-- ==== Sys2Proof/Laws/FramePorts.lean ====
section
/-!
SUPPORT. What the operations of Machine/Ports.lean leave as it was.
-/

set_option Elab.async false

namespace Sys2Proof.Machine

theorem fr_setPortState {w : Part → Bool} {o s : State} {a1 : Nat} {a2 : Nat} (c_r10 : w (.regs 10) = true) (h : Fr w o s) :
    Fr w o (setPortState s a1 a2) := by
  rw [setPortState]
  repeat' with_reducible first | assumption | refine fr_setF 10 (by decide) c_r10 ?_

theorem fr_showUp {w : Part → Bool} {o s : State} {a1 : Nat} {a2 : Bool} (c_r10 : w (.regs 10) = true) (h : Fr w o s) :
    Fr w o (showUp s a1 a2) := by
  rw [showUp]
  repeat' with_reducible first | assumption | refine fr_setF 10 (by decide) c_r10 ?_ | apply fr_foldS | intro _

theorem fr_bringUp {w : Part → Bool} {o s : State} {a1 : Nat} (c_ports : w .ports = true) (c_r10 : w (.regs 10) = true)
    (h : Fr w o s) :
    Fr w o (bringUp s a1) := by
  rw [bringUp]
  repeat' with_reducible first
    | assumption | apply fr_ite | refine fr_setPort c_ports ?_ | refine fr_setPortState c_r10 ?_ | intro _

theorem fr_takeDown {w : Part → Bool} {o s : State} {a1 : Nat} (c_wire : w .wire = true) (c_host : w .host = true)
    (c_hif : w .hif = true) (c_ev : w .ev = true) (c_mer : w .mer = true) (c_ports : w .ports = true) (c_sw : w .sw = true)
    (c_tm : w .tm = true) (c_sht : w .sht = true) (c_bgLog : w .bgLog = true) (c_pins : w .pins = true)
    (c_r3 : w (.regs 3) = true) (c_r4 : w (.regs 4) = true) (c_r8 : w (.regs 8) = true) (c_r9 : w (.regs 9) = true)
    (c_r10 : w (.regs 10) = true) (c_r11 : w (.regs 11) = true) (h : Fr w o s) :
    Fr w o (takeDown s a1) := by
  rw [takeDown]
  repeat' with_reducible first
    | assumption | apply fr_ite | refine fr_setF 10 (by decide) c_r10 ?_ | refine fr_addF 10 (by decide) c_r10 ?_
    | refine fr_flushPort c_wire c_host c_hif c_ev c_ports c_sw c_tm c_sht c_bgLog c_pins c_r3 c_r4 c_r8 c_r10 c_r11 ?_
    | refine fr_setPortState c_r10 ?_ | refine fr_setPort c_ports ?_ | refine fr_showUp c_r10 ?_
    | refine fr_ptpPortDown c_ev c_mer c_bgLog c_r4 c_r9 ?_ | refine fr_raiseEv c_ev c_bgLog c_r4 ?_ | intro _

theorem fr_loseLink {w : Part → Bool} {o s : State} {a1 : Nat} (c_wire : w .wire = true) (c_host : w .host = true)
    (c_hif : w .hif = true) (c_ev : w .ev = true) (c_mer : w .mer = true) (c_ports : w .ports = true) (c_sw : w .sw = true)
    (c_tm : w .tm = true) (c_sht : w .sht = true) (c_bgLog : w .bgLog = true) (c_pins : w .pins = true)
    (c_r3 : w (.regs 3) = true) (c_r4 : w (.regs 4) = true) (c_r8 : w (.regs 8) = true) (c_r9 : w (.regs 9) = true)
    (c_r10 : w (.regs 10) = true) (c_r11 : w (.regs 11) = true) (h : Fr w o s) :
    Fr w o (loseLink s a1) := by
  rw [loseLink]
  repeat' with_reducible first
    | assumption | apply fr_ite
    | refine fr_takeDown c_wire c_host c_hif c_ev c_mer c_ports c_sw c_tm c_sht c_bgLog c_pins c_r3 c_r4 c_r8 c_r9 c_r10 c_r11 ?_
    | refine fr_raiseEv c_ev c_bgLog c_r4 ?_ | refine fr_setPort c_ports ?_ | refine fr_setPortState c_r10 ?_
    | refine fr_bringUp c_ports c_r10 ?_ | intro _

theorem fr_showConfig {w : Part → Bool} {o s : State} {a1 : Nat} {a2 : List Byte} (c_r10 : w (.regs 10) = true)
    (h : Fr w o s) :
    Fr w o (showConfig s a1 a2) := by
  rw [showConfig]
  repeat' with_reducible first | assumption | refine fr_setF 10 (by decide) c_r10 ?_

theorem fr_markBond {w : Part → Bool} {o s : State} {a1 : Nat} {a2 : List Byte} {a3 : Bool} (c_r10 : w (.regs 10) = true)
    (h : Fr w o s) :
    Fr w o (markBond s a1 a2 a3) := by
  rw [markBond]
  repeat' with_reducible first | assumption | refine fr_setB 10 (by decide) c_r10 ?_ | apply fr_foldS | intro _

theorem fr_dropMeasure {w : Part → Bool} {o s : State} {a1 : Nat} {a2 : Nat} (c_wire : w .wire = true)
    (c_host : w .host = true) (c_hif : w .hif = true) (c_ev : w .ev = true) (c_ports : w .ports = true)
    (c_bgLog : w .bgLog = true) (c_pins : w .pins = true) (c_r3 : w (.regs 3) = true) (c_r4 : w (.regs 4) = true)
    (h : Fr w o s) :
    Fr w o (dropMeasure s a1 a2) := by
  rw [dropMeasure]
  repeat' with_reducible first
    | assumption | refine fr_completeId c_wire c_host c_hif c_ev c_bgLog c_pins c_r3 c_r4 ?_ | refine fr_setPort c_ports ?_
    | apply fr_foldS | intro _

theorem fr_disablePort {w : Part → Bool} {o s : State} {a1 : Nat} (c_wire : w .wire = true) (c_host : w .host = true)
    (c_hif : w .hif = true) (c_ev : w .ev = true) (c_mer : w .mer = true) (c_ports : w .ports = true) (c_sw : w .sw = true)
    (c_tm : w .tm = true) (c_sht : w .sht = true) (c_bgLog : w .bgLog = true) (c_pins : w .pins = true)
    (c_r3 : w (.regs 3) = true) (c_r4 : w (.regs 4) = true) (c_r8 : w (.regs 8) = true) (c_r9 : w (.regs 9) = true)
    (c_r10 : w (.regs 10) = true) (c_r11 : w (.regs 11) = true) (h : Fr w o s) :
    Fr w o (disablePort s a1) := by
  rw [disablePort]
  repeat' with_reducible first
    | assumption | apply fr_ite | refine fr_dropMeasure c_wire c_host c_hif c_ev c_ports c_bgLog c_pins c_r3 c_r4 ?_
    | refine fr_markBond c_r10 ?_
    | refine fr_takeDown c_wire c_host c_hif c_ev c_mer c_ports c_sw c_tm c_sht c_bgLog c_pins c_r3 c_r4 c_r8 c_r9 c_r10 c_r11 ?_
    | refine fr_setPortState c_r10 ?_
    | refine fr_flushPort c_wire c_host c_hif c_ev c_ports c_sw c_tm c_sht c_bgLog c_pins c_r3 c_r4 c_r8 c_r10 c_r11 ?_
    | refine fr_setPort c_ports ?_ | intro _

theorem fr_enablePort {w : Part → Bool} {o s : State} {a1 : Nat} {a2 : List Byte} (c_wire : w .wire = true)
    (c_host : w .host = true) (c_hif : w .hif = true) (c_ev : w .ev = true) (c_mer : w .mer = true)
    (c_ports : w .ports = true) (c_sw : w .sw = true) (c_tm : w .tm = true) (c_sht : w .sht = true)
    (c_bgLog : w .bgLog = true) (c_pins : w .pins = true) (c_r2 : w (.regs 2) = true) (c_r3 : w (.regs 3) = true)
    (c_r4 : w (.regs 4) = true) (c_r8 : w (.regs 8) = true) (c_r9 : w (.regs 9) = true) (c_r10 : w (.regs 10) = true)
    (c_r11 : w (.regs 11) = true) (h : Fr w o s) :
    Fr w o (enablePort s a1 a2) := by
  rw [enablePort]
  repeat' with_reducible first
    | assumption | apply fr_ite | refine fr_showConfig c_r10 ?_ | refine fr_setPort c_ports ?_
    | refine fr_flushPort c_wire c_host c_hif c_ev c_ports c_sw c_tm c_sht c_bgLog c_pins c_r3 c_r4 c_r8 c_r10 c_r11 ?_
    | refine fr_markBond c_r10 ?_
    | refine fr_takeDown c_wire c_host c_hif c_ev c_mer c_ports c_sw c_tm c_sht c_bgLog c_pins c_r3 c_r4 c_r8 c_r9 c_r10 c_r11 ?_
    | refine fr_bringUp c_ports c_r10 ?_ | refine fr_wakeDomains c_r2 ?_ | intro _

theorem fr_runPortConfig {w : Part → Bool} {o s : State} {a1 : Cmd} {a2 : List Byte} (c_wire : w .wire = true)
    (c_host : w .host = true) (c_hif : w .hif = true) (c_ev : w .ev = true) (c_mer : w .mer = true)
    (c_ports : w .ports = true) (c_sw : w .sw = true) (c_tm : w .tm = true) (c_sht : w .sht = true)
    (c_bgLog : w .bgLog = true) (c_pins : w .pins = true) (c_r2 : w (.regs 2) = true) (c_r3 : w (.regs 3) = true)
    (c_r4 : w (.regs 4) = true) (c_r8 : w (.regs 8) = true) (c_r9 : w (.regs 9) = true) (c_r10 : w (.regs 10) = true)
    (c_r11 : w (.regs 11) = true) (h : Fr w o s) :
    Fr w o (runPortConfig s a1 a2) := by
  rw [runPortConfig]
  repeat' with_reducible first
    | assumption | apply fr_ite
    | refine fr_disablePort c_wire c_host c_hif c_ev c_mer c_ports c_sw c_tm c_sht c_bgLog c_pins c_r3 c_r4 c_r8 c_r9 c_r10 c_r11 ?_
    | refine fr_enablePort c_wire c_host c_hif c_ev c_mer c_ports c_sw c_tm c_sht c_bgLog c_pins c_r2 c_r3 c_r4 c_r8 c_r9 c_r10 c_r11 ?_
    | refine fr_bringUp c_ports c_r10 ?_
    | refine fr_flushPort c_wire c_host c_hif c_ev c_ports c_sw c_tm c_sht c_bgLog c_pins c_r3 c_r4 c_r8 c_r10 c_r11 ?_
    | refine fr_takeDown c_wire c_host c_hif c_ev c_mer c_ports c_sw c_tm c_sht c_bgLog c_pins c_r3 c_r4 c_r8 c_r9 c_r10 c_r11 ?_
    | refine fr_complete c_wire c_host c_hif c_ev c_bgLog c_pins c_r3 c_r4 ?_
    | refine fr_bmca c_ev c_mer c_bgLog c_r4 c_r9 ?_ | intro _

theorem fr_finishMeasure {w : Part → Bool} {o s : State} {a1 : Nat} {a2 : Cmd} (c_wire : w .wire = true)
    (c_host : w .host = true) (c_hif : w .hif = true) (c_ev : w .ev = true) (c_bgLog : w .bgLog = true)
    (c_pins : w .pins = true) (c_r3 : w (.regs 3) = true) (c_r4 : w (.regs 4) = true) (c_r10 : w (.regs 10) = true)
    (h : Fr w o s) :
    Fr w o (finishMeasure s a1 a2) := by
  rw [finishMeasure]
  repeat' with_reducible first
    | assumption | apply fr_ite | apply fr_ite_fst | apply fr_ite_snd | refine fr_setF 10 (by decide) c_r10 ?_
    | refine fr_complete c_wire c_host c_hif c_ev c_bgLog c_pins c_r3 c_r4 ?_ | refine fr_raiseEv c_ev c_bgLog c_r4 ?_
    | refine fr_hostWrite c_host ?_ | intro _

theorem fr_runPortMeasure {w : Part → Bool} {o s : State} {a1 : Cmd} {a2 : List Byte} (c_wire : w .wire = true)
    (c_host : w .host = true) (c_hif : w .hif = true) (c_ev : w .ev = true) (c_ports : w .ports = true)
    (c_bgLog : w .bgLog = true) (c_pins : w .pins = true) (c_r3 : w (.regs 3) = true) (c_r4 : w (.regs 4) = true)
    (c_r10 : w (.regs 10) = true) (h : Fr w o s) :
    Fr w o (runPortMeasure s a1 a2) := by
  rw [runPortMeasure]
  repeat' with_reducible first
    | assumption | apply fr_ite | refine fr_setPort c_ports ?_
    | refine fr_finishMeasure c_wire c_host c_hif c_ev c_bgLog c_pins c_r3 c_r4 c_r10 ?_ | intro _

theorem fr_equaliserEstimate {w : Part → Bool} {o s : State} {a1 : Nat} {a2 : List (Nat × Nat)} (c_wire : w .wire = true)
    (c_host : w .host = true) (c_hif : w .hif = true) (c_ev : w .ev = true) (c_ports : w .ports = true)
    (c_bgLog : w .bgLog = true) (c_pins : w .pins = true) (c_r3 : w (.regs 3) = true) (c_r4 : w (.regs 4) = true)
    (c_r10 : w (.regs 10) = true) (h : Fr w o s) :
    Fr w o (equaliserEstimate s a1 a2) := by
  rw [equaliserEstimate]
  repeat' with_reducible first
    | assumption | refine fr_setF 10 (by decide) c_r10 ?_ | refine fr_setPort c_ports ?_
    | refine fr_finishMeasure c_wire c_host c_hif c_ev c_bgLog c_pins c_r3 c_r4 c_r10 ?_ | apply fr_foldS | intro _
    | refine fr_mk rfl ?_

end Sys2Proof.Machine
end

