-- ==== Sys2Proof/Laws/FrameSwitch.lean ====
section
/-!
SUPPORT. What the operations of Machine/Switch.lean leave as it was.
-/

set_option Elab.async false

namespace Sys2Proof.Machine

theorem fr_setMeter {w : Part → Bool} {o s : State} {a1 : Nat} {a2 : Meter} (c_tm : w .tm = true) (h : Fr w o s) :
    Fr w o (setMeter s a1 a2) := by
  rw [setMeter]
  repeat' with_reducible first | assumption | refine fr_mk rfl ?_

theorem fr_police {w : Part → Bool} {o s : State} {a1 : Nat} {a2 : Nat} {a3 : List Byte} (c_tm : w .tm = true)
    (c_bgLog : w .bgLog = true) (c_r12 : w (.regs 12) = true) (h : Fr w o s) :
    Fr w o (police s a1 a2 a3).2 := by
  rw [police]
  repeat' with_reducible first
    | assumption | apply fr_ite | apply fr_ite_fst | apply fr_ite_snd | refine fr_addF 12 (by decide) c_r12 ?_
    | refine fr_setMeter c_tm ?_ | refine fr_addT c_bgLog ?_ | refine fr_snd (by assumption) ?_
    | refine fr_fst (by assumption) ?_ | intro _ | split

theorem fr_unbindElsewhere {w : Part → Bool} {o s : State} {a1 : Nat} {a2 : List (Nat × Nat)} (c_tm : w .tm = true)
    (h : Fr w o s) :
    Fr w o (unbindElsewhere s a1 a2) := by
  rw [unbindElsewhere]
  repeat' with_reducible first
    | assumption | apply fr_ite | apply fr_ite_fst | apply fr_ite_snd | apply fr_foldl | apply fr_foldl_fst
    | apply fr_foldl_snd | intro _ | (dsimp only; split) | refine fr_mk rfl ?_

theorem fr_runMeterSet {w : Part → Bool} {o s : State} {a1 : Cmd} {a2 : List Byte} (c_wire : w .wire = true)
    (c_host : w .host = true) (c_hif : w .hif = true) (c_ev : w .ev = true) (c_tm : w .tm = true)
    (c_bgLog : w .bgLog = true) (c_pins : w .pins = true) (c_r3 : w (.regs 3) = true) (c_r4 : w (.regs 4) = true)
    (h : Fr w o s) :
    Fr w o (runMeterSet s a1 a2) := by
  rw [runMeterSet.eq_def]
  repeat' with_reducible first
    | assumption | apply fr_ite | refine fr_complete c_wire c_host c_hif c_ev c_bgLog c_pins c_r3 c_r4 ?_
    | refine fr_setMeter c_tm ?_ | refine fr_unbindElsewhere c_tm ?_ | intro _ | split | (dsimp only; split)

theorem fr_refuse {w : Part → Bool} {o s : State} {a1 : Bool} {a2 : Nat} (c_bgLog : w .bgLog = true)
    (c_r10 : w (.regs 10) = true) (c_r11 : w (.regs 11) = true) (h : Fr w o s) :
    Fr w o (refuse s a1 a2) := by
  rw [refuse]
  repeat' with_reducible first
    | assumption | apply fr_ite | refine fr_addF 11 (by decide) c_r11 ?_ | refine fr_countFlushed c_bgLog c_r10 ?_
    | refine fr_addT c_bgLog ?_ | intro _

theorem fr_toSink {w : Part → Bool} {o s : State} {a1 : List Byte} {a2 : Decision} {a3 : Nat} (c_wire : w .wire = true)
    (c_sw : w .sw = true) (c_tm : w .tm = true) (c_bgLog : w .bgLog = true) (c_r11 : w (.regs 11) = true) (h : Fr w o s) :
    Fr w o (toSink s a1 a2 a3) := by
  rw [toSink]
  repeat' with_reducible first
    | assumption | refine fr_emit c_wire ?_ | refine fr_portMirrors c_sw c_tm c_bgLog c_r11 ?_ | split | (dsimp only; split)

theorem fr_cutShort {w : Part → Bool} {o s : State} {a1 : Nat} {a2 : Nat} {a3 : Nat} {a4 : List Byte} {a5 : List Nat}
    (c_ev : w .ev = true) (c_sw : w .sw = true) (c_tm : w .tm = true) (c_bgLog : w .bgLog = true)
    (c_r4 : w (.regs 4) = true) (c_r11 : w (.regs 11) = true) (h : Fr w o s) :
    Fr w o (cutShort s a1 a2 a3 a4 a5) := by
  rw [cutShort]
  repeat' with_reducible first
    | assumption | apply fr_ite | apply fr_ite_snd | refine fr_poolEmpty c_ev c_bgLog c_r4 c_r11 ?_
    | refine fr_pushFrame c_sw c_tm c_r11 ?_ | apply fr_foldS | intro _ | split | (dsimp only; split) | refine fr_mk rfl ?_

theorem fr_forward {w : Part → Bool} {o s : State} {a1 : Nat} {a2 : Nat} {a3 : List Byte} {a4 : Decision} {a5 : Bool}
    {a6 : Bool} {a7 : Int} (c_wire : w .wire = true) (c_ev : w .ev = true) (c_ports : w .ports = true) (c_sw : w .sw = true)
    (c_tm : w .tm = true) (c_bgLog : w .bgLog = true) (c_r4 : w (.regs 4) = true) (c_r10 : w (.regs 10) = true)
    (c_r11 : w (.regs 11) = true) (h : Fr w o s) :
    Fr w o (forward s a1 a2 a3 a4 a5 a6 a7) := by
  rw [forward]
  repeat' with_reducible first
    | assumption | apply fr_ite | refine fr_refuse c_bgLog c_r10 c_r11 ?_
    | refine fr_toSink c_wire c_sw c_tm c_bgLog c_r11 ?_ | refine fr_bufferFrame c_sw ?_ _ _ (by assumption)
    | refine fr_cutShort c_ev c_sw c_tm c_bgLog c_r4 c_r11 ?_ | refine fr_releaseFrame c_wire c_ports c_sw c_r11 ?_
    | refine fr_pushFrame c_sw c_tm c_r11 ?_ | refine fr_pfcCheck c_wire c_ports ?_ | apply fr_foldS
    | refine fr_snd (by assumption) ?_ | refine fr_fst (by assumption) ?_ | intro _ | split | (dsimp only; split)

theorem fr_pauseClass {w : Part → Bool} {o s : State} {a1 : Nat} {a2 : Nat} {a3 : Nat} (c_ports : w .ports = true)
    (h : Fr w o s) :
    Fr w o (pauseClass s a1 a2 a3) := by
  rw [pauseClass]
  repeat' with_reducible first | assumption | apply fr_ite | refine fr_setPort c_ports ?_ | intro _

theorem fr_takePause {w : Part → Bool} {o s : State} {a1 : Nat} {a2 : List Byte} (c_ports : w .ports = true)
    (h : Fr w o s) :
    Fr w o (takePause s a1 a2) := by
  rw [takePause]
  repeat' with_reducible first
    | assumption | apply fr_ite | refine fr_pauseClass c_ports ?_ | apply fr_foldS | intro _

theorem fr_pauseExpiry {w : Part → Bool} {o s : State} {a1 : Nat} (c_wire : w .wire = true) (c_host : w .host = true)
    (c_hif : w .hif = true) (c_ev : w .ev = true) (c_mer : w .mer = true) (c_ports : w .ports = true) (c_sw : w .sw = true)
    (c_tm : w .tm = true) (c_sht : w .sht = true) (c_bgLog : w .bgLog = true) (c_pins : w .pins = true)
    (c_r3 : w (.regs 3) = true) (c_r4 : w (.regs 4) = true) (c_r8 : w (.regs 8) = true) (c_r9 : w (.regs 9) = true)
    (c_r10 : w (.regs 10) = true) (c_r11 : w (.regs 11) = true) (h : Fr w o s) :
    Fr w o (pauseExpiry s a1) := by
  rw [pauseExpiry]
  repeat' with_reducible first
    | assumption
    | refine fr_serveSlot c_wire c_host c_hif c_ev c_mer c_ports c_sw c_tm c_sht c_bgLog c_pins c_r3 c_r4 c_r8 c_r9 c_r10 c_r11 ?_
    | refine fr_setPort c_ports ?_ | intro _

theorem fr_rxError {w : Part → Bool} {o s : State} {a1 : Nat} (c_ev : w .ev = true) (c_ports : w .ports = true)
    (c_bgLog : w .bgLog = true) (c_r4 : w (.regs 4) = true) (h : Fr w o s) :
    Fr w o (rxError s a1) := by
  rw [rxError]
  repeat' with_reducible first
    | assumption | apply fr_ite | refine fr_raiseEv c_ev c_bgLog c_r4 ?_ | refine fr_setPort c_ports ?_ | intro _

theorem fr_fecCorrected {w : Part → Bool} {o s : State} {a1 : Nat} {a2 : Nat} (c_ports : w .ports = true)
    (c_bgLog : w .bgLog = true) (c_r10 : w (.regs 10) = true) (h : Fr w o s) :
    Fr w o (fecCorrected s a1 a2) := by
  rw [fecCorrected]
  repeat' with_reducible first
    | assumption | apply fr_ite | apply fr_ite_fst | apply fr_ite_snd | refine fr_addF 10 (by decide) c_r10 ?_
    | refine fr_addT c_bgLog ?_ | refine fr_setPort c_ports ?_ | intro _

theorem fr_fecUncorrected {w : Part → Bool} {o s : State} {a1 : Nat} {a2 : Nat} (c_ev : w .ev = true)
    (c_ports : w .ports = true) (c_bgLog : w .bgLog = true) (c_r4 : w (.regs 4) = true) (c_r10 : w (.regs 10) = true)
    (h : Fr w o s) :
    Fr w o (fecUncorrected s a1 a2) := by
  rw [fecUncorrected]
  repeat' with_reducible first
    | assumption | apply fr_ite | refine fr_addF 10 (by decide) c_r10 ?_ | refine fr_setPort c_ports ?_
    | refine fr_raiseEv c_ev c_bgLog c_r4 ?_ | intro _

theorem fr_arrive {w : Part → Bool} {o s : State} {a1 : Nat} {a2 : List Byte} {a3 : Bool} (c_wire : w .wire = true)
    (c_ev : w .ev = true) (c_ports : w .ports = true) (c_sw : w .sw = true) (c_tm : w .tm = true)
    (c_bgLog : w .bgLog = true) (c_r4 : w (.regs 4) = true) (c_r9 : w (.regs 9) = true) (c_r10 : w (.regs 10) = true)
    (c_r11 : w (.regs 11) = true) (c_r12 : w (.regs 12) = true) (h : Fr w o s) :
    Fr w o (arrive s a1 a2 a3) := by
  rw [arrive.eq_def]
  repeat' with_reducible first
    | assumption | apply fr_ite | apply fr_ite_fst | apply fr_ite_snd | refine fr_addF 9 (by decide) c_r9 ?_
    | refine fr_addF 11 (by decide) c_r11 ?_ | refine fr_police c_tm c_bgLog c_r12 ?_ | refine fr_addT c_bgLog ?_
    | refine fr_raiseEv c_ev c_bgLog c_r4 ?_ | refine fr_forward c_wire c_ev c_ports c_sw c_tm c_bgLog c_r4 c_r10 c_r11 ?_
    | refine fr_mirrorCopy c_sw c_tm c_bgLog c_r11 ?_ | apply fr_foldS | refine fr_snd (by assumption) ?_
    | refine fr_fst (by assumption) ?_ | intro _ | split | (dsimp only; split)

theorem fr_frameLookup {w : Part → Bool} {o s : State} {a1 : Nat} {a2 : List Byte} {a3 : Nat} {a4 : Nat} {a5 : Nat}
    (c_wire : w .wire = true) (c_ev : w .ev = true) (c_ports : w .ports = true) (c_sw : w .sw = true) (c_tm : w .tm = true)
    (c_bgLog : w .bgLog = true) (c_r4 : w (.regs 4) = true) (c_r9 : w (.regs 9) = true) (c_r10 : w (.regs 10) = true)
    (c_r11 : w (.regs 11) = true) (c_r12 : w (.regs 12) = true) (h : Fr w o s) :
    Fr w o (frameLookup s a1 a2 a3 a4 a5) := by
  rw [frameLookup]
  repeat' with_reducible first
    | assumption | apply fr_ite | refine fr_addF 10 (by decide) c_r10 ?_
    | refine fr_fecUncorrected c_ev c_ports c_bgLog c_r4 c_r10 ?_ | refine fr_fecCorrected c_ports c_bgLog c_r10 ?_
    | refine fr_arrive c_wire c_ev c_ports c_sw c_tm c_bgLog c_r4 c_r9 c_r10 c_r11 c_r12 ?_
    | refine fr_rxError c_ev c_ports c_bgLog c_r4 ?_ | refine fr_addT c_bgLog ?_ | refine fr_takePause c_ports ?_ | intro _

theorem fr_setTable {w : Part → Bool} {o s : State} {a1 : Nat} {a2 : SMap (List Byte)} (c_sw : w .sw = true)
    (h : Fr w o s) :
    Fr w o (setTable s a1 a2) := by
  rw [setTable]
  repeat' with_reducible first | assumption | apply fr_ite | intro _ | (dsimp only; split) | refine fr_mk rfl ?_

theorem fr_setUpdates {w : Part → Bool} {o s : State} {a1 : List TableUpd} (c_sw : w .sw = true) (h : Fr w o s) :
    Fr w o (setUpdates s a1) := by
  rw [setUpdates]
  repeat' with_reducible first | assumption | refine fr_mk rfl ?_

theorem fr_runUpdates {w : Part → Bool} {o s : State} {a1 : Nat} {a2 : Nat} (c_wire : w .wire = true)
    (c_host : w .host = true) (c_hif : w .hif = true) (c_ev : w .ev = true) (c_sw : w .sw = true)
    (c_bgLog : w .bgLog = true) (c_pins : w .pins = true) (c_r3 : w (.regs 3) = true) (c_r4 : w (.regs 4) = true)
    (c_r11 : w (.regs 11) = true) (h : Fr w o s) :
    Fr w o (runUpdates s a1 a2) := by
  induction a2 generalizing s a1 with
  | zero => exact h
  | succ k ih =>
    rw [runUpdates]
    repeat' with_reducible first
      | assumption | apply fr_ite | apply ih | refine fr_setF 11 (by decide) c_r11 ?_
      | refine fr_completeId c_wire c_host c_hif c_ev c_bgLog c_pins c_r3 c_r4 ?_ | refine fr_setUpdates c_sw ?_
      | refine fr_setTable c_sw ?_ | intro _ | split | (dsimp only; split)

theorem fr_runTableUpdate {w : Part → Bool} {o s : State} {a1 : Cmd} {a2 : List Byte} (c_wire : w .wire = true)
    (c_host : w .host = true) (c_hif : w .hif = true) (c_ev : w .ev = true) (c_sw : w .sw = true)
    (c_bgLog : w .bgLog = true) (c_pins : w .pins = true) (c_r3 : w (.regs 3) = true) (c_r4 : w (.regs 4) = true)
    (c_r11 : w (.regs 11) = true) (h : Fr w o s) :
    Fr w o (runTableUpdate s a1 a2) := by
  rw [runTableUpdate]
  repeat' with_reducible first
    | assumption | refine fr_runUpdates c_wire c_host c_hif c_ev c_sw c_bgLog c_pins c_r3 c_r4 c_r11 ?_
    | refine fr_setUpdates c_sw ?_

theorem fr_fenceDone {w : Part → Bool} {o s : State} {a1 : Nat} {a2 : TableUpd} {a3 : Nat} (c_wire : w .wire = true)
    (c_host : w .host = true) (c_hif : w .hif = true) (c_ev : w .ev = true) (c_sw : w .sw = true)
    (c_bgLog : w .bgLog = true) (c_pins : w .pins = true) (c_r3 : w (.regs 3) = true) (c_r4 : w (.regs 4) = true)
    (c_r11 : w (.regs 11) = true) (h : Fr w o s) :
    Fr w o (fenceDone s a1 a2 a3) := by
  rw [fenceDone]
  repeat' with_reducible first
    | assumption | apply fr_ite | refine fr_setF 11 (by decide) c_r11 ?_ | refine fr_setUpdates c_sw ?_
    | refine fr_raiseEv c_ev c_bgLog c_r4 ?_ | refine fr_completeId c_wire c_host c_hif c_ev c_bgLog c_pins c_r3 c_r4 ?_
    | refine fr_runUpdates c_wire c_host c_hif c_ev c_sw c_bgLog c_pins c_r3 c_r4 c_r11 ?_ | intro _

theorem fr_fenceReached {w : Part → Bool} {o s : State} {a1 : Nat} (c_wire : w .wire = true) (c_host : w .host = true)
    (c_hif : w .hif = true) (c_ev : w .ev = true) (c_sw : w .sw = true) (c_bgLog : w .bgLog = true)
    (c_pins : w .pins = true) (c_r3 : w (.regs 3) = true) (c_r4 : w (.regs 4) = true) (c_r11 : w (.regs 11) = true)
    (h : Fr w o s) :
    Fr w o (fenceReached s a1) := by
  rw [fenceReached.eq_def]
  repeat' with_reducible first
    | assumption | apply fr_ite | apply fr_ite_snd
    | refine fr_fenceDone c_wire c_host c_hif c_ev c_sw c_bgLog c_pins c_r3 c_r4 c_r11 ?_ | intro _ | split

theorem fr_dropOldEpoch {w : Part → Bool} {o s : State} {a1 : Nat} (c_wire : w .wire = true) (c_ports : w .ports = true)
    (c_sw : w .sw = true) (c_tm : w .tm = true) (c_sht : w .sht = true) (c_r8 : w (.regs 8) = true)
    (c_r11 : w (.regs 11) = true) (h : Fr w o s) :
    Fr w o (dropOldEpoch s a1).1 := by
  rw [dropOldEpoch]
  repeat' with_reducible first
    | assumption | apply fr_ite | apply fr_ite_fst | apply fr_ite_snd | refine fr_frameLost c_sht c_r8 ?_
    | refine fr_releaseFrame c_wire c_ports c_sw c_r11 ?_ | refine fr_setQueue c_tm ?_ | refine fr_headArrives c_tm ?_
    | apply fr_foldS | apply fr_foldl | apply fr_foldl_fst | apply fr_foldl_snd | intro _

theorem fr_runMirrorSet {w : Part → Bool} {o s : State} {a1 : Cmd} {a2 : List Byte} (c_wire : w .wire = true)
    (c_host : w .host = true) (c_hif : w .hif = true) (c_ev : w .ev = true) (c_sw : w .sw = true)
    (c_bgLog : w .bgLog = true) (c_pins : w .pins = true) (c_r3 : w (.regs 3) = true) (c_r4 : w (.regs 4) = true)
    (c_r11 : w (.regs 11) = true) (h : Fr w o s) :
    Fr w o (runMirrorSet s a1 a2) := by
  rw [runMirrorSet]
  repeat' with_reducible first
    | assumption | apply fr_ite | refine fr_setF 11 (by decide) c_r11 ?_
    | refine fr_complete c_wire c_host c_hif c_ev c_bgLog c_pins c_r3 c_r4 ?_ | intro _ | (dsimp only; split)
    | refine fr_mk rfl ?_

end Sys2Proof.Machine
end

