-- ==== Sys2Proof/Laws/FrameTraffic.lean ====
section
/-!
SUPPORT. What the operations of Machine/Traffic.lean leave as it was.
-/

set_option Elab.async false

namespace Sys2Proof.Machine

theorem fr_dropOversize {w : Part → Bool} {o s : State} {a1 : Nat} (c_wire : w .wire = true) (c_host : w .host = true)
    (c_hif : w .hif = true) (c_ev : w .ev = true) (c_ports : w .ports = true) (c_sw : w .sw = true) (c_tm : w .tm = true)
    (c_sht : w .sht = true) (c_bgLog : w .bgLog = true) (c_pins : w .pins = true) (c_r3 : w (.regs 3) = true)
    (c_r4 : w (.regs 4) = true) (c_r8 : w (.regs 8) = true) (c_r11 : w (.regs 11) = true) (c_r12 : w (.regs 12) = true)
    (h : Fr w o s) :
    Fr w o (dropOversize s a1) := by
  rw [dropOversize]
  repeat' with_reducible first
    | assumption | apply fr_ite | refine fr_addF 12 (by decide) c_r12 ?_
    | refine fr_holdsProgress c_wire c_host c_hif c_ev c_sht c_bgLog c_pins c_r3 c_r4 ?_ | refine fr_frameLost c_sht c_r8 ?_
    | refine fr_popFrame c_wire c_ports c_sw c_tm c_r11 ?_ | refine fr_raiseEv c_ev c_bgLog c_r4 ?_ | apply fr_foldS
    | intro _ | (dsimp only; split) | refine fr_mk rfl ?_

theorem fr_sendHead {w : Part → Bool} {o s : State} {a1 : Nat} {a2 : Nat} (c_wire : w .wire = true)
    (c_host : w .host = true) (c_hif : w .hif = true) (c_ev : w .ev = true) (c_mer : w .mer = true)
    (c_ports : w .ports = true) (c_sw : w .sw = true) (c_tm : w .tm = true) (c_sht : w .sht = true)
    (c_bgLog : w .bgLog = true) (c_pins : w .pins = true) (c_r3 : w (.regs 3) = true) (c_r4 : w (.regs 4) = true)
    (c_r9 : w (.regs 9) = true) (c_r10 : w (.regs 10) = true) (c_r11 : w (.regs 11) = true) (h : Fr w o s) :
    Fr w o (sendHead s a1 a2) := by
  rw [sendHead.eq_def]
  repeat' with_reducible first
    | assumption | apply fr_ite | refine fr_transmit c_wire c_ev c_mer c_sw c_tm c_sht c_bgLog c_r4 c_r9 c_r10 c_r11 ?_
    | refine fr_popFrame c_wire c_ports c_sw c_tm c_r11 ?_ | refine fr_takeCredit c_tm ?_
    | refine fr_holdsProgress c_wire c_host c_hif c_ev c_sht c_bgLog c_pins c_r3 c_r4 ?_ | intro _ | (dsimp only; split)
    | refine fr_mk rfl ?_

theorem fr_frameSelect {w : Part → Bool} {o s : State} {a1 : Nat} (c_wire : w .wire = true) (c_host : w .host = true)
    (c_hif : w .hif = true) (c_ev : w .ev = true) (c_mer : w .mer = true) (c_ports : w .ports = true) (c_sw : w .sw = true)
    (c_tm : w .tm = true) (c_sht : w .sht = true) (c_bgLog : w .bgLog = true) (c_pins : w .pins = true)
    (c_r3 : w (.regs 3) = true) (c_r4 : w (.regs 4) = true) (c_r8 : w (.regs 8) = true) (c_r9 : w (.regs 9) = true)
    (c_r10 : w (.regs 10) = true) (c_r11 : w (.regs 11) = true) (c_r12 : w (.regs 12) = true) (h : Fr w o s) :
    Fr w o (frameSelect s a1) := by
  rw [frameSelect]
  repeat' with_reducible first
    | assumption | apply fr_ite
    | refine fr_serveSlot c_wire c_host c_hif c_ev c_mer c_ports c_sw c_tm c_sht c_bgLog c_pins c_r3 c_r4 c_r8 c_r9 c_r10 c_r11 ?_
    | refine fr_dropOversize c_wire c_host c_hif c_ev c_ports c_sw c_tm c_sht c_bgLog c_pins c_r3 c_r4 c_r8 c_r11 c_r12 ?_
    | refine fr_sendHead c_wire c_host c_hif c_ev c_mer c_ports c_sw c_tm c_sht c_bgLog c_pins c_r3 c_r4 c_r9 c_r10 c_r11 ?_
    | intro _ | split | (dsimp only; split)

theorem fr_completeNext {w : Part → Bool} {o s : State} {a1 : Shaper} (c_wire : w .wire = true) (c_host : w .host = true)
    (c_hif : w .hif = true) (c_ev : w .ev = true) (c_bgLog : w .bgLog = true) (c_pins : w .pins = true)
    (c_r3 : w (.regs 3) = true) (c_r4 : w (.regs 4) = true) (h : Fr w o s) :
    Fr w o (completeNext s a1) := by
  rw [completeNext]
  repeat' with_reducible first
    | assumption | refine fr_completeId c_wire c_host c_hif c_ev c_bgLog c_pins c_r3 c_r4 ?_ | apply fr_foldS | intro _

theorem fr_runShaperSet {w : Part → Bool} {o s : State} {a1 : Cmd} {a2 : List Byte} (c_wire : w .wire = true)
    (c_host : w .host = true) (c_hif : w .hif = true) (c_ev : w .ev = true) (c_tm : w .tm = true)
    (c_bgLog : w .bgLog = true) (c_pins : w .pins = true) (c_r3 : w (.regs 3) = true) (c_r4 : w (.regs 4) = true)
    (h : Fr w o s) :
    Fr w o (runShaperSet s a1 a2) := by
  rw [runShaperSet]
  repeat' with_reducible first
    | assumption | apply fr_ite | refine fr_complete c_wire c_host c_hif c_ev c_bgLog c_pins c_r3 c_r4 ?_
    | refine fr_completeNext c_wire c_host c_hif c_ev c_bgLog c_pins c_r3 c_r4 ?_ | refine fr_setShaper c_tm ?_ | intro _

theorem fr_wheelLate {w : Part → Bool} {o s : State} {a1 : Nat} (c_ev : w .ev = true) (c_bgLog : w .bgLog = true)
    (c_r4 : w (.regs 4) = true) (c_r12 : w (.regs 12) = true) (h : Fr w o s) :
    Fr w o (wheelLate s a1) := by
  rw [wheelLate]
  repeat' with_reducible first
    | assumption | apply fr_ite | refine fr_addF 12 (by decide) c_r12 ?_ | refine fr_raiseEv c_ev c_bgLog c_r4 ?_ | intro _

theorem fr_shaperRefill {w : Part → Bool} {o s : State} {a1 : Nat} {a2 : Nat} (c_wire : w .wire = true)
    (c_host : w .host = true) (c_hif : w .hif = true) (c_ev : w .ev = true) (c_tm : w .tm = true)
    (c_bgLog : w .bgLog = true) (c_pins : w .pins = true) (c_r3 : w (.regs 3) = true) (c_r4 : w (.regs 4) = true)
    (c_r12 : w (.regs 12) = true) (h : Fr w o s) :
    Fr w o (shaperRefill s a1 a2) := by
  rw [shaperRefill]
  repeat' with_reducible first
    | assumption | apply fr_ite | apply fr_ite_snd | refine fr_wheelLate c_ev c_bgLog c_r4 c_r12 ?_
    | refine fr_completeNext c_wire c_host c_hif c_ev c_bgLog c_pins c_r3 c_r4 ?_ | refine fr_setShaper c_tm ?_ | intro _

theorem fr_overflowScan {w : Part → Bool} {o s : State} (c_tm : w .tm = true) (h : Fr w o s) :
    Fr w o (overflowScan s) := by
  rw [overflowScan]
  repeat' with_reducible first
    | assumption | apply fr_ite | apply fr_ite_fst | apply fr_ite_snd | intro _ | (dsimp only; split) | refine fr_mk rfl ?_

theorem fr_showGates {w : Part → Bool} {o s : State} {a1 : Nat} (c_r12 : w (.regs 12) = true) (h : Fr w o s) :
    Fr w o (showGates s a1) := by
  rw [showGates]
  repeat' with_reducible first | assumption | refine fr_setF 12 (by decide) c_r12 ?_

theorem fr_setGateNext {w : Part → Bool} {o s : State} {a1 : Nat} {a2 : Option GateList} (c_tm : w .tm = true)
    (c_r12 : w (.regs 12) = true) (h : Fr w o s) :
    Fr w o (setGateNext s a1 a2) := by
  rw [setGateNext]
  repeat' with_reducible first | assumption | refine fr_setB 12 (by decide) c_r12 ?_ | refine fr_mk rfl ?_

theorem fr_runGateListSet {w : Part → Bool} {o s : State} {a1 : Cmd} {a2 : List Byte} (c_wire : w .wire = true)
    (c_host : w .host = true) (c_hif : w .hif = true) (c_ev : w .ev = true) (c_tm : w .tm = true)
    (c_bgLog : w .bgLog = true) (c_pins : w .pins = true) (c_r3 : w (.regs 3) = true) (c_r4 : w (.regs 4) = true)
    (c_r12 : w (.regs 12) = true) (h : Fr w o s) :
    Fr w o (runGateListSet s a1 a2) := by
  rw [runGateListSet.eq_def]
  repeat' with_reducible first
    | assumption | apply fr_ite | refine fr_setF 12 (by decide) c_r12 ?_
    | refine fr_complete c_wire c_host c_hif c_ev c_bgLog c_pins c_r3 c_r4 ?_ | refine fr_setGateNext c_tm c_r12 ?_
    | intro _ | split | (dsimp only; split)

theorem fr_activateGates {w : Part → Bool} {o s : State} {a1 : Nat} {a2 : GateList} (c_ev : w .ev = true)
    (c_tm : w .tm = true) (c_bgLog : w .bgLog = true) (c_r4 : w (.regs 4) = true) (c_r12 : w (.regs 12) = true)
    (h : Fr w o s) :
    Fr w o (activateGates s a1 a2) := by
  rw [activateGates]
  repeat' with_reducible first
    | assumption | apply fr_ite | refine fr_setF 12 (by decide) c_r12 ?_ | refine fr_setB 12 (by decide) c_r12 ?_
    | refine fr_setGateNext c_tm c_r12 ?_ | refine fr_raiseEv c_ev c_bgLog c_r4 ?_ | refine fr_showGates c_r12 ?_ | intro _
    | (dsimp only; split) | refine fr_mk rfl ?_

theorem fr_gateListStart {w : Part → Bool} {o s : State} {a1 : Nat} (c_ev : w .ev = true) (c_tm : w .tm = true)
    (c_bgLog : w .bgLog = true) (c_r4 : w (.regs 4) = true) (c_r12 : w (.regs 12) = true) (h : Fr w o s) :
    Fr w o (gateListStart s a1) := by
  rw [gateListStart.eq_def]
  repeat' with_reducible first
    | assumption | apply fr_ite | refine fr_activateGates c_ev c_tm c_bgLog c_r4 c_r12 ?_ | intro _ | split

end Sys2Proof.Machine
end

