-- ==== Sys2Proof/Laws/FrameMeridian.lean ====
section
/-!
SUPPORT. What the operations of Machine/Meridian.lean leave as it was.
-/

set_option Elab.async false

namespace Sys2Proof.Machine

theorem fr_setClock48 {w : Part → Bool} {o s : State} {a1 : Nat} (c_mer : w .mer = true) (h : Fr w o s) :
    Fr w o (setClock48 s a1) := by
  rw [setClock48]
  repeat' with_reducible first | assumption | refine fr_mk rfl ?_

theorem fr_tickClock {w : Part → Bool} {o s : State} (c_mer : w .mer = true) (h : Fr w o s) :
    Fr w o (tickClock s) := by
  rw [tickClock]
  repeat' with_reducible first | assumption | refine fr_setClock48 c_mer ?_

theorem fr_unlock {w : Part → Bool} {o s : State} (c_ev : w .ev = true) (c_mer : w .mer = true) (c_bgLog : w .bgLog = true)
    (c_r4 : w (.regs 4) = true) (c_r9 : w (.regs 9) = true) (h : Fr w o s) :
    Fr w o (unlock s) := by
  rw [unlock]
  repeat' with_reducible first
    | assumption | apply fr_ite | refine fr_setF 9 (by decide) c_r9 ?_ | refine fr_raiseEv c_ev c_bgLog c_r4 ?_ | intro _
    | (dsimp only; split) | refine fr_mk rfl ?_

theorem fr_stepSeries {w : Part → Bool} {o s : State} {a1 : Nat} {a2 : Int} {a3 : Nat} (c_wire : w .wire = true)
    (c_host : w .host = true) (c_hif : w .hif = true) (c_ev : w .ev = true) (c_mer : w .mer = true) (c_prj : w .prj = true)
    (c_ports : w .ports = true) (c_sw : w .sw = true) (c_tm : w .tm = true) (c_sht : w .sht = true) (c_scr : w .scr = true)
    (c_enc : w .enc = true) (c_bgLog : w .bgLog = true) (c_pins : w .pins = true) (c_r3 : w (.regs 3) = true)
    (c_r4 : w (.regs 4) = true) (c_r6 : w (.regs 6) = true) (c_r7 : w (.regs 7) = true) (c_r8 : w (.regs 8) = true)
    (c_r9 : w (.regs 9) = true) (c_r10 : w (.regs 10) = true) (c_r11 : w (.regs 11) = true) (h : Fr w o s) :
    Fr w o (stepSeries s a1 a2 a3) := by
  rw [stepSeries]
  repeat' with_reducible first
    | assumption | apply fr_ite
    | refine fr_stepTrigger c_wire c_host c_hif c_ev c_mer c_prj c_ports c_sw c_tm c_sht c_scr c_enc c_bgLog c_pins c_r3 c_r4 c_r6 c_r7 c_r8 c_r9 c_r10 c_r11 ?_
    | refine fr_trigAct c_wire c_host c_hif c_ev c_mer c_prj c_ports c_sw c_tm c_sht c_scr c_enc c_bgLog c_pins c_r3 c_r4 c_r6 c_r7 c_r8 c_r9 c_r10 c_r11 ?_
    | refine fr_setTrig c_mer ?_ | intro _

theorem fr_stepTriggers {w : Part → Bool} {o s : State} {a0 : Nat} {a1 : Int} {a2 : Nat} (c_wire : w .wire = true)
    (c_host : w .host = true) (c_hif : w .hif = true) (c_ev : w .ev = true) (c_mer : w .mer = true) (c_prj : w .prj = true)
    (c_ports : w .ports = true) (c_sw : w .sw = true) (c_tm : w .tm = true) (c_sht : w .sht = true) (c_scr : w .scr = true)
    (c_enc : w .enc = true) (c_bgLog : w .bgLog = true) (c_pins : w .pins = true) (c_r3 : w (.regs 3) = true)
    (c_r4 : w (.regs 4) = true) (c_r6 : w (.regs 6) = true) (c_r7 : w (.regs 7) = true) (c_r8 : w (.regs 8) = true)
    (c_r9 : w (.regs 9) = true) (c_r10 : w (.regs 10) = true) (c_r11 : w (.regs 11) = true) (h : Fr w o s) :
    Fr w o (stepTriggers a0 a1 a2 s) := by
  induction a2 generalizing a0 a1 s with
  | zero => exact h
  | succ k ih =>
    rw [stepTriggers]
    repeat' with_reducible first
      | assumption | apply fr_ite | apply ih
      | refine fr_stepSeries c_wire c_host c_hif c_ev c_mer c_prj c_ports c_sw c_tm c_sht c_scr c_enc c_bgLog c_pins c_r3 c_r4 c_r6 c_r7 c_r8 c_r9 c_r10 c_r11 ?_
      | refine fr_switchSchedule c_wire c_host c_hif c_ev c_mer c_prj c_sht c_enc c_bgLog c_pins c_r3 c_r4 c_r6 c_r7 c_r8 c_r9 ?_
      | apply fr_foldS | intro _ | split

theorem fr_stepInstants {w : Part → Bool} {o s : State} {a1 : Nat} {a2 : Int} (c_wire : w .wire = true)
    (c_host : w .host = true) (c_hif : w .hif = true) (c_ev : w .ev = true) (c_mer : w .mer = true) (c_prj : w .prj = true)
    (c_ports : w .ports = true) (c_sw : w .sw = true) (c_tm : w .tm = true) (c_sht : w .sht = true) (c_enc : w .enc = true)
    (c_bgLog : w .bgLog = true) (c_pins : w .pins = true) (c_r3 : w (.regs 3) = true) (c_r4 : w (.regs 4) = true)
    (c_r6 : w (.regs 6) = true) (c_r7 : w (.regs 7) = true) (c_r8 : w (.regs 8) = true) (c_r9 : w (.regs 9) = true)
    (c_r10 : w (.regs 10) = true) (c_r11 : w (.regs 11) = true) (h : Fr w o s) :
    Fr w o (stepInstants s a1 a2) := by
  rw [stepInstants]
  repeat' with_reducible first
    | assumption | apply fr_ite | refine fr_resumeNow c_wire c_host c_hif c_ev c_sht c_bgLog c_pins c_r3 c_r4 c_r8 ?_
    | refine fr_holdNow c_wire c_host c_hif c_ev c_mer c_prj c_ports c_sw c_tm c_sht c_enc c_bgLog c_pins c_r3 c_r4 c_r6 c_r7 c_r8 c_r9 c_r10 c_r11 ?_
    | refine fr_launchPresent c_wire c_host c_hif c_ev c_mer c_ports c_sw c_tm c_sht c_bgLog c_pins c_r3 c_r4 c_r8 c_r9 c_r10 c_r11 ?_
    | refine fr_completeId c_wire c_host c_hif c_ev c_bgLog c_pins c_r3 c_r4 ?_ | apply fr_foldS | intro _
    | (dsimp only; split) | refine fr_mk rfl ?_

theorem fr_gateJudged {w : Part → Bool} {o s : State} {a1 : Nat} (c_ev : w .ev = true) (c_tm : w .tm = true)
    (c_bgLog : w .bgLog = true) (c_r4 : w (.regs 4) = true) (c_r12 : w (.regs 12) = true) (h : Fr w o s) :
    Fr w o (gateJudged s a1) := by
  rw [gateJudged.eq_def]
  repeat' with_reducible first
    | assumption | apply fr_ite | refine fr_activateGates c_ev c_tm c_bgLog c_r4 c_r12 ?_ | intro _ | split
    | (dsimp only; split)

theorem fr_stepGates {w : Part → Bool} {o s : State} (c_ev : w .ev = true) (c_tm : w .tm = true) (c_bgLog : w .bgLog = true)
    (c_r4 : w (.regs 4) = true) (c_r12 : w (.regs 12) = true) (h : Fr w o s) :
    Fr w o (stepGates s) := by
  rw [stepGates]
  repeat' with_reducible first
    | assumption | refine fr_gateJudged c_ev c_tm c_bgLog c_r4 c_r12 ?_ | refine fr_showGates c_r12 ?_ | apply fr_foldS
    | intro _

theorem fr_stepClock {w : Part → Bool} {o s : State} {a1 : Nat} (c_wire : w .wire = true) (c_host : w .host = true)
    (c_hif : w .hif = true) (c_ev : w .ev = true) (c_mer : w .mer = true) (c_prj : w .prj = true)
    (c_ports : w .ports = true) (c_sw : w .sw = true) (c_tm : w .tm = true) (c_sht : w .sht = true) (c_scr : w .scr = true)
    (c_enc : w .enc = true) (c_bgLog : w .bgLog = true) (c_pins : w .pins = true) (c_r3 : w (.regs 3) = true)
    (c_r4 : w (.regs 4) = true) (c_r6 : w (.regs 6) = true) (c_r7 : w (.regs 7) = true) (c_r8 : w (.regs 8) = true)
    (c_r9 : w (.regs 9) = true) (c_r10 : w (.regs 10) = true) (c_r11 : w (.regs 11) = true) (c_r12 : w (.regs 12) = true)
    (h : Fr w o s) :
    Fr w o (stepClock s a1) := by
  rw [stepClock]
  repeat' with_reducible first
    | assumption | apply fr_ite | refine fr_addF 9 (by decide) c_r9 ?_ | refine fr_unlock c_ev c_mer c_bgLog c_r4 c_r9 ?_
    | refine fr_setClock48 c_mer ?_ | refine fr_raiseEv c_ev c_bgLog c_r4 ?_
    | refine fr_stepInstants c_wire c_host c_hif c_ev c_mer c_prj c_ports c_sw c_tm c_sht c_enc c_bgLog c_pins c_r3 c_r4 c_r6 c_r7 c_r8 c_r9 c_r10 c_r11 ?_
    | refine fr_stepTriggers c_wire c_host c_hif c_ev c_mer c_prj c_ports c_sw c_tm c_sht c_scr c_enc c_bgLog c_pins c_r3 c_r4 c_r6 c_r7 c_r8 c_r9 c_r10 c_r11 ?_
    | refine fr_stepGates c_ev c_tm c_bgLog c_r4 c_r12 ?_ | intro _

theorem fr_stepBy {w : Part → Bool} {o s : State} {a1 : Int} (c_wire : w .wire = true) (c_host : w .host = true)
    (c_hif : w .hif = true) (c_ev : w .ev = true) (c_mer : w .mer = true) (c_prj : w .prj = true)
    (c_ports : w .ports = true) (c_sw : w .sw = true) (c_tm : w .tm = true) (c_sht : w .sht = true) (c_scr : w .scr = true)
    (c_enc : w .enc = true) (c_bgLog : w .bgLog = true) (c_pins : w .pins = true) (c_r3 : w (.regs 3) = true)
    (c_r4 : w (.regs 4) = true) (c_r6 : w (.regs 6) = true) (c_r7 : w (.regs 7) = true) (c_r8 : w (.regs 8) = true)
    (c_r9 : w (.regs 9) = true) (c_r10 : w (.regs 10) = true) (c_r11 : w (.regs 11) = true) (c_r12 : w (.regs 12) = true)
    (h : Fr w o s) :
    Fr w o (stepBy s a1) := by
  rw [stepBy]
  repeat' with_reducible first
    | assumption
    | refine fr_stepClock c_wire c_host c_hif c_ev c_mer c_prj c_ports c_sw c_tm c_sht c_scr c_enc c_bgLog c_pins c_r3 c_r4 c_r6 c_r7 c_r8 c_r9 c_r10 c_r11 c_r12 ?_

theorem fr_latchTime {w : Part → Bool} {o s : State} (c_mer : w .mer = true) (c_r9 : w (.regs 9) = true) (h : Fr w o s) :
    Fr w o (latchTime s) := by
  rw [latchTime]
  repeat' with_reducible first | assumption | refine fr_setF 9 (by decide) c_r9 ?_ | refine fr_mk rfl ?_

theorem fr_timeValid {w : Part → Bool} {o s : State} (c_r9 : w (.regs 9) = true) (h : Fr w o s) :
    Fr w o (timeValid s) := by
  rw [timeValid]
  repeat' with_reducible first | assumption | refine fr_setF 9 (by decide) c_r9 ?_

theorem fr_setTime {w : Part → Bool} {o s : State} (c_wire : w .wire = true) (c_host : w .host = true)
    (c_hif : w .hif = true) (c_ev : w .ev = true) (c_mer : w .mer = true) (c_prj : w .prj = true)
    (c_ports : w .ports = true) (c_sw : w .sw = true) (c_tm : w .tm = true) (c_sht : w .sht = true) (c_scr : w .scr = true)
    (c_enc : w .enc = true) (c_bgLog : w .bgLog = true) (c_pins : w .pins = true) (c_r3 : w (.regs 3) = true)
    (c_r4 : w (.regs 4) = true) (c_r6 : w (.regs 6) = true) (c_r7 : w (.regs 7) = true) (c_r8 : w (.regs 8) = true)
    (c_r9 : w (.regs 9) = true) (c_r10 : w (.regs 10) = true) (c_r11 : w (.regs 11) = true) (c_r12 : w (.regs 12) = true)
    (h : Fr w o s) :
    Fr w o (setTime s) := by
  rw [setTime]
  repeat' with_reducible first
    | assumption | apply fr_ite | refine fr_raiseEv c_ev c_bgLog c_r4 ?_
    | refine fr_stepClock c_wire c_host c_hif c_ev c_mer c_prj c_ports c_sw c_tm c_sht c_scr c_enc c_bgLog c_pins c_r3 c_r4 c_r6 c_r7 c_r8 c_r9 c_r10 c_r11 c_r12 ?_
    | refine fr_timeValid c_r9 ?_ | intro _

theorem fr_timeCmd {w : Part → Bool} {o s : State} {a1 : Bool} {a2 : Bool} {a3 : Bool} (c_wire : w .wire = true)
    (c_host : w .host = true) (c_hif : w .hif = true) (c_ev : w .ev = true) (c_mer : w .mer = true) (c_prj : w .prj = true)
    (c_ports : w .ports = true) (c_sw : w .sw = true) (c_tm : w .tm = true) (c_sht : w .sht = true) (c_scr : w .scr = true)
    (c_enc : w .enc = true) (c_bgLog : w .bgLog = true) (c_pins : w .pins = true) (c_r3 : w (.regs 3) = true)
    (c_r4 : w (.regs 4) = true) (c_r6 : w (.regs 6) = true) (c_r7 : w (.regs 7) = true) (c_r8 : w (.regs 8) = true)
    (c_r9 : w (.regs 9) = true) (c_r10 : w (.regs 10) = true) (c_r11 : w (.regs 11) = true) (c_r12 : w (.regs 12) = true)
    (h : Fr w o s) :
    Fr w o (timeCmd s a1 a2 a3) := by
  rw [timeCmd]
  repeat' with_reducible first
    | assumption | apply fr_ite | refine fr_latchTime c_mer c_r9 ?_
    | refine fr_setTime c_wire c_host c_hif c_ev c_mer c_prj c_ports c_sw c_tm c_sht c_scr c_enc c_bgLog c_pins c_r3 c_r4 c_r6 c_r7 c_r8 c_r9 c_r10 c_r11 c_r12 ?_
    | refine fr_stepBy c_wire c_host c_hif c_ev c_mer c_prj c_ports c_sw c_tm c_sht c_scr c_enc c_bgLog c_pins c_r3 c_r4 c_r6 c_r7 c_r8 c_r9 c_r10 c_r11 c_r12 ?_
    | refine fr_timeValid c_r9 ?_ | intro _

theorem fr_setAdj {w : Part → Bool} {o s : State} {a1 : Int} (c_r9 : w (.regs 9) = true) (h : Fr w o s) :
    Fr w o (setAdj s a1) := by
  rw [setAdj]
  repeat' with_reducible first | assumption | refine fr_setS 9 (by decide) c_r9 ?_

theorem fr_freqAdjWrite {w : Part → Bool} {o s : State} {a1 : Nat} (c_r9 : w (.regs 9) = true) (h : Fr w o s) :
    Fr w o (freqAdjWrite s a1) := by
  rw [freqAdjWrite]
  repeat' with_reducible first | assumption | apply fr_ite | refine fr_setAdj c_r9 ?_ | intro _

theorem fr_servoLoop {w : Part → Bool} {o s : State} {a1 : Int} {a2 : Int} (c_mer : w .mer = true)
    (c_r9 : w (.regs 9) = true) (h : Fr w o s) :
    Fr w o (servoLoop s a1 a2) := by
  rw [servoLoop]
  repeat' with_reducible first
    | assumption | refine fr_setF 9 (by decide) c_r9 ?_ | refine fr_setAdj c_r9 ?_ | refine fr_mk rfl ?_

theorem fr_servoCorrect {w : Part → Bool} {o s : State} {a1 : Int} (c_wire : w .wire = true) (c_host : w .host = true)
    (c_hif : w .hif = true) (c_ev : w .ev = true) (c_mer : w .mer = true) (c_prj : w .prj = true)
    (c_ports : w .ports = true) (c_sw : w .sw = true) (c_tm : w .tm = true) (c_sht : w .sht = true) (c_scr : w .scr = true)
    (c_enc : w .enc = true) (c_bgLog : w .bgLog = true) (c_pins : w .pins = true) (c_r3 : w (.regs 3) = true)
    (c_r4 : w (.regs 4) = true) (c_r6 : w (.regs 6) = true) (c_r7 : w (.regs 7) = true) (c_r8 : w (.regs 8) = true)
    (c_r9 : w (.regs 9) = true) (c_r10 : w (.regs 10) = true) (c_r11 : w (.regs 11) = true) (c_r12 : w (.regs 12) = true)
    (h : Fr w o s) :
    Fr w o (servoCorrect s a1) := by
  rw [servoCorrect]
  repeat' with_reducible first
    | assumption | apply fr_ite | refine fr_setF 9 (by decide) c_r9 ?_
    | refine fr_stepBy c_wire c_host c_hif c_ev c_mer c_prj c_ports c_sw c_tm c_sht c_scr c_enc c_bgLog c_pins c_r3 c_r4 c_r6 c_r7 c_r8 c_r9 c_r10 c_r11 c_r12 ?_
    | refine fr_setAdj c_r9 ?_ | refine fr_raiseEv c_ev c_bgLog c_r4 ?_ | refine fr_unlock c_ev c_mer c_bgLog c_r4 c_r9 ?_
    | intro _ | (dsimp only; split) | refine fr_mk rfl ?_

theorem fr_servoCount {w : Part → Bool} {o s : State} {a1 : Int} (c_wire : w .wire = true) (c_host : w .host = true)
    (c_hif : w .hif = true) (c_ev : w .ev = true) (c_mer : w .mer = true) (c_prj : w .prj = true)
    (c_ports : w .ports = true) (c_sw : w .sw = true) (c_tm : w .tm = true) (c_sht : w .sht = true) (c_scr : w .scr = true)
    (c_enc : w .enc = true) (c_bgLog : w .bgLog = true) (c_pins : w .pins = true) (c_r3 : w (.regs 3) = true)
    (c_r4 : w (.regs 4) = true) (c_r6 : w (.regs 6) = true) (c_r7 : w (.regs 7) = true) (c_r8 : w (.regs 8) = true)
    (c_r9 : w (.regs 9) = true) (c_r10 : w (.regs 10) = true) (c_r11 : w (.regs 11) = true) (c_r12 : w (.regs 12) = true)
    (h : Fr w o s) :
    Fr w o (servoCount s a1) := by
  rw [servoCount]
  repeat' with_reducible first
    | assumption | apply fr_ite
    | refine fr_servoCorrect c_wire c_host c_hif c_ev c_mer c_prj c_ports c_sw c_tm c_sht c_scr c_enc c_bgLog c_pins c_r3 c_r4 c_r6 c_r7 c_r8 c_r9 c_r10 c_r11 c_r12 ?_
    | intro _ | (dsimp only; split) | refine fr_mk rfl ?_

theorem fr_servoLock {w : Part → Bool} {o s : State} {a1 : Int} (c_ev : w .ev = true) (c_mer : w .mer = true)
    (c_bgLog : w .bgLog = true) (c_r4 : w (.regs 4) = true) (c_r9 : w (.regs 9) = true) (h : Fr w o s) :
    Fr w o (servoLock s a1) := by
  rw [servoLock]
  repeat' with_reducible first
    | assumption | apply fr_ite | refine fr_setF 9 (by decide) c_r9 ?_ | refine fr_unlock c_ev c_mer c_bgLog c_r4 c_r9 ?_
    | refine fr_raiseEv c_ev c_bgLog c_r4 ?_ | intro _ | (dsimp only; split) | refine fr_mk rfl ?_

theorem fr_servoSample {w : Part → Bool} {o s : State} {a1 : Int} {a2 : Int} (c_wire : w .wire = true)
    (c_host : w .host = true) (c_hif : w .hif = true) (c_ev : w .ev = true) (c_mer : w .mer = true) (c_prj : w .prj = true)
    (c_ports : w .ports = true) (c_sw : w .sw = true) (c_tm : w .tm = true) (c_sht : w .sht = true) (c_scr : w .scr = true)
    (c_enc : w .enc = true) (c_bgLog : w .bgLog = true) (c_pins : w .pins = true) (c_r3 : w (.regs 3) = true)
    (c_r4 : w (.regs 4) = true) (c_r6 : w (.regs 6) = true) (c_r7 : w (.regs 7) = true) (c_r8 : w (.regs 8) = true)
    (c_r9 : w (.regs 9) = true) (c_r10 : w (.regs 10) = true) (c_r11 : w (.regs 11) = true) (c_r12 : w (.regs 12) = true)
    (h : Fr w o s) :
    Fr w o (servoSample s a1 a2) := by
  rw [servoSample]
  repeat' with_reducible first
    | assumption | apply fr_ite | refine fr_setF 9 (by decide) c_r9 ?_ | refine fr_setS 9 (by decide) c_r9 ?_
    | refine fr_servoLock c_ev c_mer c_bgLog c_r4 c_r9 ?_
    | refine fr_servoCount c_wire c_host c_hif c_ev c_mer c_prj c_ports c_sw c_tm c_sht c_scr c_enc c_bgLog c_pins c_r3 c_r4 c_r6 c_r7 c_r8 c_r9 c_r10 c_r11 c_r12 ?_
    | refine fr_servoLoop c_mer c_r9 ?_ | intro _ | (dsimp only; split) | refine fr_mk rfl ?_

theorem fr_servoOffsetWrite {w : Part → Bool} {o s : State} {a1 : Nat} (c_wire : w .wire = true) (c_host : w .host = true)
    (c_hif : w .hif = true) (c_ev : w .ev = true) (c_mer : w .mer = true) (c_prj : w .prj = true)
    (c_ports : w .ports = true) (c_sw : w .sw = true) (c_tm : w .tm = true) (c_sht : w .sht = true) (c_scr : w .scr = true)
    (c_enc : w .enc = true) (c_bgLog : w .bgLog = true) (c_pins : w .pins = true) (c_r3 : w (.regs 3) = true)
    (c_r4 : w (.regs 4) = true) (c_r6 : w (.regs 6) = true) (c_r7 : w (.regs 7) = true) (c_r8 : w (.regs 8) = true)
    (c_r9 : w (.regs 9) = true) (c_r10 : w (.regs 10) = true) (c_r11 : w (.regs 11) = true) (c_r12 : w (.regs 12) = true)
    (h : Fr w o s) :
    Fr w o (servoOffsetWrite s a1) := by
  rw [servoOffsetWrite]
  repeat' with_reducible first
    | assumption | apply fr_ite | refine fr_setS 9 (by decide) c_r9 ?_ | refine fr_setW (k := 9) (by decide) c_r9 ?_
    | refine fr_servoSample c_wire c_host c_hif c_ev c_mer c_prj c_ports c_sw c_tm c_sht c_scr c_enc c_bgLog c_pins c_r3 c_r4 c_r6 c_r7 c_r8 c_r9 c_r10 c_r11 c_r12 ?_
    | intro _

theorem fr_holdover {w : Part → Bool} {o s : State} (c_ev : w .ev = true) (c_mer : w .mer = true)
    (c_bgLog : w .bgLog = true) (c_r4 : w (.regs 4) = true) (c_r9 : w (.regs 9) = true) (h : Fr w o s) :
    Fr w o (holdover s) := by
  rw [holdover.eq_def]
  repeat' with_reducible first
    | assumption | apply fr_ite | refine fr_setF 9 (by decide) c_r9 ?_ | refine fr_raiseEv c_ev c_bgLog c_r4 ?_
    | refine fr_setAdj c_r9 ?_ | intro _ | (dsimp only; split) | refine fr_mk rfl ?_

theorem fr_merCtrlWrite {w : Part → Bool} {o s : State} {a1 : Nat} (c_ev : w .ev = true) (c_mer : w .mer = true)
    (c_bgLog : w .bgLog = true) (c_r4 : w (.regs 4) = true) (c_r9 : w (.regs 9) = true) (h : Fr w o s) :
    Fr w o (merCtrlWrite s a1) := by
  rw [merCtrlWrite]
  repeat' with_reducible first
    | assumption | apply fr_ite | refine fr_setF 9 (by decide) c_r9 ?_ | refine fr_setW (k := 9) (by decide) c_r9 ?_
    | refine fr_unlock c_ev c_mer c_bgLog c_r4 c_r9 ?_ | refine fr_bmca c_ev c_mer c_bgLog c_r4 c_r9 ?_ | intro _
    | (dsimp only; split) | refine fr_mk rfl ?_

theorem fr_ppsPulseEnd {w : Part → Bool} {o s : State} (c_mer : w .mer = true) (c_pins : w .pins = true) (h : Fr w o s) :
    Fr w o (ppsPulseEnd s) := by
  rw [ppsPulseEnd.eq_def]
  repeat' with_reducible first
    | assumption | apply fr_ite | refine fr_ppsOut c_mer c_pins ?_ | intro _ | (dsimp only; split) | refine fr_mk rfl ?_

theorem fr_ppsOut {w : Part → Bool} {o s : State} (c_mer : w .mer = true) (c_pins : w .pins = true) (h : Fr w o s) :
    Fr w o (ppsOut s) := by
  rw [ppsOut]
  repeat' with_reducible first
    | assumption | apply fr_ite | refine fr_ppsPulseEnd c_mer c_pins ?_ | intro _ | (dsimp only; split)
    | refine fr_mk rfl ?_

theorem fr_edgeSample {w : Part → Bool} {o s : State} {a1 : Bool} {a2 : Nat} (c_wire : w .wire = true)
    (c_host : w .host = true) (c_hif : w .hif = true) (c_ev : w .ev = true) (c_mer : w .mer = true) (c_prj : w .prj = true)
    (c_ports : w .ports = true) (c_sw : w .sw = true) (c_tm : w .tm = true) (c_sht : w .sht = true) (c_scr : w .scr = true)
    (c_enc : w .enc = true) (c_bgLog : w .bgLog = true) (c_pins : w .pins = true) (c_r3 : w (.regs 3) = true)
    (c_r4 : w (.regs 4) = true) (c_r6 : w (.regs 6) = true) (c_r7 : w (.regs 7) = true) (c_r8 : w (.regs 8) = true)
    (c_r9 : w (.regs 9) = true) (c_r10 : w (.regs 10) = true) (c_r11 : w (.regs 11) = true) (c_r12 : w (.regs 12) = true)
    (h : Fr w o s) :
    Fr w o (edgeSample s a1 a2) := by
  rw [edgeSample]
  repeat' with_reducible first
    | assumption | apply fr_ite
    | refine fr_servoSample c_wire c_host c_hif c_ev c_mer c_prj c_ports c_sw c_tm c_sht c_scr c_enc c_bgLog c_pins c_r3 c_r4 c_r6 c_r7 c_r8 c_r9 c_r10 c_r11 c_r12 ?_
    | intro _

theorem fr_captureEdge {w : Part → Bool} {o s : State} {a1 : Bool} (c_wire : w .wire = true) (c_host : w .host = true)
    (c_hif : w .hif = true) (c_ev : w .ev = true) (c_mer : w .mer = true) (c_prj : w .prj = true)
    (c_ports : w .ports = true) (c_sw : w .sw = true) (c_tm : w .tm = true) (c_sht : w .sht = true) (c_scr : w .scr = true)
    (c_enc : w .enc = true) (c_bgLog : w .bgLog = true) (c_pins : w .pins = true) (c_r3 : w (.regs 3) = true)
    (c_r4 : w (.regs 4) = true) (c_r6 : w (.regs 6) = true) (c_r7 : w (.regs 7) = true) (c_r8 : w (.regs 8) = true)
    (c_r9 : w (.regs 9) = true) (c_r10 : w (.regs 10) = true) (c_r11 : w (.regs 11) = true) (c_r12 : w (.regs 12) = true)
    (h : Fr w o s) :
    Fr w o (captureEdge s a1) := by
  rw [captureEdge]
  repeat' with_reducible first
    | assumption | apply fr_ite
    | refine fr_edgeSample c_wire c_host c_hif c_ev c_mer c_prj c_ports c_sw c_tm c_sht c_scr c_enc c_bgLog c_pins c_r3 c_r4 c_r6 c_r7 c_r8 c_r9 c_r10 c_r11 c_r12 ?_
    | refine fr_raiseEv c_ev c_bgLog c_r4 ?_ | intro _ | (dsimp only; split) | refine fr_mk rfl ?_

theorem fr_captureDrop {w : Part → Bool} {o s : State} (c_mer : w .mer = true) (h : Fr w o s) :
    Fr w o (captureDrop s) := by
  rw [captureDrop]
  repeat' with_reducible first | assumption | refine fr_mk rfl ?_

theorem fr_capturePop {w : Part → Bool} {o s : State} (c_wire : w .wire = true) (c_mer : w .mer = true) (h : Fr w o s) :
    Fr w o (capturePop s) := by
  rw [capturePop]
  repeat' with_reducible first | assumption | refine fr_captureDrop c_mer ?_ | refine fr_emit c_wire ?_

theorem fr_resetMeridian {w : Part → Bool} {o s : State} (c_wire : w .wire = true) (c_host : w .host = true)
    (c_hif : w .hif = true) (c_ev : w .ev = true) (c_mer : w .mer = true) (c_prj : w .prj = true)
    (c_ports : w .ports = true) (c_sht : w .sht = true) (c_enc : w .enc = true) (c_bgLog : w .bgLog = true)
    (c_pins : w .pins = true) (c_r3 : w (.regs 3) = true) (c_r4 : w (.regs 4) = true) (c_r6 : w (.regs 6) = true)
    (c_r7 : w (.regs 7) = true) (c_r8 : w (.regs 8) = true) (c_r9 : w (.regs 9) = true) (h : Fr w o s) :
    Fr w o (resetMeridian s) := by
  rw [resetMeridian]
  repeat' with_reducible first
    | assumption | refine fr_resetRegs 9 (by decide) c_r9 ?_
    | refine fr_stopSchedule c_wire c_host c_hif c_ev c_mer c_prj c_ports c_sht c_enc c_bgLog c_pins c_r3 c_r4 c_r6 c_r7 c_r8 c_r9 ?_
    | refine fr_completeId c_wire c_host c_hif c_ev c_bgLog c_pins c_r3 c_r4 ?_ | refine fr_ppsOut c_mer c_pins ?_
    | apply fr_foldS | intro _ | refine fr_mk rfl ?_

end Sys2Proof.Machine
end

