-- ==== Sys2Proof/Laws/FramePtp.lean ====
section
/-!
SUPPORT. What the operations of Machine/Ptp.lean leave as it was.
-/

set_option Elab.async false

namespace Sys2Proof.Machine

theorem fr_ptpDrop {w : Part → Bool} {o s : State} (c_r9 : w (.regs 9) = true) (h : Fr w o s) :
    Fr w o (ptpDrop s) := by
  rw [ptpDrop]
  repeat' with_reducible first | assumption | refine fr_addF 9 (by decide) c_r9 ?_

theorem fr_ptpInvalid {w : Part → Bool} {o s : State} {a1 : Nat} (c_ev : w .ev = true) (c_bgLog : w .bgLog = true)
    (c_r4 : w (.regs 4) = true) (h : Fr w o s) :
    Fr w o (ptpInvalid s a1) := by
  rw [ptpInvalid]
  repeat' with_reducible first | assumption | refine fr_raiseEv c_ev c_bgLog c_r4 ?_

theorem fr_ptpInvalidOnce {w : Part → Bool} {o s : State} {a1 : Nat} (c_ev : w .ev = true) (c_mer : w .mer = true)
    (c_bgLog : w .bgLog = true) (c_r4 : w (.regs 4) = true) (h : Fr w o s) :
    Fr w o (ptpInvalidOnce s a1) := by
  rw [ptpInvalidOnce]
  repeat' with_reducible first
    | assumption | apply fr_ite | refine fr_ptpInvalid c_ev c_bgLog c_r4 ?_ | intro _ | (dsimp only; split)
    | refine fr_mk rfl ?_

theorem fr_delaySample {w : Part → Bool} {o s : State} {a1 : Nat} {a2 : Int} (c_ev : w .ev = true)
    (c_bgLog : w .bgLog = true) (c_r4 : w (.regs 4) = true) (c_r9 : w (.regs 9) = true) (h : Fr w o s) :
    Fr w o (delaySample s a1 a2) := by
  rw [delaySample]
  repeat' with_reducible first
    | assumption | apply fr_ite | refine fr_setF 9 (by decide) c_r9 ?_ | refine fr_ptpInvalid c_ev c_bgLog c_r4 ?_ | intro _

theorem fr_offsetSample {w : Part → Bool} {o s : State} {a1 : Nat} {a2 : Int} (c_wire : w .wire = true)
    (c_host : w .host = true) (c_hif : w .hif = true) (c_ev : w .ev = true) (c_mer : w .mer = true) (c_prj : w .prj = true)
    (c_ports : w .ports = true) (c_sw : w .sw = true) (c_tm : w .tm = true) (c_sht : w .sht = true) (c_scr : w .scr = true)
    (c_enc : w .enc = true) (c_bgLog : w .bgLog = true) (c_pins : w .pins = true) (c_r3 : w (.regs 3) = true)
    (c_r4 : w (.regs 4) = true) (c_r6 : w (.regs 6) = true) (c_r7 : w (.regs 7) = true) (c_r8 : w (.regs 8) = true)
    (c_r9 : w (.regs 9) = true) (c_r10 : w (.regs 10) = true) (c_r11 : w (.regs 11) = true) (c_r12 : w (.regs 12) = true)
    (h : Fr w o s) :
    Fr w o (offsetSample s a1 a2) := by
  rw [offsetSample]
  repeat' with_reducible first
    | assumption | apply fr_ite | refine fr_setPtp c_mer ?_
    | refine fr_servoSample c_wire c_host c_hif c_ev c_mer c_prj c_ports c_sw c_tm c_sht c_scr c_enc c_bgLog c_pins c_r3 c_r4 c_r6 c_r7 c_r8 c_r9 c_r10 c_r11 c_r12 ?_
    | intro _

theorem fr_takeSync {w : Part → Bool} {o s : State} {a1 : Nat} {a2 : List Byte} {a3 : Int} (c_wire : w .wire = true)
    (c_host : w .host = true) (c_hif : w .hif = true) (c_ev : w .ev = true) (c_mer : w .mer = true) (c_prj : w .prj = true)
    (c_ports : w .ports = true) (c_sw : w .sw = true) (c_tm : w .tm = true) (c_sht : w .sht = true) (c_scr : w .scr = true)
    (c_enc : w .enc = true) (c_bgLog : w .bgLog = true) (c_pins : w .pins = true) (c_r3 : w (.regs 3) = true)
    (c_r4 : w (.regs 4) = true) (c_r6 : w (.regs 6) = true) (c_r7 : w (.regs 7) = true) (c_r8 : w (.regs 8) = true)
    (c_r9 : w (.regs 9) = true) (c_r10 : w (.regs 10) = true) (c_r11 : w (.regs 11) = true) (c_r12 : w (.regs 12) = true)
    (h : Fr w o s) :
    Fr w o (takeSync s a1 a2 a3) := by
  rw [takeSync]
  repeat' with_reducible first
    | assumption | apply fr_ite | refine fr_setPtp c_mer ?_
    | refine fr_offsetSample c_wire c_host c_hif c_ev c_mer c_prj c_ports c_sw c_tm c_sht c_scr c_enc c_bgLog c_pins c_r3 c_r4 c_r6 c_r7 c_r8 c_r9 c_r10 c_r11 c_r12 ?_
    | intro _

theorem fr_takeFollowUp {w : Part → Bool} {o s : State} {a1 : Nat} {a2 : List Byte} (c_wire : w .wire = true)
    (c_host : w .host = true) (c_hif : w .hif = true) (c_ev : w .ev = true) (c_mer : w .mer = true) (c_prj : w .prj = true)
    (c_ports : w .ports = true) (c_sw : w .sw = true) (c_tm : w .tm = true) (c_sht : w .sht = true) (c_scr : w .scr = true)
    (c_enc : w .enc = true) (c_bgLog : w .bgLog = true) (c_pins : w .pins = true) (c_r3 : w (.regs 3) = true)
    (c_r4 : w (.regs 4) = true) (c_r6 : w (.regs 6) = true) (c_r7 : w (.regs 7) = true) (c_r8 : w (.regs 8) = true)
    (c_r9 : w (.regs 9) = true) (c_r10 : w (.regs 10) = true) (c_r11 : w (.regs 11) = true) (c_r12 : w (.regs 12) = true)
    (h : Fr w o s) :
    Fr w o (takeFollowUp s a1 a2) := by
  rw [takeFollowUp]
  repeat' with_reducible first
    | assumption | apply fr_ite | refine fr_setPtp c_mer ?_
    | refine fr_offsetSample c_wire c_host c_hif c_ev c_mer c_prj c_ports c_sw c_tm c_sht c_scr c_enc c_bgLog c_pins c_r3 c_r4 c_r6 c_r7 c_r8 c_r9 c_r10 c_r11 c_r12 ?_
    | intro _ | split

theorem fr_takeDelayResp {w : Part → Bool} {o s : State} {a1 : Nat} {a2 : List Byte} (c_ev : w .ev = true)
    (c_mer : w .mer = true) (c_bgLog : w .bgLog = true) (c_r4 : w (.regs 4) = true) (c_r9 : w (.regs 9) = true)
    (h : Fr w o s) :
    Fr w o (takeDelayResp s a1 a2) := by
  rw [takeDelayResp.eq_def]
  repeat' with_reducible first
    | assumption | apply fr_ite | refine fr_delaySample c_ev c_bgLog c_r4 c_r9 ?_ | refine fr_setPtp c_mer ?_ | intro _
    | split | (dsimp only; split)

theorem fr_takePdelayResp {w : Part → Bool} {o s : State} {a1 : Nat} {a2 : List Byte} {a3 : Int} (c_ev : w .ev = true)
    (c_mer : w .mer = true) (c_bgLog : w .bgLog = true) (c_r4 : w (.regs 4) = true) (c_r9 : w (.regs 9) = true)
    (h : Fr w o s) :
    Fr w o (takePdelayResp s a1 a2 a3) := by
  rw [takePdelayResp.eq_def]
  repeat' with_reducible first
    | assumption | apply fr_ite | refine fr_ptpInvalid c_ev c_bgLog c_r4 ?_ | refine fr_setPtp c_mer ?_
    | refine fr_delaySample c_ev c_bgLog c_r4 c_r9 ?_ | intro _ | split | (dsimp only; split)

theorem fr_takePdelayFollowUp {w : Part → Bool} {o s : State} {a1 : Nat} {a2 : List Byte} (c_ev : w .ev = true)
    (c_mer : w .mer = true) (c_bgLog : w .bgLog = true) (c_r4 : w (.regs 4) = true) (c_r9 : w (.regs 9) = true)
    (h : Fr w o s) :
    Fr w o (takePdelayFollowUp s a1 a2) := by
  rw [takePdelayFollowUp.eq_def]
  repeat' with_reducible first
    | assumption | apply fr_ite | refine fr_setPtp c_mer ?_ | refine fr_delaySample c_ev c_bgLog c_r4 c_r9 ?_ | intro _
    | split | (dsimp only; split)

theorem fr_answerDelayReq {w : Part → Bool} {o s : State} {a1 : Nat} {a2 : List Byte} {a3 : Int} {a4 : Bool}
    (c_ev : w .ev = true) (c_mer : w .mer = true) (c_sw : w .sw = true) (c_tm : w .tm = true) (c_bgLog : w .bgLog = true)
    (c_r4 : w (.regs 4) = true) (c_r9 : w (.regs 9) = true) (c_r10 : w (.regs 10) = true) (c_r11 : w (.regs 11) = true)
    (h : Fr w o s) :
    Fr w o (answerDelayReq s a1 a2 a3 a4) := by
  rw [answerDelayReq]
  repeat' with_reducible first
    | assumption | apply fr_ite | refine fr_sendPtp c_ev c_mer c_sw c_tm c_bgLog c_r4 c_r9 c_r10 c_r11 ?_ | intro _

theorem fr_answerPdelayReq {w : Part → Bool} {o s : State} {a1 : Nat} {a2 : List Byte} {a3 : Int} {a4 : Bool}
    (c_ev : w .ev = true) (c_mer : w .mer = true) (c_sw : w .sw = true) (c_tm : w .tm = true) (c_bgLog : w .bgLog = true)
    (c_r4 : w (.regs 4) = true) (c_r9 : w (.regs 9) = true) (c_r10 : w (.regs 10) = true) (c_r11 : w (.regs 11) = true)
    (h : Fr w o s) :
    Fr w o (answerPdelayReq s a1 a2 a3 a4) := by
  rw [answerPdelayReq]
  repeat' with_reducible first
    | assumption | refine fr_sendPtp c_ev c_mer c_sw c_tm c_bgLog c_r4 c_r9 c_r10 c_r11 ?_

theorem fr_takeAnnounce {w : Part → Bool} {o s : State} {a1 : Nat} {a2 : List Byte} (c_ev : w .ev = true)
    (c_mer : w .mer = true) (c_bgLog : w .bgLog = true) (c_r4 : w (.regs 4) = true) (c_r9 : w (.regs 9) = true)
    (h : Fr w o s) :
    Fr w o (takeAnnounce s a1 a2) := by
  rw [takeAnnounce]
  repeat' with_reducible first
    | assumption | apply fr_ite | refine fr_ptpInvalid c_ev c_bgLog c_r4 ?_ | refine fr_bmca c_ev c_mer c_bgLog c_r4 c_r9 ?_
    | refine fr_setPtp c_mer ?_ | intro _

theorem fr_ptpMessage {w : Part → Bool} {o s : State} {a1 : Nat} {a2 : List Byte} {a3 : Int} {a4 : Bool}
    (c_wire : w .wire = true) (c_host : w .host = true) (c_hif : w .hif = true) (c_ev : w .ev = true)
    (c_mer : w .mer = true) (c_prj : w .prj = true) (c_ports : w .ports = true) (c_sw : w .sw = true) (c_tm : w .tm = true)
    (c_sht : w .sht = true) (c_scr : w .scr = true) (c_enc : w .enc = true) (c_bgLog : w .bgLog = true)
    (c_pins : w .pins = true) (c_r3 : w (.regs 3) = true) (c_r4 : w (.regs 4) = true) (c_r6 : w (.regs 6) = true)
    (c_r7 : w (.regs 7) = true) (c_r8 : w (.regs 8) = true) (c_r9 : w (.regs 9) = true) (c_r10 : w (.regs 10) = true)
    (c_r11 : w (.regs 11) = true) (c_r12 : w (.regs 12) = true) (h : Fr w o s) :
    Fr w o (ptpMessage s a1 a2 a3 a4) := by
  rw [ptpMessage]
  repeat' with_reducible first
    | assumption | apply fr_ite | refine fr_takeAnnounce c_ev c_mer c_bgLog c_r4 c_r9 ?_
    | refine fr_takeFollowUp c_wire c_host c_hif c_ev c_mer c_prj c_ports c_sw c_tm c_sht c_scr c_enc c_bgLog c_pins c_r3 c_r4 c_r6 c_r7 c_r8 c_r9 c_r10 c_r11 c_r12 ?_
    | refine fr_takeDelayResp c_ev c_mer c_bgLog c_r4 c_r9 ?_ | refine fr_takePdelayFollowUp c_ev c_mer c_bgLog c_r4 c_r9 ?_
    | refine fr_takeSync c_wire c_host c_hif c_ev c_mer c_prj c_ports c_sw c_tm c_sht c_scr c_enc c_bgLog c_pins c_r3 c_r4 c_r6 c_r7 c_r8 c_r9 c_r10 c_r11 c_r12 ?_
    | refine fr_answerDelayReq c_ev c_mer c_sw c_tm c_bgLog c_r4 c_r9 c_r10 c_r11 ?_
    | refine fr_answerPdelayReq c_ev c_mer c_sw c_tm c_bgLog c_r4 c_r9 c_r10 c_r11 ?_
    | refine fr_takePdelayResp c_ev c_mer c_bgLog c_r4 c_r9 ?_ | intro _

theorem fr_ptpCount {w : Part → Bool} {o s : State} {a1 : Nat} (c_mer : w .mer = true) (h : Fr w o s) :
    Fr w o (ptpCount s a1) := by
  rw [ptpCount]
  repeat' with_reducible first
    | assumption | apply fr_ite | refine fr_setPtp c_mer ?_ | refine fr_ptpSecondRoll c_mer ?_ | intro _
    | (dsimp only; split) | refine fr_mk rfl ?_

theorem fr_ptpTaken {w : Part → Bool} {o s : State} {a1 : Bool} (c_mer : w .mer = true) (h : Fr w o s) :
    Fr w o (ptpTaken s a1) := by
  rw [ptpTaken]
  repeat' with_reducible first | assumption | refine fr_mk rfl ?_

theorem fr_ptpReceive {w : Part → Bool} {o s : State} {a1 : Nat} {a2 : List Byte} {a3 : Int} (c_wire : w .wire = true)
    (c_host : w .host = true) (c_hif : w .hif = true) (c_ev : w .ev = true) (c_mer : w .mer = true) (c_prj : w .prj = true)
    (c_ports : w .ports = true) (c_sw : w .sw = true) (c_tm : w .tm = true) (c_sht : w .sht = true) (c_scr : w .scr = true)
    (c_enc : w .enc = true) (c_bgLog : w .bgLog = true) (c_pins : w .pins = true) (c_r3 : w (.regs 3) = true)
    (c_r4 : w (.regs 4) = true) (c_r6 : w (.regs 6) = true) (c_r7 : w (.regs 7) = true) (c_r8 : w (.regs 8) = true)
    (c_r9 : w (.regs 9) = true) (c_r10 : w (.regs 10) = true) (c_r11 : w (.regs 11) = true) (c_r12 : w (.regs 12) = true)
    (h : Fr w o s) :
    Fr w o (ptpReceive s a1 a2 a3) := by
  rw [ptpReceive.eq_def]
  repeat' with_reducible first
    | assumption | apply fr_ite | refine fr_ptpCount c_mer ?_ | refine fr_ptpInvalidOnce c_ev c_mer c_bgLog c_r4 ?_
    | refine fr_ptpDrop c_r9 ?_ | refine fr_ptpOverload c_r9 ?_ | refine fr_ptpTaken c_mer ?_
    | refine fr_ptpMessage c_wire c_host c_hif c_ev c_mer c_prj c_ports c_sw c_tm c_sht c_scr c_enc c_bgLog c_pins c_r3 c_r4 c_r6 c_r7 c_r8 c_r9 c_r10 c_r11 c_r12 ?_
    | intro _ | split

theorem fr_ptpSeq {w : Part → Bool} {o s : State} {a1 : Nat} (c_mer : w .mer = true) (h : Fr w o s) :
    Fr w o (ptpSeq s a1).2 := by
  rw [ptpSeq]
  repeat' with_reducible first | assumption | refine fr_setPtp c_mer ?_

theorem fr_ptpSync {w : Part → Bool} {o s : State} {a1 : Nat} (c_ev : w .ev = true) (c_mer : w .mer = true)
    (c_sw : w .sw = true) (c_tm : w .tm = true) (c_bgLog : w .bgLog = true) (c_r4 : w (.regs 4) = true)
    (c_r9 : w (.regs 9) = true) (c_r10 : w (.regs 10) = true) (c_r11 : w (.regs 11) = true) (h : Fr w o s) :
    Fr w o (ptpSync s a1) := by
  rw [ptpSync]
  repeat' with_reducible first
    | assumption | apply fr_ite | refine fr_ptpSeq c_mer ?_
    | refine fr_sendPtp c_ev c_mer c_sw c_tm c_bgLog c_r4 c_r9 c_r10 c_r11 ?_ | refine fr_snd (by assumption) ?_
    | refine fr_fst (by assumption) ?_ | intro _

theorem fr_ptpAnnounce {w : Part → Bool} {o s : State} {a1 : Nat} (c_ev : w .ev = true) (c_mer : w .mer = true)
    (c_sw : w .sw = true) (c_tm : w .tm = true) (c_bgLog : w .bgLog = true) (c_r4 : w (.regs 4) = true)
    (c_r9 : w (.regs 9) = true) (c_r10 : w (.regs 10) = true) (c_r11 : w (.regs 11) = true) (h : Fr w o s) :
    Fr w o (ptpAnnounce s a1) := by
  rw [ptpAnnounce]
  repeat' with_reducible first
    | assumption | apply fr_ite | refine fr_bmca c_ev c_mer c_bgLog c_r4 c_r9 ?_ | refine fr_ptpSeq c_mer ?_
    | refine fr_sendPtp c_ev c_mer c_sw c_tm c_bgLog c_r4 c_r9 c_r10 c_r11 ?_ | refine fr_snd (by assumption) ?_
    | refine fr_fst (by assumption) ?_ | intro _

theorem fr_ptpDelayReq {w : Part → Bool} {o s : State} {a1 : Nat} (c_ev : w .ev = true) (c_mer : w .mer = true)
    (c_sw : w .sw = true) (c_tm : w .tm = true) (c_bgLog : w .bgLog = true) (c_r4 : w (.regs 4) = true)
    (c_r9 : w (.regs 9) = true) (c_r10 : w (.regs 10) = true) (c_r11 : w (.regs 11) = true) (h : Fr w o s) :
    Fr w o (ptpDelayReq s a1) := by
  rw [ptpDelayReq]
  repeat' with_reducible first
    | assumption | apply fr_ite | refine fr_ptpSeq c_mer ?_ | refine fr_setPtp c_mer ?_
    | refine fr_sendPtp c_ev c_mer c_sw c_tm c_bgLog c_r4 c_r9 c_r10 c_r11 ?_ | refine fr_snd (by assumption) ?_
    | refine fr_fst (by assumption) ?_ | intro _

end Sys2Proof.Machine
end

