-- ==== Sys2Proof/Laws/FramePowerCfg.lean ====
section
/-!
SUPPORT. What the operations of Machine/PowerCfg.lean leave as it was.
-/

set_option Elab.async false

namespace Sys2Proof.Machine

theorem fr_runWatchConfig {w : Part → Bool} {o s : State} {a1 : Cmd} {a2 : List Byte} (c_wire : w .wire = true)
    (c_host : w .host = true) (c_hif : w .hif = true) (c_ev : w .ev = true) (c_bgLog : w .bgLog = true)
    (c_pins : w .pins = true) (c_r2 : w (.regs 2) = true) (c_r3 : w (.regs 3) = true) (c_r4 : w (.regs 4) = true)
    (h : Fr w o s) :
    Fr w o (runWatchConfig s a1 a2) := by
  rw [runWatchConfig.eq_def]
  repeat' with_reducible first
    | assumption | apply fr_ite | refine fr_setF 2 (by decide) c_r2 ?_
    | refine fr_complain c_wire c_host c_hif c_ev c_bgLog c_pins c_r3 c_r4 ?_
    | refine fr_complete c_wire c_host c_hif c_ev c_bgLog c_pins c_r3 c_r4 ?_ | apply fr_foldS | intro _ | split

end Sys2Proof.Machine
end

