-- ==== Sys2Proof/Laws/FrameEditions.lean ====
section
/-!
SUPPORT. What the operations of Machine/Editions.lean leave as it was.
-/

set_option Elab.async false

namespace Sys2Proof.Machine

theorem fr_authFail {w : Part → Bool} {o s : State} (c_ev : w .ev = true) (c_bgLog : w .bgLog = true)
    (c_r4 : w (.regs 4) = true) (c_r13 : w (.regs 13) = true) (h : Fr w o s) :
    Fr w o (authFail s) := by
  rw [authFail]
  repeat' with_reducible first
    | assumption | refine fr_addF 13 (by decide) c_r13 ?_ | refine fr_raiseEv c_ev c_bgLog c_r4 ?_

theorem fr_edRun {w : Part → Bool} {o s : State} {a0 : Nat} {a2 : Cmd} {a3 : List Byte} (c_wire : w .wire = true)
    (c_host : w .host = true) (c_hif : w .hif = true) (c_ev : w .ev = true) (c_mer : w .mer = true) (c_prj : w .prj = true)
    (c_ports : w .ports = true) (c_sw : w .sw = true) (c_tm : w .tm = true) (c_sht : w .sht = true) (c_enc : w .enc = true)
    (c_bgLog : w .bgLog = true) (c_pins : w .pins = true) (c_r2 : w (.regs 2) = true) (c_r3 : w (.regs 3) = true)
    (c_r4 : w (.regs 4) = true) (c_r6 : w (.regs 6) = true) (c_r7 : w (.regs 7) = true) (c_r8 : w (.regs 8) = true)
    (c_r9 : w (.regs 9) = true) (c_r10 : w (.regs 10) = true) (c_r11 : w (.regs 11) = true) (c_r12 : w (.regs 12) = true)
    (h : Fr w o s) :
    Fr w o (edRun a0 s a2 a3) := by
  rw [edRun]
  repeat' with_reducible first
    | assumption | apply fr_ite | refine fr_runLayerSet c_wire c_host c_hif c_ev c_prj c_bgLog c_pins c_r3 c_r4 ?_
    | refine fr_runViewCommit c_wire c_host c_hif c_ev c_prj c_enc c_bgLog c_pins c_r3 c_r4 c_r6 c_r7 c_r8 ?_
    | refine fr_runGazetteerUpdate c_wire c_host c_hif c_ev c_prj c_enc c_bgLog c_pins c_r3 c_r4 c_r6 c_r7 c_r8 ?_
    | refine fr_runSheetCalSet c_wire c_host c_hif c_ev c_prj c_enc c_bgLog c_pins c_r3 c_r4 c_r6 c_r7 ?_
    | refine fr_runPortConfig c_wire c_host c_hif c_ev c_mer c_ports c_sw c_tm c_sht c_bgLog c_pins c_r2 c_r3 c_r4 c_r8 c_r9 c_r10 c_r11 ?_
    | refine fr_runTableUpdate c_wire c_host c_hif c_ev c_sw c_bgLog c_pins c_r3 c_r4 c_r11 ?_
    | refine fr_runGateListSet c_wire c_host c_hif c_ev c_tm c_bgLog c_pins c_r3 c_r4 c_r12 ?_
    | refine fr_runMeterSet c_wire c_host c_hif c_ev c_tm c_bgLog c_pins c_r3 c_r4 ?_
    | refine fr_runShaperSet c_wire c_host c_hif c_ev c_tm c_bgLog c_pins c_r3 c_r4 ?_
    | refine fr_runMirrorSet c_wire c_host c_hif c_ev c_sw c_bgLog c_pins c_r3 c_r4 c_r11 ?_
    | refine fr_runWatchConfig c_wire c_host c_hif c_ev c_bgLog c_pins c_r2 c_r3 c_r4 ?_ | intro _ | split

theorem fr_edRegister {w : Part → Bool} {o s : State} {a1 : Nat} {a2 : Bool} {a3 : EdCmd} (c_hif : w .hif = true)
    (h : Fr w o s) :
    Fr w o (edRegister s a1 a2 a3).2 := by
  rw [edRegister]
  repeat' with_reducible first
    | assumption | apply fr_ite | apply fr_ite_snd | intro _ | (dsimp only; split) | refine fr_mk rfl ?_

theorem fr_edWriteWord {w : Part → Bool} {o s : State} {a1 : Nat} {a2 : Nat} (cR : ∀ k, w (.regs k) = true) (h : Fr w o s) :
    Fr w o (edWriteWord s a1 a2) := by
  rw [edWriteWord]
  repeat' with_reducible first | assumption | refine fr_setW_any cR ?_

theorem fr_ptpCtrlWrite {w : Part → Bool} {o s : State} {a1 : Nat} (c_ev : w .ev = true) (c_mer : w .mer = true)
    (c_bgLog : w .bgLog = true) (c_r4 : w (.regs 4) = true) (c_r9 : w (.regs 9) = true) (h : Fr w o s) :
    Fr w o (ptpCtrlWrite s a1) := by
  rw [ptpCtrlWrite]
  repeat' with_reducible first
    | assumption | apply fr_ite | refine fr_setF 9 (by decide) c_r9 ?_ | refine fr_setS 9 (by decide) c_r9 ?_
    | refine fr_setW (k := 9) (by decide) c_r9 ?_ | refine fr_bmca c_ev c_mer c_bgLog c_r4 c_r9 ?_ | intro _

theorem fr_ptpPortWrite {w : Part → Bool} {o s : State} {a1 : Nat} {a2 : Nat} (c_ev : w .ev = true) (c_mer : w .mer = true)
    (c_bgLog : w .bgLog = true) (c_r4 : w (.regs 4) = true) (c_r9 : w (.regs 9) = true) (h : Fr w o s) :
    Fr w o (ptpPortWrite s a1 a2) := by
  rw [ptpPortWrite]
  repeat' with_reducible first
    | assumption | refine fr_setF 9 (by decide) c_r9 ?_ | refine fr_bmca c_ev c_mer c_bgLog c_r4 c_r9 ?_

theorem fr_edApplyWord {w : Part → Bool} {o s : State} {a1 : Nat} {a2 : Nat} (c_ev : w .ev = true) (c_mer : w .mer = true)
    (c_bgLog : w .bgLog = true) (cR : ∀ k, w (.regs k) = true) (h : Fr w o s) :
    Fr w o (edApplyWord s a1 a2) := by
  rw [edApplyWord]
  repeat' with_reducible first
    | assumption | apply fr_ite | refine fr_setW_any cR ?_ | refine fr_merCtrlWrite c_ev c_mer c_bgLog (cR 4) (cR 9) ?_
    | refine fr_ptpCtrlWrite c_ev c_mer c_bgLog (cR 4) (cR 9) ?_
    | refine fr_ptpPortWrite c_ev c_mer c_bgLog (cR 4) (cR 9) ?_ | intro _

theorem fr_edPools {w : Part → Bool} {o s : State} {a1 : List Byte} (c_r5 : w (.regs 5) = true) (c_r6 : w (.regs 6) = true)
    (c_r7 : w (.regs 7) = true) (h : Fr w o s) :
    Fr w o (edPools s a1) := by
  rw [edPools]
  repeat' with_reducible first
    | assumption | refine fr_setF 5 (by decide) c_r5 ?_ | refine fr_setF 6 (by decide) c_r6 ?_
    | refine fr_setF 7 (by decide) c_r7 ?_

theorem fr_edDo {w : Part → Bool} {o s : State} {a1 : EdCmd} (c_wire : w .wire = true) (c_host : w .host = true)
    (c_hif : w .hif = true) (c_ev : w .ev = true) (c_mer : w .mer = true) (c_prj : w .prj = true)
    (c_ports : w .ports = true) (c_sw : w .sw = true) (c_tm : w .tm = true) (c_sht : w .sht = true) (c_enc : w .enc = true)
    (c_bgLog : w .bgLog = true) (c_pins : w .pins = true) (c_r2 : w (.regs 2) = true) (c_r3 : w (.regs 3) = true)
    (c_r4 : w (.regs 4) = true) (c_r6 : w (.regs 6) = true) (c_r7 : w (.regs 7) = true) (c_r8 : w (.regs 8) = true)
    (c_r9 : w (.regs 9) = true) (c_r10 : w (.regs 10) = true) (c_r11 : w (.regs 11) = true) (c_r12 : w (.regs 12) = true)
    (h : Fr w o s) :
    Fr w o (edDo s a1).2 := by
  rw [edDo]
  repeat' with_reducible first
    | assumption | refine fr_edRegister c_hif ?_
    | refine fr_edRun c_wire c_host c_hif c_ev c_mer c_prj c_ports c_sw c_tm c_sht c_enc c_bgLog c_pins c_r2 c_r3 c_r4 c_r6 c_r7 c_r8 c_r9 c_r10 c_r11 c_r12 ?_

theorem fr_edAll {w : Part → Bool} {o : State} {a0 : List EdCmd} {a1 : List Nat × State} (c_wire : w .wire = true)
    (c_host : w .host = true) (c_hif : w .hif = true) (c_ev : w .ev = true) (c_mer : w .mer = true) (c_prj : w .prj = true)
    (c_ports : w .ports = true) (c_sw : w .sw = true) (c_tm : w .tm = true) (c_sht : w .sht = true) (c_enc : w .enc = true)
    (c_bgLog : w .bgLog = true) (c_pins : w .pins = true) (c_r2 : w (.regs 2) = true) (c_r3 : w (.regs 3) = true)
    (c_r4 : w (.regs 4) = true) (c_r6 : w (.regs 6) = true) (c_r7 : w (.regs 7) = true) (c_r8 : w (.regs 8) = true)
    (c_r9 : w (.regs 9) = true) (c_r10 : w (.regs 10) = true) (c_r11 : w (.regs 11) = true) (c_r12 : w (.regs 12) = true)
    (h : Fr w o a1.2) :
    Fr w o (edAll a0 a1).2 := by
  rw [edAll]
  repeat' with_reducible first
    | assumption
    | refine fr_edDo c_wire c_host c_hif c_ev c_mer c_prj c_ports c_sw c_tm c_sht c_enc c_bgLog c_pins c_r2 c_r3 c_r4 c_r6 c_r7 c_r8 c_r9 c_r10 c_r11 c_r12 ?_
    | apply fr_foldl | apply fr_foldl_fst | apply fr_foldl_snd | intro _

theorem fr_edStageGazetteer {w : Part → Bool} {o : State} {a0 : State} {a1 : State} {a2 : List Nat × State}
    (c_wire : w .wire = true) (c_host : w .host = true) (c_hif : w .hif = true) (c_ev : w .ev = true)
    (c_prj : w .prj = true) (c_enc : w .enc = true) (c_bgLog : w .bgLog = true) (c_pins : w .pins = true)
    (c_r3 : w (.regs 3) = true) (c_r4 : w (.regs 4) = true) (c_r6 : w (.regs 6) = true) (c_r7 : w (.regs 7) = true)
    (h : Fr w o a2.2) :
    Fr w o (edStageGazetteer a0 a1 a2).2 := by
  rw [edStageGazetteer]
  repeat' with_reducible first
    | assumption | apply fr_ite | apply fr_ite_fst | apply fr_ite_snd | refine fr_edRegister c_hif ?_
    | refine fr_settleEdits c_wire c_host c_hif c_ev c_prj c_enc c_bgLog c_pins c_r3 c_r4 c_r6 c_r7 ?_
    | refine fr_gztShow c_r7 ?_ | intro _ | (dsimp only; split) | refine fr_mk rfl ?_

theorem fr_edApplyPools {w : Part → Bool} {o s : State} {a1 : State} (c_r5 : w (.regs 5) = true) (c_r6 : w (.regs 6) = true)
    (c_r7 : w (.regs 7) = true) (h : Fr w o s) :
    Fr w o (edApplyPools s a1) := by
  rw [edApplyPools]
  repeat' with_reducible first
    | assumption | refine fr_setF 5 (by decide) c_r5 ?_ | refine fr_setF 6 (by decide) c_r6 ?_
    | refine fr_setF 7 (by decide) c_r7 ?_ | refine fr_setB 5 (by decide) c_r5 ?_

theorem fr_edApplySection {w : Part → Bool} {o : State} {a0 : State} {a1 : List Byte} {a2 : List Nat × State} {a3 : Nat}
    (c_wire : w .wire = true) (c_host : w .host = true) (c_hif : w .hif = true) (c_ev : w .ev = true)
    (c_mer : w .mer = true) (c_prj : w .prj = true) (c_ports : w .ports = true) (c_sw : w .sw = true) (c_tm : w .tm = true)
    (c_sht : w .sht = true) (c_enc : w .enc = true) (c_bgLog : w .bgLog = true) (c_pins : w .pins = true)
    (cR : ∀ k, w (.regs k) = true) (h : Fr w o a2.2) :
    Fr w o (edApplySection a0 a1 a2 a3).2 := by
  rw [edApplySection]
  repeat' with_reducible first
    | assumption | apply fr_ite | apply fr_ite_fst | apply fr_ite_snd | refine fr_edApplyWord c_ev c_mer c_bgLog cR ?_
    | refine fr_edApplyPools (cR 5) (cR 6) (cR 7) ?_
    | refine fr_edAll c_wire c_host c_hif c_ev c_mer c_prj c_ports c_sw c_tm c_sht c_enc c_bgLog c_pins (cR 2) (cR 3) (cR 4) (cR 6) (cR 7) (cR 8) (cR 9) (cR 10) (cR 11) (cR 12) ?_
    | refine fr_edStageGazetteer c_wire c_host c_hif c_ev c_prj c_enc c_bgLog c_pins (cR 3) (cR 4) (cR 6) (cR 7) ?_
    | apply fr_foldS | intro _

theorem fr_edApply {w : Part → Bool} {o s : State} {a1 : List Byte} {a2 : List Nat} (c_wire : w .wire = true)
    (c_host : w .host = true) (c_hif : w .hif = true) (c_ev : w .ev = true) (c_mer : w .mer = true) (c_prj : w .prj = true)
    (c_ports : w .ports = true) (c_sw : w .sw = true) (c_tm : w .tm = true) (c_sht : w .sht = true) (c_enc : w .enc = true)
    (c_bgLog : w .bgLog = true) (c_pins : w .pins = true) (cR : ∀ k, w (.regs k) = true) (h : Fr w o s) :
    Fr w o (edApply s a1 a2).2 := by
  rw [edApply]
  repeat' with_reducible first
    | assumption
    | refine fr_edApplySection c_wire c_host c_hif c_ev c_mer c_prj c_ports c_sw c_tm c_sht c_enc c_bgLog c_pins cR ?_
    | apply fr_foldl | apply fr_foldl_fst | apply fr_foldl_snd | intro _

theorem fr_edActivate {w : Part → Bool} {o s : State} {a1 : Nat} {a2 : List Byte} (c_ev : w .ev = true)
    (c_tmr : w .tmr = true) (c_bgLog : w .bgLog = true) (c_sec : w .sec = true) (c_r0 : w (.regs 0) = true)
    (c_r4 : w (.regs 4) = true) (c_r5 : w (.regs 5) = true) (h : Fr w o s) :
    Fr w o (edActivate s a1 a2) := by
  rw [edActivate]
  repeat' with_reducible first
    | assumption | apply fr_ite | apply fr_ite_fst | refine fr_setF 0 (by decide) c_r0 ?_
    | refine fr_setB 0 (by decide) c_r0 ?_ | refine fr_writeTmr c_ev c_tmr c_bgLog c_r4 c_r5 ?_ | intro _
    | (dsimp only; split) | refine fr_mk rfl ?_

theorem fr_restoreEdition {w : Part → Bool} {o s : State} {a1 : Nat} (c_wire : w .wire = true) (c_host : w .host = true)
    (c_hif : w .hif = true) (c_ev : w .ev = true) (c_mer : w .mer = true) (c_prj : w .prj = true)
    (c_ports : w .ports = true) (c_sw : w .sw = true) (c_tm : w .tm = true) (c_sht : w .sht = true) (c_enc : w .enc = true)
    (c_bgLog : w .bgLog = true) (c_pins : w .pins = true) (cR : ∀ k, w (.regs k) = true) (h : Fr w o s) :
    Fr w o (restoreEdition s a1) := by
  rw [restoreEdition]
  repeat' with_reducible first
    | assumption | apply fr_ite | apply fr_ite_fst | apply fr_ite_snd | refine fr_setF_any cR ?_
    | refine fr_edWriteWord cR ?_
    | refine fr_edApplySection c_wire c_host c_hif c_ev c_mer c_prj c_ports c_sw c_tm c_sht c_enc c_bgLog c_pins cR ?_
    | refine fr_ptpCtrlWrite c_ev c_mer c_bgLog (cR 4) (cR 9) ?_
    | refine fr_merCtrlWrite c_ev c_mer c_bgLog (cR 4) (cR 9) ?_ | apply fr_foldS | apply fr_foldl | apply fr_foldl_fst
    | apply fr_foldl_snd | intro _

end Sys2Proof.Machine
end

