-- ==== Sys2Proof/Laws/FrameDrain.lean ====
section
/-!
SUPPORT. What the operations of Machine/Drain.lean leave as it was.
-/

set_option Elab.async false

namespace Sys2Proof.Machine

theorem fr_putDir {w : Part → Bool} {o s : State} {a1 : Dir} (c_sec : w .sec = true) (h : Fr w o s) :
    Fr w o (putDir s a1) := by
  rw [putDir]
  repeat' with_reducible first
    | assumption | apply fr_ite | apply fr_ite_fst | apply fr_ite_snd | intro _ | (dsimp only; split) | refine fr_mk rfl ?_

theorem fr_emptySlot {w : Part → Bool} {o s : State} {a1 : Bool} {a2 : Nat} (c_sec : w .sec = true)
    (c_r0 : w (.regs 0) = true) (h : Fr w o s) :
    Fr w o (emptySlot s a1 a2) := by
  rw [emptySlot]
  repeat' with_reducible first
    | assumption | apply fr_ite | refine fr_setF 0 (by decide) c_r0 ?_ | refine fr_putDir c_sec ?_ | intro _
    | (dsimp only; split) | refine fr_mk rfl ?_

theorem fr_undefer {w : Part → Bool} {o s : State} {a1 : Nat × List Byte} (c_hif : w .hif = true) (h : Fr w o s) :
    Fr w o (undefer s a1) := by
  rw [undefer.eq_def]
  repeat' with_reducible first | assumption | refine fr_putCmd c_hif ?_ | split

theorem fr_dropSecurity {w : Part → Bool} {o s : State} {a1 : Nat → Bool} (c_hif : w .hif = true)
    (c_select : w .select = true) (c_sec : w .sec = true) (c_r0 : w (.regs 0) = true) (h : Fr w o s) :
    Fr w o (dropSecurity s a1) := by
  rw [dropSecurity.eq_def]
  repeat' with_reducible first
    | assumption | apply fr_ite | refine fr_setF 0 (by decide) c_r0 ?_ | refine fr_emptySlot c_sec c_r0 ?_
    | refine fr_undefer c_hif ?_ | apply fr_foldS | intro _ | split | (dsimp only; split) | refine fr_mk rfl ?_

theorem fr_forgetEnded {w : Part → Bool} {o s : State} (c_hif : w .hif = true) (c_prj : w .prj = true)
    (c_ports : w .ports = true) (c_sw : w .sw = true) (c_tm : w .tm = true) (c_sht : w .sht = true) (c_scr : w .scr = true)
    (c_enc : w .enc = true) (c_bg : w .bg = true) (c_select : w .select = true) (c_sec : w .sec = true)
    (c_r0 : w (.regs 0) = true) (c_r7 : w (.regs 7) = true) (c_r11 : w (.regs 11) = true) (h : Fr w o s) :
    Fr w o (forgetEnded s) := by
  rw [forgetEnded]
  repeat' with_reducible first
    | assumption | apply fr_ite | apply fr_ite_fst | apply fr_ite_snd | refine fr_setF 11 (by decide) c_r11 ?_
    | refine fr_dropSecurity c_hif c_select c_sec c_r0 ?_ | refine fr_gztShow c_r7 ?_ | intro _ | (dsimp only; split)
    | refine fr_mk rfl ?_

theorem fr_endDependents {w : Part → Bool} {o s : State} {a1 : Nat} (c_wire : w .wire = true) (c_host : w .host = true)
    (c_hif : w .hif = true) (c_ev : w .ev = true) (c_prj : w .prj = true) (c_ports : w .ports = true) (c_sw : w .sw = true)
    (c_tm : w .tm = true) (c_sht : w .sht = true) (c_scr : w .scr = true) (c_enc : w .enc = true)
    (c_bgLog : w .bgLog = true) (c_bg : w .bg = true) (c_select : w .select = true) (c_sec : w .sec = true)
    (c_pins : w .pins = true) (c_r0 : w (.regs 0) = true) (c_r3 : w (.regs 3) = true) (c_r4 : w (.regs 4) = true)
    (c_r7 : w (.regs 7) = true) (c_r11 : w (.regs 11) = true) (h : Fr w o s) :
    Fr w o (endDependents s a1) := by
  rw [endDependents]
  repeat' with_reducible first
    | assumption | apply fr_ite
    | refine fr_forgetEnded c_hif c_prj c_ports c_sw c_tm c_sht c_scr c_enc c_bg c_select c_sec c_r0 c_r7 c_r11 ?_
    | refine fr_finishStop c_hif c_r3 ?_ | refine fr_complete c_wire c_host c_hif c_ev c_bgLog c_pins c_r3 c_r4 ?_
    | apply fr_foldS | intro _

theorem fr_dropPorts {w : Part → Bool} {o s : State} {a1 : Nat × Nat} (c_wire : w .wire = true) (c_host : w .host = true)
    (c_hif : w .hif = true) (c_ev : w .ev = true) (c_mer : w .mer = true) (c_ports : w .ports = true) (c_sw : w .sw = true)
    (c_tm : w .tm = true) (c_sht : w .sht = true) (c_bgLog : w .bgLog = true) (c_pins : w .pins = true)
    (c_r3 : w (.regs 3) = true) (c_r4 : w (.regs 4) = true) (c_r8 : w (.regs 8) = true) (c_r9 : w (.regs 9) = true)
    (c_r10 : w (.regs 10) = true) (c_r11 : w (.regs 11) = true) (h : Fr w o s) :
    Fr w o (dropPorts s a1) := by
  rw [dropPorts]
  repeat' with_reducible first
    | assumption
    | refine fr_flushPort c_wire c_host c_hif c_ev c_ports c_sw c_tm c_sht c_bgLog c_pins c_r3 c_r4 c_r8 c_r10 c_r11 ?_
    | refine fr_setPortState c_r10 ?_ | refine fr_dropMeasure c_wire c_host c_hif c_ev c_ports c_bgLog c_pins c_r3 c_r4 ?_
    | refine fr_takeDown c_wire c_host c_hif c_ev c_mer c_ports c_sw c_tm c_sht c_bgLog c_pins c_r3 c_r4 c_r8 c_r9 c_r10 c_r11 ?_
    | apply fr_foldS | intro _

theorem fr_raisePorts {w : Part → Bool} {o s : State} {a1 : Nat × Nat} (c_ports : w .ports = true)
    (c_r10 : w (.regs 10) = true) (h : Fr w o s) :
    Fr w o (raisePorts s a1) := by
  rw [raisePorts]
  repeat' with_reducible first | assumption | refine fr_bringUp c_ports c_r10 ?_ | apply fr_foldS | intro _

theorem fr_resetQuadRegs {w : Part → Bool} {o s : State} {a1 : Nat} (c_ports : w .ports = true)
    (cR : ∀ k, w (.regs k) = true) (h : Fr w o s) :
    Fr w o (resetQuadRegs s a1) := by
  rw [resetQuadRegs]
  repeat' with_reducible first
    | assumption | refine fr_resetRegs_any cR ?_ | refine fr_setPortState (cR 10) ?_ | refine fr_showConfig (cR 10) ?_
    | refine fr_markBond (cR 10) ?_ | refine fr_setPort c_ports ?_ | apply fr_foldS | intro _

theorem fr_abandonCompositions {w : Part → Bool} {o s : State} (c_prj : w .prj = true) (h : Fr w o s) :
    Fr w o (abandonCompositions s) := by
  rw [abandonCompositions]
  repeat' with_reducible first | assumption | intro _ | refine fr_mk rfl ?_

theorem fr_seedDither {w : Part → Bool} {o s : State} {a1 : Nat} (c_prj : w .prj = true) (h : Fr w o s) :
    Fr w o (seedDither s a1) := by
  rw [seedDither]
  repeat' with_reducible first | assumption | refine fr_mk rfl ?_

theorem fr_resetLane {w : Part → Bool} {o s : State} {a1 : Nat} (c_ev : w .ev = true) (c_prj : w .prj = true)
    (c_scr : w .scr = true) (c_enc : w .enc = true) (c_bgLog : w .bgLog = true) (c_r4 : w (.regs 4) = true) (h : Fr w o s) :
    Fr w o (resetLane s a1) := by
  rw [resetLane]
  repeat' with_reducible first
    | assumption | apply fr_ite | apply fr_ite_fst | refine fr_closeEarly c_ev c_scr c_enc c_bgLog c_r4 ?_
    | refine fr_setPics c_prj ?_ | refine fr_abandonCompositions c_prj ?_ | refine fr_seedDither c_prj ?_ | apply fr_foldS
    | intro _ | split | (dsimp only; split)

theorem fr_resetProjection {w : Part → Bool} {o s : State} (c_wire : w .wire = true) (c_host : w .host = true)
    (c_hif : w .hif = true) (c_ev : w .ev = true) (c_mer : w .mer = true) (c_prj : w .prj = true)
    (c_ports : w .ports = true) (c_sht : w .sht = true) (c_scr : w .scr = true) (c_enc : w .enc = true)
    (c_bgLog : w .bgLog = true) (c_pins : w .pins = true) (cR : ∀ k, w (.regs k) = true) (h : Fr w o s) :
    Fr w o (resetProjection s) := by
  rw [resetProjection]
  repeat' with_reducible first
    | assumption | refine fr_resetRegs_any cR ?_
    | refine fr_stopSchedule c_wire c_host c_hif c_ev c_mer c_prj c_ports c_sht c_enc c_bgLog c_pins (cR 3) (cR 4) (cR 6) (cR 7) (cR 8) (cR 9) ?_
    | refine fr_freeCore c_scr (cR 6) ?_ | apply fr_foldS | intro _ | split | (dsimp only; split) | refine fr_mk rfl ?_

theorem fr_resetArray {w : Part → Bool} {o s : State} (c_wire : w .wire = true) (c_host : w .host = true)
    (c_hif : w .hif = true) (c_ev : w .ev = true) (c_prj : w .prj = true) (c_scr : w .scr = true)
    (c_bgLog : w .bgLog = true) (c_pins : w .pins = true) (c_r3 : w (.regs 3) = true) (c_r4 : w (.regs 4) = true)
    (c_r6 : w (.regs 6) = true) (c_r7 : w (.regs 7) = true) (h : Fr w o s) :
    Fr w o (resetArray s) := by
  rw [resetArray]
  repeat' with_reducible first
    | assumption | refine fr_resetRegs 6 (by decide) c_r6 ?_
    | refine fr_resetShared c_wire c_host c_hif c_ev c_prj c_scr c_bgLog c_pins c_r3 c_r4 c_r6 c_r7 ?_
    | refine fr_refreshLoads c_r6 c_r7 ?_ | refine fr_setCoreState c_r6 ?_ | apply fr_foldS | intro _

theorem fr_loseFrames {w : Part → Bool} {o s : State} (c_wire : w .wire = true) (c_host : w .host = true)
    (c_hif : w .hif = true) (c_ev : w .ev = true) (c_ports : w .ports = true) (c_sw : w .sw = true) (c_tm : w .tm = true)
    (c_sht : w .sht = true) (c_bgLog : w .bgLog = true) (c_pins : w .pins = true) (c_r3 : w (.regs 3) = true)
    (c_r4 : w (.regs 4) = true) (c_r8 : w (.regs 8) = true) (c_r10 : w (.regs 10) = true) (c_r11 : w (.regs 11) = true)
    (h : Fr w o s) :
    Fr w o (loseFrames s) := by
  rw [loseFrames]
  repeat' with_reducible first
    | assumption
    | refine fr_flushPort c_wire c_host c_hif c_ev c_ports c_sw c_tm c_sht c_bgLog c_pins c_r3 c_r4 c_r8 c_r10 c_r11 ?_
    | apply fr_foldS | intro _ | refine fr_mk rfl ?_

theorem fr_resetFirstStage {w : Part → Bool} {o s : State} (c_sw : w .sw = true) (c_r11 : w (.regs 11) = true)
    (h : Fr w o s) :
    Fr w o (resetFirstStage s) := by
  rw [resetFirstStage]
  repeat' with_reducible first
    | assumption | refine fr_resetRegs 11 (by decide) c_r11 ?_ | refine fr_mk rfl ?_

theorem fr_resetTraffic {w : Part → Bool} {o s : State} (c_wire : w .wire = true) (c_host : w .host = true)
    (c_hif : w .hif = true) (c_ev : w .ev = true) (c_ports : w .ports = true) (c_sw : w .sw = true) (c_tm : w .tm = true)
    (c_sht : w .sht = true) (c_bgLog : w .bgLog = true) (c_pins : w .pins = true) (cR : ∀ k, w (.regs k) = true)
    (h : Fr w o s) :
    Fr w o (resetTraffic s) := by
  rw [resetTraffic]
  repeat' with_reducible first
    | assumption | refine fr_resetRegs_any cR ?_
    | refine fr_flushPort c_wire c_host c_hif c_ev c_ports c_sw c_tm c_sht c_bgLog c_pins (cR 3) (cR 4) (cR 8) (cR 10) (cR 11) ?_
    | apply fr_foldS | intro _ | refine fr_mk rfl ?_

theorem fr_loseMemory {w : Part → Bool} {o s : State} {a1 : Nat} (c_wire : w .wire = true) (c_host : w .host = true)
    (c_hif : w .hif = true) (c_ev : w .ev = true) (c_mer : w .mer = true) (c_prj : w .prj = true)
    (c_ports : w .ports = true) (c_sht : w .sht = true) (c_scr : w .scr = true) (c_enc : w .enc = true)
    (c_bgLog : w .bgLog = true) (c_pins : w .pins = true) (c_r3 : w (.regs 3) = true) (c_r4 : w (.regs 4) = true)
    (c_r6 : w (.regs 6) = true) (c_r7 : w (.regs 7) = true) (c_r8 : w (.regs 8) = true) (c_r9 : w (.regs 9) = true)
    (h : Fr w o s) :
    Fr w o (loseMemory s a1) := by
  rw [loseMemory]
  repeat' with_reducible first
    | assumption | apply fr_ite | apply fr_ite_fst
    | refine fr_concludePicture c_wire c_host c_hif c_ev c_prj c_scr c_bgLog c_pins c_r3 c_r4 c_r6 c_r7 ?_
    | refine fr_closeEarly c_ev c_scr c_enc c_bgLog c_r4 ?_ | refine fr_abandonCompositions c_prj ?_
    | refine fr_stopSchedule c_wire c_host c_hif c_ev c_mer c_prj c_ports c_sht c_enc c_bgLog c_pins c_r3 c_r4 c_r6 c_r7 c_r8 c_r9 ?_
    | apply fr_foldS | intro _ | split | (dsimp only; split)

theorem fr_forgetHold {w : Part → Bool} {o s : State} {a1 : Nat} (c_mem : w .mem = true) (h : Fr w o s) :
    Fr w o (forgetHold s a1) := by
  rw [forgetHold]
  repeat' with_reducible first | assumption | refine fr_mk rfl ?_

theorem fr_resetStack {w : Part → Bool} {o s : State} {a1 : Nat} (c_wire : w .wire = true) (c_host : w .host = true)
    (c_hif : w .hif = true) (c_ev : w .ev = true) (c_mer : w .mer = true) (c_mem : w .mem = true) (c_prj : w .prj = true)
    (c_ports : w .ports = true) (c_sht : w .sht = true) (c_scr : w .scr = true) (c_enc : w .enc = true)
    (c_bgLog : w .bgLog = true) (c_pins : w .pins = true) (c_r3 : w (.regs 3) = true) (c_r4 : w (.regs 4) = true)
    (c_r5 : w (.regs 5) = true) (c_r6 : w (.regs 6) = true) (c_r7 : w (.regs 7) = true) (c_r8 : w (.regs 8) = true)
    (c_r9 : w (.regs 9) = true) (h : Fr w o s) :
    Fr w o (resetStack s a1) := by
  rw [resetStack]
  repeat' with_reducible first
    | assumption | apply fr_ite | refine fr_setF 5 (by decide) c_r5 ?_ | refine fr_resetRegs 5 (by decide) c_r5 ?_
    | refine fr_forgetHold c_mem ?_
    | refine fr_loseMemory c_wire c_host c_hif c_ev c_mer c_prj c_ports c_sht c_scr c_enc c_bgLog c_pins c_r3 c_r4 c_r6 c_r7 c_r8 c_r9 ?_
    | intro _ | (dsimp only; split)

theorem fr_resetCompass {w : Part → Bool} {o s : State} (c_pwr : w .pwr = true) (c_sht : w .sht = true)
    (c_sec : w .sec = true) (c_r2 : w (.regs 2) = true) (c_r14 : w (.regs 14) = true) (h : Fr w o s) :
    Fr w o (resetCompass s) := by
  rw [resetCompass]
  repeat' with_reducible first
    | assumption | refine fr_setF 2 (by decide) c_r2 ?_ | refine fr_setF 14 (by decide) c_r14 ?_
    | refine fr_resetRegs 2 (by decide) c_r2 ?_ | refine fr_resetRegs 14 (by decide) c_r14 ?_ | refine fr_mk rfl ?_

theorem fr_dropHostLink {w : Part → Bool} {o s : State} (c_hif : w .hif = true) (h : Fr w o s) :
    Fr w o (dropHostLink s) := by
  rw [dropHostLink]
  repeat' with_reducible first | assumption | apply fr_ite | intro _ | (dsimp only; split) | refine fr_mk rfl ?_

theorem fr_unitReset {w : Part → Bool} {o s : State} {a1 : Nat} (c_wire : w .wire = true) (c_host : w .host = true)
    (c_hif : w .hif = true) (c_ev : w .ev = true) (c_pwr : w .pwr = true) (c_mer : w .mer = true) (c_mem : w .mem = true)
    (c_prj : w .prj = true) (c_ports : w .ports = true) (c_sw : w .sw = true) (c_tm : w .tm = true) (c_sht : w .sht = true)
    (c_scr : w .scr = true) (c_enc : w .enc = true) (c_bgLog : w .bgLog = true) (c_sec : w .sec = true)
    (c_pins : w .pins = true) (cR : ∀ k, w (.regs k) = true) (h : Fr w o s) :
    Fr w o (unitReset s a1) := by
  rw [unitReset]
  repeat' with_reducible first
    | assumption | apply fr_ite | apply fr_ite_fst | refine fr_resetRegs_any cR ?_
    | refine fr_resetCompass c_pwr c_sht c_sec (cR 2) (cR 14) ?_ | refine fr_dropHostLink c_hif ?_
    | refine fr_resetMeridian c_wire c_host c_hif c_ev c_mer c_prj c_ports c_sht c_enc c_bgLog c_pins (cR 3) (cR 4) (cR 6) (cR 7) (cR 8) (cR 9) ?_
    | refine fr_resetCore c_wire c_host c_hif c_ev c_prj c_scr c_enc c_bgLog c_pins (cR 3) (cR 4) (cR 6) (cR 7) ?_
    | refine fr_resetArray c_wire c_host c_hif c_ev c_prj c_scr c_bgLog c_pins (cR 3) (cR 4) (cR 6) (cR 7) ?_
    | refine fr_resetLane c_ev c_prj c_scr c_enc c_bgLog (cR 4) ?_
    | refine fr_resetProjection c_wire c_host c_hif c_ev c_mer c_prj c_ports c_sht c_scr c_enc c_bgLog c_pins cR ?_
    | refine fr_resetFirstStage c_sw (cR 11) ?_
    | refine fr_loseFrames c_wire c_host c_hif c_ev c_ports c_sw c_tm c_sht c_bgLog c_pins (cR 3) (cR 4) (cR 8) (cR 10) (cR 11) ?_
    | refine fr_resetTraffic c_wire c_host c_hif c_ev c_ports c_sw c_tm c_sht c_bgLog c_pins cR ?_
    | refine fr_resetStack c_wire c_host c_hif c_ev c_mer c_mem c_prj c_ports c_sht c_scr c_enc c_bgLog c_pins (cR 3) (cR 4) (cR 5) (cR 6) (cR 7) (cR 8) (cR 9) ?_
    | refine fr_dropPorts c_wire c_host c_hif c_ev c_mer c_ports c_sw c_tm c_sht c_bgLog c_pins (cR 3) (cR 4) (cR 8) (cR 9) (cR 10) (cR 11) ?_
    | refine fr_resetQuadRegs c_ports cR ?_ | intro _ | split | (dsimp only; split)

theorem fr_enterReset {w : Part → Bool} {o s : State} {a1 : Nat} (c_wire : w .wire = true) (c_host : w .host = true)
    (c_hif : w .hif = true) (c_ev : w .ev = true) (c_pwr : w .pwr = true) (c_mer : w .mer = true) (c_mem : w .mem = true)
    (c_prj : w .prj = true) (c_ports : w .ports = true) (c_sw : w .sw = true) (c_tm : w .tm = true) (c_sht : w .sht = true)
    (c_scr : w .scr = true) (c_enc : w .enc = true) (c_bgLog : w .bgLog = true) (c_bg : w .bg = true)
    (c_select : w .select = true) (c_sec : w .sec = true) (c_pins : w .pins = true) (cR : ∀ k, w (.regs k) = true)
    (h : Fr w o s) :
    Fr w o (enterReset s a1) := by
  rw [enterReset]
  repeat' with_reducible first
    | assumption
    | refine fr_unitReset c_wire c_host c_hif c_ev c_pwr c_mer c_mem c_prj c_ports c_sw c_tm c_sht c_scr c_enc c_bgLog c_sec c_pins cR ?_
    | refine fr_setDomain (cR 2) ?_
    | refine fr_endDependents c_wire c_host c_hif c_ev c_prj c_ports c_sw c_tm c_sht c_scr c_enc c_bgLog c_bg c_select c_sec c_pins (cR 0) (cR 3) (cR 4) (cR 7) (cR 11) ?_

theorem fr_leaveReset {w : Part → Bool} {o s : State} {a1 : Nat} (c_wire : w .wire = true) (c_host : w .host = true)
    (c_hif : w .hif = true) (c_ev : w .ev = true) (c_mer : w .mer = true) (c_prj : w .prj = true)
    (c_ports : w .ports = true) (c_sw : w .sw = true) (c_tm : w .tm = true) (c_sht : w .sht = true) (c_enc : w .enc = true)
    (c_bgLog : w .bgLog = true) (c_pins : w .pins = true) (cR : ∀ k, w (.regs k) = true) (h : Fr w o s) :
    Fr w o (leaveReset s a1) := by
  rw [leaveReset]
  repeat' with_reducible first
    | assumption | apply fr_ite | refine fr_setB_any cR ?_
    | refine fr_restoreEdition c_wire c_host c_hif c_ev c_mer c_prj c_ports c_sw c_tm c_sht c_enc c_bgLog c_pins cR ?_
    | refine fr_setDomain (cR 2) ?_ | refine fr_setCoreState (cR 6) ?_ | refine fr_raisePorts c_ports (cR 10) ?_ | intro _
    | (dsimp only; split) | refine fr_mk rfl ?_

end Sys2Proof.Machine
end

