-- ==== Sys2Proof/Laws/FrameHbm.lean ====
section
/-!
SUPPORT. What the operations of Machine/Hbm.lean leave as it was.
-/

set_option Elab.async false

namespace Sys2Proof.Machine

theorem fr_setFirst {w : Part → Bool} {o s : State} {a1 : List Byte} (c_ev : w .ev = true) (h : Fr w o s) :
    Fr w o (setFirst s a1) := by
  rw [setFirst]
  repeat' with_reducible first | assumption | refine fr_mk rfl ?_

theorem fr_firstRecord {w : Part → Bool} {o s : State} {a1 : Nat} {a2 : List Byte} (c_ev : w .ev = true)
    (c_tmr : w .tmr = true) (c_bgLog : w .bgLog = true) (c_r4 : w (.regs 4) = true) (c_r5 : w (.regs 5) = true)
    (h : Fr w o s) :
    Fr w o (firstRecord s a1 a2) := by
  rw [firstRecord]
  repeat' with_reducible first
    | assumption | apply fr_ite | refine fr_setF 4 (by decide) c_r4 ?_ | refine fr_writeTmr c_ev c_tmr c_bgLog c_r4 c_r5 ?_
    | refine fr_setFirst c_ev ?_ | intro _

theorem fr_recordFault {w : Part → Bool} {o s : State} {a1 : Nat} {a2 : Nat} {a3 : List Byte} (c_ev : w .ev = true)
    (c_tmr : w .tmr = true) (c_bgLog : w .bgLog = true) (c_r4 : w (.regs 4) = true) (c_r5 : w (.regs 5) = true)
    (h : Fr w o s) :
    Fr w o (recordFault s a1 a2 a3) := by
  rw [recordFault]
  repeat' with_reducible first
    | assumption | refine fr_firstRecord c_ev c_tmr c_bgLog c_r4 c_r5 ?_ | refine fr_faultRecord c_ev c_bgLog c_r4 ?_

theorem fr_lastError {w : Part → Bool} {o s : State} {a1 : Nat} {a2 : Bool} (c_r5 : w (.regs 5) = true) (h : Fr w o s) :
    Fr w o (lastError s a1 a2) := by
  rw [lastError]
  repeat' with_reducible first | assumption | refine fr_setF 5 (by decide) c_r5 ?_

theorem fr_ceOnce {w : Part → Bool} {o s : State} {a1 : Nat} {a2 : Nat} (c_ev : w .ev = true) (c_mem : w .mem = true)
    (c_bgLog : w .bgLog = true) (c_r4 : w (.regs 4) = true) (h : Fr w o s) :
    Fr w o (ceOnce s a1 a2) := by
  rw [ceOnce]
  repeat' with_reducible first
    | assumption | apply fr_ite | refine fr_raiseCe c_ev c_bgLog c_r4 ?_ | intro _ | (dsimp only; split)
    | refine fr_mk rfl ?_

theorem fr_hbmCe {w : Part → Bool} {o s : State} {a1 : Nat} (c_ev : w .ev = true) (c_mem : w .mem = true)
    (c_bgLog : w .bgLog = true) (c_r4 : w (.regs 4) = true) (c_r5 : w (.regs 5) = true) (h : Fr w o s) :
    Fr w o (hbmCe s a1) := by
  rw [hbmCe]
  repeat' with_reducible first
    | assumption | refine fr_addF 5 (by decide) c_r5 ?_ | refine fr_ceOnce c_ev c_mem c_bgLog c_r4 ?_
    | refine fr_lastError c_r5 ?_ | refine fr_addT c_bgLog ?_

theorem fr_hbmUc {w : Part → Bool} {o s : State} {a1 : Nat} (c_ev : w .ev = true) (c_tmr : w .tmr = true)
    (c_bgLog : w .bgLog = true) (c_r4 : w (.regs 4) = true) (c_r5 : w (.regs 5) = true) (h : Fr w o s) :
    Fr w o (hbmUc s a1) := by
  rw [hbmUc]
  repeat' with_reducible first
    | assumption | refine fr_addF 5 (by decide) c_r5 ?_ | refine fr_recordFault c_ev c_tmr c_bgLog c_r4 c_r5 ?_
    | refine fr_lastError c_r5 ?_

theorem fr_secded {w : Part → Bool} {o s : State} {a1 : Nat} (c_freeCtr : w .freeCtr = true) (h : Fr w o s) :
    Fr w o (secded s a1).2 := by
  rw [secded]
  repeat' with_reducible first
    | assumption | apply fr_ite | apply fr_ite_fst | apply fr_ite_snd | refine fr_freshIndex c_freeCtr ?_ | intro _

theorem fr_setHbm {w : Part → Bool} {o s : State} {a1 : Nat} {a2 : HbmWord} (c_mem : w .mem = true) (h : Fr w o s) :
    Fr w o (setHbm s a1 a2) := by
  rw [setHbm]
  repeat' with_reducible first | assumption | refine fr_mk rfl ?_

theorem fr_flipDone {w : Part → Bool} {o s : State} (c_ev : w .ev = true) (c_bgLog : w .bgLog = true)
    (c_r4 : w (.regs 4) = true) (c_r5 : w (.regs 5) = true) (h : Fr w o s) :
    Fr w o (flipDone s) := by
  rw [flipDone]
  repeat' with_reducible first
    | assumption | refine fr_setB 5 (by decide) c_r5 ?_ | refine fr_raiseEv c_ev c_bgLog c_r4 ?_

theorem fr_writeHbm {w : Part → Bool} {o s : State} {a1 : Nat} {a2 : Nat} {a3 : Bool} (c_ev : w .ev = true)
    (c_mem : w .mem = true) (c_bgLog : w .bgLog = true) (c_r4 : w (.regs 4) = true) (c_r5 : w (.regs 5) = true)
    (h : Fr w o s) :
    Fr w o (writeHbm s a1 a2 a3) := by
  rw [writeHbm]
  repeat' with_reducible first
    | assumption | apply fr_ite | refine fr_flipDone c_ev c_bgLog c_r4 c_r5 ?_ | refine fr_setHbm c_mem ?_ | intro _

theorem fr_readHbm {w : Part → Bool} {o s : State} {a1 : Nat} {a2 : Bool} (c_freeCtr : w .freeCtr = true)
    (c_ev : w .ev = true) (c_tmr : w .tmr = true) (c_mem : w .mem = true) (c_bgLog : w .bgLog = true)
    (c_r4 : w (.regs 4) = true) (c_r5 : w (.regs 5) = true) (h : Fr w o s) :
    Fr w o (readHbm s a1 a2).2.2 := by
  rw [readHbm]
  repeat' with_reducible first
    | assumption | apply fr_ite | apply fr_ite_fst | apply fr_ite_snd | refine fr_secded c_freeCtr ?_
    | refine fr_hbmCe c_ev c_mem c_bgLog c_r4 c_r5 ?_ | refine fr_writeHbm c_ev c_mem c_bgLog c_r4 c_r5 ?_
    | refine fr_hbmUc c_ev c_tmr c_bgLog c_r4 c_r5 ?_ | intro _ | split

theorem fr_hbmOutside {w : Part → Bool} {o s : State} {a1 : Nat} (c_ev : w .ev = true) (c_tmr : w .tmr = true)
    (c_bgLog : w .bgLog = true) (c_r4 : w (.regs 4) = true) (c_r5 : w (.regs 5) = true) (h : Fr w o s) :
    Fr w o (hbmOutside s a1) := by
  rw [hbmOutside]
  repeat' with_reducible first
    | assumption | refine fr_setF 5 (by decide) c_r5 ?_ | refine fr_addF 5 (by decide) c_r5 ?_
    | refine fr_recordFault c_ev c_tmr c_bgLog c_r4 c_r5 ?_

theorem fr_noteWait {w : Part → Bool} {o s : State} {a1 : Nat} {a2 : Nat} (c_ev : w .ev = true) (c_mem : w .mem = true)
    (c_bgLog : w .bgLog = true) (c_r4 : w (.regs 4) = true) (c_r5 : w (.regs 5) = true) (h : Fr w o s) :
    Fr w o (noteWait s a1 a2) := by
  rw [noteWait]
  repeat' with_reducible first
    | assumption | apply fr_ite | refine fr_setF 5 (by decide) c_r5 ?_ | refine fr_addF 5 (by decide) c_r5 ?_
    | refine fr_raiseEv c_ev c_bgLog c_r4 ?_ | intro _ | split | (dsimp only; split) | refine fr_mk rfl ?_

theorem fr_setMerge {w : Part → Bool} {o s : State} {a1 : Nat} {a2 : List MergeEntry} (c_mem : w .mem = true)
    (h : Fr w o s) :
    Fr w o (setMerge s a1 a2) := by
  rw [setMerge]
  repeat' with_reducible first | assumption | refine fr_mk rfl ?_

theorem fr_writeEntry {w : Part → Bool} {o s : State} {a1 : MergeEntry} (c_freeCtr : w .freeCtr = true)
    (c_ev : w .ev = true) (c_tmr : w .tmr = true) (c_mem : w .mem = true) (c_bgLog : w .bgLog = true)
    (c_r4 : w (.regs 4) = true) (c_r5 : w (.regs 5) = true) (h : Fr w o s) :
    Fr w o (writeEntry s a1) := by
  rw [writeEntry]
  repeat' with_reducible first
    | assumption | apply fr_ite | apply fr_ite_fst | apply fr_ite_snd | refine fr_writeHbm c_ev c_mem c_bgLog c_r4 c_r5 ?_
    | refine fr_readHbm c_freeCtr c_ev c_tmr c_mem c_bgLog c_r4 c_r5 ?_ | intro _

theorem fr_flushMerge {w : Part → Bool} {o s : State} (c_freeCtr : w .freeCtr = true) (c_ev : w .ev = true)
    (c_tmr : w .tmr = true) (c_mem : w .mem = true) (c_bgLog : w .bgLog = true) (c_r4 : w (.regs 4) = true)
    (c_r5 : w (.regs 5) = true) (h : Fr w o s) :
    Fr w o (flushMerge s) := by
  rw [flushMerge]
  repeat' with_reducible first
    | assumption | refine fr_setMerge c_mem ?_ | refine fr_writeEntry c_freeCtr c_ev c_tmr c_mem c_bgLog c_r4 c_r5 ?_
    | apply fr_foldS | intro _

theorem fr_setSelfRefresh {w : Part → Bool} {o s : State} {a1 : Bool} (c_mem : w .mem = true) (h : Fr w o s) :
    Fr w o (setSelfRefresh s a1) := by
  rw [setSelfRefresh]
  repeat' with_reducible first | assumption | apply fr_ite | intro _ | (dsimp only; split) | refine fr_mk rfl ?_

end Sys2Proof.Machine
end

