-- ==== Sys2Proof/Laws/FrameHost.lean ====
section
/-!
SUPPORT. What the operations of Machine/Host.lean leave as it was.
-/

set_option Elab.async false

namespace Sys2Proof.Machine

theorem fr_kick {w : Part → Bool} {o s : State} {a1 : Nat} (c_wire : w .wire = true) (c_host : w .host = true)
    (c_hif : w .hif = true) (c_ev : w .ev = true) (c_bgLog : w .bgLog = true) (c_pins : w .pins = true)
    (c_r3 : w (.regs 3) = true) (c_r4 : w (.regs 4) = true) (h : Fr w o s) :
    Fr w o (kick s a1) := by
  rw [kick]
  repeat' with_reducible first
    | assumption | apply fr_ite | refine fr_raiseEv c_ev c_bgLog c_r4 ?_
    | refine fr_pollRing c_wire c_host c_hif c_ev c_bgLog c_pins c_r3 c_r4 ?_ | refine fr_writeNeedsKick c_host ?_
    | refine fr_setSqState c_r3 ?_ | intro _

theorem fr_runNop {w : Part → Bool} {o s : State} {a1 : Cmd} {a2 : List Byte} (c_wire : w .wire = true)
    (c_host : w .host = true) (c_hif : w .hif = true) (c_ev : w .ev = true) (c_bgLog : w .bgLog = true)
    (c_pins : w .pins = true) (c_r3 : w (.regs 3) = true) (c_r4 : w (.regs 4) = true) (h : Fr w o s) :
    Fr w o (runNop s a1 a2) := by
  rw [runNop]
  repeat' with_reducible first
    | assumption | refine fr_complete c_wire c_host c_hif c_ev c_bgLog c_pins c_r3 c_r4 ?_

theorem fr_runEcho {w : Part → Bool} {o s : State} {a1 : Cmd} {a2 : List Byte} (c_wire : w .wire = true)
    (c_host : w .host = true) (c_hif : w .hif = true) (c_ev : w .ev = true) (c_bgLog : w .bgLog = true)
    (c_pins : w .pins = true) (c_r3 : w (.regs 3) = true) (c_r4 : w (.regs 4) = true) (h : Fr w o s) :
    Fr w o (runEcho s a1 a2) := by
  rw [runEcho]
  repeat' with_reducible first
    | assumption | refine fr_complete c_wire c_host c_hif c_ev c_bgLog c_pins c_r3 c_r4 ?_ | refine fr_hostWrite c_host ?_

theorem fr_descriptorDone {w : Part → Bool} {o s : State} {a1 : Nat} (c_wire : w .wire = true) (c_host : w .host = true)
    (c_hif : w .hif = true) (c_ev : w .ev = true) (c_bgLog : w .bgLog = true) (c_pins : w .pins = true)
    (c_r3 : w (.regs 3) = true) (c_r4 : w (.regs 4) = true) (h : Fr w o s) :
    Fr w o (descriptorDone s a1) := by
  rw [descriptorDone.eq_def]
  repeat' with_reducible first
    | assumption | apply fr_ite | refine fr_addF 3 (by decide) c_r3 ?_ | refine fr_putCmd c_hif ?_
    | refine fr_finishStop c_hif c_r3 ?_ | refine fr_complete c_wire c_host c_hif c_ev c_bgLog c_pins c_r3 c_r4 ?_ | intro _
    | split | (dsimp only; split) | refine fr_mk rfl ?_

theorem fr_readFailed {w : Part → Bool} {o s : State} {a1 : DmaError} (c_ev : w .ev = true) (c_bgLog : w .bgLog = true)
    (c_r3 : w (.regs 3) = true) (c_r4 : w (.regs 4) = true) (h : Fr w o s) :
    Fr w o (readFailed s a1) := by
  rw [readFailed.eq_def]
  repeat' with_reducible first
    | assumption | refine fr_addF 3 (by decide) c_r3 ?_ | refine fr_raiseEv c_ev c_bgLog c_r4 ?_ | split

theorem fr_releaseHeld {w : Part → Bool} {o s : State} {a1 : Nat} {a2 : Nat} (c_wire : w .wire = true)
    (c_host : w .host = true) (c_hif : w .hif = true) (c_pins : w .pins = true) (c_r3 : w (.regs 3) = true) (h : Fr w o s) :
    Fr w o (releaseHeld s a1 a2) := by
  induction a2 generalizing s a1 with
  | zero => exact h
  | succ k ih =>
    rw [releaseHeld]
    repeat' with_reducible first
      | assumption | apply fr_ite | apply ih | refine fr_writeCompletion c_wire c_host c_hif c_pins c_r3 ?_
      | refine fr_setCq c_hif ?_ | intro _ | split

theorem fr_releaseAll {w : Part → Bool} {o s : State} {a1 : Nat} (c_wire : w .wire = true) (c_host : w .host = true)
    (c_hif : w .hif = true) (c_ev : w .ev = true) (c_bgLog : w .bgLog = true) (c_pins : w .pins = true)
    (c_r3 : w (.regs 3) = true) (c_r4 : w (.regs 4) = true) (h : Fr w o s) :
    Fr w o (releaseAll s a1) := by
  rw [releaseAll]
  repeat' with_reducible first
    | assumption | refine fr_noteFull c_hif c_ev c_bgLog c_r4 ?_ | refine fr_releaseHeld c_wire c_host c_hif c_pins c_r3 ?_

theorem fr_vectorMask {w : Part → Bool} {o s : State} {a1 : Nat} {a2 : Bool} (c_wire : w .wire = true)
    (c_hif : w .hif = true) (c_pins : w .pins = true) (c_r3 : w (.regs 3) = true) (h : Fr w o s) :
    Fr w o (vectorMask s a1 a2) := by
  rw [vectorMask]
  repeat' with_reducible first
    | assumption | apply fr_ite | refine fr_setVec c_hif ?_ | refine fr_sendVector c_wire c_hif c_pins c_r3 ?_ | intro _

theorem fr_ringConfigError {w : Part → Bool} {o s : State} (c_ev : w .ev = true) (c_bgLog : w .bgLog = true)
    (c_r4 : w (.regs 4) = true) (h : Fr w o s) :
    Fr w o (ringConfigError s) := by
  rw [ringConfigError]
  repeat' with_reducible first | assumption | refine fr_raiseEv c_ev c_bgLog c_r4 ?_

theorem fr_sqEnable {w : Part → Bool} {o s : State} {a1 : Nat} (c_hif : w .hif = true) (c_ev : w .ev = true) (c_bgLog : w .bgLog = true) (c_r3 : w (.regs 3) = true) (c_r4 : w (.regs 4) = true) (h : Fr w o s) :
    Fr w o (sqEnable s a1) := by
  rw [sqEnable]
  dsimp only
  split
  · exact h
  · have hr : Fr w o (ringConfigError (setF (setSqState (releaseChannel s a1) a1 sqDisabled) Rg.HIF_SQ_CTRL_ENABLE a1 0)) :=
      fr_ringConfigError c_ev c_bgLog c_r4 (fr_setF 3 (by decide) c_r3 (fr_setSqState c_r3 (fr_releaseChannel c_r3 h)))
    split
    · exact hr
    · split
      · exact hr
      · rename_i e
        refine fr_setSqState c_r3 (fr_setSq c_hif (fr_setF 3 (by decide) c_r3 (fr_setF 3 (by decide) c_r3 ?_)))
        split at e
        · exact fr_takeChannel c_r3 h _ _ e
        · cases e
          exact h

theorem fr_sqStop {w : Part → Bool} {o s : State} {a1 : Nat} {a2 : Bool} (c_wire : w .wire = true) (c_host : w .host = true)
    (c_hif : w .hif = true) (c_ev : w .ev = true) (c_bgLog : w .bgLog = true) (c_pins : w .pins = true)
    (c_r3 : w (.regs 3) = true) (c_r4 : w (.regs 4) = true) (h : Fr w o s) :
    Fr w o (sqStop s a1 a2) := by
  rw [sqStop]
  repeat' with_reducible first
    | assumption | apply fr_ite | refine fr_setF 3 (by decide) c_r3 ?_ | refine fr_setSq c_hif ?_
    | refine fr_setSqState c_r3 ?_ | refine fr_putCmd c_hif ?_
    | refine fr_complete c_wire c_host c_hif c_ev c_bgLog c_pins c_r3 c_r4 ?_ | refine fr_finishStop c_hif c_r3 ?_
    | refine fr_completeFetched c_wire c_host c_hif c_ev c_bgLog c_pins c_r3 c_r4 ?_ | refine fr_releaseChannel c_r3 ?_
    | apply fr_foldS | intro _

theorem fr_sqCtrlWrite {w : Part → Bool} {o s : State} {a1 : Nat} {a2 : Bool} {a3 : Bool} (c_wire : w .wire = true)
    (c_host : w .host = true) (c_hif : w .hif = true) (c_ev : w .ev = true) (c_bgLog : w .bgLog = true)
    (c_pins : w .pins = true) (c_r3 : w (.regs 3) = true) (c_r4 : w (.regs 4) = true) (h : Fr w o s) :
    Fr w o (sqCtrlWrite s a1 a2 a3) := by
  rw [sqCtrlWrite]
  repeat' with_reducible first
    | assumption | apply fr_ite | refine fr_sqStop c_wire c_host c_hif c_ev c_bgLog c_pins c_r3 c_r4 ?_
    | refine fr_sqEnable c_hif c_ev c_bgLog c_r3 c_r4 ?_ | intro _

theorem fr_cqCfgWrite {w : Part → Bool} {o s : State} {a1 : Nat} {a2 : Nat} {a3 : Nat} {a4 : Bool} (c_hif : w .hif = true)
    (c_ev : w .ev = true) (c_bgLog : w .bgLog = true) (c_r3 : w (.regs 3) = true) (c_r4 : w (.regs 4) = true)
    (h : Fr w o s) :
    Fr w o (cqCfgWrite s a1 a2 a3 a4) := by
  rw [cqCfgWrite]
  repeat' with_reducible first
    | assumption | apply fr_ite | refine fr_setF 3 (by decide) c_r3 ?_ | refine fr_ringConfigError c_ev c_bgLog c_r4 ?_
    | refine fr_setCq c_hif ?_ | intro _

theorem fr_unmappedAccess {w : Part → Bool} {o s : State} {a1 : Nat} {a2 : Bool} (c_wire : w .wire = true)
    (c_ev : w .ev = true) (c_bgLog : w .bgLog = true) (c_r3 : w (.regs 3) = true) (c_r4 : w (.regs 4) = true)
    (h : Fr w o s) :
    Fr w o (unmappedAccess s a1 a2) := by
  rw [unmappedAccess]
  repeat' with_reducible first
    | assumption | apply fr_ite | refine fr_setF 3 (by decide) c_r3 ?_ | refine fr_emit c_wire ?_
    | refine fr_raiseEv c_ev c_bgLog c_r4 ?_ | intro _

theorem fr_logAer {w : Part → Bool} {o s : State} {a1 : Aer} (c_hif : w .hif = true) (h : Fr w o s) :
    Fr w o (logAer s a1) := by
  rw [logAer]
  repeat' with_reducible first
    | assumption | apply fr_ite | intro _ | split | (dsimp only; split) | refine fr_mk rfl ?_

theorem fr_barViolation {w : Part → Bool} {o s : State} {a1 : BarViolation} {a2 : Nat} {a3 : Bool} (c_wire : w .wire = true)
    (c_hif : w .hif = true) (c_ev : w .ev = true) (c_bgLog : w .bgLog = true) (c_r3 : w (.regs 3) = true)
    (c_r4 : w (.regs 4) = true) (h : Fr w o s) :
    Fr w o (barViolation s a1 a2 a3) := by
  rw [barViolation.eq_def]
  repeat' with_reducible first
    | assumption | apply fr_ite | refine fr_addF 3 (by decide) c_r3 ?_ | refine fr_raiseEv c_ev c_bgLog c_r4 ?_
    | refine fr_emit c_wire ?_ | refine fr_logAer c_hif ?_ | intro _ | split | refine fr_mk rfl ?_

theorem fr_functionReset {w : Part → Bool} {o s : State} (c_hif : w .hif = true) (c_r3 : w (.regs 3) = true)
    (h : Fr w o s) :
    Fr w o (functionReset s) := by
  rw [functionReset]
  repeat' with_reducible first
    | assumption | apply fr_ite | refine fr_setF 3 (by decide) c_r3 ?_ | refine fr_setSqState c_r3 ?_ | apply fr_foldS
    | apply fr_foldl | apply fr_foldl_fst | apply fr_foldl_snd | intro _ | (dsimp only; split) | refine fr_mk rfl ?_

theorem fr_dropBuffers {w : Part → Bool} {o s : State} (c_ev : w .ev = true) (c_bg : w .bg = true)
    (c_r3 : w (.regs 3) = true) (c_r4 : w (.regs 4) = true) (h : Fr w o s) :
    Fr w o (dropBuffers s) := by
  rw [dropBuffers]
  repeat' with_reducible first
    | assumption | refine fr_setF 4 (by decide) c_r4 ?_ | refine fr_releaseChannel c_r3 ?_ | refine fr_mk rfl ?_

theorem fr_d3hot {w : Part → Bool} {o s : State} (c_wire : w .wire = true) (c_hif : w .hif = true) (c_pins : w .pins = true)
    (c_r3 : w (.regs 3) = true) (h : Fr w o s) :
    Fr w o (d3hot s) := by
  rw [d3hot]
  repeat' with_reducible first
    | assumption | apply fr_ite | refine fr_setF 3 (by decide) c_r3 ?_ | refine fr_requestPme c_wire c_hif c_pins ?_
    | refine fr_setVec c_hif ?_ | apply fr_foldS | intro _

theorem fr_resumeDelivery {w : Part → Bool} {o s : State} (c_wire : w .wire = true) (c_host : w .host = true)
    (c_hif : w .hif = true) (c_ev : w .ev = true) (c_bgLog : w .bgLog = true) (c_pins : w .pins = true)
    (c_r3 : w (.regs 3) = true) (c_r4 : w (.regs 4) = true) (h : Fr w o s) :
    Fr w o (resumeDelivery s) := by
  rw [resumeDelivery]
  repeat' with_reducible first
    | assumption | apply fr_ite | refine fr_releaseAll c_wire c_host c_hif c_ev c_bgLog c_pins c_r3 c_r4 ?_
    | refine fr_sendVector c_wire c_hif c_pins c_r3 ?_ | apply fr_foldS | intro _

theorem fr_linkDown {w : Part → Bool} {o s : State} (c_hif : w .hif = true) (c_ev : w .ev = true)
    (c_bgLog : w .bgLog = true) (c_r3 : w (.regs 3) = true) (c_r4 : w (.regs 4) = true) (h : Fr w o s) :
    Fr w o (linkDown s) := by
  rw [linkDown]
  repeat' with_reducible first
    | assumption | apply fr_ite | refine fr_addF 3 (by decide) c_r3 ?_ | refine fr_exitL1 c_r3 ?_
    | refine fr_raiseEv c_ev c_bgLog c_r4 ?_ | intro _ | (dsimp only; split) | refine fr_mk rfl ?_

theorem fr_linkReturn {w : Part → Bool} {o s : State} {a1 : Nat} {a2 : Nat} (c_wire : w .wire = true)
    (c_host : w .host = true) (c_hif : w .hif = true) (c_ev : w .ev = true) (c_bgLog : w .bgLog = true)
    (c_pins : w .pins = true) (c_r3 : w (.regs 3) = true) (c_r4 : w (.regs 4) = true) (h : Fr w o s) :
    Fr w o (linkReturn s a1 a2) := by
  rw [linkReturn]
  repeat' with_reducible first
    | assumption | apply fr_ite | refine fr_setF 3 (by decide) c_r3 ?_
    | refine fr_resumeDelivery c_wire c_host c_hif c_ev c_bgLog c_pins c_r3 c_r4 ?_ | refine fr_finishStop c_hif c_r3 ?_
    | refine fr_complete c_wire c_host c_hif c_ev c_bgLog c_pins c_r3 c_r4 ?_ | apply fr_foldS | intro _
    | (dsimp only; split) | refine fr_mk rfl ?_

end Sys2Proof.Machine
end

