-- ==== Sys2Proof/Laws/FrameResets.lean ====
section
/-!
SUPPORT. What the operations of Machine/Resets.lean leave as it was.
-/

set_option Elab.async false

namespace Sys2Proof.Machine

theorem fr_endTrial {w : Part → Bool} {o s : State} (c_sec : w .sec = true) (h : Fr w o s) :
    Fr w o (endTrial s) := by
  rw [endTrial]
  repeat' with_reducible first | assumption | apply fr_ite | refine fr_putDir c_sec ?_ | intro _

theorem fr_clearUnits {w : Part → Bool} {o s : State} {a1 : Nat → Bool} {a2 : Bool} (c_clk : w .clk = true)
    (c_pwr : w .pwr = true) (c_mer : w .mer = true) (c_tmr : w .tmr = true) (c_mem : w .mem = true) (c_prj : w .prj = true)
    (c_ports : w .ports = true) (c_sw : w .sw = true) (c_tm : w .tm = true) (c_sht : w .sht = true) (c_scr : w .scr = true)
    (c_enc : w .enc = true) (c_bgLog : w .bgLog = true) (c_bg : w .bg = true) (c_select : w .select = true)
    (c_sec : w .sec = true) (c_pins : w .pins = true) (cR : ∀ k, w (.regs k) = true) (h : Fr w o s) :
    Fr w o (clearUnits s a1 a2) := by
  rw [clearUnits]
  repeat' with_reducible first
    | assumption | apply fr_ite | apply fr_ite_fst | refine fr_ppsOut c_mer c_pins ?_ | intro _ | (dsimp only; split)
    | refine fr_mk rfl ?_

theorem fr_resetUnits {w : Part → Bool} {o s : State} {a1 : Nat → Bool} {a2 : Bool} (c_freeCtr : w .freeCtr = true)
    (c_ev : w .ev = true) (c_clk : w .clk = true) (c_pwr : w .pwr = true) (c_mer : w .mer = true) (c_tmr : w .tmr = true)
    (c_mem : w .mem = true) (c_prj : w .prj = true) (c_ports : w .ports = true) (c_sw : w .sw = true) (c_tm : w .tm = true)
    (c_sht : w .sht = true) (c_scr : w .scr = true) (c_enc : w .enc = true) (c_bgLog : w .bgLog = true)
    (c_bg : w .bg = true) (c_select : w .select = true) (c_sec : w .sec = true) (c_pins : w .pins = true)
    (cR : ∀ k, w (.regs k) = true) (h : Fr w o s) :
    Fr w o (resetUnits s a1 a2) := by
  rw [resetUnits]
  repeat' with_reducible first
    | assumption | apply fr_ite | refine fr_setF_any cR ?_ | refine fr_emptySlot c_sec (cR 0) ?_
    | refine fr_endTrial c_sec ?_ | refine fr_flushMerge c_freeCtr c_ev c_tmr c_mem c_bgLog (cR 4) (cR 5) ?_
    | refine fr_clearUnits c_clk c_pwr c_mer c_tmr c_mem c_prj c_ports c_sw c_tm c_sht c_scr c_enc c_bgLog c_bg c_select c_sec c_pins cR ?_
    | refine fr_setDomain (cR 2) ?_ | apply fr_foldS | intro _

theorem fr_noteCause {w : Part → Bool} {o s : State} {a1 : Nat} (c_ev : w .ev = true) (c_tmr : w .tmr = true)
    (c_bgLog : w .bgLog = true) (c_r1 : w (.regs 1) = true) (c_r4 : w (.regs 4) = true) (c_r5 : w (.regs 5) = true)
    (h : Fr w o s) :
    Fr w o (noteCause s a1) := by
  rw [noteCause]
  repeat' with_reducible first
    | assumption | apply fr_ite | refine fr_setF 1 (by decide) c_r1 ?_ | refine fr_addF 1 (by decide) c_r1 ?_
    | refine fr_writeTmr c_ev c_tmr c_bgLog c_r4 c_r5 ?_ | intro _

theorem fr_endReactions {w : Part → Bool} {o s : State} (c_ev : w .ev = true) (c_bgLog : w .bgLog = true)
    (c_r4 : w (.regs 4) = true) (h : Fr w o s) :
    Fr w o (endReactions s) := by
  rw [endReactions]
  repeat' with_reducible first
    | assumption | apply fr_ite | refine fr_setF 4 (by decide) c_r4 ?_ | refine fr_raiseEv c_ev c_bgLog c_r4 ?_
    | apply fr_foldS | intro _ | (dsimp only; split) | refine fr_mk rfl ?_

theorem fr_dropSurvey {w : Part → Bool} {o s : State} (c_ev : w .ev = true) (c_bgLog : w .bgLog = true)
    (c_r4 : w (.regs 4) = true) (h : Fr w o s) :
    Fr w o (dropSurvey s) := by
  rw [dropSurvey.eq_def]
  repeat' with_reducible first
    | assumption | refine fr_setF 4 (by decide) c_r4 ?_ | refine fr_raiseEv c_ev c_bgLog c_r4 ?_ | (dsimp only; split)
    | refine fr_mk rfl ?_

theorem fr_leaveFe {w : Part → Bool} {o s : State} (c_pins : w .pins = true) (c_r4 : w (.regs 4) = true) (h : Fr w o s) :
    Fr w o (leaveFe s) := by
  rw [leaveFe]
  repeat' with_reducible first
    | assumption | apply fr_ite | refine fr_setF 4 (by decide) c_r4 ?_ | intro _ | (dsimp only; split) | refine fr_mk rfl ?_

theorem fr_reachT0 {w : Part → Bool} {o s : State} (c_ev : w .ev = true) (c_clk : w .clk = true) (c_mer : w .mer = true)
    (c_bgLog : w .bgLog = true) (c_r1 : w (.regs 1) = true) (c_r4 : w (.regs 4) = true) (h : Fr w o s) :
    Fr w o (reachT0 s) := by
  rw [reachT0.eq_def]
  repeat' with_reducible first
    | assumption | refine fr_setF 1 (by decide) c_r1 ?_ | refine fr_raiseEv c_ev c_bgLog c_r4 ?_ | split
    | (dsimp only; split) | refine fr_mk rfl ?_

theorem fr_afterClocks {w : Part → Bool} {o s : State} (c_ev : w .ev = true) (c_clk : w .clk = true) (c_mer : w .mer = true)
    (c_bgLog : w .bgLog = true) (c_r1 : w (.regs 1) = true) (c_r4 : w (.regs 4) = true) (h : Fr w o s) :
    Fr w o (afterClocks s) := by
  rw [afterClocks]
  repeat' with_reducible first
    | assumption | apply fr_ite | refine fr_setF 1 (by decide) c_r1 ?_
    | refine fr_reachT0 c_ev c_clk c_mer c_bgLog c_r1 c_r4 ?_ | intro _

theorem fr_restartClocks {w : Part → Bool} {o s : State} (c_clk : w .clk = true) (c_r1 : w (.regs 1) = true)
    (h : Fr w o s) :
    Fr w o (restartClocks s) := by
  rw [restartClocks]
  repeat' with_reducible first
    | assumption | refine fr_setF 1 (by decide) c_r1 ?_ | apply fr_foldS | intro _ | refine fr_mk rfl ?_

theorem fr_clearAlwaysOn {w : Part → Bool} {o s : State} {a1 : Nat} {a2 : Bool} (c_hif : w .hif = true)
    (c_ev : w .ev = true) (c_clk : w .clk = true) (c_pins : w .pins = true) (h : Fr w o s) :
    Fr w o (clearAlwaysOn s a1 a2) := by
  rw [clearAlwaysOn]
  repeat' with_reducible first
    | assumption | apply fr_ite | apply fr_ite_fst | intro _ | (dsimp only; split) | refine fr_mk rfl ?_

theorem fr_coldReset {w : Part → Bool} {o s : State} {a1 : Nat} (c_freeCtr : w .freeCtr = true) (c_hif : w .hif = true)
    (c_ev : w .ev = true) (c_clk : w .clk = true) (c_pwr : w .pwr = true) (c_mer : w .mer = true) (c_tmr : w .tmr = true)
    (c_mem : w .mem = true) (c_prj : w .prj = true) (c_ports : w .ports = true) (c_sw : w .sw = true) (c_tm : w .tm = true)
    (c_sht : w .sht = true) (c_scr : w .scr = true) (c_enc : w .enc = true) (c_bgLog : w .bgLog = true)
    (c_bg : w .bg = true) (c_select : w .select = true) (c_sec : w .sec = true) (c_pins : w .pins = true)
    (cR : ∀ k, w (.regs k) = true) (h : Fr w o s) :
    Fr w o (coldReset s a1) := by
  rw [coldReset]
  repeat' with_reducible first
    | assumption | apply fr_ite | refine fr_setF_any cR ?_
    | refine fr_resetUnits c_freeCtr c_ev c_clk c_pwr c_mer c_tmr c_mem c_prj c_ports c_sw c_tm c_sht c_scr c_enc c_bgLog c_bg c_select c_sec c_pins cR ?_
    | refine fr_causeEnds c_ev c_bgLog (cR 4) ?_ | refine fr_clearAlwaysOn c_hif c_ev c_clk c_pins ?_
    | refine fr_noteCause c_ev c_tmr c_bgLog (cR 1) (cR 4) (cR 5) ?_
    | refine fr_afterClocks c_ev c_clk c_mer c_bgLog (cR 1) (cR 4) ?_ | refine fr_restartClocks c_clk (cR 1) ?_ | intro _

theorem fr_warmReset {w : Part → Bool} {o s : State} {a1 : Nat} (c_freeCtr : w .freeCtr = true) (c_hif : w .hif = true)
    (c_ev : w .ev = true) (c_clk : w .clk = true) (c_pwr : w .pwr = true) (c_mer : w .mer = true) (c_tmr : w .tmr = true)
    (c_mem : w .mem = true) (c_prj : w .prj = true) (c_ports : w .ports = true) (c_sw : w .sw = true) (c_tm : w .tm = true)
    (c_sht : w .sht = true) (c_scr : w .scr = true) (c_enc : w .enc = true) (c_bgLog : w .bgLog = true)
    (c_bg : w .bg = true) (c_select : w .select = true) (c_sec : w .sec = true) (c_pins : w .pins = true)
    (cR : ∀ k, w (.regs k) = true) (h : Fr w o s) :
    Fr w o (warmReset s a1) := by
  rw [warmReset]
  repeat' with_reducible first
    | assumption | apply fr_ite | refine fr_functionReset c_hif (cR 3) ?_ | refine fr_endReactions c_ev c_bgLog (cR 4) ?_
    | refine fr_dropSurvey c_ev c_bgLog (cR 4) ?_
    | refine fr_resetUnits c_freeCtr c_ev c_clk c_pwr c_mer c_tmr c_mem c_prj c_ports c_sw c_tm c_sht c_scr c_enc c_bgLog c_bg c_select c_sec c_pins cR ?_
    | refine fr_noteCause c_ev c_tmr c_bgLog (cR 1) (cR 4) (cR 5) ?_ | refine fr_setSelfRefresh c_mem ?_
    | refine fr_leaveFe c_pins (cR 4) ?_ | refine fr_afterClocks c_ev c_clk c_mer c_bgLog (cR 1) (cR 4) ?_
    | refine fr_restartClocks c_clk (cR 1) ?_ | intro _ | (dsimp only; split) | refine fr_mk rfl ?_

theorem fr_clockLossReset {w : Part → Bool} {o s : State} (c_freeCtr : w .freeCtr = true) (c_hif : w .hif = true)
    (c_ev : w .ev = true) (c_clk : w .clk = true) (c_pwr : w .pwr = true) (c_mer : w .mer = true) (c_tmr : w .tmr = true)
    (c_mem : w .mem = true) (c_prj : w .prj = true) (c_ports : w .ports = true) (c_sw : w .sw = true) (c_tm : w .tm = true)
    (c_sht : w .sht = true) (c_scr : w .scr = true) (c_enc : w .enc = true) (c_bgLog : w .bgLog = true)
    (c_bg : w .bg = true) (c_select : w .select = true) (c_sec : w .sec = true) (c_pins : w .pins = true)
    (cR : ∀ k, w (.regs k) = true) (h : Fr w o s) :
    Fr w o (clockLossReset s) := by
  rw [clockLossReset]
  repeat' with_reducible first
    | assumption | apply fr_ite | refine fr_setF_any cR ?_ | refine fr_endReactions c_ev c_bgLog (cR 4) ?_
    | refine fr_dropSurvey c_ev c_bgLog (cR 4) ?_
    | refine fr_resetUnits c_freeCtr c_ev c_clk c_pwr c_mer c_tmr c_mem c_prj c_ports c_sw c_tm c_sht c_scr c_enc c_bgLog c_bg c_select c_sec c_pins cR ?_
    | refine fr_noteCause c_ev c_tmr c_bgLog (cR 1) (cR 4) (cR 5) ?_ | refine fr_setSelfRefresh c_mem ?_
    | refine fr_restartClocks c_clk (cR 1) ?_ | intro _ | (dsimp only; split) | refine fr_mk rfl ?_

theorem fr_latchBar4 {w : Part → Bool} {o s : State} (c_r5 : w (.regs 5) = true) (h : Fr w o s) :
    Fr w o (latchBar4 s) := by
  rw [latchBar4]
  repeat' with_reducible first | assumption | refine fr_setB 5 (by decide) c_r5 ?_

theorem fr_hotReset {w : Part → Bool} {o s : State} (c_hif : w .hif = true) (c_ev : w .ev = true) (c_tmr : w .tmr = true)
    (c_bgLog : w .bgLog = true) (c_bg : w .bg = true) (c_r1 : w (.regs 1) = true) (c_r3 : w (.regs 3) = true)
    (c_r4 : w (.regs 4) = true) (c_r5 : w (.regs 5) = true) (h : Fr w o s) :
    Fr w o (hotReset s) := by
  rw [hotReset]
  repeat' with_reducible first
    | assumption | apply fr_ite | refine fr_resetRegs 3 (by decide) c_r3 ?_ | refine fr_dropBuffers c_ev c_bg c_r3 c_r4 ?_
    | refine fr_functionReset c_hif c_r3 ?_ | refine fr_latchBar4 c_r5 ?_
    | refine fr_noteCause c_ev c_tmr c_bgLog c_r1 c_r4 c_r5 ?_ | intro _ | (dsimp only; split) | refine fr_mk rfl ?_

theorem fr_freshDevice {w : Part → Bool} {o s : State} {a1 : Board} (c_hif : w .hif = true) (c_ev : w .ev = true)
    (c_clk : w .clk = true) (c_pwr : w .pwr = true) (c_mer : w .mer = true) (c_tmr : w .tmr = true) (c_mem : w .mem = true)
    (c_prj : w .prj = true) (c_ports : w .ports = true) (c_sw : w .sw = true) (c_tm : w .tm = true) (c_sht : w .sht = true)
    (c_scr : w .scr = true) (c_enc : w .enc = true) (c_bgLog : w .bgLog = true) (c_bg : w .bg = true)
    (c_select : w .select = true) (c_sec : w .sec = true) (c_pins : w .pins = true) (cR : ∀ k, w (.regs k) = true)
    (h : Fr w o s) :
    Fr w o (freshDevice s a1) := by
  rw [freshDevice]
  repeat' with_reducible first | assumption | apply fr_ite | intro _ | (dsimp only; split) | refine fr_mk rfl ?_

theorem fr_powerOn {w : Part → Bool} {o s : State} {a1 : Board} (c_hif : w .hif = true) (c_ev : w .ev = true)
    (c_clk : w .clk = true) (c_pwr : w .pwr = true) (c_mer : w .mer = true) (c_tmr : w .tmr = true) (c_mem : w .mem = true)
    (c_prj : w .prj = true) (c_ports : w .ports = true) (c_sw : w .sw = true) (c_tm : w .tm = true) (c_sht : w .sht = true)
    (c_scr : w .scr = true) (c_enc : w .enc = true) (c_bgLog : w .bgLog = true) (c_bg : w .bg = true)
    (c_select : w .select = true) (c_sec : w .sec = true) (c_pins : w .pins = true) (cR : ∀ k, w (.regs k) = true)
    (h : Fr w o s) :
    Fr w o (powerOn s a1) := by
  rw [powerOn]
  repeat' with_reducible first
    | assumption | apply fr_ite | refine fr_setF_any cR ?_ | refine fr_setB_any cR ?_ | refine fr_emptySlot c_sec (cR 0) ?_
    | refine fr_endTrial c_sec ?_
    | refine fr_freshDevice c_hif c_ev c_clk c_pwr c_mer c_tmr c_mem c_prj c_ports c_sw c_tm c_sht c_scr c_enc c_bgLog c_bg c_select c_sec c_pins cR ?_
    | refine fr_writeTmr c_ev c_tmr c_bgLog (cR 4) (cR 5) ?_ | apply fr_foldS | intro _

theorem fr_rstCtrlWrite {w : Part → Bool} {o s : State} {a1 : Nat} (c_freeCtr : w .freeCtr = true) (c_hif : w .hif = true)
    (c_ev : w .ev = true) (c_clk : w .clk = true) (c_pwr : w .pwr = true) (c_mer : w .mer = true) (c_tmr : w .tmr = true)
    (c_mem : w .mem = true) (c_prj : w .prj = true) (c_ports : w .ports = true) (c_sw : w .sw = true) (c_tm : w .tm = true)
    (c_sht : w .sht = true) (c_scr : w .scr = true) (c_enc : w .enc = true) (c_bgLog : w .bgLog = true)
    (c_bg : w .bg = true) (c_select : w .select = true) (c_sec : w .sec = true) (c_pins : w .pins = true)
    (cR : ∀ k, w (.regs k) = true) (h : Fr w o s) :
    Fr w o (rstCtrlWrite s a1) := by
  rw [rstCtrlWrite]
  repeat' with_reducible first
    | assumption | apply fr_ite | refine fr_setF_any cR ?_
    | refine fr_warmReset c_freeCtr c_hif c_ev c_clk c_pwr c_mer c_tmr c_mem c_prj c_ports c_sw c_tm c_sht c_scr c_enc c_bgLog c_bg c_select c_sec c_pins cR ?_
    | intro _

theorem fr_domainGo {w : Part → Bool} {o s : State} {a1 : Nat} (c_wire : w .wire = true) (c_host : w .host = true)
    (c_hif : w .hif = true) (c_ev : w .ev = true) (c_clk : w .clk = true) (c_pwr : w .pwr = true) (c_mer : w .mer = true)
    (c_mem : w .mem = true) (c_prj : w .prj = true) (c_ports : w .ports = true) (c_sw : w .sw = true) (c_tm : w .tm = true)
    (c_sht : w .sht = true) (c_scr : w .scr = true) (c_enc : w .enc = true) (c_bgLog : w .bgLog = true)
    (c_bg : w .bg = true) (c_select : w .select = true) (c_sec : w .sec = true) (c_pins : w .pins = true)
    (cR : ∀ k, w (.regs k) = true) (h : Fr w o s) :
    Fr w o (domainGo s a1) := by
  rw [domainGo]
  repeat' with_reducible first
    | assumption | apply fr_ite | refine fr_setF_any cR ?_
    | refine fr_leaveReset c_wire c_host c_hif c_ev c_mer c_prj c_ports c_sw c_tm c_sht c_enc c_bgLog c_pins cR ?_
    | refine fr_enterReset c_wire c_host c_hif c_ev c_pwr c_mer c_mem c_prj c_ports c_sw c_tm c_sht c_scr c_enc c_bgLog c_bg c_select c_sec c_pins cR ?_
    | intro _ | (dsimp only; split) | refine fr_mk rfl ?_

end Sys2Proof.Machine
end

