-- ==== Sys2Proof/Laws/FrameFaults.lean ====
section
/-!
SUPPORT. What the operations of Machine/Faults.lean leave as it was.
-/

set_option Elab.async false

namespace Sys2Proof.Machine

theorem fr_noteStalled {w : Part → Bool} {o s : State} {a1 : Nat} (c_ev : w .ev = true) (c_r4 : w (.regs 4) = true)
    (h : Fr w o s) :
    Fr w o (noteStalled s a1) := by
  rw [noteStalled]
  repeat' with_reducible first
    | assumption | apply fr_ite | refine fr_addF 4 (by decide) c_r4 ?_ | refine fr_setSrc c_ev ?_ | intro _

theorem fr_eventDeliver {w : Part → Bool} {o s : State} (c_wire : w .wire = true) (c_hif : w .hif = true)
    (c_ev : w .ev = true) (c_bgLog : w .bgLog = true) (c_pins : w .pins = true) (c_r3 : w (.regs 3) = true)
    (c_r4 : w (.regs 4) = true) (h : Fr w o s) :
    Fr w o (eventDeliver s) := by
  rw [eventDeliver.eq_def]
  repeat' with_reducible first
    | assumption | refine fr_noteStalled c_ev c_r4 ?_
    | refine fr_deliverSource c_wire c_hif c_ev c_bgLog c_pins c_r3 c_r4 ?_ | apply fr_foldS | intro _ | split
    | (dsimp only; split)

theorem fr_evqDrop {w : Part → Bool} {o s : State} (c_ev : w .ev = true) (c_r4 : w (.regs 4) = true) (h : Fr w o s) :
    Fr w o (evqDrop s) := by
  rw [evqDrop.eq_def]
  repeat' with_reducible first
    | assumption | refine fr_setF 4 (by decide) c_r4 ?_ | (dsimp only; split) | refine fr_mk rfl ?_

theorem fr_evqPop {w : Part → Bool} {o s : State} (c_wire : w .wire = true) (c_ev : w .ev = true)
    (c_r4 : w (.regs 4) = true) (h : Fr w o s) :
    Fr w o (evqPop s) := by
  rw [evqPop]
  repeat' with_reducible first | assumption | refine fr_evqDrop c_ev c_r4 ?_ | refine fr_emit c_wire ?_

theorem fr_srcAck {w : Part → Bool} {o s : State} {a1 : Nat} (c_ev : w .ev = true) (c_r4 : w (.regs 4) = true)
    (h : Fr w o s) :
    Fr w o (srcAck s a1) := by
  rw [srcAck]
  repeat' with_reducible first
    | assumption | apply fr_ite | refine fr_setF 4 (by decide) c_r4 ?_ | refine fr_setSrc c_ev ?_ | intro _

theorem fr_mergeFault {w : Part → Bool} {o s : State} {a1 : Nat} {a2 : Nat} (c_ev : w .ev = true)
    (c_bgLog : w .bgLog = true) (c_r4 : w (.regs 4) = true) (h : Fr w o s) :
    Fr w o (mergeFault s a1 a2) := by
  rw [mergeFault]
  repeat' with_reducible first
    | assumption | refine fr_addF 4 (by decide) c_r4 ?_ | refine fr_faultRecord c_ev c_bgLog c_r4 ?_
    | refine fr_raiseEv c_ev c_bgLog c_r4 ?_ | refine fr_mk rfl ?_

theorem fr_startUnitReset {w : Part → Bool} {o s : State} {a1 : Reaction} (c_wire : w .wire = true)
    (c_host : w .host = true) (c_hif : w .hif = true) (c_ev : w .ev = true) (c_pwr : w .pwr = true) (c_mer : w .mer = true)
    (c_mem : w .mem = true) (c_prj : w .prj = true) (c_ports : w .ports = true) (c_sw : w .sw = true) (c_tm : w .tm = true)
    (c_sht : w .sht = true) (c_scr : w .scr = true) (c_enc : w .enc = true) (c_bgLog : w .bgLog = true)
    (c_bg : w .bg = true) (c_select : w .select = true) (c_sec : w .sec = true) (c_pins : w .pins = true)
    (cR : ∀ k, w (.regs k) = true) (h : Fr w o s) :
    Fr w o (startUnitReset s a1) := by
  rw [startUnitReset]
  repeat' with_reducible first
    | assumption | apply fr_ite
    | refine fr_endDependents c_wire c_host c_hif c_ev c_prj c_ports c_sw c_tm c_sht c_scr c_enc c_bgLog c_bg c_select c_sec c_pins (cR 0) (cR 3) (cR 4) (cR 7) (cR 11) ?_
    | refine fr_setDomain (cR 2) ?_
    | refine fr_dropPorts c_wire c_host c_hif c_ev c_mer c_ports c_sw c_tm c_sht c_bgLog c_pins (cR 3) (cR 4) (cR 8) (cR 9) (cR 10) (cR 11) ?_
    | refine fr_setMerge c_mem ?_
    | refine fr_enterReset c_wire c_host c_hif c_ev c_pwr c_mer c_mem c_prj c_ports c_sw c_tm c_sht c_scr c_enc c_bgLog c_bg c_select c_sec c_pins cR ?_
    | apply fr_foldS | intro _

theorem fr_endUnitReset {w : Part → Bool} {o s : State} {a1 : Reaction} (c_wire : w .wire = true) (c_host : w .host = true)
    (c_hif : w .hif = true) (c_ev : w .ev = true) (c_clk : w .clk = true) (c_pwr : w .pwr = true) (c_mer : w .mer = true)
    (c_mem : w .mem = true) (c_prj : w .prj = true) (c_ports : w .ports = true) (c_sw : w .sw = true) (c_tm : w .tm = true)
    (c_sht : w .sht = true) (c_scr : w .scr = true) (c_enc : w .enc = true) (c_bgLog : w .bgLog = true)
    (c_bg : w .bg = true) (c_select : w .select = true) (c_sec : w .sec = true) (c_pins : w .pins = true)
    (cR : ∀ k, w (.regs k) = true) (h : Fr w o s) :
    Fr w o (endUnitReset s a1) := by
  rw [endUnitReset]
  repeat' with_reducible first
    | assumption | apply fr_ite | refine fr_setF_any cR ?_
    | refine fr_leaveReset c_wire c_host c_hif c_ev c_mer c_prj c_ports c_sw c_tm c_sht c_enc c_bgLog c_pins cR ?_
    | refine fr_enterReset c_wire c_host c_hif c_ev c_pwr c_mer c_mem c_prj c_ports c_sw c_tm c_sht c_scr c_enc c_bgLog c_bg c_select c_sec c_pins cR ?_
    | apply fr_foldS | intro _ | (dsimp only; split) | refine fr_mk rfl ?_

theorem fr_showReactions {w : Part → Bool} {o s : State} (c_r4 : w (.regs 4) = true) (h : Fr w o s) :
    Fr w o (showReactions s) := by
  rw [showReactions]
  repeat' with_reducible first | assumption | apply fr_ite | refine fr_setF 4 (by decide) c_r4 ?_ | intro _

theorem fr_dropReaction {w : Part → Bool} {o s : State} {a1 : Nat} (c_ev : w .ev = true) (c_r4 : w (.regs 4) = true)
    (h : Fr w o s) :
    Fr w o (dropReaction s a1) := by
  rw [dropReaction]
  repeat' with_reducible first | assumption | refine fr_showReactions c_r4 ?_ | intro _ | refine fr_mk rfl ?_

theorem fr_holdUnit {w : Part → Bool} {o s : State} {a1 : Reaction} (c_ev : w .ev = true) (c_bgLog : w .bgLog = true)
    (c_r4 : w (.regs 4) = true) (h : Fr w o s) :
    Fr w o (holdUnit s a1) := by
  rw [holdUnit]
  repeat' with_reducible first
    | assumption | refine fr_dropReaction c_ev c_r4 ?_ | refine fr_raiseEv c_ev c_bgLog c_r4 ?_
    | refine fr_showReactions c_r4 ?_ | refine fr_mk rfl ?_

theorem fr_finishReaction {w : Part → Bool} {o s : State} {a1 : Reaction} (c_wire : w .wire = true)
    (c_host : w .host = true) (c_hif : w .hif = true) (c_ev : w .ev = true) (c_clk : w .clk = true) (c_pwr : w .pwr = true)
    (c_mer : w .mer = true) (c_mem : w .mem = true) (c_prj : w .prj = true) (c_ports : w .ports = true)
    (c_sw : w .sw = true) (c_tm : w .tm = true) (c_sht : w .sht = true) (c_scr : w .scr = true) (c_enc : w .enc = true)
    (c_bgLog : w .bgLog = true) (c_bg : w .bg = true) (c_select : w .select = true) (c_sec : w .sec = true)
    (c_pins : w .pins = true) (cR : ∀ k, w (.regs k) = true) (h : Fr w o s) :
    Fr w o (finishReaction s a1) := by
  rw [finishReaction]
  repeat' with_reducible first
    | assumption | apply fr_ite | refine fr_holdUnit c_ev c_bgLog (cR 4) ?_ | refine fr_raiseEv c_ev c_bgLog (cR 4) ?_
    | refine fr_dropReaction c_ev (cR 4) ?_
    | refine fr_endUnitReset c_wire c_host c_hif c_ev c_clk c_pwr c_mer c_mem c_prj c_ports c_sw c_tm c_sht c_scr c_enc c_bgLog c_bg c_select c_sec c_pins cR ?_
    | intro _

theorem fr_countStart {w : Part → Bool} {o s : State} {a1 : Nat} (c_ev : w .ev = true) (h : Fr w o s) :
    Fr w o (countStart s a1) := by
  rw [countStart]
  repeat' with_reducible first | assumption | intro _ | refine fr_mk rfl ?_

theorem fr_raiseUc {w : Part → Bool} {o s : State} {a1 : Nat} {a2 : Nat} {a3 : List Byte} (c_wire : w .wire = true)
    (c_host : w .host = true) (c_hif : w .hif = true) (c_ev : w .ev = true) (c_pwr : w .pwr = true) (c_mer : w .mer = true)
    (c_tmr : w .tmr = true) (c_mem : w .mem = true) (c_prj : w .prj = true) (c_ports : w .ports = true)
    (c_sw : w .sw = true) (c_tm : w .tm = true) (c_sht : w .sht = true) (c_scr : w .scr = true) (c_enc : w .enc = true)
    (c_bgLog : w .bgLog = true) (c_bg : w .bg = true) (c_select : w .select = true) (c_sec : w .sec = true)
    (c_pins : w .pins = true) (cR : ∀ k, w (.regs k) = true) (h : Fr w o s) :
    Fr w o (raiseUc s a1 a2 a3) := by
  rw [raiseUc.eq_def]
  repeat' with_reducible first
    | assumption | apply fr_ite | refine fr_mergeFault c_ev c_bgLog (cR 4) ?_
    | refine fr_recordFault c_ev c_tmr c_bgLog (cR 4) (cR 5) ?_ | refine fr_countStart c_ev ?_
    | refine fr_startUnitReset c_wire c_host c_hif c_ev c_pwr c_mer c_mem c_prj c_ports c_sw c_tm c_sht c_scr c_enc c_bgLog c_bg c_select c_sec c_pins cR ?_
    | refine fr_showReactions (cR 4) ?_ | intro _ | (dsimp only; split) | refine fr_mk rfl ?_

theorem fr_ucResetDone {w : Part → Bool} {o s : State} {a1 : Nat} (c_wire : w .wire = true) (c_host : w .host = true)
    (c_hif : w .hif = true) (c_ev : w .ev = true) (c_clk : w .clk = true) (c_pwr : w .pwr = true) (c_mer : w .mer = true)
    (c_mem : w .mem = true) (c_prj : w .prj = true) (c_ports : w .ports = true) (c_sw : w .sw = true) (c_tm : w .tm = true)
    (c_sht : w .sht = true) (c_scr : w .scr = true) (c_enc : w .enc = true) (c_bgLog : w .bgLog = true)
    (c_bg : w .bg = true) (c_select : w .select = true) (c_sec : w .sec = true) (c_pins : w .pins = true)
    (cR : ∀ k, w (.regs k) = true) (h : Fr w o s) :
    Fr w o (ucResetDone s a1) := by
  rw [ucResetDone.eq_def]
  repeat' with_reducible first
    | assumption | apply fr_ite
    | refine fr_finishReaction c_wire c_host c_hif c_ev c_clk c_pwr c_mer c_mem c_prj c_ports c_sw c_tm c_sht c_scr c_enc c_bgLog c_bg c_select c_sec c_pins cR ?_
    | intro _ | split

theorem fr_surveyFailed {w : Part → Bool} {o s : State} (c_ev : w .ev = true) (c_bgLog : w .bgLog = true)
    (c_r4 : w (.regs 4) = true) (h : Fr w o s) :
    Fr w o (surveyFailed s) := by
  rw [surveyFailed]
  repeat' with_reducible first
    | assumption | refine fr_setF 4 (by decide) c_r4 ?_ | refine fr_raiseEv c_ev c_bgLog c_r4 ?_

theorem fr_startSurvey {w : Part → Bool} {o s : State} {a1 : Bool} {a2 : Bool} (c_ev : w .ev = true)
    (c_r4 : w (.regs 4) = true) (h : Fr w o s) :
    Fr w o (startSurvey s a1 a2) := by
  rw [startSurvey]
  repeat' with_reducible first
    | assumption | refine fr_setF 4 (by decide) c_r4 ?_
    | refine fr_clockLoss c_freeCtr c_hif c_ev c_clk c_pwr c_mer c_tmr c_mem c_prj c_ports c_sw c_tm c_sht c_scr c_enc c_bgLog c_bg c_select c_sec c_pins cR ?_
    | refine fr_mk rfl ?_

theorem fr_endFe {w : Part → Bool} {o s : State} (c_freeCtr : w .freeCtr = true) (c_hif : w .hif = true)
    (c_ev : w .ev = true) (c_clk : w .clk = true) (c_pwr : w .pwr = true) (c_mer : w .mer = true) (c_tmr : w .tmr = true)
    (c_mem : w .mem = true) (c_prj : w .prj = true) (c_ports : w .ports = true) (c_sw : w .sw = true) (c_tm : w .tm = true)
    (c_sht : w .sht = true) (c_scr : w .scr = true) (c_enc : w .enc = true) (c_bgLog : w .bgLog = true)
    (c_bg : w .bg = true) (c_select : w .select = true) (c_sec : w .sec = true) (c_pins : w .pins = true)
    (cR : ∀ k, w (.regs k) = true) (h : Fr w o s) :
    Fr w o (endFe s) := by
  rw [endFe]
  repeat' with_reducible first
    | assumption | apply fr_ite
    | refine fr_warmReset c_freeCtr c_hif c_ev c_clk c_pwr c_mer c_tmr c_mem c_prj c_ports c_sw c_tm c_sht c_scr c_enc c_bgLog c_bg c_select c_sec c_pins cR ?_
    | intro _

theorem fr_raiseFe {w : Part → Bool} {o s : State} {a1 : Nat} {a2 : List Byte} (c_freeCtr : w .freeCtr = true)
    (c_wire : w .wire = true) (c_host : w .host = true) (c_hif : w .hif = true) (c_ev : w .ev = true)
    (c_clk : w .clk = true) (c_pwr : w .pwr = true) (c_mer : w .mer = true) (c_tmr : w .tmr = true) (c_mem : w .mem = true)
    (c_prj : w .prj = true) (c_ports : w .ports = true) (c_sw : w .sw = true) (c_tm : w .tm = true) (c_sht : w .sht = true)
    (c_scr : w .scr = true) (c_enc : w .enc = true) (c_bgLog : w .bgLog = true) (c_bg : w .bg = true)
    (c_select : w .select = true) (c_sec : w .sec = true) (c_pins : w .pins = true) (cR : ∀ k, w (.regs k) = true)
    (h : Fr w o s) :
    Fr w o (raiseFe s a1 a2) := by
  rw [raiseFe]
  repeat' with_reducible first
    | assumption | apply fr_ite | refine fr_setF_any cR ?_ | refine fr_mergeFault c_ev c_bgLog (cR 4) ?_
    | refine fr_wakeLight c_ev c_pwr c_tmr c_bgLog (cR 1) (cR 2) (cR 4) (cR 5) ?_
    | refine fr_recordFault c_ev c_tmr c_bgLog (cR 4) (cR 5) ?_
    | refine fr_faultHold c_wire c_host c_hif c_ev c_sht c_bgLog c_pins (cR 3) (cR 4) (cR 8) ?_
    | refine fr_stopSchedule c_wire c_host c_hif c_ev c_mer c_prj c_ports c_sht c_enc c_bgLog c_pins (cR 3) (cR 4) (cR 6) (cR 7) (cR 8) (cR 9) ?_
    | refine fr_trigDisarm c_mer c_ports (cR 9) ?_
    | refine fr_endFe c_freeCtr c_hif c_ev c_clk c_pwr c_mer c_tmr c_mem c_prj c_ports c_sw c_tm c_sht c_scr c_enc c_bgLog c_bg c_select c_sec c_pins cR ?_
    | refine fr_surveyFailed c_ev c_bgLog (cR 4) ?_ | refine fr_startSurvey c_ev (cR 4) ?_ | apply fr_foldS | intro _
    | (dsimp only; split) | refine fr_mk rfl ?_

theorem fr_finishSurvey {w : Part → Bool} {o s : State} {a1 : SurveyRun} (c_freeCtr : w .freeCtr = true)
    (c_host : w .host = true) (c_hif : w .hif = true) (c_ev : w .ev = true) (c_clk : w .clk = true) (c_pwr : w .pwr = true)
    (c_mer : w .mer = true) (c_tmr : w .tmr = true) (c_mem : w .mem = true) (c_prj : w .prj = true)
    (c_ports : w .ports = true) (c_sw : w .sw = true) (c_tm : w .tm = true) (c_sht : w .sht = true) (c_scr : w .scr = true)
    (c_enc : w .enc = true) (c_bgLog : w .bgLog = true) (c_bg : w .bg = true) (c_select : w .select = true)
    (c_sec : w .sec = true) (c_pins : w .pins = true) (cR : ∀ k, w (.regs k) = true) (h : Fr w o s) :
    Fr w o (finishSurvey s a1) := by
  rw [finishSurvey]
  repeat' with_reducible first
    | assumption | apply fr_ite | refine fr_setF_any cR ?_ | refine fr_hostWrite c_host ?_
    | refine fr_writeTmr c_ev c_tmr c_bgLog (cR 4) (cR 5) ?_ | refine fr_raiseEv c_ev c_bgLog (cR 4) ?_
    | refine fr_endFe c_freeCtr c_hif c_ev c_clk c_pwr c_mer c_tmr c_mem c_prj c_ports c_sw c_tm c_sht c_scr c_enc c_bgLog c_bg c_select c_sec c_pins cR ?_
    | intro _ | (dsimp only; split) | refine fr_mk rfl ?_

theorem fr_surveyDone {w : Part → Bool} {o s : State} {a1 : Bool} (c_freeCtr : w .freeCtr = true) (c_host : w .host = true)
    (c_hif : w .hif = true) (c_ev : w .ev = true) (c_clk : w .clk = true) (c_pwr : w .pwr = true) (c_mer : w .mer = true)
    (c_tmr : w .tmr = true) (c_mem : w .mem = true) (c_prj : w .prj = true) (c_ports : w .ports = true)
    (c_sw : w .sw = true) (c_tm : w .tm = true) (c_sht : w .sht = true) (c_scr : w .scr = true) (c_enc : w .enc = true)
    (c_bgLog : w .bgLog = true) (c_bg : w .bg = true) (c_select : w .select = true) (c_sec : w .sec = true)
    (c_pins : w .pins = true) (cR : ∀ k, w (.regs k) = true) (h : Fr w o s) :
    Fr w o (surveyDone s a1) := by
  rw [surveyDone.eq_def]
  repeat' with_reducible first
    | assumption | apply fr_ite | refine fr_setF_any cR ?_
    | refine fr_finishSurvey c_freeCtr c_host c_hif c_ev c_clk c_pwr c_mer c_tmr c_mem c_prj c_ports c_sw c_tm c_sht c_scr c_enc c_bgLog c_bg c_select c_sec c_pins cR ?_
    | intro _ | (dsimp only; split) | refine fr_mk rfl ?_

theorem fr_restartHeld {w : Part → Bool} {o s : State} {a1 : Nat} (c_wire : w .wire = true) (c_host : w .host = true)
    (c_hif : w .hif = true) (c_ev : w .ev = true) (c_clk : w .clk = true) (c_pwr : w .pwr = true) (c_mer : w .mer = true)
    (c_mem : w .mem = true) (c_prj : w .prj = true) (c_ports : w .ports = true) (c_sw : w .sw = true) (c_tm : w .tm = true)
    (c_sht : w .sht = true) (c_scr : w .scr = true) (c_enc : w .enc = true) (c_bgLog : w .bgLog = true)
    (c_bg : w .bg = true) (c_select : w .select = true) (c_sec : w .sec = true) (c_pins : w .pins = true)
    (cR : ∀ k, w (.regs k) = true) (h : Fr w o s) :
    Fr w o (restartHeld s a1) := by
  rw [restartHeld]
  repeat' with_reducible first
    | assumption
    | refine fr_endUnitReset c_wire c_host c_hif c_ev c_clk c_pwr c_mer c_mem c_prj c_ports c_sw c_tm c_sht c_scr c_enc c_bgLog c_bg c_select c_sec c_pins cR ?_
    | refine fr_raiseEv c_ev c_bgLog (cR 4) ?_ | refine fr_showReactions (cR 4) ?_ | apply fr_foldS | intro _
    | refine fr_mk rfl ?_

theorem fr_clearSticky {w : Part → Bool} {o s : State} {a1 : Nat} (c_wire : w .wire = true) (c_host : w .host = true)
    (c_hif : w .hif = true) (c_ev : w .ev = true) (c_clk : w .clk = true) (c_pwr : w .pwr = true) (c_mer : w .mer = true)
    (c_mem : w .mem = true) (c_prj : w .prj = true) (c_ports : w .ports = true) (c_sw : w .sw = true) (c_tm : w .tm = true)
    (c_sht : w .sht = true) (c_scr : w .scr = true) (c_enc : w .enc = true) (c_bgLog : w .bgLog = true)
    (c_bg : w .bg = true) (c_select : w .select = true) (c_sec : w .sec = true) (c_pins : w .pins = true)
    (cR : ∀ k, w (.regs k) = true) (h : Fr w o s) :
    Fr w o (clearSticky s a1) := by
  rw [clearSticky]
  repeat' with_reducible first
    | assumption | apply fr_ite
    | refine fr_restartHeld c_wire c_host c_hif c_ev c_clk c_pwr c_mer c_mem c_prj c_ports c_sw c_tm c_sht c_scr c_enc c_bgLog c_bg c_select c_sec c_pins cR ?_
    | refine fr_setSticky (cR 4) ?_ | intro _

theorem fr_releaseAbsorbed {w : Part → Bool} {o s : State} (c_wire : w .wire = true) (c_host : w .host = true)
    (c_hif : w .hif = true) (c_ev : w .ev = true) (c_clk : w .clk = true) (c_pwr : w .pwr = true) (c_mer : w .mer = true)
    (c_mem : w .mem = true) (c_prj : w .prj = true) (c_ports : w .ports = true) (c_sw : w .sw = true) (c_tm : w .tm = true)
    (c_sht : w .sht = true) (c_scr : w .scr = true) (c_enc : w .enc = true) (c_bgLog : w .bgLog = true)
    (c_bg : w .bg = true) (c_select : w .select = true) (c_sec : w .sec = true) (c_pins : w .pins = true)
    (cR : ∀ k, w (.regs k) = true) (h : Fr w o s) :
    Fr w o (releaseAbsorbed s) := by
  rw [releaseAbsorbed]
  repeat' with_reducible first
    | assumption | apply fr_ite | refine fr_raiseEv c_ev c_bgLog (cR 4) ?_ | refine fr_dropReaction c_ev (cR 4) ?_
    | refine fr_endUnitReset c_wire c_host c_hif c_ev c_clk c_pwr c_mer c_mem c_prj c_ports c_sw c_tm c_sht c_scr c_enc c_bgLog c_bg c_select c_sec c_pins cR ?_
    | apply fr_foldS | intro _ | (dsimp only; split) | refine fr_mk rfl ?_

theorem fr_feOver {w : Part → Bool} {o s : State} (c_wire : w .wire = true) (c_host : w .host = true)
    (c_hif : w .hif = true) (c_ev : w .ev = true) (c_clk : w .clk = true) (c_pwr : w .pwr = true) (c_mer : w .mer = true)
    (c_mem : w .mem = true) (c_prj : w .prj = true) (c_ports : w .ports = true) (c_sw : w .sw = true) (c_tm : w .tm = true)
    (c_sht : w .sht = true) (c_scr : w .scr = true) (c_enc : w .enc = true) (c_bgLog : w .bgLog = true)
    (c_bg : w .bg = true) (c_select : w .select = true) (c_sec : w .sec = true) (c_pins : w .pins = true)
    (cR : ∀ k, w (.regs k) = true) (h : Fr w o s) :
    Fr w o (feOver s) := by
  rw [feOver]
  repeat' with_reducible first
    | assumption | apply fr_ite | refine fr_leaveFe c_pins (cR 4) ?_
    | refine fr_releaseAbsorbed c_wire c_host c_hif c_ev c_clk c_pwr c_mer c_mem c_prj c_ports c_sw c_tm c_sht c_scr c_enc c_bgLog c_bg c_select c_sec c_pins cR ?_
    | intro _

theorem fr_stickyWrite {w : Part → Bool} {o s : State} {a1 : Nat} {a2 : Nat} (c_wire : w .wire = true)
    (c_host : w .host = true) (c_hif : w .hif = true) (c_ev : w .ev = true) (c_clk : w .clk = true) (c_pwr : w .pwr = true)
    (c_mer : w .mer = true) (c_mem : w .mem = true) (c_prj : w .prj = true) (c_ports : w .ports = true)
    (c_sw : w .sw = true) (c_tm : w .tm = true) (c_sht : w .sht = true) (c_scr : w .scr = true) (c_enc : w .enc = true)
    (c_bgLog : w .bgLog = true) (c_bg : w .bg = true) (c_select : w .select = true) (c_sec : w .sec = true)
    (c_pins : w .pins = true) (cR : ∀ k, w (.regs k) = true) (h : Fr w o s) :
    Fr w o (stickyWrite s a1 a2) := by
  rw [stickyWrite]
  repeat' with_reducible first
    | assumption
    | refine fr_feOver c_wire c_host c_hif c_ev c_clk c_pwr c_mer c_mem c_prj c_ports c_sw c_tm c_sht c_scr c_enc c_bgLog c_bg c_select c_sec c_pins cR ?_
    | refine fr_clearSticky c_wire c_host c_hif c_ev c_clk c_pwr c_mer c_mem c_prj c_ports c_sw c_tm c_sht c_scr c_enc c_bgLog c_bg c_select c_sec c_pins cR ?_
    | apply fr_foldS | intro _

theorem fr_firstClear {w : Part → Bool} {o s : State} (c_ev : w .ev = true) (c_tmr : w .tmr = true)
    (c_bgLog : w .bgLog = true) (c_r4 : w (.regs 4) = true) (c_r5 : w (.regs 5) = true) (h : Fr w o s) :
    Fr w o (firstClear s) := by
  rw [firstClear]
  repeat' with_reducible first
    | assumption | refine fr_setF 4 (by decide) c_r4 ?_ | refine fr_writeTmr c_ev c_tmr c_bgLog c_r4 c_r5 ?_
    | refine fr_mk rfl ?_

theorem fr_fltTest {w : Part → Bool} {o s : State} {a1 : Nat} (c_freeCtr : w .freeCtr = true) (c_wire : w .wire = true)
    (c_host : w .host = true) (c_hif : w .hif = true) (c_ev : w .ev = true) (c_clk : w .clk = true) (c_pwr : w .pwr = true)
    (c_mer : w .mer = true) (c_tmr : w .tmr = true) (c_mem : w .mem = true) (c_prj : w .prj = true)
    (c_ports : w .ports = true) (c_sw : w .sw = true) (c_tm : w .tm = true) (c_sht : w .sht = true) (c_scr : w .scr = true)
    (c_enc : w .enc = true) (c_bgLog : w .bgLog = true) (c_bg : w .bg = true) (c_select : w .select = true)
    (c_sec : w .sec = true) (c_pins : w .pins = true) (cR : ∀ k, w (.regs k) = true) (h : Fr w o s) :
    Fr w o (fltTest s a1) := by
  rw [fltTest]
  repeat' with_reducible first
    | assumption | apply fr_ite | refine fr_raiseCe c_ev c_bgLog (cR 4) ?_
    | refine fr_raiseUc c_wire c_host c_hif c_ev c_pwr c_mer c_tmr c_mem c_prj c_ports c_sw c_tm c_sht c_scr c_enc c_bgLog c_bg c_select c_sec c_pins cR ?_
    | refine fr_raiseFe c_freeCtr c_wire c_host c_hif c_ev c_clk c_pwr c_mer c_tmr c_mem c_prj c_ports c_sw c_tm c_sht c_scr c_enc c_bgLog c_bg c_select c_sec c_pins cR ?_
    | intro _

theorem fr_noteError {w : Part → Bool} {o s : State} {a1 : Nat} {a2 : List Byte} (c_bgLog : w .bgLog = true)
    (c_r5 : w (.regs 5) = true) (c_r14 : w (.regs 14) = true) (h : Fr w o s) :
    Fr w o (noteError s a1 a2) := by
  rw [noteError]
  repeat' with_reducible first
    | assumption | apply fr_ite | refine fr_setF 5 (by decide) c_r5 ?_ | refine fr_setF 14 (by decide) c_r14 ?_
    | refine fr_addF 5 (by decide) c_r5 ?_ | refine fr_addF 14 (by decide) c_r14 ?_ | refine fr_addT c_bgLog ?_ | intro _

theorem fr_hardwareFault {w : Part → Bool} {o s : State} {a1 : Nat} {a2 : Nat} {a3 : List Byte}
    (c_freeCtr : w .freeCtr = true) (c_wire : w .wire = true) (c_host : w .host = true) (c_hif : w .hif = true)
    (c_ev : w .ev = true) (c_clk : w .clk = true) (c_pwr : w .pwr = true) (c_mer : w .mer = true) (c_tmr : w .tmr = true)
    (c_mem : w .mem = true) (c_prj : w .prj = true) (c_ports : w .ports = true) (c_sw : w .sw = true) (c_tm : w .tm = true)
    (c_sht : w .sht = true) (c_scr : w .scr = true) (c_enc : w .enc = true) (c_bgLog : w .bgLog = true)
    (c_bg : w .bg = true) (c_select : w .select = true) (c_sec : w .sec = true) (c_pins : w .pins = true)
    (cR : ∀ k, w (.regs k) = true) (h : Fr w o s) :
    Fr w o (hardwareFault s a1 a2 a3) := by
  rw [hardwareFault]
  repeat' with_reducible first
    | assumption | apply fr_ite | refine fr_raiseCe c_ev c_bgLog (cR 4) ?_ | refine fr_noteError c_bgLog (cR 5) (cR 14) ?_
    | refine fr_raiseUc c_wire c_host c_hif c_ev c_pwr c_mer c_tmr c_mem c_prj c_ports c_sw c_tm c_sht c_scr c_enc c_bgLog c_bg c_select c_sec c_pins cR ?_
    | refine fr_raiseFe c_freeCtr c_wire c_host c_hif c_ev c_clk c_pwr c_mer c_tmr c_mem c_prj c_ports c_sw c_tm c_sht c_scr c_enc c_bgLog c_bg c_select c_sec c_pins cR ?_
    | intro _ | split

theorem fr_runSurveyArm {w : Part → Bool} {o s : State} {a1 : Cmd} {a2 : List Byte} (c_wire : w .wire = true)
    (c_host : w .host = true) (c_hif : w .hif = true) (c_ev : w .ev = true) (c_bgLog : w .bgLog = true)
    (c_pins : w .pins = true) (c_r3 : w (.regs 3) = true) (c_r4 : w (.regs 4) = true) (h : Fr w o s) :
    Fr w o (runSurveyArm s a1 a2) := by
  rw [runSurveyArm]
  repeat' with_reducible first
    | assumption | apply fr_ite | refine fr_setF 4 (by decide) c_r4 ?_
    | refine fr_complete c_wire c_host c_hif c_ev c_bgLog c_pins c_r3 c_r4 ?_ | intro _ | (dsimp only; split)
    | refine fr_mk rfl ?_

theorem fr_runSurveyRead {w : Part → Bool} {o s : State} {a1 : Cmd} {a2 : List Byte} (c_wire : w .wire = true)
    (c_host : w .host = true) (c_hif : w .hif = true) (c_ev : w .ev = true) (c_bgLog : w .bgLog = true)
    (c_pins : w .pins = true) (c_r3 : w (.regs 3) = true) (c_r4 : w (.regs 4) = true) (h : Fr w o s) :
    Fr w o (runSurveyRead s a1 a2) := by
  rw [runSurveyRead]
  repeat' with_reducible first
    | assumption | apply fr_ite | refine fr_hostWrite c_host ?_
    | refine fr_complete c_wire c_host c_hif c_ev c_bgLog c_pins c_r3 c_r4 ?_ | intro _ | (dsimp only; split)
    | refine fr_mk rfl ?_

theorem fr_setLink {w : Part → Bool} {o s : State} {a1 : Nat} {a2 : Option (Nat × Nat)} (c_clk : w .clk = true)
    (h : Fr w o s) :
    Fr w o (setLink s a1 a2) := by
  rw [setLink]
  repeat' with_reducible first | assumption | refine fr_mk rfl ?_

theorem fr_dieLinkReturn {w : Part → Bool} {o s : State} {a1 : Nat} (c_wire : w .wire = true) (c_host : w .host = true)
    (c_hif : w .hif = true) (c_ev : w .ev = true) (c_clk : w .clk = true) (c_pwr : w .pwr = true) (c_mer : w .mer = true)
    (c_mem : w .mem = true) (c_prj : w .prj = true) (c_ports : w .ports = true) (c_sw : w .sw = true) (c_tm : w .tm = true)
    (c_sht : w .sht = true) (c_scr : w .scr = true) (c_enc : w .enc = true) (c_bgLog : w .bgLog = true)
    (c_bg : w .bg = true) (c_select : w .select = true) (c_sec : w .sec = true) (c_pins : w .pins = true)
    (cR : ∀ k, w (.regs k) = true) (h : Fr w o s) :
    Fr w o (dieLinkReturn s a1) := by
  rw [dieLinkReturn.eq_def]
  repeat' with_reducible first
    | assumption | apply fr_ite | refine fr_setLink c_clk ?_ | refine fr_causeEnds c_ev c_bgLog (cR 4) ?_
    | refine fr_finishReaction c_wire c_host c_hif c_ev c_clk c_pwr c_mer c_mem c_prj c_ports c_sw c_tm c_sht c_scr c_enc c_bgLog c_bg c_select c_sec c_pins cR ?_
    | intro _ | split | (dsimp only; split) | refine fr_mk rfl ?_

end Sys2Proof.Machine
end

