-- ==== Sys2Proof/Laws/FrameMemory.lean ====
section
/-!
SUPPORT. What the operations of Machine/Memory.lean leave as it was.
-/

set_option Elab.async false

namespace Sys2Proof.Machine

theorem fr_setTrained {w : Part → Bool} {o s : State} {a1 : Nat} {a2 : Bool} (c_r5 : w (.regs 5) = true) (h : Fr w o s) :
    Fr w o (setTrained s a1 a2) := by
  rw [setTrained]
  repeat' with_reducible first | assumption | apply fr_ite | refine fr_setB 5 (by decide) c_r5 ?_ | intro _

theorem fr_mergeTake {w : Part → Bool} {o s : State} {a1 : Nat} {a2 : Nat} (c_freeCtr : w .freeCtr = true)
    (c_ev : w .ev = true) (c_tmr : w .tmr = true) (c_mem : w .mem = true) (c_bgLog : w .bgLog = true)
    (c_r4 : w (.regs 4) = true) (c_r5 : w (.regs 5) = true) (h : Fr w o s) :
    Fr w o (mergeTake s a1 a2).2 := by
  rw [mergeTake.eq_def]
  repeat' with_reducible first
    | assumption | apply fr_ite | apply fr_ite_snd | refine fr_setMerge c_mem ?_
    | refine fr_writeEntry c_freeCtr c_ev c_tmr c_mem c_bgLog c_r4 c_r5 ?_ | refine fr_snd (by assumption) ?_
    | refine fr_fst (by assumption) ?_ | intro _ | split

theorem fr_mergePut {w : Part → Bool} {o s : State} {a1 : Nat} {a2 : MergeEntry} (c_mem : w .mem = true) (h : Fr w o s) :
    Fr w o (mergePut s a1 a2) := by
  rw [mergePut]
  repeat' with_reducible first | assumption | apply fr_ite | refine fr_setMerge c_mem ?_ | intro _

theorem fr_mergeJoin {w : Part → Bool} {o s : State} {a1 : Nat} {a2 : Nat} {a3 : List (Nat × List Byte)}
    (c_freeCtr : w .freeCtr = true) (c_ev : w .ev = true) (c_tmr : w .tmr = true) (c_mem : w .mem = true)
    (c_bgLog : w .bgLog = true) (c_r4 : w (.regs 4) = true) (c_r5 : w (.regs 5) = true) (h : Fr w o s) :
    Fr w o (mergeJoin s a1 a2 a3) := by
  rw [mergeJoin]
  repeat' with_reducible first
    | assumption | apply fr_ite | apply fr_ite_fst | apply fr_ite_snd
    | refine fr_mergeTake c_freeCtr c_ev c_tmr c_mem c_bgLog c_r4 c_r5 ?_
    | refine fr_writeEntry c_freeCtr c_ev c_tmr c_mem c_bgLog c_r4 c_r5 ?_ | refine fr_setMerge c_mem ?_
    | refine fr_mergePut c_mem ?_ | apply fr_foldl | apply fr_foldl_fst | apply fr_foldl_snd | intro _ | split
    | (dsimp only; split)

theorem fr_mergeFilled {w : Part → Bool} {o s : State} {a1 : Nat} {a2 : Nat} (c_freeCtr : w .freeCtr = true)
    (c_ev : w .ev = true) (c_tmr : w .tmr = true) (c_mem : w .mem = true) (c_bgLog : w .bgLog = true)
    (c_r4 : w (.regs 4) = true) (c_r5 : w (.regs 5) = true) (h : Fr w o s) :
    Fr w o (mergeFilled s a1 a2) := by
  rw [mergeFilled.eq_def]
  repeat' with_reducible first
    | assumption | apply fr_ite | apply fr_ite_fst | apply fr_ite_snd
    | refine fr_readHbm c_freeCtr c_ev c_tmr c_mem c_bgLog c_r4 c_r5 ?_ | refine fr_mergePut c_mem ?_ | intro _ | split
    | (dsimp only; split)

theorem fr_mergeTimeout {w : Part → Bool} {o s : State} {a1 : Nat} (c_freeCtr : w .freeCtr = true) (c_ev : w .ev = true)
    (c_tmr : w .tmr = true) (c_mem : w .mem = true) (c_bgLog : w .bgLog = true) (c_r4 : w (.regs 4) = true)
    (c_r5 : w (.regs 5) = true) (h : Fr w o s) :
    Fr w o (mergeTimeout s a1) := by
  rw [mergeTimeout.eq_def]
  repeat' with_reducible first
    | assumption | apply fr_ite | refine fr_writeEntry c_freeCtr c_ev c_tmr c_mem c_bgLog c_r4 c_r5 ?_
    | refine fr_setMerge c_mem ?_ | intro _ | split

theorem fr_readWord {w : Part → Bool} {o s : State} {a1 : Nat} (c_freeCtr : w .freeCtr = true) (c_ev : w .ev = true)
    (c_tmr : w .tmr = true) (c_mem : w .mem = true) (c_bgLog : w .bgLog = true) (c_r4 : w (.regs 4) = true)
    (c_r5 : w (.regs 5) = true) (h : Fr w o s) :
    Fr w o (readWord s a1).2.2 := by
  rw [readWord]
  repeat' with_reducible first
    | assumption | apply fr_ite | refine fr_mergeFilled c_freeCtr c_ev c_tmr c_mem c_bgLog c_r4 c_r5 ?_
    | refine fr_readHbm c_freeCtr c_ev c_tmr c_mem c_bgLog c_r4 c_r5 ?_ | refine fr_snd (by assumption) ?_
    | refine fr_fst (by assumption) ?_ | intro _ | split | (dsimp only; split)

theorem fr_writeWhole {w : Part → Bool} {o s : State} {a1 : Nat} {a2 : List Byte} (c_freeCtr : w .freeCtr = true)
    (c_ev : w .ev = true) (c_tmr : w .tmr = true) (c_mem : w .mem = true) (c_bgLog : w .bgLog = true)
    (c_r4 : w (.regs 4) = true) (c_r5 : w (.regs 5) = true) (h : Fr w o s) :
    Fr w o (writeWhole s a1 a2) := by
  rw [writeWhole]
  repeat' with_reducible first
    | assumption | apply fr_ite | refine fr_mergeJoin c_freeCtr c_ev c_tmr c_mem c_bgLog c_r4 c_r5 ?_
    | refine fr_writeHbm c_ev c_mem c_bgLog c_r4 c_r5 ?_ | refine fr_setMerge c_mem ?_ | intro _ | split
    | (dsimp only; split)

theorem fr_writeBytes {w : Part → Bool} {o s : State} {a1 : Nat} {a2 : Nat} {a3 : List Byte} (c_freeCtr : w .freeCtr = true)
    (c_ev : w .ev = true) (c_tmr : w .tmr = true) (c_mem : w .mem = true) (c_bgLog : w .bgLog = true)
    (c_r4 : w (.regs 4) = true) (c_r5 : w (.regs 5) = true) (h : Fr w o s) :
    Fr w o (writeBytes s a1 a2 a3) := by
  induction a2 generalizing s a1 a3 with
  | zero => exact h
  | succ k ih =>
    rw [writeBytes]
    repeat' with_reducible first
      | assumption | apply fr_ite | apply ih | refine fr_writeWhole c_freeCtr c_ev c_tmr c_mem c_bgLog c_r4 c_r5 ?_
      | refine fr_mergeJoin c_freeCtr c_ev c_tmr c_mem c_bgLog c_r4 c_r5 ?_ | intro _ | split | (dsimp only; split)

theorem fr_readBytes {w : Part → Bool} {o s : State} {a1 a2 a3 : Nat} (c_freeCtr : w .freeCtr = true) (c_ev : w .ev = true) (c_tmr : w .tmr = true) (c_mem : w .mem = true) (c_bgLog : w .bgLog = true) (c_r4 : w (.regs 4) = true) (c_r5 : w (.regs 5) = true) (h : Fr w o s) :
    Fr w o (readBytes s a1 a2 a3).2.2 := by
  induction a2 generalizing s a1 a3 with
  | zero => exact h
  | succ k ih =>
    rw [readBytes]
    split
    · exact h
    · exact ih (fr_readWord c_freeCtr c_ev c_tmr c_mem c_bgLog c_r4 c_r5 h)

theorem fr_windowAccess {w : Part → Bool} {o s : State} {a1 a2 : Nat} {a3 : Option Nat} (c_freeCtr : w .freeCtr = true) (c_wire : w .wire = true) (c_ev : w .ev = true) (c_tmr : w .tmr = true) (c_mem : w .mem = true) (c_bgLog : w .bgLog = true) (c_r4 : w (.regs 4) = true) (c_r5 : w (.regs 5) = true)
    (h : Fr w o s) : Fr w o (windowAccess s a1 a2 a3) := by
  rw [windowAccess.eq_def]
  dsimp only
  split
  · split
    · exact h
    · exact fr_emit c_wire h
  · cases a3 with
    | none => exact fr_emit c_wire (fr_readBytes c_freeCtr c_ev c_tmr c_mem c_bgLog c_r4 c_r5 h)
    | some v => exact fr_writeBytes c_freeCtr c_ev c_tmr c_mem c_bgLog c_r4 c_r5 h

theorem fr_showRetrain {w : Part → Bool} {o s : State} {a1 : Nat} (c_r5 : w (.regs 5) = true) (h : Fr w o s) :
    Fr w o (showRetrain s a1) := by
  rw [showRetrain]
  repeat' with_reducible first
    | assumption | apply fr_ite | refine fr_setF 5 (by decide) c_r5 ?_ | refine fr_setB 5 (by decide) c_r5 ?_ | intro _

theorem fr_setRetrain {w : Part → Bool} {o s : State} {a1 : Nat} {a2 : Retrain} (c_mem : w .mem = true)
    (c_r5 : w (.regs 5) = true) (h : Fr w o s) :
    Fr w o (setRetrain s a1 a2) := by
  rw [setRetrain]
  repeat' with_reducible first | assumption | refine fr_showRetrain c_r5 ?_ | refine fr_mk rfl ?_

theorem fr_checkRetrain {w : Part → Bool} {o s : State} {a1 : Nat} (c_ev : w .ev = true) (c_mem : w .mem = true)
    (c_bgLog : w .bgLog = true) (c_r4 : w (.regs 4) = true) (c_r5 : w (.regs 5) = true) (h : Fr w o s) :
    Fr w o (checkRetrain s a1) := by
  rw [checkRetrain.eq_def]
  repeat' with_reducible first
    | assumption | apply fr_ite | refine fr_raiseEv c_ev c_bgLog c_r4 ?_ | refine fr_setRetrain c_mem c_r5 ?_ | intro _
    | split

theorem fr_recentre {w : Part → Bool} {o s : State} {a1 : Nat} {a2 : Nat} {a3 : List (Nat × Nat × Nat)}
    (c_r5 : w (.regs 5) = true) (h : Fr w o s) :
    Fr w o (recentre s a1 a2 a3) := by
  rw [recentre]
  repeat' with_reducible first
    | assumption | refine fr_setF 5 (by decide) c_r5 ?_ | refine fr_setB 5 (by decide) c_r5 ?_ | apply fr_foldS | intro _
    | split

theorem fr_setTrainTemp {w : Part → Bool} {o s : State} {a1 : Nat} {a2 : Int} (c_r5 : w (.regs 5) = true) (h : Fr w o s) :
    Fr w o (setTrainTemp s a1 a2) := by
  rw [setTrainTemp]
  repeat' with_reducible first | assumption | apply fr_ite | refine fr_setS 5 (by decide) c_r5 ?_ | intro _

theorem fr_retrainHold {w : Part → Bool} {o s : State} {a1 : Nat} {a2 : List (Nat × Nat)} {a3 : List (Nat × Nat × Nat)}
    (c_ev : w .ev = true) (c_mem : w .mem = true) (c_bgLog : w .bgLog = true) (c_r4 : w (.regs 4) = true)
    (c_r5 : w (.regs 5) = true) (h : Fr w o s) :
    Fr w o (retrainHold s a1 a2 a3) := by
  rw [retrainHold]
  repeat' with_reducible first
    | assumption | apply fr_ite | apply fr_ite_fst | apply fr_ite_snd
    | refine fr_checkRetrain c_ev c_mem c_bgLog c_r4 c_r5 ?_ | refine fr_recentre c_r5 ?_
    | refine fr_setRetrain c_mem c_r5 ?_ | refine fr_setTrainTemp c_r5 ?_ | refine fr_raiseEv c_ev c_bgLog c_r4 ?_ | intro _

theorem fr_retrainDeferred {w : Part → Bool} {o s : State} {a1 : Nat} (c_ev : w .ev = true) (c_mem : w .mem = true)
    (c_bgLog : w .bgLog = true) (c_r4 : w (.regs 4) = true) (c_r5 : w (.regs 5) = true) (h : Fr w o s) :
    Fr w o (retrainDeferred s a1) := by
  rw [retrainDeferred]
  repeat' with_reducible first
    | assumption | apply fr_ite | refine fr_addF 5 (by decide) c_r5 ?_ | refine fr_raiseEv c_ev c_bgLog c_r4 ?_
    | refine fr_setRetrain c_mem c_r5 ?_ | intro _

theorem fr_voteWord {w : Part → Bool} {o s : State} {a1 : Nat} (c_freeCtr : w .freeCtr = true) (c_wire : w .wire = true)
    (c_host : w .host = true) (c_hif : w .hif = true) (c_ev : w .ev = true) (c_clk : w .clk = true) (c_pwr : w .pwr = true)
    (c_mer : w .mer = true) (c_tmr : w .tmr = true) (c_mem : w .mem = true) (c_prj : w .prj = true)
    (c_ports : w .ports = true) (c_sw : w .sw = true) (c_tm : w .tm = true) (c_sht : w .sht = true) (c_scr : w .scr = true)
    (c_enc : w .enc = true) (c_bgLog : w .bgLog = true) (c_bg : w .bg = true) (c_select : w .select = true)
    (c_sec : w .sec = true) (c_pins : w .pins = true) (cR : ∀ k, w (.regs k) = true) (h : Fr w o s) :
    Fr w o (voteWord s a1) := by
  rw [voteWord]
  repeat' with_reducible first
    | assumption | apply fr_ite | refine fr_setF_any cR ?_ | refine fr_addF_any cR ?_
    | refine fr_raiseFe c_freeCtr c_wire c_host c_hif c_ev c_clk c_pwr c_mer c_tmr c_mem c_prj c_ports c_sw c_tm c_sht c_scr c_enc c_bgLog c_bg c_select c_sec c_pins cR ?_
    | refine fr_writeTmr c_ev c_tmr c_bgLog (cR 4) (cR 5) ?_ | refine fr_raiseCe c_ev c_bgLog (cR 4) ?_
    | refine fr_addT c_bgLog ?_ | intro _

theorem fr_tmrSweep {w : Part → Bool} {o s : State} (c_freeCtr : w .freeCtr = true) (c_wire : w .wire = true)
    (c_host : w .host = true) (c_hif : w .hif = true) (c_ev : w .ev = true) (c_clk : w .clk = true) (c_pwr : w .pwr = true)
    (c_mer : w .mer = true) (c_tmr : w .tmr = true) (c_mem : w .mem = true) (c_prj : w .prj = true)
    (c_ports : w .ports = true) (c_sw : w .sw = true) (c_tm : w .tm = true) (c_sht : w .sht = true) (c_scr : w .scr = true)
    (c_enc : w .enc = true) (c_bgLog : w .bgLog = true) (c_bg : w .bg = true) (c_select : w .select = true)
    (c_sec : w .sec = true) (c_pins : w .pins = true) (cR : ∀ k, w (.regs k) = true) (h : Fr w o s) :
    Fr w o (tmrSweep s) := by
  rw [tmrSweep]
  repeat' with_reducible first
    | assumption | apply fr_ite
    | refine fr_voteWord c_freeCtr c_wire c_host c_hif c_ev c_clk c_pwr c_mer c_tmr c_mem c_prj c_ports c_sw c_tm c_sht c_scr c_enc c_bgLog c_bg c_select c_sec c_pins cR ?_
    | refine fr_causeEnds c_ev c_bgLog (cR 4) ?_ | apply fr_foldS | intro _

theorem fr_endHbmPass {w : Part → Bool} {o s : State} {a1 : Nat} (c_ev : w .ev = true) (c_mem : w .mem = true)
    (c_bgLog : w .bgLog = true) (c_r4 : w (.regs 4) = true) (c_r5 : w (.regs 5) = true) (h : Fr w o s) :
    Fr w o (endHbmPass s a1) := by
  rw [endHbmPass]
  repeat' with_reducible first
    | assumption | apply fr_ite | refine fr_addF 5 (by decide) c_r5 ?_ | refine fr_raiseEv c_ev c_bgLog c_r4 ?_ | intro _
    | (dsimp only; split) | refine fr_mk rfl ?_

theorem fr_hbmScrub {w : Part → Bool} {o s : State} {a1 : Nat} (c_freeCtr : w .freeCtr = true) (c_ev : w .ev = true)
    (c_tmr : w .tmr = true) (c_mem : w .mem = true) (c_bgLog : w .bgLog = true) (c_r4 : w (.regs 4) = true)
    (c_r5 : w (.regs 5) = true) (h : Fr w o s) :
    Fr w o (hbmScrub s a1) := by
  rw [hbmScrub]
  repeat' with_reducible first
    | assumption | apply fr_ite | apply fr_ite_fst | apply fr_ite_snd
    | refine fr_readHbm c_freeCtr c_ev c_tmr c_mem c_bgLog c_r4 c_r5 ?_ | refine fr_writeHbm c_ev c_mem c_bgLog c_r4 c_r5 ?_
    | refine fr_endHbmPass c_ev c_mem c_bgLog c_r4 c_r5 ?_ | intro _ | (dsimp only; split) | refine fr_mk rfl ?_

theorem fr_setSram {w : Part → Bool} {o s : State} {a1 : Nat} {a2 : Nat} {a3 : SramWord} (c_mem : w .mem = true)
    (h : Fr w o s) :
    Fr w o (setSram s a1 a2 a3) := by
  rw [setSram]
  repeat' with_reducible first | assumption | refine fr_mk rfl ?_

theorem fr_sramFlip {w : Part → Bool} {o s : State} {a1 : Nat} {a2 : Nat} (c_ev : w .ev = true) (c_mem : w .mem = true)
    (c_bgLog : w .bgLog = true) (c_r4 : w (.regs 4) = true) (c_r5 : w (.regs 5) = true) (h : Fr w o s) :
    Fr w o (sramFlip s a1 a2) := by
  rw [sramFlip]
  repeat' with_reducible first
    | assumption | apply fr_ite | refine fr_flipDone c_ev c_bgLog c_r4 c_r5 ?_ | refine fr_setSram c_mem ?_ | intro _

theorem fr_sramScrub {w : Part → Bool} {o s : State} {a1 : Nat} {a2 : Nat} {a3 : Nat} (c_freeCtr : w .freeCtr = true)
    (c_wire : w .wire = true) (c_host : w .host = true) (c_hif : w .hif = true) (c_ev : w .ev = true)
    (c_pwr : w .pwr = true) (c_mer : w .mer = true) (c_tmr : w .tmr = true) (c_mem : w .mem = true) (c_prj : w .prj = true)
    (c_ports : w .ports = true) (c_sw : w .sw = true) (c_tm : w .tm = true) (c_sht : w .sht = true) (c_scr : w .scr = true)
    (c_enc : w .enc = true) (c_bgLog : w .bgLog = true) (c_bg : w .bg = true) (c_select : w .select = true)
    (c_sec : w .sec = true) (c_pins : w .pins = true) (cR : ∀ k, w (.regs k) = true) (h : Fr w o s) :
    Fr w o (sramScrub s a1 a2 a3) := by
  rw [sramScrub]
  repeat' with_reducible first
    | assumption | apply fr_ite | apply fr_ite_fst | apply fr_ite_snd
    | refine fr_sramFlip c_ev c_mem c_bgLog (cR 4) (cR 5) ?_ | refine fr_secded c_freeCtr ?_
    | refine fr_noteError c_bgLog (cR 5) (cR 14) ?_ | refine fr_setSram c_mem ?_
    | refine fr_ceOnce c_ev c_mem c_bgLog (cR 4) ?_
    | refine fr_raiseUc c_wire c_host c_hif c_ev c_pwr c_mer c_tmr c_mem c_prj c_ports c_sw c_tm c_sht c_scr c_enc c_bgLog c_bg c_select c_sec c_pins cR ?_
    | intro _ | (dsimp only; split) | refine fr_mk rfl ?_

theorem fr_flipCtrlWrite {w : Part → Bool} {o s : State} {a1 : Nat} (c_r5 : w (.regs 5) = true) (h : Fr w o s) :
    Fr w o (flipCtrlWrite s a1) := by
  rw [flipCtrlWrite]
  repeat' with_reducible first | assumption | refine fr_setF 5 (by decide) c_r5 ?_

theorem fr_replaceContents {w : Part → Bool} {o s : State} {a1 : Nat} {a2 : SMap Bool} (c_mem : w .mem = true)
    (h : Fr w o s) :
    Fr w o (replaceContents s a1 a2) := by
  rw [replaceContents]
  repeat' with_reducible first | assumption | intro _ | refine fr_mk rfl ?_

theorem fr_fullTraining {w : Part → Bool} {o s : State} {a1 : Nat} {a2 : List (Nat × Nat × Nat × Bool)}
    (c_mem : w .mem = true) (c_r5 : w (.regs 5) = true) (h : Fr w o s) :
    Fr w o (fullTraining s a1 a2) := by
  rw [fullTraining]
  repeat' with_reducible first
    | assumption | refine fr_setF 5 (by decide) c_r5 ?_ | refine fr_setB 5 (by decide) c_r5 ?_
    | refine fr_replaceContents c_mem ?_ | apply fr_foldS | apply fr_foldl | apply fr_foldl_fst | apply fr_foldl_snd
    | intro _

theorem fr_losePool {w : Part → Bool} {o s : State} (c_prj : w .prj = true) (c_bg : w .bg = true) (h : Fr w o s) :
    Fr w o (losePool s) := by
  rw [losePool]
  repeat' with_reducible first | assumption | refine fr_mk rfl ?_

theorem fr_stackTrained {w : Part → Bool} {o s : State} {a1 : Nat} {a2 : Bool} {a3 : Bool}
    {a4 : List (Nat × Nat × Nat × Bool)} {a5 : Int} (c_mem : w .mem = true) (c_prj : w .prj = true) (c_bg : w .bg = true)
    (c_r5 : w (.regs 5) = true) (h : Fr w o s) :
    Fr w o (stackTrained s a1 a2 a3 a4 a5) := by
  rw [stackTrained]
  repeat' with_reducible first
    | assumption | apply fr_ite | refine fr_fullTraining c_mem c_r5 ?_ | refine fr_losePool c_prj c_bg ?_
    | refine fr_setTrained c_r5 ?_ | refine fr_setTrainTemp c_r5 ?_ | refine fr_setRetrain c_mem c_r5 ?_ | intro _

theorem fr_placeOrders {w : Part → Bool} {o s : State} {a1 : Bool} {a2 : Bool} (c_r5 : w (.regs 5) = true) (h : Fr w o s) :
    Fr w o (placeOrders s a1 a2) := by
  rw [placeOrders]
  repeat' with_reducible first
    | assumption | apply fr_ite | refine fr_setF 5 (by decide) c_r5 ?_ | refine fr_setB 5 (by decide) c_r5 ?_ | intro _

theorem fr_trainingDone {w : Part → Bool} {o s : State} {a1 : Bool × Bool} {a2 : Bool × Bool}
    {a3 : List (Nat × Nat × Nat × Bool)} {a4 : Int × Int} (c_freeCtr : w .freeCtr = true) (c_wire : w .wire = true)
    (c_host : w .host = true) (c_hif : w .hif = true) (c_ev : w .ev = true) (c_clk : w .clk = true) (c_pwr : w .pwr = true)
    (c_mer : w .mer = true) (c_tmr : w .tmr = true) (c_mem : w .mem = true) (c_prj : w .prj = true)
    (c_ports : w .ports = true) (c_sw : w .sw = true) (c_tm : w .tm = true) (c_sht : w .sht = true) (c_scr : w .scr = true)
    (c_enc : w .enc = true) (c_bgLog : w .bgLog = true) (c_bg : w .bg = true) (c_select : w .select = true)
    (c_sec : w .sec = true) (c_pins : w .pins = true) (cR : ∀ k, w (.regs k) = true) (h : Fr w o s) :
    Fr w o (trainingDone s a1 a2 a3 a4) := by
  rw [trainingDone]
  repeat' with_reducible first
    | assumption | apply fr_ite | apply fr_ite_fst | apply fr_ite_snd | refine fr_setF_any cR ?_ | refine fr_setB_any cR ?_
    | refine fr_placeOrders (cR 5) ?_ | refine fr_stackTrained c_mem c_prj c_bg (cR 5) ?_
    | refine fr_setSelfRefresh c_mem ?_ | refine fr_causeEnds c_ev c_bgLog (cR 4) ?_
    | refine fr_raiseFe c_freeCtr c_wire c_host c_hif c_ev c_clk c_pwr c_mer c_tmr c_mem c_prj c_ports c_sw c_tm c_sht c_scr c_enc c_bgLog c_bg c_select c_sec c_pins cR ?_
    | intro _ | (dsimp only; split) | refine fr_mk rfl ?_

end Sys2Proof.Machine
end

