-- ==== Sys2Proof/Laws/FrameClocks.lean ====
section
/-!
SUPPORT. What the operations of Machine/Clocks.lean leave as it was.
-/

set_option Elab.async false

namespace Sys2Proof.Machine

theorem fr_setLocked {w : Part → Bool} {o s : State} {a1 : Nat} {a2 : Bool} (c_r1 : w (.regs 1) = true) (h : Fr w o s) :
    Fr w o (setLocked s a1 a2) := by
  rw [setLocked]
  repeat' with_reducible first
    | assumption | refine fr_setF 1 (by decide) c_r1 ?_ | refine fr_setB 1 (by decide) c_r1 ?_

theorem fr_setRelock {w : Part → Bool} {o s : State} {a1 : Nat} {a2 : Option Nat} (c_clk : w .clk = true) (h : Fr w o s) :
    Fr w o (setRelock s a1 a2) := by
  rw [setRelock]
  repeat' with_reducible first | assumption | refine fr_mk rfl ?_

theorem fr_setStage {w : Part → Bool} {o s : State} {a1 : ClkStage} (c_clk : w .clk = true) (h : Fr w o s) :
    Fr w o (setStage s a1) := by
  rw [setStage]
  repeat' with_reducible first | assumption | refine fr_mk rfl ?_

theorem fr_beginPlls {w : Part → Bool} {o s : State} (c_clk : w .clk = true) (h : Fr w o s) :
    Fr w o (beginPlls s) := by
  rw [beginPlls]
  repeat' with_reducible first
    | assumption | refine fr_setRelock c_clk ?_ | refine fr_setStage c_clk ?_
    | refine fr_pllLock c_wire c_host c_hif c_ev c_clk c_pwr c_mer c_mem c_prj c_ports c_sw c_tm c_sht c_scr c_enc c_bgLog c_bg c_select c_sec c_pins cR ?_
    | apply fr_foldS | intro _

theorem fr_clockHold {w : Part → Bool} {o s : State} (c_ev : w .ev = true) (c_clk : w .clk = true) (c_tmr : w .tmr = true)
    (c_bgLog : w .bgLog = true) (c_pins : w .pins = true) (c_r1 : w (.regs 1) = true) (c_r4 : w (.regs 4) = true)
    (c_r5 : w (.regs 5) = true) (h : Fr w o s) :
    Fr w o (clockHold s) := by
  rw [clockHold]
  repeat' with_reducible first
    | assumption | apply fr_ite | refine fr_setF 1 (by decide) c_r1 ?_ | refine fr_setF 4 (by decide) c_r4 ?_
    | refine fr_mergeFault c_ev c_bgLog c_r4 ?_ | refine fr_recordFault c_ev c_tmr c_bgLog c_r4 c_r5 ?_
    | refine fr_setStage c_clk ?_ | intro _ | (dsimp only; split) | refine fr_mk rfl ?_

theorem fr_troJudgment {w : Part → Bool} {o s : State} {a1 : Nat} (c_ev : w .ev = true) (c_clk : w .clk = true)
    (c_tmr : w .tmr = true) (c_bgLog : w .bgLog = true) (c_pins : w .pins = true) (c_r1 : w (.regs 1) = true)
    (c_r4 : w (.regs 4) = true) (c_r5 : w (.regs 5) = true) (h : Fr w o s) :
    Fr w o (troJudgment s a1) := by
  rw [troJudgment]
  repeat' with_reducible first
    | assumption | apply fr_ite | refine fr_setF 1 (by decide) c_r1 ?_ | refine fr_addF 1 (by decide) c_r1 ?_
    | refine fr_setStage c_clk ?_ | refine fr_clockHold c_ev c_clk c_tmr c_bgLog c_pins c_r1 c_r4 c_r5 ?_ | intro _
    | (dsimp only; split) | refine fr_mk rfl ?_

theorem fr_enterCoast {w : Part → Bool} {o s : State} (c_ev : w .ev = true) (c_bgLog : w .bgLog = true)
    (c_r1 : w (.regs 1) = true) (c_r4 : w (.regs 4) = true) (h : Fr w o s) :
    Fr w o (enterCoast s) := by
  rw [enterCoast]
  repeat' with_reducible first
    | assumption | refine fr_setF 1 (by decide) c_r1 ?_ | refine fr_raiseEv c_ev c_bgLog c_r4 ?_

theorem fr_xoGood {w : Part → Bool} {o s : State} (c_ev : w .ev = true) (c_bgLog : w .bgLog = true)
    (c_r1 : w (.regs 1) = true) (c_r4 : w (.regs 4) = true) (h : Fr w o s) :
    Fr w o (xoGood s) := by
  rw [xoGood]
  repeat' with_reducible first
    | assumption | refine fr_setF 1 (by decide) c_r1 ?_ | refine fr_causeEnds c_ev c_bgLog c_r4 ?_

theorem fr_judgeXo {w : Part → Bool} {o s : State} {a1 : Nat} (c_ev : w .ev = true) (c_bgLog : w .bgLog = true)
    (c_r1 : w (.regs 1) = true) (c_r4 : w (.regs 4) = true) (h : Fr w o s) :
    Fr w o (judgeXo s a1) := by
  rw [judgeXo]
  repeat' with_reducible first
    | assumption | apply fr_ite | refine fr_setF 1 (by decide) c_r1 ?_ | refine fr_xoGood c_ev c_bgLog c_r1 c_r4 ?_
    | refine fr_enterCoast c_ev c_bgLog c_r1 c_r4 ?_ | intro _

theorem fr_xoTimeout {w : Part → Bool} {o s : State} (c_freeCtr : w .freeCtr = true) (c_ev : w .ev = true)
    (c_clk : w .clk = true) (c_bgLog : w .bgLog = true) (c_r1 : w (.regs 1) = true) (c_r4 : w (.regs 4) = true)
    (h : Fr w o s) :
    Fr w o (xoTimeout s) := by
  rw [xoTimeout]
  repeat' with_reducible first
    | assumption | refine fr_setF 1 (by decide) c_r1 ?_ | refine fr_freshIndex c_freeCtr ?_ | refine fr_beginPlls c_clk ?_
    | refine fr_enterCoast c_ev c_bgLog c_r1 c_r4 ?_

theorem fr_pllLock {w : Part → Bool} {o s : State} {a1 : Nat} (c_wire : w .wire = true) (c_host : w .host = true)
    (c_hif : w .hif = true) (c_ev : w .ev = true) (c_clk : w .clk = true) (c_pwr : w .pwr = true) (c_mer : w .mer = true)
    (c_mem : w .mem = true) (c_prj : w .prj = true) (c_ports : w .ports = true) (c_sw : w .sw = true) (c_tm : w .tm = true)
    (c_sht : w .sht = true) (c_scr : w .scr = true) (c_enc : w .enc = true) (c_bgLog : w .bgLog = true)
    (c_bg : w .bg = true) (c_select : w .select = true) (c_sec : w .sec = true) (c_pins : w .pins = true)
    (cR : ∀ k, w (.regs k) = true) (h : Fr w o s) :
    Fr w o (pllLock s a1) := by
  rw [pllLock]
  repeat' with_reducible first
    | assumption | apply fr_ite | refine fr_setF_any cR ?_ | refine fr_causeEnds c_ev c_bgLog (cR 4) ?_
    | refine fr_setRelock c_clk ?_ | refine fr_setLocked (cR 1) ?_
    | refine fr_afterClocks c_ev c_clk c_mer c_bgLog (cR 1) (cR 4) ?_ | refine fr_setStage c_clk ?_
    | refine fr_finishReaction c_wire c_host c_hif c_ev c_clk c_pwr c_mer c_mem c_prj c_ports c_sw c_tm c_sht c_scr c_enc c_bgLog c_bg c_select c_sec c_pins cR ?_
    | intro _ | split

theorem fr_pllLimit {w : Part → Bool} {o s : State} {a1 : Nat} (c_ev : w .ev = true) (c_clk : w .clk = true)
    (c_bgLog : w .bgLog = true) (c_r4 : w (.regs 4) = true) (h : Fr w o s) :
    Fr w o (pllLimit s a1) := by
  rw [pllLimit.eq_def]
  repeat' with_reducible first
    | assumption | apply fr_ite | refine fr_holdUnit c_ev c_bgLog c_r4 ?_ | refine fr_setRelock c_clk ?_ | intro _
    | (dsimp only; split) | refine fr_mk rfl ?_

theorem fr_raiseUnlock {w : Part → Bool} {o s : State} {a1 : Nat} (c_freeCtr : w .freeCtr = true) (c_wire : w .wire = true)
    (c_host : w .host = true) (c_hif : w .hif = true) (c_ev : w .ev = true) (c_clk : w .clk = true) (c_pwr : w .pwr = true)
    (c_mer : w .mer = true) (c_tmr : w .tmr = true) (c_mem : w .mem = true) (c_prj : w .prj = true)
    (c_ports : w .ports = true) (c_sw : w .sw = true) (c_tm : w .tm = true) (c_sht : w .sht = true) (c_scr : w .scr = true)
    (c_enc : w .enc = true) (c_bgLog : w .bgLog = true) (c_bg : w .bg = true) (c_select : w .select = true)
    (c_sec : w .sec = true) (c_pins : w .pins = true) (cR : ∀ k, w (.regs k) = true) (h : Fr w o s) :
    Fr w o (raiseUnlock s a1) := by
  rw [raiseUnlock]
  repeat' with_reducible first
    | assumption | apply fr_ite | refine fr_pllLimit c_ev c_clk c_bgLog (cR 4) ?_
    | refine fr_raiseUc c_wire c_host c_hif c_ev c_pwr c_mer c_tmr c_mem c_prj c_ports c_sw c_tm c_sht c_scr c_enc c_bgLog c_bg c_select c_sec c_pins cR ?_
    | refine fr_raiseFe c_freeCtr c_wire c_host c_hif c_ev c_clk c_pwr c_mer c_tmr c_mem c_prj c_ports c_sw c_tm c_sht c_scr c_enc c_bgLog c_bg c_select c_sec c_pins cR ?_
    | intro _

theorem fr_pllUnlock {w : Part → Bool} {o s : State} {a1 : Nat} (c_freeCtr : w .freeCtr = true) (c_wire : w .wire = true)
    (c_host : w .host = true) (c_hif : w .hif = true) (c_ev : w .ev = true) (c_clk : w .clk = true) (c_pwr : w .pwr = true)
    (c_mer : w .mer = true) (c_tmr : w .tmr = true) (c_mem : w .mem = true) (c_prj : w .prj = true)
    (c_ports : w .ports = true) (c_sw : w .sw = true) (c_tm : w .tm = true) (c_sht : w .sht = true) (c_scr : w .scr = true)
    (c_enc : w .enc = true) (c_bgLog : w .bgLog = true) (c_bg : w .bg = true) (c_select : w .select = true)
    (c_sec : w .sec = true) (c_pins : w .pins = true) (cR : ∀ k, w (.regs k) = true) (h : Fr w o s) :
    Fr w o (pllUnlock s a1) := by
  rw [pllUnlock]
  repeat' with_reducible first
    | assumption | refine fr_addF_any cR ?_
    | refine fr_raiseUnlock c_freeCtr c_wire c_host c_hif c_ev c_clk c_pwr c_mer c_tmr c_mem c_prj c_ports c_sw c_tm c_sht c_scr c_enc c_bgLog c_bg c_select c_sec c_pins cR ?_
    | refine fr_setRelock c_clk ?_ | refine fr_setLocked (cR 1) ?_

theorem fr_pllTimeout {w : Part → Bool} {o s : State} {a1 : Nat} (c_freeCtr : w .freeCtr = true) (c_wire : w .wire = true)
    (c_host : w .host = true) (c_hif : w .hif = true) (c_ev : w .ev = true) (c_clk : w .clk = true) (c_pwr : w .pwr = true)
    (c_mer : w .mer = true) (c_tmr : w .tmr = true) (c_mem : w .mem = true) (c_prj : w .prj = true)
    (c_ports : w .ports = true) (c_sw : w .sw = true) (c_tm : w .tm = true) (c_sht : w .sht = true) (c_scr : w .scr = true)
    (c_enc : w .enc = true) (c_bgLog : w .bgLog = true) (c_bg : w .bg = true) (c_select : w .select = true)
    (c_sec : w .sec = true) (c_pins : w .pins = true) (cR : ∀ k, w (.regs k) = true) (h : Fr w o s) :
    Fr w o (pllTimeout s a1) := by
  rw [pllTimeout]
  repeat' with_reducible first
    | assumption | apply fr_ite | refine fr_setF_any cR ?_
    | refine fr_pllLock c_wire c_host c_hif c_ev c_clk c_pwr c_mer c_mem c_prj c_ports c_sw c_tm c_sht c_scr c_enc c_bgLog c_bg c_select c_sec c_pins cR ?_
    | refine fr_setRelock c_clk ?_
    | refine fr_raiseUnlock c_freeCtr c_wire c_host c_hif c_ev c_clk c_pwr c_mer c_tmr c_mem c_prj c_ports c_sw c_tm c_sht c_scr c_enc c_bgLog c_bg c_select c_sec c_pins cR ?_
    | refine fr_pllLimit c_ev c_clk c_bgLog (cR 4) ?_ | refine fr_countStart c_ev ?_ | intro _ | split | (dsimp only; split)
    | refine fr_mk rfl ?_

theorem fr_pllFreqWrite {w : Part → Bool} {o s : State} {a1 : Nat} {a2 : Nat} (c_clk : w .clk = true)
    (c_r1 : w (.regs 1) = true) (h : Fr w o s) :
    Fr w o (pllFreqWrite s a1 a2) := by
  rw [pllFreqWrite]
  repeat' with_reducible first
    | assumption | apply fr_ite | refine fr_setF 1 (by decide) c_r1 ?_ | refine fr_setRelock c_clk ?_
    | refine fr_setLocked c_r1 ?_ | intro _

theorem fr_coastPll {w : Part → Bool} {o s : State} {a1 : Nat} (c_ev : w .ev = true) (c_bgLog : w .bgLog = true)
    (c_r1 : w (.regs 1) = true) (c_r4 : w (.regs 4) = true) (h : Fr w o s) :
    Fr w o (coastPll s a1) := by
  rw [coastPll]
  repeat' with_reducible first
    | assumption | apply fr_ite | refine fr_addF 1 (by decide) c_r1 ?_ | refine fr_mergeFault c_ev c_bgLog c_r4 ?_
    | refine fr_setLocked c_r1 ?_ | intro _

theorem fr_clockLoss {w : Part → Bool} {o s : State} (c_freeCtr : w .freeCtr = true) (c_hif : w .hif = true)
    (c_ev : w .ev = true) (c_clk : w .clk = true) (c_pwr : w .pwr = true) (c_mer : w .mer = true) (c_tmr : w .tmr = true)
    (c_mem : w .mem = true) (c_prj : w .prj = true) (c_ports : w .ports = true) (c_sw : w .sw = true) (c_tm : w .tm = true)
    (c_sht : w .sht = true) (c_scr : w .scr = true) (c_enc : w .enc = true) (c_bgLog : w .bgLog = true)
    (c_bg : w .bg = true) (c_select : w .select = true) (c_sec : w .sec = true) (c_pins : w .pins = true)
    (cR : ∀ k, w (.regs k) = true) (h : Fr w o s) :
    Fr w o (clockLoss s) := by
  rw [clockLoss]
  repeat' with_reducible first
    | assumption | apply fr_ite | refine fr_setF_any cR ?_ | refine fr_mergeFault c_ev c_bgLog (cR 4) ?_
    | refine fr_recordFault c_ev c_tmr c_bgLog (cR 4) (cR 5) ?_
    | refine fr_clockLossReset c_freeCtr c_hif c_ev c_clk c_pwr c_mer c_tmr c_mem c_prj c_ports c_sw c_tm c_sht c_scr c_enc c_bgLog c_bg c_select c_sec c_pins cR ?_
    | refine fr_coastPll c_ev c_bgLog (cR 1) (cR 4) ?_ | apply fr_foldS | intro _ | (dsimp only; split)
    | refine fr_mk rfl ?_

theorem fr_xoLoss {w : Part → Bool} {o s : State} (c_freeCtr : w .freeCtr = true) (c_hif : w .hif = true)
    (c_ev : w .ev = true) (c_clk : w .clk = true) (c_pwr : w .pwr = true) (c_mer : w .mer = true) (c_tmr : w .tmr = true)
    (c_mem : w .mem = true) (c_prj : w .prj = true) (c_ports : w .ports = true) (c_sw : w .sw = true) (c_tm : w .tm = true)
    (c_sht : w .sht = true) (c_scr : w .scr = true) (c_enc : w .enc = true) (c_bgLog : w .bgLog = true)
    (c_bg : w .bg = true) (c_select : w .select = true) (c_sec : w .sec = true) (c_pins : w .pins = true)
    (cR : ∀ k, w (.regs k) = true) (h : Fr w o s) :
    Fr w o (xoLoss s) := by
  rw [xoLoss]
  repeat' with_reducible first
    | assumption | apply fr_ite | refine fr_setF_any cR ?_
    | refine fr_pllLock c_wire c_host c_hif c_ev c_clk c_pwr c_mer c_mem c_prj c_ports c_sw c_tm c_sht c_scr c_enc c_bgLog c_bg c_select c_sec c_pins cR ?_
    | refine fr_enterCoast c_ev c_bgLog (cR 1) (cR 4) ?_ | refine fr_setLocked (cR 1) ?_ | refine fr_beginPlls c_clk ?_
    | refine fr_clockLoss c_freeCtr c_hif c_ev c_clk c_pwr c_mer c_tmr c_mem c_prj c_ports c_sw c_tm c_sht c_scr c_enc c_bgLog c_bg c_select c_sec c_pins cR ?_
    | apply fr_foldS | intro _

theorem fr_measWrite {w : Part → Bool} {o s : State} {a1 : Nat} (c_clk : w .clk = true) (c_r1 : w (.regs 1) = true)
    (h : Fr w o s) :
    Fr w o (measWrite s a1) := by
  rw [measWrite]
  repeat' with_reducible first
    | assumption | apply fr_ite | refine fr_setF 1 (by decide) c_r1 ?_ | intro _ | (dsimp only; split) | refine fr_mk rfl ?_

theorem fr_setGated {w : Part → Bool} {o s : State} {a1 : Nat} {a2 : Bool} (c_clk : w .clk = true) (h : Fr w o s) :
    Fr w o (setGated s a1 a2) := by
  rw [setGated]
  repeat' with_reducible first | assumption | refine fr_mk rfl ?_

theorem fr_entryDefer {w : Part → Bool} {o s : State} {a1 : Nat} {a2 : Nat} (c_ev : w .ev = true) (c_pwr : w .pwr = true)
    (c_bgLog : w .bgLog = true) (c_r4 : w (.regs 4) = true) (h : Fr w o s) :
    Fr w o (entryDefer s a1 a2) := by
  rw [entryDefer.eq_def]
  repeat' with_reducible first
    | assumption | apply fr_ite | refine fr_raiseEv c_ev c_bgLog c_r4 ?_ | intro _ | (dsimp only; split)
    | refine fr_mk rfl ?_

theorem fr_gateTimeout {w : Part → Bool} {o s : State} {a1 : Nat} (c_ev : w .ev = true) (c_clk : w .clk = true)
    (c_pwr : w .pwr = true) (c_bgLog : w .bgLog = true) (c_r2 : w (.regs 2) = true) (c_r4 : w (.regs 4) = true)
    (h : Fr w o s) :
    Fr w o (gateTimeout s a1) := by
  rw [gateTimeout]
  repeat' with_reducible first
    | assumption | apply fr_ite | refine fr_addF 2 (by decide) c_r2 ?_ | refine fr_setGated c_clk ?_
    | refine fr_raiseEv c_ev c_bgLog c_r4 ?_ | refine fr_entryDefer c_ev c_pwr c_bgLog c_r4 ?_ | intro _
    | (dsimp only; split) | refine fr_mk rfl ?_

theorem fr_standInAccess {w : Part → Bool} {o s : State} {a1 : Nat} {a2 : Nat} {a3 : Bool} (c_wire : w .wire = true)
    (c_ev : w .ev = true) (c_bgLog : w .bgLog = true) (c_r2 : w (.regs 2) = true) (c_r4 : w (.regs 4) = true)
    (h : Fr w o s) :
    Fr w o (standInAccess s a1 a2 a3) := by
  rw [standInAccess]
  repeat' with_reducible first
    | assumption | apply fr_ite | refine fr_addF 2 (by decide) c_r2 ?_ | refine fr_emit c_wire ?_
    | refine fr_raiseEv c_ev c_bgLog c_r4 ?_ | intro _

theorem fr_answerHeld {w : Part → Bool} {o s : State} {a1 : Nat} (c_wire : w .wire = true) (c_ev : w .ev = true)
    (c_pwr : w .pwr = true) (c_bgLog : w .bgLog = true) (c_r2 : w (.regs 2) = true) (c_r4 : w (.regs 4) = true)
    (h : Fr w o s) :
    Fr w o (answerHeld s a1) := by
  rw [answerHeld]
  repeat' with_reducible first
    | assumption | refine fr_standInAccess c_wire c_ev c_bgLog c_r2 c_r4 ?_ | apply fr_foldS | intro _ | refine fr_mk rfl ?_

end Sys2Proof.Machine
end

