-- ==== Sys2Proof/Laws/FrameSensors.lean ====
section
/-!
SUPPORT. What the operations of Machine/Sensors.lean leave as it was.
-/

set_option Elab.async false

namespace Sys2Proof.Machine

theorem fr_setTempMon {w : Part → Bool} {o s : State} {a1 : Nat} {a2 : Monitor} (c_bg : w .bg = true) (h : Fr w o s) :
    Fr w o (setTempMon s a1 a2) := by
  rw [setTempMon]
  repeat' with_reducible first | assumption | refine fr_mk rfl ?_

theorem fr_setRailMon {w : Part → Bool} {o s : State} {a1 : Nat} {a2 : Monitor} (c_bg : w .bg = true) (h : Fr w o s) :
    Fr w o (setRailMon s a1 a2) := by
  rw [setRailMon]
  repeat' with_reducible first | assumption | refine fr_mk rfl ?_

theorem fr_tempCritStep {w : Part → Bool} {o s : State} {a1 : Nat} {a2 : Int} (c_bg : w .bg = true) (h : Fr w o s) :
    Fr w o (tempCritStep s a1 a2) := by
  rw [tempCritStep]
  repeat' with_reducible first | assumption | apply fr_ite | refine fr_setTempMon c_bg ?_ | intro _

theorem fr_tempSample {w : Part → Bool} {o s : State} {a1 : Nat} {a2 : Int} (c_ev : w .ev = true)
    (c_bgLog : w .bgLog = true) (c_bg : w .bg = true) (c_r4 : w (.regs 4) = true) (c_r15 : w (.regs 15) = true)
    (h : Fr w o s) :
    Fr w o (tempSample s a1 a2) := by
  rw [tempSample]
  repeat' with_reducible first
    | assumption | apply fr_ite | apply fr_ite_fst | apply fr_ite_snd | refine fr_setB 15 (by decide) c_r15 ?_
    | refine fr_setS 15 (by decide) c_r15 ?_ | refine fr_tempCritStep c_bg ?_ | refine fr_setTempMon c_bg ?_
    | refine fr_raiseEv c_ev c_bgLog c_r4 ?_ | intro _

theorem fr_railCritStep {w : Part → Bool} {o s : State} {a1 : Nat} {a2 : Int} (c_bg : w .bg = true) (h : Fr w o s) :
    Fr w o (railCritStep s a1 a2) := by
  rw [railCritStep]
  repeat' with_reducible first | assumption | apply fr_ite | refine fr_setRailMon c_bg ?_ | intro _

theorem fr_railSample {w : Part → Bool} {o s : State} {a1 : Nat} {a2 : Int} (c_ev : w .ev = true)
    (c_bgLog : w .bgLog = true) (c_bg : w .bg = true) (c_r4 : w (.regs 4) = true) (c_r15 : w (.regs 15) = true)
    (h : Fr w o s) :
    Fr w o (railSample s a1 a2) := by
  rw [railSample]
  repeat' with_reducible first
    | assumption | apply fr_ite | apply fr_ite_fst | apply fr_ite_snd | refine fr_setB 15 (by decide) c_r15 ?_
    | refine fr_setS 15 (by decide) c_r15 ?_ | refine fr_railCritStep c_bg ?_ | refine fr_setRailMon c_bg ?_
    | refine fr_raiseEv c_ev c_bgLog c_r4 ?_ | intro _

theorem fr_critEnds {w : Part → Bool} {o s : State} (c_ev : w .ev = true) (c_bgLog : w .bgLog = true)
    (c_r4 : w (.regs 4) = true) (h : Fr w o s) :
    Fr w o (critEnds s) := by
  rw [critEnds]
  repeat' with_reducible first
    | assumption | apply fr_ite | apply fr_ite_snd | refine fr_causeEnds c_ev c_bgLog c_r4 ?_ | intro _

theorem fr_sensorSample {w : Part → Bool} {o s : State} {a1 : List Int} {a2 : List Int} (c_freeCtr : w .freeCtr = true)
    (c_wire : w .wire = true) (c_host : w .host = true) (c_hif : w .hif = true) (c_ev : w .ev = true)
    (c_clk : w .clk = true) (c_pwr : w .pwr = true) (c_mer : w .mer = true) (c_tmr : w .tmr = true) (c_mem : w .mem = true)
    (c_prj : w .prj = true) (c_ports : w .ports = true) (c_sw : w .sw = true) (c_tm : w .tm = true) (c_sht : w .sht = true)
    (c_scr : w .scr = true) (c_enc : w .enc = true) (c_bgLog : w .bgLog = true) (c_bg : w .bg = true)
    (c_select : w .select = true) (c_sec : w .sec = true) (c_pins : w .pins = true) (cR : ∀ k, w (.regs k) = true)
    (h : Fr w o s) :
    Fr w o (sensorSample s a1 a2) := by
  rw [sensorSample]
  repeat' with_reducible first
    | assumption | refine fr_tempSample c_ev c_bgLog c_bg (cR 4) (cR 15) ?_
    | refine fr_railSample c_ev c_bgLog c_bg (cR 4) (cR 15) ?_
    | refine fr_raiseFe c_freeCtr c_wire c_host c_hif c_ev c_clk c_pwr c_mer c_tmr c_mem c_prj c_ports c_sw c_tm c_sht c_scr c_enc c_bgLog c_bg c_select c_sec c_pins cR ?_
    | refine fr_critEnds c_ev c_bgLog (cR 4) ?_ | refine fr_checkRetrain c_ev c_mem c_bgLog (cR 4) (cR 5) ?_
    | apply fr_foldS | intro _

theorem fr_critSample {w : Part → Bool} {o s : State} {a1 : List (Nat × Int)} {a2 : List (Nat × Int)} (c_ev : w .ev = true)
    (c_bgLog : w .bgLog = true) (c_bg : w .bg = true) (c_r4 : w (.regs 4) = true) (h : Fr w o s) :
    Fr w o (critSample s a1 a2) := by
  rw [critSample]
  repeat' with_reducible first
    | assumption | refine fr_critEnds c_ev c_bgLog c_r4 ?_ | refine fr_railCritStep c_bg ?_ | refine fr_tempCritStep c_bg ?_
    | apply fr_foldS | intro _

end Sys2Proof.Machine
end

