-- ==== Sys2Proof/Laws/FramePower.lean ====
section
/-!
SUPPORT. What the operations of Machine/Power.lean leave as it was.
-/

set_option Elab.async false

namespace Sys2Proof.Machine

theorem fr_keepPower {w : Part → Bool} {o s : State} (c_ev : w .ev = true) (c_tmr : w .tmr = true)
    (c_bgLog : w .bgLog = true) (c_r4 : w (.regs 4) = true) (c_r5 : w (.regs 5) = true) (h : Fr w o s) :
    Fr w o (keepPower s) := by
  rw [keepPower]
  repeat' with_reducible first | assumption | refine fr_writeTmr c_ev c_tmr c_bgLog c_r4 c_r5 ?_

theorem fr_setAlarm {w : Part → Bool} {o s : State} {a1 : List Byte} (c_ev : w .ev = true) (c_tmr : w .tmr = true)
    (c_bgLog : w .bgLog = true) (c_r2 : w (.regs 2) = true) (c_r4 : w (.regs 4) = true) (c_r5 : w (.regs 5) = true)
    (h : Fr w o s) :
    Fr w o (setAlarm s a1) := by
  rw [setAlarm]
  repeat' with_reducible first
    | assumption | apply fr_ite | refine fr_setF 2 (by decide) c_r2 ?_ | refine fr_keepPower c_ev c_tmr c_bgLog c_r4 c_r5 ?_
    | intro _

theorem fr_entryOk {w : Part → Bool} {o s : State} {a1 : Option Nat} (c_wire : w .wire = true) (c_host : w .host = true)
    (c_hif : w .hif = true) (c_ev : w .ev = true) (c_tmr : w .tmr = true) (c_bgLog : w .bgLog = true)
    (c_pins : w .pins = true) (c_r2 : w (.regs 2) = true) (c_r3 : w (.regs 3) = true) (c_r4 : w (.regs 4) = true)
    (c_r5 : w (.regs 5) = true) (h : Fr w o s) :
    Fr w o (entryOk s a1) := by
  rw [entryOk.eq_def]
  repeat' with_reducible first
    | assumption | refine fr_complete c_wire c_host c_hif c_ev c_bgLog c_pins c_r3 c_r4 ?_
    | refine fr_setAlarm c_ev c_tmr c_bgLog c_r2 c_r4 c_r5 ?_ | split

theorem fr_clearEntry {w : Part → Bool} {o s : State} (c_pwr : w .pwr = true) (c_r2 : w (.regs 2) = true) (h : Fr w o s) :
    Fr w o (clearEntry s) := by
  rw [clearEntry]
  repeat' with_reducible first | assumption | refine fr_setF 2 (by decide) c_r2 ?_ | refine fr_mk rfl ?_

theorem fr_enterShallow {w : Part → Bool} {o s : State} {a1 : Nat} (c_clk : w .clk = true) (c_r1 : w (.regs 1) = true)
    (c_r2 : w (.regs 2) = true) (h : Fr w o s) :
    Fr w o (enterShallow s a1) := by
  rw [enterShallow]
  repeat' with_reducible first
    | assumption | apply fr_ite | refine fr_setF 2 (by decide) c_r2 ?_ | refine fr_shallowToRun c_r1 c_r2 ?_
    | refine fr_setLocked c_r1 ?_ | refine fr_setDomain c_r2 ?_ | refine fr_setGated c_clk ?_ | apply fr_foldS | intro _

theorem fr_gateDomain {w : Part → Bool} {o s : State} {a1 : Nat} {a2 : Nat} (c_wire : w .wire = true)
    (c_host : w .host = true) (c_hif : w .hif = true) (c_ev : w .ev = true) (c_pwr : w .pwr = true) (c_mer : w .mer = true)
    (c_mem : w .mem = true) (c_prj : w .prj = true) (c_ports : w .ports = true) (c_sw : w .sw = true) (c_tm : w .tm = true)
    (c_sht : w .sht = true) (c_scr : w .scr = true) (c_enc : w .enc = true) (c_bgLog : w .bgLog = true)
    (c_sec : w .sec = true) (c_pins : w .pins = true) (cR : ∀ k, w (.regs k) = true) (h : Fr w o s) :
    Fr w o (gateDomain s a1 a2) := by
  rw [gateDomain]
  repeat' with_reducible first
    | assumption | apply fr_ite | refine fr_setDomain (cR 2) ?_
    | refine fr_leaveReset c_wire c_host c_hif c_ev c_mer c_prj c_ports c_sw c_tm c_sht c_enc c_bgLog c_pins cR ?_
    | refine fr_unitReset c_wire c_host c_hif c_ev c_pwr c_mer c_mem c_prj c_ports c_sw c_tm c_sht c_scr c_enc c_bgLog c_sec c_pins cR ?_
    | refine fr_setCoreState (cR 6) ?_ | intro _ | (dsimp only; split) | refine fr_mk rfl ?_

theorem fr_setPolicy {w : Part → Bool} {o s : State} {a1 : Nat} {a2 : Nat} (c_r2 : w (.regs 2) = true) (h : Fr w o s) :
    Fr w o (setPolicy s a1 a2) := by
  rw [setPolicy]
  repeat' with_reducible first | assumption | refine fr_setF 2 (by decide) c_r2 ?_

theorem fr_commitEntry {w : Part → Bool} {o s : State} {a1 : PwrEntry} (c_wire : w .wire = true) (c_host : w .host = true)
    (c_hif : w .hif = true) (c_ev : w .ev = true) (c_pwr : w .pwr = true) (c_tmr : w .tmr = true)
    (c_bgLog : w .bgLog = true) (c_pins : w .pins = true) (c_r2 : w (.regs 2) = true) (c_r3 : w (.regs 3) = true)
    (c_r4 : w (.regs 4) = true) (c_r5 : w (.regs 5) = true) (h : Fr w o s) :
    Fr w o (commitEntry s a1) := by
  rw [commitEntry.eq_def]
  repeat' with_reducible first
    | assumption | apply fr_ite | refine fr_entryOk c_wire c_host c_hif c_ev c_tmr c_bgLog c_pins c_r2 c_r3 c_r4 c_r5 ?_
    | refine fr_fireVector c_wire c_hif c_pins c_r3 ?_ | intro _ | split | (dsimp only; split) | refine fr_mk rfl ?_

theorem fr_takeWatch {w : Part → Bool} {o s : State} (c_pwr : w .pwr = true) (h : Fr w o s) :
    Fr w o (takeWatch s) := by
  rw [takeWatch]
  repeat' with_reducible first | assumption | intro _ | refine fr_mk rfl ?_

theorem fr_abandonEntry {w : Part → Bool} {o s : State} {a1 : PwrEntry} {a2 : Nat} {a3 : Nat} (c_wire : w .wire = true)
    (c_host : w .host = true) (c_hif : w .hif = true) (c_ev : w .ev = true) (c_pwr : w .pwr = true)
    (c_bgLog : w .bgLog = true) (c_pins : w .pins = true) (c_r2 : w (.regs 2) = true) (c_r3 : w (.regs 3) = true)
    (c_r4 : w (.regs 4) = true) (h : Fr w o s) :
    Fr w o (abandonEntry s a1 a2 a3) := by
  rw [abandonEntry.eq_def]
  repeat' with_reducible first
    | assumption | apply fr_ite | refine fr_setF 2 (by decide) c_r2 ?_ | refine fr_clearEntry c_pwr c_r2 ?_
    | refine fr_raiseEv c_ev c_bgLog c_r4 ?_ | refine fr_completeId c_wire c_host c_hif c_ev c_bgLog c_pins c_r3 c_r4 ?_
    | intro _ | (dsimp only; split) | refine fr_mk rfl ?_

theorem fr_proceedEntry {w : Part → Bool} {o s : State} {a1 : PwrEntry} (c_wire : w .wire = true) (c_host : w .host = true)
    (c_hif : w .hif = true) (c_ev : w .ev = true) (c_clk : w .clk = true) (c_pwr : w .pwr = true) (c_mer : w .mer = true)
    (c_tmr : w .tmr = true) (c_mem : w .mem = true) (c_prj : w .prj = true) (c_ports : w .ports = true)
    (c_sw : w .sw = true) (c_tm : w .tm = true) (c_sht : w .sht = true) (c_scr : w .scr = true) (c_enc : w .enc = true)
    (c_bgLog : w .bgLog = true) (c_sec : w .sec = true) (c_pins : w .pins = true) (cR : ∀ k, w (.regs k) = true)
    (h : Fr w o s) :
    Fr w o (proceedEntry s a1) := by
  rw [proceedEntry.eq_def]
  repeat' with_reducible first
    | assumption | apply fr_ite
    | refine fr_abandonEntry c_wire c_host c_hif c_ev c_pwr c_bgLog c_pins (cR 2) (cR 3) (cR 4) ?_
    | refine fr_gateDomain c_wire c_host c_hif c_ev c_pwr c_mer c_mem c_prj c_ports c_sw c_tm c_sht c_scr c_enc c_bgLog c_sec c_pins cR ?_
    | refine fr_clearEntry c_pwr (cR 2) ?_
    | refine fr_entryOk c_wire c_host c_hif c_ev c_tmr c_bgLog c_pins (cR 2) (cR 3) (cR 4) (cR 5) ?_
    | refine fr_setPolicy (cR 2) ?_ | refine fr_keepPower c_ev c_tmr c_bgLog (cR 4) (cR 5) ?_ | refine fr_takeWatch c_pwr ?_
    | refine fr_enterShallow c_clk (cR 1) (cR 2) ?_
    | refine fr_commitEntry c_wire c_host c_hif c_ev c_pwr c_tmr c_bgLog c_pins (cR 2) (cR 3) (cR 4) (cR 5) ?_ | intro _
    | split

theorem fr_beginEntry {w : Part → Bool} {o s : State} {a1 : PwrEntry} (c_pwr : w .pwr = true) (c_r2 : w (.regs 2) = true)
    (h : Fr w o s) :
    Fr w o (beginEntry s a1) := by
  rw [beginEntry]
  repeat' with_reducible first
    | assumption | apply fr_ite | refine fr_setF 2 (by decide) c_r2 ?_ | intro _ | (dsimp only; split) | refine fr_mk rfl ?_

theorem fr_yieldGate {w : Part → Bool} {o s : State} (c_pwr : w .pwr = true) (h : Fr w o s) :
    Fr w o (yieldGate s) := by
  rw [yieldGate.eq_def]
  repeat' with_reducible first | assumption | split | (dsimp only; split) | refine fr_mk rfl ?_

theorem fr_requestPolicy {w : Part → Bool} {o s : State} {a1 : Cmd} {a2 : Nat} {a3 : Nat} (c_wire : w .wire = true)
    (c_host : w .host = true) (c_hif : w .hif = true) (c_ev : w .ev = true) (c_pwr : w .pwr = true) (c_tmr : w .tmr = true)
    (c_bgLog : w .bgLog = true) (c_pins : w .pins = true) (c_r2 : w (.regs 2) = true) (c_r3 : w (.regs 3) = true)
    (c_r4 : w (.regs 4) = true) (c_r5 : w (.regs 5) = true) (h : Fr w o s) :
    Fr w o (requestPolicy s a1 a2 a3) := by
  rw [requestPolicy]
  repeat' with_reducible first
    | assumption | apply fr_ite | refine fr_setPolicy c_r2 ?_ | refine fr_beginEntry c_pwr c_r2 ?_
    | refine fr_setDomain c_r2 ?_ | refine fr_entryOk c_wire c_host c_hif c_ev c_tmr c_bgLog c_pins c_r2 c_r3 c_r4 c_r5 ?_
    | refine fr_abandonEntry c_wire c_host c_hif c_ev c_pwr c_bgLog c_pins c_r2 c_r3 c_r4 ?_ | intro _

theorem fr_runPowerState {w : Part → Bool} {o s : State} {a1 : Cmd} {a2 : List Byte} (c_wire : w .wire = true)
    (c_host : w .host = true) (c_hif : w .hif = true) (c_ev : w .ev = true) (c_pwr : w .pwr = true) (c_tmr : w .tmr = true)
    (c_bgLog : w .bgLog = true) (c_pins : w .pins = true) (c_r1 : w (.regs 1) = true) (c_r2 : w (.regs 2) = true)
    (c_r3 : w (.regs 3) = true) (c_r4 : w (.regs 4) = true) (c_r5 : w (.regs 5) = true) (h : Fr w o s) :
    Fr w o (runPowerState s a1 a2) := by
  rw [runPowerState]
  repeat' with_reducible first
    | assumption | apply fr_ite | refine fr_complete c_wire c_host c_hif c_ev c_bgLog c_pins c_r3 c_r4 ?_
    | refine fr_yieldGate c_pwr ?_
    | refine fr_requestPolicy c_wire c_host c_hif c_ev c_pwr c_tmr c_bgLog c_pins c_r2 c_r3 c_r4 c_r5 ?_
    | refine fr_entryOk c_wire c_host c_hif c_ev c_tmr c_bgLog c_pins c_r2 c_r3 c_r4 c_r5 ?_
    | refine fr_keepPower c_ev c_tmr c_bgLog c_r4 c_r5 ?_ | refine fr_shallowToRun c_r1 c_r2 ?_
    | refine fr_beginEntry c_pwr c_r2 ?_ | intro _

theorem fr_unitAnswer {w : Part → Bool} {o s : State} {a1 : Nat} {a2 : Nat} (c_wire : w .wire = true)
    (c_host : w .host = true) (c_hif : w .hif = true) (c_ev : w .ev = true) (c_clk : w .clk = true) (c_pwr : w .pwr = true)
    (c_mer : w .mer = true) (c_tmr : w .tmr = true) (c_mem : w .mem = true) (c_prj : w .prj = true)
    (c_ports : w .ports = true) (c_sw : w .sw = true) (c_tm : w .tm = true) (c_sht : w .sht = true) (c_scr : w .scr = true)
    (c_enc : w .enc = true) (c_bgLog : w .bgLog = true) (c_sec : w .sec = true) (c_pins : w .pins = true)
    (cR : ∀ k, w (.regs k) = true) (h : Fr w o s) :
    Fr w o (unitAnswer s a1 a2) := by
  rw [unitAnswer.eq_def]
  repeat' with_reducible first
    | assumption | apply fr_ite
    | refine fr_abandonEntry c_wire c_host c_hif c_ev c_pwr c_bgLog c_pins (cR 2) (cR 3) (cR 4) ?_
    | refine fr_entryDefer c_ev c_pwr c_bgLog (cR 4) ?_
    | refine fr_proceedEntry c_wire c_host c_hif c_ev c_clk c_pwr c_mer c_tmr c_mem c_prj c_ports c_sw c_tm c_sht c_scr c_enc c_bgLog c_sec c_pins cR ?_
    | intro _ | split | (dsimp only; split) | refine fr_mk rfl ?_

theorem fr_deferRetry {w : Part → Bool} {o s : State} {a1 : Nat} (c_pwr : w .pwr = true) (h : Fr w o s) :
    Fr w o (deferRetry s a1) := by
  rw [deferRetry.eq_def]
  repeat' with_reducible first
    | assumption | apply fr_ite | intro _ | split | (dsimp only; split) | refine fr_mk rfl ?_

theorem fr_windowTimeout {w : Part → Bool} {o s : State} (c_wire : w .wire = true) (c_host : w .host = true)
    (c_hif : w .hif = true) (c_ev : w .ev = true) (c_pwr : w .pwr = true) (c_bgLog : w .bgLog = true)
    (c_pins : w .pins = true) (c_r2 : w (.regs 2) = true) (c_r3 : w (.regs 3) = true) (c_r4 : w (.regs 4) = true)
    (h : Fr w o s) :
    Fr w o (windowTimeout s) := by
  rw [windowTimeout.eq_def]
  repeat' with_reducible first
    | assumption | apply fr_ite | refine fr_abandonEntry c_wire c_host c_hif c_ev c_pwr c_bgLog c_pins c_r2 c_r3 c_r4 ?_
    | intro _ | split

theorem fr_lanesDown {w : Part → Bool} {o s : State} (c_wire : w .wire = true) (c_host : w .host = true)
    (c_hif : w .hif = true) (c_ev : w .ev = true) (c_mer : w .mer = true) (c_ports : w .ports = true) (c_sw : w .sw = true)
    (c_tm : w .tm = true) (c_sht : w .sht = true) (c_bgLog : w .bgLog = true) (c_pins : w .pins = true)
    (c_r3 : w (.regs 3) = true) (c_r4 : w (.regs 4) = true) (c_r8 : w (.regs 8) = true) (c_r9 : w (.regs 9) = true)
    (c_r10 : w (.regs 10) = true) (c_r11 : w (.regs 11) = true) (h : Fr w o s) :
    Fr w o (lanesDown s) := by
  rw [lanesDown]
  repeat' with_reducible first
    | assumption
    | refine fr_takeDown c_wire c_host c_hif c_ev c_mer c_ports c_sw c_tm c_sht c_bgLog c_pins c_r3 c_r4 c_r8 c_r9 c_r10 c_r11 ?_
    | apply fr_foldS | intro _

theorem fr_enginesSleep {w : Part → Bool} {o s : State} (c_host : w .host = true) (c_r3 : w (.regs 3) = true)
    (h : Fr w o s) :
    Fr w o (enginesSleep s) := by
  rw [enginesSleep]
  repeat' with_reducible first
    | assumption | apply fr_ite | refine fr_setSqState c_r3 ?_ | refine fr_writeNeedsKick c_host ?_ | apply fr_foldS
    | intro _

theorem fr_retainAll {w : Part → Bool} {o s : State} (c_wire : w .wire = true) (c_ev : w .ev = true) (c_pwr : w .pwr = true)
    (c_bgLog : w .bgLog = true) (c_r2 : w (.regs 2) = true) (c_r4 : w (.regs 4) = true) (h : Fr w o s) :
    Fr w o (retainAll s) := by
  rw [retainAll]
  repeat' with_reducible first
    | assumption | apply fr_ite | refine fr_setDomain c_r2 ?_ | refine fr_answerHeld c_wire c_ev c_pwr c_bgLog c_r2 c_r4 ?_
    | apply fr_foldS | intro _

theorem fr_powerOffAll {w : Part → Bool} {o s : State} (c_freeCtr : w .freeCtr = true) (c_hif : w .hif = true)
    (c_ev : w .ev = true) (c_clk : w .clk = true) (c_pwr : w .pwr = true) (c_mer : w .mer = true) (c_tmr : w .tmr = true)
    (c_mem : w .mem = true) (c_prj : w .prj = true) (c_ports : w .ports = true) (c_sw : w .sw = true) (c_tm : w .tm = true)
    (c_sht : w .sht = true) (c_scr : w .scr = true) (c_enc : w .enc = true) (c_bgLog : w .bgLog = true)
    (c_bg : w .bg = true) (c_select : w .select = true) (c_sec : w .sec = true) (c_pins : w .pins = true)
    (cR : ∀ k, w (.regs k) = true) (h : Fr w o s) :
    Fr w o (powerOffAll s) := by
  rw [powerOffAll]
  repeat' with_reducible first
    | assumption | apply fr_ite | refine fr_setF_any cR ?_
    | refine fr_resetUnits c_freeCtr c_ev c_clk c_pwr c_mer c_tmr c_mem c_prj c_ports c_sw c_tm c_sht c_scr c_enc c_bgLog c_bg c_select c_sec c_pins cR ?_
    | refine fr_dropBuffers c_ev c_bg (cR 3) (cR 4) ?_ | refine fr_setDomain (cR 2) ?_ | apply fr_foldS | intro _
    | (dsimp only; split) | refine fr_mk rfl ?_

theorem fr_enterDeep {w : Part → Bool} {o s : State} {a1 : Nat} (c_freeCtr : w .freeCtr = true) (c_wire : w .wire = true)
    (c_host : w .host = true) (c_hif : w .hif = true) (c_ev : w .ev = true) (c_clk : w .clk = true) (c_pwr : w .pwr = true)
    (c_mer : w .mer = true) (c_tmr : w .tmr = true) (c_mem : w .mem = true) (c_prj : w .prj = true)
    (c_ports : w .ports = true) (c_sw : w .sw = true) (c_tm : w .tm = true) (c_sht : w .sht = true) (c_scr : w .scr = true)
    (c_enc : w .enc = true) (c_bgLog : w .bgLog = true) (c_bg : w .bg = true) (c_select : w .select = true)
    (c_sec : w .sec = true) (c_pins : w .pins = true) (cR : ∀ k, w (.regs k) = true) (h : Fr w o s) :
    Fr w o (enterDeep s a1) := by
  rw [enterDeep]
  repeat' with_reducible first
    | assumption | apply fr_ite | refine fr_setF_any cR ?_ | refine fr_takeWatch c_pwr ?_
    | refine fr_enginesSleep c_host (cR 3) ?_
    | refine fr_lanesDown c_wire c_host c_hif c_ev c_mer c_ports c_sw c_tm c_sht c_bgLog c_pins (cR 3) (cR 4) (cR 8) (cR 9) (cR 10) (cR 11) ?_
    | refine fr_flushMerge c_freeCtr c_ev c_tmr c_mem c_bgLog (cR 4) (cR 5) ?_
    | refine fr_linkDown c_hif c_ev c_bgLog (cR 3) (cR 4) ?_ | refine fr_setRelock c_clk ?_ | refine fr_setLocked (cR 1) ?_
    | refine fr_retainAll c_wire c_ev c_pwr c_bgLog (cR 2) (cR 4) ?_ | refine fr_setSelfRefresh c_mem ?_
    | refine fr_powerOffAll c_freeCtr c_hif c_ev c_clk c_pwr c_mer c_tmr c_mem c_prj c_ports c_sw c_tm c_sht c_scr c_enc c_bgLog c_bg c_select c_sec c_pins cR ?_
    | refine fr_keepPower c_ev c_tmr c_bgLog (cR 4) (cR 5) ?_ | apply fr_foldS | intro _ | (dsimp only; split)
    | refine fr_mk rfl ?_

theorem fr_watchProceed {w : Part → Bool} {o s : State} (c_freeCtr : w .freeCtr = true) (c_wire : w .wire = true)
    (c_host : w .host = true) (c_hif : w .hif = true) (c_ev : w .ev = true) (c_clk : w .clk = true) (c_pwr : w .pwr = true)
    (c_mer : w .mer = true) (c_tmr : w .tmr = true) (c_mem : w .mem = true) (c_prj : w .prj = true)
    (c_ports : w .ports = true) (c_sw : w .sw = true) (c_tm : w .tm = true) (c_sht : w .sht = true) (c_scr : w .scr = true)
    (c_enc : w .enc = true) (c_bgLog : w .bgLog = true) (c_bg : w .bg = true) (c_select : w .select = true)
    (c_sec : w .sec = true) (c_pins : w .pins = true) (cR : ∀ k, w (.regs k) = true) (h : Fr w o s) :
    Fr w o (watchProceed s) := by
  rw [watchProceed.eq_def]
  repeat' with_reducible first
    | assumption | apply fr_ite
    | refine fr_enterDeep c_freeCtr c_wire c_host c_hif c_ev c_clk c_pwr c_mer c_tmr c_mem c_prj c_ports c_sw c_tm c_sht c_scr c_enc c_bgLog c_bg c_select c_sec c_pins cR ?_
    | intro _ | split

theorem fr_perstReset {w : Part → Bool} {o s : State} (c_freeCtr : w .freeCtr = true) (c_wire : w .wire = true)
    (c_hif : w .hif = true) (c_ev : w .ev = true) (c_clk : w .clk = true) (c_pwr : w .pwr = true) (c_mer : w .mer = true)
    (c_tmr : w .tmr = true) (c_mem : w .mem = true) (c_prj : w .prj = true) (c_ports : w .ports = true)
    (c_sw : w .sw = true) (c_tm : w .tm = true) (c_sht : w .sht = true) (c_scr : w .scr = true) (c_enc : w .enc = true)
    (c_bgLog : w .bgLog = true) (c_bg : w .bg = true) (c_select : w .select = true) (c_sec : w .sec = true)
    (c_pins : w .pins = true) (cR : ∀ k, w (.regs k) = true) (h : Fr w o s) :
    Fr w o (perstReset s) := by
  rw [perstReset]
  repeat' with_reducible first
    | assumption | apply fr_ite | refine fr_hotReset c_hif c_ev c_tmr c_bgLog c_bg (cR 1) (cR 3) (cR 4) (cR 5) ?_
    | refine fr_coldReset c_freeCtr c_hif c_ev c_clk c_pwr c_mer c_tmr c_mem c_prj c_ports c_sw c_tm c_sht c_scr c_enc c_bgLog c_bg c_select c_sec c_pins cR ?_
    | refine fr_stopHold c_wire ?_ | intro _

theorem fr_wakeDeep {w : Part → Bool} {o s : State} {a1 : Nat} {a2 : Option Nat} (c_freeCtr : w .freeCtr = true)
    (c_hif : w .hif = true) (c_ev : w .ev = true) (c_clk : w .clk = true) (c_pwr : w .pwr = true) (c_mer : w .mer = true)
    (c_tmr : w .tmr = true) (c_mem : w .mem = true) (c_prj : w .prj = true) (c_ports : w .ports = true)
    (c_sw : w .sw = true) (c_tm : w .tm = true) (c_sht : w .sht = true) (c_scr : w .scr = true) (c_enc : w .enc = true)
    (c_bgLog : w .bgLog = true) (c_bg : w .bg = true) (c_select : w .select = true) (c_sec : w .sec = true)
    (c_pins : w .pins = true) (cR : ∀ k, w (.regs k) = true) (h : Fr w o s) :
    Fr w o (wakeDeep s a1 a2) := by
  rw [wakeDeep]
  repeat' with_reducible first
    | assumption | apply fr_ite | refine fr_setF_any cR ?_
    | refine fr_writeWakeRecord c_ev c_tmr c_bgLog (cR 2) (cR 4) (cR 5) ?_ | refine fr_setDomain (cR 2) ?_
    | refine fr_coldReset c_freeCtr c_hif c_ev c_clk c_pwr c_mer c_tmr c_mem c_prj c_ports c_sw c_tm c_sht c_scr c_enc c_bgLog c_bg c_select c_sec c_pins cR ?_
    | refine fr_restartClocks c_clk (cR 1) ?_ | apply fr_foldS | intro _ | (dsimp only; split) | refine fr_mk rfl ?_

theorem fr_wake {w : Part → Bool} {o s : State} {a1 : Nat} {a2 : Option Nat} (c_freeCtr : w .freeCtr = true)
    (c_hif : w .hif = true) (c_ev : w .ev = true) (c_clk : w .clk = true) (c_pwr : w .pwr = true) (c_mer : w .mer = true)
    (c_tmr : w .tmr = true) (c_mem : w .mem = true) (c_prj : w .prj = true) (c_ports : w .ports = true)
    (c_sw : w .sw = true) (c_tm : w .tm = true) (c_sht : w .sht = true) (c_scr : w .scr = true) (c_enc : w .enc = true)
    (c_bgLog : w .bgLog = true) (c_bg : w .bg = true) (c_select : w .select = true) (c_sec : w .sec = true)
    (c_pins : w .pins = true) (cR : ∀ k, w (.regs k) = true) (h : Fr w o s) :
    Fr w o (wake s a1 a2) := by
  rw [wake]
  repeat' with_reducible first
    | assumption | apply fr_ite | refine fr_wakeLight c_ev c_pwr c_tmr c_bgLog (cR 1) (cR 2) (cR 4) (cR 5) ?_
    | refine fr_wakeDeep c_freeCtr c_hif c_ev c_clk c_pwr c_mer c_tmr c_mem c_prj c_ports c_sw c_tm c_sht c_scr c_enc c_bgLog c_bg c_select c_sec c_pins cR ?_
    | intro _

theorem fr_wakeEnded {w : Part → Bool} {o s : State} {a1 : Bool} (c_freeCtr : w .freeCtr = true) (c_wire : w .wire = true)
    (c_host : w .host = true) (c_hif : w .hif = true) (c_ev : w .ev = true) (c_clk : w .clk = true) (c_pwr : w .pwr = true)
    (c_mer : w .mer = true) (c_tmr : w .tmr = true) (c_mem : w .mem = true) (c_prj : w .prj = true)
    (c_ports : w .ports = true) (c_sw : w .sw = true) (c_tm : w .tm = true) (c_sht : w .sht = true) (c_scr : w .scr = true)
    (c_enc : w .enc = true) (c_bgLog : w .bgLog = true) (c_bg : w .bg = true) (c_select : w .select = true)
    (c_sec : w .sec = true) (c_pins : w .pins = true) (cR : ∀ k, w (.regs k) = true) (h : Fr w o s) :
    Fr w o (wakeEnded s a1) := by
  rw [wakeEnded.eq_def]
  repeat' with_reducible first
    | assumption | apply fr_ite | refine fr_raiseEv c_ev c_bgLog (cR 4) ?_
    | refine fr_raiseFe c_freeCtr c_wire c_host c_hif c_ev c_clk c_pwr c_mer c_tmr c_mem c_prj c_ports c_sw c_tm c_sht c_scr c_enc c_bgLog c_bg c_select c_sec c_pins cR ?_
    | apply fr_foldS | intro _ | split | (dsimp only; split) | refine fr_mk rfl ?_

theorem fr_restartMeridian {w : Part → Bool} {o s : State} (c_ev : w .ev = true) (c_mer : w .mer = true)
    (c_bgLog : w .bgLog = true) (c_pins : w .pins = true) (c_r4 : w (.regs 4) = true) (c_r9 : w (.regs 9) = true)
    (h : Fr w o s) :
    Fr w o (restartMeridian s) := by
  rw [restartMeridian]
  repeat' with_reducible first
    | assumption | refine fr_setF 9 (by decide) c_r9 ?_ | refine fr_bmca c_ev c_mer c_bgLog c_r4 c_r9 ?_
    | refine fr_ppsOut c_mer c_pins ?_ | apply fr_foldS | intro _ | refine fr_mk rfl ?_

theorem fr_watchWakeDone {w : Part → Bool} {o s : State} {a1 : Nat} (c_freeCtr : w .freeCtr = true)
    (c_wire : w .wire = true) (c_host : w .host = true) (c_hif : w .hif = true) (c_ev : w .ev = true)
    (c_clk : w .clk = true) (c_pwr : w .pwr = true) (c_mer : w .mer = true) (c_tmr : w .tmr = true) (c_mem : w .mem = true)
    (c_prj : w .prj = true) (c_ports : w .ports = true) (c_sw : w .sw = true) (c_tm : w .tm = true) (c_sht : w .sht = true)
    (c_scr : w .scr = true) (c_enc : w .enc = true) (c_bgLog : w .bgLog = true) (c_bg : w .bg = true)
    (c_select : w .select = true) (c_sec : w .sec = true) (c_pins : w .pins = true) (cR : ∀ k, w (.regs k) = true)
    (h : Fr w o s) :
    Fr w o (watchWakeDone s a1) := by
  rw [watchWakeDone]
  repeat' with_reducible first
    | assumption | apply fr_ite | refine fr_setF_any cR ?_ | refine fr_judgeXo c_ev c_bgLog (cR 1) (cR 4) ?_
    | refine fr_setLocked (cR 1) ?_ | refine fr_setDomain (cR 2) ?_
    | refine fr_leaveReset c_wire c_host c_hif c_ev c_mer c_prj c_ports c_sw c_tm c_sht c_enc c_bgLog c_pins cR ?_
    | refine fr_setCoreState (cR 6) ?_ | refine fr_setSelfRefresh c_mem ?_
    | refine fr_checkRetrain c_ev c_mem c_bgLog (cR 4) (cR 5) ?_
    | refine fr_restartMeridian c_ev c_mer c_bgLog c_pins (cR 4) (cR 9) ?_ | refine fr_raisePorts c_ports (cR 10) ?_
    | refine fr_wakeEnded c_freeCtr c_wire c_host c_hif c_ev c_clk c_pwr c_mer c_tmr c_mem c_prj c_ports c_sw c_tm c_sht c_scr c_enc c_bgLog c_bg c_select c_sec c_pins cR ?_
    | refine fr_keepPower c_ev c_tmr c_bgLog (cR 4) (cR 5) ?_
    | refine fr_perstReset c_freeCtr c_wire c_hif c_ev c_clk c_pwr c_mer c_tmr c_mem c_prj c_ports c_sw c_tm c_sht c_scr c_enc c_bgLog c_bg c_select c_sec c_pins cR ?_
    | apply fr_foldS | intro _

theorem fr_addMatch {w : Part → Bool} {o s : State} {a1 : Nat} (c_r2 : w (.regs 2) = true) (h : Fr w o s) :
    Fr w o (addMatch s a1) := by
  rw [addMatch]
  repeat' with_reducible first
    | assumption | apply fr_ite | refine fr_setW (k := 2) (by decide) c_r2 ?_ | intro _

theorem fr_sampleOne {w : Part → Bool} {o s : State} {a1 : Nat} {a2 : Nat} {a3 : Bool} (c_pwr : w .pwr = true)
    (c_r2 : w (.regs 2) = true) (h : Fr w o s) :
    Fr w o (sampleOne s a1 a2 a3) := by
  rw [sampleOne]
  repeat' with_reducible first
    | assumption | apply fr_ite | refine fr_setF 2 (by decide) c_r2 ?_ | refine fr_addMatch c_r2 ?_ | intro _
    | (dsimp only; split) | refine fr_mk rfl ?_

theorem fr_watchSample {w : Part → Bool} {o s : State} {a1 : List Int} {a2 : List Int} {a3 : List Nat} {a4 : Bool}
    (c_freeCtr : w .freeCtr = true) (c_hif : w .hif = true) (c_ev : w .ev = true) (c_clk : w .clk = true)
    (c_pwr : w .pwr = true) (c_mer : w .mer = true) (c_tmr : w .tmr = true) (c_mem : w .mem = true) (c_prj : w .prj = true)
    (c_ports : w .ports = true) (c_sw : w .sw = true) (c_tm : w .tm = true) (c_sht : w .sht = true) (c_scr : w .scr = true)
    (c_enc : w .enc = true) (c_bgLog : w .bgLog = true) (c_bg : w .bg = true) (c_select : w .select = true)
    (c_sec : w .sec = true) (c_pins : w .pins = true) (cR : ∀ k, w (.regs k) = true) (h : Fr w o s) :
    Fr w o (watchSample s a1 a2 a3 a4) := by
  rw [watchSample]
  repeat' with_reducible first
    | assumption | refine fr_addF_any cR ?_ | refine fr_sampleOne c_pwr (cR 2) ?_
    | refine fr_critSample c_ev c_bgLog c_bg (cR 4) ?_
    | refine fr_wake c_freeCtr c_hif c_ev c_clk c_pwr c_mer c_tmr c_mem c_prj c_ports c_sw c_tm c_sht c_scr c_enc c_bgLog c_bg c_select c_sec c_pins cR ?_
    | apply fr_foldS | intro _

theorem fr_rtcAlarm {w : Part → Bool} {o s : State} (c_freeCtr : w .freeCtr = true) (c_hif : w .hif = true)
    (c_ev : w .ev = true) (c_clk : w .clk = true) (c_pwr : w .pwr = true) (c_mer : w .mer = true) (c_tmr : w .tmr = true)
    (c_mem : w .mem = true) (c_prj : w .prj = true) (c_ports : w .ports = true) (c_sw : w .sw = true) (c_tm : w .tm = true)
    (c_sht : w .sht = true) (c_scr : w .scr = true) (c_enc : w .enc = true) (c_bgLog : w .bgLog = true)
    (c_bg : w .bg = true) (c_select : w .select = true) (c_sec : w .sec = true) (c_pins : w .pins = true)
    (cR : ∀ k, w (.regs k) = true) (h : Fr w o s) :
    Fr w o (rtcAlarm s) := by
  rw [rtcAlarm]
  repeat' with_reducible first
    | assumption | apply fr_ite | refine fr_setF_any cR ?_
    | refine fr_wake c_freeCtr c_hif c_ev c_clk c_pwr c_mer c_tmr c_mem c_prj c_ports c_sw c_tm c_sht c_scr c_enc c_bgLog c_bg c_select c_sec c_pins cR ?_
    | refine fr_keepPower c_ev c_tmr c_bgLog (cR 4) (cR 5) ?_ | intro _

theorem fr_rtcLoad {w : Part → Bool} {o s : State} (c_pwr : w .pwr = true) (h : Fr w o s) :
    Fr w o (rtcLoad s) := by
  rw [rtcLoad]
  repeat' with_reducible first | assumption | apply fr_ite | intro _ | (dsimp only; split) | refine fr_mk rfl ?_

theorem fr_perstAssert {w : Part → Bool} {o s : State} (c_freeCtr : w .freeCtr = true) (c_wire : w .wire = true)
    (c_hif : w .hif = true) (c_ev : w .ev = true) (c_clk : w .clk = true) (c_pwr : w .pwr = true) (c_mer : w .mer = true)
    (c_tmr : w .tmr = true) (c_mem : w .mem = true) (c_prj : w .prj = true) (c_ports : w .ports = true)
    (c_sw : w .sw = true) (c_tm : w .tm = true) (c_sht : w .sht = true) (c_scr : w .scr = true) (c_enc : w .enc = true)
    (c_bgLog : w .bgLog = true) (c_bg : w .bg = true) (c_select : w .select = true) (c_sec : w .sec = true)
    (c_pins : w .pins = true) (cR : ∀ k, w (.regs k) = true) (h : Fr w o s) :
    Fr w o (perstAssert s) := by
  rw [perstAssert]
  repeat' with_reducible first
    | assumption | apply fr_ite
    | refine fr_wake c_freeCtr c_hif c_ev c_clk c_pwr c_mer c_tmr c_mem c_prj c_ports c_sw c_tm c_sht c_scr c_enc c_bgLog c_bg c_select c_sec c_pins cR ?_
    | refine fr_coldReset c_freeCtr c_hif c_ev c_clk c_pwr c_mer c_tmr c_mem c_prj c_ports c_sw c_tm c_sht c_scr c_enc c_bgLog c_bg c_select c_sec c_pins cR ?_
    | refine fr_perstReset c_freeCtr c_wire c_hif c_ev c_clk c_pwr c_mer c_tmr c_mem c_prj c_ports c_sw c_tm c_sht c_scr c_enc c_bgLog c_bg c_select c_sec c_pins cR ?_
    | intro _ | (dsimp only; split) | refine fr_mk rfl ?_

theorem fr_perstDeassert {w : Part → Bool} {o s : State} {a1 : Nat} (c_ev : w .ev = true) (c_clk : w .clk = true)
    (c_mer : w .mer = true) (c_bgLog : w .bgLog = true) (c_pins : w .pins = true) (c_r1 : w (.regs 1) = true)
    (c_r4 : w (.regs 4) = true) (c_r5 : w (.regs 5) = true) (h : Fr w o s) :
    Fr w o (perstDeassert s a1) := by
  rw [perstDeassert]
  repeat' with_reducible first
    | assumption | apply fr_ite | refine fr_latchBar4 c_r5 ?_ | refine fr_reachT0 c_ev c_clk c_mer c_bgLog c_r1 c_r4 ?_
    | intro _ | (dsimp only; split) | refine fr_mk rfl ?_

end Sys2Proof.Machine
end

