-- ==== Sys2Proof/Laws/FrameBackground.lean ====
section
/-!
SUPPORT. What the operations of Machine/Background.lean leave as it was.
-/

set_option Elab.async false

namespace Sys2Proof.Machine

theorem fr_adaptLane {w : Part → Bool} {o s : State} {a1 : Nat} {a2 : Int} {a3 : List Int} (c_bg : w .bg = true)
    (h : Fr w o s) :
    Fr w o (adaptLane s a1 a2 a3) := by
  rw [adaptLane]
  repeat' with_reducible first | assumption | intro _ | refine fr_mk rfl ?_

theorem fr_stageGain {w : Part → Bool} {o s : State} {a1 : Nat} {a2 : SMap Nat} (c_prj : w .prj = true) (h : Fr w o s) :
    Fr w o (stageGain s a1 a2) := by
  rw [stageGain]
  repeat' with_reducible first
    | assumption | apply fr_ite | apply fr_ite_fst | apply fr_foldS | intro _ | (dsimp only; split) | refine fr_mk rfl ?_

theorem fr_startPass {w : Part → Bool} {o s : State} (c_bg : w .bg = true) (c_r15 : w (.regs 15) = true) (h : Fr w o s) :
    Fr w o (startPass s) := by
  rw [startPass.eq_def]
  repeat' with_reducible first
    | assumption | apply fr_ite | apply fr_ite_fst | refine fr_setF 15 (by decide) c_r15 ?_ | intro _ | (dsimp only; split)
    | refine fr_mk rfl ?_

theorem fr_saveDoses {w : Part → Bool} {o s : State} {a1 : Cmd} (c_wire : w .wire = true) (c_host : w .host = true)
    (c_hif : w .hif = true) (c_ev : w .ev = true) (c_bgLog : w .bgLog = true) (c_bg : w .bg = true)
    (c_pins : w .pins = true) (c_r3 : w (.regs 3) = true) (c_r4 : w (.regs 4) = true) (h : Fr w o s) :
    Fr w o (saveDoses s a1) := by
  rw [saveDoses]
  repeat' with_reducible first
    | assumption | apply fr_ite | apply fr_ite_fst | refine fr_complete c_wire c_host c_hif c_ev c_bgLog c_pins c_r3 c_r4 ?_
    | refine fr_hostWrite c_host ?_ | intro _ | (dsimp only; split) | refine fr_mk rfl ?_

theorem fr_waitForPass {w : Part → Bool} {o s : State} {a1 : Cmd} {a2 : List Byte} (c_hif : w .hif = true)
    (c_bg : w .bg = true) (h : Fr w o s) :
    Fr w o (waitForPass s a1 a2) := by
  rw [waitForPass]
  repeat' with_reducible first | assumption | refine fr_putCmd c_hif ?_ | refine fr_mk rfl ?_

theorem fr_runDoseSave {w : Part → Bool} {o s : State} {a1 : Cmd} {a2 : List Byte} (c_wire : w .wire = true)
    (c_host : w .host = true) (c_hif : w .hif = true) (c_ev : w .ev = true) (c_bgLog : w .bgLog = true)
    (c_bg : w .bg = true) (c_pins : w .pins = true) (c_r3 : w (.regs 3) = true) (c_r4 : w (.regs 4) = true) (h : Fr w o s) :
    Fr w o (runDoseSave s a1 a2) := by
  rw [runDoseSave]
  repeat' with_reducible first
    | assumption | apply fr_ite | refine fr_waitForPass c_hif c_bg ?_
    | refine fr_saveDoses c_wire c_host c_hif c_ev c_bgLog c_bg c_pins c_r3 c_r4 ?_ | intro _

theorem fr_loadDoses {w : Part → Bool} {o s : State} {a1 : Cmd} {a2 : List Byte} (c_wire : w .wire = true)
    (c_host : w .host = true) (c_hif : w .hif = true) (c_ev : w .ev = true) (c_prj : w .prj = true)
    (c_bgLog : w .bgLog = true) (c_bg : w .bg = true) (c_pins : w .pins = true) (c_r3 : w (.regs 3) = true)
    (c_r4 : w (.regs 4) = true) (c_r15 : w (.regs 15) = true) (h : Fr w o s) :
    Fr w o (loadDoses s a1 a2) := by
  rw [loadDoses]
  repeat' with_reducible first
    | assumption | apply fr_ite | apply fr_ite_fst | apply fr_ite_snd
    | refine fr_complete c_wire c_host c_hif c_ev c_bgLog c_pins c_r3 c_r4 ?_ | refine fr_startPass c_bg c_r15 ?_
    | apply fr_foldS | intro _ | (dsimp only; split) | refine fr_mk rfl ?_

theorem fr_runDoseLoad {w : Part → Bool} {o s : State} {a1 : Cmd} {a2 : List Byte} (c_wire : w .wire = true)
    (c_host : w .host = true) (c_hif : w .hif = true) (c_ev : w .ev = true) (c_prj : w .prj = true)
    (c_bgLog : w .bgLog = true) (c_bg : w .bg = true) (c_pins : w .pins = true) (c_r3 : w (.regs 3) = true)
    (c_r4 : w (.regs 4) = true) (c_r15 : w (.regs 15) = true) (h : Fr w o s) :
    Fr w o (runDoseLoad s a1 a2) := by
  rw [runDoseLoad]
  repeat' with_reducible first
    | assumption | apply fr_ite | refine fr_waitForPass c_hif c_bg ?_
    | refine fr_loadDoses c_wire c_host c_hif c_ev c_prj c_bgLog c_bg c_pins c_r3 c_r4 c_r15 ?_ | intro _

theorem fr_dosesProceed {w : Part → Bool} {o s : State} {a1 : Nat} (c_wire : w .wire = true) (c_host : w .host = true)
    (c_hif : w .hif = true) (c_ev : w .ev = true) (c_prj : w .prj = true) (c_bgLog : w .bgLog = true) (c_bg : w .bg = true)
    (c_pins : w .pins = true) (c_r3 : w (.regs 3) = true) (c_r4 : w (.regs 4) = true) (c_r15 : w (.regs 15) = true)
    (h : Fr w o s) :
    Fr w o (dosesProceed s a1) := by
  induction a1 generalizing s with
  | zero => exact h
  | succ k ih =>
    rw [dosesProceed]
    repeat' with_reducible first
      | assumption | apply fr_ite | apply ih | refine fr_saveDoses c_wire c_host c_hif c_ev c_bgLog c_bg c_pins c_r3 c_r4 ?_
      | refine fr_loadDoses c_wire c_host c_hif c_ev c_prj c_bgLog c_bg c_pins c_r3 c_r4 c_r15 ?_ | intro _ | split
      | (dsimp only; split) | refine fr_mk rfl ?_

theorem fr_passDone {w : Part → Bool} {o s : State} (c_wire : w .wire = true) (c_host : w .host = true)
    (c_hif : w .hif = true) (c_ev : w .ev = true) (c_prj : w .prj = true) (c_bgLog : w .bgLog = true) (c_bg : w .bg = true)
    (c_pins : w .pins = true) (c_r3 : w (.regs 3) = true) (c_r4 : w (.regs 4) = true) (c_r15 : w (.regs 15) = true)
    (h : Fr w o s) :
    Fr w o (passDone s) := by
  rw [passDone.eq_def]
  repeat' with_reducible first
    | assumption | apply fr_ite | apply fr_ite_fst | apply fr_ite_snd | refine fr_setF 15 (by decide) c_r15 ?_
    | refine fr_addF 15 (by decide) c_r15 ?_ | refine fr_stageGain c_prj ?_
    | refine fr_dosesProceed c_wire c_host c_hif c_ev c_prj c_bgLog c_bg c_pins c_r3 c_r4 c_r15 ?_
    | refine fr_startPass c_bg c_r15 ?_ | apply fr_foldS | intro _ | (dsimp only; split) | refine fr_mk rfl ?_

theorem fr_setCurves {w : Part → Bool} {o s : State} {a1 : Curves} (c_bg : w .bg = true) (c_r15 : w (.regs 15) = true)
    (h : Fr w o s) :
    Fr w o (setCurves s a1) := by
  rw [setCurves]
  repeat' with_reducible first | assumption | refine fr_setB 15 (by decide) c_r15 ?_ | refine fr_mk rfl ?_

theorem fr_runWearCurveSet {w : Part → Bool} {o s : State} {a1 : Cmd} {a2 : List Byte} (c_wire : w .wire = true)
    (c_host : w .host = true) (c_hif : w .hif = true) (c_ev : w .ev = true) (c_bgLog : w .bgLog = true)
    (c_bg : w .bg = true) (c_pins : w .pins = true) (c_r3 : w (.regs 3) = true) (c_r4 : w (.regs 4) = true)
    (c_r15 : w (.regs 15) = true) (h : Fr w o s) :
    Fr w o (runWearCurveSet s a1 a2) := by
  rw [runWearCurveSet.eq_def]
  repeat' with_reducible first
    | assumption | apply fr_ite | refine fr_complain c_wire c_host c_hif c_ev c_bgLog c_pins c_r3 c_r4 ?_
    | refine fr_setCurves c_bg c_r15 ?_ | refine fr_startPass c_bg c_r15 ?_
    | refine fr_complete c_wire c_host c_hif c_ev c_bgLog c_pins c_r3 c_r4 ?_ | intro _ | split

theorem fr_faultLogFlush {w : Part → Bool} {o s : State} (c_bgLog : w .bgLog = true) (c_bg : w .bg = true)
    (c_sec : w .sec = true) (h : Fr w o s) :
    Fr w o (faultLogFlush s) := by
  rw [faultLogFlush]
  repeat' with_reducible first
    | assumption | apply fr_ite | apply fr_foldl | apply fr_foldl_fst | apply fr_foldl_snd | intro _ | (dsimp only; split)
    | refine fr_mk rfl ?_

theorem fr_writeSummary {w : Part → Bool} {o s : State} (c_bg : w .bg = true) (c_sec : w .sec = true)
    (c_r15 : w (.regs 15) = true) (h : Fr w o s) :
    Fr w o (writeSummary s) := by
  rw [writeSummary]
  repeat' with_reducible first
    | assumption | refine fr_setF 15 (by decide) c_r15 ?_ | refine fr_setB 15 (by decide) c_r15 ?_
    | refine fr_addF 15 (by decide) c_r15 ?_ | refine fr_mk rfl ?_

theorem fr_restoreCurves {w : Part → Bool} {o s : State} (c_bg : w .bg = true) (c_r15 : w (.regs 15) = true)
    (h : Fr w o s) :
    Fr w o (restoreCurves s) := by
  rw [restoreCurves]
  repeat' with_reducible first | assumption | apply fr_ite | refine fr_setCurves c_bg c_r15 ?_ | intro _

theorem fr_runBgRead {w : Part → Bool} {o s : State} {a1 : Cmd} {a2 : List Byte} (c_wire : w .wire = true)
    (c_host : w .host = true) (c_hif : w .hif = true) (c_ev : w .ev = true) (c_bgLog : w .bgLog = true)
    (c_pins : w .pins = true) (c_r3 : w (.regs 3) = true) (c_r4 : w (.regs 4) = true) (h : Fr w o s) :
    Fr w o (runBgRead s a1 a2) := by
  rw [runBgRead]
  repeat' with_reducible first
    | assumption | refine fr_complete c_wire c_host c_hif c_ev c_bgLog c_pins c_r3 c_r4 ?_ | refine fr_hostWrite c_host ?_

theorem fr_telemetryChannel {w : Part → Bool} {o s : State} (c_r3 : w (.regs 3) = true) (h : Fr w o s) : Fr w o (telemetryChannel s) := by
  rw [telemetryChannel]
  split
  · exact h
  · cases e : takeChannel s ownerTelemetry with
    | none => exact h
    | some r => exact fr_takeChannel c_r3 h r.1 r.2 e

theorem fr_runTelemetryArm {w : Part → Bool} {o s : State} {a1 : Cmd} {a2 : List Byte} (c_wire : w .wire = true)
    (c_host : w .host = true) (c_hif : w .hif = true) (c_ev : w .ev = true) (c_bgLog : w .bgLog = true)
    (c_bg : w .bg = true) (c_pins : w .pins = true) (c_r3 : w (.regs 3) = true) (c_r4 : w (.regs 4) = true) (h : Fr w o s) :
    Fr w o (runTelemetryArm s a1 a2) := by
  rw [runTelemetryArm]
  repeat' with_reducible first
    | assumption | apply fr_ite | refine fr_complete c_wire c_host c_hif c_ev c_bgLog c_pins c_r3 c_r4 ?_
    | refine fr_releaseChannel c_r3 ?_ | refine fr_telemetryChannel c_r3 ?_ | intro _ | (dsimp only; split)
    | refine fr_mk rfl ?_

theorem fr_postTelemetry {w : Part → Bool} {o s : State} {a1 : Telemetry} (c_freeCtr : w .freeCtr = true)
    (c_host : w .host = true) (c_r15 : w (.regs 15) = true) (h : Fr w o s) :
    Fr w o (postTelemetry s a1) := by
  rw [postTelemetry]
  repeat' with_reducible first
    | assumption | apply fr_ite | refine fr_setF 15 (by decide) c_r15 ?_ | refine fr_addF 15 (by decide) c_r15 ?_
    | refine fr_hostWrite c_host ?_ | intro _ | split | (dsimp only; split) | refine fr_mk rfl ?_

theorem fr_telemetryRecord {w : Part → Bool} {o s : State} (c_freeCtr : w .freeCtr = true) (c_host : w .host = true)
    (c_bgLog : w .bgLog = true) (c_bg : w .bg = true) (c_r15 : w (.regs 15) = true) (h : Fr w o s) :
    Fr w o (telemetryRecord s) := by
  rw [telemetryRecord.eq_def]
  repeat' with_reducible first
    | assumption | refine fr_postTelemetry c_freeCtr c_host c_r15 ?_ | split | (dsimp only; split) | refine fr_mk rfl ?_

end Sys2Proof.Machine
end

