-- ==== Sys2Proof/Laws/FrameMicrocode.lean ====
section
/-!
SUPPORT. What the operations of Machine/Microcode.lean leave as it was.
-/

set_option Elab.async false

namespace Sys2Proof.Machine

theorem fr_microStep {w : Part → Bool} {o s : State} (c_freeCtr : w .freeCtr = true) (c_sec : w .sec = true)
    (c_r14 : w (.regs 14) = true) (h : Fr w o s) :
    Fr w o (microStep s) := by
  rw [microStep]
  repeat' with_reducible first
    | assumption | apply fr_ite | apply fr_ite_fst | apply fr_ite_snd | refine fr_setF 14 (by decide) c_r14 ?_ | intro _
    | split | (dsimp only; split) | refine fr_mk rfl ?_

end Sys2Proof.Machine
end

