-- ==== Sys2Proof/Laws/FrameIdle.lean ====
section
/-!
SUPPORT. What the operations of Machine/Idle.lean leave as it was.
-/

set_option Elab.async false

namespace Sys2Proof.Machine

theorem fr_tickCompass {w : Part → Bool} {o s : State} (c_freeCtr : w .freeCtr = true) (c_sec : w .sec = true)
    (c_r14 : w (.regs 14) = true) (h : Fr w o s) :
    Fr w o (tickCompass s) := by
  rw [tickCompass]
  repeat' with_reducible first
    | assumption | apply fr_ite | refine fr_microStep c_freeCtr c_sec c_r14 ?_ | intro _ | split | (dsimp only; split)

theorem fr_tickPower {w : Part → Bool} {o s : State} (c_r2 : w (.regs 2) = true) (h : Fr w o s) :
    Fr w o (tickPower s) := by
  rw [tickPower]
  repeat' with_reducible first
    | assumption | apply fr_ite | refine fr_wakeDomains c_r2 ?_ | intro _ | split | (dsimp only; split)

end Sys2Proof.Machine
end

