-- ==== Sys2Proof/Laws/FrameSecurity.lean ====
section
/-!
SUPPORT. What the operations of Machine/Security.lean leave as it was.
-/

set_option Elab.async false

namespace Sys2Proof.Machine

theorem fr_patchNano {w : Part → Bool} {o s : State} (c_sec : w .sec = true) (h : Fr w o s) :
    Fr w o (patchNano s) := by
  rw [patchNano]
  repeat' with_reducible first | assumption | intro _ | refine fr_mk rfl ?_

theorem fr_patchesApplied {w : Part → Bool} {o s : State} (c_ev : w .ev = true) (c_bgLog : w .bgLog = true)
    (c_sec : w .sec = true) (c_r4 : w (.regs 4) = true) (h : Fr w o s) :
    Fr w o (patchesApplied s) := by
  rw [patchesApplied]
  repeat' with_reducible first
    | assumption | apply fr_ite | refine fr_patchNano c_sec ?_ | refine fr_raiseEv c_ev c_bgLog c_r4 ?_ | intro _

theorem fr_persistCompass {w : Part → Bool} {o s : State} (c_ev : w .ev = true) (c_tmr : w .tmr = true)
    (c_bgLog : w .bgLog = true) (c_r4 : w (.regs 4) = true) (c_r5 : w (.regs 5) = true) (h : Fr w o s) :
    Fr w o (persistCompass s) := by
  rw [persistCompass]
  repeat' with_reducible first | assumption | refine fr_writeTmr c_ev c_tmr c_bgLog c_r4 c_r5 ?_

theorem fr_runFirmware {w : Part → Bool} {o s : State} {a1 : Nat} (c_ev : w .ev = true) (c_tmr : w .tmr = true)
    (c_bgLog : w .bgLog = true) (c_select : w .select = true) (c_sec : w .sec = true) (c_r0 : w (.regs 0) = true)
    (c_r4 : w (.regs 4) = true) (c_r5 : w (.regs 5) = true) (c_r14 : w (.regs 14) = true) (h : Fr w o s) :
    Fr w o (runFirmware s a1) := by
  rw [runFirmware]
  repeat' with_reducible first
    | assumption | refine fr_setF 0 (by decide) c_r0 ?_ | refine fr_setF 14 (by decide) c_r14 ?_
    | refine fr_setW (k := 0) (by decide) c_r0 ?_ | refine fr_setW (k := 14) (by decide) c_r14 ?_
    | refine fr_persistCompass c_ev c_tmr c_bgLog c_r4 c_r5 ?_ | refine fr_patchesApplied c_ev c_bgLog c_sec c_r4 ?_
    | refine fr_mk rfl ?_

theorem fr_readSerials {w : Part → Bool} {o s : State} (c_r0 : w (.regs 0) = true) (h : Fr w o s) :
    Fr w o (readSerials s) := by
  rw [readSerials]
  repeat' with_reducible first | assumption | refine fr_setF 0 (by decide) c_r0 ?_ | apply fr_foldS | intro _

theorem fr_startupEnded {w : Part → Bool} {o s : State} {a1 : Nat} (c_freeCtr : w .freeCtr = true) (c_wire : w .wire = true)
    (c_host : w .host = true) (c_hif : w .hif = true) (c_ev : w .ev = true) (c_clk : w .clk = true) (c_pwr : w .pwr = true)
    (c_mer : w .mer = true) (c_tmr : w .tmr = true) (c_mem : w .mem = true) (c_prj : w .prj = true)
    (c_ports : w .ports = true) (c_sw : w .sw = true) (c_tm : w .tm = true) (c_sht : w .sht = true) (c_scr : w .scr = true)
    (c_enc : w .enc = true) (c_bgLog : w .bgLog = true) (c_bg : w .bg = true) (c_select : w .select = true)
    (c_sec : w .sec = true) (c_pins : w .pins = true) (cR : ∀ k, w (.regs k) = true) (h : Fr w o s) :
    Fr w o (startupEnded s a1) := by
  rw [startupEnded]
  repeat' with_reducible first
    | assumption | apply fr_ite | refine fr_setF_any cR ?_
    | refine fr_wakeEnded c_freeCtr c_wire c_host c_hif c_ev c_clk c_pwr c_mer c_tmr c_mem c_prj c_ports c_sw c_tm c_sht c_scr c_enc c_bgLog c_bg c_select c_sec c_pins cR ?_
    | intro _

theorem fr_enterRecovery {w : Part → Bool} {o s : State} (c_freeCtr : w .freeCtr = true) (c_wire : w .wire = true)
    (c_host : w .host = true) (c_hif : w .hif = true) (c_ev : w .ev = true) (c_clk : w .clk = true) (c_pwr : w .pwr = true)
    (c_mer : w .mer = true) (c_tmr : w .tmr = true) (c_mem : w .mem = true) (c_prj : w .prj = true)
    (c_ports : w .ports = true) (c_sw : w .sw = true) (c_tm : w .tm = true) (c_sht : w .sht = true) (c_scr : w .scr = true)
    (c_enc : w .enc = true) (c_bgLog : w .bgLog = true) (c_bg : w .bg = true) (c_select : w .select = true)
    (c_sec : w .sec = true) (c_pins : w .pins = true) (cR : ∀ k, w (.regs k) = true) (h : Fr w o s) :
    Fr w o (enterRecovery s) := by
  rw [enterRecovery]
  repeat' with_reducible first
    | assumption | apply fr_ite | refine fr_setF_any cR ?_ | refine fr_authFail c_ev c_bgLog (cR 4) (cR 13) ?_
    | refine fr_surveyFailed c_ev c_bgLog (cR 4) ?_
    | refine fr_startupEnded c_freeCtr c_wire c_host c_hif c_ev c_clk c_pwr c_mer c_tmr c_mem c_prj c_ports c_sw c_tm c_sht c_scr c_enc c_bgLog c_bg c_select c_sec c_pins cR ?_
    | intro _ | (dsimp only; split) | refine fr_mk rfl ?_

theorem fr_afterFirmware {w : Part → Bool} {o s : State} (c_ev : w .ev = true) (c_clk : w .clk = true) (c_bg : w .bg = true)
    (c_r0 : w (.regs 0) = true) (c_r1 : w (.regs 1) = true) (c_r4 : w (.regs 4) = true) (c_r15 : w (.regs 15) = true)
    (h : Fr w o s) :
    Fr w o (afterFirmware s) := by
  rw [afterFirmware]
  repeat' with_reducible first
    | assumption | apply fr_ite | refine fr_setF 1 (by decide) c_r1 ?_ | refine fr_restoreCurves c_bg c_r15 ?_
    | refine fr_readSerials c_r0 ?_ | refine fr_startSurvey c_ev c_r4 ?_ | intro _ | (dsimp only; split)
    | refine fr_mk rfl ?_

theorem fr_firmwareVerified {w : Part → Bool} {o s : State} (c_freeCtr : w .freeCtr = true) (c_wire : w .wire = true)
    (c_host : w .host = true) (c_hif : w .hif = true) (c_ev : w .ev = true) (c_clk : w .clk = true) (c_pwr : w .pwr = true)
    (c_mer : w .mer = true) (c_tmr : w .tmr = true) (c_mem : w .mem = true) (c_prj : w .prj = true)
    (c_ports : w .ports = true) (c_sw : w .sw = true) (c_tm : w .tm = true) (c_sht : w .sht = true) (c_scr : w .scr = true)
    (c_enc : w .enc = true) (c_bgLog : w .bgLog = true) (c_bg : w .bg = true) (c_select : w .select = true)
    (c_sec : w .sec = true) (c_pins : w .pins = true) (cR : ∀ k, w (.regs k) = true) (h : Fr w o s) :
    Fr w o (firmwareVerified s) := by
  rw [firmwareVerified]
  repeat' with_reducible first
    | assumption | apply fr_ite | refine fr_setF_any cR ?_ | refine fr_setB_any cR ?_ | refine fr_putDir c_sec ?_
    | refine fr_afterFirmware c_ev c_clk c_bg (cR 0) (cR 1) (cR 4) (cR 15) ?_
    | refine fr_runFirmware c_ev c_tmr c_bgLog c_select c_sec (cR 0) (cR 4) (cR 5) (cR 14) ?_
    | refine fr_enterRecovery c_freeCtr c_wire c_host c_hif c_ev c_clk c_pwr c_mer c_tmr c_mem c_prj c_ports c_sw c_tm c_sht c_scr c_enc c_bgLog c_bg c_select c_sec c_pins cR ?_
    | intro _

theorem fr_gateUnused {w : Part → Bool} {o s : State} (c_wire : w .wire = true) (c_host : w .host = true)
    (c_hif : w .hif = true) (c_ev : w .ev = true) (c_pwr : w .pwr = true) (c_mer : w .mer = true) (c_mem : w .mem = true)
    (c_prj : w .prj = true) (c_ports : w .ports = true) (c_sw : w .sw = true) (c_tm : w .tm = true) (c_sht : w .sht = true)
    (c_scr : w .scr = true) (c_enc : w .enc = true) (c_bgLog : w .bgLog = true) (c_sec : w .sec = true)
    (c_pins : w .pins = true) (cR : ∀ k, w (.regs k) = true) (h : Fr w o s) :
    Fr w o (gateUnused s) := by
  rw [gateUnused]
  repeat' with_reducible first
    | assumption | apply fr_ite
    | refine fr_gateDomain c_wire c_host c_hif c_ev c_pwr c_mer c_mem c_prj c_ports c_sw c_tm c_sht c_scr c_enc c_bgLog c_sec c_pins cR ?_
    | apply fr_foldS | intro _

theorem fr_applyStartup {w : Part → Bool} {o s : State} {a1 : Nat} (c_freeCtr : w .freeCtr = true) (c_wire : w .wire = true)
    (c_host : w .host = true) (c_hif : w .hif = true) (c_ev : w .ev = true) (c_clk : w .clk = true) (c_pwr : w .pwr = true)
    (c_mer : w .mer = true) (c_tmr : w .tmr = true) (c_mem : w .mem = true) (c_prj : w .prj = true)
    (c_ports : w .ports = true) (c_sw : w .sw = true) (c_tm : w .tm = true) (c_sht : w .sht = true) (c_scr : w .scr = true)
    (c_enc : w .enc = true) (c_bgLog : w .bgLog = true) (c_bg : w .bg = true) (c_select : w .select = true)
    (c_sec : w .sec = true) (c_pins : w .pins = true) (cR : ∀ k, w (.regs k) = true) (h : Fr w o s) :
    Fr w o (applyStartup s a1) := by
  rw [applyStartup]
  repeat' with_reducible first
    | assumption | apply fr_ite | apply fr_ite_fst | apply fr_ite_snd
    | refine fr_edActivate c_ev c_tmr c_bgLog c_sec (cR 0) (cR 4) (cR 5) ?_
    | refine fr_edApply c_wire c_host c_hif c_ev c_mer c_prj c_ports c_sw c_tm c_sht c_enc c_bgLog c_pins cR ?_
    | refine fr_startupEnded c_freeCtr c_wire c_host c_hif c_ev c_clk c_pwr c_mer c_tmr c_mem c_prj c_ports c_sw c_tm c_sht c_scr c_enc c_bgLog c_bg c_select c_sec c_pins cR ?_
    | refine fr_gateUnused c_wire c_host c_hif c_ev c_pwr c_mer c_mem c_prj c_ports c_sw c_tm c_sht c_scr c_enc c_bgLog c_sec c_pins cR ?_
    | intro _

theorem fr_enterSafe {w : Part → Bool} {o s : State} {a1 : Nat} (c_freeCtr : w .freeCtr = true) (c_wire : w .wire = true)
    (c_host : w .host = true) (c_hif : w .hif = true) (c_ev : w .ev = true) (c_clk : w .clk = true) (c_pwr : w .pwr = true)
    (c_mer : w .mer = true) (c_tmr : w .tmr = true) (c_mem : w .mem = true) (c_prj : w .prj = true)
    (c_ports : w .ports = true) (c_sw : w .sw = true) (c_tm : w .tm = true) (c_sht : w .sht = true) (c_scr : w .scr = true)
    (c_enc : w .enc = true) (c_bgLog : w .bgLog = true) (c_bg : w .bg = true) (c_select : w .select = true)
    (c_sec : w .sec = true) (c_pins : w .pins = true) (cR : ∀ k, w (.regs k) = true) (h : Fr w o s) :
    Fr w o (enterSafe s a1) := by
  rw [enterSafe]
  repeat' with_reducible first
    | assumption | refine fr_setF_any cR ?_ | refine fr_writeTmr c_ev c_tmr c_bgLog (cR 4) (cR 5) ?_
    | refine fr_startupEnded c_freeCtr c_wire c_host c_hif c_ev c_clk c_pwr c_mer c_tmr c_mem c_prj c_ports c_sw c_tm c_sht c_scr c_enc c_bgLog c_bg c_select c_sec c_pins cR ?_
    | refine fr_mk rfl ?_

theorem fr_noteSignatures {w : Part → Bool} {o s : State} {a1 : Nat} (c_ev : w .ev = true) (c_bgLog : w .bgLog = true)
    (c_r4 : w (.regs 4) = true) (c_r13 : w (.regs 13) = true) (h : Fr w o s) :
    Fr w o (noteSignatures s a1) := by
  rw [noteSignatures]
  repeat' with_reducible first
    | assumption | apply fr_ite | apply fr_ite_fst | refine fr_authFail c_ev c_bgLog c_r4 c_r13 ?_ | intro _

theorem fr_startupEditionApply {w : Part → Bool} {o s : State} (c_freeCtr : w .freeCtr = true) (c_wire : w .wire = true)
    (c_host : w .host = true) (c_hif : w .hif = true) (c_ev : w .ev = true) (c_clk : w .clk = true) (c_pwr : w .pwr = true)
    (c_mer : w .mer = true) (c_tmr : w .tmr = true) (c_mem : w .mem = true) (c_prj : w .prj = true)
    (c_ports : w .ports = true) (c_sw : w .sw = true) (c_tm : w .tm = true) (c_sht : w .sht = true) (c_scr : w .scr = true)
    (c_enc : w .enc = true) (c_bgLog : w .bgLog = true) (c_bg : w .bg = true) (c_select : w .select = true)
    (c_sec : w .sec = true) (c_pins : w .pins = true) (cR : ∀ k, w (.regs k) = true) (h : Fr w o s) :
    Fr w o (startupEditionApply s) := by
  rw [startupEditionApply.eq_def]
  repeat' with_reducible first
    | assumption | refine fr_setF_any cR ?_ | refine fr_noteSignatures c_ev c_bgLog (cR 4) (cR 13) ?_
    | refine fr_applyStartup c_freeCtr c_wire c_host c_hif c_ev c_clk c_pwr c_mer c_tmr c_mem c_prj c_ports c_sw c_tm c_sht c_scr c_enc c_bgLog c_bg c_select c_sec c_pins cR ?_
    | refine fr_enterSafe c_freeCtr c_wire c_host c_hif c_ev c_clk c_pwr c_mer c_tmr c_mem c_prj c_ports c_sw c_tm c_sht c_scr c_enc c_bgLog c_bg c_select c_sec c_pins cR ?_
    | split | (dsimp only; split)

theorem fr_beginFlash {w : Part → Bool} {o s : State} {a1 : Cmd} {a2 : Bool} {a3 : Nat} {a4 : List Byte}
    (c_sec : w .sec = true) (c_r0 : w (.regs 0) = true) (h : Fr w o s) :
    Fr w o (beginFlash s a1 a2 a3 a4) := by
  rw [beginFlash]
  repeat' with_reducible first | assumption | refine fr_emptySlot c_sec c_r0 ?_ | refine fr_mk rfl ?_

theorem fr_storeSlot {w : Part → Bool} {o s : State} {a1 : FlashJob} (c_sec : w .sec = true) (c_r0 : w (.regs 0) = true)
    (h : Fr w o s) :
    Fr w o (storeSlot s a1) := by
  rw [storeSlot]
  repeat' with_reducible first
    | assumption | apply fr_ite | refine fr_setF 0 (by decide) c_r0 ?_ | refine fr_putDir c_sec ?_ | intro _
    | (dsimp only; split) | refine fr_mk rfl ?_

theorem fr_flashDone {w : Part → Bool} {o s : State} {a1 : Bool} (c_wire : w .wire = true) (c_host : w .host = true)
    (c_hif : w .hif = true) (c_ev : w .ev = true) (c_bgLog : w .bgLog = true) (c_sec : w .sec = true)
    (c_pins : w .pins = true) (c_r0 : w (.regs 0) = true) (c_r3 : w (.regs 3) = true) (c_r4 : w (.regs 4) = true)
    (h : Fr w o s) :
    Fr w o (flashDone s a1) := by
  rw [flashDone.eq_def]
  repeat' with_reducible first
    | assumption | apply fr_ite | refine fr_completeId c_wire c_host c_hif c_ev c_bgLog c_pins c_r3 c_r4 ?_
    | refine fr_storeSlot c_sec c_r0 ?_ | refine fr_emptySlot c_sec c_r0 ?_ | intro _ | (dsimp only; split)
    | refine fr_mk rfl ?_

theorem fr_runEditionLoad {w : Part → Bool} {o s : State} {a1 : Cmd} {a2 : List Byte} (c_wire : w .wire = true)
    (c_host : w .host = true) (c_hif : w .hif = true) (c_ev : w .ev = true) (c_bgLog : w .bgLog = true)
    (c_sec : w .sec = true) (c_pins : w .pins = true) (c_r0 : w (.regs 0) = true) (c_r3 : w (.regs 3) = true)
    (c_r4 : w (.regs 4) = true) (c_r13 : w (.regs 13) = true) (h : Fr w o s) :
    Fr w o (runEditionLoad s a1 a2) := by
  rw [runEditionLoad]
  repeat' with_reducible first
    | assumption | apply fr_ite | refine fr_beginFlash c_sec c_r0 ?_
    | refine fr_complete c_wire c_host c_hif c_ev c_bgLog c_pins c_r3 c_r4 ?_
    | refine fr_authFail c_ev c_bgLog c_r4 c_r13 ?_ | intro _ | split

theorem fr_runEditionSelect {w : Part → Bool} {o s : State} {a1 : Cmd} {a2 : List Byte} (c_select : w .select = true)
    (c_r0 : w (.regs 0) = true) (h : Fr w o s) :
    Fr w o (runEditionSelect s a1 a2) := by
  rw [runEditionSelect]
  repeat' with_reducible first | assumption | refine fr_setF 0 (by decide) c_r0 ?_ | refine fr_mk rfl ?_

theorem fr_runDeferred {w : Part → Bool} {o s : State} {a1 : Nat × List Byte} (c_wire : w .wire = true)
    (c_host : w .host = true) (c_hif : w .hif = true) (c_ev : w .ev = true) (c_mer : w .mer = true) (c_prj : w .prj = true)
    (c_ports : w .ports = true) (c_sw : w .sw = true) (c_tm : w .tm = true) (c_sht : w .sht = true) (c_enc : w .enc = true)
    (c_bgLog : w .bgLog = true) (c_pins : w .pins = true) (c_r2 : w (.regs 2) = true) (c_r3 : w (.regs 3) = true)
    (c_r4 : w (.regs 4) = true) (c_r6 : w (.regs 6) = true) (c_r7 : w (.regs 7) = true) (c_r8 : w (.regs 8) = true)
    (c_r9 : w (.regs 9) = true) (c_r10 : w (.regs 10) = true) (c_r11 : w (.regs 11) = true) (c_r12 : w (.regs 12) = true)
    (h : Fr w o s) :
    Fr w o (runDeferred s a1) := by
  rw [runDeferred.eq_def]
  repeat' with_reducible first
    | assumption | apply fr_ite | apply fr_ite_fst | apply fr_ite_snd
    | refine fr_complete c_wire c_host c_hif c_ev c_bgLog c_pins c_r3 c_r4 ?_ | refine fr_putCmd c_hif ?_
    | refine fr_edRun c_wire c_host c_hif c_ev c_mer c_prj c_ports c_sw c_tm c_sht c_enc c_bgLog c_pins c_r2 c_r3 c_r4 c_r6 c_r7 c_r8 c_r9 c_r10 c_r11 c_r12 ?_
    | intro _ | split | (dsimp only; split)

theorem fr_dropSelect {w : Part → Bool} {o s : State} {a1 : Select} {a2 : Nat} {a3 : Nat} (c_wire : w .wire = true)
    (c_host : w .host = true) (c_hif : w .hif = true) (c_ev : w .ev = true) (c_mer : w .mer = true) (c_prj : w .prj = true)
    (c_ports : w .ports = true) (c_sw : w .sw = true) (c_tm : w .tm = true) (c_sht : w .sht = true) (c_enc : w .enc = true)
    (c_bgLog : w .bgLog = true) (c_select : w .select = true) (c_pins : w .pins = true) (c_r0 : w (.regs 0) = true)
    (c_r2 : w (.regs 2) = true) (c_r3 : w (.regs 3) = true) (c_r4 : w (.regs 4) = true) (c_r6 : w (.regs 6) = true)
    (c_r7 : w (.regs 7) = true) (c_r8 : w (.regs 8) = true) (c_r9 : w (.regs 9) = true) (c_r10 : w (.regs 10) = true)
    (c_r11 : w (.regs 11) = true) (c_r12 : w (.regs 12) = true) (h : Fr w o s) :
    Fr w o (dropSelect s a1 a2 a3) := by
  rw [dropSelect]
  repeat' with_reducible first
    | assumption | refine fr_setF 0 (by decide) c_r0 ?_
    | refine fr_runDeferred c_wire c_host c_hif c_ev c_mer c_prj c_ports c_sw c_tm c_sht c_enc c_bgLog c_pins c_r2 c_r3 c_r4 c_r6 c_r7 c_r8 c_r9 c_r10 c_r11 c_r12 ?_
    | refine fr_completeId c_wire c_host c_hif c_ev c_bgLog c_pins c_r3 c_r4 ?_ | apply fr_foldS | intro _
    | refine fr_mk rfl ?_

theorem fr_putSelect {w : Part → Bool} {o s : State} {a1 : Select} (c_select : w .select = true) (h : Fr w o s) :
    Fr w o (putSelect s a1) := by
  rw [putSelect]
  repeat' with_reducible first | assumption | refine fr_mk rfl ?_

theorem fr_selectComplete {w : Part → Bool} {o s : State} (c_wire : w .wire = true) (c_host : w .host = true)
    (c_hif : w .hif = true) (c_ev : w .ev = true) (c_bgLog : w .bgLog = true) (c_select : w .select = true)
    (c_pins : w .pins = true) (c_r3 : w (.regs 3) = true) (c_r4 : w (.regs 4) = true) (h : Fr w o s) :
    Fr w o (selectComplete s) := by
  rw [selectComplete.eq_def]
  repeat' with_reducible first
    | assumption | apply fr_ite | refine fr_completeId c_wire c_host c_hif c_ev c_bgLog c_pins c_r3 c_r4 ?_ | intro _
    | (dsimp only; split) | refine fr_mk rfl ?_

theorem fr_applySelect {w : Part → Bool} {o s : State} {a1 : Select} (c_wire : w .wire = true) (c_host : w .host = true)
    (c_hif : w .hif = true) (c_ev : w .ev = true) (c_mer : w .mer = true) (c_tmr : w .tmr = true) (c_prj : w .prj = true)
    (c_ports : w .ports = true) (c_sw : w .sw = true) (c_tm : w .tm = true) (c_sht : w .sht = true) (c_enc : w .enc = true)
    (c_bgLog : w .bgLog = true) (c_select : w .select = true) (c_sec : w .sec = true) (c_pins : w .pins = true)
    (cR : ∀ k, w (.regs k) = true) (h : Fr w o s) :
    Fr w o (applySelect s a1) := by
  rw [applySelect]
  repeat' with_reducible first
    | assumption | apply fr_ite | apply fr_ite_fst | apply fr_ite_snd | refine fr_setF_any cR ?_
    | refine fr_putSelect c_select ?_
    | refine fr_edApply c_wire c_host c_hif c_ev c_mer c_prj c_ports c_sw c_tm c_sht c_enc c_bgLog c_pins cR ?_
    | refine fr_edActivate c_ev c_tmr c_bgLog c_sec (cR 0) (cR 4) (cR 5) ?_
    | refine fr_selectComplete c_wire c_host c_hif c_ev c_bgLog c_select c_pins (cR 3) (cR 4) ?_
    | refine fr_runDeferred c_wire c_host c_hif c_ev c_mer c_prj c_ports c_sw c_tm c_sht c_enc c_bgLog c_pins (cR 2) (cR 3) (cR 4) (cR 6) (cR 7) (cR 8) (cR 9) (cR 10) (cR 11) (cR 12) ?_
    | apply fr_foldS | intro _

theorem fr_stageSelect {w : Part → Bool} {o s : State} {a1 : Select} {a2 : List Byte} {a3 : List Nat}
    (c_wire : w .wire = true) (c_host : w .host = true) (c_hif : w .hif = true) (c_ev : w .ev = true)
    (c_mer : w .mer = true) (c_tmr : w .tmr = true) (c_prj : w .prj = true) (c_ports : w .ports = true)
    (c_sw : w .sw = true) (c_tm : w .tm = true) (c_sht : w .sht = true) (c_enc : w .enc = true) (c_bgLog : w .bgLog = true)
    (c_select : w .select = true) (c_sec : w .sec = true) (c_pins : w .pins = true) (cR : ∀ k, w (.regs k) = true)
    (h : Fr w o s) :
    Fr w o (stageSelect s a1 a2 a3) := by
  rw [stageSelect]
  repeat' with_reducible first
    | assumption | apply fr_ite | refine fr_putSelect c_select ?_
    | refine fr_applySelect c_wire c_host c_hif c_ev c_mer c_tmr c_prj c_ports c_sw c_tm c_sht c_enc c_bgLog c_select c_sec c_pins cR ?_
    | intro _

theorem fr_stagingDone {w : Part → Bool} {o s : State} {a1 : Select} (c_wire : w .wire = true) (c_host : w .host = true)
    (c_hif : w .hif = true) (c_ev : w .ev = true) (c_mer : w .mer = true) (c_tmr : w .tmr = true) (c_prj : w .prj = true)
    (c_ports : w .ports = true) (c_sw : w .sw = true) (c_tm : w .tm = true) (c_sht : w .sht = true) (c_enc : w .enc = true)
    (c_bgLog : w .bgLog = true) (c_select : w .select = true) (c_sec : w .sec = true) (c_pins : w .pins = true)
    (cR : ∀ k, w (.regs k) = true) (h : Fr w o s) :
    Fr w o (stagingDone s a1) := by
  rw [stagingDone]
  repeat' with_reducible first
    | assumption | apply fr_ite | apply fr_ite_fst
    | refine fr_dropSelect c_wire c_host c_hif c_ev c_mer c_prj c_ports c_sw c_tm c_sht c_enc c_bgLog c_select c_pins (cR 0) (cR 2) (cR 3) (cR 4) (cR 6) (cR 7) (cR 8) (cR 9) (cR 10) (cR 11) (cR 12) ?_
    | refine fr_authFail c_ev c_bgLog (cR 4) (cR 13) ?_
    | refine fr_stageSelect c_wire c_host c_hif c_ev c_mer c_tmr c_prj c_ports c_sw c_tm c_sht c_enc c_bgLog c_select c_sec c_pins cR ?_
    | intro _ | split

theorem fr_runFwStage {w : Part → Bool} {o s : State} {a1 : Cmd} {a2 : List Byte} (c_wire : w .wire = true)
    (c_host : w .host = true) (c_hif : w .hif = true) (c_ev : w .ev = true) (c_bgLog : w .bgLog = true)
    (c_sec : w .sec = true) (c_pins : w .pins = true) (c_r0 : w (.regs 0) = true) (c_r3 : w (.regs 3) = true)
    (c_r4 : w (.regs 4) = true) (c_r13 : w (.regs 13) = true) (h : Fr w o s) :
    Fr w o (runFwStage s a1 a2) := by
  rw [runFwStage.eq_def]
  repeat' with_reducible first
    | assumption | apply fr_ite | refine fr_complete c_wire c_host c_hif c_ev c_bgLog c_pins c_r3 c_r4 ?_
    | refine fr_beginFlash c_sec c_r0 ?_ | refine fr_authFail c_ev c_bgLog c_r4 c_r13 ?_ | intro _ | split

theorem fr_setOtp {w : Part → Bool} {o s : State} {a1 : Otp} (c_sec : w .sec = true) (h : Fr w o s) :
    Fr w o (setOtp s a1) := by
  rw [setOtp]
  repeat' with_reducible first | assumption | refine fr_mk rfl ?_

theorem fr_confirmTrial {w : Part → Bool} {o s : State} {a1 : Bool} (c_sec : w .sec = true) (c_r0 : w (.regs 0) = true)
    (h : Fr w o s) :
    Fr w o (confirmTrial s a1) := by
  rw [confirmTrial]
  repeat' with_reducible first
    | assumption | apply fr_ite | refine fr_setF 0 (by decide) c_r0 ?_ | refine fr_putDir c_sec ?_
    | refine fr_setOtp c_sec ?_ | intro _

theorem fr_runFwActivate {w : Part → Bool} {o s : State} {a1 : Cmd} {a2 : List Byte} (c_wire : w .wire = true)
    (c_host : w .host = true) (c_hif : w .hif = true) (c_ev : w .ev = true) (c_bgLog : w .bgLog = true)
    (c_sec : w .sec = true) (c_pins : w .pins = true) (c_r0 : w (.regs 0) = true) (c_r3 : w (.regs 3) = true)
    (c_r4 : w (.regs 4) = true) (h : Fr w o s) :
    Fr w o (runFwActivate s a1 a2) := by
  rw [runFwActivate]
  repeat' with_reducible first
    | assumption | apply fr_ite | refine fr_setF 0 (by decide) c_r0 ?_
    | refine fr_complete c_wire c_host c_hif c_ev c_bgLog c_pins c_r3 c_r4 ?_ | refine fr_putDir c_sec ?_
    | refine fr_confirmTrial c_sec c_r0 ?_ | intro _ | (dsimp only; split) | refine fr_mk rfl ?_

theorem fr_activateReset {w : Part → Bool} {o s : State} (c_freeCtr : w .freeCtr = true) (c_wire : w .wire = true)
    (c_hif : w .hif = true) (c_ev : w .ev = true) (c_clk : w .clk = true) (c_pwr : w .pwr = true) (c_mer : w .mer = true)
    (c_tmr : w .tmr = true) (c_mem : w .mem = true) (c_prj : w .prj = true) (c_ports : w .ports = true)
    (c_sw : w .sw = true) (c_tm : w .tm = true) (c_sht : w .sht = true) (c_scr : w .scr = true) (c_enc : w .enc = true)
    (c_bgLog : w .bgLog = true) (c_bg : w .bg = true) (c_select : w .select = true) (c_sec : w .sec = true)
    (c_pins : w .pins = true) (cR : ∀ k, w (.regs k) = true) (h : Fr w o s) :
    Fr w o (activateReset s) := by
  rw [activateReset.eq_def]
  repeat' with_reducible first
    | assumption | apply fr_ite
    | refine fr_warmReset c_freeCtr c_hif c_ev c_clk c_pwr c_mer c_tmr c_mem c_prj c_ports c_sw c_tm c_sht c_scr c_enc c_bgLog c_bg c_select c_sec c_pins cR ?_
    | refine fr_stopHold c_wire ?_ | intro _ | (dsimp only; split) | refine fr_mk rfl ?_

theorem fr_runAttest {w : Part → Bool} {o s : State} {a1 : Cmd} {a2 : List Byte} (c_wire : w .wire = true)
    (c_host : w .host = true) (c_hif : w .hif = true) (c_ev : w .ev = true) (c_bgLog : w .bgLog = true)
    (c_pins : w .pins = true) (c_r3 : w (.regs 3) = true) (c_r4 : w (.regs 4) = true) (h : Fr w o s) :
    Fr w o (runAttest s a1 a2) := by
  rw [runAttest]
  repeat' with_reducible first
    | assumption | refine fr_complete c_wire c_host c_hif c_ev c_bgLog c_pins c_r3 c_r4 ?_ | refine fr_hostWrite c_host ?_

theorem fr_burnLifecycle {w : Part → Bool} {o s : State} {a1 : Nat} (c_ev : w .ev = true) (c_bgLog : w .bgLog = true)
    (c_sec : w .sec = true) (c_r4 : w (.regs 4) = true) (h : Fr w o s) :
    Fr w o (burnLifecycle s a1) := by
  rw [burnLifecycle]
  repeat' with_reducible first
    | assumption | refine fr_raiseEv c_ev c_bgLog c_r4 ?_ | refine fr_setOtp c_sec ?_

theorem fr_runLifecycle {w : Part → Bool} {o s : State} {a1 : Cmd} {a2 : List Byte} (c_wire : w .wire = true)
    (c_host : w .host = true) (c_hif : w .hif = true) (c_ev : w .ev = true) (c_bgLog : w .bgLog = true)
    (c_sec : w .sec = true) (c_pins : w .pins = true) (c_r3 : w (.regs 3) = true) (c_r4 : w (.regs 4) = true)
    (h : Fr w o s) :
    Fr w o (runLifecycle s a1 a2) := by
  rw [runLifecycle]
  repeat' with_reducible first
    | assumption | apply fr_ite | refine fr_complete c_wire c_host c_hif c_ev c_bgLog c_pins c_r3 c_r4 ?_
    | refine fr_burnLifecycle c_ev c_bgLog c_sec c_r4 ?_ | intro _

theorem fr_runOwnerBind {w : Part → Bool} {o s : State} {a1 : Cmd} {a2 : List Byte} (c_wire : w .wire = true)
    (c_host : w .host = true) (c_hif : w .hif = true) (c_ev : w .ev = true) (c_bgLog : w .bgLog = true)
    (c_sec : w .sec = true) (c_pins : w .pins = true) (c_r3 : w (.regs 3) = true) (c_r4 : w (.regs 4) = true)
    (h : Fr w o s) :
    Fr w o (runOwnerBind s a1 a2) := by
  rw [runOwnerBind]
  repeat' with_reducible first
    | assumption | apply fr_ite | refine fr_complete c_wire c_host c_hif c_ev c_bgLog c_pins c_r3 c_r4 ?_
    | refine fr_setOtp c_sec ?_ | intro _

theorem fr_setPatches {w : Part → Bool} {o s : State} {a1 : Option (List Byte)} (c_ev : w .ev = true)
    (c_tmr : w .tmr = true) (c_bgLog : w .bgLog = true) (c_sec : w .sec = true) (c_r4 : w (.regs 4) = true)
    (c_r5 : w (.regs 5) = true) (h : Fr w o s) :
    Fr w o (setPatches s a1) := by
  rw [setPatches]
  repeat' with_reducible first
    | assumption | refine fr_raiseEv c_ev c_bgLog c_r4 ?_ | refine fr_persistCompass c_ev c_tmr c_bgLog c_r4 c_r5 ?_
    | refine fr_patchNano c_sec ?_ | refine fr_mk rfl ?_

theorem fr_runPatchLoad {w : Part → Bool} {o s : State} {a1 : Cmd} {a2 : List Byte} (c_wire : w .wire = true)
    (c_host : w .host = true) (c_hif : w .hif = true) (c_ev : w .ev = true) (c_tmr : w .tmr = true)
    (c_bgLog : w .bgLog = true) (c_sec : w .sec = true) (c_pins : w .pins = true) (c_r3 : w (.regs 3) = true)
    (c_r4 : w (.regs 4) = true) (c_r5 : w (.regs 5) = true) (h : Fr w o s) :
    Fr w o (runPatchLoad s a1 a2) := by
  rw [runPatchLoad]
  repeat' with_reducible first
    | assumption | apply fr_ite | refine fr_complete c_wire c_host c_hif c_ev c_bgLog c_pins c_r3 c_r4 ?_
    | refine fr_setPatches c_ev c_tmr c_bgLog c_sec c_r4 c_r5 ?_ | intro _

end Sys2Proof.Machine
end

