-- ==== Sys2Proof/Laws/FrameRegAccess.lean ====
section
/-!
SUPPORT. What the operations of Machine/RegAccess.lean leave as it was.
-/

set_option Elab.async false

namespace Sys2Proof.Machine

theorem fr_storeLimit {w : Part → Bool} {o s : State} {a1 : Nat} {a2 : Fld × Nat × Nat} (cR : ∀ k, w (.regs k) = true)
    (h : Fr w o s) :
    Fr w o (storeLimit s a1 a2) := by
  rw [storeLimit]
  repeat' with_reducible first | assumption | refine fr_setF_any cR ?_

theorem fr_plainWrite {w : Part → Bool} {o s : State} {a1 : RegD} {a2 : Nat} {a3 : Nat} {a4 : Nat} {a5 : Nat}
    (cR : ∀ k, w (.regs k) = true) (h : Fr w o s) :
    Fr w o (plainWrite s a1 a2 a3 a4 a5) := by
  rw [plainWrite]
  repeat' with_reducible first
    | assumption | refine fr_setW_any cR ?_ | refine fr_storeLimit cR ?_ | apply fr_foldS | intro _

theorem fr_srcCfgWrite {w : Part → Bool} {o s : State} {a1 : Nat} {a2 : Nat} (c_ev : w .ev = true)
    (c_r4 : w (.regs 4) = true) (h : Fr w o s) :
    Fr w o (srcCfgWrite s a1 a2) := by
  rw [srcCfgWrite]
  repeat' with_reducible first
    | assumption | apply fr_ite | refine fr_setF 4 (by decide) c_r4 ?_ | refine fr_setB 4 (by decide) c_r4 ?_
    | refine fr_setSrc c_ev ?_ | intro _

theorem fr_headroomWrite {w : Part → Bool} {o s : State} {a1 : Nat} (c_r11 : w (.regs 11) = true) (h : Fr w o s) :
    Fr w o (headroomWrite s a1) := by
  rw [headroomWrite]
  repeat' with_reducible first | assumption | apply fr_ite | refine fr_setF 11 (by decide) c_r11 ?_ | intro _

theorem fr_mftWrite {w : Part → Bool} {o s : State} {a1 : Nat} {a2 : Nat} (c_mer : w .mer = true) (h : Fr w o s) :
    Fr w o (mftWrite s a1 a2) := by
  rw [mftWrite]
  repeat' with_reducible first | assumption | apply fr_ite | intro _ | (dsimp only; split) | refine fr_mk rfl ?_

theorem fr_adjWordWrite {w : Part → Bool} {o s : State} {a1 : Nat} {a2 : Nat} (c_r9 : w (.regs 9) = true) (h : Fr w o s) :
    Fr w o (adjWordWrite s a1 a2) := by
  rw [adjWordWrite]
  repeat' with_reducible first | assumption | apply fr_ite | refine fr_freqAdjWrite c_r9 ?_ | intro _

theorem fr_vectorWrite {w : Part → Bool} {o s : State} {a1 : Nat} {a2 : Nat} (c_wire : w .wire = true)
    (c_hif : w .hif = true) (c_pins : w .pins = true) (c_r3 : w (.regs 3) = true) (h : Fr w o s) :
    Fr w o (vectorWrite s a1 a2) := by
  rw [vectorWrite]
  repeat' with_reducible first
    | assumption | apply fr_ite | refine fr_setVec c_hif ?_ | refine fr_vectorMask c_wire c_hif c_pins c_r3 ?_ | intro _

theorem fr_systemWrite {w : Part → Bool} {o s : State} {a1 : RegD} {a2 : Nat} {a3 : Nat} {a4 : Nat} {a5 : Nat}
    (c_freeCtr : w .freeCtr = true) (c_wire : w .wire = true) (c_host : w .host = true) (c_hif : w .hif = true)
    (c_ev : w .ev = true) (c_clk : w .clk = true) (c_pwr : w .pwr = true) (c_mer : w .mer = true) (c_tmr : w .tmr = true)
    (c_mem : w .mem = true) (c_prj : w .prj = true) (c_ports : w .ports = true) (c_sw : w .sw = true) (c_tm : w .tm = true)
    (c_sht : w .sht = true) (c_scr : w .scr = true) (c_enc : w .enc = true) (c_bgLog : w .bgLog = true)
    (c_bg : w .bg = true) (c_select : w .select = true) (c_sec : w .sec = true) (c_pins : w .pins = true)
    (cR : ∀ k, w (.regs k) = true) (h : Fr w o s) :
    FrOpt w o (systemWrite s a1 a2 a3 a4 a5) := by
  rw [systemWrite]
  repeat' with_reducible first
    | assumption | apply frOpt_none | apply frOpt_ite | apply frOpt_some | apply fr_ite | refine fr_setF_any cR ?_
    | refine fr_pllFreqWrite c_clk (cR 1) ?_ | refine fr_measWrite c_clk (cR 1) ?_
    | refine fr_rstCtrlWrite c_freeCtr c_hif c_ev c_clk c_pwr c_mer c_tmr c_mem c_prj c_ports c_sw c_tm c_sht c_scr c_enc c_bgLog c_bg c_select c_sec c_pins cR ?_
    | refine fr_domainGo c_wire c_host c_hif c_ev c_clk c_pwr c_mer c_mem c_prj c_ports c_sw c_tm c_sht c_scr c_enc c_bgLog c_bg c_select c_sec c_pins cR ?_
    | refine fr_plainWrite cR ?_ | refine fr_sqCtrlWrite c_wire c_host c_hif c_ev c_bgLog c_pins (cR 3) (cR 4) ?_
    | refine fr_cqCfgWrite c_hif c_ev c_bgLog (cR 3) (cR 4) ?_ | refine fr_srcCfgWrite c_ev (cR 4) ?_
    | refine fr_srcAck c_ev (cR 4) ?_ | refine fr_firstClear c_ev c_tmr c_bgLog (cR 4) (cR 5) ?_
    | refine fr_fltTest c_freeCtr c_wire c_host c_hif c_ev c_clk c_pwr c_mer c_tmr c_mem c_prj c_ports c_sw c_tm c_sht c_scr c_enc c_bgLog c_bg c_select c_sec c_pins cR ?_
    | refine fr_stickyWrite c_wire c_host c_hif c_ev c_clk c_pwr c_mer c_mem c_prj c_ports c_sw c_tm c_sht c_scr c_enc c_bgLog c_bg c_select c_sec c_pins cR ?_
    | refine fr_flipCtrlWrite (cR 5) ?_ | refine fr_startPass c_bg (cR 15) ?_ | refine fr_wallLoad (cR 15) ?_ | intro _

theorem fr_unitWrite {w : Part → Bool} {o s : State} {a1 : RegD} {a2 : Nat} {a3 : Nat} {a4 : Nat} {a5 : Nat}
    (c_wire : w .wire = true) (c_host : w .host = true) (c_hif : w .hif = true) (c_ev : w .ev = true)
    (c_mer : w .mer = true) (c_prj : w .prj = true) (c_ports : w .ports = true) (c_sw : w .sw = true) (c_tm : w .tm = true)
    (c_sht : w .sht = true) (c_scr : w .scr = true) (c_enc : w .enc = true) (c_bgLog : w .bgLog = true)
    (c_pins : w .pins = true) (cR : ∀ k, w (.regs k) = true) (h : Fr w o s) :
    FrOpt w o (unitWrite s a1 a2 a3 a4 a5) := by
  rw [unitWrite]
  repeat' with_reducible first
    | assumption | apply frOpt_none | apply frOpt_ite | apply frOpt_some | apply fr_ite | refine fr_setF_any cR ?_
    | refine fr_encRefresh c_enc ?_ | refine fr_coefWrite c_ev c_prj c_bgLog (cR 4) ?_ | refine fr_plainWrite cR ?_
    | refine fr_merCtrlWrite c_ev c_mer c_bgLog (cR 4) (cR 9) ?_
    | refine fr_timeCmd c_wire c_host c_hif c_ev c_mer c_prj c_ports c_sw c_tm c_sht c_scr c_enc c_bgLog c_pins (cR 3) (cR 4) (cR 6) (cR 7) (cR 8) (cR 9) (cR 10) (cR 11) (cR 12) ?_
    | refine fr_mftWrite c_mer ?_ | refine fr_adjWordWrite (cR 9) ?_
    | refine fr_servoOffsetWrite c_wire c_host c_hif c_ev c_mer c_prj c_ports c_sw c_tm c_sht c_scr c_enc c_bgLog c_pins (cR 3) (cR 4) (cR 6) (cR 7) (cR 8) (cR 9) (cR 10) (cR 11) (cR 12) ?_
    | refine fr_ptpCtrlWrite c_ev c_mer c_bgLog (cR 4) (cR 9) ?_ | refine fr_bmca c_ev c_mer c_bgLog (cR 4) (cR 9) ?_
    | refine fr_ptpPortWrite c_ev c_mer c_bgLog (cR 4) (cR 9) ?_
    | refine fr_trigCtrlWrite c_ev c_mer c_ports c_bgLog (cR 4) (cR 9) ?_ | refine fr_trigFieldWrite c_ev c_bgLog cR ?_
    | refine fr_headroomWrite (cR 11) ?_ | intro _

theorem fr_regWrite {w : Part → Bool} {o s : State} {a1 : Nat} {a2 : Nat} (c_freeCtr : w .freeCtr = true)
    (c_wire : w .wire = true) (c_host : w .host = true) (c_hif : w .hif = true) (c_ev : w .ev = true)
    (c_clk : w .clk = true) (c_pwr : w .pwr = true) (c_mer : w .mer = true) (c_tmr : w .tmr = true) (c_mem : w .mem = true)
    (c_prj : w .prj = true) (c_ports : w .ports = true) (c_sw : w .sw = true) (c_tm : w .tm = true) (c_sht : w .sht = true)
    (c_scr : w .scr = true) (c_enc : w .enc = true) (c_bgLog : w .bgLog = true) (c_bg : w .bg = true)
    (c_select : w .select = true) (c_sec : w .sec = true) (c_pins : w .pins = true) (cR : ∀ k, w (.regs k) = true)
    (h : Fr w o s) :
    Fr w o (regWrite s a1 a2) := by
  rw [regWrite]
  repeat' with_reducible first
    | assumption | apply fr_ite | refine fr_vectorWrite c_wire c_hif c_pins (cR 3) ?_
    | refine fr_of_opt (fr_systemWrite c_freeCtr c_wire c_host c_hif c_ev c_clk c_pwr c_mer c_tmr c_mem c_prj c_ports c_sw c_tm c_sht c_scr c_enc c_bgLog c_bg c_select c_sec c_pins cR ?_) (by assumption)
    | refine fr_of_opt (fr_unitWrite c_wire c_host c_hif c_ev c_mer c_prj c_ports c_sw c_tm c_sht c_scr c_enc c_bgLog c_pins cR ?_) (by assumption)
    | refine fr_plainWrite cR ?_ | apply fr_getD | apply frOpt_orElse
    | refine fr_systemWrite c_freeCtr c_wire c_host c_hif c_ev c_clk c_pwr c_mer c_tmr c_mem c_prj c_ports c_sw c_tm c_sht c_scr c_enc c_bgLog c_bg c_select c_sec c_pins cR ?_
    | refine fr_unitWrite c_wire c_host c_hif c_ev c_mer c_prj c_ports c_sw c_tm c_sht c_scr c_enc c_bgLog c_pins cR ?_
    | intro _ | split

theorem fr_unitRead {w : Part → Bool} {o s : State} {a1 : Nat} (c_ev : w .ev = true) (c_mer : w .mer = true)
    (c_tm : w .tm = true) (c_scr : w .scr = true) (c_r4 : w (.regs 4) = true) (h : Fr w o s) :
    FrOpt w o (unitRead s a1) := by
  rw [unitRead]
  repeat' with_reducible first
    | assumption | apply frOpt_none | apply frOpt_ite | apply frOpt_some | apply fr_ite | refine fr_evqDrop c_ev c_r4 ?_
    | refine fr_captureDrop c_mer ?_ | refine fr_setStream c_scr ?_ | refine fr_setMeter c_tm ?_ | intro _
    | (dsimp only; split) | refine fr_mk rfl ?_

theorem fr_clearRc {w : Part → Bool} {o s : State} {a1 : Nat} (cR : ∀ k, w (.regs k) = true) (h : Fr w o s) :
    Fr w o (clearRc s a1) := by
  rw [clearRc.eq_def]
  repeat' with_reducible first | assumption | apply fr_ite | refine fr_setW_any cR ?_ | intro _ | split

theorem fr_readEffect {w : Part → Bool} {o s : State} {a1 : Nat} (c_ev : w .ev = true) (c_mer : w .mer = true)
    (c_tm : w .tm = true) (c_scr : w .scr = true) (cR : ∀ k, w (.regs k) = true) (h : Fr w o s) :
    Fr w o (readEffect s a1) := by
  rw [readEffect]
  repeat' with_reducible first
    | assumption | refine fr_of_opt (fr_unitRead c_ev c_mer c_tm c_scr (cR 4) ?_) (by assumption) | refine fr_clearRc cR ?_
    | apply fr_getD | apply frOpt_orElse | refine fr_unitRead c_ev c_mer c_tm c_scr (cR 4) ?_

theorem fr_regRead {w : Part → Bool} {o s : State} {a1 : Nat} (c_wire : w .wire = true) (c_ev : w .ev = true)
    (c_mer : w .mer = true) (c_tm : w .tm = true) (c_scr : w .scr = true) (cR : ∀ k, w (.regs k) = true) (h : Fr w o s) :
    Fr w o (regRead s a1) := by
  rw [regRead]
  repeat' with_reducible first
    | assumption | refine fr_readEffect c_ev c_mer c_tm c_scr cR ?_ | refine fr_emit c_wire ?_

theorem fr_reachReg {w : Part → Bool} {o s : State} {a1 : Nat} {a2 : Option Nat} (c_freeCtr : w .freeCtr = true)
    (c_wire : w .wire = true) (c_host : w .host = true) (c_hif : w .hif = true) (c_ev : w .ev = true)
    (c_clk : w .clk = true) (c_pwr : w .pwr = true) (c_mer : w .mer = true) (c_tmr : w .tmr = true) (c_mem : w .mem = true)
    (c_prj : w .prj = true) (c_ports : w .ports = true) (c_sw : w .sw = true) (c_tm : w .tm = true) (c_sht : w .sht = true)
    (c_scr : w .scr = true) (c_enc : w .enc = true) (c_bgLog : w .bgLog = true) (c_bg : w .bg = true)
    (c_select : w .select = true) (c_sec : w .sec = true) (c_pins : w .pins = true) (cR : ∀ k, w (.regs k) = true)
    (h : Fr w o s) :
    Fr w o (reachReg s a1 a2) := by
  rw [reachReg.eq_def]
  repeat' with_reducible first
    | assumption | refine fr_regRead c_wire c_ev c_mer c_tm c_scr cR ?_
    | refine fr_regWrite c_freeCtr c_wire c_host c_hif c_ev c_clk c_pwr c_mer c_tmr c_mem c_prj c_ports c_sw c_tm c_sht c_scr c_enc c_bgLog c_bg c_select c_sec c_pins cR ?_
    | split

theorem fr_holdAccess {w : Part → Bool} {o s : State} {a1 : Nat} {a2 : Nat} {a3 : Option Nat} (c_pwr : w .pwr = true)
    (h : Fr w o s) :
    Fr w o (holdAccess s a1 a2 a3) := by
  rw [holdAccess]
  repeat' with_reducible first | assumption | refine fr_mk rfl ?_

theorem fr_busAccess {w : Part → Bool} {o s : State} {a1 : Nat} {a2 : Option Nat} (c_freeCtr : w .freeCtr = true)
    (c_wire : w .wire = true) (c_host : w .host = true) (c_hif : w .hif = true) (c_ev : w .ev = true)
    (c_clk : w .clk = true) (c_pwr : w .pwr = true) (c_mer : w .mer = true) (c_tmr : w .tmr = true) (c_mem : w .mem = true)
    (c_prj : w .prj = true) (c_ports : w .ports = true) (c_sw : w .sw = true) (c_tm : w .tm = true) (c_sht : w .sht = true)
    (c_scr : w .scr = true) (c_enc : w .enc = true) (c_bgLog : w .bgLog = true) (c_bg : w .bg = true)
    (c_select : w .select = true) (c_sec : w .sec = true) (c_pins : w .pins = true) (cR : ∀ k, w (.regs k) = true)
    (h : Fr w o s) :
    Fr w o (busAccess s a1 a2) := by
  rw [busAccess]
  repeat' with_reducible first
    | assumption | apply fr_ite | refine fr_barViolation c_wire c_hif c_ev c_bgLog (cR 3) (cR 4) ?_
    | refine fr_unmappedAccess c_wire c_ev c_bgLog (cR 3) (cR 4) ?_
    | refine fr_reachReg c_freeCtr c_wire c_host c_hif c_ev c_clk c_pwr c_mer c_tmr c_mem c_prj c_ports c_sw c_tm c_sht c_scr c_enc c_bgLog c_bg c_select c_sec c_pins cR ?_
    | refine fr_holdAccess c_pwr ?_ | refine fr_setDomain (cR 2) ?_
    | refine fr_standInAccess c_wire c_ev c_bgLog (cR 2) (cR 4) ?_ | intro _

theorem fr_pairAccess {w : Part → Bool} {o s : State} {a1 : Nat} {a2 : Option Nat} (c_freeCtr : w .freeCtr = true)
    (c_wire : w .wire = true) (c_host : w .host = true) (c_hif : w .hif = true) (c_ev : w .ev = true)
    (c_clk : w .clk = true) (c_pwr : w .pwr = true) (c_mer : w .mer = true) (c_tmr : w .tmr = true) (c_mem : w .mem = true)
    (c_prj : w .prj = true) (c_ports : w .ports = true) (c_sw : w .sw = true) (c_tm : w .tm = true) (c_sht : w .sht = true)
    (c_scr : w .scr = true) (c_enc : w .enc = true) (c_bgLog : w .bgLog = true) (c_bg : w .bg = true)
    (c_select : w .select = true) (c_sec : w .sec = true) (c_pins : w .pins = true) (cR : ∀ k, w (.regs k) = true)
    (h : Fr w o s) :
    Fr w o (pairAccess s a1 a2) := by
  rw [pairAccess]
  repeat' with_reducible first
    | assumption | apply fr_ite | refine fr_barViolation c_wire c_hif c_ev c_bgLog (cR 3) (cR 4) ?_
    | refine fr_busAccess c_freeCtr c_wire c_host c_hif c_ev c_clk c_pwr c_mer c_tmr c_mem c_prj c_ports c_sw c_tm c_sht c_scr c_enc c_bgLog c_bg c_select c_sec c_pins cR ?_
    | intro _ | split | (dsimp only; split)

theorem fr_bar4Access {w : Part → Bool} {o s : State} {a1 : Nat} {a2 : Nat} {a3 : Nat} {a4 : Option Nat}
    (c_freeCtr : w .freeCtr = true) (c_wire : w .wire = true) (c_hif : w .hif = true) (c_ev : w .ev = true)
    (c_tmr : w .tmr = true) (c_mem : w .mem = true) (c_bgLog : w .bgLog = true) (c_r3 : w (.regs 3) = true)
    (c_r4 : w (.regs 4) = true) (c_r5 : w (.regs 5) = true) (h : Fr w o s) :
    Fr w o (bar4Access s a1 a2 a3 a4) := by
  rw [bar4Access]
  repeat' with_reducible first
    | assumption | apply fr_ite | refine fr_windowAccess c_freeCtr c_wire c_ev c_tmr c_mem c_bgLog c_r4 c_r5 ?_
    | refine fr_noteWait c_ev c_mem c_bgLog c_r4 c_r5 ?_ | refine fr_barViolation c_wire c_hif c_ev c_bgLog c_r3 c_r4 ?_
    | intro _ | split | (dsimp only; split)

theorem fr_domainAwake {w : Part → Bool} {o s : State} {a1 : Nat} (c_freeCtr : w .freeCtr = true) (c_wire : w .wire = true)
    (c_host : w .host = true) (c_hif : w .hif = true) (c_ev : w .ev = true) (c_clk : w .clk = true) (c_pwr : w .pwr = true)
    (c_mer : w .mer = true) (c_tmr : w .tmr = true) (c_mem : w .mem = true) (c_prj : w .prj = true)
    (c_ports : w .ports = true) (c_sw : w .sw = true) (c_tm : w .tm = true) (c_sht : w .sht = true) (c_scr : w .scr = true)
    (c_enc : w .enc = true) (c_bgLog : w .bgLog = true) (c_bg : w .bg = true) (c_select : w .select = true)
    (c_sec : w .sec = true) (c_pins : w .pins = true) (cR : ∀ k, w (.regs k) = true) (h : Fr w o s) :
    Fr w o (domainAwake s a1) := by
  rw [domainAwake.eq_def]
  repeat' with_reducible first
    | assumption | apply fr_ite | refine fr_setDomain (cR 2) ?_ | refine fr_setCoreState (cR 6) ?_
    | refine fr_reachReg c_freeCtr c_wire c_host c_hif c_ev c_clk c_pwr c_mer c_tmr c_mem c_prj c_ports c_sw c_tm c_sht c_scr c_enc c_bgLog c_bg c_select c_sec c_pins cR ?_
    | refine fr_raiseEv c_ev c_bgLog (cR 4) ?_
    | refine fr_entryOk c_wire c_host c_hif c_ev c_tmr c_bgLog c_pins (cR 2) (cR 3) (cR 4) (cR 5) ?_
    | refine fr_clearEntry c_pwr (cR 2) ?_ | apply fr_foldS | intro _ | split | (dsimp only; split) | refine fr_mk rfl ?_

end Sys2Proof.Machine
end

