-- ==== Sys2Proof/Laws/FrameSmbus.lean ====
section
/-!
SUPPORT. What the operations of Machine/Smbus.lean leave as it was.
-/

set_option Elab.async false

namespace Sys2Proof.Machine

theorem fr_smbAnswer {w : Part → Bool} {o s : State} {a1 : Nat} (c_wire : w .wire = true) (h : Fr w o s) :
    Fr w o (smbAnswer s a1) := by
  rw [smbAnswer]
  repeat' with_reducible first | assumption | refine fr_emit c_wire ?_

theorem fr_smbAccess {w : Part → Bool} {o s : State} {a1 : Nat} {a2 : Option Nat} (c_freeCtr : w .freeCtr = true)
    (c_wire : w .wire = true) (c_host : w .host = true) (c_hif : w .hif = true) (c_ev : w .ev = true)
    (c_clk : w .clk = true) (c_pwr : w .pwr = true) (c_mer : w .mer = true) (c_tmr : w .tmr = true) (c_mem : w .mem = true)
    (c_prj : w .prj = true) (c_ports : w .ports = true) (c_sw : w .sw = true) (c_tm : w .tm = true) (c_sht : w .sht = true)
    (c_scr : w .scr = true) (c_enc : w .enc = true) (c_bgLog : w .bgLog = true) (c_bg : w .bg = true)
    (c_select : w .select = true) (c_sec : w .sec = true) (c_pins : w .pins = true) (cR : ∀ k, w (.regs k) = true)
    (h : Fr w o s) :
    Fr w o (smbAccess s a1 a2) := by
  rw [smbAccess.eq_def]
  repeat' with_reducible first
    | assumption | apply fr_ite | apply fr_ite_fst | apply fr_ite_snd
    | refine fr_unmappedAccess c_wire c_ev c_bgLog (cR 3) (cR 4) ?_ | refine fr_smbAnswer c_wire ?_
    | refine fr_freshIndex c_freeCtr ?_ | refine fr_standInAccess c_wire c_ev c_bgLog (cR 2) (cR 4) ?_
    | refine fr_regWrite c_freeCtr c_wire c_host c_hif c_ev c_clk c_pwr c_mer c_tmr c_mem c_prj c_ports c_sw c_tm c_sht c_scr c_enc c_bgLog c_bg c_select c_sec c_pins cR ?_
    | refine fr_readEffect c_ev c_mer c_tm c_scr cR ?_ | intro _ | split

theorem fr_smbAdvance {w : Part → Bool} {o s : State} {a1 : Nat} (c_sec : w .sec = true) (h : Fr w o s) :
    Fr w o (smbAdvance s a1) := by
  rw [smbAdvance]
  repeat' with_reducible first | assumption | refine fr_mk rfl ?_

end Sys2Proof.Machine
end

