-- ==== Sys2Proof/Laws/HostMemory.lean ====
section
/-!
SUPPORT. Host memory: what is read after a write.
-/

set_option Elab.async false

namespace Sys2Proof.Machine

theorem memByte_writeByte_same (m : List Host.Cell) (a : Nat) (b : Byte) : memByte (memWriteByte m a b) a = b :=
  SMap.get_set_same _ _ _ _

theorem memByte_writeByte_ne (m : List Host.Cell) {a x : Nat} (b : Byte) (h : x ≠ a) : memByte (memWriteByte m a b) x = memByte m x :=
  SMap.get_set_ne _ _ _ _ h

theorem memByte_write_out {m : List Host.Cell} {a x : Nat} {b : List Byte} (h : x < a ∨ a + b.length ≤ x) :
    memByte (memWrite m a b) x = memByte m x := by
  induction b generalizing m a with
  | nil => rfl
  | cons y t ih =>
    have hl : (y :: t).length = t.length + 1 := rfl
    rw [memWrite, ih (by omega), memByte_writeByte_ne _ _ (by omega)]

theorem memRead_write (m : List Host.Cell) (a : Nat) (b : List Byte) : memRead (memWrite m a b) a b.length = b := by
  induction b generalizing m a with
  | nil => rfl
  | cons y t ih =>
    have hl : (y :: t).length = t.length + 1 := rfl
    rw [memWrite, hl, memRead, ih, memByte_write_out (by omega), memByte_writeByte_same]

theorem stores_hostWrite (s : State) (a : Nat) (b : List Byte) : StoresBytes a b s (hostWrite s a b) :=
  ⟨memRead_write _ _ _, fun _ h => memByte_write_out h⟩

end Sys2Proof.Machine
end

