-- ==== Sys2Proof/Laws/KeepOps.lean ====
section
/-!
SUPPORT. What the operations of Machine/Ops.lean keep.
-/

set_option Elab.async false

namespace Sys2Proof.Machine

theorem keep_setRegsNat {o s : State} {a1 : Nat} {a2 : Nat} {a3 : Nat} (h : Keep o s) :
    Keep o (setRegsNat s a1 a2 a3) := by
  induction a3 generalizing s a1 a2 with
  | zero => exact h
  | succ k ih =>
    rw [setRegsNat]
    repeat' with_reducible first | assumption | apply ih | apply keep_setW

theorem keep_setF {o s : State} {a1 : Fld} {a2 : Nat} {a3 : Nat} (h : Keep o s) :
    Keep o (setF s a1 a2 a3) := by
  rw [setF]
  repeat' with_reducible first | assumption | apply keep_ite | apply keep_setRegsNat | intro _

theorem keep_setB {o s : State} {a1 : Fld} {a2 : Nat} {a3 : Bool} (h : Keep o s) :
    Keep o (setB s a1 a2 a3) := by
  rw [setB]
  repeat' with_reducible first | assumption | apply keep_setF

theorem keep_setS {o s : State} {a1 : Fld} {a2 : Nat} {a3 : Int} (h : Keep o s) :
    Keep o (setS s a1 a2 a3) := by
  rw [setS]
  repeat' with_reducible first | assumption | apply keep_setF

theorem keep_addF {o s : State} {a1 : Fld} {a2 : optParam Nat 0} {a3 : optParam Nat 1} (h : Keep o s) :
    Keep o (addF s a1 a2 a3) := by
  rw [addF]
  repeat' with_reducible first | assumption | apply keep_setF

theorem keep_addT {o s : State} {a1 : Nat} {a2 : optParam Nat 1} (h : Keep o s) :
    Keep o (addT s a1 a2) := by
  rw [addT]
  repeat' with_reducible first
    | assumption | refine keep_mk rfl rfl rfl rfl rfl rfl rfl rfl rfl rfl rfl rfl ?_

theorem keep_hostStores {o s : State} {a1 : List (Nat × List Byte)} (h : Keep o s) :
    Keep o (hostStores s a1) := by
  rw [hostStores]
  repeat' with_reducible first
    | assumption | apply keep_hostWrite | apply keep_foldl | apply keep_foldl_fst | apply keep_foldl_snd | intro _

theorem keep_setDomain {o s : State} {a1 : Nat} {a2 : Nat} (h : Keep o s) :
    Keep o (setDomain s a1 a2) := by
  rw [setDomain]
  repeat' with_reducible first | assumption | apply keep_setF

theorem keep_freshIndex {o s : State} (h : Keep o s) : Keep o (freshIndex s).2 := keep_free h

theorem keep_setTmrCopies {o s : State} {a1 : Nat} {a2 : Nat × Nat × Nat} (h : Keep o s) :
    Keep o (setTmrCopies s a1 a2) := by
  rw [setTmrCopies]
  repeat' with_reducible first
    | assumption | refine keep_mk rfl rfl rfl rfl rfl rfl rfl rfl rfl rfl rfl rfl ?_

end Sys2Proof.Machine
end

