-- ==== Sys2Proof/Laws/KeepFlags.lean ====
section
/-!
SUPPORT. What the operations of Machine/Flags.lean keep.
-/

set_option Elab.async false

namespace Sys2Proof.Machine

theorem keep_setVec {o s : State} {a1 : Nat} {a2 : Vec} (h : Keep o s) :
    Keep o (setVec s a1 a2) := by
  rw [setVec]
  repeat' with_reducible first
    | assumption | apply keep_ite | intro _ | (dsimp only; split)
    | refine keep_mk rfl rfl rfl rfl rfl rfl rfl rfl rfl rfl rfl rfl ?_

theorem keep_requestPme {o s : State}  (h : Keep o s) :
    Keep o (requestPme s) := by
  rw [requestPme]
  repeat' with_reducible first
    | assumption | apply keep_ite | apply keep_emit | intro _ | (dsimp only; split)
    | refine keep_mk rfl rfl rfl rfl rfl rfl rfl rfl rfl rfl rfl rfl ?_

theorem keep_exitL1 {o s : State}  (h : Keep o s) :
    Keep o (exitL1 s) := by
  rw [exitL1]
  repeat' with_reducible first | assumption | apply keep_setF

theorem keep_sendVector {o s : State} {a1 : Nat} (h : Keep o s) :
    Keep o (sendVector s a1) := by
  rw [sendVector]
  repeat' with_reducible first
    | assumption | apply keep_ite | apply keep_setVec | apply keep_emit | apply keep_exitL1 | apply keep_requestPme
    | intro _

theorem keep_fireVector {o s : State} {a1 : Nat} (h : Keep o s) :
    Keep o (fireVector s a1) := by
  rw [fireVector]
  repeat' with_reducible first | assumption | apply keep_setF | apply keep_sendVector | apply keep_setVec

theorem keep_countVector {o s : State} {a1 : Nat} (h : Keep o s) :
    Keep o (countVector s a1).1 := by
  rw [countVector]
  repeat' with_reducible first
    | assumption | apply keep_ite | apply keep_ite_fst | apply keep_setF | apply keep_fireVector | apply keep_setVec
    | intro _

theorem keep_setSrc {o s : State} {a1 : Nat} {a2 : Src} (h : Keep o s) :
    Keep o (setSrc s a1 a2) := by
  rw [setSrc]
  repeat' with_reducible first
    | assumption | refine keep_mk rfl rfl rfl rfl rfl rfl rfl rfl rfl rfl rfl rfl ?_

theorem keep_senseSource {o s : State} {a1 : Nat} {a2 : Nat} {a3 : Nat} (h : Keep o s) :
    Keep o (senseSource s a1 a2 a3) := by
  rw [senseSource]
  repeat' with_reducible first | assumption | apply keep_ite | apply keep_setF | apply keep_setSrc | intro _

theorem keep_logOccurrence {o s : State} {a1 : Nat} {a2 : Nat} {a3 : Nat} (h : Keep o s) :
    Keep o (logOccurrence s a1 a2 a3) := by
  rw [logOccurrence]
  repeat' with_reducible first
    | assumption | apply keep_ite | apply keep_log | intro _ | (dsimp only; split)
    | refine keep_mk rfl rfl rfl rfl rfl rfl rfl rfl rfl rfl rfl rfl ?_

theorem keep_occur {o s : State} {a1 : Nat} {a2 : Nat} {a3 : Nat} {a4 : Edge} (h : Keep o s) :
    Keep o (occur s a1 a2 a3 a4) := by
  rw [occur]
  repeat' with_reducible first
    | assumption | apply keep_ite | apply keep_senseSource | apply keep_logOccurrence | intro _

theorem keep_raiseEv {o s : State} {a1 : Nat} {a2 : optParam Nat 0} {a3 : optParam Nat 0} (h : Keep o s) :
    Keep o (raiseEv s a1 a2 a3) := by
  rw [raiseEv]
  repeat' with_reducible first | assumption | apply keep_occur

theorem keep_setSticky {o s : State} {a1 : Nat} {a2 : Bool} (h : Keep o s) :
    Keep o (setSticky s a1 a2) := by
  rw [setSticky]
  repeat' with_reducible first | assumption | apply keep_setF

theorem keep_setLevel {o s : State} {a1 : Nat} {a2 : Bool} (h : Keep o s) :
    Keep o (setLevel s a1 a2) := by
  rw [setLevel]
  repeat' with_reducible first
    | assumption | refine keep_mk rfl rfl rfl rfl rfl rfl rfl rfl rfl rfl rfl rfl ?_

theorem keep_faultRecord {o s : State} {a1 : Nat} {a2 : Nat} {a3 : Nat} (h : Keep o s) :
    Keep o (faultRecord s a1 a2 a3) := by
  rw [faultRecord]
  repeat' with_reducible first
    | assumption | apply keep_ite | apply keep_setSticky | apply keep_occur | apply keep_setLevel | intro _

theorem keep_causeEnds {o s : State} {a1 : Nat} (h : Keep o s) :
    Keep o (causeEnds s a1) := by
  rw [causeEnds]
  repeat' with_reducible first | assumption | apply keep_ite | apply keep_occur | apply keep_setLevel | intro _

theorem keep_raiseCe {o s : State} {a1 : Nat} {a2 : optParam Nat 0} {a3 : optParam Nat 0} (h : Keep o s) :
    Keep o (raiseCe s a1 a2 a3) := by
  rw [raiseCe]
  repeat' with_reducible first | assumption | apply keep_addF | apply keep_faultRecord

theorem keep_pushEvq {o s : State} {a1 : EvRec} (h : Keep o s) :
    Keep o (pushEvq s a1) := by
  rw [pushEvq]
  repeat' with_reducible first | assumption | apply keep_ite | apply keep_raiseEv | apply keep_push | intro _

theorem keep_deliverSource {o s : State} {a1 : Nat} (h : Keep o s) :
    Keep o (deliverSource s a1) := by
  rw [deliverSource]
  repeat' with_reducible first
    | assumption | apply keep_ite | apply keep_ite_fst | apply keep_setF | apply keep_pushEvq | apply keep_countVector
    | apply keep_fireVector | intro _

theorem keep_writeTmr {o s : State} {a1 : Nat} {a2 : Nat} (h : Keep o s) :
    Keep o (writeTmr s a1 a2) := by
  rw [writeTmr]
  repeat' with_reducible first
    | assumption | apply keep_ite | apply keep_setTmrCopies | apply keep_raiseEv | apply keep_setB | intro _

theorem keep_writeWakeRecord {o s : State} {a1 : Nat} {a2 : Nat} {a3 : Nat} (h : Keep o s) :
    Keep o (writeWakeRecord s a1 a2 a3) := by
  rw [writeWakeRecord]
  repeat' with_reducible first | assumption | apply keep_setF | apply keep_writeTmr

theorem keep_shallowToRun {o s : State}  (h : Keep o s) :
    Keep o (shallowToRun s) := by
  rw [shallowToRun]
  repeat' with_reducible first
    | assumption | apply keep_ite | apply keep_setDomain | apply keep_setF | apply keep_foldS | intro _

theorem keep_wakeShallow {o s : State} {a1 : Nat} (h : Keep o s) :
    Keep o (wakeShallow s a1) := by
  rw [wakeShallow]
  repeat' with_reducible first
    | assumption | apply keep_raiseEv | apply keep_shallowToRun | apply keep_writeWakeRecord

theorem keep_abortEntry {o s : State} {a1 : Nat} (h : Keep o s) :
    Keep o (abortEntry s a1) := by
  rw [abortEntry.eq_def]
  repeat' with_reducible first
    | assumption | apply keep_writeWakeRecord | apply keep_raiseEv | apply keep_setF | (dsimp only; split)
    | refine keep_mk rfl rfl rfl rfl rfl rfl rfl rfl rfl rfl rfl rfl ?_

theorem keep_wakeLight {o s : State} {a1 : Nat} (h : Keep o s) :
    Keep o (wakeLight s a1) := by
  rw [wakeLight]
  repeat' with_reducible first
    | assumption | apply keep_ite | apply keep_abortEntry | apply keep_shallowToRun | apply keep_wakeShallow | intro _

theorem keep_wakeDomains {o s : State} {a1 : List Nat} (h : Keep o s) :
    Keep o (wakeDomains s a1) := by
  rw [wakeDomains]
  repeat' with_reducible first | assumption | apply keep_ite | apply keep_setDomain | apply keep_foldS | intro _

end Sys2Proof.Machine
end

