-- ==== Sys2Proof/Laws/KeepRings.lean ====
section
/-!
SUPPORT. What the operations of Machine/Rings.lean keep.
-/

set_option Elab.async false

namespace Sys2Proof.Machine

theorem keep_setSq {o s : State} {a1 : Nat} {a2 : SqRing} (h : Keep o s) :
    Keep o (setSq s a1 a2) := by
  rw [setSq]
  repeat' with_reducible first
    | assumption | apply keep_ite | intro _ | (dsimp only; split)
    | refine keep_mk rfl rfl rfl rfl rfl rfl rfl rfl rfl rfl rfl rfl ?_

theorem keep_setCq {o s : State} {a1 : Nat} {a2 : CqRing} (h : Keep o s) :
    Keep o (setCq s a1 a2) := by
  rw [setCq]
  repeat' with_reducible first
    | assumption | apply keep_ite | intro _ | (dsimp only; split)
    | refine keep_mk rfl rfl rfl rfl rfl rfl rfl rfl rfl rfl rfl rfl ?_

theorem keep_setSqState {o s : State} {a1 : Nat} {a2 : Nat} (h : Keep o s) :
    Keep o (setSqState s a1 a2) := by
  rw [setSqState]
  repeat' with_reducible first | assumption | apply keep_setF

theorem keep_writeSqHead {o s : State} {a1 : Nat} (h : Keep o s) :
    Keep o (writeSqHead s a1) := by
  rw [writeSqHead]
  repeat' with_reducible first | assumption | apply keep_hostWrite

theorem keep_writeNeedsKick {o s : State} {a1 : Nat} {a2 : Bool} (h : Keep o s) :
    Keep o (writeNeedsKick s a1 a2) := by
  rw [writeNeedsKick]
  repeat' with_reducible first | assumption | apply keep_hostWrite

theorem keep_writeCqTail {o s : State} {a1 : Nat} (h : Keep o s) :
    Keep o (writeCqTail s a1) := by
  rw [writeCqTail]
  repeat' with_reducible first | assumption | apply keep_hostWrite

theorem keep_idleArmedCheck {o s : State} {a1 : Nat} (h : Keep o s) :
    Keep o (idleArmedCheck s a1) := by
  rw [idleArmedCheck]
  repeat' with_reducible first | assumption | apply keep_ite | apply keep_fireVector | intro _

theorem keep_writeCompletion {o s : State} {a1 : Nat} {a2 : Completion} (h : Keep o s) :
    Keep o (writeCompletion s a1 a2) := by
  rw [writeCompletion]
  repeat' with_reducible first
    | assumption | apply keep_ite | apply keep_ite_fst | apply keep_ite_snd | apply keep_hostWrite | apply keep_exitL1
    | apply keep_setCq | apply keep_writeCqTail | apply keep_idleArmedCheck | apply keep_countVector | intro _

theorem keep_holdCompletion {o s : State} {a1 : Nat} {a2 : Completion} (h : Keep o s) :
    Keep o (holdCompletion s a1 a2) := by
  rw [holdCompletion]
  repeat' with_reducible first | assumption | apply keep_ite | apply keep_setCq | intro _

theorem keep_noteFull {o s : State} {a1 : Nat} (h : Keep o s) :
    Keep o (noteFull s a1) := by
  rw [noteFull]
  repeat' with_reducible first | assumption | apply keep_ite | apply keep_raiseEv | apply keep_setCq | intro _

theorem keep_postCompletion {o s : State} {a1 : Completion} (h : Keep o s) :
    Keep o (postCompletion s a1) := by
  rw [postCompletion]
  repeat' with_reducible first
    | assumption | apply keep_ite | apply keep_holdCompletion | apply keep_requestPme | apply keep_noteFull
    | apply keep_writeCompletion | intro _

theorem keep_dropCmd {o s : State} {a1 : Nat} (h : Keep o s) :
    Keep o (dropCmd s a1) := by
  rw [dropCmd]
  repeat' with_reducible first
    | assumption | apply keep_ite | intro _ | (dsimp only; split)
    | refine keep_mk rfl rfl rfl rfl rfl rfl rfl rfl rfl rfl rfl rfl ?_

theorem keep_putCmd {o s : State} {a1 : Cmd} (h : Keep o s) :
    Keep o (putCmd s a1) := by
  rw [putCmd]
  repeat' with_reducible first
    | assumption | apply keep_ite | intro _ | (dsimp only; split)
    | refine keep_mk rfl rfl rfl rfl rfl rfl rfl rfl rfl rfl rfl rfl ?_

theorem keep_takeChannel {o s : State} {a1 : Nat} (h : Keep o s) :
    ∀ a t, takeChannel s a1 = some (a, t) → Keep o t := by
  intro a t e
  rw [takeChannel] at e
  split at e
  · cases e
  · cases e
    exact keep_setF h

theorem keep_releaseChannel {o s : State} {a1 : Nat} (h : Keep o s) :
    Keep o (releaseChannel s a1) := by
  rw [releaseChannel]
  repeat' with_reducible first | assumption | apply keep_ite | apply keep_setF | apply keep_foldS | intro _

theorem keep_releaseDose {o s : State}  (h : Keep o s) :
    Keep o (releaseDose s) := by
  rw [releaseDose.eq_def]
  repeat' with_reducible first | assumption | apply keep_setF | split

theorem keep_takeDose {o s : State} (h : Keep o s) : Keep o (takeDose s) := by
  rw [takeDose]
  split
  · cases e : takeChannel s ownerDose with
    | none => exact h
    | some r => exact keep_takeChannel h r.1 r.2 e
  · exact h

theorem keep_complete {o s : State} {a1 : Cmd} {a2 : Nat} {a3 : optParam Nat 0} {a4 : optParam Nat 0} (h : Keep o s) :
    Keep o (complete s a1 a2 a3 a4) := by
  rw [complete.eq_def]
  repeat' with_reducible first
    | assumption | apply keep_ite | apply keep_dropCmd | apply keep_releaseDose | apply keep_postCompletion | intro _
    | split

theorem keep_completeId {o s : State} {a1 : Nat} {a2 : Nat} {a3 : optParam Nat 0} {a4 : optParam Nat 0} (h : Keep o s) :
    Keep o (completeId s a1 a2 a3 a4) := by
  rw [completeId.eq_def]
  repeat' with_reducible first | assumption | apply keep_complete | split

theorem keep_completeFetched {o s : State} {a1 : Nat} {a2 : Fetched} {a3 : Nat} (h : Keep o s) :
    Keep o (completeFetched s a1 a2 a3) := by
  rw [completeFetched]
  repeat' with_reducible first | assumption | apply keep_postCompletion

theorem keep_ringError {o s : State} {a1 : Nat} (h : Keep o s) :
    Keep o (ringError s a1) := by
  rw [ringError]
  repeat' with_reducible first | assumption | apply keep_raiseEv | apply keep_setSqState

theorem keep_drainInvalid {o s : State} {a1 : Nat} {a2 : Nat} (h : Keep o s) :
    Keep o (drainInvalid s a1 a2) := by
  induction a2 generalizing s a1 with
  | zero => exact h
  | succ k ih =>
    rw [drainInvalid]
    repeat' with_reducible first
      | assumption | apply keep_ite | apply ih | apply keep_completeFetched | apply keep_setSq | intro _ | split

theorem keep_fetchEntries {o s : State} {a1 : Nat} {a2 : Nat} (h : Keep o s) :
    Keep o (fetchEntries s a1 a2) := by
  induction a2 generalizing s a1 with
  | zero => exact h
  | succ k ih =>
    rw [fetchEntries]
    repeat' with_reducible first
      | assumption | apply keep_ite | apply ih | apply keep_setSq | apply keep_ringError | intro _

theorem keep_pollRing {o s : State} {a1 : Nat} {a2 : Bool} (h : Keep o s) :
    Keep o (pollRing s a1 a2) := by
  rw [pollRing]
  repeat' with_reducible first
    | assumption | apply keep_ite | apply keep_setSq | apply keep_ringError | apply keep_fetchEntries
    | apply keep_drainInvalid | apply keep_writeSqHead | intro _

theorem keep_beginWake {o s : State} {a1 : Nat} (h : Keep o s) :
    Keep o (beginWake s a1) := by
  rw [beginWake]
  repeat' with_reducible first | assumption | apply keep_ite | apply keep_wakeShallow | intro _

theorem keep_addCmd {o s : State} {a1 : Nat} {a2 : Fetched} {a3 : Nat} {a4 : Nat} {a5 : Option (Nat × Nat)} {a6 : Bool} (h : Keep o s) :
    Keep o (addCmd s a1 a2 a3 a4 a5 a6).2 := by
  rw [addCmd]
  repeat' with_reducible first
    | assumption | apply keep_ite | apply keep_ite_snd | intro _ | (dsimp only; split)
    | refine keep_mk rfl rfl rfl rfl rfl rfl rfl rfl rfl rfl rfl rfl ?_

theorem keep_markPast {o s : State} {a1 : Cmd} (h : Keep o s) :
    Keep o (markPast s a1) := by
  rw [markPast]
  repeat' with_reducible first | assumption | apply keep_putCmd

theorem keep_deferCmd {o s : State} {a1 : Cmd} {a2 : List Byte} (h : Keep o s) :
    Keep o (deferCmd s a1 a2) := by
  rw [deferCmd.eq_def]
  repeat' with_reducible first
    | assumption | (dsimp only; split) | refine keep_mk rfl rfl rfl rfl rfl rfl rfl rfl rfl rfl rfl rfl ?_

theorem keep_ringRow {o s : State} {a0 : Nat} {a1 : List Byte → Bool} {a2 : State → List Byte → Begin}
    {a3 : State → Cmd → List Byte → State} {a4 : Nat} (hr : ∀ s c d, Keep o s → Keep o (a3 s c d)) (h : Keep o s) :
    Keep o (ringRow a0 a1 a2 a3 a4 s) := by
  rw [ringRow]
  repeat' (first
    | with_reducible assumption
    | with_reducible apply keep_ite
    | with_reducible apply hr
    | with_reducible apply keep_drainInvalid
    | with_reducible apply keep_completeFetched
    | with_reducible apply keep_setSq
    | with_reducible apply keep_beginWake
    | with_reducible apply keep_wakeDomains
    | with_reducible apply keep_addCmd
    | with_reducible apply keep_deferCmd
    | with_reducible apply keep_complete
    | with_reducible apply keep_markPast
    | intro _
    | split
    | (dsimp only; split))

theorem keep_finishStop {o s : State} {a1 : Nat} (h : Keep o s) :
    Keep o (finishStop s a1) := by
  rw [finishStop]
  repeat' with_reducible first
    | assumption | apply keep_ite | apply keep_releaseChannel | apply keep_setF | apply keep_setSqState | apply keep_setSq
    | intro _

end Sys2Proof.Machine
end

