-- ==== Sys2Proof/Laws/KeepTmOps.lean ====
section
/-!
SUPPORT. What the operations of Machine/TmOps.lean keep.
-/

set_option Elab.async false

namespace Sys2Proof.Machine

theorem keep_setPort {o s : State} {a1 : Nat} {a2 : Port} (h : Keep o s) :
    Keep o (setPort s a1 a2) := by
  rw [setPort]
  repeat' with_reducible first
    | assumption | refine keep_mk rfl rfl rfl rfl rfl rfl rfl rfl rfl rfl rfl rfl ?_

theorem keep_bufferFrame {o s : State} {a1 : Nat} {a2 : Nat} {a3 : Nat} {a4 : Nat} {a5 : Nat} (h : Keep o s) :
    ∀ a t, bufferFrame s a1 a2 a3 a4 a5 = some (a, t) → Keep o t := by
  intro a t e
  rw [bufferFrame] at e
  repeat' first | (cases e; done) | split at e | (dsimp only at e; split at e)
  all_goals cases e
  repeat' with_reducible first
    | assumption | apply keep_ite | apply keep_ite_fst | apply keep_ite_snd | intro _ | (dsimp only; split)
    | refine keep_mk rfl rfl rfl rfl rfl rfl rfl rfl rfl rfl rfl rfl ?_

theorem keep_poolEmpty {o s : State}  (h : Keep o s) :
    Keep o (poolEmpty s) := by
  rw [poolEmpty]
  repeat' with_reducible first | assumption | apply keep_raiseEv | apply keep_addF | apply keep_addT

theorem keep_pfcOne {o s : State} {a1 : Nat} {a2 : Nat} {a3 : Nat} {a4 : Nat} (h : Keep o s) :
    Keep o (pfcOne s a1 a2 a3 a4) := by
  rw [pfcOne]
  repeat' with_reducible first | assumption | apply keep_ite | apply keep_emit | apply keep_setPort | intro _

theorem keep_pfcCheck {o s : State} {a1 : Nat} (h : Keep o s) :
    Keep o (pfcCheck s a1) := by
  rw [pfcCheck]
  repeat' with_reducible first | assumption | apply keep_ite | apply keep_pfcOne | apply keep_foldS | intro _

theorem keep_releaseFrame {o s : State} {a1 : Nat} {a2 : Nat} {a3 : QFrame} (h : Keep o s) :
    Keep o (releaseFrame s a1 a2 a3) := by
  rw [releaseFrame]
  repeat' with_reducible first
    | assumption | apply keep_ite | apply keep_setF | apply keep_pfcCheck | apply keep_foldl | apply keep_foldl_fst
    | apply keep_foldl_snd | intro _ | (dsimp only; split)
    | refine keep_mk rfl rfl rfl rfl rfl rfl rfl rfl rfl rfl rfl rfl ?_

theorem keep_setQueue {o s : State} {a1 : Nat} {a2 : Nat} {a3 : List QFrame} (h : Keep o s) :
    Keep o (setQueue s a1 a2 a3) := by
  rw [setQueue]
  repeat' with_reducible first
    | assumption | refine keep_mk rfl rfl rfl rfl rfl rfl rfl rfl rfl rfl rfl rfl ?_

theorem keep_headArrives {o s : State} {a1 : Nat} {a2 : Nat} (h : Keep o s) :
    Keep o (headArrives s a1 a2) := by
  rw [headArrives.eq_def]
  repeat' with_reducible first
    | assumption | (dsimp only; split) | refine keep_mk rfl rfl rfl rfl rfl rfl rfl rfl rfl rfl rfl rfl ?_

theorem keep_pushFrame {o s : State} {a1 : Nat} {a2 : Nat} {a3 : QFrame} (h : Keep o s) :
    Keep o (pushFrame s a1 a2 a3) := by
  rw [pushFrame]
  repeat' with_reducible first
    | assumption | apply keep_ite | apply keep_setF | apply keep_setQueue | apply keep_headArrives | intro _
    | (dsimp only; split) | refine keep_mk rfl rfl rfl rfl rfl rfl rfl rfl rfl rfl rfl rfl ?_

theorem keep_popFrame {o s : State} {a1 : Nat} {a2 : Nat} (h : Keep o s) :
    Keep o (popFrame s a1 a2) := by
  rw [popFrame.eq_def]
  repeat' with_reducible first
    | assumption | apply keep_headArrives | apply keep_setQueue | apply keep_releaseFrame | split

theorem keep_countFlushed {o s : State} {a1 : Nat} {a2 : Nat} (h : Keep o s) :
    Keep o (countFlushed s a1 a2) := by
  rw [countFlushed]
  repeat' with_reducible first | assumption | apply keep_ite | apply keep_addF | apply keep_addT | intro _

theorem keep_mirrorDropped {o s : State}  (h : Keep o s) :
    Keep o (mirrorDropped s) := by
  rw [mirrorDropped]
  repeat' with_reducible first | assumption | apply keep_addF | apply keep_addT

theorem keep_mirrorCopy {o s : State} {a1 : Nat} {a2 : Nat} {a3 : List Byte} {a4 : Bool} (h : Keep o s) :
    Keep o (mirrorCopy s a1 a2 a3 a4) := by
  rw [mirrorCopy]
  repeat' with_reducible first
    | assumption | apply keep_ite | apply keep_mirrorDropped | refine keep_bufferFrame ?_ _ _ (by assumption)
    | apply keep_pushFrame | refine keep_snd (by assumption) ?_ | refine keep_fst (by assumption) ?_ | intro _ | split

theorem keep_portMirrors {o s : State} {a1 : Nat} {a2 : Nat} {a3 : List Byte} {a4 : Bool} (h : Keep o s) :
    Keep o (portMirrors s a1 a2 a3 a4) := by
  rw [portMirrors]
  repeat' with_reducible first | assumption | apply keep_mirrorCopy | apply keep_foldS | intro _

theorem keep_sendFrame {o s : State} {a1 : Nat} {a2 : Nat} {a3 : Nat} {a4 : List Byte} {a5 : FrameTag} (h : Keep o s) :
    Keep o (sendFrame s a1 a2 a3 a4 a5).2 := by
  rw [sendFrame]
  repeat' with_reducible first
    | assumption | apply keep_ite | apply keep_ite_snd | apply keep_portMirrors | apply keep_countFlushed | apply keep_addF
    | apply keep_addT | refine keep_bufferFrame ?_ _ _ (by assumption) | apply keep_poolEmpty | apply keep_pushFrame
    | refine keep_snd (by assumption) ?_ | refine keep_fst (by assumption) ?_ | intro _ | split | (dsimp only; split)

theorem keep_setShtPartial {o s : State} {a1 : Nat} (h : Keep o s) :
    Keep o (setShtPartial s a1) := by
  rw [setShtPartial]
  repeat' with_reducible first | assumption | apply keep_ite | apply keep_setF | intro _

theorem keep_holdsProgress {o s : State}  (h : Keep o s) :
    Keep o (holdsProgress s) := by
  rw [holdsProgress]
  repeat' with_reducible first
    | assumption | apply keep_ite | apply keep_completeId | apply keep_foldS | intro _ | (dsimp only; split)
    | refine keep_mk rfl rfl rfl rfl rfl rfl rfl rfl rfl rfl rfl rfl ?_

theorem keep_holdRefused {o s : State} {a1 : Nat} {a2 : Nat} (h : Keep o s) :
    Keep o (holdRefused s a1 a2) := by
  rw [holdRefused]
  repeat' with_reducible first
    | assumption | apply keep_ite | apply keep_setShtPartial | intro _ | (dsimp only; split)
    | refine keep_mk rfl rfl rfl rfl rfl rfl rfl rfl rfl rfl rfl rfl ?_

theorem keep_frameLost {o s : State} {a1 : Nat} {a2 : QFrame} (h : Keep o s) :
    Keep o (frameLost s a1 a2) := by
  rw [frameLost.eq_def]
  repeat' with_reducible first | assumption | apply keep_holdRefused | split

theorem keep_flushPort {o s : State} {a1 : Nat} (h : Keep o s) :
    Keep o (flushPort s a1) := by
  rw [flushPort]
  repeat' with_reducible first
    | assumption | apply keep_countFlushed | apply keep_frameLost | apply keep_releaseFrame | apply keep_setQueue
    | apply keep_holdsProgress | apply keep_foldS | intro _

theorem keep_setShaper {o s : State} {a1 : Nat} {a2 : Nat} {a3 : Shaper} (h : Keep o s) :
    Keep o (setShaper s a1 a2 a3) := by
  rw [setShaper]
  repeat' with_reducible first
    | assumption | refine keep_mk rfl rfl rfl rfl rfl rfl rfl rfl rfl rfl rfl rfl ?_

theorem keep_takeCredit {o s : State} {a1 : Nat} {a2 : Nat} (h : Keep o s) :
    Keep o (takeCredit s a1 a2) := by
  rw [takeCredit]
  repeat' with_reducible first | assumption | apply keep_ite | apply keep_setShaper | intro _

end Sys2Proof.Machine
end

