-- ==== Sys2Proof/Laws/KeepTransmit.lean ====
section
/-!
SUPPORT. What the operations of Machine/Transmit.lean keep.
-/

set_option Elab.async false

namespace Sys2Proof.Machine

theorem keep_setPtp {o s : State} {a1 : Nat} {a2 : PtpPort} (h : Keep o s) :
    Keep o (setPtp s a1 a2) := by
  rw [setPtp]
  repeat' with_reducible first
    | assumption | refine keep_mk rfl rfl rfl rfl rfl rfl rfl rfl rfl rfl rfl rfl ?_

theorem keep_ptpSecondRoll {o s : State}  (h : Keep o s) :
    Keep o (ptpSecondRoll s) := by
  rw [ptpSecondRoll]
  repeat' with_reducible first
    | assumption | apply keep_ite | intro _ | (dsimp only; split)
    | refine keep_mk rfl rfl rfl rfl rfl rfl rfl rfl rfl rfl rfl rfl ?_

theorem keep_ptpOverload {o s : State}  (h : Keep o s) :
    Keep o (ptpOverload s) := by
  rw [ptpOverload]
  repeat' with_reducible first | assumption | apply keep_addF

theorem keep_sendPtp {o s : State} {a1 : Nat} {a2 : List Byte} {a3 : FrameTag} {a4 : Bool} (h : Keep o s) :
    Keep o (sendPtp s a1 a2 a3 a4) := by
  rw [sendPtp]
  repeat' with_reducible first
    | assumption | apply keep_ite | apply keep_ite_snd | apply keep_ptpSecondRoll | apply keep_ptpOverload
    | apply keep_sendFrame | intro _ | (dsimp only; split)
    | refine keep_mk rfl rfl rfl rfl rfl rfl rfl rfl rfl rfl rfl rfl ?_

theorem keep_ptpStamped {o s : State} {a1 : Nat} {a2 : Int} {a3 : List Byte} {a4 : Bool} (h : Keep o s) :
    Keep o (ptpStamped s a1 a2 a3 a4) := by
  rw [ptpStamped]
  repeat' with_reducible first | assumption | apply keep_ite | apply keep_sendPtp | apply keep_setPtp | intro _

theorem keep_transmit {o s : State} {a1 : Nat} {a2 : Int} {a3 : QFrame} (h : Keep o s) :
    Keep o (transmit s a1 a2 a3) := by
  rw [transmit.eq_def]
  repeat' with_reducible first
    | assumption | apply keep_ite | apply keep_emit | apply keep_addT | apply keep_addF | apply keep_raiseEv
    | apply keep_portMirrors | apply keep_ptpStamped | intro _ | split | (dsimp only; split)
    | refine keep_mk rfl rfl rfl rfl rfl rfl rfl rfl rfl rfl rfl rfl ?_

end Sys2Proof.Machine
end

