-- ==== Sys2Proof/Laws/KeepWallOps.lean ====
section
/-!
SUPPORT. What the operations of Machine/WallOps.lean keep.
-/

set_option Elab.async false

namespace Sys2Proof.Machine

theorem keep_setView {o s : State} {a1 : Nat} {a2 : View} (h : Keep o s) :
    Keep o (setView s a1 a2) := by
  rw [setView]
  repeat' with_reducible first
    | assumption | refine keep_mk rfl rfl rfl rfl rfl rfl rfl rfl rfl rfl rfl rfl ?_

end Sys2Proof.Machine
end

