-- ==== Sys2Proof/Laws/KeepFrames.lean ====
section
/-!
SUPPORT. What the operations of Machine/Frames.lean keep.
-/

set_option Elab.async false

namespace Sys2Proof.Machine

theorem keep_emitUnit {o s : State} {a1 : Nat} {a2 : List Byte} {a3 : Nat} {a4 : Nat} {a5 : Bool} {a6 : Nat} {a7 : List Byte} (h : Keep o s) :
    Keep o (emitUnit s a1 a2 a3 a4 a5 a6 a7) := by
  rw [emitUnit]
  repeat' with_reducible first
    | assumption | apply keep_ite | apply keep_ite_fst | apply keep_ite_snd | apply keep_sendFrame | apply keep_foldl
    | apply keep_foldl_fst | apply keep_foldl_snd | intro _

end Sys2Proof.Machine
end

