-- ==== Sys2Proof/Laws/KeepStreamOps.lean ====
section
/-!
SUPPORT. What the operations of Machine/StreamOps.lean keep.
-/

set_option Elab.async false

namespace Sys2Proof.Machine

theorem keep_setStream {o s : State} {a1 : Nat} {a2 : Stream} (h : Keep o s) :
    Keep o (setStream s a1 a2) := by
  rw [setStream]
  repeat' with_reducible first
    | assumption | refine keep_mk rfl rfl rfl rfl rfl rfl rfl rfl rfl rfl rfl rfl ?_

theorem keep_setEnc {o s : State} {a1 : Nat} {a2 : EncSheet} (h : Keep o s) :
    Keep o (setEnc s a1 a2) := by
  rw [setEnc]
  repeat' with_reducible first
    | assumption | refine keep_mk rfl rfl rfl rfl rfl rfl rfl rfl rfl rfl rfl rfl ?_

theorem keep_streamEvent {o s : State} {a1 : Nat} {a2 : Nat} (h : Keep o s) :
    Keep o (streamEvent s a1 a2) := by
  rw [streamEvent]
  repeat' with_reducible first | assumption | apply keep_raiseEv

theorem keep_refreshLoads {o s : State}  (h : Keep o s) :
    Keep o (refreshLoads s) := by
  rw [refreshLoads]
  repeat' with_reducible first | assumption | apply keep_ite | apply keep_setF | apply keep_foldS | intro _

theorem keep_rebind {o s : State} {a1 : Nat} (h : Keep o s) :
    Keep o (rebind s a1) := by
  rw [rebind.eq_def]
  repeat' with_reducible first
    | assumption | apply keep_ite | apply keep_ite_fst | apply keep_setView | apply keep_foldS | intro _ | split

end Sys2Proof.Machine
end

