-- ==== Sys2Proof/Laws/KeepEdits.lean ====
section
/-!
SUPPORT. What the operations of Machine/Edits.lean keep.
-/

set_option Elab.async false

namespace Sys2Proof.Machine

theorem keep_complain {o s : State} {a1 : Cmd} {a2 : Nat} (h : Keep o s) :
    Keep o (complain s a1 a2) := by
  rw [complain]
  repeat' with_reducible first | assumption | apply keep_complete

theorem keep_runLayerSet {o s : State} {a1 : Cmd} {a2 : List Byte} (h : Keep o s) :
    Keep o (runLayerSet s a1 a2) := by
  rw [runLayerSet.eq_def]
  repeat' with_reducible first
    | assumption | apply keep_complain | apply keep_complete | apply keep_setView | apply keep_foldl | apply keep_foldl_fst
    | apply keep_foldl_snd | intro _ | split

theorem keep_execLayerSet {o s : State} {a0 : Nat} (h : Keep o s) :
    KeepOut o (execLayerSet a0 s) := by
  rw [execLayerSet]
  repeat' with_reducible first
    | assumption | apply keepOut_next | apply keep_ringRow | apply keep_runLayerSet | apply keep_ringRow | intro _

theorem keep_showView {o s : State} {a1 : Nat} (h : Keep o s) :
    Keep o (showView s a1) := by
  rw [showView]
  repeat' with_reducible first | assumption | apply keep_setF

theorem keep_applyCommits {o s : State} {a1 : Nat} {a2 : Nat} (h : Keep o s) :
    Keep o (applyCommits s a1 a2) := by
  rw [applyCommits.eq_def]
  repeat' with_reducible first
    | assumption | apply keep_ite | apply keep_ite_fst | apply keep_showView | apply keep_setView | apply keep_completeId
    | apply keep_raiseEv | apply keep_foldS | intro _ | split | (dsimp only; split)

theorem keep_endCaptures {o s : State} {a1 : Nat} (h : Keep o s) :
    Keep o (endCaptures s a1) := by
  rw [endCaptures]
  repeat' with_reducible first
    | assumption | apply keep_completeId | apply keep_setEnc | apply keep_foldS | intro _

theorem keep_setDoseMap {o s : State} {a1 : Nat} {a2 : Option (Nat × Nat)} {a3 : SMap Nat} (h : Keep o s) :
    Keep o (setDoseMap s a1 a2 a3) := by
  rw [setDoseMap]
  repeat' with_reducible first
    | assumption | intro _ | refine keep_mk rfl rfl rfl rfl rfl rfl rfl rfl rfl rfl rfl rfl ?_

theorem keep_followDose {o s : State} {a1 : Nat} {a2 : Nat} {a3 : List Byte} (h : Keep o s) :
    Keep o (followDose s a1 a2 a3) := by
  rw [followDose]
  repeat' with_reducible first
    | assumption | apply keep_ite | apply keep_ite_snd | apply keep_setDoseMap | intro _

theorem keep_applyEntry {o s : State} {a1 : Nat} {a2 : List Byte} (h : Keep o s) :
    Keep o (applyEntry s a1 a2) := by
  rw [applyEntry]
  repeat' with_reducible first
    | assumption | apply keep_ite | apply keep_followDose | apply keep_setEnc | apply keep_endCaptures | intro _
    | (dsimp only; split) | refine keep_mk rfl rfl rfl rfl rfl rfl rfl rfl rfl rfl rfl rfl ?_

theorem keep_gztShow {o s : State}  (h : Keep o s) :
    Keep o (gztShow s) := by
  rw [gztShow]
  repeat' with_reducible first | assumption | apply keep_setF | intro _

theorem keep_finishUpdates {o s : State}  (h : Keep o s) :
    Keep o (finishUpdates s) := by
  rw [finishUpdates]
  repeat' with_reducible first
    | assumption | apply keep_raiseEv | apply keep_completeId | apply keep_gztShow | apply keep_foldS | intro _
    | refine keep_mk rfl rfl rfl rfl rfl rfl rfl rfl rfl rfl rfl rfl ?_

theorem keep_applyGazetteer {o s : State} {a1 : Nat} {a2 : AppliedAt} (h : Keep o s) :
    Keep o (applyGazetteer s a1 a2) := by
  rw [applyGazetteer]
  repeat' with_reducible first
    | assumption | apply keep_ite | apply keep_ite_fst | apply keep_ite_snd | apply keep_applyEntry | apply keep_foldS
    | intro _ | split | (dsimp only; split) | refine keep_mk rfl rfl rfl rfl rfl rfl rfl rfl rfl rfl rfl rfl ?_

theorem keep_applyCal {o s : State} {a1 : Nat → Bool} {a2 : AppliedAt} (h : Keep o s) :
    Keep o (applyCal s a1 a2) := by
  rw [applyCal]
  repeat' with_reducible first
    | assumption | apply keep_ite | apply keep_ite_fst | apply keep_ite_snd | apply keep_foldS | apply keep_foldl
    | apply keep_foldl_fst | apply keep_foldl_snd | intro _ | split | (dsimp only; split)
    | refine keep_mk rfl rfl rfl rfl rfl rfl rfl rfl rfl rfl rfl rfl ?_

theorem keep_applyGains {o s : State} {a1 : Nat} (h : Keep o s) :
    Keep o (applyGains s a1) := by
  rw [applyGains]
  repeat' with_reducible first
    | assumption | apply keep_foldl | apply keep_foldl_fst | apply keep_foldl_snd | intro _
    | refine keep_mk rfl rfl rfl rfl rfl rfl rfl rfl rfl rfl rfl rfl ?_

theorem keep_applyIdleCal {o s : State}  (h : Keep o s) :
    Keep o (applyIdleCal s) := by
  rw [applyIdleCal]
  repeat' with_reducible first | assumption | apply keep_applyCal | intro _

theorem keep_applyEdits {o s : State} {a1 : Nat} {a2 : AppliedAt} (h : Keep o s) :
    Keep o (applyEdits s a1 a2) := by
  rw [applyEdits]
  repeat' with_reducible first
    | assumption | apply keep_applyCommits | apply keep_applyGazetteer | apply keep_applyCal | apply keep_refreshLoads
    | apply keep_finishUpdates | apply keep_applyGains | apply keep_applyIdleCal | intro _

theorem keep_settleEdits {o s : State}  (h : Keep o s) :
    Keep o (settleEdits s) := by
  rw [settleEdits]
  repeat' with_reducible first
    | assumption | apply keep_ite | apply keep_applyEdits | apply keep_refreshLoads | apply keep_finishUpdates
    | apply keep_applyIdleCal | apply keep_foldS | intro _

theorem keep_gztReject {o s : State} {a1 : Nat} {a2 : Nat} (h : Keep o s) :
    Keep o (gztReject s a1 a2) := by
  rw [gztReject]
  repeat' with_reducible first | assumption | apply keep_setF

theorem keep_loadCheck {o s : State} {a1 : Plan} (h : Keep o s) :
    KeepOpt o (loadCheck s a1) := by
  rw [loadCheck]
  repeat' with_reducible first
    | assumption | apply keepOpt_none | apply keepOpt_ite | apply keepOpt_some | split | apply keep_ite | apply keep_setF
    | intro _ | split | (dsimp only; split)

theorem keep_runViewCommit {o s : State} {a1 : Cmd} {a2 : List Byte} (h : Keep o s) :
    Keep o (runViewCommit s a1 a2) := by
  rw [runViewCommit.eq_def]
  repeat' with_reducible first
    | assumption | apply keep_ite | apply keep_ite_fst | apply keep_ite_snd | apply keep_complain | apply keep_gztReject
    | apply keep_complete | refine keep_of_opt (keep_loadCheck ?_) (by assumption) | apply keep_settleEdits
    | apply keep_setView | intro _ | split | (dsimp only; split)

theorem keep_execViewCommit {o s : State} {a0 : Nat} (h : Keep o s) :
    KeepOut o (execViewCommit a0 s) := by
  rw [execViewCommit]
  repeat' with_reducible first
    | assumption | apply keepOut_next | apply keep_ringRow | apply keep_runViewCommit | apply keep_ringRow | intro _

theorem keep_setSurface {o s : State} {a1 : Nat} {a2 : Option Surface} (h : Keep o s) :
    Keep o (setSurface s a1 a2) := by
  rw [setSurface]
  repeat' with_reducible first
    | assumption | refine keep_mk rfl rfl rfl rfl rfl rfl rfl rfl rfl rfl rfl rfl ?_

theorem keep_doSurfaceWrite {o s : State} {a1 : Cmd} {a2 : List Byte} (h : Keep o s) :
    Keep o (doSurfaceWrite s a1 a2) := by
  rw [doSurfaceWrite.eq_def]
  repeat' with_reducible first
    | assumption | apply keep_ite | apply keep_complete | apply keep_setSurface | intro _ | split | (dsimp only; split)

theorem keep_runSurfaceWrite {o s : State} {a1 : Cmd} {a2 : List Byte} (h : Keep o s) :
    Keep o (runSurfaceWrite s a1 a2) := by
  rw [runSurfaceWrite]
  repeat' with_reducible first
    | assumption | apply keep_ite | apply keep_ite_fst | apply keep_refreshLoads | apply keep_complete
    | apply keep_setSurface | apply keep_doSurfaceWrite | intro _ | (dsimp only; split)
    | refine keep_mk rfl rfl rfl rfl rfl rfl rfl rfl rfl rfl rfl rfl ?_

theorem keep_execSurfaceWrite {o s : State} {a0 : Nat} (h : Keep o s) :
    KeepOut o (execSurfaceWrite a0 s) := by
  rw [execSurfaceWrite]
  repeat' with_reducible first
    | assumption | apply keepOut_next | apply keep_ringRow | apply keep_runSurfaceWrite | apply keep_ringRow | intro _

theorem keep_surfaceResume {o s : State} {a1 : Nat} (h : Keep o s) :
    Keep o (surfaceResume s a1) := by
  rw [surfaceResume.eq_def]
  repeat' with_reducible first
    | assumption | apply keep_ite | apply keep_ite_fst | apply keep_ite_snd | apply keep_doSurfaceWrite | intro _ | split
    | (dsimp only; split) | refine keep_mk rfl rfl rfl rfl rfl rfl rfl rfl rfl rfl rfl rfl ?_

theorem keep_execSurfaceWriteResume {o s : State} {a0 : Nat} (h : Keep o s) :
    KeepOut o (execSurfaceWriteResume a0 s) := by
  rw [execSurfaceWriteResume]
  repeat' with_reducible first | assumption | apply keepOut_next | apply keep_surfaceResume

theorem keep_runGazetteerUpdate {o s : State} {a1 : Cmd} {a2 : List Byte} (h : Keep o s) :
    Keep o (runGazetteerUpdate s a1 a2) := by
  rw [runGazetteerUpdate.eq_def]
  repeat' with_reducible first
    | assumption | apply keep_ite | apply keep_ite_fst | apply keep_ite_snd | apply keep_complain | apply keep_gztReject
    | refine keep_of_opt (keep_loadCheck ?_) (by assumption) | apply keep_complete | apply keep_settleEdits
    | apply keep_gztShow | intro _ | split | (dsimp only; split)
    | refine keep_mk rfl rfl rfl rfl rfl rfl rfl rfl rfl rfl rfl rfl ?_

theorem keep_execGazetteerUpdate {o s : State} {a0 : Nat} (h : Keep o s) :
    KeepOut o (execGazetteerUpdate a0 s) := by
  rw [execGazetteerUpdate]
  repeat' with_reducible first
    | assumption | apply keepOut_next | apply keep_ringRow | apply keep_runGazetteerUpdate | apply keep_ringRow | intro _

theorem keep_runSheetCalSet {o s : State} {a1 : Cmd} {a2 : List Byte} (h : Keep o s) :
    Keep o (runSheetCalSet s a1 a2) := by
  rw [runSheetCalSet]
  repeat' with_reducible first
    | assumption | apply keep_settleEdits | intro _ | refine keep_mk rfl rfl rfl rfl rfl rfl rfl rfl rfl rfl rfl rfl ?_

theorem keep_execSheetCalSet {o s : State} {a0 : Nat} (h : Keep o s) :
    KeepOut o (execSheetCalSet a0 s) := by
  rw [execSheetCalSet]
  repeat' with_reducible first
    | assumption | apply keepOut_next | apply keep_ringRow | apply keep_runSheetCalSet | apply keep_ringRow | intro _

theorem keep_coefWrite {o s : State} {a1 : Nat} {a2 : Nat} (h : Keep o s) :
    Keep o (coefWrite s a1 a2) := by
  rw [coefWrite]
  repeat' with_reducible first
    | assumption | apply keep_ite | apply keep_raiseEv | intro _ | (dsimp only; split)
    | refine keep_mk rfl rfl rfl rfl rfl rfl rfl rfl rfl rfl rfl rfl ?_

theorem keep_execPrjCoefWrite {o s : State} {a0 : Nat} {a1 : Nat} (h : Keep o s) :
    KeepOut o (execPrjCoefWrite a0 a1 s) := by
  rw [execPrjCoefWrite]
  repeat' with_reducible first | assumption | apply keepOut_next | apply keep_coefWrite

end Sys2Proof.Machine
end

