-- ==== Sys2Proof/Laws/KeepEncode.lean ====
section
/-!
SUPPORT. What the operations of Machine/Encode.lean keep.
-/

set_option Elab.async false

namespace Sys2Proof.Machine

theorem keep_setCore {o s : State} {a1 : Nat} {a2 : Core} (h : Keep o s) :
    Keep o (setCore s a1 a2) := by
  rw [setCore]
  repeat' with_reducible first
    | assumption | refine keep_mk rfl rfl rfl rfl rfl rfl rfl rfl rfl rfl rfl rfl ?_

theorem keep_setCoreState {o s : State} {a1 : Nat} {a2 : Nat} (h : Keep o s) :
    Keep o (setCoreState s a1 a2) := by
  rw [setCoreState]
  repeat' with_reducible first | assumption | apply keep_setF

theorem keep_countBusy {o s : State} {a1 : Nat} (h : Keep o s) :
    Keep o (countBusy s a1) := by
  rw [countBusy]
  repeat' with_reducible first
    | assumption | apply keep_ite | apply keep_ite_fst | apply keep_ite_snd | intro _ | split | (dsimp only; split)
    | refine keep_mk rfl rfl rfl rfl rfl rfl rfl rfl rfl rfl rfl rfl ?_

theorem keep_busyRoll {o s : State}  (h : Keep o s) :
    Keep o (busyRoll s) := by
  rw [busyRoll]
  repeat' with_reducible first
    | assumption | apply keep_ite | apply keep_ite_fst | apply keep_ite_snd | apply keep_countBusy | apply keep_setF
    | intro _ | (dsimp only; split) | refine keep_mk rfl rfl rfl rfl rfl rfl rfl rfl rfl rfl rfl rfl ?_

theorem keep_saveContext {o s : State} {a1 : Bool × Nat} (h : Keep o s) :
    Keep o (saveContext s a1) := by
  rw [saveContext]
  repeat' with_reducible first
    | assumption | refine keep_mk rfl rfl rfl rfl rfl rfl rfl rfl rfl rfl rfl rfl ?_

theorem keep_freeCore {o s : State} {a1 : Nat} (h : Keep o s) :
    Keep o (freeCore s a1) := by
  rw [freeCore.eq_def]
  repeat' with_reducible first
    | assumption | apply keep_countBusy | apply keep_busyRoll | apply keep_setCore | apply keep_saveContext
    | apply keep_setF | apply keep_setCoreState | split | (dsimp only; split)
    | refine keep_mk rfl rfl rfl rfl rfl rfl rfl rfl rfl rfl rfl rfl ?_

theorem keep_setPics {o s : State} {a1 : Nat} {a2 : List SheetPic} (h : Keep o s) :
    Keep o (setPics s a1 a2) := by
  rw [setPics]
  repeat' with_reducible first
    | assumption | refine keep_mk rfl rfl rfl rfl rfl rfl rfl rfl rfl rfl rfl rfl ?_

theorem keep_setHeadPic {o s : State} {a1 : Nat} {a2 : SheetPic} (h : Keep o s) :
    Keep o (setHeadPic s a1 a2) := by
  rw [setHeadPic]
  repeat' with_reducible first | assumption | apply keep_setPics

theorem keep_dropHeadPic {o s : State} {a1 : Nat} (h : Keep o s) :
    Keep o (dropHeadPic s a1) := by
  rw [dropHeadPic]
  repeat' with_reducible first | assumption | apply keep_setPics

theorem keep_startEncode {o s : State} {a1 : Nat} {a2 : SheetPic} (h : Keep o s) :
    Keep o (startEncode s a1 a2) := by
  rw [startEncode]
  repeat' with_reducible first
    | assumption | apply keep_ite | apply keep_setEnc | intro _ | split | (dsimp only; split)

theorem keep_makeReady {o s : State} {a1 : Nat} (h : Keep o s) :
    Keep o (makeReady s a1) := by
  rw [makeReady]
  repeat' with_reducible first
    | assumption | refine keep_mk rfl rfl rfl rfl rfl rfl rfl rfl rfl rfl rfl rfl ?_

theorem keep_writeCaptures {o s : State} {a1 : Nat} {a2 : EncRun} (h : Keep o s) :
    Keep o (writeCaptures s a1 a2) := by
  rw [writeCaptures]
  repeat' with_reducible first
    | assumption | apply keep_ite | apply keep_hostWrite | apply keep_completeId | apply keep_setEnc | apply keep_foldS
    | intro _

theorem keep_rowEvent {o s : State} {a1 : Nat} {a2 : Nat} {a3 : EncRun} (h : Keep o s) :
    Keep o (rowEvent s a1 a2 a3) := by
  rw [rowEvent]
  repeat' with_reducible first | assumption | apply keep_raiseEv

theorem keep_sheetEvent {o s : State} {a1 : Nat} {a2 : Nat} {a3 : Nat} {a4 : Nat} (h : Keep o s) :
    Keep o (sheetEvent s a1 a2 a3 a4) := by
  rw [sheetEvent]
  repeat' with_reducible first | assumption | apply keep_raiseEv

theorem keep_closePicture {o s : State} {a1 : Nat} {a2 : EncRun} (h : Keep o s) :
    Keep o (closePicture s a1 a2) := by
  rw [closePicture.eq_def]
  repeat' with_reducible first
    | assumption | apply keep_ite | apply keep_setEnc | apply keep_addF | apply keep_addT | apply keep_dropHeadPic
    | apply keep_writeCaptures | apply keep_makeReady | apply keep_saveContext | apply keep_freeCore | intro _ | split
    | (dsimp only; split) | refine keep_mk rfl rfl rfl rfl rfl rfl rfl rfl rfl rfl rfl rfl ?_

theorem keep_rowCoded {o s : State} {a1 : Nat} {a2 : EncRun} (h : Keep o s) :
    Keep o (rowCoded s a1 a2) := by
  rw [rowCoded]
  repeat' with_reducible first
    | assumption | apply keep_ite | apply keep_ite_fst | apply keep_ite_snd | apply keep_setEnc | apply keep_emitUnit
    | apply keep_setHeadPic | apply keep_closePicture | intro _ | split | (dsimp only; split)

theorem keep_repeatActivity {o s : State} {a1 : Nat} {a2 : EncRun} (h : Keep o s) :
    Keep o (repeatActivity s a1 a2).2 := by
  rw [repeatActivity]
  repeat' with_reducible first
    | assumption | apply keep_ite | apply keep_ite_fst | apply keep_ite_snd | apply keep_freshIndex | intro _ | split
    | (dsimp only; split)

theorem keep_repeatSheetRow {o s : State} {a1 : Nat} (h : Keep o s) :
    Keep o (repeatSheetRow s a1) := by
  rw [repeatSheetRow.eq_def]
  repeat' with_reducible first
    | assumption | apply keep_ite | apply keep_ite_fst | apply keep_ite_snd | apply keep_repeatActivity
    | apply keep_rowCoded | intro _ | split

theorem keep_repeatSheetRows {o s : State} {a1 : Nat} {a2 : Nat} (h : Keep o s) :
    Keep o (repeatSheetRows s a1 a2) := by
  induction a2 generalizing s a1 with
  | zero => exact h
  | succ k ih =>
    rw [repeatSheetRows]
    repeat' with_reducible first | assumption | apply ih | apply keep_repeatSheetRow

theorem keep_codeMarkedRow {o s : State} {a1 : Nat} (h : Keep o s) :
    Keep o (codeMarkedRow s a1) := by
  rw [codeMarkedRow.eq_def]
  repeat' with_reducible first
    | assumption | apply keep_ite | apply keep_rowEvent | apply keep_addF | apply keep_rowCoded | intro _ | split
    | (dsimp only; split)

theorem keep_closeEarly {o s : State} {a1 : Nat} (h : Keep o s) :
    Keep o (closeEarly s a1) := by
  rw [closeEarly.eq_def]
  repeat' with_reducible first
    | assumption | apply keep_ite | apply keep_makeReady | apply keep_startEncode | apply keep_rowEvent | apply keep_setEnc
    | intro _ | split | (dsimp only; split) | refine keep_mk rfl rfl rfl rfl rfl rfl rfl rfl rfl rfl rfl rfl ?_

theorem keep_closingJob {o s : State} {a1 : Nat} (h : Keep o s) :
    Keep o (closingJob s a1) := by
  rw [closingJob.eq_def]
  repeat' with_reducible first
    | assumption | apply keep_setEnc | apply keep_rowEvent | (dsimp only; split)
    | refine keep_mk rfl rfl rfl rfl rfl rfl rfl rfl rfl rfl rfl rfl ?_

theorem keep_requestI {o s : State} {a1 : Nat} (h : Keep o s) :
    Keep o (requestI s a1) := by
  rw [requestI]
  repeat' with_reducible first | assumption | apply keep_ite | apply keep_setEnc | intro _

theorem keep_encRefresh {o s : State} {a1 : Nat} {a2 : Bool} (h : Keep o s) :
    Keep o (encRefresh s a1 a2) := by
  rw [encRefresh]
  repeat' with_reducible first
    | assumption | apply keep_ite | apply keep_ite_fst | apply keep_requestI | apply keep_foldS | intro _

theorem keep_execEncRefresh {o s : State} {a0 : Nat} {a1 : Bool} (h : Keep o s) :
    KeepOut o (execEncRefresh a0 a1 s) := by
  rw [execEncRefresh]
  repeat' with_reducible first | assumption | apply keepOut_next | apply keep_encRefresh

theorem keep_runRcCapture {o s : State} {a1 : Cmd} {a2 : List Byte} (h : Keep o s) :
    Keep o (runRcCapture s a1 a2) := by
  rw [runRcCapture]
  repeat' with_reducible first | assumption | apply keep_setEnc

theorem keep_execRcCapture {o s : State} {a0 : Nat} (h : Keep o s) :
    KeepOut o (execRcCapture a0 s) := by
  rw [execRcCapture]
  repeat' with_reducible first
    | assumption | apply keepOut_next | apply keep_ringRow | apply keep_runRcCapture | apply keep_ringRow | intro _

end Sys2Proof.Machine
end

