-- ==== Sys2Proof/Laws/KeepProjection.lean ====
section
/-!
SUPPORT. What the operations of Machine/Projection.lean keep.
-/

set_option Elab.async false

namespace Sys2Proof.Machine

theorem keep_noteReaders {o s : State} {a1 : Nat} {a2 : Bool} (h : Keep o s) :
    Keep o (noteReaders s a1 a2) := by
  rw [noteReaders]
  repeat' with_reducible first
    | assumption | apply keep_ite | apply keep_ite_fst | apply keep_ite_snd | intro _ | (dsimp only; split)
    | refine keep_mk rfl rfl rfl rfl rfl rfl rfl rfl rfl rfl rfl rfl ?_

theorem keep_latchSources {o s : State} {a1 : Nat} (h : Keep o s) :
    Keep o (latchSources s a1).2 := by
  rw [latchSources]
  repeat' with_reducible first
    | assumption | apply keep_ite | apply keep_ite_fst | apply keep_ite_snd | apply keep_raiseEv | apply keep_setView
    | apply keep_foldS | intro _

theorem keep_startComposition {o s : State} {a1 : Nat} (h : Keep o s) :
    Keep o (startComposition s a1) := by
  rw [startComposition]
  repeat' with_reducible first
    | assumption | apply keep_rebind | apply keep_latchSources | apply keep_noteReaders | apply keep_setView

theorem keep_execCompositionStart {o s : State} {a0 : Nat} (h : Keep o s) :
    KeepOut o (execCompositionStart a0 s) := by
  rw [execCompositionStart]
  repeat' with_reducible first
    | assumption | apply keepOut_next | apply keepOut_ite | apply keep_ite | apply keep_startComposition | intro _

theorem keep_latestStart {o s : State} {a1 : Nat} (h : Keep o s) :
    Keep o (latestStart s a1) := by
  rw [latestStart.eq_def]
  repeat' with_reducible first
    | assumption | apply keep_ite | apply keep_raiseEv | apply keep_startComposition | intro _ | split

theorem keep_execCompositionLatestStart {o s : State} {a0 : Nat} (h : Keep o s) :
    KeepOut o (execCompositionLatestStart a0 s) := by
  rw [execCompositionLatestStart]
  repeat' with_reducible first | assumption | apply keepOut_next | apply keep_latestStart

theorem keep_compositionDone {o s : State} {a1 : Nat} (h : Keep o s) :
    Keep o (compositionDone s a1) := by
  rw [compositionDone.eq_def]
  repeat' with_reducible first
    | assumption | apply keep_ite | apply keep_noteReaders | apply keep_setView | intro _ | split | (dsimp only; split)

theorem keep_execCompositionDone {o s : State} {a0 : Nat} (h : Keep o s) :
    KeepOut o (execCompositionDone a0 s) := by
  rw [execCompositionDone]
  repeat' with_reducible first | assumption | apply keepOut_next | apply keep_compositionDone

theorem keep_composeLatitude {o s : State} {a1 : Nat} {a2 : Nat} (h : Keep o s) :
    Keep o (composeLatitude s a1 a2) := by
  rw [composeLatitude]
  repeat' with_reducible first
    | assumption | apply keep_ite | apply keep_ite_fst | apply keep_ite_snd | apply keep_rebind
    | apply keep_startComposition | apply keep_setView | apply keep_noteReaders | intro _

theorem keep_execLatitudeCompose {o s : State} {a0 : Nat} {a1 : Nat} (h : Keep o s) :
    KeepOut o (execLatitudeCompose a0 a1 s) := by
  rw [execLatitudeCompose]
  repeat' with_reducible first | assumption | apply keepOut_next | apply keep_composeLatitude

theorem keep_startSheets {o s : State} {a1 : Nat} {a2 : Nat} {a3 : Nat} {a4 : Bool} {a5 : Option Canvas} {a6 : Bool} (h : Keep o s) :
    Keep o (startSheets s a1 a2 a3 a4 a5 a6) := by
  rw [startSheets]
  repeat' with_reducible first
    | assumption | apply keep_ite | apply keep_ite_fst | apply keep_ite_snd | apply keep_setEnc | apply keep_setPics
    | apply keep_makeReady | apply keep_foldS | intro _ | split | (dsimp only; split)

theorem keep_keepMeans {o s : State} {a1 : Nat} {a2 : Nat} {a3 : List Nat} {a4 : Nat} (h : Keep o s) :
    Keep o (keepMeans s a1 a2 a3 a4) := by
  rw [keepMeans]
  repeat' with_reducible first
    | assumption | apply keep_ite | apply keep_ite_fst | intro _ | (dsimp only; split)
    | refine keep_mk rfl rfl rfl rfl rfl rfl rfl rfl rfl rfl rfl rfl ?_

theorem keep_measureDose {o s : State} {a1 : Nat} {a2 : SheetPic} {a3 : List Nat} (h : Keep o s) :
    Keep o (measureDose s a1 a2 a3) := by
  rw [measureDose]
  repeat' with_reducible first
    | assumption | apply keep_ite | apply keep_ite_fst | apply keep_ite_snd | apply keep_keepMeans | apply keep_sheetEvent
    | intro _ | (dsimp only; split) | refine keep_mk rfl rfl rfl rfl rfl rfl rfl rfl rfl rfl rfl rfl ?_

theorem keep_stageBand {o s : State} {a1 : Nat} {a2 : SheetPic} {a3 : List (List Pix)} (h : Keep o s) :
    Keep o (stageBand s a1 a2 a3).1 := by
  rw [stageBand]
  repeat' with_reducible first
    | assumption | apply keep_ite | apply keep_ite_fst | apply keep_ite_snd | apply keep_setHeadPic | apply keep_measureDose
    | intro _ | split | (dsimp only; split) | refine keep_mk rfl rfl rfl rfl rfl rfl rfl rfl rfl rfl rfl rfl ?_

theorem keep_frameBand {o s : State} {a1 : Nat} {a2 : List (List Pix)} (h : Keep o s) :
    Keep o (frameBand s a1 a2) := by
  rw [frameBand.eq_def]
  repeat' with_reducible first
    | assumption | apply keep_ite | apply keep_emitUnit | apply keep_dropHeadPic | apply keep_setHeadPic | intro _ | split
    | (dsimp only; split) | refine keep_mk rfl rfl rfl rfl rfl rfl rfl rfl rfl rfl rfl rfl ?_

theorem keep_markBand {o s : State} {a1 : Nat} {a2 : List (List Pix)} (h : Keep o s) :
    Keep o (markBand s a1 a2) := by
  rw [markBand.eq_def]
  repeat' with_reducible first
    | assumption | apply keep_ite | apply keep_setHeadPic | apply keep_setEnc | apply keep_makeReady | intro _ | split
    | (dsimp only; split) | refine keep_mk rfl rfl rfl rfl rfl rfl rfl rfl rfl rfl rfl rfl ?_

theorem keep_lateLatitudes {o s : State} {a1 : SheetPic} {a2 : List Nat} (h : Keep o s) :
    Keep o (lateLatitudes s a1 a2) := by
  rw [lateLatitudes]
  repeat' with_reducible first
    | assumption | apply keep_ite | apply keep_addF | apply keep_addT | apply keep_setView | apply keep_raiseEv
    | apply keep_foldS | intro _

theorem keep_tellLate {o s : State} {a1 : Nat} (h : Keep o s) :
    Keep o (tellLate s a1) := by
  rw [tellLate.eq_def]
  repeat' with_reducible first
    | assumption | apply keep_ite | apply keep_sheetEvent | apply keep_addT | apply keep_setHeadPic | intro _ | split
    | (dsimp only; split) | refine keep_mk rfl rfl rfl rfl rfl rfl rfl rfl rfl rfl rfl rfl ?_

theorem keep_stageLate {o s : State} {a1 : Nat} {a2 : SheetPic} (h : Keep o s) :
    Keep o (stageLate s a1 a2).1 := by
  rw [stageLate]
  repeat' with_reducible first | assumption | apply keep_stageBand | apply keep_lateLatitudes

theorem keep_noteLateRow {o s : State} {a1 : Nat} {a2 : Nat} {a3 : Bool} (h : Keep o s) :
    Keep o (noteLateRow s a1 a2 a3) := by
  rw [noteLateRow.eq_def]
  repeat' with_reducible first
    | assumption | apply keep_ite | apply keep_tellLate | apply keep_setHeadPic | intro _ | split | (dsimp only; split)
    | refine keep_mk rfl rfl rfl rfl rfl rfl rfl rfl rfl rfl rfl rfl ?_

theorem keep_outputBand {o s : State} {a1 : Nat} (h : Keep o s) :
    Keep o (outputBand s a1) := by
  rw [outputBand.eq_def]
  repeat' with_reducible first
    | assumption | apply keep_ite | apply keep_ite_fst | apply keep_ite_snd | apply keep_stageBand | apply keep_markBand
    | apply keep_noteLateRow | apply keep_frameBand | intro _ | split | (dsimp only; split)

theorem keep_outputBands {o s : State} {a1 : Nat} {a2 : Nat} (h : Keep o s) :
    Keep o (outputBands s a1 a2) := by
  induction a2 generalizing s a1 with
  | zero => exact h
  | succ k ih =>
    rw [outputBands]
    repeat' with_reducible first | assumption | apply ih | apply keep_outputBand

theorem keep_sheetOutput {o s : State} {a1 : Nat} (h : Keep o s) :
    Keep o (sheetOutput s a1) := by
  rw [sheetOutput.eq_def]
  repeat' with_reducible first | assumption | apply keep_outputBands | split | (dsimp only; split)

theorem keep_execSheetOutputStart {o s : State} {a0 : Nat} (h : Keep o s) :
    KeepOut o (execSheetOutputStart a0 s) := by
  rw [execSheetOutputStart]
  repeat' with_reducible first | assumption | apply keepOut_next | apply keep_sheetOutput

theorem keep_forceRaw {o s : State} {a1 : Nat} {a2 : SheetPic} (h : Keep o s) :
    Keep o (forceRaw s a1 a2) := by
  rw [forceRaw]
  repeat' with_reducible first | assumption | apply keep_stageLate | apply keep_frameBand | apply keep_tellLate

theorem keep_lateCellRow {o s : State} {a1 : Nat} {a2 : SheetPic} (h : Keep o s) :
    Keep o (lateCellRow s a1 a2) := by
  rw [lateCellRow]
  repeat' with_reducible first
    | assumption | apply keep_stageLate | apply keep_repeatSheetRow | apply keep_noteLateRow | apply keep_markBand

theorem keep_missedCellRow {o s : State} {a1 : Nat} {a2 : SheetPic} (h : Keep o s) :
    Keep o (missedCellRow s a1 a2) := by
  rw [missedCellRow]
  repeat' with_reducible first
    | assumption | apply keep_ite | apply keep_addF | apply keep_addT | apply keep_sheetEvent | apply keep_setHeadPic
    | apply keep_repeatSheetRow | apply keep_tellLate | intro _ | split | (dsimp only; split)
    | refine keep_mk rfl rfl rfl rfl rfl rfl rfl rfl rfl rfl rfl rfl ?_

theorem keep_forceCellRow {o s : State} {a1 : Nat} {a2 : Nat} (h : Keep o s) :
    Keep o (forceCellRow s a1 a2) := by
  rw [forceCellRow.eq_def]
  repeat' with_reducible first
    | assumption | apply keep_ite | apply keep_repeatSheetRow | apply keep_missedCellRow | apply keep_lateCellRow | intro _
    | split | (dsimp only; split)

theorem keep_forceCellRows {o s : State} {a1 : Nat} {a2 : Nat} {a3 : Nat} (h : Keep o s) :
    Keep o (forceCellRows s a1 a2 a3) := by
  induction a3 generalizing s a1 a2 with
  | zero => exact h
  | succ k ih =>
    rw [forceCellRows]
    repeat' with_reducible first | assumption | apply ih | apply keep_forceCellRow

theorem keep_forceBands {o s : State} {a1 : Nat} {a2 : Nat} {a3 : Nat} (h : Keep o s) :
    Keep o (forceBands s a1 a2 a3) := by
  induction a3 generalizing s a1 a2 with
  | zero => exact h
  | succ k ih =>
    rw [forceBands]
    repeat' with_reducible first
      | assumption | apply keep_ite | apply ih | apply keep_forceRaw | intro _ | split | (dsimp only; split)

theorem keep_emissionInstant {o s : State} {a1 : Nat} {a2 : Nat} (h : Keep o s) :
    Keep o (emissionInstant s a1 a2) := by
  rw [emissionInstant.eq_def]
  repeat' with_reducible first
    | assumption | apply keep_ite | apply keep_startEncode | apply keep_forceCellRows | apply keep_forceBands | intro _
    | split

theorem keep_execUnitEmissionInstant {o s : State} {a0 : Nat} {a1 : Nat} (h : Keep o s) :
    KeepOut o (execUnitEmissionInstant a0 a1 s) := by
  rw [execUnitEmissionInstant]
  repeat' with_reducible first | assumption | apply keepOut_next | apply keep_emissionInstant

theorem keep_codeCellRow {o s : State} {a1 : Nat} {a2 : Nat} {a3 : Bool} (h : Keep o s) :
    Keep o (codeCellRow s a1 a2 a3) := by
  rw [codeCellRow.eq_def]
  repeat' with_reducible first
    | assumption | apply keep_ite | apply keep_setCoreState | apply keep_repeatSheetRow | apply keep_closeEarly
    | apply keep_codeMarkedRow | apply keep_lateCellRow | intro _ | split | (dsimp only; split)

theorem keep_execCellRowCode {o s : State} {a0 : Nat} {a1 : Bool} (h : Keep o s) :
    KeepOut o (execCellRowCode a0 a1 s) := by
  rw [execCellRowCode]
  repeat' with_reducible first
    | assumption | apply keepOut_next | apply keepOut_ite | apply keep_ite | apply keep_codeCellRow | intro _ | split

theorem keep_tellNoDelay {o s : State} {a1 : Nat} {a2 : Nat} (h : Keep o s) :
    Keep o (tellNoDelay s a1 a2) := by
  rw [tellNoDelay]
  repeat' with_reducible first
    | assumption | apply keep_ite | apply keep_raiseEv | intro _ | (dsimp only; split)
    | refine keep_mk rfl rfl rfl rfl rfl rfl rfl rfl rfl rfl rfl rfl ?_

theorem keep_preparePresents {o s : State} {a1 : Sched} {a2 : Nat} {a3 : Nat} (h : Keep o s) :
    Keep o (preparePresents s a1 a2 a3) := by
  rw [preparePresents]
  repeat' with_reducible first
    | assumption | apply keep_ite | apply keep_ite_snd | apply keep_tellNoDelay | apply keep_foldS | intro _ | split
    | (dsimp only; split) | refine keep_mk rfl rfl rfl rfl rfl rfl rfl rfl rfl rfl rfl rfl ?_

theorem keep_endPicture {o s : State} {a1 : Nat} (h : Keep o s) :
    Keep o (endPicture s a1) := by
  rw [endPicture]
  repeat' with_reducible first
    | assumption | apply keep_ite | apply keep_ite_fst | apply keep_ite_snd | apply keep_setPics | apply keep_setView
    | apply keep_startSheets | apply keep_raiseEv | apply keep_addF | apply keep_foldS | intro _ | (dsimp only; split)
    | refine keep_mk rfl rfl rfl rfl rfl rfl rfl rfl rfl rfl rfl rfl ?_

theorem keep_beginPicture {o s : State} {a1 : Sched} {a2 : Nat} {a3 : Nat} (h : Keep o s) :
    Keep o (beginPicture s a1 a2 a3) := by
  rw [beginPicture]
  repeat' with_reducible first
    | assumption | apply keep_ite | apply keep_ite_fst | apply keep_ite_snd | apply keep_setF | apply keep_setView
    | apply keep_rebind | apply keep_preparePresents | apply keep_startSheets | intro _

theorem keep_ownTrigger {o s : State} {a1 : Nat} {a2 : Nat} {a3 : Nat} {a4 : Nat} {a5 : Nat} {a6 : Nat} (h : Keep o s) :
    Keep o (ownTrigger s a1 a2 a3 a4 a5 a6) := by
  rw [ownTrigger]
  repeat' with_reducible first
    | assumption | apply keep_setF | refine keep_mk rfl rfl rfl rfl rfl rfl rfl rfl rfl rfl rfl rfl ?_

theorem keep_releaseTrigger {o s : State} {a1 : Nat} (h : Keep o s) :
    Keep o (releaseTrigger s a1) := by
  rw [releaseTrigger]
  repeat' with_reducible first
    | assumption | apply keep_setF | refine keep_mk rfl rfl rfl rfl rfl rfl rfl rfl rfl rfl rfl rfl ?_

theorem keep_ownTriggers {o s : State} {a1 : Sched} (h : Keep o s) :
    Keep o (ownTriggers s a1) := by
  rw [ownTriggers]
  repeat' with_reducible first
    | assumption | apply keep_ite | apply keep_ownTrigger | apply keep_releaseTrigger | apply keep_foldS | intro _ | split

theorem keep_switchSchedule {o s : State}  (h : Keep o s) :
    Keep o (switchSchedule s) := by
  rw [switchSchedule.eq_def]
  repeat' with_reducible first
    | assumption | apply keep_setF | apply keep_ownTriggers | apply keep_settleEdits | apply keep_setView | apply keep_foldS
    | intro _ | (dsimp only; split) | refine keep_mk rfl rfl rfl rfl rfl rfl rfl rfl rfl rfl rfl rfl ?_

theorem keep_viewBoundary {o s : State} {a1 : Nat} {a2 : Nat} (h : Keep o s) :
    Keep o (viewBoundary s a1 a2) := by
  rw [viewBoundary.eq_def]
  repeat' with_reducible first
    | assumption | apply keep_noteReaders | apply keep_endPicture | apply keep_applyEdits | apply keep_beginPicture | split

theorem keep_stopSchedule {o s : State}  (h : Keep o s) :
    Keep o (stopSchedule s) := by
  rw [stopSchedule]
  repeat' with_reducible first
    | assumption | apply keep_setF | apply keep_setView | apply keep_releaseTrigger | apply keep_settleEdits
    | apply keep_completeId | apply keep_foldS | intro _ | refine keep_mk rfl rfl rfl rfl rfl rfl rfl rfl rfl rfl rfl rfl ?_

end Sys2Proof.Machine
end

