-- ==== Sys2Proof/Laws/KeepRollCall.lean ====
section
/-!
SUPPORT. What the operations of Machine/RollCall.lean keep.
-/

set_option Elab.async false

namespace Sys2Proof.Machine

theorem keep_showChain {o s : State} {a1 : Nat} (h : Keep o s) :
    Keep o (showChain s a1) := by
  rw [showChain]
  repeat' with_reducible first
    | assumption | apply keep_ite | apply keep_ite_fst | apply keep_ite_snd | apply keep_setF | apply keep_foldl
    | apply keep_foldl_fst | apply keep_foldl_snd | intro _

theorem keep_wallLoad {o s : State}  (h : Keep o s) :
    Keep o (wallLoad s) := by
  rw [wallLoad]
  repeat' with_reducible first | assumption | apply keep_setF | intro _

theorem keep_setRollcall {o s : State} {a1 : Nat} {a2 : Option RollCall} (h : Keep o s) :
    Keep o (setRollcall s a1 a2) := by
  rw [setRollcall]
  repeat' with_reducible first
    | assumption | refine keep_mk rfl rfl rfl rfl rfl rfl rfl rfl rfl rfl rfl rfl ?_

theorem keep_setPush {o s : State} {a1 : Nat} {a2 : Option Push} (h : Keep o s) :
    Keep o (setPush s a1 a2) := by
  rw [setPush]
  repeat' with_reducible first
    | assumption | refine keep_mk rfl rfl rfl rfl rfl rfl rfl rfl rfl rfl rfl rfl ?_

theorem keep_sendRollcall {o s : State} {a1 : Nat} {a2 : Nat} {a3 : Option Nat} (h : Keep o s) :
    Keep o (sendRollcall s a1 a2 a3) := by
  rw [sendRollcall]
  repeat' with_reducible first
    | assumption | apply keep_setRollcall | apply keep_sendFrame
    | refine keep_mk rfl rfl rfl rfl rfl rfl rfl rfl rfl rfl rfl rfl ?_

theorem keep_clearChain {o s : State} {a1 : Nat} (h : Keep o s) :
    Keep o (clearChain s a1) := by
  rw [clearChain]
  repeat' with_reducible first
    | assumption | apply keep_ite | apply keep_setF | apply keep_wallLoad | apply keep_showChain | apply keep_foldS
    | intro _ | (dsimp only; split) | refine keep_mk rfl rfl rfl rfl rfl rfl rfl rfl rfl rfl rfl rfl ?_

theorem keep_sendPush {o s : State} {a1 : Nat} {a2 : Nat} {a3 : Nat} {a4 : List Byte} (h : Keep o s) :
    Keep o (sendPush s a1 a2 a3 a4) := by
  rw [sendPush]
  repeat' with_reducible first
    | assumption | apply keep_ite | apply keep_ite_fst | apply keep_ite_snd | apply keep_sendFrame | apply keep_foldl
    | apply keep_foldl_fst | apply keep_foldl_snd | intro _

theorem keep_runRollcall {o s : State} {a1 : Cmd} {a2 : List Byte} (h : Keep o s) :
    Keep o (runRollcall s a1 a2) := by
  rw [runRollcall]
  repeat' with_reducible first
    | assumption | apply keep_ite | apply keep_complete | apply keep_sendPush | apply keep_setPush | apply keep_completeId
    | apply keep_sendRollcall | apply keep_clearChain | intro _ | split

theorem keep_execRollcall {o s : State} {a0 : Nat} (h : Keep o s) :
    KeepOut o (execRollcall a0 s) := by
  rw [execRollcall]
  repeat' with_reducible first
    | assumption | apply keepOut_next | apply keep_ringRow | apply keep_runRollcall | apply keep_ringRow | intro _

theorem keep_replyInvalid {o s : State} {a1 : Nat} {a2 : Nat} (h : Keep o s) :
    Keep o (replyInvalid s a1 a2) := by
  rw [replyInvalid]
  repeat' with_reducible first | assumption | apply keep_raiseEv | apply keep_addF

theorem keep_writeDelay {o s : State} {a1 : Nat} {a2 : Nat} {a3 : Nat} {a4 : Nat} (h : Keep o s) :
    Keep o (writeDelay s a1 a2 a3 a4) := by
  rw [writeDelay]
  repeat' with_reducible first | assumption | apply keep_ite | apply keep_setF | apply keep_raiseEv | intro _

theorem keep_restoreHop {o s : State} {a1 : Nat} {a2 : Nat} {a3 : RollCall} (h : Keep o s) :
    Keep o (restoreHop s a1 a2 a3) := by
  rw [restoreHop.eq_def]
  repeat' with_reducible first
    | assumption | apply keep_setF | apply keep_showChain | (dsimp only; split)
    | refine keep_mk rfl rfl rfl rfl rfl rfl rfl rfl rfl rfl rfl rfl ?_

theorem keep_countAnswers {o s : State} {a1 : Nat} {a2 : RollCall} (h : Keep o s) :
    Keep o (countAnswers s a1 a2) := by
  rw [countAnswers]
  repeat' with_reducible first | assumption | apply keep_ite | apply keep_setF | intro _

theorem keep_takeResponse {o s : State} {a1 : Nat} {a2 : RollCall} {a3 : Nat} {a4 : List Byte} (h : Keep o s) :
    Keep o (takeResponse s a1 a2 a3 a4) := by
  rw [takeResponse]
  repeat' with_reducible first
    | assumption | apply keep_ite | apply keep_setRollcall | apply keep_countAnswers | apply keep_showChain
    | apply keep_writeDelay | apply keep_raiseEv | intro _ | split | (dsimp only; split)
    | refine keep_mk rfl rfl rfl rfl rfl rfl rfl rfl rfl rfl rfl rfl ?_

theorem keep_discardHop {o s : State} {a1 : Nat} {a2 : Nat} {a3 : RollCall} (h : Keep o s) :
    Keep o (discardHop s a1 a2 a3) := by
  rw [discardHop]
  repeat' with_reducible first
    | assumption | apply keep_restoreHop | apply keep_replyInvalid | apply keep_countAnswers | apply keep_setRollcall

theorem keep_calAck {o s : State} {a1 : Nat} {a2 : List Byte} {a3 : List Byte} (h : Keep o s) :
    Keep o (calAck s a1 a2 a3) := by
  rw [calAck.eq_def]
  repeat' with_reducible first
    | assumption | apply keep_ite | apply keep_replyInvalid | apply keep_completeId | apply keep_setPush | intro _ | split

theorem keep_rollcallRsp {o s : State} {a1 : Nat} {a2 : List Byte} (h : Keep o s) :
    Keep o (rollcallRsp s a1 a2) := by
  rw [rollcallRsp]
  repeat' with_reducible first
    | assumption | apply keep_ite | apply keep_calAck | apply keep_replyInvalid | apply keep_discardHop
    | apply keep_takeResponse | intro _ | split

theorem keep_nackRefresh {o s : State} {a1 : Nat} (h : Keep o s) :
    Keep o (nackRefresh s a1) := by
  rw [nackRefresh]
  repeat' with_reducible first
    | assumption | apply keep_ite | apply keep_requestI | intro _ | (dsimp only; split)
    | refine keep_mk rfl rfl rfl rfl rfl rfl rfl rfl rfl rfl rfl rfl ?_

theorem keep_nackReport {o s : State} {a1 : Nat} {a2 : List Byte} (h : Keep o s) :
    Keep o (nackReport s a1 a2) := by
  rw [nackReport]
  repeat' with_reducible first
    | assumption | apply keep_ite | apply keep_ite_fst | apply keep_ite_snd | apply keep_addT | apply keep_addF
    | apply keep_nackRefresh | apply keep_sheetEvent | apply keep_raiseEv | intro _ | (dsimp only; split)
    | refine keep_mk rfl rfl rfl rfl rfl rfl rfl rfl rfl rfl rfl rfl ?_

theorem keep_loopReply {o s : State} {a1 : Nat} {a2 : List Byte} (h : Keep o s) :
    Keep o (loopReply s a1 a2) := by
  rw [loopReply]
  repeat' with_reducible first
    | assumption | apply keep_ite | apply keep_addF | apply keep_raiseEv | intro _ | (dsimp only; split)
    | refine keep_mk rfl rfl rfl rfl rfl rfl rfl rfl rfl rfl rfl rfl ?_

theorem keep_sheetReply {o s : State} {a1 : Nat} {a2 : List Byte} (h : Keep o s) :
    Keep o (sheetReply s a1 a2) := by
  rw [sheetReply]
  repeat' with_reducible first
    | assumption | apply keep_ite | apply keep_replyInvalid | apply keep_rollcallRsp | apply keep_nackReport
    | apply keep_loopReply | intro _

theorem keep_execRollcallRspReceive {o s : State} {a0 : Nat} {a1 : List Byte} (h : Keep o s) :
    KeepOut o (execRollcallRspReceive a0 a1 s) := by
  rw [execRollcallRspReceive]
  repeat' with_reducible first
    | assumption | apply keepOut_next | apply keepOut_ite | apply keep_ite | apply keep_sheetReply | intro _

theorem keep_execNackReportReceive {o s : State} {a0 : Nat} {a1 : List Byte} (h : Keep o s) :
    KeepOut o (execNackReportReceive a0 a1 s) := by
  rw [execNackReportReceive]
  repeat' with_reducible first
    | assumption | apply keepOut_next | apply keepOut_ite | apply keep_ite | apply keep_nackReport | intro _

theorem keep_checkCapabilities {o s : State} {a1 : Nat} {a2 : RollCall} (h : Keep o s) :
    Keep o (checkCapabilities s a1 a2) := by
  rw [checkCapabilities]
  repeat' with_reducible first
    | assumption | apply keep_ite | apply keep_ite_fst | apply keep_ite_snd | apply keep_sheetEvent | apply keep_foldS
    | intro _ | split

theorem keep_windowEnd {o s : State} {a1 : Nat} (h : Keep o s) :
    Keep o (windowEnd s a1) := by
  rw [windowEnd.eq_def]
  repeat' with_reducible first
    | assumption | apply keep_ite | apply keep_setRollcall | apply keep_wallLoad | apply keep_checkCapabilities
    | apply keep_complete | apply keep_raiseEv | apply keep_hostWrite | intro _ | split | (dsimp only; split)

theorem keep_execRollcallWindowEnd {o s : State} {a0 : Nat} (h : Keep o s) :
    KeepOut o (execRollcallWindowEnd a0 s) := by
  rw [execRollcallWindowEnd]
  repeat' with_reducible first | assumption | apply keepOut_next | apply keep_windowEnd

theorem keep_calTimeout {o s : State} {a1 : Nat} (h : Keep o s) :
    Keep o (calTimeout s a1) := by
  rw [calTimeout.eq_def]
  repeat' with_reducible first
    | assumption | apply keep_ite | apply keep_raiseEv | apply keep_completeId | apply keep_setPush | intro _ | split

theorem keep_execCalAckTimeout {o s : State} {a0 : Nat} (h : Keep o s) :
    KeepOut o (execCalAckTimeout a0 s) := by
  rw [execCalAckTimeout]
  repeat' with_reducible first | assumption | apply keepOut_next | apply keep_calTimeout

theorem keep_backgroundPing {o s : State}  (h : Keep o s) :
    Keep o (backgroundPing s) := by
  rw [backgroundPing]
  repeat' with_reducible first
    | assumption | apply keep_ite | apply keep_sendRollcall | apply keep_foldS | intro _ | (dsimp only; split)
    | refine keep_mk rfl rfl rfl rfl rfl rfl rfl rfl rfl rfl rfl rfl ?_

theorem keep_execBackgroundPing {o s : State}  (h : Keep o s) :
    KeepOut o (execBackgroundPing s) := by
  rw [execBackgroundPing]
  repeat' with_reducible first | assumption | apply keepOut_next | apply keep_backgroundPing

end Sys2Proof.Machine
end

