-- ==== Sys2Proof/Laws/KeepTriggers.lean ====
section
/-!
SUPPORT. What the operations of Machine/Triggers.lean keep.
-/

set_option Elab.async false

namespace Sys2Proof.Machine

theorem keep_setTrig {o s : State} {a1 : Nat} {a2 : Trig} (h : Keep o s) :
    Keep o (setTrig s a1 a2) := by
  rw [setTrig]
  repeat' with_reducible first
    | assumption | refine keep_mk rfl rfl rfl rfl rfl rfl rfl rfl rfl rfl rfl rfl ?_

theorem keep_setIdle {o s : State} {a1 : Nat} (h : Keep o s) :
    Keep o (setIdle s a1) := by
  rw [setIdle]
  repeat' with_reducible first
    | assumption | apply keep_setPort | refine keep_mk rfl rfl rfl rfl rfl rfl rfl rfl rfl rfl rfl rfl ?_

theorem keep_endIdle {o s : State} {a1 : Nat} (h : Keep o s) :
    Keep o (endIdle s a1) := by
  rw [endIdle]
  repeat' with_reducible first
    | assumption | apply keep_ite | apply keep_setIdle | intro _ | split | (dsimp only; split)

theorem keep_sendLaunch {o s : State} {a1 : Nat} {a2 : Launch} (h : Keep o s) :
    Keep o (sendLaunch s a1 a2) := by
  rw [sendLaunch.eq_def]
  repeat' with_reducible first
    | assumption | apply keep_ite | apply keep_transmit | apply keep_raiseEv | apply keep_addF | apply keep_holdsProgress
    | apply keep_releaseFrame | apply keep_setF | intro _ | split

theorem keep_serveSlot {o s : State} {a1 : Nat} (h : Keep o s) :
    Keep o (serveSlot s a1) := by
  rw [serveSlot.eq_def]
  repeat' with_reducible first
    | assumption | apply keep_endIdle | apply keep_sendLaunch | apply keep_setPort | split | (dsimp only; split)

theorem keep_enterSlot {o s : State} {a1 : Nat} {a2 : Launch} (h : Keep o s) :
    Keep o (enterSlot s a1 a2) := by
  rw [enterSlot]
  repeat' with_reducible first | assumption | apply keep_serveSlot | apply keep_setPort

theorem keep_trigGoOn {o s : State} {a1 : Nat} {a2 : Nat} (h : Keep o s) :
    Keep o (trigGoOn s a1 a2) := by
  rw [trigGoOn]
  repeat' with_reducible first | assumption | apply keep_ite | apply keep_setTrig | apply keep_setF | intro _

theorem keep_trigArm {o s : State} {a1 : Nat} (h : Keep o s) :
    Keep o (trigArm s a1) := by
  rw [trigArm]
  repeat' with_reducible first
    | assumption | apply keep_ite | apply keep_raiseEv | apply keep_setF | apply keep_setTrig | apply keep_addF
    | apply keep_trigGoOn | intro _

theorem keep_trigDisarm {o s : State} {a1 : Nat} (h : Keep o s) :
    Keep o (trigDisarm s a1) := by
  rw [trigDisarm]
  repeat' with_reducible first
    | assumption | apply keep_ite | apply keep_setTrig | apply keep_setF | apply keep_endIdle | intro _ | split
    | (dsimp only; split)

theorem keep_trigCtrlWrite {o s : State} {a1 : Nat} {a2 : Nat} (h : Keep o s) :
    Keep o (trigCtrlWrite s a1 a2) := by
  rw [trigCtrlWrite]
  repeat' with_reducible first
    | assumption | apply keep_ite | apply keep_raiseEv | apply keep_trigDisarm | apply keep_setTrig | apply keep_setF
    | apply keep_trigArm | intro _

theorem keep_trigFieldWrite {o s : State} {a1 : Nat} {a2 : Nat} {a3 : Nat} (h : Keep o s) :
    Keep o (trigFieldWrite s a1 a2 a3) := by
  rw [trigFieldWrite]
  repeat' with_reducible first | assumption | apply keep_ite | apply keep_raiseEv | apply keep_setW | intro _

theorem keep_execTriggerArm {o s : State} {a0 : Nat} {a1 : Nat} (h : Keep o s) :
    KeepOut o (execTriggerArm a0 a1 s) := by
  rw [execTriggerArm]
  repeat' with_reducible first
    | assumption | apply keepOut_next | apply keepOut_ite | apply keep_ite | apply keep_trigCtrlWrite | intro _

theorem keep_execTriggerDisarm {o s : State} {a0 : Nat} {a1 : Nat} (h : Keep o s) :
    KeepOut o (execTriggerDisarm a0 a1 s) := by
  rw [execTriggerDisarm]
  repeat' with_reducible first
    | assumption | apply keepOut_next | apply keepOut_ite | apply keep_ite | apply keep_trigCtrlWrite | intro _

theorem keep_showSync {o s : State}  (h : Keep o s) :
    Keep o (showSync s) := by
  rw [showSync]
  repeat' with_reducible first
    | assumption | intro _ | (dsimp only; split) | refine keep_mk rfl rfl rfl rfl rfl rfl rfl rfl rfl rfl rfl rfl ?_

theorem keep_setPulse {o s : State} {a1 : Nat} {a2 : Option (Nat × Nat)} (h : Keep o s) :
    Keep o (setPulse s a1 a2) := by
  rw [setPulse]
  repeat' with_reducible first
    | assumption | apply keep_showSync | refine keep_mk rfl rfl rfl rfl rfl rfl rfl rfl rfl rfl rfl rfl ?_

theorem keep_pulseEnd {o s : State} {a1 : Nat} (h : Keep o s) :
    Keep o (pulseEnd s a1) := by
  rw [pulseEnd.eq_def]
  repeat' with_reducible first | assumption | apply keep_ite | apply keep_setPulse | intro _ | split

theorem keep_execTriggerPulseEnd {o s : State} {a0 : Nat} (h : Keep o s) :
    KeepOut o (execTriggerPulseEnd a0 s) := by
  rw [execTriggerPulseEnd]
  repeat' with_reducible first | assumption | apply keepOut_next | apply keep_pulseEnd

theorem keep_launchHead {o s : State} {a1 : Nat} {a2 : Nat} (h : Keep o s) :
    Keep o (launchHead s a1 a2) := by
  rw [launchHead.eq_def]
  repeat' with_reducible first
    | assumption | apply keep_raiseEv | apply keep_endIdle | apply keep_enterSlot | apply keep_headArrives
    | apply keep_setQueue | split | (dsimp only; split)

theorem keep_trigAct {o s : State} {a1 : Nat} {a2 : Nat} (h : Keep o s) :
    Keep o (trigAct s a1 a2) := by
  rw [trigAct]
  repeat' with_reducible first
    | assumption | apply keep_ite | apply keep_addF | apply keep_launchHead | apply keep_setF | apply keep_raiseEv
    | apply keep_setPulse | apply keep_viewBoundary | intro _

theorem keep_fireTrigger {o s : State} {a1 : Nat} (h : Keep o s) :
    Keep o (fireTrigger s a1) := by
  rw [fireTrigger]
  repeat' with_reducible first
    | assumption | apply keep_ite | apply keep_trigAct | apply keep_trigGoOn | apply keep_setTrig | intro _

theorem keep_trigger {o s : State} {a1 : Nat} (h : Keep o s) :
    Keep o (trigger s a1) := by
  rw [trigger]
  repeat' with_reducible first
    | assumption | apply keep_ite | apply keep_fireTrigger | apply keep_switchSchedule | intro _

theorem keep_execTriggerInstant {o s : State} {a0 : Nat} (h : Keep o s) :
    KeepOut o (execTriggerInstant a0 s) := by
  rw [execTriggerInstant]
  repeat' with_reducible first | assumption | apply keepOut_next | apply keep_trigger

theorem keep_stepTrigger {o s : State} {a1 : Nat} {a2 : Int} {a3 : Int} (h : Keep o s) :
    Keep o (stepTrigger s a1 a2 a3) := by
  rw [stepTrigger]
  repeat' with_reducible first
    | assumption | apply keep_ite | apply keep_trigAct | apply keep_addF | apply keep_trigGoOn | intro _

end Sys2Proof.Machine
end

