-- ==== Sys2Proof/Laws/KeepPresent.lean ====
section
/-!
SUPPORT. What the operations of Machine/Present.lean keep.
-/

set_option Elab.async false

namespace Sys2Proof.Machine

theorem keep_acceptSchedule {o s : State} {a1 : Nat} {a2 : Sched} (h : Keep o s) :
    Keep o (acceptSchedule s a1 a2) := by
  rw [acceptSchedule]
  repeat' with_reducible first
    | assumption | apply keep_refreshLoads | intro _ | refine keep_mk rfl rfl rfl rfl rfl rfl rfl rfl rfl rfl rfl rfl ?_

theorem keep_runPresentSchedule {o s : State} {a1 : Cmd} {a2 : List Byte} (h : Keep o s) :
    Keep o (runPresentSchedule s a1 a2) := by
  rw [runPresentSchedule.eq_def]
  repeat' with_reducible first
    | assumption | apply keep_ite | apply keep_complete | apply keep_setF | apply keep_acceptSchedule | intro _ | split
    | (dsimp only; split)

theorem keep_execPresentSchedule {o s : State} {a0 : Nat} (h : Keep o s) :
    KeepOut o (execPresentSchedule a0 s) := by
  rw [execPresentSchedule]
  repeat' with_reducible first
    | assumption | apply keepOut_next | apply keep_ringRow | apply keep_runPresentSchedule | apply keep_ringRow | intro _

theorem keep_firstPresents {o s : State}  (h : Keep o s) :
    Keep o (firstPresents s) := by
  rw [firstPresents]
  repeat' with_reducible first
    | assumption | apply keep_ite | apply keep_completeId | apply keep_foldS | intro _ | (dsimp only; split)
    | refine keep_mk rfl rfl rfl rfl rfl rfl rfl rfl rfl rfl rfl rfl ?_

theorem keep_execScheduleFirstPresent {o s : State}  (h : Keep o s) :
    KeepOut o (execScheduleFirstPresent s) := by
  rw [execScheduleFirstPresent]
  repeat' with_reducible first | assumption | apply keepOut_next | apply keep_firstPresents

theorem keep_refusePresent {o s : State} {a1 : Present} (h : Keep o s) :
    Keep o (refusePresent s a1) := by
  rw [refusePresent]
  repeat' with_reducible first
    | assumption | apply keep_ite | apply keep_setShtPartial | apply keep_addT | apply keep_raiseEv | intro _
    | (dsimp only; split) | refine keep_mk rfl rfl rfl rfl rfl rfl rfl rfl rfl rfl rfl rfl ?_

theorem keep_launchPresent {o s : State} {a1 : Present} (h : Keep o s) :
    Keep o (launchPresent s a1) := by
  rw [launchPresent]
  repeat' with_reducible first
    | assumption | apply keep_ite | apply keep_ite_fst | apply keep_ite_snd | apply keep_refusePresent
    | apply keep_countFlushed | apply keep_enterSlot | apply keep_portMirrors | apply keep_sendFrame | intro _
    | (dsimp only; split) | refine keep_mk rfl rfl rfl rfl rfl rfl rfl rfl rfl rfl rfl rfl ?_

theorem keep_idleStart {o s : State} {a1 : Nat} (h : Keep o s) :
    Keep o (idleStart s a1) := by
  rw [idleStart]
  repeat' with_reducible first | assumption | apply keep_ite | apply keep_setIdle | intro _

theorem keep_execLaunchIdleStart {o s : State} {a0 : Nat} (h : Keep o s) :
    KeepOut o (execLaunchIdleStart a0 s) := by
  rw [execLaunchIdleStart]
  repeat' with_reducible first | assumption | apply keepOut_next | apply keep_idleStart

theorem keep_sendHolds {o s : State} {a1 : Nat} {a2 : Nat} {a3 : Nat} {a4 : Nat} {a5 : Nat} (h : Keep o s) :
    Keep o (sendHolds s a1 a2 a3 a4 a5) := by
  rw [sendHolds]
  repeat' with_reducible first
    | assumption | apply keep_ite | apply keep_ite_fst | apply keep_ite_snd | apply keep_sendFrame | apply keep_holdRefused
    | apply keep_foldS | intro _

theorem keep_dropPresents {o s : State} {a1 : Nat} {a2 : Nat} (h : Keep o s) :
    Keep o (dropPresents s a1 a2) := by
  rw [dropPresents]
  repeat' with_reducible first
    | assumption | apply keep_addF | intro _ | refine keep_mk rfl rfl rfl rfl rfl rfl rfl rfl rfl rfl rfl rfl ?_

theorem keep_setHeld {o s : State} {a1 : Nat} (h : Keep o s) :
    Keep o (setHeld s a1) := by
  rw [setHeld]
  repeat' with_reducible first | assumption | apply keep_setF

theorem keep_putHold {o s : State} {a1 : HoldCmd} (h : Keep o s) :
    Keep o (putHold s a1) := by
  rw [putHold]
  repeat' with_reducible first
    | assumption | apply keep_ite | intro _ | (dsimp only; split)
    | refine keep_mk rfl rfl rfl rfl rfl rfl rfl rfl rfl rfl rfl rfl ?_

theorem keep_holdNow {o s : State} {a1 : HoldCmd} (h : Keep o s) :
    Keep o (holdNow s a1) := by
  rw [holdNow]
  repeat' with_reducible first
    | assumption | apply keep_ite | apply keep_putHold | apply keep_sendHolds | apply keep_setHeld | apply keep_dropPresents
    | apply keep_stopSchedule | apply keep_holdsProgress | apply keep_foldS | intro _

theorem keep_resumeNow {o s : State} {a1 : HoldCmd} (h : Keep o s) :
    Keep o (resumeNow s a1) := by
  rw [resumeNow]
  repeat' with_reducible first
    | assumption | apply keep_completeId | apply keep_setF | intro _
    | refine keep_mk rfl rfl rfl rfl rfl rfl rfl rfl rfl rfl rfl rfl ?_

theorem keep_runHold {o s : State} {a1 : Cmd} {a2 : List Byte} (h : Keep o s) :
    Keep o (runHold s a1 a2) := by
  rw [runHold]
  repeat' with_reducible first
    | assumption | apply keep_ite | apply keep_resumeNow | apply keep_holdNow | intro _ | (dsimp only; split)
    | refine keep_mk rfl rfl rfl rfl rfl rfl rfl rfl rfl rfl rfl rfl ?_

theorem keep_execHold {o s : State} {a0 : Nat} (h : Keep o s) :
    KeepOut o (execHold a0 s) := by
  rw [execHold]
  repeat' with_reducible first
    | assumption | apply keepOut_next | apply keep_ringRow | apply keep_runHold | apply keep_ringRow | intro _

theorem keep_execHoldInstant {o s : State}  (h : Keep o s) :
    KeepOut o (execHoldInstant s) := by
  rw [execHoldInstant]
  repeat' with_reducible first | assumption | apply keepOut_next | apply keep_holdNow | apply keep_foldS | intro _

theorem keep_execResumeInstant {o s : State}  (h : Keep o s) :
    KeepOut o (execResumeInstant s) := by
  rw [execResumeInstant]
  repeat' with_reducible first
    | assumption | apply keepOut_next | apply keep_resumeNow | apply keep_foldS | intro _

theorem keep_launchDue {o s : State} {a1 : Nat} {a2 : Nat} (h : Keep o s) :
    Keep o (launchDue s a1 a2) := by
  induction a2 generalizing s a1 with
  | zero => exact h
  | succ k ih =>
    rw [launchDue]
    repeat' with_reducible first
      | assumption | apply keep_ite | apply ih | apply keep_holdNow | apply keep_launchPresent | apply keep_foldS | intro _
      | (dsimp only; split) | refine keep_mk rfl rfl rfl rfl rfl rfl rfl rfl rfl rfl rfl rfl ?_

theorem keep_execPresentLaunch {o s : State} {a0 : Nat} (h : Keep o s) :
    KeepOut o (execPresentLaunch a0 s) := by
  rw [execPresentLaunch]
  repeat' with_reducible first
    | assumption | apply keepOut_next | apply keepOut_ite | apply keep_ite | apply keep_endIdle | apply keep_launchDue
    | intro _

theorem keep_faultHold {o s : State}  (h : Keep o s) :
    Keep o (faultHold s) := by
  rw [faultHold]
  repeat' with_reducible first
    | assumption | apply keep_ite | apply keep_emit | apply keep_setShtPartial | apply keep_completeId | apply keep_foldS
    | intro _ | (dsimp only; split) | refine keep_mk rfl rfl rfl rfl rfl rfl rfl rfl rfl rfl rfl rfl ?_

theorem keep_stopHold {o s : State}  (h : Keep o s) :
    Keep o (stopHold s) := by
  rw [stopHold]
  repeat' with_reducible first | assumption | apply keep_ite | apply keep_emit | apply keep_foldS | intro _

end Sys2Proof.Machine
end

