-- ==== Sys2Proof/Laws/KeepIntake.lean ====
section
/-!
SUPPORT. What the operations of Machine/Intake.lean keep.
-/

set_option Elab.async false

namespace Sys2Proof.Machine

theorem keep_onStream {o s : State} {a1 : Nat} {a2 : Stream → Stream} (h : Keep o s) :
    Keep o (onStream s a1 a2) := by
  rw [onStream]
  repeat' with_reducible first | assumption | apply keep_setStream

theorem keep_toSyncing {o s : State} {a1 : Nat} (h : Keep o s) :
    Keep o (toSyncing s a1) := by
  rw [toSyncing]
  repeat' with_reducible first | assumption | apply keep_onStream | intro _

theorem keep_toRunning {o s : State} {a1 : Nat} (h : Keep o s) :
    Keep o (toRunning s a1) := by
  rw [toRunning]
  repeat' with_reducible first
    | assumption | apply keep_ite | apply keep_streamEvent | apply keep_onStream | intro _

theorem keep_deliver {o s : State} {a1 : Nat} {a2 : Delivered} (h : Keep o s) :
    Keep o (deliver s a1 a2) := by
  rw [deliver]
  repeat' with_reducible first | assumption | apply keep_ite | apply keep_setStream | intro _

theorem keep_flushOutput {o s : State} {a1 : Nat} {a2 : Nat} (h : Keep o s) :
    Keep o (flushOutput s a1 a2) := by
  induction a2 generalizing s a1 with
  | zero => exact h
  | succ k ih =>
    rw [flushOutput]
    repeat' with_reducible first
      | assumption | apply keep_ite | apply keep_ite_fst | apply keep_ite_snd | apply ih | apply keep_deliver
      | apply keep_setStream | apply keep_foldl | apply keep_foldl_fst | apply keep_foldl_snd | intro _ | split

theorem keep_maybeEnded {o s : State} {a1 : Nat} (h : Keep o s) :
    Keep o (maybeEnded s a1) := by
  rw [maybeEnded]
  repeat' with_reducible first
    | assumption | apply keep_ite | apply keep_flushOutput | apply keep_streamEvent | apply keep_onStream | intro _

theorem keep_runStreamOpen {o s : State} {a1 : Cmd} {a2 : List Byte} (h : Keep o s) :
    Keep o (runStreamOpen s a1 a2) := by
  rw [runStreamOpen]
  repeat' with_reducible first
    | assumption | apply keep_complete | apply keep_refreshLoads | apply keep_setStream

theorem keep_execStreamOpen {o s : State} {a0 : Nat} (h : Keep o s) :
    KeepOut o (execStreamOpen a0 s) := by
  rw [execStreamOpen]
  repeat' with_reducible first
    | assumption | apply keepOut_next | apply keep_ringRow | apply keep_runStreamOpen | apply keep_ringRow | intro _

theorem keep_attachPicture {o s : State} {a1 : Nat} (h : Keep o s) :
    Keep o (attachPicture s a1) := by
  rw [attachPicture.eq_def]
  repeat' with_reducible first
    | assumption | apply keep_setView | apply keep_foldS | apply keep_foldl | apply keep_foldl_fst | apply keep_foldl_snd
    | intro _ | split

theorem keep_finishClose {o s : State} {a1 : Nat} {a2 : Nat} (h : Keep o s) :
    Keep o (finishClose s a1 a2) := by
  rw [finishClose]
  repeat' with_reducible first
    | assumption | apply keep_attachPicture | apply keep_setView | apply keep_completeId | apply keep_refreshLoads
    | apply keep_setStream | apply keep_foldS | intro _

theorem keep_abortData {o s : State} {a1 : Nat} {a2 : Nat} (h : Keep o s) :
    Keep o (abortData s a1 a2) := by
  rw [abortData]
  repeat' with_reducible first
    | assumption | apply keep_completeId | apply keep_onStream | apply keep_foldS | intro _

theorem keep_beginAu {o s : State} {a1 : Nat} {a2 : Option Nat} {a3 : Nat} (h : Keep o s) :
    Keep o (beginAu s a1 a2 a3) := by
  rw [beginAu]
  repeat' with_reducible first | assumption | apply keep_ite | apply keep_ite_fst | apply keep_onStream | intro _

theorem keep_readyAu {o s : State} {a1 : Nat} {a2 : Bool} (h : Keep o s) :
    Keep o (readyAu s a1 a2) := by
  rw [readyAu]
  repeat' with_reducible first | assumption | apply keep_ite | apply keep_onStream | intro _

theorem keep_noteTimestamp {o s : State} {a1 : Nat} {a2 : Option Nat} (h : Keep o s) :
    Keep o (noteTimestamp s a1 a2) := by
  rw [noteTimestamp.eq_def]
  repeat' with_reducible first
    | assumption | apply keep_ite | apply keep_onStream | apply keep_streamEvent | intro _ | split

theorem keep_endAu {o s : State} {a1 : Nat} {a2 : Nat} {a3 : Bool} (h : Keep o s) :
    Keep o (endAu s a1 a2 a3) := by
  rw [endAu.eq_def]
  repeat' with_reducible first
    | assumption | apply keep_ite | apply keep_readyAu | apply keep_noteTimestamp | apply keep_onStream | intro _ | split
    | (dsimp only; split)

theorem keep_seekUnit {o s : State} {a1 : Nat} {a2 : Nat} (h : Keep o s) :
    Keep o (seekUnit s a1 a2) := by
  rw [seekUnit]
  repeat' with_reducible first
    | assumption | apply keep_onStream | intro _ | refine keep_mk rfl rfl rfl rfl rfl rfl rfl rfl rfl rfl rfl rfl ?_

theorem keep_takeContour {o s : State} {a1 : Nat} {a2 : Nat} (h : Keep o s) :
    Keep o (takeContour s a1 a2) := by
  induction a2 generalizing s a1 with
  | zero => exact h
  | succ k ih =>
    rw [takeContour]
    repeat' with_reducible first
      | assumption | apply keep_ite | apply ih | apply keep_onStream | apply keep_seekUnit | apply keep_beginAu
      | apply keep_streamEvent | apply keep_endAu | apply keep_readyAu | intro _

theorem keep_addNal {o s : State} {a1 : Nat} {a2 : List Byte} {a3 : Bool} (h : Keep o s) :
    Keep o (addNal s a1 a2 a3) := by
  rw [addNal]
  repeat' with_reducible first | assumption | apply keep_ite | apply keep_onStream | apply keep_readyAu | intro _

theorem keep_dropBytes {o s : State} {a1 : Nat} {a2 : Nat} (h : Keep o s) :
    Keep o (dropBytes s a1 a2) := by
  rw [dropBytes]
  repeat' with_reducible first
    | assumption | apply keep_onStream | intro _ | refine keep_mk rfl rfl rfl rfl rfl rfl rfl rfl rfl rfl rfl rfl ?_

theorem keep_annexNal {o s : State} {a1 : Nat} {a2 : List Byte} {a3 : Bool} {a4 : Nat} {a5 : Nat} (h : Keep o s) :
    Keep o (annexNal s a1 a2 a3 a4 a5) := by
  rw [annexNal]
  repeat' with_reducible first
    | assumption | apply keep_ite | apply keep_ite_fst | apply keep_endAu | apply keep_addNal | apply keep_beginAu
    | apply keep_onStream | apply keep_streamEvent | intro _
    | refine keep_mk rfl rfl rfl rfl rfl rfl rfl rfl rfl rfl rfl rfl ?_

theorem keep_takeAnnexB {o s : State} {a1 : Nat} {a2 : Bool} {a3 : Nat} (h : Keep o s) :
    Keep o (takeAnnexB s a1 a2 a3) := by
  induction a3 generalizing s a1 a2 with
  | zero => exact h
  | succ k ih =>
    rw [takeAnnexB]
    repeat' with_reducible first
      | assumption | apply keep_ite | apply keep_ite_fst | apply keep_ite_snd | apply ih | apply keep_dropBytes
      | apply keep_annexNal | intro _ | split | (dsimp only; split)

theorem keep_hevcOversize {o s : State} {a1 : Nat} (h : Keep o s) :
    Keep o (hevcOversize s a1) := by
  rw [hevcOversize]
  repeat' with_reducible first
    | assumption | apply keep_ite | apply keep_onStream | apply keep_streamEvent | intro _

theorem keep_rangeEnd {o s : State} {a1 : Nat} {a2 : List Byte} (h : Keep o s) :
    Keep o (rangeEnd s a1 a2) := by
  rw [rangeEnd]
  repeat' with_reducible first
    | assumption | apply keep_ite | apply keep_takeAnnexB | apply keep_endAu | apply keep_onStream | apply keep_maybeEnded
    | intro _

theorem keep_feed {o s : State} {a1 : Nat} {a2 : Nat} {a3 : List Byte} (h : Keep o s) :
    Keep o (feed s a1 a2 a3).1 := by
  induction a2 generalizing s a1 a3 with
  | zero => exact h
  | succ k ih =>
    rw [feed]
    repeat' with_reducible first
      | assumption | apply keep_ite | apply keep_ite_fst | apply ih | apply keep_onStream | apply keep_takeContour
      | apply keep_hevcOversize | apply keep_takeAnnexB | intro _

theorem keep_rangeBegin {o s : State} {a1 : Nat} {a2 : List Byte} (h : Keep o s) :
    Keep o (rangeBegin s a1 a2) := by
  rw [rangeBegin]
  repeat' with_reducible first
    | assumption | apply keep_ite | apply keep_onStream | apply keep_toSyncing | intro _

theorem keep_feedWaits {o s : State} {a1 : Nat} {a2 : Nat} (h : Keep o s) :
    Keep o (feedWaits s a1 a2) := by
  induction a2 generalizing s a1 with
  | zero => exact h
  | succ k ih =>
    rw [feedWaits]
    repeat' with_reducible first
      | assumption | apply keep_ite | apply keep_ite_fst | apply keep_ite_snd | apply ih | apply keep_rangeBegin
      | apply keep_feed | apply keep_onStream | apply keep_complete | apply keep_rangeEnd | intro _ | split

theorem keep_runStreamData {o s : State} {a1 : Cmd} {a2 : List Byte} (h : Keep o s) :
    Keep o (runStreamData s a1 a2) := by
  rw [runStreamData]
  repeat' with_reducible first
    | assumption | apply keep_ite | apply keep_complete | apply keep_feedWaits | apply keep_setStream | intro _

theorem keep_execStreamData {o s : State} {a0 : Nat} (h : Keep o s) :
    KeepOut o (execStreamData a0 s) := by
  rw [execStreamData]
  repeat' with_reducible first
    | assumption | apply keepOut_next | apply keep_ringRow | apply keep_runStreamData | apply keep_ringRow | intro _

theorem keep_execStreamDataResume {o s : State} {a0 : Nat} (h : Keep o s) :
    KeepOut o (execStreamDataResume a0 s) := by
  rw [execStreamDataResume]
  repeat' with_reducible first | assumption | apply keepOut_next | apply keep_feedWaits

theorem keep_runStreamConcealSet {o s : State} {a1 : Cmd} {a2 : List Byte} (h : Keep o s) :
    Keep o (runStreamConcealSet s a1 a2) := by
  rw [runStreamConcealSet]
  repeat' with_reducible first | assumption | apply keep_complete | apply keep_onStream | intro _

theorem keep_execStreamConcealSet {o s : State} {a0 : Nat} (h : Keep o s) :
    KeepOut o (execStreamConcealSet a0 s) := by
  rw [execStreamConcealSet]
  repeat' with_reducible first
    | assumption | apply keepOut_next | apply keep_ringRow | apply keep_runStreamConcealSet | apply keep_ringRow | intro _

theorem keep_putSegment {o s : State} {a1 : Nat} {a2 : Nat × Nat × List Byte} (h : Keep o s) :
    Keep o (putSegment s a1 a2) := by
  rw [putSegment]
  repeat' with_reducible first
    | assumption | apply keep_ite | apply keep_streamEvent | apply keep_setStream | refine keep_snd (by assumption) ?_
    | refine keep_fst (by assumption) ?_ | intro _ | split

theorem keep_endRaster {o s : State} {a1 : Nat} (h : Keep o s) :
    Keep o (endRaster s a1) := by
  rw [endRaster.eq_def]
  repeat' with_reducible first
    | assumption | apply keep_ite | apply keep_setStream | apply keep_toRunning | apply keep_onStream | apply keep_deliver
    | intro _ | split | (dsimp only; split)

theorem keep_commitBand {o s : State} {a1 : Nat} (h : Keep o s) :
    Keep o (commitBand s a1) := by
  rw [commitBand.eq_def]
  repeat' with_reducible first
    | assumption | apply keep_ite | apply keep_setStream | apply keep_streamEvent | apply keep_endRaster | intro _ | split
    | (dsimp only; split)

theorem keep_execSt2110BandCommit {o s : State} {a0 : Nat} (h : Keep o s) :
    KeepOut o (execSt2110BandCommit a0 s) := by
  rw [execSt2110BandCommit]
  repeat' with_reducible first | assumption | apply keepOut_next | apply keep_commitBand

theorem keep_closeRaster {o s : State} {a1 : Nat} {a2 : Nat} (h : Keep o s) :
    Keep o (closeRaster s a1 a2) := by
  induction a2 generalizing s a1 with
  | zero => exact h
  | succ k ih =>
    rw [closeRaster]
    repeat' with_reducible first
      | assumption | apply keep_ite | apply ih | apply keep_onStream | apply keep_commitBand | intro _

theorem keep_beginRaster {o s : State} {a1 : Nat} {a2 : Nat} (h : Keep o s) :
    Keep o (beginRaster s a1 a2) := by
  rw [beginRaster]
  repeat' with_reducible first
    | assumption | apply keep_noteTimestamp | apply keep_onStream | intro _
    | refine keep_mk rfl rfl rfl rfl rfl rfl rfl rfl rfl rfl rfl rfl ?_

theorem keep_rasterRows {o s : State} {a1 : Nat} {a2 : List Byte} (h : Keep o s) :
    Keep o (rasterRows s a1 a2) := by
  rw [rasterRows]
  repeat' with_reducible first
    | assumption | apply keep_ite | apply keep_ite_fst | apply keep_ite_snd | apply keep_streamEvent | apply keep_putSegment
    | apply keep_foldS | intro _ | split | (dsimp only; split)

theorem keep_takeRaster {o s : State} {a1 : Nat} {a2 : Packet} (h : Keep o s) :
    Keep o (takeRaster s a1 a2) := by
  rw [takeRaster]
  repeat' with_reducible first
    | assumption | apply keep_ite | apply keep_streamEvent | apply keep_onStream | apply keep_closeRaster
    | apply keep_beginRaster | apply keep_rasterRows | intro _

theorem keep_splitAu {o s : State} {a1 : Nat} {a2 : Nat} (h : Keep o s) :
    Keep o (splitAu s a1 a2) := by
  rw [splitAu.eq_def]
  repeat' with_reducible first | assumption | apply keep_ite | apply keep_endAu | intro _ | split

theorem keep_takeContourPacket {o s : State} {a1 : Nat} {a2 : Packet} (h : Keep o s) :
    Keep o (takeContourPacket s a1 a2) := by
  rw [takeContourPacket.eq_def]
  repeat' with_reducible first
    | assumption | apply keep_ite | apply keep_beginAu | apply keep_splitAu | apply keep_endAu | apply keep_streamEvent
    | apply keep_addF | apply keep_onStream | apply keep_readyAu | intro _ | split | (dsimp only; split)

theorem keep_lostNal {o s : State} {a1 : Nat} (h : Keep o s) :
    Keep o (lostNal s a1) := by
  rw [lostNal]
  repeat' with_reducible first | assumption | apply keep_onStream | intro _

theorem keep_setFragment {o s : State} {a1 : Nat} {a2 : Option Bool} (h : Keep o s) :
    Keep o (setFragment s a1 a2) := by
  rw [setFragment]
  repeat' with_reducible first
    | assumption | apply keep_onStream | intro _ | refine keep_mk rfl rfl rfl rfl rfl rfl rfl rfl rfl rfl rfl rfl ?_

theorem keep_fuPacket {o s : State} {a1 : Nat} {a2 : List Byte} (h : Keep o s) :
    Keep o (fuPacket s a1 a2) := by
  rw [fuPacket.eq_def]
  repeat' with_reducible first
    | assumption | apply keep_ite | apply keep_ite_fst | apply keep_setFragment | apply keep_onStream | apply keep_addNal
    | apply keep_lostNal | apply keep_streamEvent | intro _ | split

theorem keep_takeHevcPacket {o s : State} {a1 : Nat} {a2 : Packet} (h : Keep o s) :
    Keep o (takeHevcPacket s a1 a2) := by
  rw [takeHevcPacket]
  repeat' with_reducible first
    | assumption | apply keep_ite | apply keep_beginAu | apply keep_splitAu | apply keep_setFragment | apply keep_addNal
    | apply keep_fuPacket | apply keep_streamEvent | apply keep_lostNal | apply keep_onStream | apply keep_endAu
    | apply keep_foldS | intro _

theorem keep_takePacket {o s : State} {a1 : Nat} {a2 : Packet} (h : Keep o s) :
    Keep o (takePacket s a1 a2) := by
  rw [takePacket]
  repeat' with_reducible first
    | assumption | apply keep_ite | apply keep_toSyncing | apply keep_takeRaster | apply keep_takeContourPacket
    | apply keep_takeHevcPacket | intro _

theorem keep_showCells {o s : State}  (h : Keep o s) :
    Keep o (showCells s) := by
  rw [showCells]
  repeat' with_reducible first | assumption | apply keep_setF

theorem keep_releaseInOrder {o s : State} {a1 : Nat} {a2 : Nat} (h : Keep o s) :
    Keep o (releaseInOrder s a1 a2) := by
  induction a2 generalizing s a1 with
  | zero => exact h
  | succ k ih =>
    rw [releaseInOrder]
    repeat' with_reducible first
      | assumption | apply ih | apply keep_onStream | apply keep_takePacket | apply keep_setStream | intro _ | split

theorem keep_losePackets {o s : State} {a1 : Nat} {a2 : Nat} (h : Keep o s) :
    Keep o (losePackets s a1 a2) := by
  rw [losePackets]
  repeat' with_reducible first
    | assumption | apply keep_ite | apply keep_setStream | apply keep_streamEvent | intro _ | split | (dsimp only; split)
    | refine keep_mk rfl rfl rfl rfl rfl rfl rfl rfl rfl rfl rfl rfl ?_

theorem keep_loseGap {o s : State} {a1 : Nat} (h : Keep o s) :
    Keep o (loseGap s a1) := by
  rw [loseGap.eq_def]
  repeat' with_reducible first
    | assumption | apply keep_ite | apply keep_losePackets | apply keep_onStream | intro _ | split | (dsimp only; split)
    | refine keep_mk rfl rfl rfl rfl rfl rfl rfl rfl rfl rfl rfl rfl ?_

theorem keep_passGap {o s : State} {a1 : Nat} (h : Keep o s) :
    Keep o (passGap s a1) := by
  rw [passGap]
  repeat' with_reducible first
    | assumption | apply keep_showCells | apply keep_releaseInOrder | apply keep_loseGap

theorem keep_execReorderTimeout {o s : State} {a0 : Nat} (h : Keep o s) :
    KeepOut o (execReorderTimeout a0 s) := by
  rw [execReorderTimeout]
  repeat' with_reducible first
    | assumption | apply keepOut_next | apply keepOut_ite | apply keep_ite | apply keep_passGap | intro _ | split
    | (dsimp only; split)

theorem keep_loseAllGaps {o s : State} {a1 : Nat} {a2 : Nat} (h : Keep o s) :
    Keep o (loseAllGaps s a1 a2) := by
  induction a2 generalizing s a1 with
  | zero => exact h
  | succ k ih =>
    rw [loseAllGaps]
    repeat' with_reducible first | assumption | apply keep_ite | apply ih | apply keep_passGap | intro _

theorem keep_stagingPressure {o s : State}  (h : Keep o s) :
    Keep o (stagingPressure s) := by
  rw [stagingPressure]
  repeat' with_reducible first
    | assumption | apply keep_ite | apply keep_ite_fst | apply keep_ite_snd | apply keep_streamEvent
    | apply keep_loseAllGaps | apply keep_foldl | apply keep_foldl_fst | apply keep_foldl_snd | intro _

theorem keep_dropPacket {o s : State}  (h : Keep o s) :
    Keep o (dropPacket s) := by
  rw [dropPacket]
  repeat' with_reducible first | assumption | apply keep_addF

theorem keep_loseBehind {o s : State} {a1 : Nat} {a2 : Nat} {a3 : Nat} (h : Keep o s) :
    Keep o (loseBehind s a1 a2 a3) := by
  induction a3 generalizing s a1 a2 with
  | zero => exact h
  | succ k ih =>
    rw [loseBehind]
    repeat' with_reducible first
      | assumption | apply keep_ite | apply ih | apply keep_takePacket | apply keep_setStream | apply keep_losePackets
      | intro _ | split

theorem keep_acceptPacket {o s : State} {a1 : Nat} {a2 : Nat} {a3 : Packet} (h : Keep o s) :
    Keep o (acceptPacket s a1 a2 a3) := by
  rw [acceptPacket]
  repeat' with_reducible first
    | assumption | apply keep_ite | apply keep_onStream | apply keep_loseBehind | apply keep_releaseInOrder
    | apply keep_passGap | apply keep_stagingPressure | apply keep_showCells | intro _

theorem keep_receivePacket {o s : State} {a1 : Nat} {a2 : List Byte} (h : Keep o s) :
    Keep o (receivePacket s a1 a2) := by
  rw [receivePacket]
  repeat' with_reducible first
    | assumption | apply keep_ite | apply keep_dropPacket | apply keep_streamEvent | apply keep_loseAllGaps
    | apply keep_acceptPacket | apply keep_onStream | apply keep_setStream | intro _

theorem keep_execStreamPacketReceive {o s : State} {a0 : Nat} {a1 : List Byte} (h : Keep o s) :
    KeepOut o (execStreamPacketReceive a0 a1 s) := by
  rw [execStreamPacketReceive]
  repeat' with_reducible first
    | assumption | apply keepOut_next | apply keepOut_ite | apply keep_ite | apply keep_receivePacket | intro _

end Sys2Proof.Machine
end

