-- ==== Sys2Proof/Laws/KeepDecoding.lean ====
section
/-!
SUPPORT. What the operations of Machine/Decoding.lean keep.
-/

set_option Elab.async false

namespace Sys2Proof.Machine

theorem keep_setJob {o s : State} {a1 : Nat} {a2 : Job} (h : Keep o s) :
    Keep o (setJob s a1 a2) := by
  rw [setJob]
  repeat' with_reducible first | assumption | apply keep_onStream | intro _

theorem keep_pruneAus {o s : State} {a1 : Nat} {a2 : Nat} (h : Keep o s) :
    Keep o (pruneAus s a1 a2) := by
  induction a2 generalizing s a1 with
  | zero => exact h
  | succ k ih =>
    rw [pruneAus]
    repeat' with_reducible first
      | assumption | apply keep_ite | apply ih | apply keep_maybeEnded | apply keep_setStream | apply keep_streamEvent
      | intro _ | split

theorem keep_pruneEarly {o s : State} {a1 : Nat} (h : Keep o s) :
    Keep o (pruneEarly s a1) := by
  rw [pruneEarly.eq_def]
  repeat' with_reducible first
    | assumption | apply keep_ite | apply keep_streamEvent | apply keep_setStream | intro _ | split | (dsimp only; split)
    | refine keep_mk rfl rfl rfl rfl rfl rfl rfl rfl rfl rfl rfl rfl ?_

theorem keep_dropJob {o s : State} {a1 : Nat} {a2 : Job} (h : Keep o s) :
    Keep o (dropJob s a1 a2) := by
  rw [dropJob]
  repeat' with_reducible first | assumption | apply keep_ite | apply keep_onStream | intro _

theorem keep_afterPicture {o s : State} {a1 : Nat} (h : Keep o s) :
    Keep o (afterPicture s a1) := by
  rw [afterPicture.eq_def]
  repeat' with_reducible first
    | assumption | apply keep_finishClose | apply keep_maybeEnded | split | (dsimp only; split)

theorem keep_giveUp {o s : State} {a1 : Nat} (h : Keep o s) :
    Keep o (giveUp s a1) := by
  rw [giveUp]
  repeat' with_reducible first
    | assumption | apply keep_freeCore | apply keep_dropJob | apply keep_afterPicture | split

theorem keep_checkStreamHeader {o s : State} {a1 : Nat} {a2 : List Byte} (h : Keep o s) :
    Keep o (checkStreamHeader s a1 a2) := by
  rw [checkStreamHeader]
  repeat' with_reducible first
    | assumption | apply keep_ite | apply keep_streamEvent | apply keep_setStream | intro _

theorem keep_beginContour {o s : State} {a1 : Nat} {a2 : Job} (h : Keep o s) :
    Keep o (beginContour s a1 a2) := by
  rw [beginContour.eq_def]
  repeat' with_reducible first
    | assumption | apply keep_ite | apply keep_checkStreamHeader | apply keep_giveUp | apply keep_streamEvent
    | apply keep_onStream | apply keep_toRunning | apply keep_setJob | intro _ | split

theorem keep_startOnCore {o s : State} {a1 : Nat} (h : Keep o s) :
    Keep o (startOnCore s a1) := by
  rw [startOnCore.eq_def]
  repeat' with_reducible first
    | assumption | apply keep_ite | apply keep_startEncode | apply keep_setCoreState | apply keep_freeCore
    | apply keep_setJob | apply keep_toRunning | apply keep_beginContour | intro _ | split | (dsimp only; split)

theorem keep_dispatch {o s : State} {a1 : Nat} (h : Keep o s) :
    Keep o (dispatch s a1) := by
  rw [dispatch]
  repeat' with_reducible first
    | assumption | apply keep_ite | apply keep_ite_fst | apply keep_ite_snd | apply keep_pruneEarly | apply keep_pruneAus
    | apply keep_setStream | apply keep_setCore | apply keep_countBusy | apply keep_busyRoll | apply keep_setF
    | apply keep_startOnCore | apply keep_setCoreState | apply keep_foldS | intro _ | split | (dsimp only; split)

theorem keep_execDispatchPicture {o s : State} {a0 : Nat} (h : Keep o s) :
    KeepOut o (execDispatchPicture a0 s) := by
  rw [execDispatchPicture]
  repeat' with_reducible first | assumption | apply keepOut_next | apply keep_dispatch

theorem keep_execContextSwitchDone {o s : State} {a0 : Nat} (h : Keep o s) :
    KeepOut o (execContextSwitchDone a0 s) := by
  rw [execContextSwitchDone]
  repeat' with_reducible first
    | assumption | apply keepOut_next | apply keepOut_ite | apply keep_ite | apply keep_startOnCore | apply keep_saveContext
    | intro _ | split | (dsimp only; split)

theorem keep_execCoreEnableWrite {o s : State} {a0 : Nat} (h : Keep o s) :
    KeepOut o (execCoreEnableWrite a0 s) := by
  rw [execCoreEnableWrite]
  repeat' with_reducible first | assumption | apply keepOut_next | apply keep_setF

theorem keep_loseRows {o s : State} {a1 : Nat} {a2 : Nat} {a3 : Nat} (h : Keep o s) :
    Keep o (loseRows s a1 a2 a3) := by
  rw [loseRows.eq_def]
  repeat' with_reducible first
    | assumption | apply keep_ite | apply keep_streamEvent | apply keep_setStream | intro _ | split | (dsimp only; split)

theorem keep_waitInput {o s : State} {a1 : Job} (h : Keep o s) :
    Keep o (waitInput s a1) := by
  rw [waitInput]
  repeat' with_reducible first | assumption | apply keep_ite | apply keep_setCoreState | intro _

theorem keep_contourSlice {o s : State} {a1 : Nat} {a2 : Job} {a3 : PicHdr} {a4 : SliceHdr} {a5 : Nat} (h : Keep o s) :
    Keep o (contourSlice s a1 a2 a3 a4 a5) := by
  rw [contourSlice.eq_def]
  repeat' with_reducible first
    | assumption | apply keep_ite | apply keep_loseRows | apply keep_setJob | apply keep_streamEvent | intro _ | split
    | (dsimp only; split)

theorem keep_contourTail {o s : State} {a1 : Nat} {a2 : Job} (h : Keep o s) :
    Keep o (contourTail s a1 a2) := by
  rw [contourTail]
  repeat' with_reducible first
    | assumption | apply keep_ite | apply keep_streamEvent | apply keep_setJob | intro _ | split | (dsimp only; split)
    | refine keep_mk rfl rfl rfl rfl rfl rfl rfl rfl rfl rfl rfl rfl ?_

theorem keep_nextContour {o s : State} {a1 : Nat} {a2 : Job} {a3 : PicHdr} (h : Keep o s) :
    Keep o (nextContour s a1 a2 a3) := by
  rw [nextContour]
  repeat' with_reducible first
    | assumption | apply keep_ite | apply keep_contourTail | apply keep_setJob | apply keep_waitInput
    | apply keep_contourSlice | apply keep_setCoreState | apply keep_streamEvent | intro _ | split | (dsimp only; split)

theorem keep_nextHevc {o s : State} {a1 : Nat} {a2 : Job} {a3 : HevcSlice} (h : Keep o s) :
    Keep o (nextHevc s a1 a2 a3) := by
  rw [nextHevc.eq_def]
  repeat' with_reducible first
    | assumption | apply keep_ite | apply keep_ite_fst | apply keep_ite_snd | apply keep_waitInput | apply keep_giveUp
    | apply keep_streamEvent | apply keep_onStream | apply keep_setCoreState | apply keep_setJob | apply keep_loseRows
    | intro _ | split | (dsimp only; split)

theorem keep_execSliceDecodeDone {o s : State} {a0 : Nat} {a1 : Option HevcSlice} (h : Keep o s) :
    KeepOut o (execSliceDecodeDone a0 a1 s) := by
  rw [execSliceDecodeDone]
  repeat' with_reducible first
    | assumption | apply keepOut_next | apply keepOut_ite | apply keep_ite | apply keep_nextContour | apply keep_nextHevc
    | intro _ | split

theorem keep_judgeDeadline {o s : State} {a1 : Nat} {a2 : Bool} {a3 : Bool} (h : Keep o s) :
    Keep o (judgeDeadline s a1 a2 a3) := by
  rw [judgeDeadline]
  repeat' with_reducible first
    | assumption | apply keep_ite | apply keep_addT | apply keep_setStream | apply keep_addF | apply keep_streamEvent
    | apply keep_onStream | intro _

theorem keep_bumpOutput {o s : State} {a1 : Nat} {a2 : List Int} (h : Keep o s) :
    Keep o (bumpOutput s a1 a2) := by
  rw [bumpOutput]
  repeat' with_reducible first
    | assumption | apply keep_deliver | apply keep_setStream | apply keep_foldS | intro _ | split | (dsimp only; split)

theorem keep_closeContour {o s : State} {a1 : Nat} {a2 : Job} {a3 : PicHdr} (h : Keep o s) :
    Keep o (closeContour s a1 a2 a3) := by
  rw [closeContour]
  repeat' with_reducible first
    | assumption | apply keep_ite | apply keep_setStream | apply keep_streamEvent | intro _

theorem keep_closeHevc {o s : State} {a1 : Nat} {a2 : Job} {a3 : HevcEnd} (h : Keep o s) :
    Keep o (closeHevc s a1 a2 a3) := by
  rw [closeHevc]
  repeat' with_reducible first
    | assumption | apply keep_ite | apply keep_ite_fst | apply keep_streamEvent | apply keep_setStream | intro _

theorem keep_closeJob {o s : State} {a1 : Nat} {a2 : Job} {a3 : HevcEnd} (h : Keep o s) :
    Keep o (closeJob s a1 a2 a3) := by
  rw [closeJob.eq_def]
  repeat' with_reducible first | assumption | apply keep_closeContour | apply keep_closeHevc | split

theorem keep_outputJob {o s : State} {a1 : Nat} {a2 : Job} {a3 : HevcEnd} {a4 : Delivered} (h : Keep o s) :
    Keep o (outputJob s a1 a2 a3 a4) := by
  rw [outputJob.eq_def]
  repeat' with_reducible first
    | assumption | apply keep_ite | apply keep_ite_fst | apply keep_deliver | apply keep_bumpOutput | apply keep_onStream
    | intro _ | split

theorem keep_endPictureOf {o s : State} {a1 : Nat} {a2 : HevcEnd} (h : Keep o s) :
    Keep o (endPictureOf s a1 a2) := by
  rw [endPictureOf.eq_def]
  repeat' with_reducible first
    | assumption | apply keep_ite | apply keep_closeJob | apply keep_dropJob | apply keep_judgeDeadline
    | apply keep_outputJob | apply keep_afterPicture | apply keep_freeCore | intro _ | split

theorem keep_execPictureDecodeDone {o s : State} {a0 : Nat} {a1 : Option HevcEnd} (h : Keep o s) :
    KeepOut o (execPictureDecodeDone a0 a1 s) := by
  rw [execPictureDecodeDone]
  repeat' with_reducible first
    | assumption | apply keepOut_next | apply keepOut_ite | apply keep_ite | apply keep_endPictureOf | intro _ | split

theorem keep_concludePicture {o s : State} {a1 : Nat} (h : Keep o s) :
    Keep o (concludePicture s a1) := by
  rw [concludePicture.eq_def]
  repeat' with_reducible first
    | assumption | apply keep_ite | apply keep_giveUp | apply keep_onStream | apply keep_loseRows | apply keep_endPictureOf
    | intro _ | split

theorem keep_loseOfPicture {o s : State} {a1 : Nat} {a2 : Nat} {a3 : Nat} (h : Keep o s) :
    Keep o (loseOfPicture s a1 a2 a3) := by
  induction a3 generalizing s a1 a2 with
  | zero => exact h
  | succ k ih =>
    rw [loseOfPicture]
    repeat' with_reducible first
      | assumption | apply keep_ite | apply ih | apply keep_passGap | intro _ | split | (dsimp only; split)

theorem keep_inputDue {o s : State} {a1 : Nat} {a2 : Nat} (h : Keep o s) :
    Keep o (inputDue s a1 a2) := by
  rw [inputDue]
  repeat' with_reducible first
    | assumption | apply keep_ite | apply keep_loseOfPicture | apply keep_losePackets | apply keep_endAu
    | apply keep_closeRaster | intro _ | split | (dsimp only; split)

theorem keep_missExpected {o s : State} {a1 : Nat} (h : Keep o s) :
    Keep o (missExpected s a1) := by
  rw [missExpected.eq_def]
  repeat' with_reducible first
    | assumption | apply keep_ite | apply keep_judgeDeadline | apply keep_setStream | intro _ | split | (dsimp only; split)
    | refine keep_mk rfl rfl rfl rfl rfl rfl rfl rfl rfl rfl rfl rfl ?_

theorem keep_pictureDue {o s : State} {a1 : Nat} (h : Keep o s) :
    Keep o (pictureDue s a1) := by
  rw [pictureDue.eq_def]
  repeat' with_reducible first
    | assumption | apply keep_ite | apply keep_loseOfPicture | apply keep_concludePicture | apply keep_inputDue
    | apply keep_missExpected | intro _ | split | (dsimp only; split)

theorem keep_execPictureDeadline {o s : State} {a0 : Nat} (h : Keep o s) :
    KeepOut o (execPictureDeadline a0 s) := by
  rw [execPictureDeadline]
  repeat' with_reducible first | assumption | apply keepOut_next | apply keep_pictureDue

theorem keep_runStreamClose {o s : State} {a1 : Cmd} {a2 : List Byte} (h : Keep o s) :
    Keep o (runStreamClose s a1 a2) := by
  rw [runStreamClose.eq_def]
  repeat' with_reducible first
    | assumption | apply keep_ite | apply keep_abortData | apply keep_onStream | apply keep_showCells
    | apply keep_finishClose | apply keep_concludePicture | intro _ | split | (dsimp only; split)

theorem keep_execStreamClose {o s : State} {a0 : Nat} (h : Keep o s) :
    KeepOut o (execStreamClose a0 s) := by
  rw [execStreamClose]
  repeat' with_reducible first
    | assumption | apply keepOut_next | apply keep_ringRow | apply keep_runStreamClose | apply keep_ringRow | intro _

theorem keep_resetCore {o s : State} {a1 : Nat} (h : Keep o s) :
    Keep o (resetCore s a1) := by
  rw [resetCore]
  repeat' with_reducible first
    | assumption | apply keep_closingJob | apply keep_completeId | apply keep_concludePicture | apply keep_abortData
    | apply keep_freeCore | apply keep_raiseEv | apply keep_setCoreState | split

theorem keep_resetShared {o s : State}  (h : Keep o s) :
    Keep o (resetShared s) := by
  rw [resetShared]
  repeat' with_reducible first
    | assumption | apply keep_ite | apply keep_ite_fst | apply keep_abortData | apply keep_finishClose
    | apply keep_toSyncing | apply keep_onStream | apply keep_showCells | apply keep_foldS | intro _ | split
    | (dsimp only; split) | refine keep_mk rfl rfl rfl rfl rfl rfl rfl rfl rfl rfl rfl rfl ?_

end Sys2Proof.Machine
end

