-- ==== Sys2Proof/Laws/KeepBmca.lean ====
section
/-!
SUPPORT. What the operations of Machine/Bmca.lean keep.
-/

set_option Elab.async false

namespace Sys2Proof.Machine

theorem keep_bmca {o s : State}  (h : Keep o s) :
    Keep o (bmca s) := by
  rw [bmca]
  repeat' with_reducible first
    | assumption | apply keep_ite | apply keep_ite_fst | apply keep_setF | apply keep_setB | apply keep_raiseEv
    | apply keep_foldS | intro _ | (dsimp only; split) | refine keep_mk rfl rfl rfl rfl rfl rfl rfl rfl rfl rfl rfl rfl ?_

theorem keep_ptpPortDown {o s : State} {a1 : Nat} (h : Keep o s) :
    Keep o (ptpPortDown s a1) := by
  rw [ptpPortDown]
  repeat' with_reducible first | assumption | apply keep_ite | apply keep_setPtp | apply keep_bmca | intro _

end Sys2Proof.Machine
end

