-- ==== Sys2Proof/Laws/KeepPorts.lean ====
section
/-!
SUPPORT. What the operations of Machine/Ports.lean keep.
-/

set_option Elab.async false

namespace Sys2Proof.Machine

theorem keep_setPortState {o s : State} {a1 : Nat} {a2 : Nat} (h : Keep o s) :
    Keep o (setPortState s a1 a2) := by
  rw [setPortState]
  repeat' with_reducible first | assumption | apply keep_setF

theorem keep_showUp {o s : State} {a1 : Nat} {a2 : Bool} (h : Keep o s) :
    Keep o (showUp s a1 a2) := by
  rw [showUp]
  repeat' with_reducible first | assumption | apply keep_setF | apply keep_foldS | intro _

theorem keep_bringUp {o s : State} {a1 : Nat} (h : Keep o s) :
    Keep o (bringUp s a1) := by
  rw [bringUp]
  repeat' with_reducible first
    | assumption | apply keep_ite | apply keep_setPort | apply keep_setPortState | intro _

theorem keep_takeDown {o s : State} {a1 : Nat} (h : Keep o s) :
    Keep o (takeDown s a1) := by
  rw [takeDown]
  repeat' with_reducible first
    | assumption | apply keep_ite | apply keep_flushPort | apply keep_setPortState | apply keep_addF | apply keep_setPort
    | apply keep_setF | apply keep_showUp | apply keep_ptpPortDown | apply keep_raiseEv | intro _

theorem keep_loseLink {o s : State} {a1 : Nat} (h : Keep o s) :
    Keep o (loseLink s a1) := by
  rw [loseLink]
  repeat' with_reducible first
    | assumption | apply keep_ite | apply keep_takeDown | apply keep_raiseEv | apply keep_setPort | apply keep_setPortState
    | apply keep_bringUp | intro _

theorem keep_execLinkLoss {o s : State} {a0 : Nat} (h : Keep o s) :
    KeepOut o (execLinkLoss a0 s) := by
  rw [execLinkLoss]
  repeat' with_reducible first | assumption | apply keepOut_next | apply keep_loseLink

theorem keep_execLinkFlapHoldEnd {o s : State} {a0 : Nat} (h : Keep o s) :
    KeepOut o (execLinkFlapHoldEnd a0 s) := by
  rw [execLinkFlapHoldEnd]
  repeat' with_reducible first
    | assumption | apply keepOut_next | apply keepOut_ite | apply keep_ite | apply keep_bringUp | intro _

theorem keep_execAutoNegotiationDone {o s : State} {a0 : Nat} {a1 : Nat} {a2 : Nat} (h : Keep o s) :
    KeepOut o (execAutoNegotiationDone a0 a1 a2 s) := by
  rw [execAutoNegotiationDone]
  repeat' with_reducible first
    | assumption | apply keepOut_next | apply keepOut_ite | apply keep_ite | apply keep_setF | apply keep_raiseEv
    | apply keep_setPort | apply keep_setPortState | intro _ | split

theorem keep_execLinkTrainingDone {o s : State} {a0 : Nat} (h : Keep o s) :
    KeepOut o (execLinkTrainingDone a0 s) := by
  rw [execLinkTrainingDone]
  repeat' with_reducible first
    | assumption | apply keepOut_next | apply keepOut_ite | apply keep_ite | apply keep_setPort | apply keep_setPortState
    | intro _

theorem keep_execLinkTrainingTimeout {o s : State} {a0 : Nat} (h : Keep o s) :
    KeepOut o (execLinkTrainingTimeout a0 s) := by
  rw [execLinkTrainingTimeout]
  repeat' with_reducible first
    | assumption | apply keepOut_next | apply keepOut_ite | apply keep_ite | apply keep_raiseEv | apply keep_setPort
    | apply keep_setPortState | intro _

theorem keep_execLinkLockHeld {o s : State} {a0 : Nat} (h : Keep o s) :
    KeepOut o (execLinkLockHeld a0 s) := by
  rw [execLinkLockHeld]
  repeat' with_reducible first
    | assumption | apply keepOut_next | apply keepOut_ite | apply keep_ite | apply keep_setF | apply keep_setPortState
    | apply keep_showUp | apply keep_setPort | apply keep_raiseEv | apply keep_bmca | apply keep_serveSlot | intro _

theorem keep_showConfig {o s : State} {a1 : Nat} {a2 : List Byte} (h : Keep o s) :
    Keep o (showConfig s a1 a2) := by
  rw [showConfig]
  repeat' with_reducible first | assumption | apply keep_setF

theorem keep_markBond {o s : State} {a1 : Nat} {a2 : List Byte} {a3 : Bool} (h : Keep o s) :
    Keep o (markBond s a1 a2 a3) := by
  rw [markBond]
  repeat' with_reducible first | assumption | apply keep_setB | apply keep_foldS | intro _

theorem keep_dropMeasure {o s : State} {a1 : Nat} {a2 : Nat} (h : Keep o s) :
    Keep o (dropMeasure s a1 a2) := by
  rw [dropMeasure]
  repeat' with_reducible first
    | assumption | apply keep_completeId | apply keep_setPort | apply keep_foldS | intro _

theorem keep_disablePort {o s : State} {a1 : Nat} (h : Keep o s) :
    Keep o (disablePort s a1) := by
  rw [disablePort]
  repeat' with_reducible first
    | assumption | apply keep_ite | apply keep_dropMeasure | apply keep_markBond | apply keep_takeDown
    | apply keep_setPortState | apply keep_flushPort | apply keep_setPort | intro _

theorem keep_enablePort {o s : State} {a1 : Nat} {a2 : List Byte} (h : Keep o s) :
    Keep o (enablePort s a1 a2) := by
  rw [enablePort]
  repeat' with_reducible first
    | assumption | apply keep_ite | apply keep_showConfig | apply keep_setPort | apply keep_flushPort | apply keep_markBond
    | apply keep_takeDown | apply keep_bringUp | apply keep_wakeDomains | intro _

theorem keep_runPortConfig {o s : State} {a1 : Cmd} {a2 : List Byte} (h : Keep o s) :
    Keep o (runPortConfig s a1 a2) := by
  rw [runPortConfig]
  repeat' with_reducible first
    | assumption | apply keep_ite | apply keep_disablePort | apply keep_enablePort | apply keep_bringUp
    | apply keep_flushPort | apply keep_takeDown | apply keep_complete | apply keep_bmca | intro _

theorem keep_execPortConfig {o s : State} {a0 : Nat} (h : Keep o s) :
    KeepOut o (execPortConfig a0 s) := by
  rw [execPortConfig]
  repeat' with_reducible first
    | assumption | apply keepOut_next | apply keep_ringRow | apply keep_runPortConfig | apply keep_ringRow | intro _

theorem keep_finishMeasure {o s : State} {a1 : Nat} {a2 : Cmd} (h : Keep o s) :
    Keep o (finishMeasure s a1 a2) := by
  rw [finishMeasure]
  repeat' with_reducible first
    | assumption | apply keep_ite | apply keep_ite_fst | apply keep_ite_snd | apply keep_setF | apply keep_complete
    | apply keep_raiseEv | apply keep_hostWrite | intro _

theorem keep_runPortMeasure {o s : State} {a1 : Cmd} {a2 : List Byte} (h : Keep o s) :
    Keep o (runPortMeasure s a1 a2) := by
  rw [runPortMeasure]
  repeat' with_reducible first
    | assumption | apply keep_ite | apply keep_setPort | apply keep_finishMeasure | intro _

theorem keep_execPortMeasure {o s : State} {a0 : Nat} (h : Keep o s) :
    KeepOut o (execPortMeasure a0 s) := by
  rw [execPortMeasure]
  repeat' with_reducible first
    | assumption | apply keepOut_next | apply keep_ringRow | apply keep_runPortMeasure | apply keep_ringRow | intro _

theorem keep_equaliserEstimate {o s : State} {a1 : Nat} {a2 : List (Nat × Nat)} (h : Keep o s) :
    Keep o (equaliserEstimate s a1 a2) := by
  rw [equaliserEstimate]
  repeat' with_reducible first
    | assumption | apply keep_setPort | apply keep_setF | apply keep_finishMeasure | apply keep_foldS | intro _
    | refine keep_mk rfl rfl rfl rfl rfl rfl rfl rfl rfl rfl rfl rfl ?_

theorem keep_execEqualiserEstimateDone {o s : State} {a0 : Nat} {a1 : List (Nat × Nat)} (h : Keep o s) :
    KeepOut o (execEqualiserEstimateDone a0 a1 s) := by
  rw [execEqualiserEstimateDone]
  repeat' with_reducible first
    | assumption | apply keepOut_next | apply keepOut_ite | apply keep_ite | apply keep_equaliserEstimate | intro _ | split
    | (dsimp only; split)

end Sys2Proof.Machine
end

