-- ==== Sys2Proof/Laws/KeepSwitch.lean ====
section
/-!
SUPPORT. What the operations of Machine/Switch.lean keep.
-/

set_option Elab.async false

namespace Sys2Proof.Machine

theorem keep_setMeter {o s : State} {a1 : Nat} {a2 : Meter} (h : Keep o s) :
    Keep o (setMeter s a1 a2) := by
  rw [setMeter]
  repeat' with_reducible first
    | assumption | refine keep_mk rfl rfl rfl rfl rfl rfl rfl rfl rfl rfl rfl rfl ?_

theorem keep_police {o s : State} {a1 : Nat} {a2 : Nat} {a3 : List Byte} (h : Keep o s) :
    Keep o (police s a1 a2 a3).2 := by
  rw [police]
  repeat' with_reducible first
    | assumption | apply keep_ite | apply keep_ite_fst | apply keep_ite_snd | apply keep_setMeter | apply keep_addF
    | apply keep_addT | refine keep_snd (by assumption) ?_ | refine keep_fst (by assumption) ?_ | intro _ | split

theorem keep_unbindElsewhere {o s : State} {a1 : Nat} {a2 : List (Nat × Nat)} (h : Keep o s) :
    Keep o (unbindElsewhere s a1 a2) := by
  rw [unbindElsewhere]
  repeat' with_reducible first
    | assumption | apply keep_ite | apply keep_ite_fst | apply keep_ite_snd | apply keep_foldl | apply keep_foldl_fst
    | apply keep_foldl_snd | intro _ | (dsimp only; split)
    | refine keep_mk rfl rfl rfl rfl rfl rfl rfl rfl rfl rfl rfl rfl ?_

theorem keep_runMeterSet {o s : State} {a1 : Cmd} {a2 : List Byte} (h : Keep o s) :
    Keep o (runMeterSet s a1 a2) := by
  rw [runMeterSet.eq_def]
  repeat' with_reducible first
    | assumption | apply keep_ite | apply keep_complete | apply keep_setMeter | apply keep_unbindElsewhere | intro _ | split
    | (dsimp only; split)

theorem keep_execMeterSet {o s : State} {a0 : Nat} (h : Keep o s) :
    KeepOut o (execMeterSet a0 s) := by
  rw [execMeterSet]
  repeat' with_reducible first
    | assumption | apply keepOut_next | apply keep_ringRow | apply keep_runMeterSet | apply keep_ringRow | intro _

theorem keep_refuse {o s : State} {a1 : Bool} {a2 : Nat} (h : Keep o s) :
    Keep o (refuse s a1 a2) := by
  rw [refuse]
  repeat' with_reducible first
    | assumption | apply keep_ite | apply keep_countFlushed | apply keep_addF | apply keep_addT | intro _

theorem keep_toSink {o s : State} {a1 : List Byte} {a2 : Decision} {a3 : Nat} (h : Keep o s) :
    Keep o (toSink s a1 a2 a3) := by
  rw [toSink]
  repeat' with_reducible first
    | assumption | apply keep_emit | apply keep_portMirrors | split | (dsimp only; split)

theorem keep_cutShort {o s : State} {a1 : Nat} {a2 : Nat} {a3 : Nat} {a4 : List Byte} {a5 : List Nat} (h : Keep o s) :
    Keep o (cutShort s a1 a2 a3 a4 a5) := by
  rw [cutShort]
  repeat' with_reducible first
    | assumption | apply keep_ite | apply keep_ite_snd | apply keep_poolEmpty | apply keep_pushFrame | apply keep_foldS
    | intro _ | split | (dsimp only; split) | refine keep_mk rfl rfl rfl rfl rfl rfl rfl rfl rfl rfl rfl rfl ?_

theorem keep_forward {o s : State} {a1 : Nat} {a2 : Nat} {a3 : List Byte} {a4 : Decision} {a5 : Bool} {a6 : Bool} {a7 : Int} (h : Keep o s) :
    Keep o (forward s a1 a2 a3 a4 a5 a6 a7) := by
  rw [forward]
  repeat' with_reducible first
    | assumption | apply keep_ite | apply keep_refuse | apply keep_toSink | refine keep_bufferFrame ?_ _ _ (by assumption)
    | apply keep_cutShort | apply keep_releaseFrame | apply keep_pushFrame | apply keep_pfcCheck | apply keep_foldS
    | refine keep_snd (by assumption) ?_ | refine keep_fst (by assumption) ?_ | intro _ | split | (dsimp only; split)

theorem keep_pauseClass {o s : State} {a1 : Nat} {a2 : Nat} {a3 : Nat} (h : Keep o s) :
    Keep o (pauseClass s a1 a2 a3) := by
  rw [pauseClass]
  repeat' with_reducible first | assumption | apply keep_ite | apply keep_setPort | intro _

theorem keep_takePause {o s : State} {a1 : Nat} {a2 : List Byte} (h : Keep o s) :
    Keep o (takePause s a1 a2) := by
  rw [takePause]
  repeat' with_reducible first | assumption | apply keep_ite | apply keep_pauseClass | apply keep_foldS | intro _

theorem keep_execPauseFrameReceive {o s : State} {a0 : Nat} {a1 : List Byte} (h : Keep o s) :
    KeepOut o (execPauseFrameReceive a0 a1 s) := by
  rw [execPauseFrameReceive]
  repeat' with_reducible first
    | assumption | apply keepOut_next | apply keepOut_ite | apply keep_ite | apply keep_takePause | intro _

theorem keep_pauseExpiry {o s : State} {a1 : Nat} (h : Keep o s) :
    Keep o (pauseExpiry s a1) := by
  rw [pauseExpiry]
  repeat' with_reducible first | assumption | apply keep_serveSlot | apply keep_setPort | intro _

theorem keep_execPauseQuantaExpiry {o s : State} {a0 : Nat} (h : Keep o s) :
    KeepOut o (execPauseQuantaExpiry a0 s) := by
  rw [execPauseQuantaExpiry]
  repeat' with_reducible first
    | assumption | apply keepOut_next | apply keepOut_ite | apply keep_ite | apply keep_pauseExpiry | intro _

theorem keep_rxError {o s : State} {a1 : Nat} (h : Keep o s) :
    Keep o (rxError s a1) := by
  rw [rxError]
  repeat' with_reducible first | assumption | apply keep_ite | apply keep_raiseEv | apply keep_setPort | intro _

theorem keep_fecCorrected {o s : State} {a1 : Nat} {a2 : Nat} (h : Keep o s) :
    Keep o (fecCorrected s a1 a2) := by
  rw [fecCorrected]
  repeat' with_reducible first
    | assumption | apply keep_ite | apply keep_ite_fst | apply keep_ite_snd | apply keep_addT | apply keep_addF
    | apply keep_setPort | intro _

theorem keep_fecUncorrected {o s : State} {a1 : Nat} {a2 : Nat} (h : Keep o s) :
    Keep o (fecUncorrected s a1 a2) := by
  rw [fecUncorrected]
  repeat' with_reducible first
    | assumption | apply keep_ite | apply keep_addF | apply keep_setPort | apply keep_raiseEv | intro _

theorem keep_arrive {o s : State} {a1 : Nat} {a2 : List Byte} {a3 : Bool} (h : Keep o s) :
    Keep o (arrive s a1 a2 a3) := by
  rw [arrive.eq_def]
  repeat' with_reducible first
    | assumption | apply keep_ite | apply keep_ite_fst | apply keep_ite_snd | apply keep_police | apply keep_addT
    | apply keep_addF | apply keep_raiseEv | apply keep_forward | apply keep_mirrorCopy | apply keep_foldS
    | refine keep_snd (by assumption) ?_ | refine keep_fst (by assumption) ?_ | intro _ | split | (dsimp only; split)

theorem keep_frameLookup {o s : State} {a1 : Nat} {a2 : List Byte} {a3 : Nat} {a4 : Nat} {a5 : Nat} (h : Keep o s) :
    Keep o (frameLookup s a1 a2 a3 a4 a5) := by
  rw [frameLookup]
  repeat' with_reducible first
    | assumption | apply keep_ite | apply keep_fecUncorrected | apply keep_fecCorrected | apply keep_arrive
    | apply keep_rxError | apply keep_addF | apply keep_addT | apply keep_takePause | intro _

theorem keep_execFrameLookup {o s : State} {a0 : Nat} {a1 : List Byte} {a2 : Nat} {a3 : Nat} {a4 : Nat} (h : Keep o s) :
    KeepOut o (execFrameLookup a0 a1 a2 a3 a4 s) := by
  rw [execFrameLookup]
  repeat' with_reducible first
    | assumption | apply keepOut_next | apply keepOut_ite | apply keep_ite | apply keep_frameLookup | intro _

theorem keep_setTable {o s : State} {a1 : Nat} {a2 : SMap (List Byte)} (h : Keep o s) :
    Keep o (setTable s a1 a2) := by
  rw [setTable]
  repeat' with_reducible first
    | assumption | apply keep_ite | intro _ | (dsimp only; split)
    | refine keep_mk rfl rfl rfl rfl rfl rfl rfl rfl rfl rfl rfl rfl ?_

theorem keep_setUpdates {o s : State} {a1 : List TableUpd} (h : Keep o s) :
    Keep o (setUpdates s a1) := by
  rw [setUpdates]
  repeat' with_reducible first
    | assumption | refine keep_mk rfl rfl rfl rfl rfl rfl rfl rfl rfl rfl rfl rfl ?_

theorem keep_runUpdates {o s : State} {a1 : Nat} {a2 : Nat} (h : Keep o s) :
    Keep o (runUpdates s a1 a2) := by
  induction a2 generalizing s a1 with
  | zero => exact h
  | succ k ih =>
    rw [runUpdates]
    repeat' with_reducible first
      | assumption | apply keep_ite | apply ih | apply keep_completeId | apply keep_setUpdates | apply keep_setF
      | apply keep_setTable | intro _ | split | (dsimp only; split)

theorem keep_runTableUpdate {o s : State} {a1 : Cmd} {a2 : List Byte} (h : Keep o s) :
    Keep o (runTableUpdate s a1 a2) := by
  rw [runTableUpdate]
  repeat' with_reducible first | assumption | apply keep_runUpdates | apply keep_setUpdates

theorem keep_execTableUpdate {o s : State} {a0 : Nat} (h : Keep o s) :
    KeepOut o (execTableUpdate a0 s) := by
  rw [execTableUpdate]
  repeat' with_reducible first
    | assumption | apply keepOut_next | apply keep_ringRow | apply keep_runTableUpdate | apply keep_ringRow | intro _

theorem keep_fenceDone {o s : State} {a1 : Nat} {a2 : TableUpd} {a3 : Nat} (h : Keep o s) :
    Keep o (fenceDone s a1 a2 a3) := by
  rw [fenceDone]
  repeat' with_reducible first
    | assumption | apply keep_ite | apply keep_setUpdates | apply keep_setF | apply keep_raiseEv | apply keep_completeId
    | apply keep_runUpdates | intro _

theorem keep_fenceReached {o s : State} {a1 : Nat} (h : Keep o s) :
    Keep o (fenceReached s a1) := by
  rw [fenceReached.eq_def]
  repeat' with_reducible first
    | assumption | apply keep_ite | apply keep_ite_snd | apply keep_fenceDone | intro _ | split

theorem keep_execTableFenceReached {o s : State} {a0 : Nat} (h : Keep o s) :
    KeepOut o (execTableFenceReached a0 s) := by
  rw [execTableFenceReached]
  repeat' with_reducible first | assumption | apply keepOut_next | apply keep_fenceReached

theorem keep_dropOldEpoch {o s : State} {a1 : Nat} (h : Keep o s) :
    Keep o (dropOldEpoch s a1).1 := by
  rw [dropOldEpoch]
  repeat' with_reducible first
    | assumption | apply keep_ite | apply keep_ite_fst | apply keep_ite_snd | apply keep_frameLost | apply keep_releaseFrame
    | apply keep_setQueue | apply keep_headArrives | apply keep_foldS | apply keep_foldl | apply keep_foldl_fst
    | apply keep_foldl_snd | intro _

theorem keep_execTableFenceTimeout {o s : State} {a0 : Nat} (h : Keep o s) :
    KeepOut o (execTableFenceTimeout a0 s) := by
  rw [execTableFenceTimeout]
  repeat' with_reducible first
    | assumption | apply keepOut_next | apply keepOut_ite | apply keep_ite | apply keep_ite_fst | apply keep_ite_snd
    | apply keep_dropOldEpoch | apply keep_holdsProgress | apply keep_fenceDone | apply keep_addF | apply keep_addT
    | intro _ | split

theorem keep_runMirrorSet {o s : State} {a1 : Cmd} {a2 : List Byte} (h : Keep o s) :
    Keep o (runMirrorSet s a1 a2) := by
  rw [runMirrorSet]
  repeat' with_reducible first
    | assumption | apply keep_ite | apply keep_setF | apply keep_complete | intro _ | (dsimp only; split)
    | refine keep_mk rfl rfl rfl rfl rfl rfl rfl rfl rfl rfl rfl rfl ?_

theorem keep_execMirrorSet {o s : State} {a0 : Nat} (h : Keep o s) :
    KeepOut o (execMirrorSet a0 s) := by
  rw [execMirrorSet]
  repeat' with_reducible first
    | assumption | apply keepOut_next | apply keep_ringRow | apply keep_runMirrorSet | apply keep_ringRow | intro _

end Sys2Proof.Machine
end

