-- ==== Sys2Proof/Laws/KeepTraffic.lean ====
section
/-!
SUPPORT. What the operations of Machine/Traffic.lean keep.
-/

set_option Elab.async false

namespace Sys2Proof.Machine

theorem keep_dropOversize {o s : State} {a1 : Nat} (h : Keep o s) :
    Keep o (dropOversize s a1) := by
  rw [dropOversize]
  repeat' with_reducible first
    | assumption | apply keep_ite | apply keep_addF | apply keep_holdsProgress | apply keep_frameLost | apply keep_popFrame
    | apply keep_raiseEv | apply keep_foldS | intro _ | (dsimp only; split)
    | refine keep_mk rfl rfl rfl rfl rfl rfl rfl rfl rfl rfl rfl rfl ?_

theorem keep_sendHead {o s : State} {a1 : Nat} {a2 : Nat} (h : Keep o s) :
    Keep o (sendHead s a1 a2) := by
  rw [sendHead.eq_def]
  repeat' with_reducible first
    | assumption | apply keep_ite | apply keep_transmit | apply keep_popFrame | apply keep_takeCredit
    | apply keep_holdsProgress | intro _ | (dsimp only; split)
    | refine keep_mk rfl rfl rfl rfl rfl rfl rfl rfl rfl rfl rfl rfl ?_

theorem keep_frameSelect {o s : State} {a1 : Nat} (h : Keep o s) :
    Keep o (frameSelect s a1) := by
  rw [frameSelect]
  repeat' with_reducible first
    | assumption | apply keep_ite | apply keep_serveSlot | apply keep_dropOversize | apply keep_sendHead | intro _ | split
    | (dsimp only; split)

theorem keep_execTmFrameSelect {o s : State} {a0 : Nat} (h : Keep o s) :
    KeepOut o (execTmFrameSelect a0 s) := by
  rw [execTmFrameSelect]
  repeat' with_reducible first | assumption | apply keepOut_next | apply keep_frameSelect

theorem keep_completeNext {o s : State} {a1 : Shaper} (h : Keep o s) :
    Keep o (completeNext s a1) := by
  rw [completeNext]
  repeat' with_reducible first | assumption | apply keep_completeId | apply keep_foldS | intro _

theorem keep_runShaperSet {o s : State} {a1 : Cmd} {a2 : List Byte} (h : Keep o s) :
    Keep o (runShaperSet s a1 a2) := by
  rw [runShaperSet]
  repeat' with_reducible first
    | assumption | apply keep_ite | apply keep_complete | apply keep_completeNext | apply keep_setShaper | intro _

theorem keep_execShaperSet {o s : State} {a0 : Nat} (h : Keep o s) :
    KeepOut o (execShaperSet a0 s) := by
  rw [execShaperSet]
  repeat' with_reducible first
    | assumption | apply keepOut_next | apply keep_ringRow | apply keep_runShaperSet | apply keep_ringRow | intro _

theorem keep_wheelLate {o s : State} {a1 : Nat} (h : Keep o s) :
    Keep o (wheelLate s a1) := by
  rw [wheelLate]
  repeat' with_reducible first | assumption | apply keep_ite | apply keep_raiseEv | apply keep_addF | intro _

theorem keep_shaperRefill {o s : State} {a1 : Nat} {a2 : Nat} (h : Keep o s) :
    Keep o (shaperRefill s a1 a2) := by
  rw [shaperRefill]
  repeat' with_reducible first
    | assumption | apply keep_ite | apply keep_ite_snd | apply keep_wheelLate | apply keep_completeNext
    | apply keep_setShaper | intro _

theorem keep_execShaperRefill {o s : State} {a0 : Nat} {a1 : Nat} (h : Keep o s) :
    KeepOut o (execShaperRefill a0 a1 s) := by
  rw [execShaperRefill]
  repeat' with_reducible first | assumption | apply keepOut_next | apply keep_shaperRefill

theorem keep_overflowScan {o s : State}  (h : Keep o s) :
    Keep o (overflowScan s) := by
  rw [overflowScan]
  repeat' with_reducible first
    | assumption | apply keep_ite | apply keep_ite_fst | apply keep_ite_snd | intro _ | (dsimp only; split)
    | refine keep_mk rfl rfl rfl rfl rfl rfl rfl rfl rfl rfl rfl rfl ?_

theorem keep_execWheelOverflowScan {o s : State}  (h : Keep o s) :
    KeepOut o (execWheelOverflowScan s) := by
  rw [execWheelOverflowScan]
  repeat' with_reducible first | assumption | apply keepOut_next | apply keep_overflowScan

theorem keep_showGates {o s : State} {a1 : Nat} (h : Keep o s) :
    Keep o (showGates s a1) := by
  rw [showGates]
  repeat' with_reducible first | assumption | apply keep_setF

theorem keep_setGateNext {o s : State} {a1 : Nat} {a2 : Option GateList} (h : Keep o s) :
    Keep o (setGateNext s a1 a2) := by
  rw [setGateNext]
  repeat' with_reducible first
    | assumption | apply keep_setB | refine keep_mk rfl rfl rfl rfl rfl rfl rfl rfl rfl rfl rfl rfl ?_

theorem keep_runGateListSet {o s : State} {a1 : Cmd} {a2 : List Byte} (h : Keep o s) :
    Keep o (runGateListSet s a1 a2) := by
  rw [runGateListSet.eq_def]
  repeat' with_reducible first
    | assumption | apply keep_ite | apply keep_complete | apply keep_setF | apply keep_setGateNext | intro _ | split
    | (dsimp only; split)

theorem keep_execGateListSet {o s : State} {a0 : Nat} (h : Keep o s) :
    KeepOut o (execGateListSet a0 s) := by
  rw [execGateListSet]
  repeat' with_reducible first
    | assumption | apply keepOut_next | apply keep_ringRow | apply keep_runGateListSet | apply keep_ringRow | intro _

theorem keep_activateGates {o s : State} {a1 : Nat} {a2 : GateList} (h : Keep o s) :
    Keep o (activateGates s a1 a2) := by
  rw [activateGates]
  repeat' with_reducible first
    | assumption | apply keep_ite | apply keep_setGateNext | apply keep_setF | apply keep_setB | apply keep_raiseEv
    | apply keep_showGates | intro _ | (dsimp only; split)
    | refine keep_mk rfl rfl rfl rfl rfl rfl rfl rfl rfl rfl rfl rfl ?_

theorem keep_gateListStart {o s : State} {a1 : Nat} (h : Keep o s) :
    Keep o (gateListStart s a1) := by
  rw [gateListStart.eq_def]
  repeat' with_reducible first | assumption | apply keep_ite | apply keep_activateGates | intro _ | split

theorem keep_execGateListStart {o s : State} {a0 : Nat} (h : Keep o s) :
    KeepOut o (execGateListStart a0 s) := by
  rw [execGateListStart]
  repeat' with_reducible first | assumption | apply keepOut_next | apply keep_gateListStart

theorem keep_execGateEntryChange {o s : State} {a0 : Nat} (h : Keep o s) :
    KeepOut o (execGateEntryChange a0 s) := by
  rw [execGateEntryChange]
  repeat' with_reducible first
    | assumption | apply keepOut_next | apply keepOut_ite | apply keep_ite | apply keep_showGates | intro _

end Sys2Proof.Machine
end

