-- ==== Sys2Proof/Laws/KeepMeridian.lean ====
section
/-!
SUPPORT. What the operations of Machine/Meridian.lean keep.
-/

set_option Elab.async false

namespace Sys2Proof.Machine

theorem keep_setClock48 {o s : State} {a1 : Nat} (h : Keep o s) : Keep o (setClock48 s a1) := by
  refine keep_mer (fun _ => ?_) h
  have h1 : a1 / 2 ^ 48 % 1000000000 < 1000000000 := Nat.mod_lt _ (by decide)
  have h2 : a1 % 2 ^ 48 < 2 ^ 48 := Nat.mod_lt _ (by decide)
  simp only [Mer.isTime, Bool.and_eq_true, decide_eq_true_eq]
  exact ⟨h1, h2⟩

theorem keep_tickClock {o s : State}  (h : Keep o s) :
    Keep o (tickClock s) := by
  rw [tickClock]
  repeat' with_reducible first | assumption | apply keep_setClock48

theorem keep_unlock {o s : State}  (h : Keep o s) :
    Keep o (unlock s) := by
  rw [unlock]
  repeat' with_reducible first
    | assumption | apply keep_ite | apply keep_raiseEv | apply keep_setF | intro _ | (dsimp only; split)
    | refine keep_mk rfl rfl rfl rfl rfl rfl rfl rfl rfl rfl rfl rfl ?_

theorem keep_stepSeries {o s : State} {a1 : Nat} {a2 : Int} {a3 : Nat} (h : Keep o s) :
    Keep o (stepSeries s a1 a2 a3) := by
  rw [stepSeries]
  repeat' with_reducible first
    | assumption | apply keep_ite | apply keep_stepTrigger | apply keep_trigAct | apply keep_setTrig | intro _

theorem keep_stepTriggers {o s : State} {a0 : Nat} {a1 : Int} {a2 : Nat} (h : Keep o s) :
    Keep o (stepTriggers a0 a1 a2 s) := by
  induction a2 generalizing a0 a1 s with
  | zero => exact h
  | succ k ih =>
    rw [stepTriggers]
    repeat' with_reducible first
      | assumption | apply keep_ite | apply ih | apply keep_stepSeries | apply keep_switchSchedule | apply keep_foldS
      | intro _ | split

theorem keep_stepInstants {o s : State} {a1 : Nat} {a2 : Int} (h : Keep o s) :
    Keep o (stepInstants s a1 a2) := by
  rw [stepInstants]
  repeat' with_reducible first
    | assumption | apply keep_ite | apply keep_resumeNow | apply keep_holdNow | apply keep_launchPresent
    | apply keep_completeId | apply keep_foldS | intro _ | (dsimp only; split)
    | refine keep_mk rfl rfl rfl rfl rfl rfl rfl rfl rfl rfl rfl rfl ?_

theorem keep_gateJudged {o s : State} {a1 : Nat} (h : Keep o s) :
    Keep o (gateJudged s a1) := by
  rw [gateJudged.eq_def]
  repeat' with_reducible first
    | assumption | apply keep_ite | apply keep_activateGates | intro _ | split | (dsimp only; split)

theorem keep_stepGates {o s : State}  (h : Keep o s) :
    Keep o (stepGates s) := by
  rw [stepGates]
  repeat' with_reducible first
    | assumption | apply keep_gateJudged | apply keep_showGates | apply keep_foldS | intro _

theorem keep_stepClock {o s : State} {a1 : Nat} (h : Keep o s) :
    Keep o (stepClock s a1) := by
  rw [stepClock]
  repeat' with_reducible first
    | assumption | apply keep_ite | apply keep_unlock | apply keep_setClock48 | apply keep_raiseEv | apply keep_addF
    | apply keep_stepInstants | apply keep_stepTriggers | apply keep_stepGates | intro _

theorem keep_stepBy {o s : State} {a1 : Int} (h : Keep o s) :
    Keep o (stepBy s a1) := by
  rw [stepBy]
  repeat' with_reducible first | assumption | apply keep_stepClock

theorem keep_latchTime {o s : State}  (h : Keep o s) :
    Keep o (latchTime s) := by
  rw [latchTime]
  repeat' with_reducible first
    | assumption | apply keep_setF | refine keep_mk rfl rfl rfl rfl rfl rfl rfl rfl rfl rfl rfl rfl ?_

theorem keep_timeValid {o s : State}  (h : Keep o s) :
    Keep o (timeValid s) := by
  rw [timeValid]
  repeat' with_reducible first | assumption | apply keep_setF

theorem keep_setTime {o s : State}  (h : Keep o s) :
    Keep o (setTime s) := by
  rw [setTime]
  repeat' with_reducible first
    | assumption | apply keep_ite | apply keep_raiseEv | apply keep_stepClock | apply keep_timeValid | intro _

theorem keep_timeCmd {o s : State} {a1 : Bool} {a2 : Bool} {a3 : Bool} (h : Keep o s) :
    Keep o (timeCmd s a1 a2 a3) := by
  rw [timeCmd]
  repeat' with_reducible first
    | assumption | apply keep_ite | apply keep_latchTime | apply keep_setTime | apply keep_stepBy | apply keep_timeValid
    | intro _

theorem keep_execMerTimeLatch {o s : State} {a0 : Bool} {a1 : Bool} (h : Keep o s) :
    KeepOut o (execMerTimeLatch a0 a1 s) := by
  rw [execMerTimeLatch]
  repeat' with_reducible first | assumption | apply keepOut_next | apply keep_timeCmd

theorem keep_execMerTimeSet {o s : State} {a0 : Bool} {a1 : Bool} (h : Keep o s) :
    KeepOut o (execMerTimeSet a0 a1 s) := by
  rw [execMerTimeSet]
  repeat' with_reducible first | assumption | apply keepOut_next | apply keep_timeCmd

theorem keep_execMerTimeStep {o s : State} {a0 : Bool} {a1 : Bool} (h : Keep o s) :
    KeepOut o (execMerTimeStep a0 a1 s) := by
  rw [execMerTimeStep]
  repeat' with_reducible first | assumption | apply keepOut_next | apply keep_timeCmd

theorem keep_setAdj {o s : State} {a1 : Int} (h : Keep o s) :
    Keep o (setAdj s a1) := by
  rw [setAdj]
  repeat' with_reducible first | assumption | apply keep_setS

theorem keep_freqAdjWrite {o s : State} {a1 : Nat} (h : Keep o s) :
    Keep o (freqAdjWrite s a1) := by
  rw [freqAdjWrite]
  repeat' with_reducible first | assumption | apply keep_ite | apply keep_setAdj | intro _

theorem keep_execMerFreqAdjWrite {o s : State} {a0 : Nat} (h : Keep o s) :
    KeepOut o (execMerFreqAdjWrite a0 s) := by
  rw [execMerFreqAdjWrite]
  repeat' with_reducible first | assumption | apply keepOut_next | apply keep_freqAdjWrite

theorem keep_servoLoop {o s : State} {a1 : Int} {a2 : Int} (h : Keep o s) :
    Keep o (servoLoop s a1 a2) := by
  rw [servoLoop]
  repeat' with_reducible first
    | assumption | apply keep_setAdj | apply keep_setF | refine keep_mk rfl rfl rfl rfl rfl rfl rfl rfl rfl rfl rfl rfl ?_

theorem keep_servoCorrect {o s : State} {a1 : Int} (h : Keep o s) :
    Keep o (servoCorrect s a1) := by
  rw [servoCorrect]
  repeat' with_reducible first
    | assumption | apply keep_ite | apply keep_stepBy | apply keep_setAdj | apply keep_raiseEv | apply keep_unlock
    | apply keep_setF | intro _ | (dsimp only; split) | refine keep_mk rfl rfl rfl rfl rfl rfl rfl rfl rfl rfl rfl rfl ?_

theorem keep_servoCount {o s : State} {a1 : Int} (h : Keep o s) :
    Keep o (servoCount s a1) := by
  rw [servoCount]
  repeat' with_reducible first
    | assumption | apply keep_ite | apply keep_servoCorrect | intro _ | (dsimp only; split)
    | refine keep_mk rfl rfl rfl rfl rfl rfl rfl rfl rfl rfl rfl rfl ?_

theorem keep_servoLock {o s : State} {a1 : Int} (h : Keep o s) :
    Keep o (servoLock s a1) := by
  rw [servoLock]
  repeat' with_reducible first
    | assumption | apply keep_ite | apply keep_unlock | apply keep_raiseEv | apply keep_setF | intro _ | (dsimp only; split)
    | refine keep_mk rfl rfl rfl rfl rfl rfl rfl rfl rfl rfl rfl rfl ?_

theorem keep_servoSample {o s : State} {a1 : Int} {a2 : Int} (h : Keep o s) :
    Keep o (servoSample s a1 a2) := by
  rw [servoSample]
  repeat' with_reducible first
    | assumption | apply keep_ite | apply keep_setS | apply keep_servoLock | apply keep_setF | apply keep_servoCount
    | apply keep_servoLoop | intro _ | (dsimp only; split)
    | refine keep_mk rfl rfl rfl rfl rfl rfl rfl rfl rfl rfl rfl rfl ?_

theorem keep_execServoSample {o s : State} {a0 : Int} (h : Keep o s) :
    KeepOut o (execServoSample a0 s) := by
  rw [execServoSample]
  repeat' with_reducible first
    | assumption | apply keepOut_next | apply keepOut_ite | apply keep_ite | apply keep_servoSample | intro _

theorem keep_servoOffsetWrite {o s : State} {a1 : Nat} (h : Keep o s) :
    Keep o (servoOffsetWrite s a1) := by
  rw [servoOffsetWrite]
  repeat' with_reducible first
    | assumption | apply keep_ite | apply keep_setW | apply keep_setS | apply keep_servoSample | intro _

theorem keep_execMerServoOffsetWrite {o s : State} {a0 : Nat} (h : Keep o s) :
    KeepOut o (execMerServoOffsetWrite a0 s) := by
  rw [execMerServoOffsetWrite]
  repeat' with_reducible first
    | assumption | apply keepOut_next | apply keepOut_ite | apply keep_ite | apply keep_servoOffsetWrite | intro _

theorem keep_holdover {o s : State}  (h : Keep o s) :
    Keep o (holdover s) := by
  rw [holdover.eq_def]
  repeat' with_reducible first
    | assumption | apply keep_ite | apply keep_setF | apply keep_raiseEv | apply keep_setAdj | intro _ | (dsimp only; split)
    | refine keep_mk rfl rfl rfl rfl rfl rfl rfl rfl rfl rfl rfl rfl ?_

theorem keep_execHoldoverTimeout {o s : State}  (h : Keep o s) :
    KeepOut o (execHoldoverTimeout s) := by
  rw [execHoldoverTimeout]
  repeat' with_reducible first | assumption | apply keepOut_next | apply keep_holdover

theorem keep_merCtrlWrite {o s : State} {a1 : Nat} (h : Keep o s) :
    Keep o (merCtrlWrite s a1) := by
  rw [merCtrlWrite]
  repeat' with_reducible first
    | assumption | apply keep_ite | apply keep_setW | apply keep_setF | apply keep_unlock | apply keep_bmca | intro _
    | (dsimp only; split) | refine keep_mk rfl rfl rfl rfl rfl rfl rfl rfl rfl rfl rfl rfl ?_

theorem keep_ppsPulseEnd {o s : State}  (h : Keep o s) :
    Keep o (ppsPulseEnd s) := by
  rw [ppsPulseEnd.eq_def]
  repeat' with_reducible first
    | assumption | apply keep_ite | apply keep_ppsOut | intro _ | (dsimp only; split)
    | refine keep_mk rfl rfl rfl rfl rfl rfl rfl rfl rfl rfl rfl rfl ?_

theorem keep_ppsOut {o s : State}  (h : Keep o s) :
    Keep o (ppsOut s) := by
  rw [ppsOut]
  repeat' with_reducible first
    | assumption | apply keep_ite | apply keep_ppsPulseEnd | intro _ | (dsimp only; split)
    | refine keep_mk rfl rfl rfl rfl rfl rfl rfl rfl rfl rfl rfl rfl ?_

theorem keep_execPpsOutPulse {o s : State}  (h : Keep o s) :
    KeepOut o (execPpsOutPulse s) := by
  rw [execPpsOutPulse]
  repeat' with_reducible first | assumption | apply keepOut_next | apply keep_ppsOut

theorem keep_edgeSample {o s : State} {a1 : Bool} {a2 : Nat} (h : Keep o s) :
    Keep o (edgeSample s a1 a2) := by
  rw [edgeSample]
  repeat' with_reducible first | assumption | apply keep_ite | apply keep_servoSample | intro _

theorem keep_captureEdge {o s : State} {a1 : Bool} (h : Keep o s) :
    Keep o (captureEdge s a1) := by
  rw [captureEdge]
  repeat' with_reducible first
    | assumption | apply keep_ite | apply keep_edgeSample | apply keep_raiseEv | intro _ | (dsimp only; split)
    | refine keep_mk rfl rfl rfl rfl rfl rfl rfl rfl rfl rfl rfl rfl ?_

theorem keep_execPinEdgeCapture {o s : State} {a0 : Bool} {a1 : Bool} (h : Keep o s) :
    KeepOut o (execPinEdgeCapture a0 a1 s) := by
  rw [execPinEdgeCapture]
  repeat' with_reducible first
    | assumption | apply keepOut_next | apply keepOut_ite | apply keep_ite | apply keep_captureEdge | intro _

theorem keep_captureDrop {o s : State}  (h : Keep o s) :
    Keep o (captureDrop s) := by
  rw [captureDrop]
  repeat' with_reducible first
    | assumption | refine keep_mk rfl rfl rfl rfl rfl rfl rfl rfl rfl rfl rfl rfl ?_

theorem keep_capturePop {o s : State}  (h : Keep o s) :
    Keep o (capturePop s) := by
  rw [capturePop]
  repeat' with_reducible first | assumption | apply keep_captureDrop | apply keep_emit

theorem keep_execMerCapturePop {o s : State}  (h : Keep o s) :
    KeepOut o (execMerCapturePop s) := by
  rw [execMerCapturePop]
  repeat' with_reducible first
    | assumption | apply keepOut_next | apply keepOut_ite | apply keep_ite | apply keep_capturePop | intro _

theorem keep_resetMeridian {o s : State}  (h : Keep o s) :
    Keep o (resetMeridian s) := by
  rw [resetMeridian]
  repeat' with_reducible first
    | assumption | apply keep_stopSchedule | apply keep_completeId | apply keep_resetRegs | apply keep_ppsOut
    | exact keep_mk_time rfl rfl rfl rfl rfl rfl rfl rfl rfl rfl rfl (keep_mk rfl rfl rfl rfl rfl rfl rfl rfl rfl rfl rfl rfl (keep_resetRegs (keep_foldS (fun s x h => keep_completeId (keep_mk rfl rfl rfl rfl rfl rfl rfl rfl rfl rfl rfl rfl h)) (keep_stopSchedule h))))
    | apply keep_foldS | intro _

end Sys2Proof.Machine
end

