-- ==== Sys2Proof/Laws/KeepPtp.lean ====
section
/-!
SUPPORT. What the operations of Machine/Ptp.lean keep.
-/

set_option Elab.async false

namespace Sys2Proof.Machine

theorem keep_ptpDrop {o s : State}  (h : Keep o s) :
    Keep o (ptpDrop s) := by
  rw [ptpDrop]
  repeat' with_reducible first | assumption | apply keep_addF

theorem keep_ptpInvalid {o s : State} {a1 : Nat} (h : Keep o s) :
    Keep o (ptpInvalid s a1) := by
  rw [ptpInvalid]
  repeat' with_reducible first | assumption | apply keep_raiseEv

theorem keep_ptpInvalidOnce {o s : State} {a1 : Nat} (h : Keep o s) :
    Keep o (ptpInvalidOnce s a1) := by
  rw [ptpInvalidOnce]
  repeat' with_reducible first
    | assumption | apply keep_ite | apply keep_ptpInvalid | intro _ | (dsimp only; split)
    | refine keep_mk rfl rfl rfl rfl rfl rfl rfl rfl rfl rfl rfl rfl ?_

theorem keep_delaySample {o s : State} {a1 : Nat} {a2 : Int} (h : Keep o s) :
    Keep o (delaySample s a1 a2) := by
  rw [delaySample]
  repeat' with_reducible first | assumption | apply keep_ite | apply keep_ptpInvalid | apply keep_setF | intro _

theorem keep_offsetSample {o s : State} {a1 : Nat} {a2 : Int} (h : Keep o s) :
    Keep o (offsetSample s a1 a2) := by
  rw [offsetSample]
  repeat' with_reducible first
    | assumption | apply keep_ite | apply keep_setPtp | apply keep_servoSample | intro _

theorem keep_takeSync {o s : State} {a1 : Nat} {a2 : List Byte} {a3 : Int} (h : Keep o s) :
    Keep o (takeSync s a1 a2 a3) := by
  rw [takeSync]
  repeat' with_reducible first
    | assumption | apply keep_ite | apply keep_setPtp | apply keep_offsetSample | intro _

theorem keep_takeFollowUp {o s : State} {a1 : Nat} {a2 : List Byte} (h : Keep o s) :
    Keep o (takeFollowUp s a1 a2) := by
  rw [takeFollowUp]
  repeat' with_reducible first
    | assumption | apply keep_ite | apply keep_setPtp | apply keep_offsetSample | intro _ | split

theorem keep_takeDelayResp {o s : State} {a1 : Nat} {a2 : List Byte} (h : Keep o s) :
    Keep o (takeDelayResp s a1 a2) := by
  rw [takeDelayResp.eq_def]
  repeat' with_reducible first
    | assumption | apply keep_ite | apply keep_delaySample | apply keep_setPtp | intro _ | split | (dsimp only; split)

theorem keep_takePdelayResp {o s : State} {a1 : Nat} {a2 : List Byte} {a3 : Int} (h : Keep o s) :
    Keep o (takePdelayResp s a1 a2 a3) := by
  rw [takePdelayResp.eq_def]
  repeat' with_reducible first
    | assumption | apply keep_ite | apply keep_ptpInvalid | apply keep_setPtp | apply keep_delaySample | intro _ | split
    | (dsimp only; split)

theorem keep_takePdelayFollowUp {o s : State} {a1 : Nat} {a2 : List Byte} (h : Keep o s) :
    Keep o (takePdelayFollowUp s a1 a2) := by
  rw [takePdelayFollowUp.eq_def]
  repeat' with_reducible first
    | assumption | apply keep_ite | apply keep_setPtp | apply keep_delaySample | intro _ | split | (dsimp only; split)

theorem keep_answerDelayReq {o s : State} {a1 : Nat} {a2 : List Byte} {a3 : Int} {a4 : Bool} (h : Keep o s) :
    Keep o (answerDelayReq s a1 a2 a3 a4) := by
  rw [answerDelayReq]
  repeat' with_reducible first | assumption | apply keep_ite | apply keep_sendPtp | intro _

theorem keep_answerPdelayReq {o s : State} {a1 : Nat} {a2 : List Byte} {a3 : Int} {a4 : Bool} (h : Keep o s) :
    Keep o (answerPdelayReq s a1 a2 a3 a4) := by
  rw [answerPdelayReq]
  repeat' with_reducible first | assumption | apply keep_sendPtp

theorem keep_takeAnnounce {o s : State} {a1 : Nat} {a2 : List Byte} (h : Keep o s) :
    Keep o (takeAnnounce s a1 a2) := by
  rw [takeAnnounce]
  repeat' with_reducible first
    | assumption | apply keep_ite | apply keep_ptpInvalid | apply keep_bmca | apply keep_setPtp | intro _

theorem keep_ptpMessage {o s : State} {a1 : Nat} {a2 : List Byte} {a3 : Int} {a4 : Bool} (h : Keep o s) :
    Keep o (ptpMessage s a1 a2 a3 a4) := by
  rw [ptpMessage]
  repeat' with_reducible first
    | assumption | apply keep_ite | apply keep_takeAnnounce | apply keep_takeFollowUp | apply keep_takeDelayResp
    | apply keep_takePdelayFollowUp | apply keep_takeSync | apply keep_answerDelayReq | apply keep_answerPdelayReq
    | apply keep_takePdelayResp | intro _

theorem keep_ptpCount {o s : State} {a1 : Nat} (h : Keep o s) :
    Keep o (ptpCount s a1) := by
  rw [ptpCount]
  repeat' with_reducible first
    | assumption | apply keep_ite | apply keep_setPtp | apply keep_ptpSecondRoll | intro _ | (dsimp only; split)
    | refine keep_mk rfl rfl rfl rfl rfl rfl rfl rfl rfl rfl rfl rfl ?_

theorem keep_ptpTaken {o s : State} {a1 : Bool} (h : Keep o s) :
    Keep o (ptpTaken s a1) := by
  rw [ptpTaken]
  repeat' with_reducible first
    | assumption | refine keep_mk rfl rfl rfl rfl rfl rfl rfl rfl rfl rfl rfl rfl ?_

theorem keep_ptpReceive {o s : State} {a1 : Nat} {a2 : List Byte} {a3 : Int} (h : Keep o s) :
    Keep o (ptpReceive s a1 a2 a3) := by
  rw [ptpReceive.eq_def]
  repeat' with_reducible first
    | assumption | apply keep_ite | apply keep_ptpCount | apply keep_ptpInvalidOnce | apply keep_ptpDrop
    | apply keep_ptpOverload | apply keep_ptpTaken | apply keep_ptpMessage | intro _ | split

theorem keep_execPtpMessageReceive {o s : State} {a0 : Nat} {a1 : List Byte} {a2 : Int} (h : Keep o s) :
    KeepOut o (execPtpMessageReceive a0 a1 a2 s) := by
  rw [execPtpMessageReceive]
  repeat' with_reducible first
    | assumption | apply keepOut_next | apply keepOut_ite | apply keep_ite | apply keep_ptpReceive | intro _

theorem keep_ptpSeq {o s : State} {a1 : Nat} (h : Keep o s) :
    Keep o (ptpSeq s a1).2 := by
  rw [ptpSeq]
  repeat' with_reducible first | assumption | apply keep_setPtp

theorem keep_ptpSync {o s : State} {a1 : Nat} (h : Keep o s) :
    Keep o (ptpSync s a1) := by
  rw [ptpSync]
  repeat' with_reducible first
    | assumption | apply keep_ite | apply keep_ptpSeq | apply keep_sendPtp | refine keep_snd (by assumption) ?_
    | refine keep_fst (by assumption) ?_ | intro _

theorem keep_execPtpSyncInterval {o s : State} {a0 : Nat} (h : Keep o s) :
    KeepOut o (execPtpSyncInterval a0 s) := by
  rw [execPtpSyncInterval]
  repeat' with_reducible first | assumption | apply keepOut_next | apply keep_ptpSync

theorem keep_ptpAnnounce {o s : State} {a1 : Nat} (h : Keep o s) :
    Keep o (ptpAnnounce s a1) := by
  rw [ptpAnnounce]
  repeat' with_reducible first
    | assumption | apply keep_ite | apply keep_bmca | apply keep_ptpSeq | apply keep_sendPtp
    | refine keep_snd (by assumption) ?_ | refine keep_fst (by assumption) ?_ | intro _

theorem keep_execPtpAnnounceInterval {o s : State} {a0 : Nat} (h : Keep o s) :
    KeepOut o (execPtpAnnounceInterval a0 s) := by
  rw [execPtpAnnounceInterval]
  repeat' with_reducible first | assumption | apply keepOut_next | apply keep_ptpAnnounce

theorem keep_ptpDelayReq {o s : State} {a1 : Nat} (h : Keep o s) :
    Keep o (ptpDelayReq s a1) := by
  rw [ptpDelayReq]
  repeat' with_reducible first
    | assumption | apply keep_ite | apply keep_ptpSeq | apply keep_setPtp | apply keep_sendPtp
    | refine keep_snd (by assumption) ?_ | refine keep_fst (by assumption) ?_ | intro _

theorem keep_execPtpDelayReqInterval {o s : State} {a0 : Nat} (h : Keep o s) :
    KeepOut o (execPtpDelayReqInterval a0 s) := by
  rw [execPtpDelayReqInterval]
  repeat' with_reducible first | assumption | apply keepOut_next | apply keep_ptpDelayReq

end Sys2Proof.Machine
end

