-- ==== Sys2Proof/Laws/KeepPowerCfg.lean ====
section
/-!
SUPPORT. What the operations of Machine/PowerCfg.lean keep.
-/

set_option Elab.async false

namespace Sys2Proof.Machine

theorem keep_runWatchConfig {o s : State} {a1 : Cmd} {a2 : List Byte} (h : Keep o s) :
    Keep o (runWatchConfig s a1 a2) := by
  rw [runWatchConfig.eq_def]
  repeat' with_reducible first
    | assumption | apply keep_ite | apply keep_complain | apply keep_setF | apply keep_complete | apply keep_foldS | intro _
    | split

theorem keep_execWatchConfig {o s : State} {a0 : Nat} (h : Keep o s) :
    KeepOut o (execWatchConfig a0 s) := by
  rw [execWatchConfig]
  repeat' with_reducible first
    | assumption | apply keepOut_next | apply keep_ringRow | apply keep_runWatchConfig | apply keep_ringRow | intro _

end Sys2Proof.Machine
end

