-- ==== Sys2Proof/Laws/KeepEditions.lean ====
section
/-!
SUPPORT. What the operations of Machine/Editions.lean keep.
-/

set_option Elab.async false

namespace Sys2Proof.Machine

theorem keep_authFail {o s : State}  (h : Keep o s) :
    Keep o (authFail s) := by
  rw [authFail]
  repeat' with_reducible first | assumption | apply keep_raiseEv | apply keep_addF

theorem keep_edRun {o s : State} {a0 : Nat} {a2 : Cmd} {a3 : List Byte} (h : Keep o s) :
    Keep o (edRun a0 s a2 a3) := by
  rw [edRun]
  repeat' with_reducible first
    | assumption | apply keep_ite | apply keep_runLayerSet | apply keep_runViewCommit | apply keep_runGazetteerUpdate
    | apply keep_runSheetCalSet | apply keep_runPortConfig | apply keep_runTableUpdate | apply keep_runGateListSet
    | apply keep_runMeterSet | apply keep_runShaperSet | apply keep_runMirrorSet | apply keep_runWatchConfig | intro _
    | split

theorem keep_edRegister {o s : State} {a1 : Nat} {a2 : Bool} {a3 : EdCmd} (h : Keep o s) :
    Keep o (edRegister s a1 a2 a3).2 := by
  rw [edRegister]
  repeat' with_reducible first
    | assumption | apply keep_ite | apply keep_ite_snd | intro _ | (dsimp only; split)
    | refine keep_mk rfl rfl rfl rfl rfl rfl rfl rfl rfl rfl rfl rfl ?_

theorem keep_edWriteWord {o s : State} {a1 : Nat} {a2 : Nat} (h : Keep o s) :
    Keep o (edWriteWord s a1 a2) := by
  rw [edWriteWord]
  repeat' with_reducible first | assumption | apply keep_setW

theorem keep_ptpCtrlWrite {o s : State} {a1 : Nat} (h : Keep o s) :
    Keep o (ptpCtrlWrite s a1) := by
  rw [ptpCtrlWrite]
  repeat' with_reducible first
    | assumption | apply keep_ite | apply keep_setW | apply keep_setS | apply keep_setF | apply keep_bmca | intro _

theorem keep_ptpPortWrite {o s : State} {a1 : Nat} {a2 : Nat} (h : Keep o s) :
    Keep o (ptpPortWrite s a1 a2) := by
  rw [ptpPortWrite]
  repeat' with_reducible first | assumption | apply keep_bmca | apply keep_setF

theorem keep_edApplyWord {o s : State} {a1 : Nat} {a2 : Nat} (h : Keep o s) :
    Keep o (edApplyWord s a1 a2) := by
  rw [edApplyWord]
  repeat' with_reducible first
    | assumption | apply keep_ite | apply keep_merCtrlWrite | apply keep_ptpCtrlWrite | apply keep_ptpPortWrite
    | apply keep_setW | intro _

theorem keep_edPools {o s : State} {a1 : List Byte} (h : Keep o s) :
    Keep o (edPools s a1) := by
  rw [edPools]
  repeat' with_reducible first | assumption | apply keep_setF

theorem keep_edDo {o s : State} {a1 : EdCmd} (h : Keep o s) :
    Keep o (edDo s a1).2 := by
  rw [edDo]
  repeat' with_reducible first | assumption | apply keep_edRegister | apply keep_edRun

theorem keep_edAll {o : State} {a0 : List EdCmd} {a1 : List Nat × State} (h : Keep o a1.2) :
    Keep o (edAll a0 a1).2 := by
  rw [edAll]
  repeat' with_reducible first
    | assumption | apply keep_edDo | apply keep_foldl | apply keep_foldl_fst | apply keep_foldl_snd | intro _

theorem keep_edStageGazetteer {o : State} {a0 : State} {a1 : State} {a2 : List Nat × State} (h : Keep o a2.2) :
    Keep o (edStageGazetteer a0 a1 a2).2 := by
  rw [edStageGazetteer]
  repeat' with_reducible first
    | assumption | apply keep_ite | apply keep_ite_fst | apply keep_ite_snd | apply keep_edRegister | apply keep_settleEdits
    | apply keep_gztShow | intro _ | (dsimp only; split) | refine keep_mk rfl rfl rfl rfl rfl rfl rfl rfl rfl rfl rfl rfl ?_

theorem keep_edApplyPools {o s : State} {a1 : State} (h : Keep o s) :
    Keep o (edApplyPools s a1) := by
  rw [edApplyPools]
  repeat' with_reducible first | assumption | apply keep_setF | apply keep_setB

theorem keep_edApplySection {o : State} {a0 : State} {a1 : List Byte} {a2 : List Nat × State} {a3 : Nat} (h : Keep o a2.2) :
    Keep o (edApplySection a0 a1 a2 a3).2 := by
  rw [edApplySection]
  repeat' with_reducible first
    | assumption | apply keep_ite | apply keep_ite_fst | apply keep_ite_snd | apply keep_edApplyWord
    | apply keep_edApplyPools | apply keep_edAll | apply keep_edStageGazetteer | apply keep_foldS | intro _

theorem keep_edApply {o s : State} {a1 : List Byte} {a2 : List Nat} (h : Keep o s) :
    Keep o (edApply s a1 a2).2 := by
  rw [edApply]
  repeat' with_reducible first
    | assumption | apply keep_edApplySection | apply keep_foldl | apply keep_foldl_fst | apply keep_foldl_snd | intro _

theorem keep_edActivate {o s : State} {a1 : Nat} {a2 : List Byte} (h : Keep o s) :
    Keep o (edActivate s a1 a2) := by
  rw [edActivate]
  repeat' with_reducible first
    | assumption | apply keep_ite | apply keep_ite_fst | apply keep_setF | apply keep_setB | apply keep_writeTmr | intro _
    | (dsimp only; split) | refine keep_mk rfl rfl rfl rfl rfl rfl rfl rfl rfl rfl rfl rfl ?_

theorem keep_restoreEdition {o s : State} {a1 : Nat} (h : Keep o s) :
    Keep o (restoreEdition s a1) := by
  rw [restoreEdition]
  repeat' with_reducible first
    | assumption | apply keep_ite | apply keep_ite_fst | apply keep_ite_snd | apply keep_edWriteWord | apply keep_setF
    | apply keep_edApplySection | apply keep_ptpCtrlWrite | apply keep_merCtrlWrite | apply keep_foldS | apply keep_foldl
    | apply keep_foldl_fst | apply keep_foldl_snd | intro _

end Sys2Proof.Machine
end

