-- ==== Sys2Proof/Laws/KeepDrain.lean ====
section
/-!
SUPPORT. What the operations of Machine/Drain.lean keep.
-/

set_option Elab.async false

namespace Sys2Proof.Machine

theorem keep_putDir {o s : State} {a1 : Dir} (h : Keep o s) :
    Keep o (putDir s a1) := by
  rw [putDir]
  repeat' with_reducible first
    | assumption | apply keep_ite | apply keep_ite_fst | apply keep_ite_snd | intro _ | (dsimp only; split)
    | refine keep_mk rfl rfl rfl rfl rfl rfl rfl rfl rfl rfl rfl rfl ?_

theorem keep_emptySlot {o s : State} {a1 : Bool} {a2 : Nat} (h : Keep o s) :
    Keep o (emptySlot s a1 a2) := by
  rw [emptySlot]
  repeat' with_reducible first
    | assumption | apply keep_ite | apply keep_setF | apply keep_putDir | intro _ | (dsimp only; split)
    | refine keep_mk rfl rfl rfl rfl rfl rfl rfl rfl rfl rfl rfl rfl ?_

theorem keep_undefer {o s : State} {a1 : Nat × List Byte} (h : Keep o s) :
    Keep o (undefer s a1) := by
  rw [undefer.eq_def]
  repeat' with_reducible first | assumption | apply keep_putCmd | split

theorem keep_dropSecurity {o s : State} {a1 : Nat → Bool} (h : Keep o s) :
    Keep o (dropSecurity s a1) := by
  rw [dropSecurity.eq_def]
  repeat' with_reducible first
    | assumption | apply keep_ite | apply keep_emptySlot | apply keep_setF | apply keep_undefer | apply keep_foldS | intro _
    | split | (dsimp only; split) | refine keep_mk rfl rfl rfl rfl rfl rfl rfl rfl rfl rfl rfl rfl ?_

theorem keep_forgetEnded {o s : State}  (h : Keep o s) :
    Keep o (forgetEnded s) := by
  rw [forgetEnded]
  repeat' with_reducible first
    | assumption | apply keep_ite | apply keep_ite_fst | apply keep_ite_snd | apply keep_dropSecurity | apply keep_setF
    | apply keep_gztShow | intro _ | (dsimp only; split) | refine keep_mk rfl rfl rfl rfl rfl rfl rfl rfl rfl rfl rfl rfl ?_

theorem keep_endDependents {o s : State} {a1 : Nat} (h : Keep o s) :
    Keep o (endDependents s a1) := by
  rw [endDependents]
  repeat' with_reducible first
    | assumption | apply keep_ite | apply keep_forgetEnded | apply keep_finishStop | apply keep_complete | apply keep_foldS
    | intro _

theorem keep_dropPorts {o s : State} {a1 : Nat × Nat} (h : Keep o s) :
    Keep o (dropPorts s a1) := by
  rw [dropPorts]
  repeat' with_reducible first
    | assumption | apply keep_flushPort | apply keep_setPortState | apply keep_dropMeasure | apply keep_takeDown
    | apply keep_foldS | intro _

theorem keep_raisePorts {o s : State} {a1 : Nat × Nat} (h : Keep o s) :
    Keep o (raisePorts s a1) := by
  rw [raisePorts]
  repeat' with_reducible first | assumption | apply keep_bringUp | apply keep_foldS | intro _

theorem keep_resetQuadRegs {o s : State} {a1 : Nat} (h : Keep o s) :
    Keep o (resetQuadRegs s a1) := by
  rw [resetQuadRegs]
  repeat' with_reducible first
    | assumption | apply keep_setPortState | apply keep_showConfig | apply keep_markBond | apply keep_setPort
    | apply keep_resetRegs | apply keep_foldS | intro _

theorem keep_abandonCompositions {o s : State}  (h : Keep o s) :
    Keep o (abandonCompositions s) := by
  rw [abandonCompositions]
  repeat' with_reducible first
    | assumption | intro _ | refine keep_mk rfl rfl rfl rfl rfl rfl rfl rfl rfl rfl rfl rfl ?_

theorem keep_seedDither {o s : State} {a1 : Nat} (h : Keep o s) :
    Keep o (seedDither s a1) := by
  rw [seedDither]
  repeat' with_reducible first | assumption | refine keep_mk rfl rfl rfl rfl rfl rfl rfl rfl rfl rfl rfl rfl ?_

theorem keep_resetLane {o s : State} {a1 : Nat} (h : Keep o s) :
    Keep o (resetLane s a1) := by
  rw [resetLane]
  repeat' with_reducible first
    | assumption | apply keep_ite | apply keep_ite_fst | apply keep_closeEarly | apply keep_setPics
    | apply keep_abandonCompositions | apply keep_seedDither | apply keep_foldS | intro _ | split

theorem keep_resetProjection {o s : State}  (h : Keep o s) :
    Keep o (resetProjection s) := by
  rw [resetProjection]
  repeat' with_reducible first
    | assumption | apply keep_stopSchedule | apply keep_freeCore | apply keep_resetRegs | apply keep_foldS | intro _ | split
    | (dsimp only; split) | refine keep_mk rfl rfl rfl rfl rfl rfl rfl rfl rfl rfl rfl rfl ?_

theorem keep_resetArray {o s : State}  (h : Keep o s) :
    Keep o (resetArray s) := by
  rw [resetArray]
  repeat' with_reducible first
    | assumption | apply keep_resetShared | apply keep_resetRegs | apply keep_refreshLoads | apply keep_setCoreState
    | apply keep_foldS | intro _

theorem keep_loseFrames {o s : State}  (h : Keep o s) :
    Keep o (loseFrames s) := by
  rw [loseFrames]
  repeat' with_reducible first
    | assumption | apply keep_flushPort | apply keep_foldS | intro _
    | refine keep_mk rfl rfl rfl rfl rfl rfl rfl rfl rfl rfl rfl rfl ?_

theorem keep_resetFirstStage {o s : State}  (h : Keep o s) :
    Keep o (resetFirstStage s) := by
  rw [resetFirstStage]
  repeat' with_reducible first
    | assumption | apply keep_resetRegs | refine keep_mk rfl rfl rfl rfl rfl rfl rfl rfl rfl rfl rfl rfl ?_

theorem keep_resetTraffic {o s : State}  (h : Keep o s) :
    Keep o (resetTraffic s) := by
  rw [resetTraffic]
  repeat' with_reducible first
    | assumption | apply keep_flushPort | apply keep_resetRegs | apply keep_foldS | intro _
    | refine keep_mk rfl rfl rfl rfl rfl rfl rfl rfl rfl rfl rfl rfl ?_

theorem keep_loseMemory {o s : State} {a1 : Nat} (h : Keep o s) :
    Keep o (loseMemory s a1) := by
  rw [loseMemory]
  repeat' with_reducible first
    | assumption | apply keep_ite | apply keep_ite_fst | apply keep_concludePicture | apply keep_closeEarly
    | apply keep_abandonCompositions | apply keep_stopSchedule | apply keep_foldS | intro _ | split | (dsimp only; split)

theorem keep_forgetHold {o s : State} {a1 : Nat} (h : Keep o s) :
    Keep o (forgetHold s a1) := by
  rw [forgetHold]
  repeat' with_reducible first
    | assumption | refine keep_mk rfl rfl rfl rfl rfl rfl rfl rfl rfl rfl rfl rfl ?_

theorem keep_resetStack {o s : State} {a1 : Nat} (h : Keep o s) :
    Keep o (resetStack s a1) := by
  rw [resetStack]
  repeat' with_reducible first
    | assumption | apply keep_ite | apply keep_forgetHold | apply keep_loseMemory | apply keep_setF | apply keep_resetRegs
    | intro _ | split | (dsimp only; split)

theorem keep_resetCompass {o s : State}  (h : Keep o s) :
    Keep o (resetCompass s) := by
  rw [resetCompass]
  repeat' with_reducible first
    | assumption | apply keep_setF | apply keep_resetRegs
    | refine keep_mk rfl rfl rfl rfl rfl rfl rfl rfl rfl rfl rfl rfl ?_

theorem keep_dropHostLink {o s : State}  (h : Keep o s) :
    Keep o (dropHostLink s) := by
  rw [dropHostLink]
  repeat' with_reducible first
    | assumption | apply keep_ite | intro _ | (dsimp only; split)
    | refine keep_mk rfl rfl rfl rfl rfl rfl rfl rfl rfl rfl rfl rfl ?_

theorem keep_unitReset {o s : State} {a1 : Nat} (h : Keep o s) :
    Keep o (unitReset s a1) := by
  rw [unitReset]
  repeat' with_reducible first
    | assumption | apply keep_ite | apply keep_ite_fst | apply keep_resetCompass | apply keep_resetRegs
    | apply keep_dropHostLink | apply keep_resetMeridian | apply keep_resetCore | apply keep_resetArray
    | apply keep_resetLane | apply keep_resetProjection | apply keep_resetFirstStage | apply keep_loseFrames
    | apply keep_resetTraffic | apply keep_resetStack | apply keep_dropPorts | apply keep_resetQuadRegs | intro _

theorem keep_enterReset {o s : State} {a1 : Nat} (h : Keep o s) :
    Keep o (enterReset s a1) := by
  rw [enterReset]
  repeat' with_reducible first
    | assumption | apply keep_unitReset | apply keep_setDomain | apply keep_endDependents

theorem keep_leaveReset {o s : State} {a1 : Nat} (h : Keep o s) :
    Keep o (leaveReset s a1) := by
  rw [leaveReset]
  repeat' with_reducible first
    | assumption | apply keep_ite | apply keep_restoreEdition | apply keep_setDomain | apply keep_setCoreState
    | apply keep_setB | apply keep_raisePorts | refine keep_mer (fun _ => rfl) ?_ | intro _ | split | (dsimp only; split)
    | refine keep_mk rfl rfl rfl rfl rfl rfl rfl rfl rfl rfl rfl rfl ?_

end Sys2Proof.Machine
end

