-- ==== Sys2Proof/Laws/KeepHbm.lean ====
section
/-!
SUPPORT. What the operations of Machine/Hbm.lean keep.
-/

set_option Elab.async false

namespace Sys2Proof.Machine

theorem keep_setFirst {o s : State} {a1 : List Byte} (h : Keep o s) :
    Keep o (setFirst s a1) := by
  rw [setFirst]
  repeat' with_reducible first
    | assumption | refine keep_mk rfl rfl rfl rfl rfl rfl rfl rfl rfl rfl rfl rfl ?_

theorem keep_firstRecord {o s : State} {a1 : Nat} {a2 : List Byte} (h : Keep o s) :
    Keep o (firstRecord s a1 a2) := by
  rw [firstRecord]
  repeat' with_reducible first
    | assumption | apply keep_ite | apply keep_setF | apply keep_writeTmr | apply keep_setFirst | intro _

theorem keep_recordFault {o s : State} {a1 : Nat} {a2 : Nat} {a3 : List Byte} (h : Keep o s) :
    Keep o (recordFault s a1 a2 a3) := by
  rw [recordFault]
  repeat' with_reducible first | assumption | apply keep_firstRecord | apply keep_faultRecord

theorem keep_lastError {o s : State} {a1 : Nat} {a2 : Bool} (h : Keep o s) :
    Keep o (lastError s a1 a2) := by
  rw [lastError]
  repeat' with_reducible first | assumption | apply keep_setF

theorem keep_ceOnce {o s : State} {a1 : Nat} {a2 : Nat} (h : Keep o s) :
    Keep o (ceOnce s a1 a2) := by
  rw [ceOnce]
  repeat' with_reducible first
    | assumption | apply keep_ite | apply keep_raiseCe | intro _ | (dsimp only; split)
    | refine keep_mk rfl rfl rfl rfl rfl rfl rfl rfl rfl rfl rfl rfl ?_

theorem keep_hbmCe {o s : State} {a1 : Nat} (h : Keep o s) :
    Keep o (hbmCe s a1) := by
  rw [hbmCe]
  repeat' with_reducible first
    | assumption | apply keep_ceOnce | apply keep_lastError | apply keep_addT | apply keep_addF

theorem keep_hbmUc {o s : State} {a1 : Nat} (h : Keep o s) :
    Keep o (hbmUc s a1) := by
  rw [hbmUc]
  repeat' with_reducible first | assumption | apply keep_recordFault | apply keep_lastError | apply keep_addF

theorem keep_secded {o s : State} {a1 : Nat} (h : Keep o s) :
    Keep o (secded s a1).2 := by
  rw [secded]
  repeat' with_reducible first
    | assumption | apply keep_ite | apply keep_ite_fst | apply keep_ite_snd | apply keep_freshIndex | intro _

theorem keep_flipDone {o s : State}  (h : Keep o s) :
    Keep o (flipDone s) := by
  rw [flipDone]
  repeat' with_reducible first | assumption | apply keep_raiseEv | apply keep_setB

theorem keep_writeHbm {o s : State} {a1 : Nat} {a2 : Nat} {a3 : Bool} (h : Keep o s) :
    Keep o (writeHbm s a1 a2 a3) := by
  rw [writeHbm]
  repeat' with_reducible first | assumption | apply keep_ite | apply keep_flipDone | apply keep_setHbm | intro _

theorem keep_readHbm {o s : State} {a1 : Nat} {a2 : Bool} (h : Keep o s) :
    Keep o (readHbm s a1 a2).2.2 := by
  rw [readHbm]
  repeat' with_reducible first
    | assumption | apply keep_ite | apply keep_ite_fst | apply keep_ite_snd | apply keep_secded | apply keep_hbmCe
    | apply keep_writeHbm | apply keep_hbmUc | intro _ | split

theorem keep_hbmOutside {o s : State} {a1 : Nat} (h : Keep o s) :
    Keep o (hbmOutside s a1) := by
  rw [hbmOutside]
  repeat' with_reducible first | assumption | apply keep_setF | apply keep_addF | apply keep_recordFault

theorem keep_noteWait {o s : State} {a1 : Nat} {a2 : Nat} (h : Keep o s) :
    Keep o (noteWait s a1 a2) := by
  rw [noteWait]
  repeat' with_reducible first
    | assumption | apply keep_ite | apply keep_setF | apply keep_addF | apply keep_raiseEv | intro _ | split
    | (dsimp only; split) | refine keep_mk rfl rfl rfl rfl rfl rfl rfl rfl rfl rfl rfl rfl ?_

theorem keep_setMerge {o s : State} {a1 : Nat} {a2 : List MergeEntry} (h : Keep o s) :
    Keep o (setMerge s a1 a2) := by
  rw [setMerge]
  repeat' with_reducible first
    | assumption | refine keep_mk rfl rfl rfl rfl rfl rfl rfl rfl rfl rfl rfl rfl ?_

theorem keep_writeEntry {o s : State} {a1 : MergeEntry} (h : Keep o s) :
    Keep o (writeEntry s a1) := by
  rw [writeEntry]
  repeat' with_reducible first
    | assumption | apply keep_ite | apply keep_ite_fst | apply keep_ite_snd | apply keep_writeHbm | apply keep_readHbm
    | intro _

theorem keep_flushMerge {o s : State}  (h : Keep o s) :
    Keep o (flushMerge s) := by
  rw [flushMerge]
  repeat' with_reducible first
    | assumption | apply keep_setMerge | apply keep_writeEntry | apply keep_foldS | intro _

theorem keep_setSelfRefresh {o s : State} {a1 : Bool} (h : Keep o s) :
    Keep o (setSelfRefresh s a1) := by
  rw [setSelfRefresh]
  repeat' with_reducible first
    | assumption | apply keep_ite | intro _ | (dsimp only; split)
    | refine keep_mk rfl rfl rfl rfl rfl rfl rfl rfl rfl rfl rfl rfl ?_

end Sys2Proof.Machine
end

