-- ==== Sys2Proof/Laws/KeepHost.lean ====
section
/-!
SUPPORT. What the operations of Machine/Host.lean keep.
-/

set_option Elab.async false

namespace Sys2Proof.Machine

theorem keep_kick {o s : State} {a1 : Nat} (h : Keep o s) :
    Keep o (kick s a1) := by
  rw [kick]
  repeat' with_reducible first
    | assumption | apply keep_ite | apply keep_raiseEv | apply keep_pollRing | apply keep_writeNeedsKick
    | apply keep_setSqState | intro _

theorem keep_execSqDoorbellKick {o s : State} {a0 : Nat} {a1 : List (Nat × List Byte)} (h : Keep o s) :
    KeepOut o (execSqDoorbellKick a0 a1 s) := by
  rw [execSqDoorbellKick]
  repeat' with_reducible first | assumption | apply keepOut_next | apply keep_kick | apply keep_hostStores

theorem keep_execSqPoll {o s : State} {a0 : Nat} {a1 : List (Nat × List Byte)} {a2 : Bool} (h : Keep o s) :
    KeepOut o (execSqPoll a0 a1 a2 s) := by
  rw [execSqPoll]
  repeat' with_reducible first
    | assumption | apply keepOut_next | apply keepOut_ite | apply keep_ite | apply keep_hostStores | apply keep_pollRing
    | intro _

theorem keep_execSqEngineSleep {o s : State} {a0 : Nat} {a1 : List (Nat × List Byte)} (h : Keep o s) :
    KeepOut o (execSqEngineSleep a0 a1 s) := by
  rw [execSqEngineSleep]
  repeat' with_reducible first
    | assumption | apply keepOut_next | apply keepOut_ite | apply keep_ite | apply keep_hostStores
    | apply keep_writeNeedsKick | apply keep_setSqState | apply keep_setSq | intro _ | split

theorem keep_runNop {o s : State} {a1 : Cmd} {a2 : List Byte} (h : Keep o s) :
    Keep o (runNop s a1 a2) := by
  rw [runNop]
  repeat' with_reducible first | assumption | apply keep_complete

theorem keep_execNop {o s : State} {a0 : Nat} (h : Keep o s) :
    KeepOut o (execNop a0 s) := by
  rw [execNop]
  repeat' with_reducible first
    | assumption | apply keepOut_next | apply keep_ringRow | apply keep_runNop | apply keep_ringRow | intro _

theorem keep_runEcho {o s : State} {a1 : Cmd} {a2 : List Byte} (h : Keep o s) :
    Keep o (runEcho s a1 a2) := by
  rw [runEcho]
  repeat' with_reducible first | assumption | apply keep_complete | apply keep_hostWrite

theorem keep_execDiagEcho {o s : State} {a0 : Nat} (h : Keep o s) :
    KeepOut o (execDiagEcho a0 s) := by
  rw [execDiagEcho]
  repeat' with_reducible first
    | assumption | apply keepOut_next | apply keep_ringRow | apply keep_runEcho | apply keep_ringRow | intro _

theorem keep_descriptorDone {o s : State} {a1 : Nat} (h : Keep o s) :
    Keep o (descriptorDone s a1) := by
  rw [descriptorDone.eq_def]
  repeat' with_reducible first
    | assumption | apply keep_ite | apply keep_addF | apply keep_putCmd | apply keep_finishStop | apply keep_complete
    | intro _ | split | (dsimp only; split) | refine keep_mk rfl rfl rfl rfl rfl rfl rfl rfl rfl rfl rfl rfl ?_

theorem keep_execDmaDescriptorDone {o s : State} {a0 : Nat} (h : Keep o s) :
    KeepOut o (execDmaDescriptorDone a0 s) := by
  rw [execDmaDescriptorDone]
  repeat' with_reducible first
    | assumption | apply keepOut_next | apply keepOut_ite | apply keep_ite | apply keep_descriptorDone | intro _

theorem keep_readFailed {o s : State} {a1 : DmaError} (h : Keep o s) :
    Keep o (readFailed s a1) := by
  rw [readFailed.eq_def]
  repeat' with_reducible first | assumption | apply keep_raiseEv | apply keep_addF | split

theorem keep_execDmaCompletionTimeout {o s : State} {a0 : Nat} {a1 : DmaError} (h : Keep o s) :
    KeepOut o (execDmaCompletionTimeout a0 a1 s) := by
  rw [execDmaCompletionTimeout]
  repeat' with_reducible first
    | assumption | apply keepOut_next | apply keep_finishStop | apply keep_complete | apply keep_readFailed | split

theorem keep_releaseHeld {o s : State} {a1 : Nat} {a2 : Nat} (h : Keep o s) :
    Keep o (releaseHeld s a1 a2) := by
  induction a2 generalizing s a1 with
  | zero => exact h
  | succ k ih =>
    rw [releaseHeld]
    repeat' with_reducible first
      | assumption | apply keep_ite | apply ih | apply keep_writeCompletion | apply keep_setCq | intro _ | split

theorem keep_releaseAll {o s : State} {a1 : Nat} (h : Keep o s) :
    Keep o (releaseAll s a1) := by
  rw [releaseAll]
  repeat' with_reducible first | assumption | apply keep_noteFull | apply keep_releaseHeld

theorem keep_execCqHeldRelease {o s : State} {a0 : Nat} {a1 : List (Nat × List Byte)} (h : Keep o s) :
    KeepOut o (execCqHeldRelease a0 a1 s) := by
  rw [execCqHeldRelease]
  repeat' with_reducible first
    | assumption | apply keepOut_next | apply keepOut_ite | apply keep_ite | apply keep_releaseAll | apply keep_hostStores
    | intro _

theorem keep_execVectorModerationTimeout {o s : State} {a0 : Nat} (h : Keep o s) :
    KeepOut o (execVectorModerationTimeout a0 s) := by
  rw [execVectorModerationTimeout]
  repeat' with_reducible first
    | assumption | apply keepOut_next | apply keepOut_ite | apply keep_ite | apply keep_fireVector | intro _ | split

theorem keep_vectorMask {o s : State} {a1 : Nat} {a2 : Bool} (h : Keep o s) :
    Keep o (vectorMask s a1 a2) := by
  rw [vectorMask]
  repeat' with_reducible first | assumption | apply keep_ite | apply keep_setVec | apply keep_sendVector | intro _

theorem keep_execMsixVectorMask {o s : State} {a0 : Nat} {a1 : Bool} (h : Keep o s) :
    KeepOut o (execMsixVectorMask a0 a1 s) := by
  rw [execMsixVectorMask]
  repeat' with_reducible first | assumption | apply keepOut_next | apply keep_vectorMask

theorem keep_ringConfigError {o s : State}  (h : Keep o s) :
    Keep o (ringConfigError s) := by
  rw [ringConfigError]
  repeat' with_reducible first | assumption | apply keep_raiseEv

theorem keep_sqEnable {o s : State} {a1 : Nat} (h : Keep o s) : Keep o (sqEnable s a1) := by
  rw [sqEnable]
  dsimp only
  split
  · exact h
  · have hr : Keep o (ringConfigError (setF (setSqState (releaseChannel s a1) a1 sqDisabled) Rg.HIF_SQ_CTRL_ENABLE a1 0)) :=
      keep_ringConfigError (keep_setF (keep_setSqState (keep_releaseChannel h)))
    split
    · exact hr
    · split
      · exact hr
      · rename_i e
        refine keep_setSqState (keep_setSq (keep_setF (keep_setF ?_)))
        split at e
        · exact keep_takeChannel h _ _ e
        · cases e
          exact h

theorem keep_sqStop {o s : State} {a1 : Nat} {a2 : Bool} (h : Keep o s) :
    Keep o (sqStop s a1 a2) := by
  rw [sqStop]
  repeat' with_reducible first
    | assumption | apply keep_ite | apply keep_setSq | apply keep_setSqState | apply keep_putCmd | apply keep_complete
    | apply keep_finishStop | apply keep_completeFetched | apply keep_setF | apply keep_releaseChannel | apply keep_foldS
    | intro _

theorem keep_sqCtrlWrite {o s : State} {a1 : Nat} {a2 : Bool} {a3 : Bool} (h : Keep o s) :
    Keep o (sqCtrlWrite s a1 a2 a3) := by
  rw [sqCtrlWrite]
  repeat' with_reducible first | assumption | apply keep_ite | apply keep_sqStop | apply keep_sqEnable | intro _

theorem keep_execSqEnable {o s : State} {a0 : Nat} (h : Keep o s) :
    KeepOut o (execSqEnable a0 s) := by
  rw [execSqEnable]
  repeat' with_reducible first
    | assumption | apply keepOut_next | apply keepOut_ite | apply keep_ite | apply keep_sqCtrlWrite | intro _

theorem keep_execSqStop {o s : State} {a0 : Nat} {a1 : Bool} (h : Keep o s) :
    KeepOut o (execSqStop a0 a1 s) := by
  rw [execSqStop]
  repeat' with_reducible first
    | assumption | apply keepOut_next | apply keepOut_ite | apply keep_ite | apply keep_sqCtrlWrite | intro _

theorem keep_execSqDisable {o s : State} {a0 : Nat} (h : Keep o s) :
    KeepOut o (execSqDisable a0 s) := by
  rw [execSqDisable]
  repeat' with_reducible first
    | assumption | apply keepOut_next | apply keepOut_ite | apply keep_ite | apply keep_sqCtrlWrite | intro _

theorem keep_cqCfgWrite {o s : State} {a1 : Nat} {a2 : Nat} {a3 : Nat} {a4 : Bool} (h : Keep o s) :
    Keep o (cqCfgWrite s a1 a2 a3 a4) := by
  rw [cqCfgWrite]
  repeat' with_reducible first
    | assumption | apply keep_ite | apply keep_ringConfigError | apply keep_setCq | apply keep_setF | intro _

theorem keep_execCqEnable {o s : State} {a0 : Nat} {a1 : Nat} {a2 : Nat} (h : Keep o s) :
    KeepOut o (execCqEnable a0 a1 a2 s) := by
  rw [execCqEnable]
  repeat' with_reducible first
    | assumption | apply keepOut_next | apply keepOut_ite | apply keep_ite | apply keep_cqCfgWrite | intro _

theorem keep_execCqDisable {o s : State} {a0 : Nat} (h : Keep o s) :
    KeepOut o (execCqDisable a0 s) := by
  rw [execCqDisable]
  repeat' with_reducible first
    | assumption | apply keepOut_next | apply keepOut_ite | apply keep_ite | apply keep_cqCfgWrite | intro _

theorem keep_unmappedAccess {o s : State} {a1 : Nat} {a2 : Bool} (h : Keep o s) :
    Keep o (unmappedAccess s a1 a2) := by
  rw [unmappedAccess]
  repeat' with_reducible first
    | assumption | apply keep_ite | apply keep_emit | apply keep_setF | apply keep_raiseEv | intro _

theorem keep_execBar0UnmappedAccess {o s : State} {a0 : Nat} {a1 : Bool} (h : Keep o s) :
    KeepOut o (execBar0UnmappedAccess a0 a1 s) := by
  rw [execBar0UnmappedAccess]
  repeat' with_reducible first
    | assumption | apply keepOut_next | apply keepOut_ite | apply keep_ite | apply keep_unmappedAccess | intro _

theorem keep_logAer {o s : State} {a1 : Aer} (h : Keep o s) :
    Keep o (logAer s a1) := by
  rw [logAer]
  repeat' with_reducible first
    | assumption | apply keep_ite | intro _ | split | (dsimp only; split)
    | refine keep_mk rfl rfl rfl rfl rfl rfl rfl rfl rfl rfl rfl rfl ?_

theorem keep_barViolation {o s : State} {a1 : BarViolation} {a2 : Nat} {a3 : Bool} (h : Keep o s) :
    Keep o (barViolation s a1 a2 a3) := by
  rw [barViolation.eq_def]
  repeat' with_reducible first
    | assumption | apply keep_ite | apply keep_raiseEv | apply keep_emit | apply keep_logAer | apply keep_addF | intro _
    | split | refine keep_mk rfl rfl rfl rfl rfl rfl rfl rfl rfl rfl rfl rfl ?_

theorem keep_execBarAccessInvalid {o s : State} {a0 : BarViolation} {a1 : Nat} {a2 : Bool} (h : Keep o s) :
    KeepOut o (execBarAccessInvalid a0 a1 a2 s) := by
  rw [execBarAccessInvalid]
  repeat' with_reducible first | assumption | apply keepOut_next | apply keep_barViolation

theorem keep_functionReset {o s : State}  (h : Keep o s) :
    Keep o (functionReset s) := by
  rw [functionReset]
  repeat' with_reducible first
    | assumption | apply keep_ite | apply keep_setSqState | apply keep_setF | apply keep_foldS | apply keep_foldl
    | apply keep_foldl_fst | apply keep_foldl_snd | intro _ | (dsimp only; split)
    | refine keep_mk rfl rfl rfl rfl rfl rfl rfl rfl rfl rfl rfl rfl ?_

theorem keep_dropBuffers {o s : State}  (h : Keep o s) :
    Keep o (dropBuffers s) := by
  rw [dropBuffers]
  repeat' with_reducible first
    | assumption | apply keep_releaseChannel | apply keep_setF
    | refine keep_mk rfl rfl rfl rfl rfl rfl rfl rfl rfl rfl rfl rfl ?_

theorem keep_execFunctionLevelReset {o s : State}  (h : Keep o s) :
    KeepOut o (execFunctionLevelReset s) := by
  rw [execFunctionLevelReset]
  repeat' with_reducible first
    | assumption | apply keepOut_next | apply keep_raiseEv | apply keep_dropBuffers | apply keep_functionReset | intro _

theorem keep_d3hot {o s : State}  (h : Keep o s) :
    Keep o (d3hot s) := by
  rw [d3hot]
  repeat' with_reducible first
    | assumption | apply keep_ite | apply keep_setF | apply keep_requestPme | apply keep_setVec | apply keep_foldS | intro _

theorem keep_execD3hotEntry {o s : State} {a0 : Bool} (h : Keep o s) :
    KeepOut o (execD3hotEntry a0 s) := by
  rw [execD3hotEntry]
  repeat' with_reducible first
    | assumption | apply keepOut_next | apply keepOut_ite | apply keep_ite | apply keep_d3hot | intro _
    | (dsimp only; split) | refine keep_mk rfl rfl rfl rfl rfl rfl rfl rfl rfl rfl rfl rfl ?_

theorem keep_resumeDelivery {o s : State}  (h : Keep o s) :
    Keep o (resumeDelivery s) := by
  rw [resumeDelivery]
  repeat' with_reducible first
    | assumption | apply keep_ite | apply keep_releaseAll | apply keep_sendVector | apply keep_foldS | intro _

theorem keep_execD0Return {o s : State}  (h : Keep o s) :
    KeepOut o (execD0Return s) := by
  rw [execD0Return]
  repeat' with_reducible first
    | assumption | apply keepOut_next | apply keepOut_ite | apply keep_ite | apply keep_setF | apply keep_resumeDelivery
    | intro _ | (dsimp only; split) | refine keep_mk rfl rfl rfl rfl rfl rfl rfl rfl rfl rfl rfl rfl ?_

theorem keep_linkDown {o s : State}  (h : Keep o s) :
    Keep o (linkDown s) := by
  rw [linkDown]
  repeat' with_reducible first
    | assumption | apply keep_ite | apply keep_exitL1 | apply keep_raiseEv | apply keep_addF | intro _ | (dsimp only; split)
    | refine keep_mk rfl rfl rfl rfl rfl rfl rfl rfl rfl rfl rfl rfl ?_

theorem keep_execPcieLinkDown {o s : State} {a0 : Bool} (h : Keep o s) :
    KeepOut o (execPcieLinkDown a0 s) := by
  rw [execPcieLinkDown]
  repeat' with_reducible first
    | assumption | apply keepOut_next | apply keepOut_ite | apply keep_ite | apply keep_setF | apply keep_linkDown | intro _

theorem keep_linkReturn {o s : State} {a1 : Nat} {a2 : Nat} (h : Keep o s) :
    Keep o (linkReturn s a1 a2) := by
  rw [linkReturn]
  repeat' with_reducible first
    | assumption | apply keep_ite | apply keep_setF | apply keep_resumeDelivery | apply keep_finishStop
    | apply keep_complete | apply keep_foldS | intro _ | (dsimp only; split)
    | refine keep_mk rfl rfl rfl rfl rfl rfl rfl rfl rfl rfl rfl rfl ?_

theorem keep_execPcieLinkReturn {o s : State} {a0 : Nat} {a1 : Nat} (h : Keep o s) :
    KeepOut o (execPcieLinkReturn a0 a1 s) := by
  rw [execPcieLinkReturn]
  repeat' with_reducible first
    | assumption | apply keepOut_next | apply keepOut_ite | apply keep_ite | apply keep_exitL1 | apply keep_linkReturn
    | intro _

end Sys2Proof.Machine
end

