-- ==== Sys2Proof/Laws/KeepResets.lean ====
section
/-!
SUPPORT. What the operations of Machine/Resets.lean keep.
-/

set_option Elab.async false

namespace Sys2Proof.Machine

theorem keep_endTrial {o s : State}  (h : Keep o s) :
    Keep o (endTrial s) := by
  rw [endTrial]
  repeat' with_reducible first | assumption | apply keep_ite | apply keep_putDir | intro _

theorem keep_clearUnits {o s : State} {a1 : Nat → Bool} {a2 : Bool} (h : Keep o s) : Keep o (clearUnits s a1 a2) := by
  refine ⟨h.pending, h.now, h.free, h.wire, h.fuses, fun i => ?_⟩
  have j := h.inv i
  refine ⟨j.host, (keep_regsFilter (p := fun p => a1 p.1) h).inv i |>.regs, ?_, j.evq, j.log, rfl⟩
  cases a2
  · rfl
  · exact j.hbm

theorem keep_resetUnits {o s : State} {a1 : Nat → Bool} {a2 : Bool} (h : Keep o s) :
    Keep o (resetUnits s a1 a2) := by
  rw [resetUnits]
  repeat' with_reducible first
    | assumption | apply keep_ite | apply keep_emptySlot | apply keep_endTrial | apply keep_flushMerge
    | apply keep_clearUnits | apply keep_setDomain | apply keep_setF | apply keep_foldS | intro _

theorem keep_noteCause {o s : State} {a1 : Nat} (h : Keep o s) :
    Keep o (noteCause s a1) := by
  rw [noteCause]
  repeat' with_reducible first
    | assumption | apply keep_ite | apply keep_addF | apply keep_setF | apply keep_writeTmr | intro _

theorem keep_endReactions {o s : State}  (h : Keep o s) :
    Keep o (endReactions s) := by
  rw [endReactions]
  repeat' with_reducible first
    | assumption | apply keep_ite | apply keep_raiseEv | apply keep_setF | apply keep_foldS | intro _ | (dsimp only; split)
    | refine keep_mk rfl rfl rfl rfl rfl rfl rfl rfl rfl rfl rfl rfl ?_

theorem keep_dropSurvey {o s : State}  (h : Keep o s) :
    Keep o (dropSurvey s) := by
  rw [dropSurvey.eq_def]
  repeat' with_reducible first
    | assumption | apply keep_raiseEv | apply keep_setF | (dsimp only; split)
    | refine keep_mk rfl rfl rfl rfl rfl rfl rfl rfl rfl rfl rfl rfl ?_

theorem keep_leaveFe {o s : State}  (h : Keep o s) :
    Keep o (leaveFe s) := by
  rw [leaveFe]
  repeat' with_reducible first
    | assumption | apply keep_ite | apply keep_setF | intro _ | (dsimp only; split)
    | refine keep_mk rfl rfl rfl rfl rfl rfl rfl rfl rfl rfl rfl rfl ?_

theorem keep_reachT0 {o s : State}  (h : Keep o s) :
    Keep o (reachT0 s) := by
  rw [reachT0.eq_def]
  repeat' with_reducible first
    | assumption | apply keep_setF | apply keep_raiseEv | refine keep_mk_time rfl rfl rfl rfl rfl rfl rfl rfl rfl rfl rfl ?_
    | split | (dsimp only; split)

theorem keep_afterClocks {o s : State}  (h : Keep o s) :
    Keep o (afterClocks s) := by
  rw [afterClocks]
  repeat' with_reducible first | assumption | apply keep_ite | apply keep_setF | apply keep_reachT0 | intro _

theorem keep_restartClocks {o s : State}  (h : Keep o s) :
    Keep o (restartClocks s) := by
  rw [restartClocks]
  repeat' with_reducible first
    | assumption | apply keep_setF | apply keep_foldS | intro _
    | refine keep_mk rfl rfl rfl rfl rfl rfl rfl rfl rfl rfl rfl rfl ?_

theorem keep_clearAlwaysOn {o s : State} {a1 : Nat} {a2 : Bool} (h : Keep o s) : Keep o (clearAlwaysOn s a1 a2) := by
  refine ⟨h.pending, h.now, h.free, h.wire, h.fuses, fun i => ?_⟩
  have j := h.inv i
  exact ⟨j.host, j.regs, j.hbm, Nat.zero_le _, j.log, j.time⟩

theorem keep_coldReset {o s : State} {a1 : Nat} (h : Keep o s) :
    Keep o (coldReset s a1) := by
  rw [coldReset]
  repeat' with_reducible first
    | assumption | apply keep_ite | apply keep_resetUnits | apply keep_causeEnds | apply keep_clearAlwaysOn
    | apply keep_noteCause | apply keep_setF | apply keep_afterClocks | apply keep_restartClocks | intro _

theorem keep_warmReset {o s : State} {a1 : Nat} (h : Keep o s) :
    Keep o (warmReset s a1) := by
  rw [warmReset]
  repeat' with_reducible first
    | assumption | apply keep_ite | apply keep_functionReset | apply keep_endReactions | apply keep_dropSurvey
    | apply keep_resetUnits | apply keep_noteCause | apply keep_setSelfRefresh | apply keep_leaveFe | apply keep_afterClocks
    | apply keep_restartClocks | intro _ | (dsimp only; split)
    | refine keep_mk rfl rfl rfl rfl rfl rfl rfl rfl rfl rfl rfl rfl ?_

theorem keep_clockLossReset {o s : State}  (h : Keep o s) :
    Keep o (clockLossReset s) := by
  rw [clockLossReset]
  repeat' with_reducible first
    | assumption | apply keep_ite | apply keep_endReactions | apply keep_dropSurvey | apply keep_resetUnits
    | apply keep_noteCause | apply keep_setSelfRefresh | apply keep_restartClocks | apply keep_setF | intro _
    | (dsimp only; split) | refine keep_mk rfl rfl rfl rfl rfl rfl rfl rfl rfl rfl rfl rfl ?_

theorem keep_latchBar4 {o s : State}  (h : Keep o s) :
    Keep o (latchBar4 s) := by
  rw [latchBar4]
  repeat' with_reducible first | assumption | apply keep_setB

theorem keep_hotReset {o s : State}  (h : Keep o s) :
    Keep o (hotReset s) := by
  rw [hotReset]
  repeat' with_reducible first
    | assumption | apply keep_ite | apply keep_dropBuffers | apply keep_functionReset | apply keep_latchBar4
    | apply keep_noteCause | apply keep_resetRegs | intro _ | (dsimp only; split)
    | refine keep_mk rfl rfl rfl rfl rfl rfl rfl rfl rfl rfl rfl rfl ?_

theorem keep_freshDevice {o s : State} {a1 : Board} (h : Keep o s) : Keep o (freshDevice s a1) := by
  refine ⟨h.pending, h.now, h.free, h.wire, h.fuses, fun i => ?_⟩
  exact ⟨(h.inv i).host, rfl, rfl, Nat.zero_le _, Nat.zero_le _, rfl⟩

theorem keep_powerOn {o s : State} {a1 : Board} (h : Keep o s) :
    Keep o (powerOn s a1) := by
  rw [powerOn]
  repeat' with_reducible first
    | assumption | apply keep_ite | apply keep_emptySlot | apply keep_endTrial | apply keep_freshDevice
    | apply keep_writeTmr | apply keep_setB | apply keep_setF | apply keep_foldS | intro _

theorem keep_execPowerOnReset {o s : State} {a0 : Board} (h : Keep o s) :
    KeepOut o (execPowerOnReset a0 s) := by
  rw [execPowerOnReset]
  repeat' with_reducible first | assumption | apply keepOut_next | apply keep_powerOn

theorem keep_rstCtrlWrite {o s : State} {a1 : Nat} (h : Keep o s) :
    Keep o (rstCtrlWrite s a1) := by
  rw [rstCtrlWrite]
  repeat' with_reducible first | assumption | apply keep_ite | apply keep_setF | apply keep_warmReset | intro _

theorem keep_execRstWarm {o s : State} {a0 : Nat} (h : Keep o s) :
    KeepOut o (execRstWarm a0 s) := by
  rw [execRstWarm]
  repeat' with_reducible first | assumption | apply keepOut_next | apply keep_rstCtrlWrite

theorem keep_domainGo {o s : State} {a1 : Nat} (h : Keep o s) :
    Keep o (domainGo s a1) := by
  rw [domainGo]
  repeat' with_reducible first
    | assumption | apply keep_ite | apply keep_setF | apply keep_leaveReset | apply keep_enterReset | intro _
    | (dsimp only; split) | refine keep_mk rfl rfl rfl rfl rfl rfl rfl rfl rfl rfl rfl rfl ?_

theorem keep_execRstDomainGo {o s : State} {a0 : Nat} (h : Keep o s) :
    KeepOut o (execRstDomainGo a0 s) := by
  rw [execRstDomainGo]
  repeat' with_reducible first | assumption | apply keepOut_next | apply keep_domainGo

end Sys2Proof.Machine
end

