-- ==== Sys2Proof/Laws/KeepFaults.lean ====
section
/-!
SUPPORT. What the operations of Machine/Faults.lean keep.
-/

set_option Elab.async false

namespace Sys2Proof.Machine

theorem keep_noteStalled {o s : State} {a1 : Nat} (h : Keep o s) :
    Keep o (noteStalled s a1) := by
  rw [noteStalled]
  repeat' with_reducible first | assumption | apply keep_ite | apply keep_addF | apply keep_setSrc | intro _

theorem keep_eventDeliver {o s : State}  (h : Keep o s) :
    Keep o (eventDeliver s) := by
  rw [eventDeliver.eq_def]
  repeat' with_reducible first
    | assumption | apply keep_noteStalled | apply keep_deliverSource | apply keep_foldS | intro _ | split
    | (dsimp only; split)

theorem keep_execEventDeliver {o s : State}  (h : Keep o s) :
    KeepOut o (execEventDeliver s) := by
  rw [execEventDeliver]
  repeat' with_reducible first
    | assumption | apply keepOut_next | apply keepOut_ite | apply keep_ite | apply keep_eventDeliver | intro _

theorem keep_evqDrop {o s : State} (h : Keep o s) : Keep o (evqDrop s) := by
  rw [evqDrop]
  split
  · exact h
  · rename_i e
    refine keep_setF (keep_setF (keep_evq (fun k => ?_) h))
    rw [e, List.length_cons] at k
    exact Nat.le_of_succ_le k

theorem keep_evqPop {o s : State}  (h : Keep o s) :
    Keep o (evqPop s) := by
  rw [evqPop]
  repeat' with_reducible first | assumption | apply keep_evqDrop | apply keep_emit

theorem keep_execIntEvqPop {o s : State}  (h : Keep o s) :
    KeepOut o (execIntEvqPop s) := by
  rw [execIntEvqPop]
  repeat' with_reducible first | assumption | apply keepOut_next | apply keep_evqPop

theorem keep_srcAck {o s : State} {a1 : Nat} (h : Keep o s) :
    Keep o (srcAck s a1) := by
  rw [srcAck]
  repeat' with_reducible first | assumption | apply keep_ite | apply keep_setF | apply keep_setSrc | intro _

theorem keep_execIntSrcAck {o s : State} {a0 : Nat} (h : Keep o s) :
    KeepOut o (execIntSrcAck a0 s) := by
  rw [execIntSrcAck]
  repeat' with_reducible first | assumption | apply keepOut_next | apply keep_srcAck

theorem keep_mergeFault {o s : State} {a1 : Nat} {a2 : Nat} (h : Keep o s) :
    Keep o (mergeFault s a1 a2) := by
  rw [mergeFault]
  repeat' with_reducible first
    | assumption | apply keep_faultRecord | apply keep_raiseEv | apply keep_addF
    | refine keep_mk rfl rfl rfl rfl rfl rfl rfl rfl rfl rfl rfl rfl ?_

theorem keep_startUnitReset {o s : State} {a1 : Reaction} (h : Keep o s) :
    Keep o (startUnitReset s a1) := by
  rw [startUnitReset]
  repeat' with_reducible first
    | assumption | apply keep_ite | apply keep_endDependents | apply keep_setDomain | apply keep_dropPorts
    | apply keep_setMerge | apply keep_enterReset | apply keep_foldS | intro _

theorem keep_endUnitReset {o s : State} {a1 : Reaction} (h : Keep o s) :
    Keep o (endUnitReset s a1) := by
  rw [endUnitReset]
  repeat' with_reducible first
    | assumption | apply keep_ite | apply keep_setF | apply keep_leaveReset | apply keep_enterReset | apply keep_foldS
    | intro _ | (dsimp only; split) | refine keep_mk rfl rfl rfl rfl rfl rfl rfl rfl rfl rfl rfl rfl ?_

theorem keep_showReactions {o s : State}  (h : Keep o s) :
    Keep o (showReactions s) := by
  rw [showReactions]
  repeat' with_reducible first | assumption | apply keep_ite | apply keep_setF | intro _

theorem keep_dropReaction {o s : State} {a1 : Nat} (h : Keep o s) :
    Keep o (dropReaction s a1) := by
  rw [dropReaction]
  repeat' with_reducible first
    | assumption | apply keep_showReactions | intro _ | refine keep_mk rfl rfl rfl rfl rfl rfl rfl rfl rfl rfl rfl rfl ?_

theorem keep_holdUnit {o s : State} {a1 : Reaction} (h : Keep o s) :
    Keep o (holdUnit s a1) := by
  rw [holdUnit]
  repeat' with_reducible first
    | assumption | apply keep_dropReaction | apply keep_raiseEv | apply keep_showReactions
    | refine keep_mk rfl rfl rfl rfl rfl rfl rfl rfl rfl rfl rfl rfl ?_

theorem keep_finishReaction {o s : State} {a1 : Reaction} (h : Keep o s) :
    Keep o (finishReaction s a1) := by
  rw [finishReaction]
  repeat' with_reducible first
    | assumption | apply keep_ite | apply keep_holdUnit | apply keep_raiseEv | apply keep_dropReaction
    | apply keep_endUnitReset | intro _

theorem keep_countStart {o s : State} {a1 : Nat} (h : Keep o s) :
    Keep o (countStart s a1) := by
  rw [countStart]
  repeat' with_reducible first
    | assumption | intro _ | refine keep_mk rfl rfl rfl rfl rfl rfl rfl rfl rfl rfl rfl rfl ?_

theorem keep_raiseUc {o s : State} {a1 : Nat} {a2 : Nat} {a3 : List Byte} (h : Keep o s) :
    Keep o (raiseUc s a1 a2 a3) := by
  rw [raiseUc.eq_def]
  repeat' with_reducible first
    | assumption | apply keep_ite | apply keep_mergeFault | apply keep_recordFault | apply keep_countStart
    | apply keep_startUnitReset | apply keep_showReactions | intro _ | (dsimp only; split)
    | refine keep_mk rfl rfl rfl rfl rfl rfl rfl rfl rfl rfl rfl rfl ?_

theorem keep_ucResetDone {o s : State} {a1 : Nat} (h : Keep o s) :
    Keep o (ucResetDone s a1) := by
  rw [ucResetDone.eq_def]
  repeat' with_reducible first | assumption | apply keep_ite | apply keep_finishReaction | intro _ | split

theorem keep_execUcResetDone {o s : State} {a0 : Nat} (h : Keep o s) :
    KeepOut o (execUcResetDone a0 s) := by
  rw [execUcResetDone]
  repeat' with_reducible first | assumption | apply keepOut_next | apply keep_ucResetDone

theorem keep_surveyFailed {o s : State}  (h : Keep o s) :
    Keep o (surveyFailed s) := by
  rw [surveyFailed]
  repeat' with_reducible first | assumption | apply keep_raiseEv | apply keep_setF

theorem keep_startSurvey {o s : State} {a1 : Bool} {a2 : Bool} (h : Keep o s) :
    Keep o (startSurvey s a1 a2) := by
  rw [startSurvey]
  repeat' with_reducible first
    | assumption | apply keep_clockLoss | apply keep_setF
    | refine keep_mk rfl rfl rfl rfl rfl rfl rfl rfl rfl rfl rfl rfl ?_

theorem keep_endFe {o s : State}  (h : Keep o s) :
    Keep o (endFe s) := by
  rw [endFe]
  repeat' with_reducible first | assumption | apply keep_ite | apply keep_warmReset | intro _

theorem keep_raiseFe {o s : State} {a1 : Nat} {a2 : List Byte} (h : Keep o s) :
    Keep o (raiseFe s a1 a2) := by
  rw [raiseFe]
  repeat' with_reducible first
    | assumption | apply keep_ite | apply keep_mergeFault | apply keep_wakeLight | apply keep_setF | apply keep_recordFault
    | apply keep_faultHold | apply keep_stopSchedule | apply keep_trigDisarm | apply keep_endFe | apply keep_surveyFailed
    | apply keep_startSurvey | apply keep_foldS | intro _ | (dsimp only; split)
    | refine keep_mk rfl rfl rfl rfl rfl rfl rfl rfl rfl rfl rfl rfl ?_

theorem keep_finishSurvey {o s : State} {a1 : SurveyRun} (h : Keep o s) :
    Keep o (finishSurvey s a1) := by
  rw [finishSurvey]
  repeat' with_reducible first
    | assumption | apply keep_ite | apply keep_hostWrite | apply keep_writeTmr | apply keep_setF | apply keep_raiseEv
    | apply keep_endFe | intro _ | (dsimp only; split) | refine keep_mk rfl rfl rfl rfl rfl rfl rfl rfl rfl rfl rfl rfl ?_

theorem keep_surveyDone {o s : State} {a1 : Bool} (h : Keep o s) :
    Keep o (surveyDone s a1) := by
  rw [surveyDone.eq_def]
  repeat' with_reducible first
    | assumption | apply keep_ite | apply keep_setF | apply keep_finishSurvey | intro _ | (dsimp only; split)
    | refine keep_mk rfl rfl rfl rfl rfl rfl rfl rfl rfl rfl rfl rfl ?_

theorem keep_execSurveyDone {o s : State} {a0 : Bool} (h : Keep o s) :
    KeepOut o (execSurveyDone a0 s) := by
  rw [execSurveyDone]
  repeat' with_reducible first | assumption | apply keepOut_next | apply keep_surveyDone

theorem keep_restartHeld {o s : State} {a1 : Nat} (h : Keep o s) :
    Keep o (restartHeld s a1) := by
  rw [restartHeld]
  repeat' with_reducible first
    | assumption | apply keep_endUnitReset | apply keep_raiseEv | apply keep_showReactions | apply keep_foldS | intro _
    | refine keep_mk rfl rfl rfl rfl rfl rfl rfl rfl rfl rfl rfl rfl ?_

theorem keep_clearSticky {o s : State} {a1 : Nat} (h : Keep o s) :
    Keep o (clearSticky s a1) := by
  rw [clearSticky]
  repeat' with_reducible first
    | assumption | apply keep_ite | apply keep_restartHeld | apply keep_setSticky | intro _

theorem keep_releaseAbsorbed {o s : State}  (h : Keep o s) :
    Keep o (releaseAbsorbed s) := by
  rw [releaseAbsorbed]
  repeat' with_reducible first
    | assumption | apply keep_ite | apply keep_raiseEv | apply keep_dropReaction | apply keep_endUnitReset
    | apply keep_foldS | intro _ | (dsimp only; split) | refine keep_mk rfl rfl rfl rfl rfl rfl rfl rfl rfl rfl rfl rfl ?_

theorem keep_feOver {o s : State}  (h : Keep o s) :
    Keep o (feOver s) := by
  rw [feOver]
  repeat' with_reducible first
    | assumption | apply keep_ite | apply keep_leaveFe | apply keep_releaseAbsorbed | intro _

theorem keep_stickyWrite {o s : State} {a1 : Nat} {a2 : Nat} (h : Keep o s) :
    Keep o (stickyWrite s a1 a2) := by
  rw [stickyWrite]
  repeat' with_reducible first
    | assumption | apply keep_feOver | apply keep_clearSticky | apply keep_foldS | intro _

theorem keep_execFltStickyClear {o s : State} {a0 : Nat} {a1 : Nat} (h : Keep o s) :
    KeepOut o (execFltStickyClear a0 a1 s) := by
  rw [execFltStickyClear]
  repeat' with_reducible first
    | assumption | apply keepOut_next | apply keepOut_ite | apply keep_ite | apply keep_stickyWrite | intro _

theorem keep_firstClear {o s : State}  (h : Keep o s) :
    Keep o (firstClear s) := by
  rw [firstClear]
  repeat' with_reducible first
    | assumption | apply keep_setF | apply keep_writeTmr | refine keep_mk rfl rfl rfl rfl rfl rfl rfl rfl rfl rfl rfl rfl ?_

theorem keep_execFltFirstClear {o s : State}  (h : Keep o s) :
    KeepOut o (execFltFirstClear s) := by
  rw [execFltFirstClear]
  repeat' with_reducible first
    | assumption | apply keepOut_next | apply keepOut_ite | apply keep_ite | apply keep_firstClear | intro _

theorem keep_fltTest {o s : State} {a1 : Nat} (h : Keep o s) :
    Keep o (fltTest s a1) := by
  rw [fltTest]
  repeat' with_reducible first
    | assumption | apply keep_ite | apply keep_raiseCe | apply keep_raiseUc | apply keep_raiseFe | intro _

theorem keep_execFltTest {o s : State} {a0 : Nat} (h : Keep o s) :
    KeepOut o (execFltTest a0 s) := by
  rw [execFltTest]
  repeat' with_reducible first | assumption | apply keepOut_next | apply keep_fltTest

theorem keep_noteError {o s : State} {a1 : Nat} {a2 : List Byte} (h : Keep o s) :
    Keep o (noteError s a1 a2) := by
  rw [noteError]
  repeat' with_reducible first
    | assumption | apply keep_ite | apply keep_setF | apply keep_addT | apply keep_addF | intro _

theorem keep_hardwareFault {o s : State} {a1 : Nat} {a2 : Nat} {a3 : List Byte} (h : Keep o s) :
    Keep o (hardwareFault s a1 a2 a3) := by
  rw [hardwareFault]
  repeat' with_reducible first
    | assumption | apply keep_ite | apply keep_raiseCe | apply keep_noteError | apply keep_raiseUc | apply keep_raiseFe
    | intro _ | split

theorem keep_execHardwareFault {o s : State} {a0 : Nat} {a1 : Nat} {a2 : List Byte} (h : Keep o s) :
    KeepOut o (execHardwareFault a0 a1 a2 s) := by
  rw [execHardwareFault]
  repeat' with_reducible first | assumption | apply keepOut_next | apply keep_hardwareFault

theorem keep_runSurveyArm {o s : State} {a1 : Cmd} {a2 : List Byte} (h : Keep o s) :
    Keep o (runSurveyArm s a1 a2) := by
  rw [runSurveyArm]
  repeat' with_reducible first
    | assumption | apply keep_ite | apply keep_setF | apply keep_complete | intro _ | (dsimp only; split)
    | refine keep_mk rfl rfl rfl rfl rfl rfl rfl rfl rfl rfl rfl rfl ?_

theorem keep_execSurveyArm {o s : State} {a0 : Nat} (h : Keep o s) :
    KeepOut o (execSurveyArm a0 s) := by
  rw [execSurveyArm]
  repeat' with_reducible first
    | assumption | apply keepOut_next | apply keep_ringRow | apply keep_runSurveyArm | apply keep_ringRow | intro _

theorem keep_runSurveyRead {o s : State} {a1 : Cmd} {a2 : List Byte} (h : Keep o s) :
    Keep o (runSurveyRead s a1 a2) := by
  rw [runSurveyRead]
  repeat' with_reducible first
    | assumption | apply keep_ite | apply keep_hostWrite | apply keep_complete | intro _ | (dsimp only; split)
    | refine keep_mk rfl rfl rfl rfl rfl rfl rfl rfl rfl rfl rfl rfl ?_

theorem keep_execSurveyRead {o s : State} {a0 : Nat} (h : Keep o s) :
    KeepOut o (execSurveyRead a0 s) := by
  rw [execSurveyRead]
  repeat' with_reducible first
    | assumption | apply keepOut_next | apply keep_ringRow | apply keep_runSurveyRead | apply keep_ringRow | intro _

theorem keep_setLink {o s : State} {a1 : Nat} {a2 : Option (Nat × Nat)} (h : Keep o s) :
    Keep o (setLink s a1 a2) := by
  rw [setLink]
  repeat' with_reducible first
    | assumption | refine keep_mk rfl rfl rfl rfl rfl rfl rfl rfl rfl rfl rfl rfl ?_

theorem keep_execD2dFlitRetry {o s : State} {a0 : Nat} (h : Keep o s) :
    KeepOut o (execD2dFlitRetry a0 s) := by
  rw [execD2dFlitRetry]
  repeat' with_reducible first
    | assumption | apply keepOut_next | apply keepOut_ite | apply keep_ite | apply keep_raiseCe | intro _

theorem keep_execD2dLinkLoss {o s : State} {a0 : Nat} (h : Keep o s) :
    KeepOut o (execD2dLinkLoss a0 s) := by
  rw [execD2dLinkLoss]
  repeat' with_reducible first
    | assumption | apply keepOut_next | apply keepOut_ite | apply keep_ite | apply keep_raiseEv | apply keep_setLink
    | intro _

theorem keep_execDieLinkRetrain {o s : State} {a0 : Nat} (h : Keep o s) :
    KeepOut o (execDieLinkRetrain a0 s) := by
  rw [execDieLinkRetrain]
  repeat' with_reducible first
    | assumption | apply keepOut_next | apply keepOut_ite | apply keep_ite | apply keep_setLink | intro _ | split

theorem keep_execDieLinkDown {o s : State} {a0 : Nat} (h : Keep o s) :
    KeepOut o (execDieLinkDown a0 s) := by
  rw [execDieLinkDown]
  repeat' with_reducible first
    | assumption | apply keepOut_next | apply keepOut_ite | apply keep_ite | apply keep_raiseUc | intro _ | split

theorem keep_dieLinkReturn {o s : State} {a1 : Nat} (h : Keep o s) :
    Keep o (dieLinkReturn s a1) := by
  rw [dieLinkReturn.eq_def]
  repeat' with_reducible first
    | assumption | apply keep_ite | apply keep_setLink | apply keep_causeEnds | apply keep_finishReaction | intro _ | split
    | (dsimp only; split) | refine keep_mk rfl rfl rfl rfl rfl rfl rfl rfl rfl rfl rfl rfl ?_

theorem keep_execDieLinkReturn {o s : State} {a0 : Nat} (h : Keep o s) :
    KeepOut o (execDieLinkReturn a0 s) := by
  rw [execDieLinkReturn]
  repeat' with_reducible first | assumption | apply keepOut_next | apply keep_dieLinkReturn

end Sys2Proof.Machine
end

