-- ==== Sys2Proof/Laws/KeepMemory.lean ====
section
/-!
SUPPORT. What the operations of Machine/Memory.lean keep.
-/

set_option Elab.async false

namespace Sys2Proof.Machine

theorem keep_setTrained {o s : State} {a1 : Nat} {a2 : Bool} (h : Keep o s) :
    Keep o (setTrained s a1 a2) := by
  rw [setTrained]
  repeat' with_reducible first | assumption | apply keep_ite | apply keep_setB | intro _

theorem keep_mergeTake {o s : State} {a1 : Nat} {a2 : Nat} (h : Keep o s) :
    Keep o (mergeTake s a1 a2).2 := by
  rw [mergeTake.eq_def]
  repeat' with_reducible first
    | assumption | apply keep_ite | apply keep_ite_snd | apply keep_setMerge | apply keep_writeEntry
    | refine keep_snd (by assumption) ?_ | refine keep_fst (by assumption) ?_ | intro _ | split

theorem keep_mergePut {o s : State} {a1 : Nat} {a2 : MergeEntry} (h : Keep o s) :
    Keep o (mergePut s a1 a2) := by
  rw [mergePut]
  repeat' with_reducible first | assumption | apply keep_ite | apply keep_setMerge | intro _

theorem keep_mergeJoin {o s : State} {a1 : Nat} {a2 : Nat} {a3 : List (Nat × List Byte)} (h : Keep o s) :
    Keep o (mergeJoin s a1 a2 a3) := by
  rw [mergeJoin]
  repeat' with_reducible first
    | assumption | apply keep_ite | apply keep_ite_fst | apply keep_ite_snd | apply keep_mergeTake | apply keep_writeEntry
    | apply keep_setMerge | apply keep_mergePut | apply keep_foldl | apply keep_foldl_fst | apply keep_foldl_snd | intro _
    | split | (dsimp only; split)

theorem keep_mergeFilled {o s : State} {a1 : Nat} {a2 : Nat} (h : Keep o s) :
    Keep o (mergeFilled s a1 a2) := by
  rw [mergeFilled.eq_def]
  repeat' with_reducible first
    | assumption | apply keep_ite | apply keep_ite_fst | apply keep_ite_snd | apply keep_readHbm | apply keep_mergePut
    | intro _ | split | (dsimp only; split)

theorem keep_execMergeReadReturn {o s : State} {a0 : Nat} {a1 : Nat} {a2 : Stores} {a3 : Nat} {a4 : Nat} (h : Keep o s) :
    KeepOut o (execMergeReadReturn a0 a1 a2 a3 a4 s) := by
  rw [execMergeReadReturn]
  repeat' with_reducible first
    | assumption | apply keepOut_next | apply keepOut_ite | apply keep_ite | apply keep_noteWait | apply keep_hbmOutside
    | apply keep_mergeFilled | apply keep_mergeJoin | intro _

theorem keep_mergeTimeout {o s : State} {a1 : Nat} (h : Keep o s) :
    Keep o (mergeTimeout s a1) := by
  rw [mergeTimeout.eq_def]
  repeat' with_reducible first
    | assumption | apply keep_ite | apply keep_writeEntry | apply keep_setMerge | intro _ | split

theorem keep_execMergeEntryTimeout {o s : State} {a0 : Nat} (h : Keep o s) :
    KeepOut o (execMergeEntryTimeout a0 s) := by
  rw [execMergeEntryTimeout]
  repeat' with_reducible first
    | assumption | apply keepOut_next | apply keepOut_ite | apply keep_ite | apply keep_mergeTimeout | intro _

theorem keep_readWord {o s : State} {a1 : Nat} (h : Keep o s) :
    Keep o (readWord s a1).2.2 := by
  rw [readWord]
  repeat' with_reducible first
    | assumption | apply keep_ite | apply keep_mergeFilled | apply keep_readHbm | refine keep_snd (by assumption) ?_
    | refine keep_fst (by assumption) ?_ | intro _ | split | (dsimp only; split)

theorem keep_writeWhole {o s : State} {a1 : Nat} {a2 : List Byte} (h : Keep o s) :
    Keep o (writeWhole s a1 a2) := by
  rw [writeWhole]
  repeat' with_reducible first
    | assumption | apply keep_ite | apply keep_mergeJoin | apply keep_writeHbm | apply keep_setMerge | intro _ | split
    | (dsimp only; split)

theorem keep_writeBytes {o s : State} {a1 : Nat} {a2 : Nat} {a3 : List Byte} (h : Keep o s) :
    Keep o (writeBytes s a1 a2 a3) := by
  induction a2 generalizing s a1 a3 with
  | zero => exact h
  | succ k ih =>
    rw [writeBytes]
    repeat' with_reducible first
      | assumption | apply keep_ite | apply ih | apply keep_writeWhole | apply keep_mergeJoin | intro _ | split
      | (dsimp only; split)

theorem keep_readBytes {o s : State} {a1 a2 a3 : Nat} (h : Keep o s) : Keep o (readBytes s a1 a2 a3).2.2 := by
  induction a2 generalizing s a1 a3 with
  | zero => exact h
  | succ k ih =>
    rw [readBytes]
    split
    · exact h
    · exact ih (keep_readWord h)

theorem keep_windowAccess {o s : State} {a1 a2 : Nat} {a3 : Option Nat} (h : Keep o s) :
    Keep o (windowAccess s a1 a2 a3) := by
  rw [windowAccess.eq_def]
  dsimp only
  split
  · split
    · exact h
    · exact keep_emit h
  · cases a3 with
    | none => exact keep_emit (keep_readBytes h)
    | some v => exact keep_writeBytes h

theorem keep_showRetrain {o s : State} {a1 : Nat} (h : Keep o s) :
    Keep o (showRetrain s a1) := by
  rw [showRetrain]
  repeat' with_reducible first | assumption | apply keep_ite | apply keep_setF | apply keep_setB | intro _

theorem keep_setRetrain {o s : State} {a1 : Nat} {a2 : Retrain} (h : Keep o s) :
    Keep o (setRetrain s a1 a2) := by
  rw [setRetrain]
  repeat' with_reducible first
    | assumption | apply keep_showRetrain | refine keep_mk rfl rfl rfl rfl rfl rfl rfl rfl rfl rfl rfl rfl ?_

theorem keep_checkRetrain {o s : State} {a1 : Nat} (h : Keep o s) :
    Keep o (checkRetrain s a1) := by
  rw [checkRetrain.eq_def]
  repeat' with_reducible first
    | assumption | apply keep_ite | apply keep_raiseEv | apply keep_setRetrain | intro _ | split

theorem keep_recentre {o s : State} {a1 : Nat} {a2 : Nat} {a3 : List (Nat × Nat × Nat)} (h : Keep o s) :
    Keep o (recentre s a1 a2 a3) := by
  rw [recentre]
  repeat' with_reducible first | assumption | apply keep_setF | apply keep_setB | apply keep_foldS | intro _ | split

theorem keep_setTrainTemp {o s : State} {a1 : Nat} {a2 : Int} (h : Keep o s) :
    Keep o (setTrainTemp s a1 a2) := by
  rw [setTrainTemp]
  repeat' with_reducible first | assumption | apply keep_ite | apply keep_setS | intro _

theorem keep_retrainHold {o s : State} {a1 : Nat} {a2 : List (Nat × Nat)} {a3 : List (Nat × Nat × Nat)} (h : Keep o s) :
    Keep o (retrainHold s a1 a2 a3) := by
  rw [retrainHold]
  repeat' with_reducible first
    | assumption | apply keep_ite | apply keep_ite_fst | apply keep_ite_snd | apply keep_checkRetrain | apply keep_recentre
    | apply keep_setRetrain | apply keep_setTrainTemp | apply keep_raiseEv | intro _

theorem keep_execRetrainHold {o s : State} {a0 : Nat} {a1 : List (Nat × Nat)} {a2 : List (Nat × Nat × Nat)} (h : Keep o s) :
    KeepOut o (execRetrainHold a0 a1 a2 s) := by
  rw [execRetrainHold]
  repeat' with_reducible first
    | assumption | apply keepOut_next | apply keepOut_ite | apply keep_ite | apply keep_retrainHold | intro _

theorem keep_retrainDeferred {o s : State} {a1 : Nat} (h : Keep o s) :
    Keep o (retrainDeferred s a1) := by
  rw [retrainDeferred]
  repeat' with_reducible first
    | assumption | apply keep_ite | apply keep_raiseEv | apply keep_addF | apply keep_setRetrain | intro _

theorem keep_execRetrainDeferred {o s : State} {a0 : Nat} (h : Keep o s) :
    KeepOut o (execRetrainDeferred a0 s) := by
  rw [execRetrainDeferred]
  repeat' with_reducible first
    | assumption | apply keepOut_next | apply keepOut_ite | apply keep_ite | apply keep_retrainDeferred | intro _

theorem keep_voteWord {o s : State} {a1 : Nat} (h : Keep o s) :
    Keep o (voteWord s a1) := by
  rw [voteWord]
  repeat' with_reducible first
    | assumption | apply keep_ite | apply keep_raiseFe | apply keep_addF | apply keep_setF | apply keep_writeTmr
    | apply keep_raiseCe | apply keep_addT | intro _

theorem keep_tmrSweep {o s : State}  (h : Keep o s) :
    Keep o (tmrSweep s) := by
  rw [tmrSweep]
  repeat' with_reducible first
    | assumption | apply keep_ite | apply keep_voteWord | apply keep_causeEnds | apply keep_foldS | intro _

theorem keep_execTmrSweep {o s : State}  (h : Keep o s) :
    KeepOut o (execTmrSweep s) := by
  rw [execTmrSweep]
  repeat' with_reducible first | assumption | apply keepOut_next | apply keep_tmrSweep

theorem keep_endHbmPass {o s : State} {a1 : Nat} (h : Keep o s) :
    Keep o (endHbmPass s a1) := by
  rw [endHbmPass]
  repeat' with_reducible first
    | assumption | apply keep_ite | apply keep_raiseEv | apply keep_addF | intro _ | (dsimp only; split)
    | refine keep_mk rfl rfl rfl rfl rfl rfl rfl rfl rfl rfl rfl rfl ?_

theorem keep_hbmScrub {o s : State} {a1 : Nat} (h : Keep o s) :
    Keep o (hbmScrub s a1) := by
  rw [hbmScrub]
  repeat' with_reducible first
    | assumption | apply keep_ite | apply keep_ite_fst | apply keep_ite_snd | apply keep_readHbm | apply keep_writeHbm
    | apply keep_endHbmPass | intro _ | (dsimp only; split)
    | refine keep_mk rfl rfl rfl rfl rfl rfl rfl rfl rfl rfl rfl rfl ?_

theorem keep_execHbmScrubStep {o s : State} {a0 : Nat} {a1 : Nat} (h : Keep o s) :
    KeepOut o (execHbmScrubStep a0 a1 s) := by
  rw [execHbmScrubStep]
  repeat' with_reducible first
    | assumption | apply keepOut_next | apply keepOut_ite | apply keep_ite | apply keep_hbmScrub | apply keep_noteWait
    | intro _

theorem keep_setSram {o s : State} {a1 : Nat} {a2 : Nat} {a3 : SramWord} (h : Keep o s) :
    Keep o (setSram s a1 a2 a3) := by
  rw [setSram]
  repeat' with_reducible first
    | assumption | refine keep_mk rfl rfl rfl rfl rfl rfl rfl rfl rfl rfl rfl rfl ?_

theorem keep_sramFlip {o s : State} {a1 : Nat} {a2 : Nat} (h : Keep o s) :
    Keep o (sramFlip s a1 a2) := by
  rw [sramFlip]
  repeat' with_reducible first | assumption | apply keep_ite | apply keep_flipDone | apply keep_setSram | intro _

theorem keep_sramScrub {o s : State} {a1 : Nat} {a2 : Nat} {a3 : Nat} (h : Keep o s) :
    Keep o (sramScrub s a1 a2 a3) := by
  rw [sramScrub]
  repeat' with_reducible first
    | assumption | apply keep_ite | apply keep_ite_fst | apply keep_ite_snd | apply keep_sramFlip | apply keep_secded
    | apply keep_noteError | apply keep_setSram | apply keep_ceOnce | apply keep_raiseUc | intro _ | (dsimp only; split)
    | refine keep_mk rfl rfl rfl rfl rfl rfl rfl rfl rfl rfl rfl rfl ?_

theorem keep_execSramScrubStep {o s : State} {a0 : Nat} {a1 : Nat} {a2 : Nat} {a3 : Bool} (h : Keep o s) :
    KeepOut o (execSramScrubStep a0 a1 a2 a3 s) := by
  rw [execSramScrubStep]
  repeat' with_reducible first
    | assumption | apply keepOut_next | apply keepOut_ite | apply keep_ite | apply keep_sramScrub | apply keep_addF
    | intro _

theorem keep_flipCtrlWrite {o s : State} {a1 : Nat} (h : Keep o s) :
    Keep o (flipCtrlWrite s a1) := by
  rw [flipCtrlWrite]
  repeat' with_reducible first | assumption | apply keep_setF

theorem keep_execEccFlipArm {o s : State} {a0 : Nat} (h : Keep o s) :
    KeepOut o (execEccFlipArm a0 s) := by
  rw [execEccFlipArm]
  repeat' with_reducible first | assumption | apply keepOut_next | apply keep_flipCtrlWrite

theorem keep_replaceContents {o s : State} {a1 : Nat} {a2 : SMap Bool} (h : Keep o s) : Keep o (replaceContents s a1 a2) := by
  refine ⟨h.pending, h.now, h.free, h.wire, h.fuses, fun i => ?_⟩
  have j := h.inv i
  exact ⟨j.host, j.regs, SMap.canon_filter _ HbmWord.init j.hbm, j.evq, j.log, j.time⟩

theorem keep_fullTraining {o s : State} {a1 : Nat} {a2 : List (Nat × Nat × Nat × Bool)} (h : Keep o s) :
    Keep o (fullTraining s a1 a2) := by
  rw [fullTraining]
  repeat' with_reducible first
    | assumption | apply keep_setF | apply keep_setB | apply keep_replaceContents | apply keep_foldS | apply keep_foldl
    | apply keep_foldl_fst | apply keep_foldl_snd | intro _

theorem keep_losePool {o s : State}  (h : Keep o s) :
    Keep o (losePool s) := by
  rw [losePool]
  repeat' with_reducible first
    | assumption | refine keep_mk rfl rfl rfl rfl rfl rfl rfl rfl rfl rfl rfl rfl ?_

theorem keep_stackTrained {o s : State} {a1 : Nat} {a2 : Bool} {a3 : Bool} {a4 : List (Nat × Nat × Nat × Bool)} {a5 : Int} (h : Keep o s) :
    Keep o (stackTrained s a1 a2 a3 a4 a5) := by
  rw [stackTrained]
  repeat' with_reducible first
    | assumption | apply keep_ite | apply keep_fullTraining | apply keep_losePool | apply keep_setTrained
    | apply keep_setTrainTemp | apply keep_setRetrain | intro _

theorem keep_placeOrders {o s : State} {a1 : Bool} {a2 : Bool} (h : Keep o s) :
    Keep o (placeOrders s a1 a2) := by
  rw [placeOrders]
  repeat' with_reducible first | assumption | apply keep_ite | apply keep_setF | apply keep_setB | intro _

theorem keep_trainingDone {o s : State} {a1 : Bool × Bool} {a2 : Bool × Bool} {a3 : List (Nat × Nat × Nat × Bool)} {a4 : Int × Int} (h : Keep o s) :
    Keep o (trainingDone s a1 a2 a3 a4) := by
  rw [trainingDone]
  repeat' with_reducible first
    | assumption | apply keep_ite | apply keep_ite_fst | apply keep_ite_snd | apply keep_placeOrders
    | apply keep_stackTrained | apply keep_setSelfRefresh | apply keep_setB | apply keep_setF | apply keep_causeEnds
    | apply keep_raiseFe | intro _ | (dsimp only; split) | refine keep_mk rfl rfl rfl rfl rfl rfl rfl rfl rfl rfl rfl rfl ?_

theorem keep_execHbmTrainingDone {o s : State} {a0 : Bool × Bool} {a1 : Bool × Bool} {a2 : List (Nat × Nat × Nat × Bool)} {a3 : Int × Int} (h : Keep o s) :
    KeepOut o (execHbmTrainingDone a0 a1 a2 a3 s) := by
  rw [execHbmTrainingDone]
  repeat' with_reducible first
    | assumption | apply keepOut_next | apply keepOut_ite | apply keep_ite | apply keep_trainingDone | intro _

end Sys2Proof.Machine
end

