-- ==== Sys2Proof/Laws/KeepClocks.lean ====
section
/-!
SUPPORT. What the operations of Machine/Clocks.lean keep.
-/

set_option Elab.async false

namespace Sys2Proof.Machine

theorem keep_setLocked {o s : State} {a1 : Nat} {a2 : Bool} (h : Keep o s) :
    Keep o (setLocked s a1 a2) := by
  rw [setLocked]
  repeat' with_reducible first | assumption | apply keep_setF | apply keep_setB

theorem keep_setRelock {o s : State} {a1 : Nat} {a2 : Option Nat} (h : Keep o s) :
    Keep o (setRelock s a1 a2) := by
  rw [setRelock]
  repeat' with_reducible first
    | assumption | refine keep_mk rfl rfl rfl rfl rfl rfl rfl rfl rfl rfl rfl rfl ?_

theorem keep_setStage {o s : State} {a1 : ClkStage} (h : Keep o s) :
    Keep o (setStage s a1) := by
  rw [setStage]
  repeat' with_reducible first
    | assumption | refine keep_mk rfl rfl rfl rfl rfl rfl rfl rfl rfl rfl rfl rfl ?_

theorem keep_beginPlls {o s : State}  (h : Keep o s) :
    Keep o (beginPlls s) := by
  rw [beginPlls]
  repeat' with_reducible first
    | assumption | apply keep_setRelock | apply keep_setStage | apply keep_pllLock | apply keep_foldS | intro _

theorem keep_clockHold {o s : State}  (h : Keep o s) :
    Keep o (clockHold s) := by
  rw [clockHold]
  repeat' with_reducible first
    | assumption | apply keep_ite | apply keep_setF | apply keep_mergeFault | apply keep_recordFault | apply keep_setStage
    | intro _ | (dsimp only; split) | refine keep_mk rfl rfl rfl rfl rfl rfl rfl rfl rfl rfl rfl rfl ?_

theorem keep_troJudgment {o s : State} {a1 : Nat} (h : Keep o s) :
    Keep o (troJudgment s a1) := by
  rw [troJudgment]
  repeat' with_reducible first
    | assumption | apply keep_ite | apply keep_addF | apply keep_setF | apply keep_setStage | apply keep_clockHold | intro _
    | (dsimp only; split) | refine keep_mk rfl rfl rfl rfl rfl rfl rfl rfl rfl rfl rfl rfl ?_

theorem keep_execTroJudgment {o s : State} {a0 : Nat} (h : Keep o s) :
    KeepOut o (execTroJudgment a0 s) := by
  rw [execTroJudgment]
  repeat' with_reducible first
    | assumption | apply keepOut_next | apply keepOut_ite | apply keep_ite | apply keep_troJudgment | intro _

theorem keep_enterCoast {o s : State}  (h : Keep o s) :
    Keep o (enterCoast s) := by
  rw [enterCoast]
  repeat' with_reducible first | assumption | apply keep_setF | apply keep_raiseEv

theorem keep_xoGood {o s : State}  (h : Keep o s) :
    Keep o (xoGood s) := by
  rw [xoGood]
  repeat' with_reducible first | assumption | apply keep_causeEnds | apply keep_setF

theorem keep_judgeXo {o s : State} {a1 : Nat} (h : Keep o s) :
    Keep o (judgeXo s a1) := by
  rw [judgeXo]
  repeat' with_reducible first
    | assumption | apply keep_ite | apply keep_setF | apply keep_xoGood | apply keep_enterCoast | intro _

theorem keep_execXoJudgment {o s : State} {a0 : Nat} (h : Keep o s) :
    KeepOut o (execXoJudgment a0 s) := by
  rw [execXoJudgment]
  repeat' with_reducible first
    | assumption | apply keepOut_next | apply keepOut_ite | apply keep_ite | apply keep_beginPlls | apply keep_judgeXo
    | intro _

theorem keep_xoTimeout {o s : State}  (h : Keep o s) :
    Keep o (xoTimeout s) := by
  rw [xoTimeout]
  repeat' with_reducible first
    | assumption | apply keep_freshIndex | apply keep_beginPlls | apply keep_enterCoast | apply keep_setF

theorem keep_execXoAmplitudeTimeout {o s : State}  (h : Keep o s) :
    KeepOut o (execXoAmplitudeTimeout s) := by
  rw [execXoAmplitudeTimeout]
  repeat' with_reducible first
    | assumption | apply keepOut_next | apply keepOut_ite | apply keep_ite | apply keep_xoTimeout | intro _

theorem keep_pllLock {o s : State} {a1 : Nat} (h : Keep o s) :
    Keep o (pllLock s a1) := by
  rw [pllLock]
  repeat' with_reducible first
    | assumption | apply keep_ite | apply keep_causeEnds | apply keep_setRelock | apply keep_setLocked | apply keep_setF
    | apply keep_afterClocks | apply keep_setStage | apply keep_finishReaction | intro _ | split

theorem keep_execPllLock {o s : State} {a0 : Nat} (h : Keep o s) :
    KeepOut o (execPllLock a0 s) := by
  rw [execPllLock]
  repeat' with_reducible first
    | assumption | apply keepOut_next | apply keepOut_ite | apply keep_ite | apply keep_pllLock | intro _

theorem keep_pllLimit {o s : State} {a1 : Nat} (h : Keep o s) :
    Keep o (pllLimit s a1) := by
  rw [pllLimit.eq_def]
  repeat' with_reducible first
    | assumption | apply keep_ite | apply keep_holdUnit | apply keep_setRelock | intro _ | (dsimp only; split)
    | refine keep_mk rfl rfl rfl rfl rfl rfl rfl rfl rfl rfl rfl rfl ?_

theorem keep_raiseUnlock {o s : State} {a1 : Nat} (h : Keep o s) :
    Keep o (raiseUnlock s a1) := by
  rw [raiseUnlock]
  repeat' with_reducible first
    | assumption | apply keep_ite | apply keep_pllLimit | apply keep_raiseUc | apply keep_raiseFe | intro _

theorem keep_pllUnlock {o s : State} {a1 : Nat} (h : Keep o s) :
    Keep o (pllUnlock s a1) := by
  rw [pllUnlock]
  repeat' with_reducible first
    | assumption | apply keep_raiseUnlock | apply keep_setRelock | apply keep_addF | apply keep_setLocked

theorem keep_execPllUnlock {o s : State} {a0 : Nat} (h : Keep o s) :
    KeepOut o (execPllUnlock a0 s) := by
  rw [execPllUnlock]
  repeat' with_reducible first
    | assumption | apply keepOut_next | apply keepOut_ite | apply keep_ite | apply keep_pllUnlock | intro _

theorem keep_pllTimeout {o s : State} {a1 : Nat} (h : Keep o s) :
    Keep o (pllTimeout s a1) := by
  rw [pllTimeout]
  repeat' with_reducible first
    | assumption | apply keep_ite | apply keep_pllLock | apply keep_setF | apply keep_setRelock | apply keep_raiseUnlock
    | apply keep_pllLimit | apply keep_countStart | intro _ | split | (dsimp only; split)
    | refine keep_mk rfl rfl rfl rfl rfl rfl rfl rfl rfl rfl rfl rfl ?_

theorem keep_execPllRelockTimeout {o s : State} {a0 : Nat} (h : Keep o s) :
    KeepOut o (execPllRelockTimeout a0 s) := by
  rw [execPllRelockTimeout]
  repeat' with_reducible first
    | assumption | apply keepOut_next | apply keepOut_ite | apply keep_ite | apply keep_pllTimeout | intro _ | split

theorem keep_pllFreqWrite {o s : State} {a1 : Nat} {a2 : Nat} (h : Keep o s) :
    Keep o (pllFreqWrite s a1 a2) := by
  rw [pllFreqWrite]
  repeat' with_reducible first
    | assumption | apply keep_ite | apply keep_setF | apply keep_setRelock | apply keep_setLocked | intro _

theorem keep_execClkPllFreqWrite {o s : State} {a0 : Nat} {a1 : Nat} (h : Keep o s) :
    KeepOut o (execClkPllFreqWrite a0 a1 s) := by
  rw [execClkPllFreqWrite]
  repeat' with_reducible first | assumption | apply keepOut_next | apply keep_pllFreqWrite

theorem keep_coastPll {o s : State} {a1 : Nat} (h : Keep o s) :
    Keep o (coastPll s a1) := by
  rw [coastPll]
  repeat' with_reducible first
    | assumption | apply keep_ite | apply keep_mergeFault | apply keep_addF | apply keep_setLocked | intro _

theorem keep_clockLoss {o s : State}  (h : Keep o s) :
    Keep o (clockLoss s) := by
  rw [clockLoss]
  repeat' with_reducible first
    | assumption | apply keep_ite | apply keep_setF | apply keep_mergeFault | apply keep_recordFault
    | apply keep_clockLossReset | apply keep_coastPll | apply keep_foldS | intro _ | (dsimp only; split)
    | refine keep_mk rfl rfl rfl rfl rfl rfl rfl rfl rfl rfl rfl rfl ?_

theorem keep_xoLoss {o s : State}  (h : Keep o s) :
    Keep o (xoLoss s) := by
  rw [xoLoss]
  repeat' with_reducible first
    | assumption | apply keep_ite | apply keep_setF | apply keep_pllLock | apply keep_enterCoast | apply keep_setLocked
    | apply keep_beginPlls | apply keep_clockLoss | apply keep_foldS | intro _

theorem keep_execXoLoss {o s : State}  (h : Keep o s) :
    KeepOut o (execXoLoss s) := by
  rw [execXoLoss]
  repeat' with_reducible first | assumption | apply keepOut_next | apply keep_xoLoss

theorem keep_execXoReturn {o s : State} {a0 : Nat} (h : Keep o s) :
    KeepOut o (execXoReturn a0 s) := by
  rw [execXoReturn]
  repeat' with_reducible first
    | assumption | apply keepOut_next | apply keepOut_ite | apply keep_ite | apply keep_causeEnds | apply keep_setF
    | intro _

theorem keep_execTroCheck {o s : State} {a0 : Nat} (h : Keep o s) :
    KeepOut o (execTroCheck a0 s) := by
  rw [execTroCheck]
  repeat' with_reducible first
    | assumption | apply keepOut_next | apply keepOut_ite | apply keep_ite | apply keep_setB | intro _

theorem keep_measWrite {o s : State} {a1 : Nat} (h : Keep o s) :
    Keep o (measWrite s a1) := by
  rw [measWrite]
  repeat' with_reducible first
    | assumption | apply keep_ite | apply keep_setF | intro _ | (dsimp only; split)
    | refine keep_mk rfl rfl rfl rfl rfl rfl rfl rfl rfl rfl rfl rfl ?_

theorem keep_execClkMeasStart {o s : State} {a0 : Nat} (h : Keep o s) :
    KeepOut o (execClkMeasStart a0 s) := by
  rw [execClkMeasStart]
  repeat' with_reducible first | assumption | apply keepOut_next | apply keep_measWrite

theorem keep_execClkMeasDone {o s : State} {a0 : Nat} (h : Keep o s) :
    KeepOut o (execClkMeasDone a0 s) := by
  rw [execClkMeasDone]
  repeat' with_reducible first
    | assumption | apply keepOut_next | apply keep_setF | apply keep_raiseEv | (dsimp only; split)
    | refine keep_mk rfl rfl rfl rfl rfl rfl rfl rfl rfl rfl rfl rfl ?_

theorem keep_execClkMeasNoClock {o s : State}  (h : Keep o s) :
    KeepOut o (execClkMeasNoClock s) := by
  rw [execClkMeasNoClock]
  repeat' with_reducible first
    | assumption | apply keepOut_next | apply keepOut_ite | apply keep_ite | apply keep_setF | intro _ | (dsimp only; split)
    | refine keep_mk rfl rfl rfl rfl rfl rfl rfl rfl rfl rfl rfl rfl ?_

theorem keep_setGated {o s : State} {a1 : Nat} {a2 : Bool} (h : Keep o s) :
    Keep o (setGated s a1 a2) := by
  rw [setGated]
  repeat' with_reducible first
    | assumption | refine keep_mk rfl rfl rfl rfl rfl rfl rfl rfl rfl rfl rfl rfl ?_

theorem keep_execClockGateIdleClose {o s : State} {a0 : Nat} (h : Keep o s) :
    KeepOut o (execClockGateIdleClose a0 s) := by
  rw [execClockGateIdleClose]
  repeat' with_reducible first
    | assumption | apply keepOut_next | apply keepOut_ite | apply keep_ite | apply keep_setGated | intro _

theorem keep_entryDefer {o s : State} {a1 : Nat} {a2 : Nat} (h : Keep o s) :
    Keep o (entryDefer s a1 a2) := by
  rw [entryDefer.eq_def]
  repeat' with_reducible first
    | assumption | apply keep_ite | apply keep_raiseEv | intro _ | (dsimp only; split)
    | refine keep_mk rfl rfl rfl rfl rfl rfl rfl rfl rfl rfl rfl rfl ?_

theorem keep_gateTimeout {o s : State} {a1 : Nat} (h : Keep o s) :
    Keep o (gateTimeout s a1) := by
  rw [gateTimeout]
  repeat' with_reducible first
    | assumption | apply keep_ite | apply keep_addF | apply keep_setGated | apply keep_raiseEv | apply keep_entryDefer
    | intro _ | (dsimp only; split) | refine keep_mk rfl rfl rfl rfl rfl rfl rfl rfl rfl rfl rfl rfl ?_

theorem keep_execGateBusyTimeout {o s : State} {a0 : Nat} (h : Keep o s) :
    KeepOut o (execGateBusyTimeout a0 s) := by
  rw [execGateBusyTimeout]
  repeat' with_reducible first
    | assumption | apply keepOut_next | apply keepOut_ite | apply keep_ite | apply keep_gateTimeout | intro _

theorem keep_standInAccess {o s : State} {a1 : Nat} {a2 : Nat} {a3 : Bool} (h : Keep o s) :
    Keep o (standInAccess s a1 a2 a3) := by
  rw [standInAccess]
  repeat' with_reducible first
    | assumption | apply keep_ite | apply keep_emit | apply keep_raiseEv | apply keep_addF | intro _

theorem keep_answerHeld {o s : State} {a1 : Nat} (h : Keep o s) :
    Keep o (answerHeld s a1) := by
  rw [answerHeld]
  repeat' with_reducible first
    | assumption | apply keep_standInAccess | apply keep_foldS | intro _
    | refine keep_mk rfl rfl rfl rfl rfl rfl rfl rfl rfl rfl rfl rfl ?_

theorem keep_execDrainReplyTimeout {o s : State} {a0 : Nat} (h : Keep o s) :
    KeepOut o (execDrainReplyTimeout a0 s) := by
  rw [execDrainReplyTimeout]
  repeat' with_reducible first
    | assumption | apply keepOut_next | apply keepOut_ite | apply keep_ite | apply keep_answerHeld | intro _

end Sys2Proof.Machine
end

