-- ==== Sys2Proof/Laws/KeepSensors.lean ====
section
/-!
SUPPORT. What the operations of Machine/Sensors.lean keep.
-/

set_option Elab.async false

namespace Sys2Proof.Machine

theorem keep_setTempMon {o s : State} {a1 : Nat} {a2 : Monitor} (h : Keep o s) :
    Keep o (setTempMon s a1 a2) := by
  rw [setTempMon]
  repeat' with_reducible first
    | assumption | refine keep_mk rfl rfl rfl rfl rfl rfl rfl rfl rfl rfl rfl rfl ?_

theorem keep_setRailMon {o s : State} {a1 : Nat} {a2 : Monitor} (h : Keep o s) :
    Keep o (setRailMon s a1 a2) := by
  rw [setRailMon]
  repeat' with_reducible first
    | assumption | refine keep_mk rfl rfl rfl rfl rfl rfl rfl rfl rfl rfl rfl rfl ?_

theorem keep_tempCritStep {o s : State} {a1 : Nat} {a2 : Int} (h : Keep o s) :
    Keep o (tempCritStep s a1 a2) := by
  rw [tempCritStep]
  repeat' with_reducible first | assumption | apply keep_ite | apply keep_setTempMon | intro _

theorem keep_tempSample {o s : State} {a1 : Nat} {a2 : Int} (h : Keep o s) :
    Keep o (tempSample s a1 a2) := by
  rw [tempSample]
  repeat' with_reducible first
    | assumption | apply keep_ite | apply keep_ite_fst | apply keep_ite_snd | apply keep_setB | apply keep_setS
    | apply keep_tempCritStep | apply keep_setTempMon | apply keep_raiseEv | intro _

theorem keep_railCritStep {o s : State} {a1 : Nat} {a2 : Int} (h : Keep o s) :
    Keep o (railCritStep s a1 a2) := by
  rw [railCritStep]
  repeat' with_reducible first | assumption | apply keep_ite | apply keep_setRailMon | intro _

theorem keep_railSample {o s : State} {a1 : Nat} {a2 : Int} (h : Keep o s) :
    Keep o (railSample s a1 a2) := by
  rw [railSample]
  repeat' with_reducible first
    | assumption | apply keep_ite | apply keep_ite_fst | apply keep_ite_snd | apply keep_setB | apply keep_setS
    | apply keep_railCritStep | apply keep_setRailMon | apply keep_raiseEv | intro _

theorem keep_critEnds {o s : State}  (h : Keep o s) :
    Keep o (critEnds s) := by
  rw [critEnds]
  repeat' with_reducible first | assumption | apply keep_ite | apply keep_ite_snd | apply keep_causeEnds | intro _

theorem keep_sensorSample {o s : State} {a1 : List Int} {a2 : List Int} (h : Keep o s) :
    Keep o (sensorSample s a1 a2) := by
  rw [sensorSample]
  repeat' with_reducible first
    | assumption | apply keep_tempSample | apply keep_railSample | apply keep_raiseFe | apply keep_critEnds
    | apply keep_checkRetrain | apply keep_foldS | intro _

theorem keep_critSample {o s : State} {a1 : List (Nat × Int)} {a2 : List (Nat × Int)} (h : Keep o s) :
    Keep o (critSample s a1 a2) := by
  rw [critSample]
  repeat' with_reducible first
    | assumption | apply keep_critEnds | apply keep_railCritStep | apply keep_tempCritStep | apply keep_foldS | intro _

end Sys2Proof.Machine
end

