-- ==== Sys2Proof/Laws/KeepPower.lean ====
section
/-!
SUPPORT. What the operations of Machine/Power.lean keep.
-/

set_option Elab.async false

namespace Sys2Proof.Machine

theorem keep_keepPower {o s : State}  (h : Keep o s) :
    Keep o (keepPower s) := by
  rw [keepPower]
  repeat' with_reducible first | assumption | apply keep_writeTmr

theorem keep_setAlarm {o s : State} {a1 : List Byte} (h : Keep o s) :
    Keep o (setAlarm s a1) := by
  rw [setAlarm]
  repeat' with_reducible first | assumption | apply keep_ite | apply keep_keepPower | apply keep_setF | intro _

theorem keep_entryOk {o s : State} {a1 : Option Nat} (h : Keep o s) :
    Keep o (entryOk s a1) := by
  rw [entryOk.eq_def]
  repeat' with_reducible first | assumption | apply keep_complete | apply keep_setAlarm | split

theorem keep_clearEntry {o s : State}  (h : Keep o s) :
    Keep o (clearEntry s) := by
  rw [clearEntry]
  repeat' with_reducible first
    | assumption | apply keep_setF | refine keep_mk rfl rfl rfl rfl rfl rfl rfl rfl rfl rfl rfl rfl ?_

theorem keep_enterShallow {o s : State} {a1 : Nat} (h : Keep o s) :
    Keep o (enterShallow s a1) := by
  rw [enterShallow]
  repeat' with_reducible first
    | assumption | apply keep_ite | apply keep_shallowToRun | apply keep_setLocked | apply keep_setDomain
    | apply keep_setGated | apply keep_setF | apply keep_foldS | intro _

theorem keep_gateDomain {o s : State} {a1 : Nat} {a2 : Nat} (h : Keep o s) :
    Keep o (gateDomain s a1 a2) := by
  rw [gateDomain]
  repeat' with_reducible first
    | assumption | apply keep_ite | apply keep_setDomain | apply keep_leaveReset | apply keep_unitReset
    | apply keep_setCoreState | intro _ | (dsimp only; split)
    | refine keep_mk rfl rfl rfl rfl rfl rfl rfl rfl rfl rfl rfl rfl ?_

theorem keep_setPolicy {o s : State} {a1 : Nat} {a2 : Nat} (h : Keep o s) :
    Keep o (setPolicy s a1 a2) := by
  rw [setPolicy]
  repeat' with_reducible first | assumption | apply keep_setF

theorem keep_commitEntry {o s : State} {a1 : PwrEntry} (h : Keep o s) :
    Keep o (commitEntry s a1) := by
  rw [commitEntry.eq_def]
  repeat' with_reducible first
    | assumption | apply keep_ite | apply keep_entryOk | apply keep_fireVector | intro _ | split | (dsimp only; split)
    | refine keep_mk rfl rfl rfl rfl rfl rfl rfl rfl rfl rfl rfl rfl ?_

theorem keep_takeWatch {o s : State}  (h : Keep o s) :
    Keep o (takeWatch s) := by
  rw [takeWatch]
  repeat' with_reducible first
    | assumption | intro _ | refine keep_mk rfl rfl rfl rfl rfl rfl rfl rfl rfl rfl rfl rfl ?_

theorem keep_abandonEntry {o s : State} {a1 : PwrEntry} {a2 : Nat} {a3 : Nat} (h : Keep o s) :
    Keep o (abandonEntry s a1 a2 a3) := by
  rw [abandonEntry.eq_def]
  repeat' with_reducible first
    | assumption | apply keep_ite | apply keep_clearEntry | apply keep_setF | apply keep_raiseEv | apply keep_completeId
    | intro _ | (dsimp only; split) | refine keep_mk rfl rfl rfl rfl rfl rfl rfl rfl rfl rfl rfl rfl ?_

theorem keep_proceedEntry {o s : State} {a1 : PwrEntry} (h : Keep o s) :
    Keep o (proceedEntry s a1) := by
  rw [proceedEntry.eq_def]
  repeat' with_reducible first
    | assumption | apply keep_ite | apply keep_abandonEntry | apply keep_gateDomain | apply keep_clearEntry
    | apply keep_entryOk | apply keep_setPolicy | apply keep_keepPower | apply keep_takeWatch | apply keep_enterShallow
    | apply keep_commitEntry | intro _ | split

theorem keep_beginEntry {o s : State} {a1 : PwrEntry} (h : Keep o s) :
    Keep o (beginEntry s a1) := by
  rw [beginEntry]
  repeat' with_reducible first
    | assumption | apply keep_ite | apply keep_setF | intro _ | (dsimp only; split)
    | refine keep_mk rfl rfl rfl rfl rfl rfl rfl rfl rfl rfl rfl rfl ?_

theorem keep_yieldGate {o s : State}  (h : Keep o s) :
    Keep o (yieldGate s) := by
  rw [yieldGate.eq_def]
  repeat' with_reducible first
    | assumption | split | (dsimp only; split) | refine keep_mk rfl rfl rfl rfl rfl rfl rfl rfl rfl rfl rfl rfl ?_

theorem keep_requestPolicy {o s : State} {a1 : Cmd} {a2 : Nat} {a3 : Nat} (h : Keep o s) :
    Keep o (requestPolicy s a1 a2 a3) := by
  rw [requestPolicy]
  repeat' with_reducible first
    | assumption | apply keep_ite | apply keep_setPolicy | apply keep_beginEntry | apply keep_setDomain | apply keep_entryOk
    | apply keep_abandonEntry | intro _

theorem keep_runPowerState {o s : State} {a1 : Cmd} {a2 : List Byte} (h : Keep o s) :
    Keep o (runPowerState s a1 a2) := by
  rw [runPowerState]
  repeat' with_reducible first
    | assumption | apply keep_ite | apply keep_complete | apply keep_yieldGate | apply keep_requestPolicy
    | apply keep_entryOk | apply keep_keepPower | apply keep_shallowToRun | apply keep_beginEntry | intro _

theorem keep_execPowerState {o s : State} {a0 : Nat} (h : Keep o s) :
    KeepOut o (execPowerState a0 s) := by
  rw [execPowerState]
  repeat' with_reducible first
    | assumption | apply keepOut_next | apply keep_ringRow | apply keep_runPowerState | apply keep_ringRow | intro _

theorem keep_unitAnswer {o s : State} {a1 : Nat} {a2 : Nat} (h : Keep o s) :
    Keep o (unitAnswer s a1 a2) := by
  rw [unitAnswer.eq_def]
  repeat' with_reducible first
    | assumption | apply keep_ite | apply keep_abandonEntry | apply keep_entryDefer | apply keep_proceedEntry | intro _
    | split | (dsimp only; split) | refine keep_mk rfl rfl rfl rfl rfl rfl rfl rfl rfl rfl rfl rfl ?_

theorem keep_execPowerUnitAnswer {o s : State} {a0 : Nat} {a1 : Nat} (h : Keep o s) :
    KeepOut o (execPowerUnitAnswer a0 a1 s) := by
  rw [execPowerUnitAnswer]
  repeat' with_reducible first | assumption | apply keepOut_next | apply keep_unitAnswer

theorem keep_deferRetry {o s : State} {a1 : Nat} (h : Keep o s) :
    Keep o (deferRetry s a1) := by
  rw [deferRetry.eq_def]
  repeat' with_reducible first
    | assumption | apply keep_ite | intro _ | split | (dsimp only; split)
    | refine keep_mk rfl rfl rfl rfl rfl rfl rfl rfl rfl rfl rfl rfl ?_

theorem keep_execPowerDeferRetry {o s : State} {a0 : Nat} (h : Keep o s) :
    KeepOut o (execPowerDeferRetry a0 s) := by
  rw [execPowerDeferRetry]
  repeat' with_reducible first | assumption | apply keepOut_next | apply keep_deferRetry

theorem keep_windowTimeout {o s : State}  (h : Keep o s) :
    Keep o (windowTimeout s) := by
  rw [windowTimeout.eq_def]
  repeat' with_reducible first | assumption | apply keep_ite | apply keep_abandonEntry | intro _ | split

theorem keep_execEntryWindowTimeout {o s : State}  (h : Keep o s) :
    KeepOut o (execEntryWindowTimeout s) := by
  rw [execEntryWindowTimeout]
  repeat' with_reducible first | assumption | apply keepOut_next | apply keep_windowTimeout

theorem keep_execAutoDomainGate {o s : State} {a0 : Nat} (h : Keep o s) :
    KeepOut o (execAutoDomainGate a0 s) := by
  rw [execAutoDomainGate]
  repeat' with_reducible first
    | assumption | apply keepOut_next | apply keepOut_ite | apply keep_ite | apply keep_beginEntry | intro _

theorem keep_lanesDown {o s : State}  (h : Keep o s) :
    Keep o (lanesDown s) := by
  rw [lanesDown]
  repeat' with_reducible first | assumption | apply keep_takeDown | apply keep_foldS | intro _

theorem keep_enginesSleep {o s : State}  (h : Keep o s) :
    Keep o (enginesSleep s) := by
  rw [enginesSleep]
  repeat' with_reducible first
    | assumption | apply keep_ite | apply keep_setSqState | apply keep_writeNeedsKick | apply keep_foldS | intro _

theorem keep_retainAll {o s : State}  (h : Keep o s) :
    Keep o (retainAll s) := by
  rw [retainAll]
  repeat' with_reducible first
    | assumption | apply keep_ite | apply keep_setDomain | apply keep_answerHeld | apply keep_foldS | intro _

theorem keep_powerOffAll {o s : State}  (h : Keep o s) :
    Keep o (powerOffAll s) := by
  rw [powerOffAll]
  repeat' with_reducible first
    | assumption | apply keep_ite | apply keep_resetUnits | apply keep_setF | apply keep_dropBuffers | apply keep_setDomain
    | apply keep_foldS | intro _ | (dsimp only; split) | refine keep_mk rfl rfl rfl rfl rfl rfl rfl rfl rfl rfl rfl rfl ?_

theorem keep_enterDeep {o s : State} {a1 : Nat} (h : Keep o s) :
    Keep o (enterDeep s a1) := by
  rw [enterDeep]
  repeat' with_reducible first
    | assumption | apply keep_ite | apply keep_takeWatch | apply keep_enginesSleep | apply keep_lanesDown | apply keep_setF
    | apply keep_flushMerge | apply keep_linkDown | apply keep_setRelock | apply keep_setLocked | apply keep_retainAll
    | apply keep_setSelfRefresh | apply keep_powerOffAll | apply keep_keepPower | apply keep_foldS | intro _
    | (dsimp only; split) | refine keep_mk rfl rfl rfl rfl rfl rfl rfl rfl rfl rfl rfl rfl ?_

theorem keep_watchProceed {o s : State}  (h : Keep o s) :
    Keep o (watchProceed s) := by
  rw [watchProceed.eq_def]
  repeat' with_reducible first | assumption | apply keep_ite | apply keep_enterDeep | intro _ | split

theorem keep_execWatchEntryProceed {o s : State}  (h : Keep o s) :
    KeepOut o (execWatchEntryProceed s) := by
  rw [execWatchEntryProceed]
  repeat' with_reducible first | assumption | apply keepOut_next | apply keep_watchProceed

theorem keep_perstReset {o s : State}  (h : Keep o s) :
    Keep o (perstReset s) := by
  rw [perstReset]
  repeat' with_reducible first
    | assumption | apply keep_ite | apply keep_hotReset | apply keep_coldReset | apply keep_stopHold | intro _

theorem keep_wakeDeep {o s : State} {a1 : Nat} {a2 : Option Nat} (h : Keep o s) :
    Keep o (wakeDeep s a1 a2) := by
  rw [wakeDeep]
  repeat' with_reducible first
    | assumption | apply keep_ite | apply keep_writeWakeRecord | apply keep_setDomain | apply keep_setF
    | apply keep_coldReset | apply keep_restartClocks | apply keep_foldS | intro _ | (dsimp only; split)
    | refine keep_mk rfl rfl rfl rfl rfl rfl rfl rfl rfl rfl rfl rfl ?_

theorem keep_wake {o s : State} {a1 : Nat} {a2 : Option Nat} (h : Keep o s) :
    Keep o (wake s a1 a2) := by
  rw [wake]
  repeat' with_reducible first
    | assumption | apply keep_ite | apply keep_wakeLight | apply keep_wakeDeep | intro _

theorem keep_execWakeEvent {o s : State} {a0 : Nat} {a1 : Option Nat} (h : Keep o s) :
    KeepOut o (execWakeEvent a0 a1 s) := by
  rw [execWakeEvent]
  repeat' with_reducible first
    | assumption | apply keepOut_next | apply keepOut_ite | apply keep_ite | apply keep_wake | apply keep_raiseFe | intro _
    | split

theorem keep_wakeEnded {o s : State} {a1 : Bool} (h : Keep o s) :
    Keep o (wakeEnded s a1) := by
  rw [wakeEnded.eq_def]
  repeat' with_reducible first
    | assumption | apply keep_ite | apply keep_raiseEv | apply keep_raiseFe | apply keep_foldS | intro _ | split
    | (dsimp only; split) | refine keep_mk rfl rfl rfl rfl rfl rfl rfl rfl rfl rfl rfl rfl ?_

theorem keep_restartMeridian {o s : State}  (h : Keep o s) :
    Keep o (restartMeridian s) := by
  rw [restartMeridian]
  repeat' with_reducible first
    | assumption | apply keep_setF | apply keep_bmca | apply keep_ppsOut
    | refine keep_mk_time rfl rfl rfl rfl rfl rfl rfl rfl rfl rfl rfl ?_ | apply keep_foldS | intro _

theorem keep_watchWakeDone {o s : State} {a1 : Nat} (h : Keep o s) :
    Keep o (watchWakeDone s a1) := by
  rw [watchWakeDone]
  repeat' with_reducible first
    | assumption | apply keep_ite | apply keep_judgeXo | apply keep_setLocked | apply keep_setDomain | apply keep_leaveReset
    | apply keep_setCoreState | apply keep_setF | apply keep_setSelfRefresh | apply keep_checkRetrain
    | apply keep_restartMeridian | apply keep_raisePorts | apply keep_wakeEnded | apply keep_keepPower
    | apply keep_perstReset | apply keep_foldS | intro _

theorem keep_execWatchWakeDone {o s : State} {a0 : Nat} (h : Keep o s) :
    KeepOut o (execWatchWakeDone a0 s) := by
  rw [execWatchWakeDone]
  repeat' with_reducible first
    | assumption | apply keepOut_next | apply keepOut_ite | apply keep_ite | apply keep_watchWakeDone | intro _

theorem keep_addMatch {o s : State} {a1 : Nat} (h : Keep o s) :
    Keep o (addMatch s a1) := by
  rw [addMatch]
  repeat' with_reducible first | assumption | apply keep_ite | apply keep_setW | intro _

theorem keep_sampleOne {o s : State} {a1 : Nat} {a2 : Nat} {a3 : Bool} (h : Keep o s) :
    Keep o (sampleOne s a1 a2 a3) := by
  rw [sampleOne]
  repeat' with_reducible first
    | assumption | apply keep_ite | apply keep_setF | apply keep_addMatch | intro _ | (dsimp only; split)
    | refine keep_mk rfl rfl rfl rfl rfl rfl rfl rfl rfl rfl rfl rfl ?_

theorem keep_watchSample {o s : State} {a1 : List Int} {a2 : List Int} {a3 : List Nat} {a4 : Bool} (h : Keep o s) :
    Keep o (watchSample s a1 a2 a3 a4) := by
  rw [watchSample]
  repeat' with_reducible first
    | assumption | apply keep_sampleOne | apply keep_addF | apply keep_critSample | apply keep_wake | apply keep_foldS
    | intro _

theorem keep_execWatchSample {o s : State} {a0 : List Int} {a1 : List Int} {a2 : List Nat} {a3 : Bool} (h : Keep o s) :
    KeepOut o (execWatchSample a0 a1 a2 a3 s) := by
  rw [execWatchSample]
  repeat' with_reducible first
    | assumption | apply keepOut_next | apply keepOut_ite | apply keep_ite | apply keep_watchSample | intro _

theorem keep_execSensorSample {o s : State} {a0 : List Int} {a1 : List Int} (h : Keep o s) :
    KeepOut o (execSensorSample a0 a1 s) := by
  rw [execSensorSample]
  repeat' with_reducible first
    | assumption | apply keepOut_next | apply keepOut_ite | apply keep_ite | apply keep_ite_fst | apply keep_sensorSample
    | apply keep_critSample | apply keep_wake | intro _ | split | (dsimp only; split)

theorem keep_rtcAlarm {o s : State}  (h : Keep o s) :
    Keep o (rtcAlarm s) := by
  rw [rtcAlarm]
  repeat' with_reducible first
    | assumption | apply keep_ite | apply keep_wake | apply keep_keepPower | apply keep_setF | intro _

theorem keep_execRtcAlarm {o s : State}  (h : Keep o s) :
    KeepOut o (execRtcAlarm s) := by
  rw [execRtcAlarm]
  repeat' with_reducible first | assumption | apply keepOut_next | apply keep_rtcAlarm

theorem keep_rtcLoad {o s : State}  (h : Keep o s) :
    Keep o (rtcLoad s) := by
  rw [rtcLoad]
  repeat' with_reducible first
    | assumption | apply keep_ite | intro _ | (dsimp only; split)
    | refine keep_mk rfl rfl rfl rfl rfl rfl rfl rfl rfl rfl rfl rfl ?_

theorem keep_execRtcSecondLoad {o s : State}  (h : Keep o s) :
    KeepOut o (execRtcSecondLoad s) := by
  rw [execRtcSecondLoad]
  repeat' with_reducible first | assumption | apply keepOut_next | apply keep_rtcLoad

theorem keep_perstAssert {o s : State}  (h : Keep o s) :
    Keep o (perstAssert s) := by
  rw [perstAssert]
  repeat' with_reducible first
    | assumption | apply keep_ite | apply keep_wake | apply keep_coldReset | apply keep_perstReset | intro _
    | (dsimp only; split) | refine keep_mk rfl rfl rfl rfl rfl rfl rfl rfl rfl rfl rfl rfl ?_

theorem keep_execPerstAssert {o s : State}  (h : Keep o s) :
    KeepOut o (execPerstAssert s) := by
  rw [execPerstAssert]
  repeat' with_reducible first
    | assumption | apply keepOut_next | apply keepOut_ite | apply keep_ite | apply keep_perstAssert | intro _

theorem keep_perstDeassert {o s : State} {a1 : Nat} (h : Keep o s) :
    Keep o (perstDeassert s a1) := by
  rw [perstDeassert]
  repeat' with_reducible first
    | assumption | apply keep_ite | apply keep_latchBar4 | apply keep_reachT0 | intro _ | (dsimp only; split)
    | refine keep_mk rfl rfl rfl rfl rfl rfl rfl rfl rfl rfl rfl rfl ?_

theorem keep_execPerstDeassert {o s : State} {a0 : Nat} (h : Keep o s) :
    KeepOut o (execPerstDeassert a0 s) := by
  rw [execPerstDeassert]
  repeat' with_reducible first
    | assumption | apply keepOut_next | apply keepOut_ite | apply keep_ite | apply keep_perstDeassert | intro _

end Sys2Proof.Machine
end

