-- ==== Sys2Proof/Laws/KeepBackground.lean ====
section
/-!
SUPPORT. What the operations of Machine/Background.lean keep.
-/

set_option Elab.async false

namespace Sys2Proof.Machine

theorem keep_adaptLane {o s : State} {a1 : Nat} {a2 : Int} {a3 : List Int} (h : Keep o s) :
    Keep o (adaptLane s a1 a2 a3) := by
  rw [adaptLane]
  repeat' with_reducible first
    | assumption | intro _ | refine keep_mk rfl rfl rfl rfl rfl rfl rfl rfl rfl rfl rfl rfl ?_

theorem keep_execLaneAdaptStep {o s : State} {a0 : Nat} {a1 : Int} {a2 : List Int} (h : Keep o s) :
    KeepOut o (execLaneAdaptStep a0 a1 a2 s) := by
  rw [execLaneAdaptStep]
  repeat' with_reducible first
    | assumption | apply keepOut_next | apply keepOut_ite | apply keep_ite | apply keep_adaptLane | intro _

theorem keep_stageGain {o s : State} {a1 : Nat} {a2 : SMap Nat} (h : Keep o s) :
    Keep o (stageGain s a1 a2) := by
  rw [stageGain]
  repeat' with_reducible first
    | assumption | apply keep_ite | apply keep_ite_fst | apply keep_foldS | intro _ | (dsimp only; split)
    | refine keep_mk rfl rfl rfl rfl rfl rfl rfl rfl rfl rfl rfl rfl ?_

theorem keep_startPass {o s : State}  (h : Keep o s) :
    Keep o (startPass s) := by
  rw [startPass.eq_def]
  repeat' with_reducible first
    | assumption | apply keep_ite | apply keep_ite_fst | apply keep_setF | intro _ | (dsimp only; split)
    | refine keep_mk rfl rfl rfl rfl rfl rfl rfl rfl rfl rfl rfl rfl ?_

theorem keep_execAgeUpdateNow {o s : State}  (h : Keep o s) :
    KeepOut o (execAgeUpdateNow s) := by
  rw [execAgeUpdateNow]
  repeat' with_reducible first | assumption | apply keepOut_next | apply keep_startPass

theorem keep_execAgeingPass {o s : State}  (h : Keep o s) :
    KeepOut o (execAgeingPass s) := by
  rw [execAgeingPass]
  repeat' with_reducible first
    | assumption | apply keepOut_next | apply keepOut_ite | apply keep_ite | apply keep_startPass | intro _
    | (dsimp only; split) | refine keep_mk rfl rfl rfl rfl rfl rfl rfl rfl rfl rfl rfl rfl ?_

theorem keep_saveDoses {o s : State} {a1 : Cmd} (h : Keep o s) :
    Keep o (saveDoses s a1) := by
  rw [saveDoses]
  repeat' with_reducible first
    | assumption | apply keep_ite | apply keep_ite_fst | apply keep_complete | apply keep_hostWrite | intro _
    | (dsimp only; split) | refine keep_mk rfl rfl rfl rfl rfl rfl rfl rfl rfl rfl rfl rfl ?_

theorem keep_waitForPass {o s : State} {a1 : Cmd} {a2 : List Byte} (h : Keep o s) :
    Keep o (waitForPass s a1 a2) := by
  rw [waitForPass]
  repeat' with_reducible first
    | assumption | apply keep_putCmd | refine keep_mk rfl rfl rfl rfl rfl rfl rfl rfl rfl rfl rfl rfl ?_

theorem keep_runDoseSave {o s : State} {a1 : Cmd} {a2 : List Byte} (h : Keep o s) :
    Keep o (runDoseSave s a1 a2) := by
  rw [runDoseSave]
  repeat' with_reducible first
    | assumption | apply keep_ite | apply keep_waitForPass | apply keep_saveDoses | intro _

theorem keep_execDoseSave {o s : State} {a0 : Nat} (h : Keep o s) :
    KeepOut o (execDoseSave a0 s) := by
  rw [execDoseSave]
  repeat' with_reducible first
    | assumption | apply keepOut_next | apply keep_takeDose | apply keep_ringRow | apply keep_runDoseSave
    | apply keep_ringRow | intro _

theorem keep_loadDoses {o s : State} {a1 : Cmd} {a2 : List Byte} (h : Keep o s) :
    Keep o (loadDoses s a1 a2) := by
  rw [loadDoses]
  repeat' with_reducible first
    | assumption | apply keep_ite | apply keep_ite_fst | apply keep_ite_snd | apply keep_complete | apply keep_startPass
    | apply keep_foldS | intro _ | (dsimp only; split) | refine keep_mk rfl rfl rfl rfl rfl rfl rfl rfl rfl rfl rfl rfl ?_

theorem keep_runDoseLoad {o s : State} {a1 : Cmd} {a2 : List Byte} (h : Keep o s) :
    Keep o (runDoseLoad s a1 a2) := by
  rw [runDoseLoad]
  repeat' with_reducible first
    | assumption | apply keep_ite | apply keep_waitForPass | apply keep_loadDoses | intro _

theorem keep_execDoseLoad {o s : State} {a0 : Nat} (h : Keep o s) :
    KeepOut o (execDoseLoad a0 s) := by
  rw [execDoseLoad]
  repeat' with_reducible first
    | assumption | apply keepOut_next | apply keep_takeDose | apply keep_ringRow | apply keep_runDoseLoad
    | apply keep_ringRow | intro _

theorem keep_dosesProceed {o s : State} {a1 : Nat} (h : Keep o s) :
    Keep o (dosesProceed s a1) := by
  induction a1 generalizing s with
  | zero => exact h
  | succ k ih =>
    rw [dosesProceed]
    repeat' with_reducible first
      | assumption | apply keep_ite | apply ih | apply keep_saveDoses | apply keep_loadDoses | intro _ | split
      | (dsimp only; split) | refine keep_mk rfl rfl rfl rfl rfl rfl rfl rfl rfl rfl rfl rfl ?_

theorem keep_passDone {o s : State}  (h : Keep o s) :
    Keep o (passDone s) := by
  rw [passDone.eq_def]
  repeat' with_reducible first
    | assumption | apply keep_ite | apply keep_ite_fst | apply keep_ite_snd | apply keep_stageGain | apply keep_setF
    | apply keep_addF | apply keep_dosesProceed | apply keep_startPass | apply keep_foldS | intro _ | (dsimp only; split)
    | refine keep_mk rfl rfl rfl rfl rfl rfl rfl rfl rfl rfl rfl rfl ?_

theorem keep_execAgeingPassDone {o s : State}  (h : Keep o s) :
    KeepOut o (execAgeingPassDone s) := by
  rw [execAgeingPassDone]
  repeat' with_reducible first
    | assumption | apply keepOut_next | apply keepOut_ite | apply keep_ite | apply keep_passDone | intro _

theorem keep_setCurves {o s : State} {a1 : Curves} (h : Keep o s) :
    Keep o (setCurves s a1) := by
  rw [setCurves]
  repeat' with_reducible first
    | assumption | apply keep_setB | refine keep_mk rfl rfl rfl rfl rfl rfl rfl rfl rfl rfl rfl rfl ?_

theorem keep_runWearCurveSet {o s : State} {a1 : Cmd} {a2 : List Byte} (h : Keep o s) :
    Keep o (runWearCurveSet s a1 a2) := by
  rw [runWearCurveSet.eq_def]
  repeat' with_reducible first
    | assumption | apply keep_ite | apply keep_complain | apply keep_setCurves | apply keep_startPass | apply keep_complete
    | intro _ | split

theorem keep_execWearCurveSet {o s : State} {a0 : Nat} (h : Keep o s) :
    KeepOut o (execWearCurveSet a0 s) := by
  rw [execWearCurveSet]
  repeat' with_reducible first
    | assumption | apply keepOut_next | apply keep_ringRow | apply keep_runWearCurveSet | apply keep_ringRow | intro _

theorem keep_faultLogFlush {o s : State}  (h : Keep o s) :
    Keep o (faultLogFlush s) := by
  rw [faultLogFlush]
  repeat' with_reducible first
    | assumption | apply keep_ite | apply keep_foldl | apply keep_foldl_fst | apply keep_foldl_snd | intro _
    | (dsimp only; split) | refine keep_mk rfl rfl rfl rfl rfl rfl rfl rfl rfl rfl rfl rfl ?_

theorem keep_execFaultLogFlush {o s : State}  (h : Keep o s) :
    KeepOut o (execFaultLogFlush s) := by
  rw [execFaultLogFlush]
  repeat' with_reducible first | assumption | apply keepOut_next | apply keep_faultLogFlush

theorem keep_writeSummary {o s : State}  (h : Keep o s) :
    Keep o (writeSummary s) := by
  rw [writeSummary]
  repeat' with_reducible first
    | assumption | apply keep_addF | apply keep_setB | apply keep_setF
    | refine keep_mk rfl rfl rfl rfl rfl rfl rfl rfl rfl rfl rfl rfl ?_

theorem keep_execSummaryWrite {o s : State}  (h : Keep o s) :
    KeepOut o (execSummaryWrite s) := by
  rw [execSummaryWrite]
  repeat' with_reducible first
    | assumption | apply keepOut_next | apply keepOut_ite | apply keep_ite | apply keep_writeSummary | intro _

theorem keep_restoreCurves {o s : State}  (h : Keep o s) :
    Keep o (restoreCurves s) := by
  rw [restoreCurves]
  repeat' with_reducible first | assumption | apply keep_ite | apply keep_setCurves | intro _

theorem keep_runBgRead {o s : State} {a1 : Cmd} {a2 : List Byte} (h : Keep o s) :
    Keep o (runBgRead s a1 a2) := by
  rw [runBgRead]
  repeat' with_reducible first | assumption | apply keep_complete | apply keep_hostWrite

theorem keep_execDiagBgRead {o s : State} {a0 : Nat} (h : Keep o s) :
    KeepOut o (execDiagBgRead a0 s) := by
  rw [execDiagBgRead]
  repeat' with_reducible first
    | assumption | apply keepOut_next | apply keep_ringRow | apply keep_runBgRead | apply keep_ringRow | intro _

theorem keep_telemetryChannel {o s : State} (h : Keep o s) : Keep o (telemetryChannel s) := by
  rw [telemetryChannel]
  split
  · exact h
  · cases e : takeChannel s ownerTelemetry with
    | none => exact h
    | some r => exact keep_takeChannel h r.1 r.2 e

theorem keep_runTelemetryArm {o s : State} {a1 : Cmd} {a2 : List Byte} (h : Keep o s) :
    Keep o (runTelemetryArm s a1 a2) := by
  rw [runTelemetryArm]
  repeat' with_reducible first
    | assumption | apply keep_ite | apply keep_complete | apply keep_releaseChannel | apply keep_telemetryChannel | intro _
    | (dsimp only; split) | refine keep_mk rfl rfl rfl rfl rfl rfl rfl rfl rfl rfl rfl rfl ?_

theorem keep_execTelemetryArm {o s : State} {a0 : Nat} (h : Keep o s) :
    KeepOut o (execTelemetryArm a0 s) := by
  rw [execTelemetryArm]
  repeat' with_reducible first
    | assumption | apply keepOut_next | apply keep_ringRow | apply keep_runTelemetryArm | apply keep_ringRow | intro _

theorem keep_postTelemetry {o s : State} {a1 : Telemetry} (h : Keep o s) :
    Keep o (postTelemetry s a1) := by
  rw [postTelemetry]
  repeat' with_reducible first
    | assumption | apply keep_ite | apply keep_setF | apply keep_hostWrite | apply keep_addF | apply keep_free | intro _
    | split | (dsimp only; split) | refine keep_mk rfl rfl rfl rfl rfl rfl rfl rfl rfl rfl rfl rfl ?_

theorem keep_telemetryRecord {o s : State}  (h : Keep o s) :
    Keep o (telemetryRecord s) := by
  rw [telemetryRecord.eq_def]
  repeat' with_reducible first
    | assumption | apply keep_postTelemetry | split | (dsimp only; split)
    | refine keep_mk rfl rfl rfl rfl rfl rfl rfl rfl rfl rfl rfl rfl ?_

theorem keep_execTelemetryRecord {o s : State}  (h : Keep o s) :
    KeepOut o (execTelemetryRecord s) := by
  rw [execTelemetryRecord]
  repeat' with_reducible first
    | assumption | apply keepOut_next | apply keepOut_ite | apply keep_ite | apply keep_telemetryRecord | intro _ | split
    | (dsimp only; split)

end Sys2Proof.Machine
end

