-- ==== Sys2Proof/Laws/KeepMicrocode.lean ====
section
/-!
SUPPORT. What the operations of Machine/Microcode.lean keep.
-/

set_option Elab.async false

namespace Sys2Proof.Machine

theorem keep_microStep {o s : State} (h : Keep o s) : Keep o (microStep s) := by
  have k (x : Sec) (e : x.otp = s.sec.otp) : Keep o { s with freeCtr := s.freeCtr + 265, sec := x } :=
    keep_mk (s := { s with freeCtr := s.freeCtr + 265 }) rfl rfl rfl rfl rfl rfl rfl rfl rfl rfl rfl e (keep_free h)
  rw [microStep]
  dsimp only
  split
  · exact keep_setF (k _ rfl)
  · exact k _ rfl

end Sys2Proof.Machine
end

