-- ==== Sys2Proof/Laws/KeepIdle.lean ====
section
/-!
SUPPORT. What the operations of Machine/Idle.lean keep.
-/

set_option Elab.async false

namespace Sys2Proof.Machine

theorem keep_tickCompass {o s : State}  (h : Keep o s) :
    Keep o (tickCompass s) := by
  rw [tickCompass]
  repeat' with_reducible first
    | assumption | apply keep_ite | apply keep_microStep | intro _ | split | (dsimp only; split)

theorem keep_tickPower {o s : State}  (h : Keep o s) :
    Keep o (tickPower s) := by
  rw [tickPower]
  repeat' with_reducible first
    | assumption | apply keep_ite | apply keep_wakeDomains | intro _ | split | (dsimp only; split)

end Sys2Proof.Machine
end

