-- ==== Sys2Proof/Laws/KeepSecurity.lean ====
section
/-!
SUPPORT. What the operations of Machine/Security.lean keep.
-/

set_option Elab.async false

namespace Sys2Proof.Machine

theorem keep_patchNano {o s : State}  (h : Keep o s) :
    Keep o (patchNano s) := by
  rw [patchNano]
  repeat' with_reducible first
    | assumption | intro _ | refine keep_mk rfl rfl rfl rfl rfl rfl rfl rfl rfl rfl rfl rfl ?_

theorem keep_patchesApplied {o s : State}  (h : Keep o s) :
    Keep o (patchesApplied s) := by
  rw [patchesApplied]
  repeat' with_reducible first | assumption | apply keep_ite | apply keep_patchNano | apply keep_raiseEv | intro _

theorem keep_persistCompass {o s : State}  (h : Keep o s) :
    Keep o (persistCompass s) := by
  rw [persistCompass]
  repeat' with_reducible first | assumption | apply keep_writeTmr

theorem keep_runFirmware {o s : State} {a1 : Nat} (h : Keep o s) :
    Keep o (runFirmware s a1) := by
  rw [runFirmware]
  repeat' with_reducible first
    | assumption | apply keep_setF | apply keep_persistCompass | apply keep_patchesApplied | apply keep_setW
    | refine keep_mk rfl rfl rfl rfl rfl rfl rfl rfl rfl rfl rfl rfl ?_

theorem keep_readSerials {o s : State}  (h : Keep o s) :
    Keep o (readSerials s) := by
  rw [readSerials]
  repeat' with_reducible first | assumption | apply keep_setF | apply keep_foldS | intro _

theorem keep_startupEnded {o s : State} {a1 : Nat} (h : Keep o s) :
    Keep o (startupEnded s a1) := by
  rw [startupEnded]
  repeat' with_reducible first | assumption | apply keep_ite | apply keep_setF | apply keep_wakeEnded | intro _

theorem keep_enterRecovery {o s : State}  (h : Keep o s) :
    Keep o (enterRecovery s) := by
  rw [enterRecovery]
  repeat' with_reducible first
    | assumption | apply keep_ite | apply keep_authFail | apply keep_setF | apply keep_surveyFailed
    | apply keep_startupEnded | intro _ | (dsimp only; split)
    | refine keep_mk rfl rfl rfl rfl rfl rfl rfl rfl rfl rfl rfl rfl ?_

theorem keep_afterFirmware {o s : State}  (h : Keep o s) :
    Keep o (afterFirmware s) := by
  rw [afterFirmware]
  repeat' with_reducible first
    | assumption | apply keep_ite | apply keep_restoreCurves | apply keep_readSerials | apply keep_startSurvey
    | apply keep_setF | intro _ | (dsimp only; split) | refine keep_mk rfl rfl rfl rfl rfl rfl rfl rfl rfl rfl rfl rfl ?_

theorem keep_firmwareVerified {o s : State}  (h : Keep o s) :
    Keep o (firmwareVerified s) := by
  rw [firmwareVerified]
  repeat' with_reducible first
    | assumption | apply keep_ite | apply keep_setF | apply keep_putDir | apply keep_afterFirmware | apply keep_setB
    | apply keep_runFirmware | apply keep_enterRecovery | intro _

theorem keep_execFirmwareVerified {o s : State}  (h : Keep o s) :
    KeepOut o (execFirmwareVerified s) := by
  rw [execFirmwareVerified]
  repeat' with_reducible first
    | assumption | apply keepOut_next | apply keepOut_ite | apply keep_ite | apply keep_firmwareVerified | intro _

theorem keep_gateUnused {o s : State}  (h : Keep o s) :
    Keep o (gateUnused s) := by
  rw [gateUnused]
  repeat' with_reducible first | assumption | apply keep_ite | apply keep_gateDomain | apply keep_foldS | intro _

theorem keep_applyStartup {o s : State} {a1 : Nat} (h : Keep o s) :
    Keep o (applyStartup s a1) := by
  rw [applyStartup]
  repeat' with_reducible first
    | assumption | apply keep_ite | apply keep_ite_fst | apply keep_ite_snd | apply keep_edActivate | apply keep_edApply
    | apply keep_startupEnded | apply keep_gateUnused | intro _

theorem keep_enterSafe {o s : State} {a1 : Nat} (h : Keep o s) :
    Keep o (enterSafe s a1) := by
  rw [enterSafe]
  repeat' with_reducible first
    | assumption | apply keep_writeTmr | apply keep_setF | apply keep_startupEnded
    | refine keep_mk rfl rfl rfl rfl rfl rfl rfl rfl rfl rfl rfl rfl ?_

theorem keep_noteSignatures {o s : State} {a1 : Nat} (h : Keep o s) :
    Keep o (noteSignatures s a1) := by
  rw [noteSignatures]
  repeat' with_reducible first | assumption | apply keep_ite | apply keep_ite_fst | apply keep_authFail | intro _

theorem keep_startupEditionApply {o s : State}  (h : Keep o s) :
    Keep o (startupEditionApply s) := by
  rw [startupEditionApply.eq_def]
  repeat' with_reducible first
    | assumption | apply keep_setF | apply keep_noteSignatures | apply keep_applyStartup | apply keep_enterSafe | split
    | (dsimp only; split)

theorem keep_execStartupEditionApply {o s : State}  (h : Keep o s) :
    KeepOut o (execStartupEditionApply s) := by
  rw [execStartupEditionApply]
  repeat' with_reducible first
    | assumption | apply keepOut_next | apply keepOut_ite | apply keep_ite | apply keep_startupEditionApply | intro _

theorem keep_beginFlash {o s : State} {a1 : Cmd} {a2 : Bool} {a3 : Nat} {a4 : List Byte} (h : Keep o s) :
    Keep o (beginFlash s a1 a2 a3 a4) := by
  rw [beginFlash]
  repeat' with_reducible first
    | assumption | apply keep_emptySlot | refine keep_mk rfl rfl rfl rfl rfl rfl rfl rfl rfl rfl rfl rfl ?_

theorem keep_storeSlot {o s : State} {a1 : FlashJob} (h : Keep o s) :
    Keep o (storeSlot s a1) := by
  rw [storeSlot]
  repeat' with_reducible first
    | assumption | apply keep_ite | apply keep_putDir | apply keep_setF | intro _ | (dsimp only; split)
    | refine keep_mk rfl rfl rfl rfl rfl rfl rfl rfl rfl rfl rfl rfl ?_

theorem keep_flashDone {o s : State} {a1 : Bool} (h : Keep o s) :
    Keep o (flashDone s a1) := by
  rw [flashDone.eq_def]
  repeat' with_reducible first
    | assumption | apply keep_ite | apply keep_completeId | apply keep_storeSlot | apply keep_emptySlot | intro _
    | (dsimp only; split) | refine keep_mk rfl rfl rfl rfl rfl rfl rfl rfl rfl rfl rfl rfl ?_

theorem keep_execFlashProgramDone {o s : State} {a0 : Bool} (h : Keep o s) :
    KeepOut o (execFlashProgramDone a0 s) := by
  rw [execFlashProgramDone]
  repeat' with_reducible first | assumption | apply keepOut_next | apply keep_flashDone

theorem keep_runEditionLoad {o s : State} {a1 : Cmd} {a2 : List Byte} (h : Keep o s) :
    Keep o (runEditionLoad s a1 a2) := by
  rw [runEditionLoad]
  repeat' with_reducible first
    | assumption | apply keep_ite | apply keep_beginFlash | apply keep_complete | apply keep_authFail | intro _ | split

theorem keep_execEditionLoad {o s : State} {a0 : Nat} (h : Keep o s) :
    KeepOut o (execEditionLoad a0 s) := by
  rw [execEditionLoad]
  repeat' with_reducible first
    | assumption | apply keepOut_next | apply keep_ringRow | apply keep_runEditionLoad | apply keep_ringRow | intro _

theorem keep_runEditionSelect {o s : State} {a1 : Cmd} {a2 : List Byte} (h : Keep o s) :
    Keep o (runEditionSelect s a1 a2) := by
  rw [runEditionSelect]
  repeat' with_reducible first
    | assumption | apply keep_setF | refine keep_mk rfl rfl rfl rfl rfl rfl rfl rfl rfl rfl rfl rfl ?_

theorem keep_execEditionSelect {o s : State} {a0 : Nat} (h : Keep o s) :
    KeepOut o (execEditionSelect a0 s) := by
  rw [execEditionSelect]
  repeat' with_reducible first
    | assumption | apply keepOut_next | apply keep_ringRow | apply keep_runEditionSelect | apply keep_ringRow | intro _

theorem keep_runDeferred {o s : State} {a1 : Nat × List Byte} (h : Keep o s) :
    Keep o (runDeferred s a1) := by
  rw [runDeferred.eq_def]
  repeat' with_reducible first
    | assumption | apply keep_ite | apply keep_ite_fst | apply keep_ite_snd | apply keep_complete | apply keep_putCmd
    | apply keep_edRun | intro _ | split | (dsimp only; split)

theorem keep_dropSelect {o s : State} {a1 : Select} {a2 : Nat} {a3 : Nat} (h : Keep o s) :
    Keep o (dropSelect s a1 a2 a3) := by
  rw [dropSelect]
  repeat' with_reducible first
    | assumption | apply keep_setF | apply keep_runDeferred | apply keep_completeId | apply keep_foldS | intro _
    | refine keep_mk rfl rfl rfl rfl rfl rfl rfl rfl rfl rfl rfl rfl ?_

theorem keep_putSelect {o s : State} {a1 : Select} (h : Keep o s) :
    Keep o (putSelect s a1) := by
  rw [putSelect]
  repeat' with_reducible first
    | assumption | refine keep_mk rfl rfl rfl rfl rfl rfl rfl rfl rfl rfl rfl rfl ?_

theorem keep_selectComplete {o s : State}  (h : Keep o s) :
    Keep o (selectComplete s) := by
  rw [selectComplete.eq_def]
  repeat' with_reducible first
    | assumption | apply keep_ite | apply keep_completeId | intro _ | (dsimp only; split)
    | refine keep_mk rfl rfl rfl rfl rfl rfl rfl rfl rfl rfl rfl rfl ?_

theorem keep_applySelect {o s : State} {a1 : Select} (h : Keep o s) :
    Keep o (applySelect s a1) := by
  rw [applySelect]
  repeat' with_reducible first
    | assumption | apply keep_ite | apply keep_ite_fst | apply keep_ite_snd | apply keep_putSelect | apply keep_edApply
    | apply keep_edActivate | apply keep_setF | apply keep_selectComplete | apply keep_runDeferred | apply keep_foldS
    | intro _

theorem keep_stageSelect {o s : State} {a1 : Select} {a2 : List Byte} {a3 : List Nat} (h : Keep o s) :
    Keep o (stageSelect s a1 a2 a3) := by
  rw [stageSelect]
  repeat' with_reducible first
    | assumption | apply keep_ite | apply keep_putSelect | apply keep_applySelect | intro _

theorem keep_stagingDone {o s : State} {a1 : Select} (h : Keep o s) :
    Keep o (stagingDone s a1) := by
  rw [stagingDone]
  repeat' with_reducible first
    | assumption | apply keep_ite | apply keep_ite_fst | apply keep_dropSelect | apply keep_authFail
    | apply keep_stageSelect | intro _ | split

theorem keep_execEditionStagingDone {o s : State}  (h : Keep o s) :
    KeepOut o (execEditionStagingDone s) := by
  rw [execEditionStagingDone]
  repeat' with_reducible first
    | assumption | apply keepOut_next | apply keepOut_ite | apply keep_ite | apply keep_stagingDone | intro _ | split

theorem keep_execEditionApplyInstant {o s : State}  (h : Keep o s) :
    KeepOut o (execEditionApplyInstant s) := by
  rw [execEditionApplyInstant]
  repeat' with_reducible first
    | assumption | apply keepOut_next | apply keepOut_ite | apply keep_ite | apply keep_selectComplete
    | apply keep_applySelect | intro _ | split

theorem keep_runFwStage {o s : State} {a1 : Cmd} {a2 : List Byte} (h : Keep o s) :
    Keep o (runFwStage s a1 a2) := by
  rw [runFwStage.eq_def]
  repeat' with_reducible first
    | assumption | apply keep_ite | apply keep_complete | apply keep_beginFlash | apply keep_authFail | intro _ | split

theorem keep_execFwStage {o s : State} {a0 : Nat} (h : Keep o s) :
    KeepOut o (execFwStage a0 s) := by
  rw [execFwStage]
  repeat' with_reducible first
    | assumption | apply keepOut_next | apply keep_ringRow | apply keep_runFwStage | apply keep_ringRow | intro _

theorem keep_confirmTrial {o s : State} {a1 : Bool} (h : Keep o s) : Keep o (confirmTrial s a1) := by
  rw [confirmTrial]
  refine keep_ite (keep_setF (keep_putDir h)) (fun h => keep_setOtp ?_ h)
  exact ⟨rfl, rfl, rfl, rfl, fun _ x => x, Nat.le_max_left _ _, rfl, fun _ => rfl, fun x => x⟩

theorem keep_runFwActivate {o s : State} {a1 : Cmd} {a2 : List Byte} (h : Keep o s) :
    Keep o (runFwActivate s a1 a2) := by
  rw [runFwActivate]
  repeat' with_reducible first
    | assumption | apply keep_ite | apply keep_complete | apply keep_putDir | apply keep_confirmTrial | apply keep_setF
    | intro _ | (dsimp only; split) | refine keep_mk rfl rfl rfl rfl rfl rfl rfl rfl rfl rfl rfl rfl ?_

theorem keep_execFwActivate {o s : State} {a0 : Nat} (h : Keep o s) :
    KeepOut o (execFwActivate a0 s) := by
  rw [execFwActivate]
  repeat' with_reducible first
    | assumption | apply keepOut_next | apply keep_ringRow | apply keep_runFwActivate | apply keep_ringRow | intro _

theorem keep_activateReset {o s : State}  (h : Keep o s) :
    Keep o (activateReset s) := by
  rw [activateReset.eq_def]
  repeat' with_reducible first
    | assumption | apply keep_ite | apply keep_warmReset | apply keep_stopHold | intro _ | (dsimp only; split)
    | refine keep_mk rfl rfl rfl rfl rfl rfl rfl rfl rfl rfl rfl rfl ?_

theorem keep_execFwActivateReset {o s : State}  (h : Keep o s) :
    KeepOut o (execFwActivateReset s) := by
  rw [execFwActivateReset]
  repeat' with_reducible first | assumption | apply keepOut_next | apply keep_activateReset

theorem keep_runAttest {o s : State} {a1 : Cmd} {a2 : List Byte} (h : Keep o s) :
    Keep o (runAttest s a1 a2) := by
  rw [runAttest]
  repeat' with_reducible first | assumption | apply keep_complete | apply keep_hostWrite

theorem keep_execAttest {o s : State} {a0 : Nat} (h : Keep o s) :
    KeepOut o (execAttest a0 s) := by
  rw [execAttest]
  repeat' with_reducible first
    | assumption | apply keepOut_next | apply keep_ringRow | apply keep_runAttest | apply keep_ringRow | intro _

theorem keep_burnLifecycle {o s : State} {a1 : Nat} (h : Keep o s) : Keep o (burnLifecycle s a1) := by
  rw [burnLifecycle]
  refine keep_raiseEv (keep_setOtp ?_ h)
  refine ⟨rfl, rfl, rfl, rfl, fun i x => ?_, Nat.le_refl _, rfl, fun _ => rfl, fun x => ?_⟩
  · simp only [Nat.testBit_or, x, Bool.true_or]
  · simp only [x, Bool.false_and]

theorem keep_runLifecycle {o s : State} {a1 : Cmd} {a2 : List Byte} (h : Keep o s) :
    Keep o (runLifecycle s a1 a2) := by
  rw [runLifecycle]
  repeat' with_reducible first
    | assumption | apply keep_ite | apply keep_complete | apply keep_burnLifecycle | intro _

theorem keep_execDiagLifecycle {o s : State} {a0 : Nat} (h : Keep o s) :
    KeepOut o (execDiagLifecycle a0 s) := by
  rw [execDiagLifecycle]
  repeat' with_reducible first
    | assumption | apply keepOut_next | apply keep_ringRow | apply keep_runLifecycle | apply keep_ringRow | intro _

theorem keep_runOwnerBind {o s : State} {a1 : Cmd} {a2 : List Byte} (h : Keep o s) : Keep o (runOwnerBind s a1 a2) := by
  rw [runOwnerBind]
  split
  · exact keep_complete h
  · rename_i hc
    refine keep_ite (keep_complete h) (fun _ => keep_complete (keep_setOtp ?_ h))
    refine ⟨rfl, rfl, rfl, rfl, fun _ x => x, Nat.le_refl _, rfl, fun x => ?_, fun x => x⟩
    simp only [ownerClosed, Bool.or_eq_true, bne_iff_ne, ne_eq, not_or, Decidable.not_not] at hc
    exact absurd hc.1 x

theorem keep_execDiagOwnerBind {o s : State} {a0 : Nat} (h : Keep o s) :
    KeepOut o (execDiagOwnerBind a0 s) := by
  rw [execDiagOwnerBind]
  repeat' with_reducible first
    | assumption | apply keepOut_next | apply keep_ringRow | apply keep_runOwnerBind | apply keep_ringRow | intro _

theorem keep_setPatches {o s : State} {a1 : Option (List Byte)} (h : Keep o s) :
    Keep o (setPatches s a1) := by
  rw [setPatches]
  repeat' with_reducible first
    | assumption | apply keep_raiseEv | apply keep_persistCompass | apply keep_patchNano
    | refine keep_mk rfl rfl rfl rfl rfl rfl rfl rfl rfl rfl rfl rfl ?_

theorem keep_runPatchLoad {o s : State} {a1 : Cmd} {a2 : List Byte} (h : Keep o s) :
    Keep o (runPatchLoad s a1 a2) := by
  rw [runPatchLoad]
  repeat' with_reducible first
    | assumption | apply keep_ite | apply keep_complete | apply keep_setPatches | intro _

theorem keep_execDiagPatchLoad {o s : State} {a0 : Nat} (h : Keep o s) :
    KeepOut o (execDiagPatchLoad a0 s) := by
  rw [execDiagPatchLoad]
  repeat' with_reducible first
    | assumption | apply keepOut_next | apply keep_ringRow | apply keep_runPatchLoad | apply keep_ringRow | intro _

theorem keep_execCmpWatchdog {o s : State}  (h : Keep o s) :
    KeepOut o (execCmpWatchdog s) := by
  rw [execCmpWatchdog]
  repeat' with_reducible first
    | assumption | apply keepOut_next | apply keepOut_ite | apply keep_ite | apply keep_raiseFe | apply keep_setF | intro _

end Sys2Proof.Machine
end

