-- ==== Sys2Proof/Laws/KeepRegAccess.lean ====
section
/-!
SUPPORT. What the operations of Machine/RegAccess.lean keep.
-/

set_option Elab.async false

namespace Sys2Proof.Machine

theorem keep_storeLimit {o s : State} {a1 : Nat} {a2 : Fld × Nat × Nat} (h : Keep o s) :
    Keep o (storeLimit s a1 a2) := by
  rw [storeLimit]
  repeat' with_reducible first | assumption | apply keep_setF

theorem keep_plainWrite {o s : State} {a1 : RegD} {a2 : Nat} {a3 : Nat} {a4 : Nat} {a5 : Nat} (h : Keep o s) :
    Keep o (plainWrite s a1 a2 a3 a4 a5) := by
  rw [plainWrite]
  repeat' with_reducible first | assumption | apply keep_setW | apply keep_storeLimit | apply keep_foldS | intro _

theorem keep_srcCfgWrite {o s : State} {a1 : Nat} {a2 : Nat} (h : Keep o s) :
    Keep o (srcCfgWrite s a1 a2) := by
  rw [srcCfgWrite]
  repeat' with_reducible first
    | assumption | apply keep_ite | apply keep_setF | apply keep_setB | apply keep_setSrc | intro _

theorem keep_headroomWrite {o s : State} {a1 : Nat} (h : Keep o s) :
    Keep o (headroomWrite s a1) := by
  rw [headroomWrite]
  repeat' with_reducible first | assumption | apply keep_ite | apply keep_setF | intro _

theorem keep_mftWrite {o s : State} {a1 : Nat} {a2 : Nat} (h : Keep o s) :
    Keep o (mftWrite s a1 a2) := by
  rw [mftWrite]
  repeat' with_reducible first
    | assumption | apply keep_ite | intro _ | split | (dsimp only; split)
    | refine keep_mk rfl rfl rfl rfl rfl rfl rfl rfl rfl rfl rfl rfl ?_

theorem keep_adjWordWrite {o s : State} {a1 : Nat} {a2 : Nat} (h : Keep o s) :
    Keep o (adjWordWrite s a1 a2) := by
  rw [adjWordWrite]
  repeat' with_reducible first | assumption | apply keep_ite | apply keep_freqAdjWrite | intro _

theorem keep_vectorWrite {o s : State} {a1 : Nat} {a2 : Nat} (h : Keep o s) :
    Keep o (vectorWrite s a1 a2) := by
  rw [vectorWrite]
  repeat' with_reducible first | assumption | apply keep_ite | apply keep_setVec | apply keep_vectorMask | intro _

theorem keep_systemWrite {o s : State} {a1 : RegD} {a2 : Nat} {a3 : Nat} {a4 : Nat} {a5 : Nat} (h : Keep o s) :
    KeepOpt o (systemWrite s a1 a2 a3 a4 a5) := by
  rw [systemWrite]
  repeat' with_reducible first
    | assumption | apply keepOpt_none | apply keepOpt_ite | apply keepOpt_some | apply keep_ite | apply keep_pllFreqWrite
    | apply keep_measWrite | apply keep_rstCtrlWrite | apply keep_domainGo | apply keep_setF | apply keep_plainWrite
    | apply keep_sqCtrlWrite | apply keep_cqCfgWrite | apply keep_srcCfgWrite | apply keep_srcAck | apply keep_firstClear
    | apply keep_fltTest | apply keep_stickyWrite | apply keep_flipCtrlWrite | apply keep_startPass | apply keep_wallLoad
    | intro _

theorem keep_unitWrite {o s : State} {a1 : RegD} {a2 : Nat} {a3 : Nat} {a4 : Nat} {a5 : Nat} (h : Keep o s) :
    KeepOpt o (unitWrite s a1 a2 a3 a4 a5) := by
  rw [unitWrite]
  repeat' with_reducible first
    | assumption | apply keepOpt_none | apply keepOpt_ite | apply keepOpt_some | apply keep_ite | apply keep_encRefresh
    | apply keep_coefWrite | apply keep_setF | apply keep_plainWrite | apply keep_merCtrlWrite | apply keep_timeCmd
    | apply keep_mftWrite | apply keep_adjWordWrite | apply keep_servoOffsetWrite | apply keep_ptpCtrlWrite
    | apply keep_bmca | apply keep_ptpPortWrite | apply keep_trigCtrlWrite | apply keep_trigFieldWrite
    | apply keep_headroomWrite | intro _

theorem keep_regWrite {o s : State} {a1 : Nat} {a2 : Nat} (h : Keep o s) :
    Keep o (regWrite s a1 a2) := by
  rw [regWrite]
  repeat' with_reducible first
    | assumption | apply keep_ite | apply keep_vectorWrite | refine keep_of_opt (keep_systemWrite ?_) (by assumption)
    | refine keep_of_opt (keep_unitWrite ?_) (by assumption) | apply keep_plainWrite | apply keep_getD
    | apply keepOpt_orElse | apply keep_systemWrite | apply keep_unitWrite | intro _ | split

theorem keep_unitRead {o s : State} {a1 : Nat} (h : Keep o s) :
    KeepOpt o (unitRead s a1) := by
  rw [unitRead]
  repeat' with_reducible first
    | assumption | apply keepOpt_none | apply keepOpt_ite | apply keepOpt_some | apply keep_ite | apply keep_evqDrop
    | apply keep_captureDrop | apply keep_setStream | apply keep_setMeter | apply keep_free | intro _

theorem keep_clearRc {o s : State} {a1 : Nat} (h : Keep o s) :
    Keep o (clearRc s a1) := by
  rw [clearRc.eq_def]
  repeat' with_reducible first | assumption | apply keep_ite | apply keep_setW | intro _ | split

theorem keep_readEffect {o s : State} {a1 : Nat} (h : Keep o s) :
    Keep o (readEffect s a1) := by
  rw [readEffect]
  repeat' with_reducible first
    | assumption | refine keep_of_opt (keep_unitRead ?_) (by assumption) | apply keep_clearRc | apply keep_getD
    | apply keepOpt_orElse | apply keep_unitRead

theorem keep_regRead {o s : State} {a1 : Nat} (h : Keep o s) :
    Keep o (regRead s a1) := by
  rw [regRead]
  repeat' with_reducible first | assumption | apply keep_readEffect | apply keep_emit

theorem keep_reachReg {o s : State} {a1 : Nat} {a2 : Option Nat} (h : Keep o s) :
    Keep o (reachReg s a1 a2) := by
  rw [reachReg.eq_def]
  repeat' with_reducible first | assumption | apply keep_regRead | apply keep_regWrite | split

theorem keep_holdAccess {o s : State} {a1 : Nat} {a2 : Nat} {a3 : Option Nat} (h : Keep o s) :
    Keep o (holdAccess s a1 a2 a3) := by
  rw [holdAccess]
  repeat' with_reducible first
    | assumption | refine keep_mk rfl rfl rfl rfl rfl rfl rfl rfl rfl rfl rfl rfl ?_

theorem keep_busAccess {o s : State} {a1 : Nat} {a2 : Option Nat} (h : Keep o s) :
    Keep o (busAccess s a1 a2) := by
  rw [busAccess]
  repeat' with_reducible first
    | assumption | apply keep_ite | apply keep_barViolation | apply keep_unmappedAccess | apply keep_reachReg
    | apply keep_holdAccess | apply keep_setDomain | apply keep_standInAccess | intro _

theorem keep_pairAccess {o s : State} {a1 : Nat} {a2 : Option Nat} (h : Keep o s) :
    Keep o (pairAccess s a1 a2) := by
  rw [pairAccess]
  repeat' with_reducible first
    | assumption | apply keep_ite | apply keep_barViolation | apply keep_busAccess | intro _ | split | (dsimp only; split)

theorem keep_bar4Access {o s : State} {a1 : Nat} {a2 : Nat} {a3 : Nat} {a4 : Option Nat} (h : Keep o s) :
    Keep o (bar4Access s a1 a2 a3 a4) := by
  rw [bar4Access]
  repeat' with_reducible first
    | assumption | apply keep_ite | apply keep_windowAccess | apply keep_noteWait | apply keep_barViolation | intro _
    | split | (dsimp only; split)

theorem keep_execRegisterWrite {o s : State} {a0 : BarKind} {a1 : Nat} {a2 : Nat} (h : Keep o s) :
    KeepOut o (execRegisterWrite a0 a1 a2 s) := by
  rw [execRegisterWrite.eq_def]
  repeat' with_reducible first
    | assumption | apply keepOut_next | apply keep_busAccess | apply keep_pairAccess | apply keep_kick
    | apply keep_bar4Access | split | (dsimp only; split)

theorem keep_execRcRegisterRead {o s : State} {a0 : BarKind} {a1 : Nat} (h : Keep o s) :
    KeepOut o (execRcRegisterRead a0 a1 s) := by
  rw [execRcRegisterRead.eq_def]
  repeat' with_reducible first
    | assumption | apply keepOut_next | apply keep_busAccess | apply keep_pairAccess | apply keep_emit
    | apply keep_bar4Access | split | (dsimp only; split)

theorem keep_execGatedDomainAccess {o s : State} {a0 : Nat} {a1 : Option Nat} (h : Keep o s) :
    KeepOut o (execGatedDomainAccess a0 a1 s) := by
  rw [execGatedDomainAccess]
  repeat' with_reducible first | assumption | apply keepOut_next | apply keep_busAccess

theorem keep_domainAwake {o s : State} {a1 : Nat} (h : Keep o s) :
    Keep o (domainAwake s a1) := by
  rw [domainAwake.eq_def]
  repeat' with_reducible first
    | assumption | apply keep_ite | apply keep_setDomain | apply keep_setCoreState | apply keep_reachReg
    | apply keep_raiseEv | apply keep_entryOk | apply keep_clearEntry | apply keep_foldS | intro _ | split
    | (dsimp only; split) | refine keep_mk rfl rfl rfl rfl rfl rfl rfl rfl rfl rfl rfl rfl ?_

theorem keep_execDomainWakeDone {o s : State} {a0 : Nat} (h : Keep o s) :
    KeepOut o (execDomainWakeDone a0 s) := by
  rw [execDomainWakeDone]
  repeat' with_reducible first
    | assumption | apply keepOut_next | apply keepOut_ite | apply keep_ite | apply keep_domainAwake | intro _

theorem keep_execPcieHotReset {o s : State}  (h : Keep o s) :
    KeepOut o (execPcieHotReset s) := by
  rw [execPcieHotReset]
  repeat' with_reducible first
    | assumption | apply keepOut_next | apply keepOut_ite | apply keep_ite | apply keep_hotReset | intro _

end Sys2Proof.Machine
end

