-- ==== Sys2Proof/Laws/KeepSmbus.lean ====
section
/-!
SUPPORT. What the operations of Machine/Smbus.lean keep.
-/

set_option Elab.async false

namespace Sys2Proof.Machine

theorem keep_smbAnswer {o s : State} {a1 : Nat} (h : Keep o s) :
    Keep o (smbAnswer s a1) := by
  rw [smbAnswer]
  repeat' with_reducible first | assumption | apply keep_emit

theorem keep_smbAccess {o s : State} {a1 : Nat} {a2 : Option Nat} (h : Keep o s) :
    Keep o (smbAccess s a1 a2) := by
  rw [smbAccess.eq_def]
  repeat' with_reducible first
    | assumption | apply keep_ite | apply keep_ite_fst | apply keep_ite_snd | apply keep_unmappedAccess
    | apply keep_smbAnswer | apply keep_freshIndex | apply keep_standInAccess | apply keep_regWrite | apply keep_readEffect
    | intro _ | split

theorem keep_execSmbusSetOffset {o s : State} {a0 : Nat} (h : Keep o s) :
    KeepOut o (execSmbusSetOffset a0 s) := by
  rw [execSmbusSetOffset]
  repeat' with_reducible first
    | assumption | apply keepOut_next | refine keep_mk rfl rfl rfl rfl rfl rfl rfl rfl rfl rfl rfl rfl ?_

theorem keep_smbAdvance {o s : State} {a1 : Nat} (h : Keep o s) :
    Keep o (smbAdvance s a1) := by
  rw [smbAdvance]
  repeat' with_reducible first
    | assumption | refine keep_mk rfl rfl rfl rfl rfl rfl rfl rfl rfl rfl rfl rfl ?_

theorem keep_execSmbusRead {o s : State}  (h : Keep o s) :
    KeepOut o (execSmbusRead s) := by
  rw [execSmbusRead]
  repeat' with_reducible first | assumption | apply keepOut_next | apply keep_smbAdvance | apply keep_smbAccess

theorem keep_execSmbusWrite {o s : State} {a0 : Nat} (h : Keep o s) :
    KeepOut o (execSmbusWrite a0 s) := by
  rw [execSmbusWrite]
  repeat' with_reducible first | assumption | apply keepOut_next | apply keep_smbAdvance | apply keep_smbAccess

theorem keep_execSmbusWake {o s : State}  (h : Keep o s) :
    KeepOut o (execSmbusWake s) := by
  rw [execSmbusWake]
  repeat' with_reducible first | assumption | apply keepOut_next | apply keep_wake

theorem keep_execSmbusColdReset {o s : State}  (h : Keep o s) :
    KeepOut o (execSmbusColdReset s) := by
  rw [execSmbusColdReset]
  repeat' with_reducible first | assumption | apply keepOut_next | apply keep_coldReset

theorem keep_execSmbusWarmReset {o s : State}  (h : Keep o s) :
    KeepOut o (execSmbusWarmReset s) := by
  rw [execSmbusWarmReset]
  repeat' with_reducible first
    | assumption | apply keepOut_next | apply keepOut_ite | apply keep_ite | apply keep_warmReset | intro _

end Sys2Proof.Machine
end

