-- ==== Sys2Proof/Laws/Rings.lean ====
section
/-!
SUPPORT. What a command of a ring does in one step, once for all rows: it begins from its entry, or acts on its data.
-/

set_option Elab.async false

namespace Sys2Proof.Machine

theorem exec_ring {i : Instr} {q : Nat} {r : Row} {s : State} (h : rowOf i = some (q, r)) :
    exec i s = .next (r.after (ringRow r.opcode r.sel r.start r.run q s)) := by
  cases i <;> simp only [rowOf, Option.some.injEq, Prod.mk.injEq, reduceCtorEq] at h
  all_goals
    obtain ⟨rfl, rfl⟩ := h
    rfl

/-- What a command's entry answers, on the state it begins in. -/
def beginRow (r : Row) (q : Nat) (f : Fetched) (rest : List Fetched) (s : State) : State :=
  match r.start (popped s q rest) f.entry with
  | .read a n circ => (addCmd (popped s q rest) q f a n circ false).2
  | .finish st x d => complete (begun s q f rest).2 (begun s q f rest).1 st x d
  | .run => r.run (begun s q f rest).2 (begun s q f rest).1 []

@[simp] theorem begun_entry (s : State) (q : Nat) (f : Fetched) (rest : List Fetched) : (begun s q f rest).1.entry = f.entry := rfl
@[simp] theorem begun_id (s : State) (q : Nat) (f : Fetched) (rest : List Fetched) : (begun s q f rest).1.id = s.hif.cmdSeq := rfl
@[simp] theorem begun_regs (s : State) (q : Nat) (f : Fetched) (rest : List Fetched) : (begun s q f rest).2.regs = s.regs := rfl

/-- A command put back under its own id is found there. -/
theorem findCmd_putCmd {s : State} {c k : Cmd} (h : findCmd s c.id = some k) : findCmd (putCmd s c) c.id = some c := by
  simp only [findCmd, putCmd] at h ⊢
  generalize s.hif.cmds = l at h
  induction l with
  | nil => cases h
  | cons x t ih =>
    rw [List.map_cons, List.find?_cons]
    by_cases hx : x.id = c.id
    · simp [hx]
    · rw [List.find?_cons] at h
      have e : (x.id == c.id) = false := by simp [hx]
      rw [e] at h
      simp only [if_neg hx, e]
      exact ih h

theorem ringRow_data {o q : Nat} {sel : List Byte → Bool} {start run} {s : State} {c : Cmd} (h : readyCmd s q o sel = some c)
    (k : mustDeferOp s o = false) : ringRow o sel start run q s = run (markPast s c) c c.data := by
  rw [ringRow, h]
  simp [k]

theorem beginWake_awake {s : State} {o : Nat}
    (h : wakingOps.contains o = true → getF s Rg.PWR_STATE_STATE ≠ 1 ∧ getF s Rg.PWR_STATE_STATE ≠ 2) : beginWake s o = s := by
  rw [beginWake]
  split
  · rename_i c
    simp only [Bool.and_eq_true, Bool.or_eq_true, beq_iff_eq] at c
    have k := h c.1
    omega
  · rfl

theorem domains_all_on {s : State} {ds : List Nat} (h : ∀ d ∈ ds, domainOn s d = true) :
    (ds.any fun d => !domainOn s d) = false := by
  simp only [List.any_eq_false, Bool.not_eq_true']
  intro d hd
  simp [h d hd]

theorem ringRow_begin {i : Instr} {q : Nat} {r : Row} {f : Fetched} {rest : List Fetched} {s : State}
    (h : MayBegin i q r f rest s) : ringRow r.opcode r.sel r.start r.run q s = drainInvalid (beginRow r q f rest s) q 16 := by
  have hp : mustDeferOp (popped s q rest) r.opcode = false := h.free
  rw [ringRow, h.none, beginRow]
  simp only [h.front, h.opcode, h.sel, h.ready, h.runs, h.allowed, beginWake_awake h.awake, h.reset,
    domains_all_on h.domains, beq_self_eq_true, Bool.and_true, Bool.not_true, if_true, if_false, Bool.false_eq_true]
  rw [← popped]
  cases r.start (popped s q rest) f.entry <;> simp only [hp, begun, Bool.false_eq_true, if_false]

theorem exec_begin {i : Instr} {q : Nat} {r : Row} {f : Fetched} {rest : List Fetched} {s : State} (h : MayBegin i q r f rest s) :
    exec i s = .next (r.after (drainInvalid (beginRow r q f rest s) q 16)) := by
  rw [exec_ring h.row, ringRow_begin h]

theorem exec_data {i : Instr} {q : Nat} {r : Row} {c : Cmd} {s : State} (h : DataIn i q r c s) :
    exec i s = .next (r.after (r.run (markPast s c) c c.data)) := by
  rw [exec_ring h.row, ringRow_data h.ready h.free]

end Sys2Proof.Machine
end

