-- ==== Sys2Proof/Machine/Pins.lean ====
section
/-!
DEFINITION. The status pins that show other state (R434): GPIO0 to GPIO3, QSPI_RESET_N and SMB_ALERT_N. The
pins that hold state stand in State.pins.
-/

namespace Sys2Proof.Machine

/-- GPIO0 to GPIO3: READY or a later phase; a schedule runs; LOCKED; FE. Low in WATCH and DORMANT. -/
def gpioPin (s : State) (n : Nat) : Bool :=
  let shown : Bool :=
    if n = 0 then decide (phReady ≤ phase s) && decide (phase s ≤ phCoast)
    else if n = 1 then getB s Rg.SHT_SCHED_STATUS_RUNNING
    else if n = 2 then getB s Rg.MER_STATUS_LOCKED
    else if n = 3 then inFe s
    else false
  shown && decide (getF s Rg.PWR_STATE_STATE ≤ 2)

/-- QSPI_RESET_N is low for 1 ms at each power-on and cold reset. -/
def qspiResetN (s : State) : Bool := decide (s.pins.qspiAt + msNs ≤ s.now)

/-- SMB_ALERT_N is low while FLT_STATE.STATE is not NORMAL. -/
def smbAlertN (s : State) : Bool := getF s Rg.FLT_STATE_STATE == 0

end Sys2Proof.Machine
end

