-- ==== Sys2Proof/WellFormed.lean ====
section
/-!
DEFINITION. Well-formed commands: every operand is a value that the device's units, rings, registers and pins can give.
-/

namespace Sys2Proof

/-- A store of the host lies in its 64-bit address space. -/
def storesOk (l : Stores) : Bool := l.all fun x => decide (x.1 + x.2.length ≤ 2 ^ 64)

/-- Narrow writes lie within one 32-byte code word (R336). -/
def joinsOk (l : Stores) : Bool := l.all fun x => decide (x.1 + x.2.length ≤ 32)

/-- A value written is one word. -/
def valueOk (w : Option Nat) : Bool := w.all fun v => decide (v < 2 ^ 32)

/-- The offset lies in the access's BAR, or in the configuration space. -/
def accessOk (k : BarKind) (off : Nat) : Bool :=
  match k with
  | .word => decide (off < 0x4000000)
  | .pair => decide (off < 0x4000000)
  | .page => decide (off < 0x100000)
  | .config => decide (off < 4096)
  | .window bytes _ => decide (1 ≤ bytes) && decide (bytes ≤ 4096) && decide (off + bytes ≤ 2 ^ 34)

/-- The value has the bytes that the access writes; the configuration space has no row for its writes. -/
def writeOk (k : BarKind) (v : Nat) : Bool :=
  match k with
  | .word => decide (v < 2 ^ 32)
  | .pair => decide (v < 2 ^ 64)
  | .page => decide (v < 2 ^ 32)
  | .config => false
  | .window bytes _ => decide (v < 2 ^ (8 * bytes))

def Instr.wf (i : Instr) : Bool :=
  match i with
  | .sqDoorbellKick off stores => decide (off < 0x100000) && storesOk stores
  | .sqPoll sq stores _ => decide (sq < 64) && storesOk stores
  | .sqEngineSleep sq stores => decide (sq < 64) && storesOk stores
  | .nop sq => decide (sq < 64)
  | .diagEcho sq => decide (sq < 64)
  | .dmaDescriptorDone engine => decide (engine < 4)
  | .dmaCompletionTimeout engine _ => decide (engine < 4)
  | .cqHeldRelease cq stores => decide (cq < 64) && storesOk stores
  | .vectorModerationTimeout vector => decide (vector < 256)
  | .sqEnable sq => decide (sq < 64)
  | .sqStop sq _ => decide (sq < 64)
  | .sqDisable sq => decide (sq < 64)
  | .cqEnable cq depthExp vector => decide (cq < 64) && decide (depthExp < 32) && decide (vector < 256)
  | .cqDisable cq => decide (cq < 64)
  | .msixVectorMask vector _ => decide (vector < 256)
  | .bar0UnmappedAccess off _ => decide (off < 0x4000000)
  | .gatedDomainAccess off write => decide (off < 0x4000000) && valueOk write
  | .barAccessInvalid _ off _ => decide (off < 0x4000000)
  | .functionLevelReset => true
  | .pcieHotReset => true
  | .d3hotEntry _ => true
  | .d0Return => true
  | .pcieLinkDown _ => true
  | .layerSet sq => decide (sq < 64)
  | .viewCommit sq => decide (sq < 64)
  | .surfaceWrite sq => decide (sq < 64)
  | .surfaceWriteResume surface => decide (surface < 256)
  | .gazetteerUpdate sq => decide (sq < 64)
  | .sheetCalSet sq => decide (sq < 64)
  | .prjCoefWrite word value => decide (word < 1024) && decide (value < 2 ^ 12)
  | .compositionStart view => decide (view < 8)
  | .compositionLatestStart view => decide (view < 8)
  | .compositionDone view => decide (view < 8)
  | .latitudeCompose view latitude => decide (view < 8) && decide (latitude < 1024)
  | .sheetOutputStart sheet => decide (sheet < 4096)
  | .unitEmissionInstant sheet _ => decide (sheet < 4096)
  | .streamOpen sq => decide (sq < 64)
  | .streamClose sq => decide (sq < 64)
  | .streamData sq => decide (sq < 64)
  | .streamDataResume stream => decide (stream < 512)
  | .streamConcealSet sq => decide (sq < 64)
  | .streamPacketReceive stream _ => decide (stream < 512)
  | .reorderTimeout stream => decide (stream < 512)
  | .st2110BandCommit stream => decide (stream < 512)
  | .dispatchPicture core => decide (core < 24)
  | .contextSwitchDone core => decide (core < 24)
  | .sliceDecodeDone core _ => decide (core < 24)
  | .pictureDecodeDone core _ => decide (core < 24)
  | .pictureDeadline stream => decide (stream < 512)
  | .coreEnableWrite value => decide (value < 2 ^ 24)
  | .encRefresh sheet _ => decide (sheet < 4096)
  | .cellRowCode sheet _ => decide (sheet < 4096)
  | .rcCapture sq => decide (sq < 64)
  | .rollcall sq => decide (sq < 64)
  | .rollcallRspReceive port _ => decide (port < 128)
  | .rollcallWindowEnd port => decide (port < 128)
  | .calAckTimeout port => decide (port < 128)
  | .backgroundPing => true
  | .nackReportReceive port _ => decide (port < 128)
  | .presentSchedule sq => decide (sq < 64)
  | .scheduleFirstPresent => true
  | .launchIdleStart port => decide (port < 128)
  | .presentLaunch port => decide (port < 128)
  | .hold sq => decide (sq < 64)
  | .holdInstant => true
  | .resumeInstant => true
  | .merTimeLatch _ _ => true
  | .merTimeSet _ _ => true
  | .merTimeStep _ _ => true
  | .merFreqAdjWrite value => decide (value < 2 ^ 40)
  | .merServoOffsetWrite upper => decide (upper < 2 ^ 32)
  | .servoSample offset => decide (-(2 ^ 39) ≤ offset) && decide (offset < 2 ^ 39)
  | .holdoverTimeout => true
  | .ptpMessageReceive port _ _ => decide (port < 128)
  | .ptpSyncInterval port => decide (port < 128)
  | .ptpAnnounceInterval port => decide (port < 128)
  | .triggerArm trigger fields => decide (trigger < 16) && decide (fields < 2 ^ 32)
  | .triggerDisarm trigger fields => decide (trigger < 16) && decide (fields < 2 ^ 32)
  | .triggerInstant trigger => decide (trigger < 16)
  | .triggerPulseEnd trigger => decide (trigger < 16)
  | .ppsOutPulse => true
  | .pinEdgeCapture _ _ => true
  | .merCapturePop => true
  | .portConfig sq => decide (sq < 64)
  | .portMeasure sq => decide (sq < 64)
  | .autoNegotiationDone port _ _ => decide (port < 128)
  | .linkTrainingDone port => decide (port < 128)
  | .linkTrainingTimeout port => decide (port < 128)
  | .linkLockHeld port => decide (port < 128)
  | .linkLoss port => decide (port < 128)
  | .linkFlapHoldEnd port => decide (port < 128)
  | .laneAdaptStep lane _ dfe => decide (lane < 128) && decide (dfe.length ≤ 16)
  | .frameLookup port frame fault _ _ => decide (port < 146) && (decide (port < 128) || decide (frame.length ≤ 9212)) && decide (fault < 4)
  | .pauseFrameReceive port _ => decide (port < 128)
  | .tableUpdate sq => decide (sq < 64)
  | .tableFenceReached table => decide (table < 3)
  | .tableFenceTimeout table => decide (table < 3)
  | .mirrorSet sq => decide (sq < 64)
  | .d2dFlitRetry die => decide (die < 2)
  | .dieLinkDown die => decide (die < 2)
  | .dieLinkRetrain die => decide (die < 2)
  | .dieLinkReturn die => decide (die < 2)
  | .tmFrameSelect port => decide (port < 130)
  | .shaperSet sq => decide (sq < 64)
  | .shaperRefill port cls => decide (port < 130) && decide (cls < 8)
  | .wheelOverflowScan => true
  | .meterSet sq => decide (sq < 64)
  | .gateListSet sq => decide (sq < 64)
  | .gateListStart port => decide (port < 130)
  | .gateEntryChange port => decide (port < 130)
  | .eventDeliver => true
  | .intEvqPop => true
  | .intSrcAck source => decide (source < 1024)
  | .hardwareFault source domain location => decide (source < 1024) && decide (domain < 80) && decide (location.length ≤ 63)
  | .ucResetDone unit => decide (unit < 256)
  | .surveyDone _ => true
  | .fltStickyClear word value => decide (word < 32) && decide (value < 2 ^ 32)
  | .fltFirstClear => true
  | .fltTest cls => decide (cls < 4)
  | .surveyArm sq => decide (sq < 64)
  | .surveyRead sq => decide (sq < 64)
  | .mergeReadReturn stack word writes port _ => decide (stack < 2) && decide (word < 0x30000000) && joinsOk writes && decide (port < 16)
  | .mergeEntryTimeout stack => decide (stack < 2)
  | .retrainHold stack waiting lanes => decide (stack < 2) && (waiting.all fun r => decide (r.1 < 16)) && decide (lanes.length = 128)
  | .retrainDeferred stack => decide (stack < 2)
  | .tmrSweep => true
  | .hbmScrubStep stack _ => decide (stack < 2)
  | .sramScrubStep macro_ _ domain _ => decide (macro_ < 4096) && decide (domain < 80)
  | .eccFlipArm value => decide (value < 2 ^ 32)
  | .powerOnReset board => decide (board.edition < 4 ∧ board.refclk < 16)
  | .troJudgment _ => true
  | .xoJudgment _ => true
  | .xoAmplitudeTimeout => true
  | .pllLock pll => decide (pll < 6)
  | .pllUnlock pll => decide (pll < 6)
  | .pllRelockTimeout pll => decide (pll < 6)
  | .clkPllFreqWrite pll mhz => decide (pll < 6) && decide (mhz < 2 ^ 12)
  | .xoLoss => true
  | .troCheck _ => true
  | .clkMeasStart value => decide (value < 2 ^ 32)
  | .clkMeasDone _ => true
  | .clkMeasNoClock => true
  | .clockGateIdleClose domain => decide (domain < 80)
  | .gateBusyTimeout domain => decide (domain < 80)
  | .drainReplyTimeout domain => decide (domain < 80)
  | .perstAssert => true
  | .perstDeassert edition => decide (edition < 4)
  | .rstWarm value => decide (value < 2 ^ 32)
  | .rstDomainGo domain => decide (domain < 128)
  | .firmwareVerified => true
  | .hbmTrainingDone _ _ lanes _ => decide (lanes.length = 256)
  | .startupEditionApply => true
  | .powerState sq => decide (sq < 64)
  | .watchConfig sq => decide (sq < 64)
  | .powerUnitAnswer domain deferUs => decide (domain < 80) && decide (deferUs < 65536)
  | .powerDeferRetry domain => decide (domain < 80)
  | .entryWindowTimeout => true
  | .autoDomainGate domain => decide (domain < 80)
  | .domainWakeDone domain => decide (domain < 80)
  | .watchEntryProceed => true
  | .watchSample temps rails lanes _ => decide (temps.length = 32) && decide (rails.length = 12) && lanes.all (decide <| · < 128)
  | .rtcAlarm => true
  | .rtcSecondLoad => true
  | .wakeEvent sources _ => decide (sources < 128)
  | .watchWakeDone _ => true
  | .editionLoad sq => decide (sq < 64)
  | .editionSelect sq => decide (sq < 64)
  | .editionApplyInstant => true
  | .fwStage sq => decide (sq < 64)
  | .fwActivate sq => decide (sq < 64)
  | .fwActivateReset => true
  | .attest sq => decide (sq < 64)
  | .diagLifecycle sq => decide (sq < 64)
  | .diagOwnerBind sq => decide (sq < 64)
  | .diagPatchLoad sq => decide (sq < 64)
  | .cmpWatchdog => true
  | .wearCurveSet sq => decide (sq < 64)
  | .ageUpdateNow => true
  | .ageingPass => true
  | .doseSave sq => decide (sq < 64)
  | .doseLoad sq => decide (sq < 64)
  | .diagBgRead sq => decide (sq < 64)
  | .summaryWrite => true
  | .faultLogFlush => true
  | .telemetryArm sq => decide (sq < 64)
  | .telemetryRecord => true
  | .sensorSample temps rails => decide (temps.length = 32) && decide (rails.length = 12)
  | .smbusSetOffset offset => decide (offset < 2 ^ 32)
  | .smbusRead => true
  | .smbusWrite value => decide (value < 2 ^ 32)
  | .smbusWake => true
  | .smbusColdReset => true
  | .smbusWarmReset => true
  | .registerWrite kind off value => accessOk kind off && writeOk kind value
  | .rcRegisterRead kind off => accessOk kind off
  | .xoReturn _ => true
  | .d2dLinkLoss die => decide (die < 2)
  | .pcieLinkReturn speed width => decide (speed < 6) && decide (width < 17)
  | .pauseQuantaExpiry port => decide (port < 128)
  | .ptpDelayReqInterval port => decide (port < 128)
  | .flashProgramDone _ => true
  | .editionStagingDone => true
  | .equaliserEstimateDone port lanes => decide (port < 128) && decide (1 ≤ lanes.length) && decide (lanes.length ≤ 4)
  | .ageingPassDone => true

end Sys2Proof
end

