-- ==== Sys2Proof/Tests/Slice0.lean ====
section
/-!
SUPPORT. Tests: an ill-formed term for each check of well-formedness; for each statement with hypotheses, and each of its
clauses, a state and operands that meet them together; single steps with results worked out from the spec.
-/

set_option Elab.async false

namespace Sys2Proof.Tests
open Sys2Proof.Machine

/-! ### States -/

/-- READY after start-up (R395): clocks done, PERST_N high, the link up, ring 0 awake. -/
def up : State :=
  let s := setF (setF State.reset Rg.RST_STATUS_PHASE 0 phReady) Rg.HIF_SQ_CTRL_STATE 0 sqAwake
  { s with clk := { s.clk with stage := .done, perst := false }, hif := { s.hif with linkUp := true } }

/-- A submission entry (R276): opcode, Target, HOST_ADDR, Length, then bytes 20 on. -/
def entry (op target addr len : Nat) (rest : List Nat) : List Byte :=
  let t := leBytes 1 op ++ leBytes 1 0x80 ++ leBytes 2 7 ++ leBytes 4 target ++ leBytes 8 addr ++ leBytes 4 len ++
    rest.map (BitVec.ofNat 8)
  t ++ zeros (64 - t.length)

/-- The entry is at the front of ring 0. -/
def queued (s : State) (e : List Byte) : State := setSq s 0 { getSq s 0 with queue := [⟨0, e⟩] }

/-- A command of ring 0 whose data have been read. -/
def command (e : List Byte) (data : List Byte) : Cmd := ⟨0, 0, 0, e, 0, 0, none, data, false, false, false, false⟩

def given (s : State) (e : List Byte) (data : List Byte) : State :=
  { s with hif := { s.hif with cmds := [command e data], cmdSeq := 1 } }

/-- MayBegin but for its row. -/
def mayBeginB (q : Nat) (r : Row) (f : Fetched) (rest : List Fetched) (s : State) : Bool :=
  (readyCmd s q r.opcode r.sel).isNone && (getSq s q).queue == f :: rest && eOpcode f.entry == r.opcode && r.sel f.entry &&
  mayStart s q f.entry && running s && commandAllowed s r.opcode && !mustDeferOp s r.opcode &&
  (!wakingOps.contains r.opcode || (getF s Rg.PWR_STATE_STATE != 1 && getF s Rg.PWR_STATE_STATE != 2)) &&
  !blockedByReset s f.entry && (wakesFirst f.entry).all (domainOn s)

theorem mayBegin_of {i : Instr} {q : Nat} {r : Row} {f : Fetched} {rest : List Fetched} {s : State} (h : rowOf i = some (q, r))
    (k : mayBeginB q r f rest s = true) : MayBegin i q r f rest s := by
  simp only [mayBeginB, Bool.and_eq_true, Bool.or_eq_true, Bool.not_eq_true', bne_iff_ne, beq_iff_eq, Option.isNone_iff_eq_none,
    List.all_eq_true] at k
  obtain ⟨⟨⟨⟨⟨⟨⟨⟨⟨⟨a, b⟩, c⟩, d⟩, e⟩, g⟩, l⟩, m⟩, n⟩, o⟩, p⟩ := k
  exact ⟨h, a, b, c, d, e, g, l, m, (fun w => n.resolve_left (fun h => by rw [w] at h; cases h)), o, p⟩

theorem dataIn_of {i : Instr} {q : Nat} {r : Row} {c : Cmd} {s : State} (h : rowOf i = some (q, r))
    (k : readyCmd s q r.opcode r.sel = some c ∧ mustDeferOp s r.opcode = false) : DataIn i q r c s := ⟨h, k.1, k.2⟩


/-! ### Well-formed commands -/

/-- An operand out of its range, for each check. -/
def illFormed0 : List Instr :=
  [.sqDoorbellKick 0x100000 [], .sqDoorbellKick 0 [(2 ^ 64, [0])], .sqPoll 64 [] false, .sqPoll 0 [(2 ^ 64, [0])] false,
   .sqEngineSleep 64 [], .sqEngineSleep 0 [(2 ^ 64, [0])], .nop 64, .diagEcho 64, .dmaDescriptorDone 4,
   .dmaCompletionTimeout 4 .timeout, .cqHeldRelease 64 [], .cqHeldRelease 0 [(2 ^ 64, [0])], .vectorModerationTimeout 256,
   .sqEnable 64, .sqStop 64 false, .sqDisable 64, .cqEnable 64 0 0, .cqEnable 0 32 0, .cqEnable 0 0 256, .cqDisable 64,
   .msixVectorMask 256 false, .bar0UnmappedAccess 0x4000000 false, .gatedDomainAccess 0x4000000 none,
   .gatedDomainAccess 0 (some (2 ^ 32)), .barAccessInvalid .size 0x4000000 false, .layerSet 64, .viewCommit 64, .surfaceWrite 64,
   .surfaceWriteResume 256, .gazetteerUpdate 64]
theorem test_wf_refuses0 : (illFormed0.all fun i => i.wf == false) = true := by decide +kernel

/-- The same. -/
def illFormed1 : List Instr :=
  [.sheetCalSet 64, .prjCoefWrite 1024 0, .prjCoefWrite 0 (2 ^ 12), .compositionStart 8, .compositionLatestStart 8,
   .compositionDone 8, .latitudeCompose 8 0, .latitudeCompose 0 1024, .sheetOutputStart 4096, .unitEmissionInstant 4096 0,
   .streamOpen 64, .streamClose 64, .streamData 64, .streamDataResume 512, .streamConcealSet 64, .streamPacketReceive 512 [],
   .reorderTimeout 512, .st2110BandCommit 512, .dispatchPicture 24, .contextSwitchDone 24, .sliceDecodeDone 24 none,
   .pictureDecodeDone 24 none, .pictureDeadline 512, .coreEnableWrite (2 ^ 24), .encRefresh 4096 false, .cellRowCode 4096 false,
   .rcCapture 64, .rollcall 64, .rollcallRspReceive 128 [], .rollcallWindowEnd 128]
theorem test_wf_refuses1 : (illFormed1.all fun i => i.wf == false) = true := by decide +kernel

/-- The same. -/
def illFormed2 : List Instr :=
  [.calAckTimeout 128, .nackReportReceive 128 [], .presentSchedule 64, .launchIdleStart 128, .presentLaunch 128, .hold 64,
   .merFreqAdjWrite (2 ^ 40), .merServoOffsetWrite (2 ^ 32), .servoSample (-(2 ^ 39) - 1), .servoSample (2 ^ 39),
   .ptpMessageReceive 128 [] 0, .ptpSyncInterval 128, .ptpAnnounceInterval 128, .triggerArm 16 0, .triggerArm 0 (2 ^ 32),
   .triggerDisarm 16 0, .triggerDisarm 0 (2 ^ 32), .triggerInstant 16, .triggerPulseEnd 16, .portConfig 64, .portMeasure 64,
   .autoNegotiationDone 128 0 0, .linkTrainingDone 128, .linkTrainingTimeout 128, .linkLockHeld 128, .linkLoss 128,
   .linkFlapHoldEnd 128, .laneAdaptStep 128 0 [], .laneAdaptStep 0 0 (List.replicate 17 0), .frameLookup 146 [] 0 0 0]
theorem test_wf_refuses2 : (illFormed2.all fun i => i.wf == false) = true := by decide +kernel

/-- The same. -/
def illFormed3 : List Instr :=
  [.frameLookup 128 (List.replicate 9213 0) 0 0 0, .frameLookup 0 [] 4 0 0, .pauseFrameReceive 128 [], .tableUpdate 64,
   .tableFenceReached 3, .tableFenceTimeout 3, .mirrorSet 64, .d2dFlitRetry 2, .dieLinkDown 2, .dieLinkRetrain 2,
   .dieLinkReturn 2, .tmFrameSelect 130, .shaperSet 64, .shaperRefill 130 0, .shaperRefill 0 8, .meterSet 64, .gateListSet 64,
   .gateListStart 130, .gateEntryChange 130, .intSrcAck 1024, .hardwareFault 1024 0 [], .hardwareFault 0 80 [],
   .hardwareFault 0 0 (List.replicate 64 0), .ucResetDone 256, .fltStickyClear 32 0, .fltStickyClear 0 (2 ^ 32), .fltTest 4,
   .surveyArm 64, .surveyRead 64, .mergeReadReturn 2 0 [] 0 0]
theorem test_wf_refuses3 : (illFormed3.all fun i => i.wf == false) = true := by decide +kernel

/-- The same. -/
def illFormed4 : List Instr :=
  [.mergeReadReturn 0 0x30000000 [] 0 0, .mergeReadReturn 0 0 [(32, [0])] 0 0, .mergeReadReturn 0 0 [] 16 0,
   .mergeEntryTimeout 2, .retrainHold 2 [] (List.replicate 128 (0, 0, 0)),
   .retrainHold 0 [(16, 0)] (List.replicate 128 (0, 0, 0)), .retrainHold 0 [] [], .retrainDeferred 2, .hbmScrubStep 2 0,
   .sramScrubStep 4096 0 0 false, .sramScrubStep 0 0 80 false, .eccFlipArm (2 ^ 32),
   .powerOnReset ⟨false, false, 0, 64, true, false, 16⟩, .powerOnReset ⟨false, false, 4, 64, true, false, 15⟩, .pllLock 6,
   .pllUnlock 6, .pllRelockTimeout 6, .clkPllFreqWrite 6 0, .clkPllFreqWrite 0 (2 ^ 12), .clkMeasStart (2 ^ 32),
   .clockGateIdleClose 80, .gateBusyTimeout 80, .drainReplyTimeout 80, .perstDeassert 4, .rstWarm (2 ^ 32), .rstDomainGo 128,
   .hbmTrainingDone (false, false) (false, false) [] (0, 0), .powerState 64, .watchConfig 64, .powerUnitAnswer 80 0]
theorem test_wf_refuses4 : (illFormed4.all fun i => i.wf == false) = true := by decide +kernel

/-- The same. -/
def illFormed5 : List Instr :=
  [.powerUnitAnswer 0 65536, .powerDeferRetry 80, .autoDomainGate 80, .domainWakeDone 80,
   .watchSample [] (List.replicate 12 0) [] false, .watchSample (List.replicate 32 0) [] [] false,
   .watchSample (List.replicate 32 0) (List.replicate 12 0) [128] false, .wakeEvent 128 none, .editionLoad 64, .editionSelect 64,
   .fwStage 64, .fwActivate 64, .attest 64, .diagLifecycle 64, .diagOwnerBind 64, .diagPatchLoad 64, .wearCurveSet 64,
   .doseSave 64, .doseLoad 64, .diagBgRead 64, .telemetryArm 64, .sensorSample [] (List.replicate 12 0),
   .sensorSample (List.replicate 32 0) [], .smbusSetOffset (2 ^ 32), .smbusWrite (2 ^ 32), .registerWrite .word 0x4000000 0,
   .registerWrite .pair 0x4000000 0, .registerWrite .page 0x100000 0, .registerWrite .config 4096 0,
   .registerWrite (.window 4097 0) 0 0]
theorem test_wf_refuses5 : (illFormed5.all fun i => i.wf == false) = true := by decide +kernel

/-- The same. -/
def illFormed6 : List Instr :=
  [.registerWrite (.window 0 0) 0 0, .registerWrite (.window 8 0) (2 ^ 34 - 7) 0, .registerWrite .word 0 (2 ^ 32),
   .registerWrite .pair 0 (2 ^ 64), .registerWrite .page 0 (2 ^ 32), .registerWrite .config 0 0,
   .registerWrite (.window 3 0) 0 (2 ^ 24), .rcRegisterRead .word 0x4000000, .rcRegisterRead .pair 0x4000000,
   .rcRegisterRead .page 0x100000, .rcRegisterRead .config 4096, .rcRegisterRead (.window 4097 0) 0,
   .rcRegisterRead (.window 0 0) 0, .rcRegisterRead (.window 8 0) (2 ^ 34 - 7), .d2dLinkLoss 2, .pcieLinkReturn 6 0,
   .pcieLinkReturn 0 17, .pauseQuantaExpiry 128, .ptpDelayReqInterval 128, .equaliserEstimateDone 128 [],
   .equaliserEstimateDone 0 [], .equaliserEstimateDone 0 (List.replicate 5 (0, 0))]
theorem test_wf_refuses6 : (illFormed6.all fun i => i.wf == false) = true := by decide +kernel

def wellFormed : List Instr :=
  [.sqDoorbellKick 0xFFFFF [(2 ^ 64 - 1, [0])], .sqPoll 63 [] true, .frameLookup 145 [] 3 0 0, .mergeReadReturn 1 0x2FFFFFFF [(31, [0])] 15 0,
   .retrainHold 0 [(15, 0)] (List.replicate 128 (0, 0, 0)), .registerWrite .word 0x3FFFFFF 0xFFFFFFFF, .registerWrite (.window 8 0) (2 ^ 34 - 8) (2 ^ 64 - 1), .powerState 63, .servoSample (-(2 ^ 39))]
theorem test_wf_takes : (wellFormed.all fun i => i.wf) = true := by decide +kernel
/-! ### States for the commands of the rings -/

def pools (s : State) : State := setF (setF s Rg.PRJ_POOL_SIZE 0 1000) Rg.SCR_POOL_SIZE 0 1000

/-- Eight views with a schedule of 60 Hz that runs; Meridian time is valid. -/
def sched : Sched := ⟨8, 16666666 * 65536, 0, List.replicate 8 (zeros 16)⟩
def showing : State :=
  let s := setF (pools up) Rg.MER_STATUS_TIME_VALID 0 1
  { s with sht := { s.sht with running := some sched } }

/-- A stream of 1920 × 1080 HEVC from the host. -/
def hevcOpen : List Byte := entry Op.streamOpen 3 0x10000 0x100000
  [0, 0, 0, 0, 0x80, 7, 0x38, 4, 8, 0, 4, 0, 0x10, 0x4B, 0xFE, 0, 0x10, 0x27]
def openStream (x : Stream) : State := setStream (pools up) 3 { x with state := stRunning, opened := hevcOpen }

/-- A sheet of 64 × 64 on port 0, Contour if c. -/
def sheet (c : Bool) : List Byte := (leBytes 2 0 ++ leBytes 2 0 ++ leBytes 4 0 ++ leBytes 2 64 ++ leBytes 2 64 ++ zeros 52).set 0 (if c then 48 else 0)

/-! ### Commands of the rings -/

theorem test_meets_nop : ∃ r f rest s, MayBegin (.nop 0) 0 r f rest s ∧ r.start (popped s 0 rest) f.entry = .run :=
  ⟨_, ⟨0, entry Op.nop 0 0 0 []⟩, [], queued up (entry Op.nop 0 0 0 []), mayBegin_of rfl (by decide +kernel), by decide +kernel⟩

theorem test_meets_finish : ∃ r f rest s, MayBegin (.wearCurveSet 0) 0 r f rest s ∧
    r.start (popped s 0 rest) f.entry = .finish St.okZero 0 0 :=
  ⟨_, ⟨0, entry Op.wearCurveSet 0 0 0 []⟩, [], queued up (entry Op.wearCurveSet 0 0 0 []), mayBegin_of rfl (by decide +kernel),
    by decide +kernel⟩

theorem test_meets_read : ∃ r f rest s, MayBegin (.wearCurveSet 0) 0 r f rest s ∧
    r.start (popped s 0 rest) f.entry = .read 4096 384 none :=
  ⟨_, ⟨0, entry Op.wearCurveSet 0 4096 384 []⟩, [], queued up (entry Op.wearCurveSet 0 4096 384 []), mayBegin_of rfl (by decide +kernel),
    by decide +kernel⟩

/-- A fenced entry behind a command that has not completed. -/
theorem test_meets_fence : ∃ r f rest s, rowOf (.nop 0) = some (0, r) ∧ readyCmd s 0 r.opcode r.sel = none ∧
    (getSq s 0).queue = f :: rest ∧ eFence f.entry = true ∧ fenceClear s 0 = false :=
  ⟨_, ⟨0, (entry Op.nop 0 0 0 []).set 1 0x81⟩, [], queued (given up (entry Op.hold 0 0 0 []) []) ((entry Op.nop 0 0 0 []).set 1 0x81),
    rfl, by decide +kernel⟩

/-- 64 completions held. -/
theorem test_meets_held : ∃ r f rest s, rowOf (.nop 0) = some (0, r) ∧ readyCmd s 0 r.opcode r.sel = none ∧
    (getSq s 0).queue = f :: rest ∧ 64 ≤ (getCq s (cqOf s 0)).held.length :=
  ⟨_, ⟨0, entry Op.nop 0 0 0 []⟩, [], setCq (queued up (entry Op.nop 0 0 0 []))
    0 { CqRing.init with held := List.replicate 64 ⟨0, 0, 0, 0, false, 0, 0, 0⟩ }, rfl, by decide +kernel⟩

theorem test_meets_echo : ∃ r c s, DataIn (.diagEcho 0) 0 r c s :=
  ⟨_, command (entry Op.diag 0 0 4 []) (zeros 4), given up (entry Op.diag 0 0 4 []) (zeros 4), dataIn_of rfl (by decide +kernel)⟩

theorem test_meets_surveyArm : ∃ r f rest s, MayBegin (.surveyArm 0) 0 r f rest s ∧ startSurveyArm s f.entry = .run :=
  ⟨_, ⟨0, entry Op.surveyArm 0 4096 0x100000 []⟩, [], queued up (entry Op.surveyArm 0 4096 0x100000 []), mayBegin_of rfl (by decide +kernel),
    by decide +kernel⟩

theorem test_meets_telemetryArm : ∃ r f rest s, MayBegin (.telemetryArm 0) 0 r f rest s ∧ startTelemetryArm s f.entry = .run :=
  ⟨_, ⟨0, entry Op.telemetryArm 0 4096 4096 []⟩, [], queued up (entry Op.telemetryArm 0 4096 4096 []), mayBegin_of rfl (by decide +kernel),
    by decide +kernel⟩

theorem test_meets_attest : ∃ r f rest s, MayBegin (.attest 0) 0 r f rest s ∧ startAttest s f.entry = .run :=
  ⟨_, ⟨0, entry Op.attest 0 4096 320 []⟩, [], queued { up with sec := { up.sec with otp := { up.sec.otp with idKey := true } } }
    (entry Op.attest 0 4096 320 []), mayBegin_of rfl (by decide +kernel), by decide +kernel⟩

theorem test_meets_surveyRead : ∃ r f rest s, MayBegin (.surveyRead 0) 0 r f rest s ∧ startSurveyRead s f.entry = .run :=
  ⟨_, ⟨0, entry Op.diag 0 4096 320 [0x40]⟩, [], queued { up with ev := { up.ev with flashSurvey := [1, 2] } }
    (entry Op.diag 0 4096 320 [0x40]), mayBegin_of rfl (by decide +kernel), by decide +kernel⟩

theorem test_meets_bgRead : ∃ r f rest s, MayBegin (.diagBgRead 0) 0 r f rest s ∧ startBgRead s f.entry = .run :=
  ⟨_, ⟨0, entry Op.diag 0 4096 4096 [0x70]⟩, [], queued up (entry Op.diag 0 4096 4096 [0x70]), mayBegin_of rfl (by decide +kernel),
    by decide +kernel⟩

theorem test_meets_streamOpen : ∃ r f rest s, MayBegin (.streamOpen 0) 0 r f rest s ∧ startStreamOpen s f.entry = .run :=
  ⟨_, ⟨0, hevcOpen⟩, [], queued (pools up) hevcOpen, mayBegin_of rfl (by decide +kernel), by decide +kernel⟩

theorem test_meets_conceal : ∃ r f rest s, MayBegin (.streamConcealSet 0) 0 r f rest s ∧ startStreamConcealSet s f.entry = .run :=
  ⟨_, ⟨0, entry Op.streamConcealSet 3 0 0 []⟩, [], queued (openStream Stream.init) (entry Op.streamConcealSet 3 0 0 []),
    mayBegin_of rfl (by decide +kernel), by decide +kernel⟩

theorem test_meets_close : ∃ r f rest s, MayBegin (.streamClose 0) 0 r f rest s ∧ startStreamClose s f.entry = .run ∧
    (getStream s (eTarget f.entry)).job = none :=
  ⟨_, ⟨0, entry Op.streamClose 3 0 0 []⟩, [], queued (openStream Stream.init) (entry Op.streamClose 3 0 0 []),
    mayBegin_of rfl (by decide +kernel), by decide +kernel⟩

/-! A unit on a core, and a picture of it. -/
def noPicture : Picture := ⟨0, 0, [], 0, false, []⟩
def unit0 : Au := ⟨[1, 2], [], [], [], none, 0, 0, none, true, false, false, 0⟩
def onCore (core : Nat) : Job :=
  ⟨unit0, core, none, noPicture, [], false, false, false, 0, none, 0, 0, false, false, 0, false, false, 0, false, true, [], false⟩

/-- A core waits for input, or runs. -/
def closingState (b : Bool) : State :=
  setCoreState (queued (openStream { Stream.init with job := some (onCore 2) }) (entry Op.streamClose 3 0 0 [])) 2 (if b then coreWait else coreIdle)

theorem test_meets_closing : ∀ b : Bool, ∃ r f rest s j, MayBegin (.streamClose 0) 0 r f rest s ∧ startStreamClose s f.entry = .run ∧
    (getStream s (eTarget f.entry)).job = some j ∧ (coreState s j.core = coreWait ↔ b = true) := fun b =>
  ⟨_, ⟨0, entry Op.streamClose 3 0 0 []⟩, [], closingState b, onCore 2, mayBegin_of rfl (by cases b <;> decide +kernel),
    by cases b <;> decide +kernel⟩

def dataEntry : List Byte := entry Op.streamData 3 0 4 []

theorem test_meets_streamData : ∃ s c r w, DataIn (.streamData 0) 0 r c s ∧
    (getStream s (eTarget c.entry)).state ≠ stClosed ∧ (getStream s (eTarget c.entry)).state ≠ stClosing ∧
    ((getStream s (eTarget c.entry)).waits ++ [(c.id, c.data)]).find? (fun w =>
      (findCmd (markPast s c) w.1).any fun c => eAddr c.entry + eLen c.entry == (getStream s (eTarget c.entry)).offset + w.2.length) = some w :=
  ⟨given (openStream Stream.init) dataEntry (zeros 4), command dataEntry (zeros 4), _, (0, zeros 4), dataIn_of rfl (by decide +kernel),
    by decide +kernel⟩

theorem test_meets_streamDataClosed : ∃ s c r, DataIn (.streamData 0) 0 r c s ∧ (getStream s (eTarget c.entry)).state = stClosed :=
  ⟨given up dataEntry (zeros 4), command dataEntry (zeros 4), _, dataIn_of rfl (by decide +kernel), by decide +kernel⟩

/-- No bytes, with EOS. -/
theorem test_meets_streamDataEnd : ∃ r f rest s, MayBegin (.streamData 0) 0 r f rest s ∧ startStreamData s f.entry = .run :=
  ⟨_, ⟨0, entry Op.streamData 3 0 0 [1]⟩, [], queued (openStream Stream.init) (entry Op.streamData 3 0 0 [1]), mayBegin_of rfl (by decide +kernel),
    by decide +kernel⟩

theorem test_meets_streamDataResume : ∃ (s : State) (c : Cmd) (w : Nat × List Byte), (getStream s 3).waits.find? (fun w =>
      (findCmd s w.1).any fun c => eAddr c.entry + eLen c.entry == (getStream s 3).offset + w.2.length) = some w ∧
    findCmd s w.1 = some c ∧ (getStream s 3).discard = 0 ∧ heldBytes (getStream s 3) + 4 ≤ inputBuffer (getStream s 3).opened :=
  ⟨given (openStream { Stream.init with waits := [(0, zeros 4)] }) dataEntry (zeros 4), command dataEntry (zeros 4), (0, zeros 4), by decide +kernel⟩

theorem test_meets_layerSet : ∃ r c s, DataIn (.layerSet 0) 0 r c s ∧ badRecord 128 badLayer (c.data.length / 128) 0 c.data = none :=
  ⟨_, command (entry Op.layerSet 7 0 128 [15]) (zeros 128), given up (entry Op.layerSet 7 0 128 [15]) (zeros 128),
    dataIn_of rfl (by decide +kernel), by decide +kernel⟩

def commit64 : List Byte := entry Op.viewCommit 0 0 0 [64, 0, 64, 0, 0, 0, 0, 0, 0, 0, 0, 0, 100, 0, 100, 0]

theorem test_meets_viewCommit : ∀ b : Bool, ∃ r f rest s, MayBegin (.viewCommit 0) 0 r f rest s ∧ startViewCommit s f.entry = .run ∧
    ((scheduleOf s (eTarget f.entry)).isSome = b) ∧
    (∀ e ∈ (planOf s).entries, gEnabled e.2 = true → gView e.2 = eTarget f.entry →
      outside (commitParams (getView s (eTarget f.entry)) f.entry) e.2 = false) ∧
    let plan : Plan := { planOf s with
      views := (planOf s).views.set (eTarget f.entry) (commitParams (getView s (eTarget f.entry)) f.entry) }
    pixelSumOk plan = true ∧ loadCheck (begun s 0 f rest).2 plan = none ∧
    projectionFits s (newPair (latitudeOrder s) (getView s (eTarget f.entry)) (commitParams (getView s (eTarget f.entry)) f.entry)) = true := fun b =>
  ⟨_, ⟨0, commit64⟩, [], queued (if b then showing else pools up) commit64, mayBegin_of rfl (by cases b <;> decide +kernel),
    by cases b <;> decide +kernel⟩

def onePixel : Surface := ⟨1, 1, [[((0, 0, 0), 0)]], [[((0, 0, 0), 0)]], [], []⟩
def oneSurface : State := { up with prj := { up.prj with surfaces := [(5, some onePixel)] } }
def writeEntry : List Byte := entry Op.surfaceWrite 5 0 8 ([0, 0, 0, 0, 1, 0, 1, 0] ++ List.replicate 5 0 ++ [2])

theorem test_meets_surfaceWrite : ∃ s c x r, DataIn (.surfaceWrite 0) 0 r c s ∧ s.prj.surfaceWait = [] ∧ wReleases c.entry = false ∧
    wDefine c.entry = false ∧ getSurface s (eTarget c.entry) = some x ∧ surfaceBlocked x c.entry (!c.data.isEmpty) = false :=
  ⟨given oneSurface writeEntry (zeros 8), command writeEntry (zeros 8), onePixel, _, dataIn_of rfl (by decide +kernel), by decide +kernel⟩

/-- PUBLISH alone; and DEFINE with zeros, which releases. -/
theorem test_meets_surfacePublish : (∃ r f rest s x, MayBegin (.surfaceWrite 0) 0 r f rest s ∧ startSurfaceWrite (popped s 0 rest) f.entry = .run ∧
      s.prj.surfaceWait = [] ∧ wReleases f.entry = false ∧ getSurface s (eTarget f.entry) = some x ∧ surfaceBlocked x f.entry false = false) ∧
    ∃ r f rest s, MayBegin (.surfaceWrite 0) 0 r f rest s ∧ startSurfaceWrite (popped s 0 rest) f.entry = .run ∧
      s.prj.surfaceWait = [] ∧ wReleases f.entry = true :=
  ⟨⟨_, ⟨0, entry Op.surfaceWrite 5 0 0 (List.replicate 13 0 ++ [2])⟩, [],
      queued oneSurface (entry Op.surfaceWrite 5 0 0 (List.replicate 13 0 ++ [2])), onePixel, mayBegin_of rfl (by decide +kernel), by decide +kernel⟩,
    ⟨_, ⟨0, entry Op.surfaceWrite 5 0 0 (List.replicate 13 0 ++ [1])⟩, [],
      queued oneSurface (entry Op.surfaceWrite 5 0 0 (List.replicate 13 0 ++ [1])), mayBegin_of rfl (by decide +kernel), by decide +kernel⟩⟩

theorem test_meets_surfaceResume : ∃ s c d rest x, eTarget c.entry = 5 ∧ s.prj.surfaceWait = (c.id, d) :: rest ∧ (∀ p ∈ rest, p.1 ≠ c.id) ∧
    findCmd s c.id = some c ∧ wReleases c.entry = false ∧ wDefine c.entry = false ∧ getSurface s 5 = some x ∧
    surfaceBlocked x c.entry (!d.isEmpty) = false :=
  ⟨{ given oneSurface writeEntry (zeros 8) with prj := { oneSurface.prj with surfaceWait := [(0, zeros 8)] } },
    command writeEntry (zeros 8), zeros 8, [], onePixel, by decide +kernel⟩

theorem test_meets_gazetteer : ∀ b : Bool, ∃ r c s, DataIn (.gazetteerUpdate 0) 0 r c s ∧
    (if b then ∀ v, v < 8 → (scheduleOf s v).isSome = true else s.sht.running = none ∧ s.prj.gztStaged = []) ∧
    let m := markPast s c
    let l := (records 64 (c.data.length / 64) c.data).zipIdx.map fun p => (eTarget c.entry + p.2, kept gztMask p.1)
    let p := planOf { m with prj := { s.prj with gztStaged := s.prj.gztStaged ++ [⟨c.id, l, none, mst s⟩] } }
    l ≠ [] ∧ firstBadEntry m p l = none ∧ loadCheck m p = none ∧ admits m p 0 = true ∧ scribeFits m p 0 = true := fun b =>
  ⟨_, command (entry Op.gazetteerUpdate 4095 0 64 []) (zeros 64),
    given (if b then showing else pools up) (entry Op.gazetteerUpdate 4095 0 64 []) (zeros 64),
    dataIn_of rfl (by cases b <;> decide +kernel), by cases b <;> decide +kernel⟩

/-- For a sheet that is enabled, and for one that is not. -/
theorem test_meets_sheetCal : ∀ b : Bool, ∃ r c s, DataIn (.sheetCalSet 0) 0 r c s ∧ (∀ v, v < 8 → (scheduleOf s v).isSome = true) ∧
    s.prj.calStaged = [] ∧ (records 32 (c.data.length / 32) c.data) ≠ [] ∧
    (∀ i, i < c.data.length / 32 → gEnabled (gztEntry s (eTarget c.entry + i)) = b ∧ willEnable s (eTarget c.entry + i) = false) := fun b =>
  ⟨_, command (entry Op.sheetCalSet 9 0 32 []) (zeros 32),
    given { showing with prj := { showing.prj with gzt := if b then [(9, sheet false)] else [] } } (entry Op.sheetCalSet 9 0 32 []) (zeros 32),
    dataIn_of rfl (by cases b <;> decide +kernel), by cases b <;> decide +kernel⟩

/-- One view, 60 Hz, 2 ms ahead. -/
def scheduleEntry : List Byte :=
  entry Op.presentSchedule 0 0 16 ([1, 0, 0, 0] ++ [0x2A, 0x51, 0xFE, 0] ++ [0, 0, 0, 0] ++ [0x80, 0x84, 0x1E, 0])

/-- Delay 1 ms, no port masked. -/
def oneView : List Byte := leBytes 4 0 ++ leBytes 4 1000000 ++ zeros 8

theorem test_meets_presentSchedule : ∃ r c s, DataIn (.presentSchedule 0) 0 r c s ∧
    let rs := records 16 (psViews c.entry) c.data
    let k : Sched := ⟨psViews c.entry, psPeriod c.entry, psStart c.entry, rs⟩
    let m := markPast s c
    let p : Plan := { planOf m with sched := some k }
    recordsBad k.period 0 0 rs = none ∧ getB s Rg.MER_STATUS_TIME_VALID = true ∧ 1000000 ≤ mstDiff k.start (mst s) ∧
    p.badPort m = none ∧ p.loadOk = true ∧ admits m p 0 = true ∧ scribeFits m p 0 = true :=
  ⟨_, command scheduleEntry oneView, given showing scheduleEntry oneView, dataIn_of rfl (by decide +kernel), by decide +kernel⟩

theorem test_meets_holdTimed : ∃ r f rest s, MayBegin (.hold 0) 0 r f rest s ∧ startHold s f.entry = .run ∧
    bit (hFlags f.entry) 3 = true ∧ 0 < mstDiff (leAt f.entry 24 4) (mst s) :=
  ⟨_, ⟨0, entry Op.hold 1 0 0 [8, 0, 0, 0, 1]⟩, [], queued up (entry Op.hold 1 0 0 [8, 0, 0, 0, 1]), mayBegin_of rfl (by decide +kernel),
    by decide +kernel⟩

theorem test_meets_resume : ∀ b : Bool, ∃ r f rest s, MayBegin (.hold 0) 0 r f rest s ∧ startHold s f.entry = .run ∧
    bit (hFlags f.entry) 3 = false ∧ hResume (hFlags f.entry) = b := fun b =>
  ⟨_, ⟨0, entry Op.hold 1 0 0 [b.toNat]⟩, [], queued up (entry Op.hold 1 0 0 [b.toNat]), mayBegin_of rfl (by cases b <;> decide +kernel),
    by cases b <;> decide +kernel⟩

/-- A port of 200G on optics, up. -/
def portCfg (p : Nat) : List Byte := entry Op.portConfig p 0 0 [1, 3, 0, 1, 0, 0, 0xEE, 5, 0, 0, 0]
def withPort (s : State) (p : Nat) : State :=
  setF { s with ports := s.ports.set p { Port.init with cfg := portCfg p } Port.init } Rg.PRT_STATUS_STATE p prtUp

theorem test_meets_rollcall : ∃ r f rest s, MayBegin (.rollcall 0) 0 r f rest s ∧ startRollcall s f.entry = .run :=
  ⟨_, ⟨0, entry Op.rollcall 127 0 1024 []⟩, [], queued (withPort up 127) (entry Op.rollcall 127 0 1024 []), mayBegin_of rfl (by decide +kernel),
    by decide +kernel⟩

/-- CAL_PUSH to position 3. -/
theorem test_meets_calPush : ∃ r c s, DataIn (.rollcall 0) 0 r c s ∧ rcAction c.entry = 2 ∧ getPush s (eTarget c.entry) = none :=
  ⟨_, command (entry Op.rollcall 127 0 64 [2, 3]) (zeros 64), given (withPort up 127) (entry Op.rollcall 127 0 64 [2, 3]) (zeros 64),
    dataIn_of rfl (by decide +kernel), by decide +kernel⟩

theorem test_meets_rcCapture : ∃ r f rest s, MayBegin (.rcCapture 0) 0 r f rest s ∧ startRcCapture s f.entry = .run :=
  ⟨_, ⟨0, entry Op.diag 4095 0 4096 [0x30, 1]⟩, [], queued { up with prj := { up.prj with gzt := [(4095, sheet true)] } }
    (entry Op.diag 4095 0 4096 [0x30, 1]), mayBegin_of rfl (by decide +kernel), by decide +kernel⟩

/-- The entry of PORT_CONFIG with an action: 0 disables, 1 enables, 2 starts again. -/
def portAct (a : Nat) : List Byte := (portCfg 127).set 20 (BitVec.ofNat 8 a)

/-- ENABLE of a disabled port, of one with that configuration; DISABLE, and RESTART. -/
theorem test_meets_portConfig : (∃ r f rest s, MayBegin (.portConfig 0) 0 r f rest s ∧ startPortConfig s f.entry = .run ∧
      pcAction f.entry = 1 ∧ portEnabled s (eTarget f.entry) = false ∧ bondLanes (eTarget f.entry) f.entry = [eTarget f.entry]) ∧
    (∃ r f rest s, MayBegin (.portConfig 0) 0 r f rest s ∧ startPortConfig s f.entry = .run ∧ pcAction f.entry = 1 ∧
      portEnabled s (eTarget f.entry) = true ∧ softChange (getPort s (eTarget f.entry)).cfg (kept portMask f.entry) = true) ∧
    ∀ b : Bool, ∃ r f rest s, MayBegin (.portConfig 0) 0 r f rest s ∧ startPortConfig s f.entry = .run ∧
      portEnabled s (eTarget f.entry) = true ∧ pcAction f.entry = 2 * b.toNat :=
  ⟨⟨_, ⟨0, portCfg 127⟩, [], queued up (portCfg 127), mayBegin_of rfl (by decide +kernel), by decide +kernel⟩,
    ⟨_, ⟨0, portCfg 127⟩, [], queued (withPort up 127) (portCfg 127), mayBegin_of rfl (by decide +kernel), by decide +kernel⟩,
    fun b => ⟨_, ⟨0, portAct (2 * b.toNat)⟩, [], queued (withPort up 127) (portAct (2 * b.toNat)), mayBegin_of rfl (by cases b <;> decide +kernel),
      by cases b <;> decide +kernel⟩⟩

/-- Without and with REFRESH. -/
theorem test_meets_portMeasure : ∀ b : Bool, ∃ r f rest s, MayBegin (.portMeasure 0) 0 r f rest s ∧ startPortMeasure s f.entry = .run ∧
    bit (leAt f.entry 20 1) 0 = b := fun b =>
  ⟨_, ⟨0, entry Op.portMeasure 127 0 64 [b.toNat]⟩, [], queued (withPort up 127) (entry Op.portMeasure 127 0 64 [b.toNat]),
    mayBegin_of rfl (by cases b <;> decide +kernel), by cases b <;> decide +kernel⟩

/-- One flow entry, index 8191, not valid. -/
def flowEntry : List Byte := leBytes 2 8191 ++ zeros 30

/-- With no update of the table in progress; behind one at its fence; CLEAR. -/
theorem test_meets_tableUpdate : (∃ r c s, DataIn (.tableUpdate 0) 0 r c s ∧ tTable c.entry ≤ 2 ∧ tOp c.entry < 2 ∧
      (∀ x ∈ s.sw.updates, x.cmd ≠ c.id) ∧ ∀ x ∈ s.sw.updates, x.table ≠ tTable c.entry) ∧
    (∃ r c s, DataIn (.tableUpdate 0) 0 r c s ∧ tTable c.entry ≤ 2 ∧ tOp c.entry < 2 ∧ (∀ x ∈ s.sw.updates, x.cmd ≠ c.id) ∧
      ∃ x, s.sw.updates.find? (·.table == tTable c.entry) = some x ∧ x.since.isSome = true) ∧
    ∃ r f rest s, MayBegin (.tableUpdate 0) 0 r f rest s ∧ startTableUpdate s f.entry = .run ∧
      ∀ x ∈ s.sw.updates, x.table ≠ tTable f.entry ∧ x.cmd ≠ s.hif.cmdSeq :=
  ⟨⟨_, command (entry Op.tableUpdate 0 0 32 [1, 0]) flowEntry, given up (entry Op.tableUpdate 0 0 32 [1, 0]) flowEntry,
      dataIn_of rfl (by decide +kernel), by decide +kernel⟩,
    ⟨_, command (entry Op.tableUpdate 0 0 32 [1, 0]) flowEntry,
      { given up (entry Op.tableUpdate 0 0 32 [1, 0]) flowEntry with sw := { up.sw with updates := [⟨5, 1, 2, [], some 0⟩] } },
      dataIn_of rfl (by decide +kernel), by decide +kernel, by decide +kernel, by decide +kernel, ⟨5, 1, 2, [], some 0⟩, by decide +kernel⟩,
    ⟨_, ⟨0, entry Op.tableUpdate 0 0 0 [1, 2]⟩, [], queued up (entry Op.tableUpdate 0 0 0 [1, 2]), mayBegin_of rfl (by decide +kernel),
      by decide +kernel⟩⟩

theorem test_meets_mirrorSet : ∃ r f rest s, MayBegin (.mirrorSet 0) 0 r f rest s ∧ startMirrorSet s f.entry = .run :=
  ⟨_, ⟨0, entry Op.mirrorSet 3 0 0 [1, 1, 4, 0, 5]⟩, [], queued up (entry Op.mirrorSet 3 0 0 [1, 1, 4, 0, 5]),
    mayBegin_of rfl (by decide +kernel), by decide +kernel⟩

/-- A disabled shaper; one that refills; one that does not. -/
theorem test_meets_shaperSet : (∃ r f rest s, MayBegin (.shaperSet 0) 0 r f rest s ∧ startShaperSet s f.entry = .run ∧
      sEnable f.entry = true ∧ (getShaper s (eTarget f.entry) (leAt f.entry 20 1)).enabled = false) ∧
    ∀ b : Bool, ∃ r f rest s, MayBegin (.shaperSet 0) 0 r f rest s ∧ startShaperSet s f.entry = .run ∧ sEnable f.entry = true ∧
      (getShaper s (eTarget f.entry) (leAt f.entry 20 1)).enabled = true ∧ (getShaper s (eTarget f.entry) (leAt f.entry 20 1)).next = [] ∧
      refilling (getShaper s (eTarget f.entry) (leAt f.entry 20 1)) = b :=
  ⟨⟨_, ⟨0, entry Op.shaperSet 129 0 0 [7, 1, 0, 0, 0, 1, 0, 0, 2]⟩, [], queued up (entry Op.shaperSet 129 0 0 [7, 1, 0, 0, 0, 1, 0, 0, 2]),
      mayBegin_of rfl (by decide +kernel), by decide +kernel⟩,
    fun b => ⟨_, ⟨0, entry Op.shaperSet 129 0 0 [7, 1, 0, 0, 0, 1, 0, 0, 2]⟩, [],
      queued (setShaper up 129 7 { Shaper.init with enabled := true, rate := b.toNat, burst := 9, credit := 0 })
        (entry Op.shaperSet 129 0 0 [7, 1, 0, 0, 0, 1, 0, 0, 2]),
      mayBegin_of rfl (by cases b <;> decide +kernel), by cases b <;> decide +kernel⟩⟩

/-- UNBIND_ALL. -/
theorem test_meets_meterUnbind : ∃ r f rest s, MayBegin (.meterSet 0) 0 r f rest s ∧ startMeterSet s f.entry = .run :=
  ⟨_, ⟨0, entry Op.meterSet 4095 0 0 [2]⟩, [], queued up (entry Op.meterSet 4095 0 0 [2]), mayBegin_of rfl (by decide +kernel), by decide +kernel⟩

theorem test_meets_meterSet : ∃ r c s, DataIn (.meterSet 0) 0 r c s ∧ c.data ≠ [] ∧
    badBinding s 0 (records 4 (c.data.length / 4) c.data) = none :=
  ⟨_, command (entry Op.meterSet 4095 0 4 []) (zeros 4), given up (entry Op.meterSet 4095 0 4 []) (zeros 4),
    dataIn_of rfl (by decide +kernel), by decide +kernel⟩

/-- A cycle of 1 ms from second 1 on, with one entry. -/
def gateEntry : List Byte := entry Op.gateListSet 127 0 8 [1, 0, 0, 0, 0, 0, 0, 0, 0, 0, 0, 0, 0x40, 0x42, 0x0F, 0]
def gateData : List Byte := leBytes 4 255 ++ leBytes 4 1000000

theorem test_meets_gateListSet : ∃ r c s, DataIn (.gateListSet 0) 0 r c s ∧ eTarget c.entry < 128 :=
  ⟨_, command gateEntry gateData, given up gateEntry gateData, dataIn_of rfl (by decide +kernel), by decide +kernel⟩

def noGates : List Byte := entry Op.gateListSet 127 0 0 [1, 0, 0, 0, 0, 0, 0, 0, 0, 0, 0, 0, 0x40, 0x42, 0x0F, 0]

theorem test_meets_gateListEmpty : ∃ r f rest s, MayBegin (.gateListSet 0) 0 r f rest s ∧ startGateListSet s f.entry = .run ∧
    gateStart (gBase f.entry) (gCycle f.entry) (mft16 s + getF s Rg.TM_CTRL_GATE_LEAD_US * 1000 * 65536) < mft16 s + 2000000000 * 65536 :=
  ⟨_, ⟨0, noGates⟩, [], queued up noGates, mayBegin_of rfl (by decide +kernel), by decide +kernel⟩

/-- POWER_STATE with bytes 20 to 31. -/
def pwrEntry (l : List Nat) : List Byte := entry Op.powerState 0 0 0 l
def toIdle : List Byte := pwrEntry [1, 0, 0, 0, 0, 0, 0, 0, 1]
/-- A domain and its policy. -/
def policyOf (d p : Nat) : List Byte := pwrEntry [0, 1, d, p]

/-- An alarm at this second; RUN, which is the present state; another that enters; IDLE, which begins; RUN from IDLE. -/
theorem test_meets_powerState : (∃ r f rest s, MayBegin (.powerState 0) 0 r f rest s ∧ startPowerState s f.entry = .run ∧
      findCmd s s.hif.cmdSeq = none ∧ alarmLate s f.entry = true) ∧
    (∃ r f rest s, MayBegin (.powerState 0) 0 r f rest s ∧ startPowerState s f.entry = .run ∧ findCmd s s.hif.cmdSeq = none ∧
      alarmLate s f.entry = false ∧ domainFlag f.entry = false ∧ leAt f.entry 20 1 = devState s) ∧
    (∀ b : Bool, ∃ r f rest s, MayBegin (.powerState 0) 0 r f rest s ∧ startPowerState s f.entry = .run ∧
      findCmd s s.hif.cmdSeq = none ∧ alarmLate s f.entry = false ∧ domainFlag f.entry = false ∧ leAt f.entry 20 1 ≠ devState s ∧
      entering s = b ∧ leAt f.entry 20 1 ≠ 0) ∧
    ∃ r f rest s, MayBegin (.powerState 0) 0 r f rest s ∧ startPowerState s f.entry = .run ∧ findCmd s s.hif.cmdSeq = none ∧
      alarmLate s f.entry = false ∧ domainFlag f.entry = false ∧ leAt f.entry 20 1 ≠ devState s ∧ entering s = false ∧ leAt f.entry 20 1 = 0 :=
  ⟨⟨_, ⟨0, pwrEntry [0, 4]⟩, [], queued up (pwrEntry [0, 4]), mayBegin_of rfl (by decide +kernel), by decide +kernel⟩,
    ⟨_, ⟨0, pwrEntry []⟩, [], queued up (pwrEntry []), mayBegin_of rfl (by decide +kernel), by decide +kernel⟩,
    fun b => ⟨_, ⟨0, toIdle⟩, [], queued { up with pwr := { up.pwr with committed := if b then some (3, 0, 0, 0) else none } } toIdle,
      mayBegin_of rfl (by cases b <;> decide +kernel), by cases b <;> decide +kernel⟩,
    ⟨_, ⟨0, pwrEntry []⟩, [], queued (setF up Rg.PWR_STATE_STATE 0 1) (pwrEntry []), mayBegin_of rfl (by decide +kernel), by decide +kernel⟩⟩

/-- ON of a domain retained, and of one on; AUTO of one held by a lane; of one used; of one that is asked. -/
theorem test_meets_policy : (∀ b : Bool, ∃ r f rest s, MayBegin (.powerState 0) 0 r f rest s ∧ startPowerState s f.entry = .run ∧
      findCmd s s.hif.cmdSeq = none ∧ alarmLate s f.entry = false ∧ domainFlag f.entry = true ∧ entering s = false ∧ leAt f.entry 23 1 = 0 ∧
      (domainState s (leAt f.entry 22 1) ∈ [domRetained, domOff, domWaking] ↔ b = true)) ∧
    (∃ r f rest s, MayBegin (.powerState 0) 0 r f rest s ∧ startPowerState s f.entry = .run ∧ findCmd s s.hif.cmdSeq = none ∧
      alarmLate s f.entry = false ∧ domainFlag f.entry = true ∧ entering s = false ∧ leAt f.entry 23 1 ≠ 0 ∧
      laneHolds s (leAt f.entry 22 1) = true) ∧
    ∀ b : Bool, ∃ r f rest s, MayBegin (.powerState 0) 0 r f rest s ∧ startPowerState s f.entry = .run ∧
      findCmd s s.hif.cmdSeq = none ∧ alarmLate s f.entry = false ∧ domainFlag f.entry = true ∧ entering s = false ∧ leAt f.entry 23 1 ≠ 0 ∧
      laneHolds s (leAt f.entry 22 1) = false ∧ (domainUsed s (leAt f.entry 22 1) || !domainOn s (leAt f.entry 22 1)) = b :=
  ⟨fun b => ⟨_, ⟨0, policyOf 42 0⟩, [], queued (setDomain up 42 (if b then domRetained else domOn)) (policyOf 42 0),
      mayBegin_of rfl (by cases b <;> decide +kernel), by cases b <;> decide +kernel⟩,
    ⟨_, ⟨0, policyOf 60 1⟩, [], queued (withPort up 0) (policyOf 60 1), mayBegin_of rfl (by decide +kernel), by decide +kernel⟩,
    fun b => ⟨_, ⟨0, policyOf 42 1⟩, [], queued (if b then withPort up 0 else up) (policyOf 42 1), mayBegin_of rfl (by cases b <;> decide +kernel),
      by cases b <;> decide +kernel⟩⟩

theorem test_meets_watchConfig : (∃ r c s, DataIn (.watchConfig 0) 0 r c s ∧ c.data ≠ [] ∧ c.data.length ≤ 128 ∧ c.data.length % 16 = 0) ∧
    ∃ r f rest s, MayBegin (.watchConfig 0) 0 r f rest s ∧ startWatchConfig s f.entry = .run :=
  ⟨⟨_, command (entry Op.watchConfig 0 0 128 []) (zeros 128), given up (entry Op.watchConfig 0 0 128 []) (zeros 128),
      dataIn_of rfl (by decide +kernel), by decide +kernel⟩,
    ⟨_, ⟨0, entry Op.watchConfig 0 0 0 [1]⟩, [], queued up (entry Op.watchConfig 0 0 0 [1]), mayBegin_of rfl (by decide +kernel), by decide +kernel⟩⟩

/-- ERASE of slot 3. -/
theorem test_meets_editionErase : ∃ r f rest s, MayBegin (.editionLoad 0) 0 r f rest s ∧ startEditionLoad s f.entry = .run ∧
    (dirOf s).seq + 1 < 2 ^ 32 :=
  ⟨_, ⟨0, entry Op.editionLoad 3 0 0 [1]⟩, [], queued up (entry Op.editionLoad 3 0 0 [1]), mayBegin_of rfl (by decide +kernel), by decide +kernel⟩

theorem test_meets_editionLoad : ∃ r c s, DataIn (.editionLoad 0) 0 r c s ∧ eTarget c.entry < 4 ∧ c.data ≠ [] ∧ (dirOf s).seq + 1 < 2 ^ 32 :=
  ⟨_, command (entry Op.editionLoad 3 0 64 []) (zeros 64), given up (entry Op.editionLoad 3 0 64 []) (zeros 64),
    dataIn_of rfl (by decide +kernel), by decide +kernel⟩

theorem test_meets_fwStage : ∃ r c s, DataIn (.fwStage 0) 0 r c s ∧ (dirOf s).seq + 1 < 2 ^ 32 :=
  ⟨_, command (entry Op.fwStage 0 0 64 []) (zeros 64), given up (entry Op.fwStage 0 0 64 []) (zeros 64),
    dataIn_of rfl (by decide +kernel), by decide +kernel⟩

theorem test_meets_editionSelect : ∃ r f rest s, MayBegin (.editionSelect 0) 0 r f rest s ∧ startEditionSelect s f.entry = .run :=
  ⟨_, ⟨0, entry Op.editionSelect 3 0 0 []⟩, [], queued up (entry Op.editionSelect 3 0 0 []), mayBegin_of rfl (by decide +kernel),
    by decide +kernel⟩

/-- Slot 1 holds a staged image. -/
def staged : State :=
  let f := { up.sec.flash with sizeMib := 64, sfdp := true, dirs := ({ Dir.init with seq := 1, fw := [(1, some 5)] }, Dir.init), fw := [(1, zeros 64)] }
  { up with sec := { up.sec with slot := some 0, flash := f } }

theorem test_meets_fwArm : ∃ r f rest s, MayBegin (.fwActivate 0) 0 r f rest s ∧ startFwActivate s f.entry = .run ∧
    (dirOf s).seq + 1 < 2 ^ 32 ∧ leAt f.entry 20 1 ≤ 1 ∧ stagedValid s = true :=
  ⟨_, ⟨0, entry Op.fwActivate 0 0 0 [1]⟩, [], queued staged (entry Op.fwActivate 0 0 0 [1]), mayBegin_of rfl (by decide +kernel),
    by decide +kernel⟩

theorem test_meets_fwConfirm : ∃ r f rest s, MayBegin (.fwActivate 0) 0 r f rest s ∧ startFwActivate s f.entry = .run ∧
    (dirOf s).seq + 1 < 2 ^ 32 ∧ leAt f.entry 20 1 = 2 ∧ getB s Rg.TOP_STATUS_TRIAL = true :=
  ⟨_, ⟨0, entry Op.fwActivate 0 0 0 [2, 1]⟩, [], queued (setF staged Rg.TOP_STATUS_TRIAL 0 1) (entry Op.fwActivate 0 0 0 [2, 1]),
    mayBegin_of rfl (by decide +kernel), by decide +kernel⟩

theorem test_meets_fwRevert : ∃ r f rest s, MayBegin (.fwActivate 0) 0 r f rest s ∧ startFwActivate s f.entry = .run ∧
    (dirOf s).seq + 1 < 2 ^ 32 ∧ leAt f.entry 20 1 = 3 :=
  ⟨_, ⟨0, entry Op.fwActivate 0 0 0 [3]⟩, [], queued staged (entry Op.fwActivate 0 0 0 [3]), mayBegin_of rfl (by decide +kernel),
    by decide +kernel⟩

theorem test_meets_fwConflict : ∀ b : Bool, ∃ r f rest s, MayBegin (.fwActivate 0) 0 r f rest s ∧ startFwActivate s f.entry = .run ∧
    (dirOf s).seq + 1 < 2 ^ 32 ∧
    if b then leAt f.entry 20 1 ≤ 1 ∧ stagedValid s = false else leAt f.entry 20 1 = 2 ∧ getB s Rg.TOP_STATUS_TRIAL = false := fun b =>
  ⟨_, ⟨0, entry Op.fwActivate 0 0 0 [if b then 1 else 2]⟩, [], queued up (entry Op.fwActivate 0 0 0 [if b then 1 else 2]),
    mayBegin_of rfl (by cases b <;> decide +kernel), by cases b <;> decide +kernel⟩

/-- To RETIRED; and to LOCKED, with its token. -/
theorem test_meets_lifecycle : (∃ r f rest s, MayBegin (.diagLifecycle 0) 0 r f rest s ∧ startLifecycle s f.entry = .run) ∧
    ∃ r c s, DataIn (.diagLifecycle 0) 0 r c s ∧ leAt c.entry 21 1 = 1 :=
  ⟨⟨_, ⟨0, entry Op.diag 0 0 0 [0x50, 3]⟩, [], queued up (entry Op.diag 0 0 0 [0x50, 3]), mayBegin_of rfl (by decide +kernel), by decide +kernel⟩,
    ⟨_, command (entry Op.diag 0 0 96 [0x50, 1]) (zeros 96), given up (entry Op.diag 0 0 96 [0x50, 1]) (zeros 96),
      dataIn_of rfl (by decide +kernel), by decide +kernel⟩⟩

theorem test_meets_ownerBind : ∃ r c s, DataIn (.diagOwnerBind 0) 0 r c s :=
  ⟨_, command (entry Op.diag 0 0 192 [0x51]) (zeros 192), given up (entry Op.diag 0 0 192 [0x51]) (zeros 192), dataIn_of rfl (by decide +kernel)⟩

/-- A set; and CLEAR, in lifecycle state 1. -/
theorem test_meets_patchLoad : (∃ r c s, DataIn (.diagPatchLoad 0) 0 r c s ∧ c.data ≠ []) ∧
    ∃ r f rest s, MayBegin (.diagPatchLoad 0) 0 r f rest s ∧ startPatchLoad s f.entry = .run :=
  ⟨⟨_, command (entry Op.diag 0 0 1536 [0x60]) (zeros 1536), given up (entry Op.diag 0 0 1536 [0x60]) (zeros 1536),
      dataIn_of rfl (by decide +kernel), by decide +kernel⟩,
    ⟨_, ⟨0, entry Op.diag 0 0 0 [0x60, 1]⟩, [], queued (writeTmr up 0 1) (entry Op.diag 0 0 0 [0x60, 1]), mayBegin_of rfl (by decide +kernel),
      by decide +kernel⟩⟩

/-- Three curves that fall from 1.0 by 1 each 1,000. -/
def curveFile : List Byte := (List.range 48).flatMap fun k => leBytes 4 (1000 * (k % 16)) ++ leBytes 2 (32768 - k % 16) ++ zeros 2

theorem test_meets_wearCurveSet : (∃ r c s, DataIn (.wearCurveSet 0) 0 r c s ∧ c.data ≠ [] ∧ badCurves c.data = none) ∧
    ∃ r f rest s, MayBegin (.wearCurveSet 0) 0 r f rest s ∧ startWearCurveSet s f.entry = .run :=
  ⟨⟨_, command (entry Op.wearCurveSet 0 0 384 []) curveFile, given up (entry Op.wearCurveSet 0 0 384 []) curveFile,
      dataIn_of rfl (by decide +kernel), by decide +kernel⟩,
    ⟨_, ⟨0, entry Op.wearCurveSet 0 0 0 [1]⟩, [], queued up (entry Op.wearCurveSet 0 0 0 [1]), mayBegin_of rfl (by decide +kernel), by decide +kernel⟩⟩

/-- During a gain pass; a buffer too short; one long enough. -/
theorem test_meets_doseSave : ∀ k : Fin 3, ∃ r f rest s, MayBegin (.doseSave 0) 0 r f rest s ∧ startDoseSave s f.entry = .run ∧
    let n := (doseFile s (doseSheets s (eTarget f.entry) (leAt f.entry 20 2))).length
    if k = 0 then s.bg.pass.isSome = true else s.bg.pass = none ∧ (n ≤ eLen f.entry ↔ k = 2) := fun k =>
  let e := entry Op.doseSave 0 0 (if k = 2 then 64 else 40) [1]
  ⟨_, ⟨0, e⟩, [], queued { up with bg := { up.bg with pass := if k = 0 then some ⟨[], []⟩ else none } } e, mayBegin_of rfl (by revert k; decide +kernel),
    by revert k; decide +kernel⟩

/-- A dose file of one sheet of one block. -/
def doseHead : List Byte := leBytes 4 0x45534F44 ++ leBytes 2 1 ++ leBytes 2 1 ++ leBytes 4 92 ++ zeros 48
def doseBytes : List Byte :=
  doseHead ++ leBytes 4 (crc32c doseHead) ++ leBytes 2 9 ++ leBytes 2 1 ++ leBytes 2 1 ++ zeros 2 ++ leBytes 4 12 ++
  leBytes 4 (crc32c (leBytes 4 5 ++ zeros 8)) ++ leBytes 4 5 ++ zeros 8

/-- During a gain pass, and outside one with a file that is taken. -/
theorem test_meets_doseLoad : ∀ b : Bool, ∃ r c s, DataIn (.doseLoad 0) 0 r c s ∧ s.bg.pass.isSome = b ∧ 64 ≤ c.data.length ∧
    crc32c (c.data.take 60) = leAt c.data 60 4 ∧ leAt c.data 0 4 = 0x45534F44 ∧ leAt c.data 4 2 = 1 ∧ leAt c.data 8 4 = c.data.length ∧
    ∀ x ∈ doseRecords c.data (leAt c.data 6 2) 64, crc32c x.2.2.2.2.2 = x.2.2.2.2.1 ∧ doseSizeOk s x = true := fun b =>
  ⟨_, command (entry Op.doseLoad 0 0 92 []) doseBytes,
    given { up with prj := { up.prj with doseSize := [(9, some (16, 16))] }, bg := { up.bg with pass := if b then some ⟨[], []⟩ else none } }
      (entry Op.doseLoad 0 0 92 []) doseBytes,
    dataIn_of rfl (by cases b <;> decide +kernel), by cases b <;> decide +kernel⟩

/-! ### Completions and the host interface -/

/-- Rings 0 with depth 16 and their places in host memory; vector 0 unmasked. -/
def rings : State :=
  let s := setF (setF (setF up Rg.HIF_DBREC_BASE_BASE 0 1) Rg.HIF_SQ_BASE_BASE 0 2) Rg.HIF_SQ_CFG_DEPTH_EXP 0 4
  let s := setF (setF s Rg.HIF_CQ_BASE_BASE 0 3) Rg.HIF_CQ_CFG_DEPTH_EXP 0 4
  setVec (setF (setF s Rg.HIF_CQ_CFG_ENABLE 0 1) Rg.HIF_SQ_CTRL_ENABLE 0 1) 0 ⟨0xFEE00000, 1, false, false, none⟩

theorem test_meets_completion : ∃ (s : State) (c k : Cmd), findCmd s c.id = some k ∧ k.discard = false ∧ doseOp k = false ∧
    getB s Rg.HIF_CQ_CFG_ENABLE (cqOf s c.sq) = true ∧ hostReachable s = true ∧ cqFull s (cqOf s c.sq) = false ∧
    (getCq s (cqOf s c.sq)).held = [] ∧ (getCq s (cqOf s c.sq)).waiting = [] ∧
    cqBase s (cqOf s c.sq) + 16 * ((getCq s (cqOf s c.sq)).written % 16) + 16 ≤ 2 ^ 16 ∧ dbrec s = 4096 :=
  ⟨given rings (entry Op.nop 0 0 0 []) [], command (entry Op.nop 0 0 0 []) [], command (entry Op.nop 0 0 0 []) [], by decide +kernel⟩

theorem test_meets_queue : ∃ (c : Instr) (rest : List Instr) (s : State), s.pending = c :: rest :=
  ⟨.nop 0, [], { up with pending := [.nop 0] }, rfl⟩

theorem test_meets_idle : State.reset.pending = [] ∧ meridianRuns State.reset = false ∧ meridianRuns up = true := by decide +kernel

theorem test_meets_invariant : (SMap.sorted State.reset.regs && SMap.sorted State.reset.host) = true := by decide +kernel

def postedB (s : State) (q n : Nat) : Bool :=
  let d := (sqTail s q + 2 ^ 32 - (getSq s q).head) % 2 ^ 32
  s.hif.linkUp && decide (d ≤ sqDepth s q) && min d 8 == n && decide ((getSq s q).head + n < 2 ^ 32) &&
  (List.range n).all (fun i => eOwn (entryAt s q ((getSq s q).head + i)) == passValue ((getSq s q).head + i) (getF s Rg.HIF_SQ_CFG_DEPTH_EXP q) &&
    Op.all.contains (eOpcode (entryAt s q ((getSq s q).head + i)))) &&
  (getSq s q).queue.all fun f => Op.all.contains (eOpcode f.entry)

theorem posted_of {s : State} {q n : Nat} (h : postedB s q n = true) : Posted s q n := by
  simp only [postedB, Bool.and_eq_true, decide_eq_true_eq, beq_iff_eq, List.all_eq_true, List.mem_range] at h
  obtain ⟨⟨⟨⟨⟨a, b⟩, c⟩, d⟩, e⟩, f⟩ := h
  exact ⟨a, b, c, d, fun i k => (e i k).1, f, fun i k => (e i k).2⟩

/-- A NOP in the first slot and SQ_TAIL 1, written by the host. -/
def posting : List (Nat × List Byte) := [(0x2000, entry Op.nop 0 0 0 []), (0x1000, leBytes 4 1)]

theorem test_meets_poll : ∃ s st, sqState s 0 = sqAwake ∧ getF s Rg.HIF_STATUS_DSTATE = 0 ∧ Posted (hostStores s st) 0 1 :=
  ⟨rings, posting, by decide +kernel, by decide +kernel, posted_of (by decide +kernel)⟩

theorem test_meets_pollNothing : ∃ s, sqState s 0 = sqAwake ∧ getF s Rg.HIF_STATUS_DSTATE = 0 ∧ Posted (hostStores s []) 0 0 :=
  ⟨rings, by decide +kernel, by decide +kernel, posted_of (by decide +kernel)⟩

theorem test_meets_kick : ∃ s st, sqState s 0 = sqAsleep ∧ Posted (writeNeedsKick (hostStores s st) 0 false) 0 1 :=
  ⟨setSqState rings 0 sqAsleep, posting, by decide +kernel, posted_of (by decide +kernel)⟩

/-- SQ_TAIL a depth and one ahead. -/
theorem test_meets_overrun : sqState rings 0 = sqAwake ∧ getF rings Rg.HIF_STATUS_DSTATE = 0 ∧ rings.hif.linkUp = true ∧
    sqDepth rings 0 < (sqTail (hostStores rings [(0x1000, leBytes 4 17)]) 0 + 2 ^ 32 - (getSq rings 0).head) % 2 ^ 32 := by decide +kernel

theorem test_meets_kickInvalid : sqState up (4096 * 63 / 4096) = sqDisabled ∧ (4100 % 4096 ≠ 0) ∧ 64 ≤ (4096 * 64) / 4096 := by decide +kernel

theorem test_meets_sleep : ∃ s a, sqState s 0 = sqAwake ∧ (getSq s 0).idleSince = some a ∧ a + getF s Rg.HIF_CTRL_IDLE_US * 1000 ≤ s.now :=
  ⟨setSq { rings with now := 50000 } 0 { SqRing.init with idleSince := some 0 }, 0, by decide +kernel⟩

theorem test_meets_sqEnable : sqState rings 63 = sqDisabled ∧ 4 ≤ getF (setF rings Rg.HIF_SQ_CFG_DEPTH_EXP 63 16) Rg.HIF_SQ_CFG_DEPTH_EXP 63 ∧
    getB rings Rg.HIF_CQ_CFG_ENABLE (cqOf rings 63) = true ∧ (freeChannel rings).isSome = true := by decide +kernel

theorem test_meets_cqEnable : getB rings Rg.HIF_CQ_CFG_ENABLE 63 = false ∧ getB rings Rg.HIF_CQ_CFG_ENABLE 0 = true ∧ cqNamed rings 0 = true ∧
    cqNamed (setF rings Rg.HIF_CQ_CFG_ENABLE 63 1) 63 = false := by decide +kernel

theorem test_meets_sqStop : sqState rings 0 = sqAwake ∧ hasTransfer rings 0 = false ∧ sqState (setSqState rings 0 sqStopped) 0 = sqStopped := by
  decide +kernel

/-- The command of channel 0 still reads 70,000 bytes. -/
def reading : Cmd := { command curveRead [] with addr := 4096, left := 70000 }
  where curveRead := entry Op.streamData 3 0 70000 []
def transferring : State := setF { rings with hif := { rings.hif with cmds := [reading], cmdSeq := 1 } } Rg.HIF_DMA_CH_OWNER 0 0

/-- Of a plain range; and the last one, of a circular buffer. -/
theorem test_meets_descriptor : ∀ b : Bool, ∃ ch c s, engineNext s 0 = some ch ∧ channelCmd s ch = some c ∧ findCmd s c.id = some c ∧
    c.lastDesc = b ∧ c.circ.isSome = b ∧ hostReachable s = true := fun b =>
  let c := { reading with lastDesc := b, circ := if b then some (0, 131072) else none }
  ⟨0, c, { transferring with hif := { transferring.hif with cmds := [c] } }, by cases b <;> decide +kernel⟩

theorem test_meets_heldRelease : ∃ c s, (getCq s 0).held = [c] ∧ (getCq s 0).waiting = [] ∧ hostReachable s = true ∧ cqFull (hostStores s []) 0 = false ∧
    dbrec s + 0x1000 ≤ cqBase s 0 :=
  ⟨⟨0, 0, 1, 7, false, 0, 0, 0⟩, setCq rings 0 ⟨0, [⟨0, 0, 1, 7, false, 0, 0, 0⟩], [], false⟩, by decide +kernel⟩

theorem test_meets_moderation : ∃ a s, hostReachable s = true ∧ (getVec s 255).timerAt = some a ∧
    a + getF s Rg.HIF_VEC_MOD_TIME_US 255 * 1000 ≤ s.now :=
  ⟨0, setVec rings 255 ⟨0, 0, false, false, some 0⟩, by decide +kernel⟩

theorem test_meets_moderationEarly : ∃ s, (getVec s 255).timerAt = some 0 ∧ s.now < 0 + getF s Rg.HIF_VEC_MOD_TIME_US 255 * 1000 :=
  ⟨setVec (setF rings Rg.HIF_VEC_MOD_TIME_US 255 1) 255 ⟨0, 0, false, false, some 0⟩, by decide +kernel⟩

theorem test_meets_unmask : ∃ s, (getVec s 0).pend = true ∧ hostReachable s = true :=
  ⟨setVec rings 0 ⟨0, 0, true, true, none⟩, by decide +kernel⟩

theorem test_meets_unmapped : occupied 0x03FFFFFC = false := by decide +kernel

/-- With wake-on-access and without; and WAKING. -/
theorem test_meets_gated : occupied 0x01C00000 = true ∧ (∀ b : Bool,
      let s := setF (setDomain up 35 domRetained) Rg.PWR_DOMAIN_WAKE_ON_ACCESS 35 b.toNat
      domainState s (domainOf 0x01C00000) = domRetained ∧ getB s Rg.PWR_DOMAIN_WAKE_ON_ACCESS 35 = b) ∧
    domainState (setDomain up 35 domWaking) (domainOf 0x01C00000) = domWaking := by
  decide +kernel

/-- HIF_CTRL has a limit, SHT_GUARD none and no behaviour of its own. -/
theorem test_meets_register : ∃ r i b, findReg regTable 0x02000008 = some (r, i, b) ∧
    domainState up (domainOf 0x02000008) = domOn ∧ systemWrite up r i b 0x02000008 5 = none ∧ unitWrite up r i b 0x02000008 5 = none ∧
    storeLimits.all (fun l => l.1.base != r.base) = true ∧ viewWord up 0x02000008 = none ∧ unitRead up 0x02000008 = none ∧
    portBlockOf 0x02000008 = none :=
  ⟨_, _, _, rfl, by decide +kernel, rfl, rfl, by decide +kernel, by decide +kernel, rfl, by decide +kernel⟩

/-- BAR4 from 2 GiB on; the stack serves, and nothing waits to be merged. -/
def windowed (armed : Bool) : State :=
  let s := setF (setF (setF up Rg.MEM_BAR4_CTRL_IMPLEMENTED 0 1) Rg.MEM_BAR4_CTRL_BASE_GIB 0 2) Rg.MEM_STATUS_TRAINED_A 0 1
  setB s Rg.ECC_FLIP_CTRL_ARM 0 armed

theorem test_meets_window : getB up Rg.MEM_BAR4_CTRL_IMPLEMENTED = false ∧
    let s := windowed false
    let w := (getF s Rg.MEM_BAR4_CTRL_BASE_GIB * 2 ^ 30 + 64) / 32
    getB s Rg.MEM_BAR4_CTRL_IMPLEMENTED = true ∧ w < 2 * stackWords ∧ stackRuns s (wordStack w) = true ∧ channelDown s w = false ∧
    getMerge s (wordStack w) = [] ∧ hbmFlips (getHbm s w) = 0 ∧ (getHbm s w).poison = false ∧ getB s Rg.ECC_FLIP_CTRL_ARM = false ∧
    (getF s Rg.MEM_BAR4_CTRL_BASE_GIB * 2 ^ 30 + 64) % 32 = 0 := by decide +kernel

theorem test_meets_hotReset : unitsRun up = true ∧ devState up ≤ 2 := by decide +kernel

/-- A command with data left, as the link goes down; and one that has failed, as it returns. -/
theorem test_meets_linkCommands : transferring.hif.linkUp = true ∧ (∃ c ∈ transferring.hif.cmds, 0 < c.left) ∧
    ∃ s : State, s.hif.linkUp = false ∧ ∃ c ∈ s.hif.cmds, c.dmaFailed = true :=
  ⟨by decide +kernel, ⟨reading, by decide +kernel⟩, { State.reset with hif := { State.reset.hif with cmds := [{ reading with dmaFailed := true }] } },
    by decide +kernel, { reading with dmaFailed := true }, by decide +kernel⟩

theorem test_meets_links : up.hif.linkUp = true ∧ State.reset.hif.linkUp = false ∧ (∀ c ∈ State.reset.hif.cmds, c.dmaFailed = false) ∧
    (∀ v, v < 256 → (getVec State.reset v).pend = false) ∧ (∀ q, q < 64 → (getCq State.reset q).held = []) ∧
    getF (setF up Rg.HIF_VEC_MOD_PENDING 255 1) Rg.HIF_VEC_MOD_PENDING 255 ≠ 0 := by decide +kernel

/-! ### Projection -/

/-- View 7 of 16 × 16 pixels, FRAME or THROUGH, its picture started. -/
def viewState (through : Bool) (x : View) : State :=
  setView showing 7 { x with applied := { ViewParams.init with w := 16, h := 16, through := through }, started := true }

theorem test_meets_composition : mayCompose (viewState false View.init) 7 = true ∧ lateLayers (viewState false View.init) 7 = [] ∧
    ∃ b, nextBoundary (viewState false View.init) 7 = some b ∧
      reached (viewState false View.init) (latestBefore b (getView (viewState false View.init) 7).applied) = true :=
  ⟨by decide +kernel, by decide +kernel, 0, by decide +kernel⟩

theorem test_meets_compositionDone : ∃ srcs s, (getView s 7).composing = some srcs ∧ (getView s 7).applied.through = false ∧ composerOn s = true :=
  ⟨[], viewState false { View.init with composing := some [] }, by decide +kernel⟩

/-- A layer of 16 × 16 from stream 3, which is late: a unit of the picture to present now waits. -/
def streamLayer : List Byte := leBytes 1 1 ++ zeros 1 ++ leBytes 2 3 ++ zeros 4 ++ leBytes 2 16 ++ leBytes 2 16 ++ zeros 8 ++ leBytes 2 16 ++
  leBytes 2 16 ++ zeros 104
def lateStream : Stream := { Stream.init with state := stRunning, opened := hevcOpen, aus := [{ unit0 with time := some 0 }], pictures := 1 }
def throughState (layers : List (List Byte)) : State :=
  setStream (setView showing 7 { View.init with
    applied := { ViewParams.init with w := 16, h := 16, through := true, layers := layers }, started := true, under := some sched,
    back := ⟨List.replicate 16 [], [false]⟩ }) 3 lateStream

/-- Without a layer; and with one whose rows are not there. -/
theorem test_meets_latitude (b : Bool) : let s := throughState (if b then [streamLayer] else [])
    let x := getView s 7
    x.started = true ∧ x.applied.through = true ∧ viewOn x.applied = true ∧ 0 < latitudes x.applied.h ∧ composerOn s = true ∧
    x.back.map.getD 0 true = false ∧ x.back.rows.length = x.applied.h ∧ x.composing = none ∧
    ((∃ q ∈ x.applied.layers.zipIdx, layerEnabled q.1 = true ∧ lDstY q.1 < 16 ∧ 0 < lDstY q.1 + lDstH q.1 ∧
      throughSource (rebind s 7) 7 0 q.2 q.1 = none) ↔ b = true) := by
  cases b <;> decide +kernel

/-- A layer waits for its source. -/
theorem test_meets_lateLayers : let s := setView (throughState [streamLayer]) 7 { getView (throughState [streamLayer]) 7 with
      applied := { (getView (throughState [streamLayer]) 7).applied with through := false } }
    mayCompose s 7 = true ∧ lateLayers s 7 ≠ [] := by decide +kernel

/-- A picture of sheet 4095, 64 × 64 on port 0, to present at time t; cut from its own canvas. -/
def sheetPic (c : Bool) (t : Nat) : SheetPic :=
  ⟨1, t, false, true, false, sheet c, ViewParams.init, [], [], 0, 0,
   some ⟨List.replicate 64 (List.replicate 64 (0, 0, 0)), List.replicate 4 true⟩, false, 0, [], [], [], [], 0, false, false⟩
def sheetState (p : SheetPic) : State := { showing with prj := { showing.prj with sheets := [(4095, [p])], gzt := [(4095, p.entry)] } }

/-- Raw, and Contour. -/
theorem test_meets_sheetOutput (c : Bool) : let p := sheetPic c 0
    let s := sheetState p
    s.prj.sheets.get 4095 [] = [p] ∧ p.bands < gCellRows p.entry ∧ gContour p.entry = c ∧ p.sent = p.bands ∧
    (∀ j, j < gCellRows p.entry → ∀ x ∈ bandNeeds p.entry j, (cutFrom s p).map.getD x false = true) ∧
    domainOn s (31 + gLane p.entry) = true ∧ domainOn s 35 = true := by
  cases c <;> decide +kernel

/-- A latitude that the first band needs is not ready. -/
theorem test_meets_sheetWaits : let p := { sheetPic true 0 with canvas := some ⟨[], [false]⟩ }
    p.bands < gCellRows p.entry ∧ ∃ x ∈ bandNeeds p.entry p.bands, (cutFrom (sheetState p) p).map.getD x false = false := by
  decide +kernel

theorem test_meets_unitEmission (c : Bool) : let p := sheetPic c 0
    let s := sheetState p
    s.prj.sheets.get 4095 [] = [p] ∧ 0 < gUnits p.entry ∧ (∀ i, i ≤ gUnits p.entry - 1 → reached s (unitInstant s p i) = true) ∧
    gContour p.entry = c ∧ p.sent ≤ gUnits p.entry - 1 ∧ (∀ i, i < gCellRows p.entry → reached s (markInstant s p i) = true) ∧
    (getEnc s 4095).run = none := by
  cases c <;> decide +kernel

theorem test_meets_coef : getF (setF up Rg.PRJ_COEF_SEL_BANK 0 5) Rg.PRJ_COEF_SEL_BANK = 5 ∧ hostBankUsed up = false ∧
    getF up Rg.PRJ_COEF_SEL_BANK ≠ 5 := by decide +kernel

/-- A Contour picture of 16 × 16: I, 8 bits, 4:4:4. -/
def hdr16 : PicHdr := ⟨0, true, false, false, false, false, false, false, 8, 0, 0, 1, 16, 16, 1⟩
def coding : EncRun :=
  ⟨hdr16, sheet true, 0, 0, false, hdr16.blank, hdr16.blank, 0, 100000, 100000, 1000, 1000, 0, 0, false, false, false, false, false, [],
   20, none, [], [], [1], none, none, false, 0, []⟩
def onSheet : State :=
  let s := setEnc (setCoreState (sheetState (sheetPic true 0)) 23 coreEncode) 4095 { EncSheet.init with run := some coding }
  setCore s 23 ⟨some (true, 4095), 0, none, 0⟩

/-- The row is late; and a later one is not marked. -/
theorem test_meets_rowCode : coreOf onSheet (true, 4095) = some 23 ∧ coreState onSheet 23 = coreEncode ∧ domainOn onSheet 29 = true ∧
    headPic onSheet 4095 = some (sheetPic true 0) ∧ (getEnc onSheet 4095).run = some coding ∧ coding.row < coding.hdr.cellRows ∧
    reached onSheet (markInstant onSheet (sheetPic true 0) coding.row) = true ∧
    reached onSheet (markInstant onSheet (sheetPic true (2 ^ 30)) coding.row) = false := by decide +kernel

/-! ### Streams -/

/-- A stream from the network. -/
def netOpen (fmt : Nat) : List Byte :=
  entry Op.streamOpen 511 0 0 [1, fmt, 0, 0, 0x80, 7, 0x38, 4, 8, 0, 4, 0, 0x10, 0x4B, 0xFE, 0, 0x10, 0x27, 0, 0, 1, 0, 1, 0]
def netStream (fmt : Nat) (x : Stream) : State := setStream (pools up) 511 { x with state := stRunning, opened := netOpen fmt }
/-- An RTP packet with sequence number n. -/
def rtp (n : Nat) : List Byte := beBytes 1 0x80 ++ beBytes 1 0 ++ beBytes 2 n ++ zeros 8 ++ zeros 20

def validB (s : State) (n : Nat) (b : List Byte) : Bool :=
  let x := getStream s n
  let e := x.opened
  x.state != stClosed && x.state != stClosing && !oHost e && beAt b 0 1 / 64 == 2 && decide (12 ≤ b.length) &&
  (bit (oPt e) 7 || beAt b 1 1 % 128 == oPt e % 128) && (!oSsrcCheck e || beAt b 8 4 == oSsrc e) && datagramOk e b

theorem valid_of {s : State} {n : Nat} {b : List Byte} (h : validB s n b = true) : validPacket s n b := by
  simp only [validB, Bool.and_eq_true, bne_iff_ne, Bool.not_eq_true', beq_iff_eq, decide_eq_true_eq, Bool.or_eq_true] at h
  obtain ⟨⟨⟨⟨⟨⟨⟨a, b⟩, c⟩, d⟩, e⟩, f⟩, g⟩, i⟩ := h
  refine ⟨a, b, c, d, e, f, fun k => ?_, i⟩
  rcases g with g | g
  · rw [k] at g; cases g
  · exact g

theorem test_meets_packetNext : ∃ s b, domainOn s 30 = true ∧ validPacket s 511 b ∧
    (getStream s 511).nextKey = some (packetKey s 511 b) ∧ (getStream s 511).window = [] ∧
    heldBytes (getStream s 511) + (rtpPayload b).length ≤ inputBuffer (getStream s 511).opened ∧ allCells s < 32256 :=
  ⟨netStream 1 { Stream.init with nextKey := some 65535 }, rtp 65535, by decide +kernel, valid_of (by decide +kernel), by decide +kernel⟩

/-- One packet is missing before it, across the end of the sequence numbers. -/
theorem test_meets_packetAhead : ∃ s b k, domainOn s 30 = true ∧ validPacket s 511 b ∧ (getStream s 511).nextKey = some k ∧
    0 < keyDiff (getStream s 511) (packetKey s 511 b) k ∧ keyDiff (getStream s 511) (packetKey s 511 b) k < 512 ∧
    (getStream s 511).window.get k none = none ∧ (getStream s 511).window.get (packetKey s 511 b) none = none ∧
    heldBytes (getStream s 511) + (rtpPayload b).length ≤ inputBuffer (getStream s 511).opened ∧ oReorder (getStream s 511).opened ≠ 0 ∧
    allCells (setStream s 511 { getStream s 511 with window := (getStream s 511).window.set (packetKey s 511 b) (some (packetOf s b)) none }) < 32256 :=
  ⟨netStream 1 { Stream.init with nextKey := some 65535 }, rtp 0, 65535, by decide +kernel, valid_of (by decide +kernel), by decide +kernel⟩

theorem test_meets_packetLate : ∃ s b k, domainOn s 30 = true ∧ validPacket s 511 b ∧ (getStream s 511).nextKey = some k ∧
    keyDiff (getStream s 511) (packetKey s 511 b) k < 0 ∧ (getStream s 511).behind + 1 < 64 :=
  ⟨netStream 1 { Stream.init with nextKey := some 0, behind := 62 }, rtp 65535, 0, by decide +kernel, valid_of (by decide +kernel), by decide +kernel⟩

theorem test_meets_packetTwice : ∃ s b k, domainOn s 30 = true ∧ validPacket s 511 b ∧ (getStream s 511).nextKey = some k ∧
    0 ≤ keyDiff (getStream s 511) (packetKey s 511 b) k ∧ ((getStream s 511).window.get (packetKey s 511 b) none).isSome = true :=
  ⟨netStream 1 { Stream.init with nextKey := some 0, window := [(3, some ⟨false, 0, [], 0, 0⟩)] }, rtp 3, 0, by decide +kernel,
    valid_of (by decide +kernel), by decide +kernel⟩

/-- The 64th late packet; and one with no room. -/
theorem test_meets_packetBehind : ∃ s b k, domainOn s 30 = true ∧ validPacket s 511 b ∧ (getStream s 511).nextKey = some k ∧
    keyDiff (getStream s 511) (packetKey s 511 b) k < 0 ∧ 64 ≤ (getStream s 511).behind + 1 ∧ (getStream s 511).window = [] ∧ allCells s < 32256 :=
  ⟨netStream 1 { Stream.init with nextKey := some 0, behind := 63 }, rtp 65535, 0, by decide +kernel, valid_of (by decide +kernel), by decide +kernel⟩

/-- The input buffer is full. -/
theorem noRoom (l : List Byte) (h : inputBuffer (netOpen 1) = l.length) : let s := netStream 1 { Stream.init with bytes := l }
    domainOn s 30 = true ∧ validPacket s 511 (rtp 65535) ∧ (getStream s 511).nextKey = none ∧ (getStream s 511).window = [] ∧
    oFormat (getStream s 511).opened ≠ f2110 ∧
    ¬ heldBytes (getStream s 511) + (rtpPayload (rtp 65535)).length ≤ inputBuffer (getStream s 511).opened := by
  have k : ∀ x : Stream, getStream (setStream (pools up) 511 x) 511 = x := fun x => getStream_setStream_same _ _ _
  have d : domainOn (pools up) 30 = true := by decide +kernel
  have g : (rtpPayload (rtp 65535)).length = 20 := by decide +kernel
  refine ⟨d, valid_of ?_, ?_, ?_, ?_, ?_⟩ <;> unfold netStream
  · have v : validB (netStream 1 Stream.init) 511 (rtp 65535) = true := by decide +kernel
    unfold validB netStream at v; unfold validB; rw [k] at v ⊢; exact v
  · rw [k]; rfl
  · rw [k]; rfl
  · rw [k]; show oFormat (netOpen 1) ≠ f2110; decide +kernel
  · rw [k, g]; show ¬ heldBytes { Stream.init with state := _, opened := _, bytes := l } + 20 ≤ inputBuffer (netOpen 1)
    rw [h]; simp [heldBytes, Stream.init]
theorem test_meets_packetNoRoom : ∃ s b, domainOn s 30 = true ∧ validPacket s 511 b ∧ (getStream s 511).nextKey = none ∧
    (getStream s 511).window = [] ∧ oFormat (getStream s 511).opened ≠ f2110 ∧
    ¬ heldBytes (getStream s 511) + (rtpPayload b).length ≤ inputBuffer (getStream s 511).opened :=
  ⟨_, _, noRoom (zeros (inputBuffer (netOpen 1))) (by simp [zeros])⟩

/-- For a closed stream; of version 0; and with the shared block off. -/
theorem test_meets_packetInvalid : (getStream up 511).state = stClosed ∧ domainOn up 30 = true ∧
    (∃ b, beAt b 0 1 / 64 ≠ 2 ∧ datagramOk (getStream (netStream 1 Stream.init) 511).opened b = true) ∧ domainOn (setDomain up 30 domOff) 30 = false :=
  ⟨by decide +kernel, by decide +kernel, ⟨zeros 32, by decide +kernel⟩, by decide +kernel⟩

/-- Before its time, and at it. -/
theorem test_meets_reorderTimeout (b : Bool) : ∃ (a k m : Nat) (s : State), let x := getStream s 511
    x.gapAt = some a ∧ x.nextKey = some k ∧ (a + 1000 * oReorder x.opened ≤ s.now ↔ b = true) ∧ 1 ≤ oReorder x.opened ∧
    firstKey x k = some m ∧ 0 < keyDiff x m k :=
  ⟨0, 65535, 511, { netStream 1 { Stream.init with gapAt := some 0, nextKey := some 65535, window := [(511, some ⟨false, 0, [], 0, 0⟩)] } with
    now := if b then 1000 else 999 }, by cases b <;> decide +kernel⟩

/-- A raster that is closed, or still comes in. -/
def raster0 (b : Bool) : Raster := ⟨0, [], [], 0, b, 0, false, 0, 0, false, 0⟩
theorem test_meets_band (b : Bool) : let s := netStream 2 { Stream.init with raster := some (raster0 b) }
    let x := getStream s 511
    x.raster = some (raster0 b) ∧ min ((raster0 b).committed + 16) (oMaxH x.opened) ≠ oMaxH x.opened ∧
    (((rangeFrom 0 16).all (rowFull x.opened (raster0 b)) = true ∨ (raster0 b).closed = true ∨ (raster0 b).lost = true) ↔ b = true) := by
  cases b <;> decide +kernel

/-- The last band. -/
theorem test_meets_lastBand : let s := netStream 2 { Stream.init with raster := some { raster0 true with committed := 1072 } }
    min (1072 + 16) (oMaxH (getStream s 511).opened) = oMaxH (getStream s 511).opened := by decide +kernel

/-! ### Decoding -/

/-- The picture's header and one slice that repeats its row. -/
def slice16 : List Byte := sliceBytes hdr16 0 0 1 [false, true]
def unit16 : List Byte := beBytes 4 auSync ++ zeros 8 ++ headerBytes hdr16 ++ slice16
def au16 : Au := ⟨unit16, [(0, unit16.length)], [], [], none, 0, 1, none, true, false, false, 0⟩
def job16 (hdr : Option PicHdr) (rows : Nat) : Job :=
  ⟨au16, 23, hdr, noPicture, hdr16.blank, false, false, false, 32, none, rows, 0, false, true, 0, false, false, 0, false, true, [], false⟩
/-- Core 23 in state st with the job. -/
def decoding (fmt st : Nat) (j : Job) : State :=
  setCore (setCoreState (netStream fmt { Stream.init with job := some j }) 23 st) 23 ⟨some (false, 511), 0, none, 0⟩

theorem test_meets_dispatch (b : Bool) : ∃ s, coreReady s 23 ∧ chooseJob (pruned s) = some (false, 511) ∧
    ((getCore s 23).last = some (false, 511) ↔ b = true) ∧ (readyUnit (getStream (pruned s) 511)).isSome = true :=
  ⟨setCore (netStream 1 { Stream.init with aus := [au16] }) 23 ⟨none, 0, if b then some (false, 511) else none, 0⟩,
    by unfold coreReady; cases b <;> decide +kernel, by cases b <;> decide +kernel⟩

theorem test_meets_dispatchNone : coreReady up 23 ∧ chooseJob (pruned up) = none :=
  ⟨by unfold coreReady; decide +kernel, by decide +kernel⟩

/-- Before its end, and at it. -/
theorem test_meets_switchSheet (b : Bool) : ∃ s, (getCore s 23).job = some (true, 4095) ∧ coreState s 23 = coreSwitch ∧
    elapsed s (getCore s 23).since (if s.scr.cache.contains (true, 4095) then 4000 else 12000) = b ∧ (headPic s 4095).isSome = true :=
  ⟨{ setCoreState onSheet 23 coreSwitch with now := if b then 12000 else 11999 }, by cases b <;> decide +kernel⟩

theorem test_meets_switchHevc : ∃ s j, (getCore s 23).job = some (false, 511) ∧ coreState s 23 = coreSwitch ∧
    elapsed s (getCore s 23).since (if s.scr.cache.contains (false, 511) then 4000 else 12000) = true ∧
    (getStream s 511).job = some j ∧ oFormat (getStream s 511).opened = fHevc :=
  ⟨{ decoding 0 coreSwitch (job16 none 0) with now := 12000 }, job16 none 0, by decide +kernel⟩

theorem test_meets_switchContour : ∃ s j h, (getCore s 23).job = some (false, 511) ∧ coreState s 23 = coreSwitch ∧
    elapsed s (getCore s 23).since (if s.scr.cache.contains (false, 511) then 4000 else 12000) = true ∧
    (getStream s 511).job = some j ∧ oFormat (getStream s 511).opened ≠ fHevc ∧ auHeader j.au = .ok h ∧ auHeaderOk (getStream s 511) j.au = true ∧
    let e := (getStream s 511).opened
    h.w ≤ oMaxW e ∧ h.h ≤ oMaxH e ∧ h.depth ≤ oMaxDepth e ∧ (if h.c422 then 1 else 2) ≤ oChroma e :=
  ⟨{ setStream (decoding 1 coreSwitch (job16 none 0)) 511 { Stream.init with
      job := some (job16 none 0), state := stRunning, opened := (netOpen 1).set 29 2 } with now := 12000 }, job16 none 0, hdr16, by decide +kernel⟩

/-- A header with a wrong au_sync. -/
theorem test_meets_switchBad : ∃ s j, (getCore s 23).job = some (false, 511) ∧ coreState s 23 = coreSwitch ∧ (getStream s 511).job = some j ∧
    j.core = 23 ∧ oFormat (getStream s 511).opened ≠ fHevc ∧ auHeaderOk (getStream s 511) j.au = false :=
  ⟨decoding 1 coreSwitch { job16 none 0 with au := { au16 with data := zeros 64 } }, { job16 none 0 with au := { au16 with data := zeros 64 } },
    by decide +kernel⟩

def decodesB (s : State) (c n : Nat) (j : Job) : Bool :=
  (getCore s c).job == some (false, n) && (getStream s n).job == some j && j.core == c && domainOn s (6 + c)

theorem decodes_of {s : State} {c n : Nat} {j : Job} (h : decodesB s c n j = true) : decodes s c n j := by
  simp only [decodesB, Bool.and_eq_true, beq_iff_eq] at h
  exact ⟨h.1.1.1, h.1.1.2, h.1.2, h.2⟩

theorem test_meets_slice : let j := job16 (some hdr16) 0
    let s := decoding 1 coreDecode j
    let b := j.au.data.drop j.next
    decodes s 23 511 j ∧ coreState s 23 = coreDecode ∧ j.next + 12 ≤ auEnd j.au ∧ rangeIn j.au j.next (j.next + 12) = true ∧
    ∃ sl, checkSlice hdr16 b j.lastSlice (auEnd j.au - j.next) = some sl ∧ rangeIn j.au j.next (j.next + sl.length) = true ∧
      min (16 * sl.firstRow) hdr16.h ≤ j.rows ∧ j.rows < min hdr16.h (16 * (sl.firstRow + sl.rows)) ∧ sliceCrcOk sl b = true ∧
      (decodeSlice hdr16 (getStream s 511).prev (getStream s 511).anchor sl b ⟨j.rec_, j.readPrev, j.readAnchor, j.missing⟩).isSome = true :=
  ⟨decodes_of (by decide +kernel), by decide +kernel, by decide +kernel, by decide +kernel, ⟨0, 0, 1, 17⟩, by decide +kernel⟩

/-- A bit of the slice's data is wrong. -/
theorem test_meets_badSlice : let a := { au16 with data := unit16.set 45 0x55 }
    let j := { job16 (some hdr16) 0 with au := a }
    let s := decoding 1 coreDecode j
    decodes s 23 511 j ∧ coreState s 23 = coreDecode ∧ j.next + 12 ≤ auEnd j.au ∧ rangeIn j.au j.next (j.next + 12) = true ∧
    ∃ sl, checkSlice hdr16 (j.au.data.drop j.next) j.lastSlice (auEnd j.au - j.next) = some sl ∧
      rangeIn j.au j.next (j.next + sl.length) = true ∧ sliceCrcOk sl (j.au.data.drop j.next) = false :=
  ⟨decodes_of (by decide +kernel), by decide +kernel, by decide +kernel, by decide +kernel, ⟨0, 0, 1, 17⟩, by decide +kernel⟩

/-- The slice's last bytes are not in yet. -/
theorem test_meets_sliceWaits : let a := { au16 with have_ := [(0, 45)], whole := false }
    let j := { job16 (some hdr16) 0 with au := a }
    let s := decoding 1 coreDecode j
    decodes s 23 511 j ∧ coreState s 23 = coreDecode ∧ j.next + 12 ≤ auEnd j.au ∧ rangeIn j.au j.next (j.next + 12) = true ∧
    ∃ sl, checkSlice hdr16 (j.au.data.drop j.next) j.lastSlice (auEnd j.au - j.next) = some sl ∧ j.au.whole = false ∧
      rangeIn j.au j.next (j.next + sl.length) = false :=
  ⟨decodes_of (by decide +kernel), by decide +kernel, by decide +kernel, by decide +kernel, ⟨0, 0, 1, 17⟩, by decide +kernel⟩

/-- What H.265 decoding gave: a segment of a 16 × 16 picture, its first of the slice; limit: beyond the stream's limits. -/
def segment16 (limit parsed : Bool) : HevcSlice := ⟨16, 16, [8, 8, 8], 1, hdr16.blank, 16, true, parsed, false, [0], limit⟩
def hevcJob (nals : List (List Byte × Bool)) (whole : Bool) : Job :=
  { job16 none 0 with au := { au16 with nals := nals, whole := whole }, next := 0 }
theorem test_meets_segment : let j := hevcJob [([2, 1, 0x80], true)] true
    let s := decoding 0 coreDecode j
    decodes s 23 511 j ∧ coreState s 23 = coreDecode ∧ j.hdr = none ∧ oFormat (getStream s 511).opened = fHevc ∧
    (j.au.nals.filter fun p => p.1.isEmpty || nalVcl p.1)[j.next]? = some ([2, 1, 0x80], true) ∧
    (∀ b : Bool, segmentPasses j true (segment16 false b) = b) ∧ (segment16 true true).limit = true :=
  ⟨decodes_of (by decide +kernel), by decide +kernel⟩

theorem test_meets_segmentWaits : let j := hevcJob [] false
    let s := decoding 0 coreDecode j
    decodes s 23 511 j ∧ coreState s 23 = coreDecode ∧ j.hdr = none ∧
    (j.au.nals.filter fun p => p.1.isEmpty || nalVcl p.1)[j.next]? = none ∧ j.au.whole = false :=
  ⟨decodes_of (by decide +kernel), by decide +kernel⟩

/-- A slice header that does not hold; and the end of the unit. -/
theorem test_meets_noSlice : (let j := { job16 (some hdr16) 0 with au := { au16 with data := unit16.set 32 0 } }
      let s := decoding 1 coreDecode j
      decodes s 23 511 j ∧ j.next + 12 ≤ auEnd j.au ∧ rangeIn j.au j.next (j.next + 12) = true ∧
      checkSlice hdr16 (j.au.data.drop j.next) j.lastSlice (auEnd j.au - j.next) = none) ∧
    let j := { job16 (some hdr16) 0 with next := 45 }
    decodes (decoding 1 coreDecode j) 23 511 j ∧ auEnd j.au < j.next + 12 :=
  ⟨⟨decodes_of (by decide +kernel), by decide +kernel⟩, decodes_of (by decide +kernel), by decide +kernel⟩

/-- In its order, and of a stream that has returned to SYNCING. -/
theorem test_meets_pictureDone (b : Bool) : let j := { job16 (some hdr16) 16 with orphan := b }
    let s := decoding 1 coreDecode j
    decodes s 23 511 j ∧ (getStream s 511).closing = none ∧ (getStream s 511).eos = false ∧ pictureWhole j = true ∧
    coreState s 23 ≠ coreSwitch ∧ j.hdr = some hdr16 ∧ j.orphan = b :=
  ⟨decodes_of (by cases b <;> decide +kernel), by cases b <;> decide +kernel⟩

theorem test_meets_hevcDone : let j := { job16 none 16 with pic := ⟨16, 16, [8, 8, 8], 1, false, []⟩ }
    let s := decoding 0 coreDecode j
    decodes s 23 511 j ∧ (getStream s 511).closing = none ∧ (getStream s 511).eos = false ∧ pictureWhole j = true ∧
    coreState s 23 ≠ coreSwitch ∧ j.hdr = none ∧ j.orphan = false :=
  ⟨decodes_of (by decide +kernel), by decide +kernel⟩

/-- Stalled at its deadline; not stalled; before it. -/
theorem test_meets_pictureDeadline : (∀ b : Bool, let j := job16 (some hdr16) 0
      let s := decoding 1 (if b then coreWait else coreDecode) j
      decodes s 23 511 j ∧ (getStream s 511).closing = none ∧ (getStream s 511).eos = false ∧ reached s j.deadline = true ∧
      stalled s j = b ∧ jobHeight j ≠ 0 ∧ (getStream s 511).window = [] ∧ j.orphan = false) ∧
    let j := { job16 (some hdr16) 0 with deadline := 1000 }
    decodes (decoding 1 coreWait j) 23 511 j ∧ reached (decoding 1 coreWait j) j.deadline = false :=
  ⟨fun b => ⟨decodes_of (by cases b <;> decide +kernel), by cases b <;> decide +kernel⟩, decodes_of (by decide +kernel), by decide +kernel⟩

/-- A unit that is coming in, or a raster, before its deadline and at it. -/
theorem test_meets_inputDeadline (a b : Bool) : ∃ s, let x := getStream s 511
    x.job = none ∧ x.window = [] ∧ (inputDeadline s 511).isSome = true ∧ openTs x = some 0 ∧
    reached s ((inputDeadline s 511).getD 0) = b ∧ oMaxH x.opened ≤ 16384 ∧ x.asm.isSome = a :=
  ⟨setStream { pools up with mer := { up.mer with ns := if b then 100000000 else 0 } } 511 { Stream.init with
    state := stRunning, opened := netOpen (if a then 1 else 2), asm := if a then some { unit0 with ts := some 0, whole := false } else none,
    raster := if a then none else some (raster0 false) }, by cases a <;> cases b <;> decide +kernel⟩

theorem test_meets_expected : ∃ s t0, let x := getStream s 511
    x.job = none ∧ x.asm = none ∧ x.raster = none ∧ x.expected = some t0 ∧ x.state = stRunning ∧ x.aus = [] ∧
    reached s (pictureDeadline s 511 t0 t0) = true :=
  ⟨{ netStream 1 { Stream.init with expected := some 0 } with mer := { up.mer with ns := 100000000 } }, 0, by decide +kernel⟩

/-! ### Sheet transport and Meridian -/

/-- A reply frame of type t (R175): sheet, picture, position, payload. -/
def reply (t sheet pic hop : Nat) (payload : List Byte) : List Byte :=
  zeros 12 ++ beBytes 2 0x88B5 ++ beBytes 1 (16 + t) ++ zeros 1 ++ beBytes 2 sheet ++ beBytes 2 pic ++ beBytes 2 (hop * 4096) ++ zeros 8 ++ payload
/-- A roll-call r, or a push x, of port 127 waits; the one is command 0, the other command 0 too. -/
def replying (r : Option RollCall) (x : Option Push) : State :=
  { given (withPort up 127) (entry Op.rollcall 127 0x5000 1024 []) [] with
    mer := { Mer.init with ns := 5000 }
    sht := { Sht.init with rollcalls := [(127, r)], pushes := [(127, x)] } }
def roll0 : RollCall := ⟨0, some 0, 5, 0, some 0, none, [], [], []⟩
def rolling : State := replying (some roll0) none
/-- The cabinet at position 15; and one with every field in range. -/
def cabinet : List Byte := (zeros 64).set 1 15
def soundCabinet : List Byte := beBytes 1 0 ++ beBytes 1 15 ++ zeros 14 ++ beBytes 2 512 ++ beBytes 2 512 ++ zeros 3 ++ beBytes 1 12 ++
  beBytes 1 30 ++ beBytes 1 100 ++ beBytes 2 240 ++ beBytes 2 5000 ++ beBytes 1 4 ++ zeros 33

theorem test_meets_replyDropped : portUp rolling 127 = true ∧ (let b := (reply 0 0 0 0 []).set 14 0x20; hVersion b ≠ 1) ∧
    (let b := reply 15 0 0 0 []
     hVersion b = 1 ∧ hType b ≠ ftRollcallRsp ∧ hType b ≠ ftNack ∧ 5 < hType b) ∧
    (let b := reply 5 0 0 0 []
     hVersion b = 1 ∧ hType b ≠ ftRollcallRsp ∧ hType b ≠ ftNack ∧ hType b ≤ 5) := by decide +kernel

/-- A CAL_ACK: KIND 2. -/
def calAckOf (hop pic : Nat) : List Byte := reply ftRollcallRsp 0 pic hop ((cabinet.set 0 2).set 1 (BitVec.ofNat 8 hop))
theorem test_meets_calAckReply : let x : Push := ⟨0, 15, 9, 0, some 0⟩
    let s := replying none (some x)
    let b := calAckOf 15 9
    portUp s 127 = true ∧ hVersion b = 1 ∧ hType b = ftRollcallRsp ∧ cabKind ((hPayload b).take 64) = 2 ∧ getPush rolling 127 = none ∧
    getPush s 127 = some x ∧ hHop (calAckOf 14 9) ≠ x.hop ∧ hHop b = x.hop ∧ cabPosition ((hPayload b).take 64) = x.hop ∧
    hPicture b = x.block ∧ (findCmd s x.cmd).isSome = true := by decide +kernel

theorem test_meets_rollcallRsp : let b := reply ftRollcallRsp 0 5 15 cabinet
    let rcd := (hPayload b).take 64
    portUp rolling 127 = true ∧ hVersion b = 1 ∧ hType b = ftRollcallRsp ∧ cabKind rcd ≠ 2 ∧ getRollcall (replying none none) 127 = none ∧
    getRollcall rolling 127 = some roll0 ∧ hPicture (reply ftRollcallRsp 0 6 15 cabinet) ≠ roll0.req ∧
    hPicture b = roll0.req ∧ cabPosition rcd ≤ 15 ∧ hHop b = cabPosition rcd ∧
    cabPosition rcd ∉ roll0.bad ∧ roll0.rsps.get (cabPosition rcd) [] = [] ∧ recordInRange rcd = false ∧
    roll0.t1 = some 0 ∧ stampsValid rolling 127 = true ∧ hopTime 0 (ingressStamp rolling 127) (cabTurnaround rcd) = some 2473 ∧
    hopTime 2000000 (ingressStamp rolling 127) (cabTurnaround rcd) = none := by decide +kernel
/-- A second response, where position 15 had a delay and record before. -/
theorem test_meets_rollcallTwice : let b := reply ftRollcallRsp 0 5 15 cabinet
    let rcd := (hPayload b).take 64
    let r := { roll0 with rsps := [(15, cabinet)], old := [(15, some (2 ^ 31 + 7, soundCabinet))] }
    getRollcall (replying (some r) none) 127 = some r ∧ hPicture b = r.req ∧ cabPosition rcd ≤ 15 ∧ r.rsps.get (cabPosition rcd) [] ≠ [] ∧
    r.old.get (cabPosition rcd) none = some (2 ^ 31 + 7, soundCabinet) := by decide +kernel
/-- A ping that finds another delay. -/
theorem test_meets_pingMoved : let b := reply ftRollcallRsp 0 5 15 soundCabinet
    let rcd := (hPayload b).take 64
    let r := { roll0 with kind := 1 }
    let s := setF (replying (some r) none) Rg.SHT_HOP_DELAY_VALID (16 * 127 + 15) 1
    getRollcall s 127 = some r ∧ hPicture b = r.req ∧ hHop b = cabPosition rcd ∧ recordInRange rcd = true ∧ stampsValid s 127 = true ∧
    hopTime 0 (ingressStamp s 127) (cabTurnaround rcd) = some 2473 ∧ getF s Rg.SHT_HOP_DELAY_DELAY_NS (16 * 127 + 15) + 50 < 2473 ∧
    getB s Rg.SHT_HOP_DELAY_LOCK (16 * 127 + 15) = false ∧ getB s Rg.SHT_HOP_DELAY_VALID (16 * 127 + 15) = true := by decide +kernel

/-- A loss report of sheet 4095, enabled or not, of a schedule that refreshes; one that was seen. -/
def reporting (e : List Byte) (seen : List (Nat × Nat)) : State :=
  let s := setF rolling Rg.SHT_CTRL_NACK_REFRESH 0 1
  { s with prj := { s.prj with gzt := [(4095, e)] }, sht := { s.sht with nacks := seen } }
theorem test_meets_nack : let b := reply ftNack 4095 0 0 []
    let e := zeros 64
    let s := reporting e [(4095, 0)]
    portUp s 127 = true ∧ hVersion b = 1 ∧ hType b = ftNack ∧ (hSheet b, reportedPicture s b) ∈ s.sht.nacks ∧
    (hSheet b, reportedPicture (reporting e []) b) ∉ (reporting e []).sht.nacks ∧ sheetReported (reporting e []) 127 b = false := by decide +kernel
/-- Of a Contour sheet. -/
theorem test_meets_nackRefresh : let s := reporting ((sheetPic true 0).entry.set 12 127) []
    let b := reply ftNack 4095 0 (gHop (sheetPic true 0).entry) []
    hVersion b = 1 ∧ hType b = ftNack ∧ (hSheet b, reportedPicture s b) ∉ s.sht.nacks ∧ sheetReported s 127 b = true ∧
    gContour (gztEntry s (hSheet b)) = true ∧ getB s Rg.SHT_CTRL_NACK_REFRESH = true ∧ s.sht.nackRefresh.get (hSheet b) none = none := by
  decide +kernel

theorem test_meets_replyDown : portUp up 127 = false := by decide +kernel
theorem test_meets_windowOpen : getRollcall rolling 127 = some roll0 ∧ windowOver rolling roll0 = false := by decide +kernel
theorem test_meets_windowEnd : ∃ r id c s, getRollcall s 127 = some r ∧ windowOver s r = true ∧ r.cmd = some id ∧ findCmd s id = some c ∧
    (∀ h, (r.rsps.get h []).length ≤ 64) ∧ r.rsps.get 15 [] = cabinet :=
  ⟨{ roll0 with rsps := [(15, cabinet)] }, 0, command (entry Op.rollcall 127 0x5000 1024 []) [],
    { replying (some { roll0 with rsps := [(15, cabinet)] }) none with now := 10 * msNs },
    by decide +kernel, by decide +kernel, by decide +kernel, by decide +kernel,
    fun h => by
      by_cases k : 15 = h
      · subst k; decide +kernel
      · simp [SMap.get, k], by decide +kernel⟩

theorem test_meets_windowEndPing : ∃ r s, getRollcall s 127 = some r ∧ windowOver s r = true ∧ r.cmd = none :=
  ⟨⟨1, none, 5, 0, none, none, [], [], []⟩,
    { up with now := 10 * msNs, sht := { Sht.init with rollcalls := [(127, some ⟨1, none, 5, 0, none, none, [], [], []⟩)] } }, by decide +kernel⟩

theorem test_meets_calAck : ∃ a x s, getPush s 127 = some x ∧ x.hop ≤ 15 ∧ x.lastAt = some a ∧ a + secNs ≤ s.now ∧ rolling.now < a + secNs :=
  ⟨0, ⟨0, 15, 0, 0, some 0⟩, { up with now := secNs, sht := { Sht.init with pushes := [(127, some ⟨0, 15, 0, 0, some 0⟩)] } }, by decide +kernel⟩

theorem test_meets_ping : ∃ s, getF s Rg.SHT_PING_PERIOD_S ≠ 0 ∧ s.sht.pingAt + getF s Rg.SHT_PING_PERIOD_S * secNs ≤ s.now ∧ servicesRun s = true ∧
    servicesRun (setDomain s 2 domOff) = false :=
  ⟨{ setF (withPort up 127) Rg.SHT_PING_PERIOD_S 0 1 with now := secNs }, by decide +kernel⟩

theorem test_meets_firstPresent : ∃ w c s, (s.sht.waits.filter fun w => reached s w.at_) = [w] ∧ findCmd s w.cmd = some c ∧
    reached { s with mer := { Mer.init with sec := 1 } } 2000000000 = false :=
  ⟨⟨0, 0, 0, false⟩, command scheduleEntry oneView, { given showing scheduleEntry oneView with sht := { showing.sht with waits := [⟨0, 0, 0, false⟩] } },
    by decide +kernel⟩

/-- A PRESENT of view 7 on port 127 whose instant has come. -/
def present (timed : Bool) : Present := ⟨127, 7, 3, 3, 0, 0, timed, [], false, false, 1⟩
def presenting (timed held : Bool) (slot : List Launch) (p : State) : State :=
  let s := if held then setF p Rg.SHT_SCHED_STATUS_HELD 0 0x80 else p
  let s := { s with sht := { s.sht with presents := [present timed] } }
  { s with ports := s.ports.set 127 { getPort s 127 with slot := slot } Port.init }
/-- The present is due, and no HOLD. -/
def presentDue (s : State) (timed : Bool) : Bool :=
  domainOn s 5 && (s.sht.presents.filter fun p => p.port == 127 && reached s p.at_) == [present timed] && (dueHolds s false).isEmpty
/-- What the port's slot takes. -/
def launchOf (s : State) (timed : Bool) : Launch :=
  ⟨none, 0, ⟨0, presentFrame s (present timed), 0, false, epochNow s, false, false, 0, 129, 0, .plain⟩, presentClass s,
    getF s Rg.SHT_LAUNCH_MARGIN_NS⟩

theorem test_meets_presentHeld : let s := presenting true true [] (withPort up 127)
    presentDue s true = true ∧ viewHeld s 7 = true := by decide +kernel
theorem test_meets_presentDown : let s := presenting true false [] up
    presentDue s true = true ∧ viewHeld s 7 = false ∧ portUp s 127 = false := by decide +kernel
theorem test_meets_presentUntimed : let s := presenting false false [] (withPort up 127)
    presentDue s false = true ∧ viewHeld s 7 = false ∧ portUp s 127 = true ∧ (present false).timed = false := by decide +kernel
/-- It starts at once, and late; where the port pauses every class it waits. -/
theorem test_meets_presentNow : let s := presenting true false [] { withPort up 127 with mer := { Mer.init with ns := 1000000 } }
    presentDue s true = true ∧ viewHeld s 7 = false ∧ portUp s 127 = true ∧ (getPort s 127).slot = [] ∧
    slotReady s 127 (launchOf s true) = true ∧ getF s Rg.SHT_LAUNCH_MARGIN_NS < (mstDiff (mst s) 0).toNat := by decide +kernel
/-- The port pauses, on a CASCADE port, every class. -/
def pausing : State :=
  { withPort up 127 with ports := [(127, { Port.init with cfg := (portCfg 127).set 22 3, pauses := (List.range 8).map fun c => (c, some 1000) })] }
theorem test_meets_presentSlot : let s := presenting true false [] pausing
    presentDue s true = true ∧ viewHeld s 7 = false ∧ portUp s 127 = true ∧
    ∀ l ∈ (getPort s 127).slot ++ [launchOf s true], slotReady s 127 l = false := by decide +kernel

theorem test_meets_holdInstant (b : Bool) : ∃ h s, dueHolds s false = [h] ∧ h.mask < 256 ∧ hStop h.flags = b :=
  ⟨⟨0, 0xFF, if b then 4 else 0, 0, false, false⟩,
    { showing with sht := { showing.sht with holds := [⟨0, 0xFF, if b then 4 else 0, 0, false, false⟩] } }, by cases b <;> decide +kernel⟩
theorem test_meets_resumeInstant : (∃ h s, dueHolds s true = [h] ∧ h.mask < 256) ∧ dueHolds up false = [] ∧ dueHolds up true = [] ∧
    domainOn (setDomain up 5 domOff) 5 = false :=
  ⟨⟨⟨0, 0x80, 1, 0, false, false⟩, { showing with sht := { showing.sht with holds := [⟨0, 0x80, 1, 0, false, false⟩] } }, by decide +kernel⟩,
    by decide +kernel⟩

theorem test_meets_curve : let curve := (List.range 16).map fun i => (1000 * i, 32768 - i)
    let dose (i : Nat) : Nat := (curve.getD i (0, 0)).1
    curve.length = 16 ∧ curve.Pairwise (fun a b => a.1 < b.1) ∧ dose 0 = 0 ∧ dose 15 ≤ 15000 ∧ dose 14 ≤ 14999 ∧ 14999 < dose 15 ∧
    dose 0 ≤ 0 ∧ 0 < dose 1 := by decide +kernel

/-- Trigger 15, of the action, at 100 ns, armed. -/
def armed (action : Nat) : State :=
  setF (setF (setF up Rg.MER_TRIG_START_START 15 100) Rg.MER_TRIG_COUNT_COUNT 15 1) trigCtrlWord 15 (2 ^ 31 + action)
def at_ (s : State) (n : Nat) : State := { s with mer := { s.mer with ns := n } }

theorem test_meets_trigDisarm : (∀ a : Fin 3, let s := armed a
      domainOn s 5 = true ∧ trigOwned s 15 = false ∧ trigArmed s 15 = true ∧ trigAction s 15 = a ∧ s.sht.next = [] ∧
      8 ≤ mstDiff (trigInstant s 15 (getTrig s 15).j) (mst s) ∧
      mstDiff (trigInstant (at_ s 93) 15 (getTrig s 15).j) (mst (at_ s 93)) < 8 ∧
      reached (at_ s 100) (trigDue (at_ s 93) 15 (getTrig s 15).j) = true) ∧
    (getPort { armed 2 with ports := [(0, { Port.init with idle := some (8, 100) })] } (getF (armed 2) Rg.MER_TRIG_CTRL_PORT 15)).idle ≠ none := by
  decide +kernel

theorem test_meets_trigArm : let s := setF (setF up Rg.MER_TRIG_START_START 15 100) Rg.MER_TRIG_COUNT_COUNT 15 1
    domainOn s 5 = true ∧ trigOwned s 15 = false ∧ trigArmed s 15 = false ∧ trigFieldsOk (setF s trigCtrlWord 15 0) 15 = true ∧
    0 < mstDiff (trigInstant s 15 0) (mst s) ∧ trigFieldsOk (setF up trigCtrlWord 15 0) 15 = false := by decide +kernel

/-- Before its instant; at it; and a LAUNCH from a queue that holds a frame, to a port that pauses. -/
theorem test_meets_trigInstant : (∀ a : Fin 3, let s := armed a
      domainOn s 5 = true ∧ trigArmed s 15 = true ∧ s.sht.next = [] ∧ trigAction s 15 = a ∧
      reached (at_ s 80) (trigDue s 15 (getTrig s 15).j) = false ∧ reached (at_ s 100) (trigDue s 15 (getTrig s 15).j) = true) ∧
    getQueue (armed 2) (getF (armed 2) Rg.MER_TRIG_CTRL_PORT 15) (getF (armed 2) Rg.MER_TRIG_CTRL_CLASS 15) = [] ∧
    ∃ f r s, trigAction s 15 = 2 ∧ getQueue s 0 0 = f :: r ∧ reached s (trigDue s 15 (getTrig s 15).j) = true ∧
      (getF s Rg.MER_TRIG_CTRL_PORT 15, getF s Rg.MER_TRIG_CTRL_CLASS 15) = (0, 0) ∧
      ∀ l ∈ (getPort s 0).slot ++ [⟨some 15, trigInstant s 15 (getTrig s 15).j, f, 0, 8⟩], slotReady s 0 l = false := by
  refine ⟨by decide +kernel, by decide +kernel, ⟨0, zeros 60, 1, false, 0, false, false, 0, 0, 0, .plain⟩, [],
    { at_ (armed 2) 100 with tm := { Tm.init with queues := [(0, [⟨0, zeros 60, 1, false, 0, false, false, 0, 0, 0, .plain⟩])] } }, ?_⟩
  decide +kernel

theorem test_meets_pulseEnd : (∃ (a pins : Nat) (s : State), s.mer.pulses.get 15 none = some (a, pins) ∧ a ≤ s.now) ∧
    (∃ (a pins : Nat) (s : State), s.mer.pulses.get 15 none = some (a, pins) ∧ s.now < a) :=
  ⟨⟨100, 1, { up with now := 100, mer := { Mer.init with pulses := [(15, some (100, 1))] } }, by decide +kernel⟩,
    ⟨100, 1, { up with now := 99, mer := { Mer.init with pulses := [(15, some (100, 1))] } }, by decide +kernel⟩⟩

theorem test_meets_merPins : (let s := at_ (setF (setF up Rg.MER_CTRL_PPS_OUT_EN 0 1) Rg.MER_PPS_OUT_WIDTH_US 0 5) (1000000000 - getF up Rg.MER_PIN_COMP_OUT_NS)
      domainOn s 5 = true ∧ getB s Rg.MER_CTRL_PPS_OUT_EN = true ∧ getF s Rg.MER_PPS_OUT_WIDTH_US ≠ 0 ∧
      atSecond s (getS s Rg.MER_PPS_OUT_OFFSET_NS - getF s Rg.MER_PIN_COMP_OUT_NS) = true) ∧
    merSource (setF up Rg.MER_CTRL_SOURCE 0 sourcePps) = sourcePps ∧
    (let s := setF (setF up Rg.MER_CTRL_SOURCE 0 sourceSync) Rg.MER_SYNC_IN_PERIOD_NS 0 1000
     merSource s = sourceSync ∧ getF s Rg.MER_SYNC_IN_PERIOD_NS ≠ 0) := by decide +kernel

theorem test_meets_clock : domainOn up 5 = true ∧ up.mer.setNs < 1000000000 ∧ 1000000000 ≤ ({ Mer.init with setNs := 1000000000 } : Mer).setNs ∧
    merSource up = sourceFree ∧ domainOn (setDomain up 5 domOff) 5 = false := by decide +kernel

/-- A good sample that locks; the first and third large ones; and by the host's write. -/
theorem test_meets_servo : let s := setF up Rg.MER_CTRL_SOURCE 0 sourceHost
    let big := 16000 * max 1 (getF s Rg.MER_SERVO_STEP_STEP_US)
    let lock := { s with mer := { s.mer with lockRun := 254 } }
    let third := { s with mer := { s.mer with stepRun := 2, stepNeg := false } }
    domainOn s 5 = true ∧ merSource s ≠ sourceFree ∧ merSource s = sourceHost ∧
    (0 : Int).natAbs < big ∧ (0 : Int).natAbs ≤ 16 * getF lock Rg.MER_SERVO_LOCK_LOCK_NS ∧
    max 1 (getF lock Rg.MER_SERVO_LOCK_LOCK_COUNT) ≤ lock.mer.lockRun + 1 ∧ getB lock Rg.MER_STATUS_LOCKED = false ∧
    big ≤ (2 ^ 39 - 1 : Int).natAbs ∧ s.mer.stepRun = 0 ∧ third.mer.stepRun + 1 = 3 ∧ third.mer.stepNeg = decide ((2 ^ 39 - 1 : Int) < 0) ∧
    (0 : Int) = clampI (-7) 4 (signed 5 (0 / 256)) ∧ (0 : Int) = signed 40 (0 % 256 * 2 ^ 32 + (regW s 0x02400048).toNat) := by decide +kernel

theorem test_meets_holdover : ∃ a s, domainOn s 5 = true ∧ merSource s ≠ sourceFree ∧ getB s Rg.MER_STATUS_HOLDOVER = false ∧
    s.mer.sampleAt = some a ∧ a + 4 * logIntervalNs s.mer.sampleL ≤ s.now ∧ up.now < a + 4 * logIntervalNs s.mer.sampleL :=
  ⟨0, { setF up Rg.MER_CTRL_SOURCE 0 sourceHost with now := 4 * secNs, mer := { Mer.init with sampleAt := some 0, sampleL := 0 } }, by decide +kernel⟩

/-- A PTP message in an Ethernet frame: type, domain, flags, source, 30 bytes after the header (the last two 0). -/
def ptpFrame (t domain flags src : Nat) (body : List Byte) : List Byte :=
  zeros 12 ++ beBytes 2 0x88F7 ++ beBytes 1 t ++ beBytes 1 2 ++ beBytes 2 64 ++ beBytes 1 domain ++ zeros 1 ++ beBytes 2 flags ++ zeros 12 ++
  beBytes 10 src ++ beBytes 2 9 ++ zeros 2 ++ body ++ zeros 2
/-- Port 127 takes part in PTP, as a slave of clock 5 that has x besides. -/
def ptpWith (x : PtpPort) : State :=
  let s := setF (setF (withPort up 127) Rg.MER_PTP_PORT_ROLE 127 1) Rg.MER_PTP_PORT_STATE 127 ptpSlave
  { s with mer := { s.mer with ptp := [(127, { x with best := some ⟨0, 0, 0, 0, 0, 0, 0, 5, 0⟩ })] } }
def ptpOn : State := ptpWith PtpPort.init
/-- The message is processed. -/
def ptpProcessed (s : State) (b : List Byte) : Bool :=
  let u := ptpCount s 127
  let m := b.drop 14
  ptpRuns s && ptpAt b == some 14 && decide ((getPtp u 127).count ≤ 1024) &&
  ptpAdmits (mType m == msgDelayReq && ptpState s 127 == ptpMaster) u.mer.ptpIn u.mer.ptpReqIn && ptpWellFormed m && ptpInProfile s b m &&
  portRole s 127 != 0

/-- Too many of a port; too many in all; ill formed; and of another domain. -/
theorem test_meets_ptpInvalid : ptpRuns ptpOn = true ∧ 1024 < (getPtp (ptpCount (ptpWith { PtpPort.init with count := 1024 }) 127) 127).count ∧
    ptpAdmits false (ptpCount { ptpOn with mer := { ptpOn.mer with ptpIn := 65536 } } 127).mer.ptpIn 0 = false ∧
    ptpWellFormed ((ptpFrame 15 0 0 5 (zeros 28)).drop 14) = false ∧
    (let b := ptpFrame 0 200 0 5 (zeros 28)
     ptpAt b = some 14 ∧ ptpWellFormed (b.drop 14) = true ∧ ptpInProfile ptpOn b (b.drop 14) = false) ∧ ptpAt (zeros 60) = none := by decide +kernel
/-- Two-step and one-step. -/
theorem test_meets_ptpSync (two : Bool) : let b := ptpFrame 0 0 (if two then 0x0200 else 0) 5 (zeros 28)
    let s := setF (setF ptpOn Rg.MER_CTRL_SOURCE 0 sourcePtp) Rg.MER_PTP_MPD_VALID 127 1
    ptpProcessed s b = true ∧ mType (b.drop 14) = msgSync ∧ mTwoStep (b.drop 14) = two ∧ stampsValid s 127 = true ∧
    fromMaster s 127 (b.drop 14) = true ∧ merSource s = sourcePtp ∧ getB s Rg.MER_PTP_MPD_VALID 127 = true ∧ (getPtp s 127).multi = false := by
  cases two <;> decide +kernel
theorem test_meets_ptpFollowUp : let b := ptpFrame 8 0 0 5 (zeros 28)
    let s := ptpWith { PtpPort.init with sync := some (9, 0, 0, 0) }
    ptpProcessed s b = true ∧ mType (b.drop 14) = msgFollowUp ∧ fromMaster s 127 (b.drop 14) = true ∧
    (getPtp s 127).sync = some (9, 0, 0, 0) ∧ mSeq (b.drop 14) = 9 ∧ s.now ≤ 0 + logIntervalNs (ptpLogSync s) := by decide +kernel
/-- With a delay in range, and a negative one. -/
theorem test_meets_ptpDelayResp (neg : Bool) : let s := ptpWith { PtpPort.init with req := some (9, if neg then 100 else 0), ms := some 0 }
    let b := ptpFrame 9 0 0 5 (zeros 10 ++ beBytes 10 (portIdentity s 127) ++ zeros 8)
    let m := b.drop 14
    ptpProcessed s b = true ∧ mType m = msgDelayResp ∧ fromMaster s 127 m = true ∧ ptpPeerDelay s = false ∧
    (getPtp s 127).req = some (9, if neg then 100 else 0) ∧ (getPtp s 127).ms = some 0 ∧ mSeq m = 9 ∧ beAt m 44 10 = portIdentity s 127 ∧
    ((0 + (mTime m 34 - fullTime s (if neg then 100 else 0) - mCorr16 m)) / 2 < 0 ↔ neg = true) := by cases neg <;> decide +kernel
theorem test_meets_ptpDelayReq : let s := setF ptpOn Rg.MER_PTP_PORT_STATE 127 ptpMaster
    let b := ptpFrame 1 0 0 5 (zeros 28)
    ptpProcessed s b = true ∧ mType (b.drop 14) = msgDelayReq ∧ stampsValid s 127 = true ∧ ptpState s 127 = ptpMaster ∧ ptpPeerDelay s = false := by
  decide +kernel
/-- Usable, with no master before; and of its own clock. -/
theorem test_meets_ptpAnnounce : (let b := ptpFrame 11 0 0 (5 * 65536 + 1) (zeros 28)
      let s := { ptpOn with mer := { ptpOn.mer with ptp := [] } }
      ptpProcessed s b = true ∧ mType (b.drop 14) = msgAnnounce ∧ beAt (b.drop 14) 61 2 < 255 ∧ mSource (b.drop 14) / 65536 ≠ clockIdentity s ∧
      (getPtp s 127).best = none) ∧
    (let b := ptpFrame 11 0 0 (clockIdentity ptpOn * 65536 + 1) (zeros 28)
     ptpProcessed ptpOn b = true ∧ mType (b.drop 14) = msgAnnounce ∧ mSource (b.drop 14) / 65536 = clockIdentity ptpOn) := by decide +kernel
theorem test_meets_ptpIntervals : ptpRuns ptpOn = true ∧ portUp ptpOn 127 = true ∧ onSlave ptpOn 127 = true ∧ ptpPeerDelay ptpOn = false ∧
    (let s := setF (setF (withPort up 127) Rg.MER_PTP_PORT_ROLE 127 2) Rg.MER_PTP_PORT_STATE 127 ptpMaster
     ptpRuns s = true ∧ portUp s 127 = true ∧ ptpState s 127 = ptpMaster ∧ ptpState (bmca s) 127 = ptpMaster) := by decide +kernel

/-! ### Ports, the switch and the traffic manager -/

/-- Port 127 in a state, with a configuration. -/
def portIn (st : Nat) (flags : Nat) (x : Port) : State :=
  setF { up with now := 10 * secNs, ports := [(127, { x with cfg := ((portCfg 127).set 22 (BitVec.ofNat 8 flags)).set 24 0x08 })] } Rg.PRT_STATUS_STATE 127 st

theorem test_meets_autoNeg : let s := portIn prtAn 1 Port.init
    portState s 127 = prtAn ∧ (getPort s 127).since ≤ s.now ∧ resolveRate (getPort s 127).cfg (2 ^ 13) 0 = some 3 ∧
    resolveRate (getPort s 127).cfg 0 0 = none ∧ s.now < (getPort (portIn prtAn 1 { Port.init with since := 11 * secNs }) 127).since := by
  decide +kernel
theorem test_meets_training : let s := portIn prtTraining 2 { Port.init with since := 10 * secNs }
    portState s 127 = prtTraining ∧ (getPort s 127).since ≤ s.now ∧ s.now < (getPort s 127).since + 500 * msNs ∧
    (let s := portIn prtTraining 2 Port.init
     portState s 127 = prtTraining ∧ (getPort s 127).since + 500 * msNs ≤ s.now) := by decide +kernel
theorem test_meets_lock : let s := portIn prtWaitLock 0 Port.init
    portState s 127 = prtWaitLock ∧ (getPort s 127).since + msNs ≤ s.now ∧ (∀ d ∈ portDomains 127, domainOn s d = true) ∧
    cfgAn (getPort s 127).cfg = false ∧ cfgRate (getPort s 127).cfg < 16 ∧ ∃ d ∈ portDomains 127, domainOn (setDomain s d domRetained) d = false := by
  decide +kernel
theorem test_meets_linkLoss : portState (portIn prtUp 0 Port.init) 127 = prtUp ∧
    (let s := portIn prtHeld 0 Port.init
     portState s 127 = prtHeld ∧ (getPort s 127).heldUntil ≤ s.now) ∧
    (portIn prtHeld 0 Port.init).now < (getPort (portIn prtHeld 0 { Port.init with heldUntil := 11 * secNs }) 127).heldUntil := by decide +kernel
/-- Two lanes, the second with the higher loss, for two commands; and for one. -/
theorem test_meets_estimate : (getPort up 127).measure = [] ∧ (getPort (portIn prtUp 0 { Port.init with measure := [0, 1] }) 127).measure ≠ [] ∧
    ((200, 2) : Nat × Nat) ∈ [(100, 1), (200, 2)] ∧ (∀ e ∈ [((100, 1) : Nat × Nat), (200, 2)], e.1 < 200 ∨ e = (200, 2)) ∧
    ∃ id c s, (getPort s 127).measure = [id] ∧ findCmd s id = some c :=
  ⟨by decide +kernel, by decide +kernel, by decide +kernel, by decide +kernel, 0, command (entry Op.portMeasure 127 0 64 [1]) [],
    given (portIn prtUp 0 { Port.init with measure := [0] }) (entry Op.portMeasure 127 0 64 [1]) [], by decide +kernel⟩
theorem test_meets_laneAdapt : laneUp (withPort up 127) 127 = true ∧ adaptDue (withPort up 127) 127 = true ∧
    adaptDue { withPort up 127 with bg := { up.bg with equaliser := [(127, ⟨0, [], some 0⟩)] } } 127 = false ∧ laneUp up 127 = false := by decide +kernel
/-- A PFC frame for class 7, and a PAUSE. -/
def pfc : List Byte := beBytes 6 0x0180C2000001 ++ zeros 6 ++ beBytes 2 0x8808 ++ beBytes 2 0x0101 ++ beBytes 2 0x80 ++ zeros 14 ++ beBytes 2 100 ++ zeros 30
theorem test_meets_pause : isPause pfc = true ∧
    (let s := setF { up with ports := [(127, { Port.init with cfg := (portCfg 127).set 23 1 })] } Rg.PRT_STATUS_STATE 127 prtUp
     portCascade s 127 = true ∧ portUp s 127 = true) ∧ beAt pfc (payloadAt pfc) 2 = 0x0101 ∧
    beAt (pfc.set 14 0) (payloadAt pfc) 2 = 1 ∧ isPause (zeros 60) = false := by decide +kernel

/-- A UDP frame of 60 bytes, and a flow entry for it of an action. -/
def plainFrame : List Byte := beBytes 6 0x020000000001 ++ beBytes 6 0x020000000002 ++ beBytes 2 0x0800 ++ beBytes 1 0x45 ++ zeros 8 ++ beBytes 1 17 ++
  zeros 6 ++ beBytes 4 0x0A000001 ++ zeros 2 ++ beBytes 2 5000 ++ zeros 22
def udpFlow (action to_ intake : Nat) : List Byte := leBytes 2 0 ++ leBytes 2 (2 ^ 15) ++ beBytes 4 0x0A000001 ++ zeros 4 ++ leBytes 2 5000 ++
  leBytes 1 action ++ zeros 1 ++ leBytes 2 to_ ++ leBytes 1 intake ++ zeros 13
def forwarding (action to_ intake : Nat) : State :=
  let s := setF (withPort up 127) Rg.TM_CTRL_METER_EN 0 0
  { s with sw := { s.sw with flow := [(0, udpFlow action to_ intake)] } }

/-- To the host's port; to port 126, which is down; to intake port 145. -/
theorem test_meets_frame : let s := forwarding actPort 128 0
    let cls := ingressClass s 127 plainFrame
    domainOn s 36 = true ∧ domainOn s 37 = true ∧ portUp s 127 = true ∧
    60 ≤ plainFrame.length ∧ plainFrame.length ≤ cfgMaxFrame (getPort s 127).cfg - 4 ∧ bit (beAt plainFrame 6 1) 0 = false ∧
    isPause plainFrame = false ∧ getB s Rg.TM_CTRL_METER_EN = false ∧ getF s Rg.SW_MIRROR_ACTIVE = 0 ∧
    (lookup s 127 plainFrame).dest = [128] ∧ canTake s 128 cls = true ∧
    (bufferFrame s (inputGroup 127) 127 cls (cellsFor plainFrame.length) 1).isSome = true ∧
    (∀ q ∈ (lookup s 127 plainFrame).dest, cutThrough s 127 q cls = false) ∧
    (let s := forwarding actPort 126 0
     (lookup s 127 plainFrame).dest = [126] ∧ canTake s 126 cls = false ∧ portUp s 126 = false) ∧
    (lookup (forwarding actIntake 511 145) 127 plainFrame).dest = [145] ∧ domainOn (setDomain up 36 domOff) 36 = false ∧
    (zeros 59).length < 60 := by decide +kernel
/-- To port 126, whose cells are all taken. -/
def full : State :=
  let s := withPort (forwarding actPort 126 0) 126
  let k := useKey 126 (ingressClass s 127 plainFrame)
  setF { s with sw := { s.sw with shared := [(k, 1000000)] } } Rg.SW_USE_CELLS k 65535
theorem test_meets_frameDropped : let t := full
    let cls := ingressClass t 127 plainFrame
    (lookup t 127 plainFrame).dest = [126] ∧ canTake t 126 cls = false ∧ (lookup t 127 plainFrame).multicast = false ∧ portUp t 126 = true := by
  decide +kernel

/-- An update of table 2 at its fence; a frame of the old epoch, or none, is queued. -/
def fenced (q : List QFrame) : State :=
  { given up (entry Op.tableUpdate 0 0 32 [2]) [] with
    now := secNs, sw := { Sw.init with updates := [⟨0, 2, 0, [], some 0⟩] }, tm := { Tm.init with queues := [(0, q)] } }
def oldFrame : QFrame := ⟨0, zeros 60, 1, false, 4, false, false, 0, 127, 0, .plain⟩

theorem test_meets_tableFence : (let s := fenced [oldFrame]
      fencing s 2 = some ⟨0, 2, 0, [], some 0⟩ ∧ (∀ x ∈ s.sw.updates, x.table = 2 → x.cmd = 0) ∧
      (∃ q ∈ s.tm.queues, ∃ f ∈ q.2, oldEpoch s 2 f = true) ∧ getF s Rg.SW_CTRL_FENCE_TIMEOUT_MS * msNs ≤ s.now) ∧
    ¬((∃ q ∈ (fenced []).tm.queues, ∃ f ∈ q.2, oldEpoch (fenced []) 2 f = true) ∨
      ∃ p ∈ (fenced []).ports, ∃ l ∈ p.2.slot, oldEpoch (fenced []) 2 l.frame = true) ∧ fencing up 2 = none ∧
    ({ fenced [] with now := 0 } : State).now < getF (fenced []) Rg.SW_CTRL_FENCE_TIMEOUT_MS * msNs := by decide +kernel

/-- A frame of the host's port; one in a launch slot; none; and in a fatal fault. -/
theorem test_meets_frameSelect : (let s := { up with tm := { Tm.init with queues := [(128 * 8 + 7, [oldFrame])] } }
      portUp s 128 = true ∧ getF s Rg.FLT_STATE_STATE ≠ 2 ∧ domainOn s 38 = true ∧ Machine.relocking s 2 = false ∧
      (getPort s 128).slot = [] ∧ chooseQueue (dropOversize s 128) 128 = some 7 ∧ getQueue (dropOversize s 128) 128 7 = [oldFrame]) ∧
    (let l : Launch := ⟨some 15, 0, oldFrame, 0, 8⟩
     let s := { withPort up 127 with ports := [(127, { Port.init with cfg := portCfg 127, slot := [l] })] }
     portUp s 127 = true ∧ getF s Rg.FLT_STATE_STATE ≠ 2 ∧ domainOn s 38 = true ∧ Machine.relocking s 2 = false ∧
     ∃ l ∈ (getPort s 127).slot, slotReady s 127 l = true) ∧
    chooseQueue (dropOversize up 129) 129 = none ∧ getF (setF up Rg.FLT_STATE_STATE 0 2) Rg.FLT_STATE_STATE = 2 := by decide +kernel

/-- A refill is due, and a new rate waits; the next refill lies beyond the wheel. -/
theorem test_meets_refill : (∃ s, domainOn s 38 = true ∧ let x := getShaper s 129 7
      let dt := s.now * 65536 - x.last
      refilling x = true ∧ x.overflow = false ∧ x.next = [(0, 5)] ∧ shaperInterval x.rate ≤ dt) ∧
    (getShaper { up with tm := { Tm.init with shapers := [(129 * 8 + 7, ⟨true, 1, 10, 9, 0, true, []⟩)] } } 129 7).overflow = true :=
  ⟨⟨{ up with now := 1000, tm := { Tm.init with shapers := [(129 * 8 + 7, ⟨true, 1000000, 10, 9, 0, false, [(0, 5)]⟩)] } }, by decide +kernel⟩,
    by decide +kernel⟩

theorem test_meets_gateStart : ∃ g s, domainOn s 5 = true ∧ getGateNext s 127 = some g ∧ g.start ≤ mft16 s ∧ mft16 up < g.start :=
  ⟨⟨[(255, 1000000)], 65536, 1000000 * 65536⟩, { up with
      mer := { Mer.init with ns := 1 }, tm := { Tm.init with gatesNext := [(127, some ⟨[(255, 1000000)], 65536, 1000000 * 65536⟩)] } }, by decide +kernel⟩

def linkGone (n : Nat) : State := { up with now := secNs, clk := { up.clk with links := [(1, some (0, n))] } }
theorem test_meets_dieLinks : getLink up 1 = none ∧ getLink (linkGone 2) 1 = some (0, 2) ∧ 10 * msNs ≤ (linkGone 2).now ∧
    compassRuns (linkGone 2) = true ∧ getLink (linkGone 3) 1 = some (0, 3) ∧ secNs ≤ (linkGone 3).now ∧
    dieReacts (linkGone 3) (Ev.PRT_D2D_DOWN_W + 1) = false ∧ inFe (linkGone 3) = false ∧ inFe (setF (linkGone 3) Rg.FLT_STATE_STATE 0 2) = true ∧
    (linkGone 3).ev.reactions ++ (linkGone 3).ev.held = [] := by decide +kernel
theorem test_meets_dieLinkReturn : ∃ r s, getLink s 1 = some (0, 3) ∧ s.ev.reactions = [r] ∧ r.source = Ev.PRT_D2D_DOWN_W + 1 ∧ r.absorbed = false ∧
    overLimit s r = false ∧ r.param < 65536 ∧ dieReacts s (Ev.PRT_D2D_DOWN_W + 1) = true :=
  ⟨⟨Ev.PRT_D2D_DOWN_W + 1, Ev.PRT_D2D_DOWN_W + 1, 79, [], 0, false⟩,
    { linkGone 3 with ev := { Ev.init with reactions := [⟨Ev.PRT_D2D_DOWN_W + 1, Ev.PRT_D2D_DOWN_W + 1, 79, [], 0, false⟩] } }, by decide +kernel⟩

/-! ### Events, faults and memory -/

/-- Source 1023 pends, alone; with its vector enabled, masked or not, or moderated. -/
def pendingOne : State := setF (setF up Rg.INT_SRC_CFG_EVQ_EN Ev.SHT_NACK 1) Rg.INT_SRC_CFG_STATE Ev.SHT_NACK srcPending
/-- The event queue is full. -/
def evqFullState : State := { pendingOne with ev := { pendingOne.ev with evq := List.replicate 32 ⟨1, false, 0, 0, 0⟩ } }
def vectored (mask : Bool) (time count : Nat) : State :=
  let s := setF (setF (setF pendingOne Rg.INT_SRC_CFG_VEC_EN Ev.SHT_NACK 1) Rg.HIF_VEC_MOD_TIME_US 0 time) Rg.HIF_VEC_MOD_COUNT 0 count
  setVec (setF s Rg.INT_SRC_CFG_VECTOR Ev.SHT_NACK 0) 0 { Vec.init with mask := mask }

theorem test_meets_deliver : controllerRuns pendingOne = true ∧ (pendingSources pendingOne).find? (fun m => !blocked pendingOne m) = some Ev.SHT_NACK ∧
    getB pendingOne Rg.INT_SRC_CFG_EVQ_EN Ev.SHT_NACK = true ∧ getB pendingOne Rg.INT_SRC_CFG_VEC_EN Ev.SHT_NACK = false ∧
    ({ pendingOne with ev := { pendingOne.ev with evq := List.replicate 31 ⟨1, false, 0, 0, 0⟩ } } : State).ev.evq.length = 31 ∧
    (let s := setF up Rg.INT_SRC_CFG_STATE Ev.SHT_NACK srcPending
     getB (setF s Rg.INT_SRC_CFG_EVQ_EN Ev.SHT_NACK 0) Rg.INT_SRC_CFG_EVQ_EN Ev.SHT_NACK = false) := by decide +kernel
theorem test_meets_stall : controllerRuns evqFullState = true ∧ pendingSources evqFullState = [Ev.SHT_NACK] ∧ blocked evqFullState Ev.SHT_NACK = true ∧
    (getSrc evqFullState Ev.SHT_NACK).stalled = false ∧ controllerRuns State.reset = false := by decide +kernel
theorem test_meets_vector : (∀ mask : Bool, let s := vectored mask 0 0
      controllerRuns s = true ∧ (pendingSources s).find? (fun m => !blocked s m) = some Ev.SHT_NACK ∧ getB s Rg.INT_SRC_CFG_VEC_EN Ev.SHT_NACK = true ∧
      getF s Rg.INT_SRC_CFG_VECTOR Ev.SHT_NACK = 0 ∧ getF s Rg.HIF_VEC_MOD_TIME_US 0 = 0 ∧ (getVec s 0).mask = mask ∧ hostReachable s = true) ∧
    (let s := vectored true 10 2
     getB s Rg.INT_SRC_CFG_VEC_EN Ev.SHT_NACK = true ∧ sourceClass Ev.SHT_NACK = .event ∧ getF s Rg.HIF_VEC_MOD_TIME_US 0 ≠ 0 ∧
     getF s Rg.HIF_VEC_MOD_PENDING 0 + 1 < getF s Rg.HIF_VEC_MOD_COUNT 0) := by decide +kernel
theorem test_meets_evqPop : evqFullState.ev.evq = ⟨1, false, 0, 0, 0⟩ :: List.replicate 31 ⟨1, false, 0, 0, 0⟩ ∧ up.ev.evq = [] := by decide +kernel

theorem test_meets_fault : sourceNamed Ev.CLK_PLL_UNLOCK_TPLL = true ∧ Ev.TM_FAULT ∉ ownRow ∧ sourceNamed Ev.TM_FAULT = true ∧
    sourceClass Ev.TM_FAULT = .uc ∧ (ucUnit Ev.TM_FAULT 0).isSome = true ∧ inFe up = false ∧ up.ev.reactions ++ up.ev.held = [] ∧
    sourceNamed Ev.ECC_UC_SRAM = true ∧ Ev.ECC_UC_SRAM ∉ ownRow ∧ sourceClass Ev.ECC_UC_SRAM = .uc ∧ ucUnit Ev.ECC_UC_SRAM 0 = none ∧
    sourceNamed Ev.ECC_CE_SRAM = true ∧ Ev.ECC_CE_SRAM ∉ ownRow ∧ sourceClass Ev.ECC_CE_SRAM = .ce ∧ sourceNamed 1024 = false := by decide +kernel
/-- The unit's reaction runs; the unit is held. -/
theorem test_meets_faultMerged : ∃ u : UcUnit, ucUnit Ev.TM_FAULT 0 = some u ∧
    (∃ r ∈ ({ up with ev := { Ev.init with reactions := [⟨Ev.TM_FAULT, u.unit, 0, [], 0, false⟩] } } : State).ev.reactions, r.unit = u.unit) ∧
    (∃ r ∈ ({ up with ev := { Ev.init with held := [⟨Ev.TM_FAULT, u.unit, 0, [], 0, false⟩] } } : State).ev.held, r.unit = u.unit) :=
  ⟨(ucUnit Ev.TM_FAULT 0).get (by decide +kernel), by decide +kernel⟩
theorem test_meets_fatal : inFe up = false ∧ up.pwr.committed = none ∧ napping up = false ∧ compassRuns up = true ∧
    inFe (setF up Rg.FLT_STATE_STATE 0 2) = true ∧ ∀ r ∈ up.ev.reactions ++ up.ev.held, r.unit ≠ unitTest := by decide +kernel
theorem test_meets_ucReset : ∃ (r : Reaction) (s : State), s.ev.reactions = [r] ∧ r.absorbed = false ∧ isPllUnit r.unit = false ∧ isLinkSource r.source = false ∧
    (r.unit = unitTest → r.start + 10 * usNs ≤ s.now) ∧ r.param < 65536 ∧ ∀ r ∈ up.ev.reactions, r.unit ≠ unitTest :=
  ⟨⟨199, unitTest, 0, [], 0, false⟩, { up with now := 10 * usNs, ev := { Ev.init with reactions := [⟨199, unitTest, 0, [], 0, false⟩] } }, by decide +kernel⟩
/-- To flash; to the host's buffer, and with the host gone. -/
def surveying (r : SurveyRun) : State := { up with ev := { Ev.init with survey := some r } }
theorem test_meets_surveyDone : (∀ b : Bool, let r : SurveyRun := ⟨b, some ⟨4096, 65536, false⟩, false⟩
      (surveying r).ev.survey = some r ∧ r.toFlash = b ∧ r.clockLoss = false ∧ getF (surveying r) Rg.FLT_POLICY_ACTION = 0 ∧
      r.buf = some ⟨4096, 65536, false⟩ ∧ hostReachable (surveying r) = true) ∧ up.ev.survey = none ∧
    hostReachable { up with hif := { up.hif with linkUp := false } } = false := by decide +kernel
theorem test_meets_sticky : up.ev.held = [] ∧ inFe up = false ∧ inFe (setF up Rg.FLT_STATE_STATE 0 2) = true ∧
    (setF up Rg.FLT_STATE_STATE 0 2).ev.reactions = [] ∧ getB (setF up Rg.FLT_FIRST_SRC_VALID 0 1) Rg.FLT_FIRST_SRC_VALID = true ∧
    getB up Rg.FLT_FIRST_SRC_VALID = false := by
  decide +kernel

/-- Stack 1 is trained. -/
def trained : State := setF up Rg.MEM_STATUS_TRAINED_B 0 1
def word1 : Nat := stackWords + 0x2FFFFFFF
def slot1 : MergeEntry := ⟨word1, [], [], true, false, 0⟩

/-- A byte; and the last of 32, which ends the entry; and a word past the end. -/
theorem test_meets_mergeRead : stackRuns trained 1 = true ∧ 0x2FFFFFFF < stackWords ∧ getMerge trained 1 = [] ∧ channelDown trained word1 = false ∧
    hbmFlips (getHbm trained word1) = 0 ∧ 0 < (zeros 1).length ∧ (zeros 1).length < 32 ∧ 31 + (zeros 1).length ≤ 32 ∧
    (let e := { slot1 with written := List.range 31 }
     getMerge (setMerge trained 1 [e]) 1 = [e] ∧ mergeWhole ([((31 : Nat), zeros 1)].foldl mergeAdd e) = true ∧
     getB (setMerge trained 1 [e]) Rg.ECC_FLIP_CTRL_ARM = false) ∧ 2 * stackWords ≤ 2 * stackWords + 0 := by decide +kernel
theorem test_meets_mergeEnd : (∃ e s, stackRuns s 1 = true ∧ (getMerge s 1).find? (fun e => !channelDown s e.word) = some e ∧ e.since + usNs ≤ s.now ∧
      hbmFlips (getHbm s e.word) = 0 ∧ trained.now < e.since + usNs) ∧
    (getMerge trained 1).find? (fun e => !channelDown trained e.word) = none :=
  ⟨⟨slot1, { setMerge trained 1 [slot1] with now := usNs }, by decide +kernel⟩, by decide +kernel⟩
/-- Retraining of stack 1 is in progress, its sensors at the temperature it began. -/
def retraining : State :=
  { setRetrain (setF trained Rg.MEM_RETRAIN_CTRL_ENABLE 0 1) 1 ⟨true, 30, none, 0, 0, false, 0, false⟩ with now := 100 * msNs }
theorem test_meets_retrainHold : stackRuns retraining 1 = true ∧ compassRuns retraining = true ∧ (let u := checkRetrain retraining 1
    let x := getRetrain u 1
    x.active = true ∧ getB u Rg.MEM_RETRAIN_CTRL_ENABLE = true ∧ x.lastHold = none ∧ quietAhead u = true ∧
    drifted ((stackTemp u 1).getD x.began) x.began (getF u Rg.MEM_RETRAIN_CTRL_THRESHOLD_C) = false ∧ x.holds + 1 < 32) ∧
    (getRetrain (checkRetrain trained 1) 1).active = false := by decide +kernel
theorem test_meets_retrainDeferred : stackRuns retraining 1 = true ∧ (getRetrain retraining 1).active = true ∧
    getB retraining Rg.MEM_RETRAIN_CTRL_ENABLE = true ∧ (getRetrain retraining 1).deferred = false ∧
    (getRetrain retraining 1).seek + 100 * msNs ≤ retraining.now ∧ stackRuns up 1 = false ∧ (getRetrain trained 1).active = false := by decide +kernel
/-- One copy differs; all three differ. -/
theorem test_meets_tmr : (let s := { up with mem := { up.mem with tmr := [(31, (5, 5, 4))] } }
      getB s Rg.ECC_FLIP_CTRL_ARM = false ∧ allEqual (tmrCopies s 31) = false ∧ allDiffer (tmrCopies s 31) = false ∧
      (∀ j, j < 32 → j ≠ 31 → allEqual (tmrCopies s j) = true)) ∧
    (let s := { up with mem := { up.mem with tmr := [(31, (5, 6, 4))] } }
     allDiffer (tmrCopies s 31) = true ∧ (∀ j, j < 32 → j ≠ 31 → allEqual (tmrCopies s j) = true) ∧
     inFe s = false ∧ s.pwr.committed = none ∧ napping s = false ∧ compassRuns s = true) := by decide +kernel
theorem test_meets_scrub (n : Fin 3) : let w := stackWords + 0x2FFFFFFE
    let s := setF { trained with mem := { trained.mem with hbm := [(w, ⟨5, 2 ^ n.val - 1, 0, false⟩)], scrub := [(1, 0x2FFFFFFE)] } } Rg.ECC_SCRUB_CTRL_HBM_PERIOD_H 0 24
    stackRuns s 1 = true ∧ getF s Rg.ECC_SCRUB_CTRL_HBM_PERIOD_H ≠ 0 ∧ getB s Rg.ECC_FLIP_CTRL_ARM = false ∧
    s.mem.scrub.get 1 0 + 1 < stackWords ∧ hbmFlips (getHbm s (stackWords + s.mem.scrub.get 1 0)) = n.val ∧ (getHbm s w).poison = false ∧
    channelDown s w = false := by
  revert n; decide +kernel
/-- The last word of a stack, the other stack being done; and a channel that is lost. -/
theorem test_meets_scrubEnd : (let s := { trained with mem := { trained.mem with scrub := [(1, stackWords - 1), (2, 1)] } }
      s.mem.scrub.get 1 0 < stackWords ∧ s.mem.scrub.get 1 0 + 1 = stackWords ∧ s.mem.scrub.get (3 - 1) 0 = 1) ∧
    ∃ r, channelDown { trained with ev := { Ev.init with reactions := [r] } } word1 = true :=
  ⟨by decide +kernel,
    ⟨0, 160 + 16 * wordStack word1 + (mapAddress (mapOrder trained (wordStack word1)) ((word1 - wordStack word1 * stackWords) * 32)).channel, 0, [], 0, false⟩,
    by decide +kernel⟩
theorem test_meets_sramScrub (n : Fin 3) :
    let s := { setF up Rg.ECC_SCRUB_CTRL_SRAM_PERIOD_MIN 0 10 with mem := { up.mem with sram := [(sramKey 4095 0, ⟨0, 2 ^ n.val - 1, 0⟩)] } }
    getF s Rg.ECC_SCRUB_CTRL_SRAM_PERIOD_MIN ≠ 0 ∧ domainOn s 79 = true ∧ getB s Rg.ECC_FLIP_CTRL_ARM = false ∧
    popCount (getSram s 4095 (s.mem.sramScrub.get 4095 0 % max 1 4)).flipData 64 +
      popCount (getSram s 4095 (s.mem.sramScrub.get 4095 0 % max 1 4)).flipCheck 8 = n.val := by
  revert n; decide +kernel

/-! ### Clocks, resets and start-up -/

def staging (x : ClkStage) : State := { State.reset with clk := { Clk.init with stage := x }, now := 20 * msNs }
/-- READY with the PLLs locked. -/
def locked : State := foldS (List.range 6) (fun s n => setF s Rg.CLK_PLL_CFG_LOCKED n 1) { up with now := 20 * msNs }

theorem test_meets_judge : (staging .troJudge).clk.stage = .troJudge ∧ (staging .troJudge).clk.troAt ≤ (staging .troJudge).now ∧
    getF (staging .troJudge) Rg.CLK_BOOT_STATUS_TRO_TRIES = 0 ∧
    getF (setF (staging .troJudge) Rg.CLK_BOOT_STATUS_TRO_TRIES 0 4) Rg.CLK_BOOT_STATUS_TRO_TRIES = 4 ∧
    (staging .xoWait).clk.stage = .xoWait ∧ (staging .xoWait).clk.xoAt + 10 * msNs ≤ (staging .xoWait).now := by decide +kernel

/-- PLL n relocks since time 0. -/
def relocking (x : ClkStage) (n : Nat) : State :=
  { setF locked Rg.CLK_PLL_CFG_LOCKED n 0 with clk := { up.clk with stage := x, relock := [(n, some 0)] } }

theorem test_meets_pll : (∀ n, n < 6 → let s := relocking .pllLock n
      pllLocked s n = false ∧ (getRelock s n).isSome = true ∧ pllIsOff s n = false ∧ s.clk.stage = .pllLock ∧
      (∀ m, m < 6 → m ≠ n → pllLocked s m = true) ∧ getRelock s n = some 0 ∧ 0 + msNs ≤ s.now) ∧
    (let s := setF (relocking .pllLock 5) Rg.CLK_PLL_CFG_LOCKED 0 0
     pllLocked s 5 = false ∧ (getRelock s 5).isSome = true ∧ ∃ m, m < 6 ∧ m ≠ 5 ∧ pllLocked s m = false) ∧
    (∀ n, n < 6 → pllLocked locked n = true ∧ locked.clk.stage = .done) ∧
    (let s := relocking .done 5
     pllLocked s 5 = false ∧ getRelock s 5 = some 0 ∧ s.clk.stage ≠ .pllLock ∧ sourceClass (pllSource 5) = .uc) ∧
    running locked = true ∧ locked.sht.running = none := by decide +kernel

def coasting : State := setF { locked with clk := { locked.clk with stage := .done } } Rg.CLK_STATUS_COAST 0 1

theorem test_meets_xo : getB coasting Rg.CLK_STATUS_COAST = true ∧ getB locked Rg.CLK_STATUS_COAST = false ∧ devState locked ≤ 2 ∧
    locked.clk.stage = .done ∧ phReady ≤ phase locked ∧ phase locked = phReady := by decide +kernel

theorem test_meets_measure : ({ locked with clk := { locked.clk with measAt := some 0 }, now := secNs }).clk.measAt = some 0 ∧
    0 + secNs ≤ ({ locked with clk := { locked.clk with measAt := some 0 }, now := secNs } : State).now := by decide +kernel

theorem test_meets_gates : let s := setF up Rg.CLK_GATE_CTRL_IDLE_US 0 1
    mayGate s 79 = true ∧ unitIdle s 79 = true ∧ closeAsked s 79 = true := by decide +kernel

/-- Domain 79 drains with a write held for it. -/
def draining : State :=
  let s := setDomain up 79 domDraining
  { s with pwr := { s.pwr with held := [⟨79, 0x03C00000, some 1⟩] } }
theorem test_meets_drain : domainState draining 79 = domDraining ∧
    draining.pwr.held.filter (fun h => h.domain == 79) = [⟨79, 0x03C00000, some 1⟩] ∧
    domainState (setDomain up 1 domReset) 1 = domReset := by decide +kernel

def atPhase (n : Nat) : State := setF up Rg.RST_STATUS_PHASE 0 n

theorem test_meets_perst : (let s := atPhase 1
      s.clk.perst = false ∧ devState s ≤ 2 ∧ s.clk.stage ≠ .hold ∧ phase s ≤ 1) ∧
    (up.clk.perst = false ∧ devState up = 0 ∧ up.pwr.committed = none ∧ up.clk.stage = .done ∧ 2 ≤ phase up ∧
      getB up Rg.RST_CTRL_PERST_ISOLATE = false) ∧ State.reset.clk.perst = true := by decide +kernel

theorem test_meets_warmReset : unitsRun up = true ∧ (∀ k, k < 2 → getMerge up k = []) ∧ bit 3 0 = true ∧ bit 2 0 = false := by decide +kernel

theorem test_meets_domainReset : unitsRun up = true ∧ up.ev.reactions = [] ∧ domainState up 79 ≠ domReset ∧ domainState up 1 ≠ domReset := by
  decide +kernel

theorem test_meets_startUp : (let s := atPhase 2
      phase s = 2 ∧ s.pwr.waking = none ∧ (dirOf s).trial = false) ∧
    (let s := atPhase 4
     phase s = 4 ∧ isLevel s Ev.MEM_TRAIN_FAIL = false ∧ s.clk.restore = false ∧ 5 = 5) ∧
    (let s := atPhase 5
     phase s = 5 ∧ s.pwr.waking = none) := by decide +kernel
/-- Every lane of both stacks with an eye of 16. -/
def goodLanes : List (Nat × Nat × Nat × Bool) := (List.range 256).map fun l => (l, 0, 16, false)
theorem test_meets_training2 : lanesPass 0 goodLanes = true ∧ lanesPass 1 goodLanes = true := by decide +kernel

/-! ### Power -/

/-- To IDLE: domains 0 and 35 are asked. -/
def entering (d : Nat) (gate : Option (Nat × Nat)) (l : List (Nat × PwrAnswer)) : PwrEntry := ⟨d, gate, none, [0, 35], l, secNs, false, false⟩
def asked (e : PwrEntry) : State := { up with pwr := { up.pwr with entry := some e } }
/-- A schedule runs, so unit 35 refuses. -/
def askedShowing (e : PwrEntry) : State := { asked e with sht := showing.sht }

theorem test_meets_unitAnswer : let e := entering 1 none []
    (∀ d ∈ e.units, d < 80) ∧ 35 ∈ e.units ∧ (askedShowing e).now < e.deadline ∧ e.answers.get 35 .none = .none ∧
    refusal (askedShowing e) e 35 = some 1 ∧ refusal (asked e) e 35 = none ∧ mustDefer (asked e) 35 = false ∧
    allAcked { e with answers := e.answers.set 35 .ack .none } = false ∧ e.deadline ≤ ({ asked e with now := secNs } : State).now ∧
    allAcked e = false := by decide +kernel

/-- Unit 0 has answered. -/
theorem test_meets_entryMade : (∀ g : Fin 5, let e := entering g none [(0, .ack)]
      e.answers.get 35 .none = .none ∧ refusal (asked e) e 35 = none ∧ mustDefer (asked e) 35 = false ∧
      allAcked { e with answers := e.answers.set 35 .ack .none } = true ∧ refusal (asked e) e 0 = none) ∧
    let e := entering 0 (some (35, 1)) [(0, .ack)]
    refusal (asked e) e 35 = none ∧ allAcked { e with answers := e.answers.set 35 .ack .none } = true ∧ refusal (asked e) e 0 = none ∧
      policyAllowed 35 1 = true := by decide +kernel

theorem test_meets_deferRetry : let e := entering 1 none [(35, .defer 5)]
    e.answers.get 35 .none = .defer 5 ∧ 5 ≤ ({ asked e with now := 5 } : State).now := by decide +kernel

theorem test_meets_autoGate : mayAutoGate (setF { up with now := secNs } Rg.PWR_DOMAIN_POLICY 78 2) 78 = true := by decide +kernel

theorem test_meets_domainWake : domainState (setDomain up 79 domWaking) 79 = domWaking ∧ domainState (setDomain up 1 domWaking) 1 = domWaking := by
  decide +kernel

theorem test_meets_proceed : let s : State := { up with pwr := { up.pwr with committed := some (4, 0, 0, 0) }, now := msNs }
    s.pwr.committed = some (4, 0, 0, 0) ∧ 0 + msNs ≤ s.now := by decide +kernel

/-- The device in state n with every wake source enabled, and one comparator: temperature 31 above 0, on the first sample. -/
def asleep (n : Nat) : State :=
  let r := 1 + 31 * 2 ^ 8 + 1 * 2 ^ 24
  setF { up with pwr := { up.pwr with wakeEn := 63, cmps := [r] } } Rg.PWR_STATE_STATE 0 n

theorem test_meets_sample : let s := asleep 3
    let temps := List.replicate 32 (1 : Int)
    devState s = 3 ∧ s.pwr.waking = none ∧ s.pwr.committed = none ∧ 0 < s.pwr.cmps.length ∧ cmpMatches (s.pwr.cmps.getD 0 0) temps [] [] true = true ∧
    bits (s.pwr.cmps.getD 0 0) 24 8 ≤ s.pwr.runs.get 0 0 + 1 ∧ bits (s.pwr.cmps.getD 0 0) 48 8 = 0 ∧ bit s.pwr.wakeEn 1 = true := by decide +kernel

theorem test_meets_alarm (n : Fin 4) : let s := setF (asleep n) Rg.PWR_RTC_ALARM_ARMED 0 1
    getB s Rg.PWR_RTC_ALARM_ARMED = true ∧ rtcSec s % 2 ^ 32 = getF s Rg.PWR_RTC_ALARM_SEC_LOW ∧ devState s = n ∧ s.pwr.committed = none ∧
    s.pwr.waking = none ∧ bit s.pwr.wakeEn 0 = true := by revert n; decide +kernel

theorem test_meets_rtcLoad : let s := setF up Rg.MER_STATUS_TIME_VALID 0 1
    getB s Rg.MER_STATUS_TIME_VALID = true ∧ domainOn s 5 = true ∧ atSecond s 0 = true := by decide +kernel

theorem test_meets_wake (n : Fin 5) : let s := asleep n
    devState s = n ∧ s.pwr.committed = none ∧ aonFault none = none ∧ 32 % 64 &&& s.pwr.wakeEn % 64 ≠ 0 ∧ s.pwr.waking = none ∧
    s.clk.perst = false ∧ bit s.pwr.wakeEn 5 = true := by revert n; decide +kernel

theorem test_meets_wakeDone : let s := setDomain { asleep 3 with pwr := { (asleep 3).pwr with waking := some 3 } } 79 domRetained
    s.pwr.waking = some 3 ∧ devState s = 3 ∧ s.pwr.wakeFault = none ∧ s.clk.perst = false ∧ domainState s 79 = domRetained := by decide +kernel

/-! ### Editions -/

/-- An image with a header and no section. -/
def imageHead : List Byte := leBytes 4 0x4E544445 ++ leBytes 2 1 ++ leBytes 2 512 ++ leBytes 4 544 ++ leBytes 4 7 ++ leBytes 4 0 ++ zeros 492
def noSections : List Byte := imageHead ++ digestBytes imageHead

theorem noSections_format : edBadFormat noSections = none := by
  have a : edHeaderOk noSections = true := by decide +kernel
  have b : edDirOk noSections = true := by decide +kernel
  have c : edBadCrc noSections = none := by decide +kernel
  have d : (edSection noSections 1).isSome = false := by decide +kernel
  have e : (noSections.drop (edEnd noSections)).take 32 = digestBytes (noSections.take (edEnd noSections)) := by
    have f : edEnd noSections = 512 := by decide +kernel
    have g : imageHead.length = 512 := by decide +kernel
    have k : (digestBytes imageHead).length = 32 := by decide +kernel
    rw [f, noSections, List.take_left' g, List.drop_left' g, List.take_of_length_le (Nat.le_of_eq k)]
  simp [edBadFormat, a, b, c, d, e]

def selectOf (st ap : Bool) : Select := ⟨0, 3, 0, st, noSections, 0, [], ap, 0, 0, []⟩
/-- The image stands in slot 3 and is selected. -/
def selecting (s : State) (img : List Byte) (x : Select) : State :=
  { s with sec := { s.sec with select := some x, flash := { s.sec.flash with ed := [(3, img)] } } }
def onSchedule : State := { up with sht := { up.sht with running := some sched } }

theorem noSections_check (s : State) (a : edTooNew s noSections = false) (b : (edBuild s noSections).2 = none)
    (c : edPolicy s noSections = none) : edCommandCheck s noSections = none := by
  simp [edCommandCheck, noSections_format, a, b, c]

theorem test_meets_staging : let s := selecting onSchedule noSections (selectOf false false)
    s.sec.select = some (selectOf false false) ∧ slotImage s 3 ≠ [] ∧ edCommandCheck s (slotImage s 3) = none ∧
    3 ∉ sectionsDiffering s (edBuild s (slotImage s 3)).1 ∧ edLoadOk s (edBuild s (slotImage s 3)).1 = true ∧ (scheduleOf s 0).isSome = true :=
  ⟨rfl, by decide +kernel, noSections_check _ (by decide +kernel) (by decide +kernel) (by decide +kernel), by decide +kernel,
    by decide +kernel, by decide +kernel⟩

theorem test_meets_stagingPools : let s := selecting (openStream Stream.init) noSections (selectOf false false)
    edCommandCheck s (slotImage s 3) = none ∧ 3 ∈ sectionsDiffering s (edBuild s (slotImage s 3)).1 ∧ anyStream s = true :=
  ⟨noSections_check _ (by decide +kernel) (by decide +kernel) (by decide +kernel), by decide +kernel, by decide +kernel⟩

theorem test_meets_stagingResource :
    let s := selecting (setStream up 3 { Stream.init with state := stRunning, opened := hevcOpen }) noSections (selectOf false false)
    edCommandCheck s (slotImage s 3) = none ∧ 3 ∉ sectionsDiffering s (edBuild s (slotImage s 3)).1 ∧
    edLoadOk s (edBuild s (slotImage s 3)).1 = false :=
  ⟨noSections_check _ (by decide +kernel) (by decide +kernel) (by decide +kernel), by decide +kernel, by decide +kernel⟩

theorem test_meets_stagingEnds : slotImage (selecting up [] (selectOf false false)) 3 = [] ∧
    (let s := selecting up (zeros 64) (selectOf false false)
     slotImage s 3 ≠ [] ∧ edCommandCheck s (slotImage s 3) = some (fbFormat, 0) ∧ isAuth fbFormat = false) := by decide +kernel

def retired : State := { up with mem := { up.mem with tmr := [(0, (3, 3, 3))] } }
/-- A device in lifecycle RETIRED takes no image. -/
theorem test_meets_stagingAuth : let s := selecting (retired) noSections (selectOf false false)
    edCommandCheck s (slotImage s 3) = some (fbPolicy, 0) ∧ isAuth fbPolicy = true :=
  ⟨by
    have a : edTooNew (selecting (retired) noSections (selectOf false false)) noSections = false := by decide +kernel
    have b : (edBuild (selecting (retired) noSections (selectOf false false)) noSections).2 = none := by decide +kernel
    have c : edPolicy (selecting (retired) noSections (selectOf false false)) noSections = some fbPolicy := by decide +kernel
    show edCommandCheck _ noSections = _
    simp [edCommandCheck, noSections_format, a, b, c], by decide +kernel⟩

theorem test_meets_editionInstant : let x := selectOf true false
    x.applied = false ∧ x.staged = true ∧ instantDue (selecting up noSections x) x = true ∧ x.deferred = [] ∧ x.slot < 4 ∧
    (selectOf true true).applied = true := by decide +kernel

theorem test_meets_activateReset : ({ up with sec := { up.sec with resetAt := some 0 } }).sec.resetAt = some 0 ∧ 0 ≤ up.now ∧ ¬5 ≤ up.now := by
  decide +kernel

theorem test_meets_programmed : ∃ (j : FlashJob) (s : State), s.sec.jobs = [j] ∧ (dirOf s).seq + 1 < 2 ^ 32 ∧ flashUsable s = true ∧
    j.image ≠ [] :=
  ⟨⟨0, true, 3, zeros 64⟩, { staged with sec := { staged.sec with jobs := [⟨0, true, 3, zeros 64⟩] } }, by decide +kernel⟩

theorem test_meets_watchdog : compassRuns up = true ∧ inFe up = false ∧ napping up = false ∧ getF up Rg.FLT_POLICY_ACTION ≠ 1 := by
  decide +kernel

/-! ### Background services and SMBus -/

/-- One curve a colour, of 16 points. -/
def curves3 : Curves := List.replicate 3 ((List.range 16).map fun k => (1000 * k, 32768 - k))
def ageing (p : Option GainPass) : State := { up with bg := { up.bg with curves := some curves3, pass := p } }

theorem test_meets_ageing : up.bg.curves = none ∧ (ageing none).bg.curves = some curves3 ∧
    (let s : State := { setF (ageing none) Rg.SNS_AGE_CTRL_ENABLE 0 1 with now := 100000 * secNs }
     getB s Rg.SNS_AGE_CTRL_ENABLE = true ∧ s.bg.passAt + 60 * getF s Rg.SNS_AGE_CTRL_PERIOD_MIN ≤ rtcSec s) ∧
    getB (setF up Rg.SNS_AGE_CTRL_ENABLE 0 0) Rg.SNS_AGE_CTRL_ENABLE = false := by decide +kernel

theorem test_meets_passDone : let s := ageing (some ⟨curves3, [9]⟩)
    s.bg.pass = some ⟨curves3, [9]⟩ ∧ s.bg.passAgain = false ∧ s.bg.doseWait = [] ∧ domainOn s 35 = true := by decide +kernel

theorem test_meets_summary : let s := setF { staged with now := 3600 * secNs } Rg.SNS_SUMMARY_PERIOD_H 0 1
    getF s Rg.SNS_SUMMARY_PERIOD_H ≠ 0 ∧ s.bg.summaryAt + getF s Rg.SNS_SUMMARY_PERIOD_H * 3600 * secNs ≤ s.now ∧ flashUsable s = true ∧
    compassRuns s = true := by decide +kernel

theorem test_meets_flush : let s : State := { staged with bg := { staged.bg with faultBuf := List.replicate 64 (zeros 64) }, now := 10 * secNs }
    s.bg.faultBuf ≠ [] ∧ 64 ≤ s.bg.faultBuf.length ∧ s.bg.flushAt + 10 * secNs ≤ s.now ∧ flashUsable s = true ∧ compassRuns s = true := by
  decide +kernel

theorem test_meets_telemetry : let s : State :=
      { setF up Rg.HIF_DMA_CH_OWNER 63 ownerTelemetry with bg := { up.bg with telemetry := some ⟨4096, 4096, 7⟩ } }
    s.bg.telemetry = some ⟨4096, 4096, 7⟩ ∧ hostReachable s = true ∧ (channelOf s ownerTelemetry).isSome = true ∧
    (channelOf up ownerTelemetry).isSome = false := by decide +kernel

theorem test_meets_sensors : let temps := List.replicate 32 (0 : Int)
    let rails := (List.range 12).map fun i => (getF up Rg.SNS_RAIL_THR_LOW_CRIT i : Int)
    devState up ≤ 2 ∧ (∀ v ∈ temps ++ rails, -32768 ≤ v ∧ v < 32768) ∧ up.bg.temps ++ up.bg.rails = [] ∧
    (∀ i, i < temps.length → tempCrit up i (temps.getD i 0) = false) ∧
    (∀ i, i < rails.length → railCrit up i (rails.getD i 0) = false) ∧ rails.length = 12 := by decide +kernel

def smbus (off : Nat) (s : State) : State := { s with sec := { s.sec with smbOffset := off } }

theorem test_meets_smbus : let off := 0x02000008
    let s := smbus off up
    s.sec.smbOffset % 4 = 0 ∧ s.sec.smbOffset < 0x04000000 ∧ occupied off = true ∧ smbLive s off = true ∧ domainOn s (domainOf off) = true ∧
    unitRead (smbAnswer s (peekWord s off)) off = none :=
  ⟨rfl, by decide +kernel, by decide +kernel, by decide +kernel, by decide +kernel, rfl⟩

theorem test_meets_smbusStandIn : let off := 0x01C00000
    let s := smbus off (setDomain up 35 domRetained)
    s.sec.smbOffset % 4 = 0 ∧ s.sec.smbOffset < 0x04000000 ∧ occupied off = true ∧ smbLive s off = true ∧ domainOn s (domainOf off) = false ∧
    domainOf off < 80 := by decide +kernel

theorem test_meets_smbusResets : up.clk.stage = .done ∧ devState up ≤ 2 ∧ unitsRun up = true ∧ unitsRun State.reset = false := by decide +kernel

/-! ### Further clauses of the clocks', resets', power, edition, background and SMBus statements -/

/-- A PLL that locks again in service ends the reaction that waits for it; one whose loss is no UC fault. -/
theorem test_meets_pllReaction : (∃ (n : Nat) (r : Reaction), n < 6 ∧
      let s := { relocking .done n with ev := { Ev.init with reactions := [r] } }
      pllLocked s n = false ∧ (getRelock s n).isSome = true ∧ pllIsOff s n = false ∧ s.clk.stage = .done ∧ pllReaction s n = some r ∧
      overLimit s r = false ∧ r.param < 65536) ∧ (∀ n, n < 6 → pllReaction (relocking .done n) n = none) ∧
    ∃ n a, n < 6 ∧ let s := relocking .done n
      sourceClass (pllSource n) ≠ .uc ∧ pllLocked s n = false ∧ getRelock s n = some a ∧ a + msNs ≤ s.now ∧ s.clk.stage ≠ .pllLock :=
  ⟨⟨5, ⟨pllSource 5, unitTpll, 5, [5], 0, false⟩, by decide +kernel⟩, by decide +kernel, ⟨2, 0, by decide +kernel⟩⟩
/-- XO lost at the PLLs' lock, during start-up, and in WATCH. -/
theorem test_meets_xoLoss : getB (staging .pllLock) Rg.CLK_STATUS_COAST = false ∧ devState (staging .pllLock) ≤ 2 ∧
    (let s := setF locked Rg.RST_STATUS_PHASE 0 2
     s.clk.stage = .done ∧ phase s < phReady ∧ warmRuns s = false ∧ getB s Rg.CLK_STATUS_COAST = false) ∧
    (let s := setF locked Rg.PWR_STATE_STATE 0 3
     getB s Rg.CLK_STATUS_COAST = false ∧ devState s = 3) := by decide +kernel
theorem test_meets_gateBusy : mayGate up 1 = false ∧ closeAsked up 1 = false ∧ (staging .xoWait).clk.stage ≠ .done ∧ pllLocked up 0 = false := by
  decide +kernel

theorem test_meets_perstHold (a : Bool) : let s := setF { State.reset with clk := { Clk.init with stage := .hold, perst := false } } Rg.CLK_BOOT_STATUS_CODE 0 (if a then 3 else 1)
    s.clk.perst = false ∧ devState s ≤ 2 ∧ s.clk.stage = .hold := by cases a <;> decide +kernel
theorem test_meets_isolated : let s := { setF up Rg.RST_CTRL_PERST_ISOLATE 0 1 with sec := { up.sec with edition := zeros 1 } }
    s.clk.perst = false ∧ devState s = 0 ∧ s.pwr.committed = none ∧ s.clk.stage = .done ∧ 2 ≤ phase s ∧
    getB s Rg.RST_CTRL_PERST_ISOLATE = true ∧ phase s = phReady ∧ s.sec.edition ≠ [] := by decide +kernel
/-- A domain of a die whose link is down. -/
theorem test_meets_domainWaits : ∃ d die s, unitsRun s = true ∧ dieOf d = some die ∧ linkIsDown s die = true :=
  ⟨79, 1, { linkGone 3 with ev := { Ev.init with reactions := [⟨Ev.PRT_D2D_DOWN_W + 1, Ev.PRT_D2D_DOWN_W + 1, 79, [], 0, false⟩] } }, by decide +kernel⟩
theorem test_meets_domainNow : ((dieOf 79).map (linkIsDown up)).getD false = false ∧ ((dieOf 1).map (linkIsDown up)).getD false = false := by
  decide +kernel
/-- Contents kept over a reset. -/
theorem test_meets_trainingKept : let s := { atPhase 4 with clk := { up.clk with restore := true } }
    phase s = 4 ∧ isLevel s Ev.MEM_TRAIN_FAIL = false ∧ s.clk.restore = true ∧ phase up ≠ 2 ∧ phase up ≠ 4 ∧ phase up ≠ 5 := by decide +kernel

theorem test_meets_noEntry : up.pwr.entry = none ∧ up.pwr.committed = none ∧ mayAutoGate up 78 = false ∧ domainState up 79 ≠ domWaking ∧
    (let e := entering 1 none [(35, .defer 5)]
     ∀ a, e.answers.get 35 .none = .defer a → (asked e).now < a) :=
  ⟨rfl, rfl, by decide +kernel, by decide +kernel, fun a h => by
    have k : (entering 1 none [(35, .defer 5)]).answers.get 35 .none = .defer 5 := by decide +kernel
    rw [k] at h; cases h; decide +kernel⟩
/-- The ring has passed the completion, or not yet and the time has not come. -/
theorem test_meets_committed : (let s : State := { up with pwr := { up.pwr with committed := some (3, 0, 0, cqHead up 0) } }
      s.pwr.committed = some (3, 0, 0, cqHead up 0) ∧ hostReachable s = true ∧ (cqHead s 0 + 2 ^ 32 - cqHead up 0) % 2 ^ 32 < 2 ^ 31) ∧
    (let s : State := { up with pwr := { up.pwr with committed := some (3, 0, 64, 0) } }
     s.now < 0 + msNs) := by decide +kernel
theorem test_meets_noMatch : let s := asleep 3
    0 < s.pwr.cmps.length ∧ cmpKind (s.pwr.cmps.getD 0 0) ≠ 0 ∧ cmpMatches (s.pwr.cmps.getD 0 0) (List.replicate 32 0) [] [] true = false ∧
    devState up ≠ 3 := by decide +kernel
theorem test_meets_noAlarm : getB up Rg.PWR_RTC_ALARM_ARMED = false ∧ getB up Rg.MER_STATUS_TIME_VALID = false ∧
    (aonFault none = none ∧ 0 % 64 &&& up.pwr.wakeEn % 64 = 0) ∧ up.pwr.waking ≠ some 3 := by decide +kernel
/-- A fault of PD00 wakes without an enabled source. -/
theorem test_meets_faultWake : ∃ f, aonFault f ≠ none := ⟨some 325, by decide +kernel⟩

/-- No schedule runs, and no part differs from what is in force. -/
theorem test_meets_stagingNow : let s := selecting up noSections (selectOf false false)
    edCommandCheck s (slotImage s 3) = none ∧ 3 ∉ sectionsDiffering s (edBuild s (slotImage s 3)).1 ∧
    edLoadOk s (edBuild s (slotImage s 3)).1 = true ∧ (scheduleOf s 0).isSome = false ∧ (selectOf false false).deferred = [] ∧
    (selectOf false false).slot < 4 ∧ slotImage s 3 ≠ [] :=
  ⟨noSections_check _ (by decide +kernel) (by decide +kernel) (by decide +kernel), by decide +kernel, by decide +kernel, by decide +kernel,
    rfl, by decide +kernel, by decide +kernel⟩
/-- Before the instant, view 0's trigger being 100 ns ahead. -/
theorem test_meets_noSelect : up.sec.select = none ∧ (selectOf true true).waits = [] ∧ up.sec.resetAt = none ∧ up.sec.jobs = [] ∧
    (let s := setF onSchedule Rg.MER_TRIG_START_START 0 100
     instantDue (selecting s noSections (selectOf true false)) (selectOf true false) = false) := by decide +kernel
theorem test_meets_programmedEmpty : ∃ (j : FlashJob) (s : State), s.sec.jobs = [j] ∧ (dirOf s).seq + 1 < 2 ^ 32 ∧ flashUsable s = true ∧ j.image = [] :=
  ⟨⟨0, true, 3, []⟩, { staged with sec := { staged.sec with jobs := [⟨0, true, 3, []⟩] } }, by decide +kernel⟩
theorem test_meets_watchdogStates : compassRuns State.reset = false ∧
    (let s := setF up Rg.FLT_STATE_STATE 0 2
     compassRuns s = true ∧ inFe s = true) ∧
    (let s := setF up Rg.FLT_POLICY_ACTION 0 1
     compassRuns s = true ∧ inFe s = false ∧ getF s Rg.FLT_POLICY_ACTION = 1) := by decide +kernel

theorem test_meets_ageingAgain : let s : State := { setF (ageing (some ⟨curves3, [9]⟩)) Rg.SNS_AGE_CTRL_ENABLE 0 1 with now := 100000 * secNs }
    getB s Rg.SNS_AGE_CTRL_ENABLE = true ∧ s.bg.passAt + 60 * getF s Rg.SNS_AGE_CTRL_PERIOD_MIN ≤ rtcSec s ∧ servicesRun s = true ∧
    s.bg.curves ≠ none ∧ s.bg.pass = some ⟨curves3, [9]⟩ ∧ ((ageing (some ⟨curves3, [9]⟩)).bg.curves = some curves3) ∧
    (let u : State := { s with bg := { s.bg with passAgain := true } }
     u.bg.passAgain = true ∧ u.bg.doseWait = [] ∧ domainOn u 35 = true ∧ curves3 ≠ []) := by decide +kernel
theorem test_meets_services : servicesRun up = true ∧ servicesRun (setDomain up 2 domOff) = false ∧ up.bg.pass = none ∧ up.bg.faultBuf = [] ∧
    servicesRun { staged with now := 3600 * secNs } = true := by decide +kernel
/-- A record is due, with a ring or none; and not. -/
theorem test_meets_telemetryDue : telemetryDue { up with mer := { up.mer with sec := 1 }, now := secNs } = true ∧ up.bg.telemetry = none ∧
    (∃ s, telemetryDue s = false) ∧ servicesRun up = true :=
  ⟨by decide +kernel, rfl, ⟨{ up with bg := { up.bg with teleAt := some (0, 0) } }, by decide +kernel⟩, by decide +kernel⟩
/-- DORMANT, sensor 10 critical for the second time. -/
theorem test_meets_sensorWake : ∃ s, let temps := List.replicate 32 (32000 : Int)
    devState s = 4 ∧ s.pwr.waking = none ∧ s.pwr.committed = none ∧ s.clk.perst = false ∧ 10 < temps.length ∧
    tempCrit s 10 (temps.getD 10 0) = true ∧ (getTempMon s 10).crit = 1 ∧ isLevel s Ev.SNS_TEMP_CRIT = false :=
  ⟨{ asleep 4 with bg := { up.bg with temps := [(10, { Monitor.init with crit := 1 })] } }, by decide +kernel⟩
theorem test_meets_sensorOff : devState (asleep 3) = 3 ∧ ∀ m ∈ up.bg.temps ++ up.bg.rails, m.2.crit = 0 := by decide +kernel

theorem test_meets_smbusNothing : (smbus 2 up).sec.smbOffset % 4 ≠ 0 ∧ (let s := smbus 0x02000008 (staging .hold)
     s.sec.smbOffset % 4 = 0 ∧ occupied s.sec.smbOffset = true ∧ smbLive s s.sec.smbOffset = false) := by decide +kernel
theorem test_meets_smbusWake (n : Fin 5) : let s := asleep n
    s.pwr.committed = none ∧ devState s = n ∧ bit s.pwr.wakeEn 5 = true ∧ s.pwr.waking = none ∧ s.clk.perst = false ∧ bit up.pwr.wakeEn 5 = false := by
  revert n; decide +kernel

/-! ### The spec's worked examples -/

/-- 04_contour_stream.md, reader examples. -/
theorem test_readers : rdUe [true] = some (0, []) ∧ rdUe [false, false, true, true, true] = some (6, []) ∧ sCode 6 = -3 ∧
    rdRice 2 [true, true, false, false, true] = some (9, []) ∧
    rdRice 0 (List.replicate 16 true ++ [false, true, false]) = some (17, []) := by decide +kernel

/-- 04_contour_stream.md, the start of a 512 × 512 sheet picture: header bytes and the cost of a floor row. -/
def header512 : PicHdr := ⟨1, true, false, false, true, false, false, true, 12, 1, 0, 0x01A7, 512, 512, 4⟩
theorem test_header512 : (headerBytes header512).take 16 = beBytes 16 0xC0E1164844_01A701FF01FF0C00000000 ∧ floorCost header512 = 1538 ∧
    header512.numSlices = 8 ∧ checkHeader (headerBytes header512) = .ok header512 := by decide +kernel

/-- 05_contour_process.md, one 16 × 16 cell from bits to samples. -/
def cellHdr : PicHdr := ⟨0, true, false, false, true, false, false, false, 8, 1, 0, 0, 16, 16, 1⟩
def cellSlice : List Byte :=
  let b := beBytes 2 0xC51C ++ zeros 6 ++ beBytes 4 24 ++ beBytes 8 0x1889_9110_BE92_EF00
  b ++ beBytes 4 (crc32c b)
def cellPlanes : Option Picture :=
  (decodeSlice cellHdr none none ⟨0, 0, 1, 24⟩ cellSlice ⟨cellHdr.blank, false, false, false⟩).map fun x => outputOf (toSlot cellHdr x.planes)
def cellPixel (y x : Nat) : List Nat := match cellPlanes with
  | none => []
  | some p => p.planes.map fun c => (c.getD y []).getD x 0
theorem test_cell : checkSlice cellHdr cellSlice none 24 = some ⟨0, 0, 1, 24⟩ ∧ cellPixel 0 0 = [130, 132, 132] ∧
    cellPixel 3 7 = [134, 136, 136] ∧ cellPixel 5 12 = [134, 136, 136] ∧ cellPixel 12 3 = [131, 133, 133] ∧
    cellPixel 8 15 = [134, 136, 136] ∧ cellPixel 15 8 = [131, 133, 133] ∧ cellPixel 15 15 = [133, 135, 135] := by decide +kernel

/-- 06_encoding_rate_control.md, allowances at rows 24 and 27 of the picture whose budget runs out. -/
def run512 (row used slice : Nat) : EncRun := { coding with hdr := header512, row := row, cp := 400000, cs := 96000, usedPic := used, usedSlice := slice }
theorem test_allowance : (run512 24 350000 128).afterP 1538 = 10908 ∧ (run512 24 350000 128).sp = 50000 ∧
    (run512 24 350000 128).afterS 1538 = 4621 ∧ (run512 24 350000 128).ss = 95872 ∧
    (run512 27 387600 37728).afterP 1538 = 6294 ∧ (run512 27 387600 37728).sp = 12400 ∧ (run512 27 387600 37728).afterP 2 = 150 ∧
    (startRun EncSheet.init header512 [] 0 0 false [] 50000 12000 75 20 30).nominal = 300000 := by decide +kernel

/-- 02_wall_model.md, the wall's rotated cabinet: the canvas pixels that its pixels (10, 3) and (0, 0) show, within its region;
a sample expanded to 16 bits. -/
def rotated : List Byte := leBytes 2 3 ++ zeros 2 ++ leBytes 2 1024 ++ leBytes 2 512 ++ leBytes 2 512 ++ leBytes 2 512 ++ zeros 52
theorem test_rotated : gPixel rotated 3 10 = (522, 1532) ∧ gPixel rotated 0 0 = (512, 1535) ∧ expand16 10 1023 = 65535 := by decide +kernel

/-- 07_sheet_transport.md, four views at 240 Hz: S, E and unit 0's instant on port 4, a chain of 8 cabinets. -/
def chainCabinet (h : Nat) : List Byte :=
  leBytes 2 48 ++ zeros 2 ++ leBytes 4 0 ++ leBytes 2 512 ++ leBytes 2 512 ++ leBytes 1 4 ++ leBytes 1 h ++ zeros 10 ++ leBytes 1 4 ++
  leBytes 1 12 ++ leBytes 2 1 ++ leBytes 4 50000 ++ leBytes 4 12000 ++ zeros 28
def chain8 : State :=
  let s := foldS (List.range 8) (fun s h => setF (setF s Rg.SHT_HOP_DELAY_DELAY_NS (64 + h) (if h = 0 then 1520 else 5790)) Rg.SHT_HOP_DELAY_VALID (64 + h) 1)
    (setF up Rg.SHT_CTRL_VLAN_EN 0 1)
  { s with ports := [(4, { Port.init with cfg := portCfg 4, resolved := some 3 })], prj := { s.prj with gzt := (List.range 8).map fun h => (h, chainCabinet h) },
           sht := { s.sht with recs := (List.range 8).map fun h => (64 + h, zeros 40 ++ beBytes 4 30000 ++ zeros 20) } }
theorem test_chain8 : let l := sheetsOn chain8.prj.gzt 0 4
    let x := portLead chain8 0 4
    let pic := { sheetPic true 2002000000 with entry := chainCabinet 0, lead := x.1, bytes := x.2 }
    l.length = 8 ∧ serialisation x.2 5000 = 65188 ∧ x.1 = 55790 ∧ emissionE chain8 0 4 0 2002000000 = 2001944210 ∧
    picDeadline pic = 2001944210 ∧ unitInstant chain8 pic 0 = 2001944210 - 57039 := by decide +kernel

/-- 08_meridian_time.md, a trigger armed before the MST wrap, and one aimed 2.5 s ahead. -/
def slate (start : Nat) : State :=
  let s := setF (setF (setF up Rg.MER_STATUS_TIME_VALID 0 1) Rg.MER_TRIG_START_START 12 start) Rg.MER_TRIG_PERIOD_PERIOD_NS 12 250000000
  let s := setF s Rg.MER_TRIG_COUNT_COUNT 12 4
  execD (.triggerArm 12 (1 + 4 * 4 + 1000 * 65536)) { s with mer := { s.mer with sec := 1717986922, ns := 394967296 } }
where execD (i : Instr) (s : State) : State := match exec i s with
  | .next t => t
  | _ => s
theorem test_slate : getF (slate 200000000) Rg.MER_TRIG_CTRL_ARM 12 = 1 ∧ getF (slate 200000000) Rg.MER_TRIG_STATUS_MISSED 12 = 0 ∧
    trigInstant (slate 200000000) 12 3 = 950000000 ∧ getF (slate 2200000000) Rg.MER_TRIG_CTRL_ARM 12 = 0 ∧
    getF (slate 2200000000) Rg.MER_TRIG_STATUS_MISSED 12 = 4 := by decide +kernel

/-- 09_ports_switch.md, measuring a copper chain cable, and the optical port with no PTP sample. -/
def copper : State :=
  let c := (((portCfg 12).set 21 2).set 28 1).set 29 3
  let s := setF { up with ports := [(12, { Port.init with cfg := c })] } Rg.PRT_STATUS_STATE 12 prtUp
  setF (setF (setF (setF s Rg.PRT_STATUS_RATE 12 2) Rg.PRT_CHAN_IL 12 199) Rg.MER_PTP_MPD_VALID 12 1) Rg.MER_PTP_MPD_DELAY 12 489
theorem test_copper : measureLengths copper 12 = ⟨some (134, 67, 14), some (489, 0, 67, 7), 2⟩ ∧
    (measureLengths chain8 4).delay.map (·.2.2) = some (3102, 36) := by decide +kernel

/-- 10_traffic_manager.md, a gate list with a past base time. -/
theorem test_gateStart : gateStart (1717986920000000250 * 65536) (1000000 * 65536) ((1717986922394967296 + 10000) * 65536) =
    1717986922395000250 * 65536 := by decide +kernel

/-- 13_memory.md, one latitude across sixteen channels. -/
theorem test_latitude : hbmLocation (setF up Rg.MEM_MAP_ORDER_B 0 3) (stackWords + 0x40CB3F40 / 32) =
    padLoc (ascii "HBMB.MEMORY.CH02.PC0.0x1_8819") ∧
    (List.range 16).map (fun r => (mapAddress 3 (0x40000000 + (512 + r) * 25600 + 8000)).channel) =
      [10, 13, 4, 15, 6, 9, 0, 11, 2, 5, 12, 7, 14, 1, 8, 3] := by decide +kernel

/-- 17_background_services.md, evening out a logo. -/
def redCurve : List (Nat × Nat) := [(0, 32768), (144000000, 31130), (288000000, 29491)] ++ (List.range 13).map fun k => (288000001 + k, 29491)
theorem test_logo : relativeOutput redCurve 200000000 = 30493 ∧ relativeOutput redCurve 50000000 = 32200 ∧ blockGain 30493 30493 = 32768 ∧
    blockGain 30493 32200 = 31031 ∧ blockGain 30493 32768 = 30493 := by decide +kernel

/-- 18_package.md, R434: the status pins at READY, in a fatal fault, and in WATCH. -/
theorem test_pins : gpioPin State.reset 0 = false ∧ gpioPin up 0 = true ∧ gpioPin up 3 = false ∧ gpioPin (setF up Rg.FLT_STATE_STATE 0 2) 3 = true ∧
    gpioPin (asleep 3) 0 = false ∧ smbAlertN up = true ∧ smbAlertN (setF up Rg.FLT_STATE_STATE 0 2) = false := by decide +kernel

theorem test_meets_inv : Inv up ∧ up.pending = [] :=
  ⟨⟨by decide +kernel, by decide +kernel, by decide +kernel, by decide +kernel, by decide +kernel, by decide +kernel⟩, rfl⟩

end Sys2Proof.Tests
end

section
/-!
SUPPORT. Raising an event: the occurrence it leaves at the end of the event log (R307), and what it leaves as it was.
-/

namespace Sys2Proof.Machine

/-! ### What raising an event leaves as it was -/

/-- An event moves its source, the event log and the fault log, and nothing else (R302, R307, R422). -/
theorem raiseEv_changesOnly (s : State) (n param data : Nat) :
    ChangesOnly [.ev, .bgLog, .regs 4] s (raiseEv s n param data) :=
  changesOnly_of_fr (fr_raiseEv rfl rfl rfl (Fr.refl _ s))

@[simp] theorem raiseEv_wire (s : State) (n param data : Nat) : (raiseEv s n param data).wire = s.wire :=
  raiseEv_changesOnly s n param data .wire (by decide)

/-- Fields outside the window of the event registers read the same. -/
theorem getF_raiseEv {f : Fld} (k : Nat) (hf : (fldIn f && fldWin f == k) = true) (hk : k ≠ 4) (s : State)
    (n param data i : Nat) : getF (raiseEv s n param data) f i = getF s f i :=
  getF_same hf (raiseEv_changesOnly s n param data (.regs k) (by simp [hk]))

/-! ### The occurrence logged -/

/-- The log takes the occurrence at its end and keeps the last 4,096, whether or not the fault log takes it too. -/
theorem logOccurrence_log (s : State) (n param data : Nat) :
    (logOccurrence s n param data).ev.log =
      (s.ev.log ++ [(⟨n, (getSrc s n).collapsed, param, data, mst s⟩ : EvRec)]).drop (s.ev.log.length + 1 - 4096) := by
  simp only [logOccurrence]
  split <;> dsimp only

theorem lastEvent_logOccurrence (s : State) (n param data : Nat) :
    lastEvent (logOccurrence s n param data) n param data := by
  have hkept : ¬s.ev.log.length + 1 ≤ s.ev.log.length + 1 - 4096 := by omega
  rw [lastEvent, logOccurrence_log, List.getLast?_drop, List.length_append, List.length_singleton, if_neg hkept,
    List.getLast?_concat]
  rfl

/-- An EVENT of a named source is the newest occurrence of the log, whatever the source's enables (R307). -/
theorem lastEvent_raiseEv (s : State) {n param data : Nat} (hn : sourceNamed n = true) (hp : param < 65536)
    (hd : data < 2 ^ 32) : lastEvent (raiseEv s n param data) n param data := by
  rw [raiseEv, occur, if_pos hn, Nat.mod_eq_of_lt hp, Nat.mod_eq_of_lt hd]
  exact lastEvent_logOccurrence _ n param data

end Sys2Proof.Machine
end

section
/-!
PROOFS. Accesses to BAR0 offsets that no register occupies (R22).
-/

namespace Sys2Proof.Machine

/-- The quads of the 128 lanes hold domains 42 to 57 and 61 to 76. -/
theorem quadDomain_lt {lane : Nat} (h : lane < 128) : quadDomain lane < 77 := by
  simp only [quadDomain]
  split <;> omega

theorem dieLinkDomain_lt (die : Nat) : dieLinkDomain die < 80 := by
  rw [dieLinkDomain]
  split <;> decide

/-- The window of the ports: the registers of each die's quads, and those of its die link (R27). -/
theorem domainOf_ports {off : Nat} (h : off / 0x400000 = 10) :
    domainOf off = if off % 0x200000 < 0x40000 then quadDomain (64 * (off / 0x200000 % 2) + off % 0x200000 / 0x1000)
      else dieLinkDomain (off / 0x200000 % 2) := by
  simp [domainOf, h]

/-- Every offset of BAR0 lies in one of the 80 power domains (R20, R27). -/
theorem domainOf_lt (off : Nat) : domainOf off < 80 := by
  by_cases h : off / 0x400000 = 10
  · rw [domainOf_ports h]
    split
    · exact Nat.lt_trans (quadDomain_lt (by omega)) (by decide)
    · exact dieLinkDomain_lt _
  · simp only [domainOf, if_neg h]
    repeat' split
    all_goals decide

/-! ### What an unmapped access does -/

theorem exec_bar0UnmappedAccess {off : Nat} (h : occupied off = false) (write : Bool) (s : State) :
    exec (.bar0UnmappedAccess off write) s = .next (unmappedAccess s off write) := by
  change execBar0UnmappedAccess off write s = _
  rw [execBar0UnmappedAccess, h, if_neg Bool.false_ne_true]

/-- A read is answered with 0; a write gets no answer. -/
theorem unmappedAccess_wire (s : State) (off : Nat) (write : Bool) :
    (unmappedAccess s off write).wire = if write then s.wire else s.wire ++ [.readData off 0] := by
  rw [unmappedAccess, raiseEv_wire, setF_wire, setF_wire]
  cases write <;> rfl

theorem lastEvent_unmappedAccess (s : State) {off : Nat} (h : off < 2 ^ 32) (write : Bool) :
    lastEvent (unmappedAccess s off write) Ev.HIF_BAR0_UNMAPPED (domainOf off) off :=
  lastEvent_raiseEv _ (by decide) (Nat.lt_trans (domainOf_lt off) (by decide)) h

/-- HIF_UNMAPPED_ADDR.OFFSET has the 26 bits of a BAR0 offset; VALID, of the same word, is written after it. -/
theorem unmappedAccess_offset (s : State) (off : Nat) (write : Bool) :
    getF (unmappedAccess s off write) Rg.HIF_UNMAPPED_ADDR_OFFSET = off % 2 ^ 26 := by
  rw [unmappedAccess, getF_raiseEv 3 (by decide) (by decide),
    getF_setF_bits _ Rg.HIF_UNMAPPED_ADDR_VALID Rg.HIF_UNMAPPED_ADDR_OFFSET _ _ _ rfl rfl (by decide)]
  exact getF_setF_same _ _ _ (by decide)

theorem unmappedAccess_valid (s : State) (off : Nat) (write : Bool) :
    getF (unmappedAccess s off write) Rg.HIF_UNMAPPED_ADDR_VALID = 1 := by
  rw [unmappedAccess, getF_raiseEv 3 (by decide) (by decide)]
  exact getF_setF_same _ _ _ (by decide)

theorem unmappedAccess_changesOnly (s : State) (off : Nat) (write : Bool) :
    ChangesOnly [.wire, .ev, .bgLog, .regs 3, .regs 4] s (unmappedAccess s off write) :=
  changesOnly_of_fr (fr_unmappedAccess rfl rfl rfl rfl rfl (Fr.refl _ s))

end Sys2Proof.Machine

/-! The obligation's theorem has the name of the model's own `unmappedAccess`, so it stands in a namespace beside it. -/

namespace Sys2Proof.Proofs

open Machine

/-- Settles O30: `Machine.unmappedAccess` gives the next state, since the offset is free. Its occurrence is logged with the
offset whole, an offset being below 2^32, and HIF_UNMAPPED_ADDR holds it whole, since it is below 2^26. -/
theorem unmappedAccess : Obligations.UnmappedAccess := by
  intro off write s hfree hoff
  refine ⟨Machine.unmappedAccess s off write, exec_bar0UnmappedAccess hfree write s, unmappedAccess_wire s off write,
    lastEvent_unmappedAccess s (Nat.lt_trans hoff (by decide)) write, ?_, unmappedAccess_valid s off write,
    unmappedAccess_changesOnly s off write⟩
  rw [unmappedAccess_offset, Nat.mod_eq_of_lt hoff]

end Sys2Proof.Proofs
end

section
/-!
SUPPORT. Firing and disarming a trigger (R219, R223): what an instant's action leaves of the trigger that fires, and what
clearing ARM makes of its series.
-/

namespace Sys2Proof.Machine

/-! ### Fields -/

/-- Fields read only the register words. -/
theorem getF_of_regW {s t : State} (h : ∀ off, regW t off = regW s off) (f : Fld) (i : Nat) : getF t f i = getF s f i := by
  have words : ∀ n off, regsNat t off n = regsNat s off n := by
    intro n
    induction n with
    | zero => exact fun _ => rfl
    | succ k ih =>
      intro off
      rw [regsNat, regsNat, h, ih]
  rw [getF, getF, words]

/-- A counter field counts up to its greatest value. -/
theorem getF_addF_same (s : State) (f : Fld) {i : Nat} (n : Nat) (hi : i < fldCount f) :
    getF (addF s f i n) f i = min (getF s f i + n) (2 ^ f.width - 1) := by
  have hw : 0 < 2 ^ f.width := Nat.two_pow_pos _
  rw [addF, getF_setF_same _ _ _ hi, Nat.mod_eq_of_lt (by omega)]

/-! ### What leaves a trigger as it is -/

/-- Nothing that trigger n's next instant depends on has changed but its fields: its series, ARM and the schedules to come; nor
has its count of instants fired. -/
structure TrigKept (n : Nat) (s t : State) : Prop where
  series : getTrig t n = getTrig s n
  armed : trigArmed t n = trigArmed s n
  fired : getF t Rg.MER_TRIG_STATUS_FIRED n = getF s Rg.MER_TRIG_STATUS_FIRED n
  next : t.sht.next = s.sht.next

/-- The parts that hold no trigger's series, registers or schedule. -/
def besideTriggers (p : Part) : Bool := decide (p ≠ .mer ∧ p ≠ .sht ∧ p ≠ .regs 9)

namespace TrigKept

theorem refl (n : Nat) (s : State) : TrigKept n s s := ⟨rfl, rfl, rfl, rfl⟩

theorem trans {n : Nat} {a b c : State} (h : TrigKept n a b) (k : TrigKept n b c) : TrigKept n a c :=
  ⟨k.series.trans h.series, k.armed.trans h.armed, k.fired.trans h.fired, k.next.trans h.next⟩

theorem of_fr {n : Nat} {s t : State} (h : Fr besideTriggers s t) : TrigKept n s t where
  series := by rw [getTrig, getTrig, h .mer rfl]
  armed := by rw [trigArmed, trigArmed, getB, getB, getF_same (by decide) (h (.regs 9) rfl)]
  fired := getF_same (by decide) (h (.regs 9) rfl)
  next := congrArg Sht.next (h .sht rfl)

/-- The registers are the same, and so are the series and the schedules. -/
theorem of_regs {n : Nat} {s t : State} (hr : t.regs = s.regs) (hm : t.mer.trigs = s.mer.trigs)
    (hs : t.sht.next = s.sht.next) : TrigKept n s t where
  series := by rw [getTrig, getTrig, hm]
  armed := by rw [trigArmed, trigArmed, getB, getB, getF_congr hr]
  fired := getF_congr hr _ _
  next := hs

/-- A write of a field in other words than MER_TRIG_CTRL and MER_TRIG_STATUS. -/
theorem of_setF {n : Nat} (s : State) (f : Fld) (i v : Nat)
    (hc : ∀ g ∈ [Rg.MER_TRIG_CTRL_ARM, Rg.MER_TRIG_STATUS_FIRED],
      fldAddr g n + 4 * fldWords g ≤ fldAddr f i ∨ fldAddr f i + 4 * fldWords f ≤ fldAddr g n) :
    TrigKept n s (setF s f i v) := by
  have same : ∀ g ∈ [Rg.MER_TRIG_CTRL_ARM, Rg.MER_TRIG_STATUS_FIRED], getF (setF s f i v) g n = getF s g n :=
    fun g hg => getF_setF_ne s f g i n v (hc g hg)
  obtain ⟨r, hr⟩ := setF_regs s f i v
  refine ⟨by rw [hr]; rfl, ?_, same _ (by decide), by rw [hr]⟩
  rw [trigArmed, trigArmed, getB, getB, same _ (by decide)]

theorem ite {n : Nat} {s a b : State} {c : Prop} [Decidable c] (ha : TrigKept n s a) (hb : TrigKept n s b) :
    TrigKept n s (if c then a else b) := by
  split
  · exact ha
  · exact hb

theorem foldS {α : Type} {n : Nat} {f : State → α → State} (hf : ∀ s x, TrigKept n s (f s x)) (l : List α) (s : State) :
    TrigKept n s (Machine.foldS l f s) := by
  induction l generalizing s with
  | nil => exact refl n s
  | cons x r ih => exact (hf s x).trans (ih (f s x))

end TrigKept

/-! The state o is where the operation began; each lemma adds one operation. -/

theorem trigKept_raiseEv {n : Nat} {o s : State} (h : TrigKept n o s) (e param data : Nat) :
    TrigKept n o (raiseEv s e param data) :=
  h.trans (.of_fr (fr_raiseEv rfl rfl rfl (.refl _ s)))

theorem trigKept_setTrigLast {n : Nat} {o s : State} (h : TrigKept n o s) (i v : Nat) :
    TrigKept n o (setF s Rg.MER_TRIG_LAST_LAST i v) := by
  refine h.trans (.of_setF s _ i v ?_)
  simp only [List.forall_mem_cons, List.not_mem_nil, false_imp_iff, implies_true, and_true, fldAddr, fldWords,
    Rg.MER_TRIG_CTRL_ARM, Rg.MER_TRIG_STATUS_FIRED, Rg.MER_TRIG_LAST_LAST]
  omega

theorem trigKept_ptpOverload {n : Nat} {o s : State} (h : TrigKept n o s) : TrigKept n o (ptpOverload s) := by
  rw [ptpOverload, addF]
  refine h.trans (.of_setF s _ 0 _ ?_)
  simp only [List.forall_mem_cons, List.not_mem_nil, false_imp_iff, implies_true, and_true, fldAddr, fldWords,
    Rg.MER_TRIG_CTRL_ARM, Rg.MER_TRIG_STATUS_FIRED, Rg.MER_PTP_STATUS_OVERLOAD]
  omega

theorem trigKept_ptpSecondRoll {n : Nat} {o s : State} (h : TrigKept n o s) : TrigKept n o (ptpSecondRoll s) :=
  .ite h (h.trans (.of_regs rfl rfl rfl))

theorem trigKept_sendPtp {n : Nat} {o s : State} (h : TrigKept n o s) (p : Nat) (m : List Byte) (tag : FrameTag) (udp : Bool) :
    TrigKept n o (sendPtp s p m tag udp) := by
  have rolled : TrigKept n o (ptpSecondRoll s) := trigKept_ptpSecondRoll h
  rw [sendPtp]
  refine .ite (trigKept_ptpOverload rolled) (.trans ?_ (.of_fr (fr_sendFrame rfl rfl rfl rfl rfl rfl rfl (.refl _ _))))
  exact rolled.trans (.of_regs rfl rfl rfl)

theorem trigKept_ptpStamped {n : Nat} {o s : State} (h : TrigKept n o s) (port : Nat) (t : Int) (m : List Byte) (udp : Bool) :
    TrigKept n o (ptpStamped s port t m udp) := by
  rw [ptpStamped]
  exact .ite (trigKept_sendPtp h ..) (.ite (h.trans (.of_regs rfl rfl rfl)) (.ite (trigKept_sendPtp h ..) h))

/-- A frame that leaves: its counts, events and mirror copies stand beside the triggers, and what its sender waits for is the
roll-call's, the push's or PTP's. -/
theorem trigKept_transmit {n : Nat} {o s : State} (h : TrigKept n o s) (port : Nat) (stamp : Int) (f : QFrame) :
    TrigKept n o (transmit s port stamp f) := by
  rw [transmit.eq_def]
  extract_lets valid b s₁ s₂ s₃ s₄ s₅
  have left : Fr besideTriggers s s₅ := by
    have h₁ : Fr besideTriggers s s₁ := fr_emit rfl (.refl _ s)
    have h₂ : Fr besideTriggers s s₂ := fr_ite h₁ (fr_addT rfl)
    have h₃ : Fr besideTriggers s s₃ := fr_ite h₂ (fr_addF 10 (by decide) rfl)
    have h₄ : Fr besideTriggers s s₄ := fr_ite h₃ fun h => fr_raiseEv rfl rfl rfl (fr_addF 11 (by decide) rfl h)
    exact fr_portMirrors rfl rfl rfl rfl h₄
  have kept : TrigKept n o s₅ := h.trans (.of_fr left)
  split
  case h_1 => exact kept
  case h_2 => exact kept
  case h_3 => exact kept
  case h_4 =>
    split
    · exact kept
    · exact kept.trans (.of_regs rfl rfl rfl)
  case h_5 =>
    split
    · exact kept
    · exact kept.trans (.of_regs rfl rfl rfl)
  case h_6 =>
    split
    · exact kept
    · exact .ite (trigKept_ptpStamped kept ..) kept

theorem trigKept_holdsProgress {n : Nat} {o s : State} (h : TrigKept n o s) : TrigKept n o (holdsProgress s) := by
  refine h.trans (.foldS (fun t h => ?_) _ s)
  have taken : TrigKept n t { t with sht := { t.sht with holds := t.sht.holds.filter (·.cmd != h.cmd) } } := .of_regs rfl rfl rfl
  exact taken.trans (.of_fr (fr_completeId rfl rfl rfl rfl rfl rfl rfl rfl (.refl _ _)))

/-- A launch frame that leaves, of a PRESENT or of any trigger. -/
theorem trigKept_sendLaunch {n : Nat} {o s : State} (h : TrigKept n o s) (port : Nat) (l : Launch) :
    TrigKept n o (sendLaunch s port l) := by
  rw [sendLaunch.eq_def]
  dsimp only
  split
  case h_1 =>
    have sent := trigKept_transmit h port (stampNow s)
      { l.frame with bytes := lateWaits l.frame.bytes (mstDiff (mst s) l.at_).toNat 16 }
    exact .ite (sent.trans (.of_fr (fr_raiseEv rfl rfl rfl (fr_addF 8 (by decide) rfl (.refl _ _))))) sent
  case h_2 m _ =>
    have released : TrigKept n o (releaseFrame s port l.cls l.frame) :=
      h.trans (.of_fr (fr_releaseFrame rfl rfl rfl rfl (.refl _ s)))
    have sent := trigKept_holdsProgress (trigKept_transmit released port (stampNow s) l.frame)
    exact .ite (trigKept_raiseEv (trigKept_setTrigLast sent m _) ..) (trigKept_setTrigLast sent m _)

theorem trigKept_endIdle {n : Nat} {o s : State} (h : TrigKept n o s) (port : Nat) : TrigKept n o (endIdle s port) :=
  h.trans (.of_fr (fr_endIdle rfl (.refl _ s)))

theorem trigKept_serveSlot {n : Nat} {o s : State} (h : TrigKept n o s) (port : Nat) : TrigKept n o (serveSlot s port) := by
  rw [serveSlot.eq_def]
  dsimp only
  split
  · exact h
  · have taken : ∀ x, TrigKept n o (setPort s port x) := fun x => h.trans (.of_fr (fr_setPort rfl (.refl _ s)))
    exact trigKept_endIdle (trigKept_sendLaunch (taken _) ..) port

theorem trigKept_launchHead {n : Nat} {o s : State} (h : TrigKept n o s) (m x : Nat) : TrigKept n o (launchHead s m x) := by
  rw [launchHead.eq_def]
  dsimp only
  split
  · exact trigKept_raiseEv (trigKept_endIdle h _) ..
  · rw [enterSlot]
    refine trigKept_serveSlot (h.trans (.of_fr ?_)) _
    exact fr_setPort rfl (fr_headArrives rfl (fr_setQueue rfl (.refl _ s)))

/-- The action of an instant that is no view boundary's counts it, and leaves the trigger otherwise as it is. -/
theorem trigKept_trigAct {s : State} {n : Nat} (h : trigAction s n ≠ 3) (j : Nat) :
    TrigKept n (addF s Rg.MER_TRIG_STATUS_FIRED n) (trigAct s n j) := by
  have action : trigAction (addF s Rg.MER_TRIG_STATUS_FIRED n) n = trigAction s n := by
    refine getF_setF_ne s _ _ n n _ ?_
    simp only [fldAddr, fldWords, Rg.MER_TRIG_CTRL_ACTION, Rg.MER_TRIG_STATUS_FIRED]
    omega
  have stamped := trigKept_setTrigLast (.refl n (addF s Rg.MER_TRIG_STATUS_FIRED n)) n (trigInstant s n j)
  have action' : trigAction (setF (addF s Rg.MER_TRIG_STATUS_FIRED n) Rg.MER_TRIG_LAST_LAST n (trigInstant s n j)) n =
      trigAction s n := by
    refine (getF_setF_ne _ _ _ n n _ ?_).trans action
    simp only [fldAddr, fldWords, Rg.MER_TRIG_CTRL_ACTION, Rg.MER_TRIG_LAST_LAST]
    omega
  have three : trigAction s n = 0 ∨ trigAction s n = 1 ∨ trigAction s n = 2 := by
    have bound : trigAction s n < 4 := getF_lt s _ n
    omega
  rw [trigAct]
  dsimp only
  rw [action, action']
  rcases three with event | pulse | launch
  · rw [event, if_neg (by decide), if_pos rfl]
    exact trigKept_raiseEv stamped ..
  · rw [pulse, if_neg (by decide), if_neg (by decide), if_pos rfl]
    exact stamped.trans (.of_regs rfl rfl rfl)
  · rw [launch, if_pos rfl]
    exact trigKept_launchHead (.refl n _) ..

/-! ### Firing -/

theorem fireTrigger_of_disarmed {s : State} {n : Nat} (ha : trigArmed s n = false) (hl : (getTrig s n).lastOne = false) :
    fireTrigger s n = s := by
  rw [fireTrigger]
  simp only [ha, hl, Bool.false_and, Bool.false_eq_true, if_false, ite_self]

/-- The instant that clearing ARM left to fire, when it is reached. -/
theorem fireTrigger_of_lastOne {s : State} {n : Nat} (hd : domainOn s 5 = true) (hn : s.sht.next = [])
    (ha : trigArmed s n = false) (hl : (getTrig s n).lastOne = true) (hr : reached s (trigDue s n (getTrig s n).j) = true) :
    fireTrigger s n = trigAct (setTrig s n ⟨(getTrig s n).j + 1, false⟩) n (getTrig s n).j := by
  have hsup : superseded s n (trigDue s n (getTrig s n).j) = false := by rw [superseded, hn]
  rw [fireTrigger]
  simp only [hd, hsup, ha, hl, hr, Bool.not_true, Bool.or_false, Bool.and_true, Bool.false_eq_true, if_false, if_true]

/-- With no schedule to come, an instant takes no triggers over. -/
theorem exec_triggerInstant {s : State} {n : Nat} (hn : n < 16) (h : (fireTrigger s n).sht.next = []) :
    exec (.triggerInstant n) s = .next (fireTrigger s n) := by
  have quiet : nextStarts (fireTrigger s n) = false := by rw [nextStarts, h]
  change Host.Outcome.next (trigger s n) = _
  rw [trigger, if_neg (by omega)]
  simp only [quiet, Bool.and_false, Bool.false_and, Bool.false_eq_true, if_false]

theorem exec_triggerInstant_of_disarmed {s : State} {n : Nat} (hn : n < 16) (hs : s.sht.next = [])
    (ha : trigArmed s n = false) (hl : (getTrig s n).lastOne = false) : exec (.triggerInstant n) s = .next s := by
  have idle := fireTrigger_of_disarmed ha hl
  rw [exec_triggerInstant hn (by rw [idle, hs]), idle]

/-- An instant's action counts it; the series, ARM and the schedules to come are as they were. -/
theorem trigAct_counts {s : State} {n : Nat} (hn : n < 16) (h : trigAction s n ≠ 3) (j : Nat) :
    getF (trigAct s n j) Rg.MER_TRIG_STATUS_FIRED n = min (getF s Rg.MER_TRIG_STATUS_FIRED n + 1) 65535 ∧
      trigArmed (trigAct s n j) n = trigArmed s n ∧ getTrig (trigAct s n j) n = getTrig s n ∧
      (trigAct s n j).sht.next = s.sht.next := by
  obtain ⟨series, armed, fired, next⟩ := trigKept_trigAct h j
  obtain ⟨r, counted⟩ : ∃ r, addF s Rg.MER_TRIG_STATUS_FIRED n = { s with regs := r } := setF_regs ..
  refine ⟨fired.trans (getF_addF_same s _ 1 hn), armed.trans ?_, series.trans ?_, next.trans ?_⟩
  · refine congrArg (· != 0) (getF_setF_ne _ _ _ n n _ ?_)
    simp only [fldAddr, fldWords, Rg.MER_TRIG_CTRL_ARM, Rg.MER_TRIG_STATUS_FIRED]
    omega
  · rw [counted]
    rfl
  · rw [counted]

/-- The instant left to fire is counted, and is the last. -/
theorem exec_triggerInstant_of_lastOne {s : State} {n : Nat} (hn : n < 16) (hd : domainOn s 5 = true) (hs : s.sht.next = [])
    (ha : trigArmed s n = false) (h3 : trigAction s n ≠ 3) (hl : (getTrig s n).lastOne = true)
    (hr : reached s (trigDue s n (getTrig s n).j) = true) :
    ∃ t, exec (.triggerInstant n) s = .next t ∧
      getF t Rg.MER_TRIG_STATUS_FIRED n = min (getF s Rg.MER_TRIG_STATUS_FIRED n + 1) 65535 ∧
      trigArmed t n = false ∧ (getTrig t n).lastOne = false := by
  have fires := fireTrigger_of_lastOne hd hs ha hl hr
  have action : trigAction (setTrig s n ⟨(getTrig s n).j + 1, false⟩) n ≠ 3 := h3
  obtain ⟨fired, armed, series, next⟩ := trigAct_counts hn action (getTrig s n).j
  rw [← fires] at fired armed series next
  refine ⟨fireTrigger s n, exec_triggerInstant hn (next.trans hs), fired, armed.trans ha, ?_⟩
  rw [series, getTrig_setTrig_same]

/-! ### Clearing ARM -/

/-- The fields software gives a trigger that say when it acts, how and on which port. -/
def trigSettings : List Fld :=
  [Rg.MER_TRIG_START_START, Rg.MER_TRIG_PERIOD_PERIOD_NS, Rg.MER_TRIG_PERIOD_PERIOD_FRAC, Rg.MER_TRIG_CTRL_ACTION,
    Rg.MER_TRIG_CTRL_PORT]

theorem trigInstant_congr {s t : State} {n : Nat} (h : ∀ f ∈ trigSettings, getF t f n = getF s f n) (j : Nat) :
    trigInstant t n j = trigInstant s n j := by
  rw [trigInstant, trigInstant, trigPeriod, trigPeriod, h Rg.MER_TRIG_START_START (by decide),
    h Rg.MER_TRIG_PERIOD_PERIOD_NS (by decide), h Rg.MER_TRIG_PERIOD_PERIOD_FRAC (by decide)]

theorem trigAction_congr {s t : State} {n : Nat} (h : ∀ f ∈ trigSettings, getF t f n = getF s f n) :
    trigAction t n = trigAction s n := h Rg.MER_TRIG_CTRL_ACTION (by decide)

theorem trigDue_congr {s t : State} {n : Nat} (h : ∀ f ∈ trigSettings, getF t f n = getF s f n)
    (ho : getF t Rg.MER_PIN_COMP_OUT_NS = getF s Rg.MER_PIN_COMP_OUT_NS) (j : Nat) : trigDue t n j = trigDue s n j := by
  rw [trigDue, trigDue, trigAction_congr h, trigInstant_congr h, ho]

/-- A trigger's settings lie in other words than MER_TRIG_CTRL, or in other bits of it than ARM. -/
theorem getF_setF_arm {f : Fld} (hf : f ∈ trigSettings) (s : State) (n v : Nat) :
    getF (setF s Rg.MER_TRIG_CTRL_ARM n v) f n = getF s f n := by
  simp only [trigSettings, List.mem_cons, List.not_mem_nil, or_false] at hf
  have apart : ∀ g : Fld, g.base = 0x02401000 ∨ g.base = 0x02401008 → g.s1 = 0 → g.s2 = 32 → g.n2 = 16 → g.lo < 32 →
      g.width ≤ 32 → getF (setF s Rg.MER_TRIG_CTRL_ARM n v) g n = getF s g n := by
    intro g hb h1 h2 h3 hlo hw
    refine getF_setF_ne s _ g n n v ?_
    simp only [fldAddr, fldWords, Rg.MER_TRIG_CTRL_ARM, h1, h2, h3]
    omega
  rcases hf with rfl | rfl | rfl | rfl | rfl
  · exact apart _ (by decide) rfl rfl rfl (by decide) (by decide)
  · exact apart _ (by decide) rfl rfl rfl (by decide) (by decide)
  · exact apart _ (by decide) rfl rfl rfl (by decide) (by decide)
  · exact getF_setF_bits s _ _ n n v rfl rfl (by decide)
  · exact getF_setF_bits s _ _ n n v rfl rfl (by decide)

/-- The idle period of a port does not depend on the one it is in. -/
theorem idlePeriod_setIdle (s : State) (port : Nat) : idlePeriod (setIdle s port) port = idlePeriod s port := by
  have near : nearLaunches (setIdle s port) port = nearLaunches s port := by
    have rate : portRate (setIdle s port) port = portRate s port := by
      rw [portRate, portRate, setIdle, getPort_setPort_same]
      rfl
    have time : tMax (setIdle s port) port = tMax s port := by rw [tMax, tMax, frameNs, frameNs, rate]
    rw [nearLaunches, nearLaunches, time, setIdle, getPort_setPort_same]
    rfl
  rw [idlePeriod, idlePeriod, near]

/-- A port that is idle is then in the idle period of its next launch, if it has one. -/
theorem endIdle_idle {s : State} {port : Nat} (h : (getPort s port).idle ≠ none) :
    (getPort (endIdle s port) port).idle = idlePeriod (endIdle s port) port := by
  rw [endIdle, if_pos (Option.isSome_iff_ne_none.2 h), idlePeriod_setIdle, setIdle, getPort_setPort_same]

/-- An instant less than 8 ns ahead is left to fire once. -/
def leftToFire (s : State) (n : Nat) : Bool := decide (mstDiff (trigInstant s n (getTrig s n).j) (mst s) < 8)

/-- A trigger whose ARM is cleared, before its port's idle period ends. -/
def clearArm (s : State) (n : Nat) : State :=
  setTrig (setF s Rg.MER_TRIG_CTRL_ARM n 0) n ⟨(getTrig s n).j, leftToFire s n⟩

theorem trigDisarm_eq (s : State) (n : Nat) : trigDisarm s n =
    if trigAction (clearArm s n) n = 2 then endIdle (clearArm s n) (getF (clearArm s n) Rg.MER_TRIG_CTRL_PORT n)
    else clearArm s n := rfl

@[simp] theorem endIdle_regs (s : State) (port : Nat) : (endIdle s port).regs = s.regs := by
  rw [endIdle]
  split <;> rfl

@[simp] theorem endIdle_mer (s : State) (port : Nat) : (endIdle s port).mer = s.mer := by
  rw [endIdle]
  split <;> rfl

theorem trigDisarm_regs (s : State) (n : Nat) : (trigDisarm s n).regs = (setF s Rg.MER_TRIG_CTRL_ARM n 0).regs := by
  rw [trigDisarm_eq]
  split
  · exact endIdle_regs ..
  · rfl

theorem getTrig_trigDisarm (s : State) (n : Nat) : getTrig (trigDisarm s n) n = ⟨(getTrig s n).j, leftToFire s n⟩ := by
  refine Eq.trans ?_ (getTrig_setTrig_same (setF s Rg.MER_TRIG_CTRL_ARM n 0) n _)
  rw [trigDisarm_eq]
  split
  · rw [getTrig, endIdle_mer]
    rfl
  · rfl

/-- Disarming leaves the registers as clearing ARM does. -/
theorem getF_trigDisarm (s : State) (n : Nat) (f : Fld) (i : Nat) :
    getF (trigDisarm s n) f i = getF (setF s Rg.MER_TRIG_CTRL_ARM n 0) f i := getF_congr (trigDisarm_regs s n) f i

theorem trigArmed_trigDisarm (s : State) {n : Nat} (hn : n < 16) : trigArmed (trigDisarm s n) n = false := by
  rw [trigArmed, getB, getF_trigDisarm, getF_setF_same _ _ _ hn]
  rfl

theorem trigDisarm_settings {f : Fld} (hf : f ∈ trigSettings) (s : State) (n : Nat) :
    getF (trigDisarm s n) f n = getF s f n := by
  rw [getF_trigDisarm, getF_setF_arm hf]

theorem trigDisarm_outNs (s : State) (n : Nat) :
    getF (trigDisarm s n) Rg.MER_PIN_COMP_OUT_NS = getF s Rg.MER_PIN_COMP_OUT_NS := by
  rw [getF_trigDisarm, getF_setF_ne]
  simp only [fldAddr, fldWords, Rg.MER_PIN_COMP_OUT_NS, Rg.MER_TRIG_CTRL_ARM]
  omega

theorem trigDisarm_changesOnly (s : State) (n : Nat) : ChangesOnly [.mer, .ports, .regs 9] s (trigDisarm s n) :=
  changesOnly_of_fr (fr_trigDisarm rfl rfl rfl (.refl _ s))

theorem domainOn_of_same {s t : State} (h : (Part.regs 2).same s t) {d : Nat} : domainOn t d = domainOn s d := by
  rw [domainOn, domainOn, domainState, domainState, getF_same (by decide) h]

/-- A LAUNCH trigger's port is then idle for its next launch, if it was idle (R226). -/
theorem trigDisarm_idle {s : State} {n : Nat} (h2 : trigAction s n = 2)
    (hi : (getPort s (getF s Rg.MER_TRIG_CTRL_PORT n)).idle ≠ none) :
    (getPort (trigDisarm s n) (getF s Rg.MER_TRIG_CTRL_PORT n)).idle =
      idlePeriod (trigDisarm s n) (getF s Rg.MER_TRIG_CTRL_PORT n) := by
  have action : trigAction (clearArm s n) n = 2 := (getF_setF_arm (by decide) s n 0).trans h2
  have port : getF (clearArm s n) Rg.MER_TRIG_CTRL_PORT n = getF s Rg.MER_TRIG_CTRL_PORT n :=
    getF_setF_arm (by decide) s n 0
  have ports : (clearArm s n).ports = s.ports := by
    obtain ⟨r, hr⟩ := setF_regs s Rg.MER_TRIG_CTRL_ARM n 0
    rw [clearArm, setTrig_ports, hr]
  rw [trigDisarm_eq, if_pos action, port]
  exact endIdle_idle (by rwa [getPort, ports])

/-- Clearing ARM of an armed trigger that is no schedule's disarms it, changed action fields having raised their event. -/
theorem exec_triggerDisarm {s : State} {n : Nat} (fields : Nat) (hn : n < 16) (hd : domainOn s 5 = true)
    (ho : trigOwned s n = false) (ha : trigArmed s n = true) :
    ∃ r, ChangesOnly [.ev, .bgLog, .regs 4] s r ∧ exec (.triggerDisarm n fields) s = .next (trigDisarm r n) := by
  have clear : bit (fields % 2 ^ 31 % 2 ^ 32) 31 = false := by
    rw [bit, beq_eq_false_iff_ne]
    omega
  change ∃ r, _ ∧ execTriggerDisarm n fields s = _
  rw [execTriggerDisarm, if_pos ⟨hn, hd⟩, trigCtrlWrite, ho, ha, if_neg Bool.false_ne_true, if_pos rfl]
  dsimp only
  rw [clear, if_neg Bool.false_ne_true]
  split
  · exact ⟨s, changesOnly_of_fr (.refl _ s), rfl⟩
  · exact ⟨_, raiseEv_changesOnly _ _ _ _, rfl⟩

end Sys2Proof.Machine
end

section
/-!
PROOFS. Triggers disarmed (R223, R226).
-/

namespace Sys2Proof.Machine

/-- Settles O46: the write leaves the trigger's settings, and its series at the same instant with the mark that this instant is
to fire if it was less than 8 ns ahead. Without the mark TRIGGER_INSTANT finds nothing to do; with it the instant fires, and the
action leaves the trigger disarmed and unmarked. -/
theorem triggerDisarmed : Obligations.TriggerDisarmed := by
  intro n fields s hn hd ho ha h3
  obtain ⟨r, hsr, hexec⟩ := exec_triggerDisarm fields hn hd ho ha
  have mer : r.mer = s.mer := hsr .mer (by decide)
  have ports : r.ports = s.ports := hsr .ports (by decide)
  have field : ∀ {f : Fld} {i : Nat}, (fldIn f && fldWin f == 9) = true → getF r f i = getF s f i :=
    fun hf => getF_same hf (hsr (.regs 9) (by decide))
  have setting : ∀ f ∈ trigSettings, getF r f n = getF s f n := fun f hf =>
    field ((by decide : ∀ f ∈ trigSettings, (fldIn f && fldWin f == 9) = true) f hf)
  have trig : getTrig r n = getTrig s n := by rw [getTrig, getTrig, mer]
  have time : mst r = mst s := by rw [mst, mst, mer]
  have port : getF r Rg.MER_TRIG_CTRL_PORT n = getF s Rg.MER_TRIG_CTRL_PORT n := field (by decide)
  refine ⟨trigDisarm r n, hexec, trigArmed_trigDisarm r hn, ?_, ?_⟩
  · intro _ h2 hi
    have idle := trigDisarm_idle ((trigAction_congr setting).trans h2) (by rwa [getPort, ports, port])
    rwa [port] at idle
  · intro u hregs hu hnext x
    have after : ∀ f ∈ trigSettings, getF u f n = getF s f n := fun f hf => by
      rw [getF_of_regW hregs, trigDisarm_settings hf, setting f hf]
    have outNs : getF u Rg.MER_PIN_COMP_OUT_NS = getF s Rg.MER_PIN_COMP_OUT_NS := by
      rw [getF_of_regW hregs, trigDisarm_outNs, field (by decide)]
    have on : domainOn u 5 = true := by
      rw [← hd, domainOn, domainState, getF_of_regW hregs, ← domainState, ← domainOn,
        domainOn_of_same (trigDisarm_changesOnly r n (.regs 2) (by decide)), domainOn_of_same (hsr (.regs 2) (by decide))]
    have armed : trigArmed u n = false := by
      rw [← trigArmed_trigDisarm r hn, trigArmed, trigArmed, getB, getB, getF_of_regW hregs]
    have series : getTrig u n = ⟨(getTrig s n).j, decide (mstDiff x (mst s) < 8)⟩ := by
      rw [hu, getTrig_trigDisarm, leftToFire, trig, time, trigInstant_congr setting]
    refine ⟨fun far => ?_, fun near reach => ?_⟩
    · refine exec_triggerInstant_of_disarmed hn hnext armed ?_
      rw [series]
      exact decide_eq_false (by omega)
    · have left : (getTrig u n).lastOne = true := by
        rw [series]
        exact decide_eq_true near
      have due : reached u (trigDue u n (getTrig u n).j) = true := by
        rw [series, trigDue_congr after outNs]
        exact reach
      obtain ⟨v, hv, counted, disarmed, done⟩ :=
        exec_triggerInstant_of_lastOne hn on hnext armed (by rwa [trigAction_congr after]) left due
      refine ⟨v, hv, counted, fun w hw hwt hwn => exec_triggerInstant_of_disarmed hn hwn ?_ ?_⟩
      · rw [← disarmed, trigArmed, trigArmed, getB, getB, getF_of_regW hw]
      · rw [hwt, done]

end Sys2Proof.Machine
end

section
/-!
PROOFS. The relative output of a decay curve (R418).
-/

namespace Sys2Proof.Machine

/-- Searched from its end, a range answers with the largest number that passes. -/
theorem find?_reverse_range {p : Nat → Bool} {n i : Nat} (hi : i < n) (hp : p i = true)
    (hmax : ∀ j, i < j → j < n → p j = false) : (List.range n).reverse.find? p = some i := by
  induction n with
  | zero => omega
  | succ n ih =>
    rw [List.range_succ, List.reverse_concat]
    obtain rfl | hlt : i = n ∨ i < n := by omega
    · exact List.find?_cons_of_pos hp
    · have fails : p n = false := hmax n hlt (Nat.lt_succ_self n)
      rw [List.find?_cons_of_neg (by rw [fails]; exact Bool.false_ne_true)]
      exact ih hlt fun j hj hjn => hmax j hj (by omega)

/-- On a curve of increasing doses a later point has the larger dose. -/
theorem curveDose_lt {curve : List (Nat × Nat)} (hinc : curve.Pairwise fun a b => a.1 < b.1) {i j : Nat} (hij : i < j)
    (hj : j < curve.length) : (curve.getD i (0, 0)).1 < (curve.getD j (0, 0)).1 := by
  have hi : i < curve.length := Nat.lt_trans hij hj
  rw [List.getD_eq_getElem?_getD, List.getD_eq_getElem?_getD, List.getElem?_eq_getElem hi, List.getElem?_eq_getElem hj]
  exact List.pairwise_iff_getElem.1 hinc i j hi hj hij

theorem relativeOutput_of_last_le {curve : List (Nat × Nat)} {d : Nat} (h : (curve.getD 15 (0, 0)).1 ≤ d) :
    relativeOutput curve d = (curve.getD 15 (0, 0)).2 := if_pos h

/-- Where i is the largest index whose dose is not above d, the output lies on the line from point i to the next. -/
theorem relativeOutput_of_largest {curve : List (Nat × Nat)} {d i : Nat} (hi : i < 15) (hle : (curve.getD i (0, 0)).1 ≤ d)
    (habove : ∀ j, i < j → j < 16 → d < (curve.getD j (0, 0)).1) :
    relativeOutput curve d = ((curve.getD i (0, 0)).2 : Int) +
      ((((curve.getD (i + 1) (0, 0)).2 : Int) - (curve.getD i (0, 0)).2) * ((d : Int) - (curve.getD i (0, 0)).1)).tdiv
        (((curve.getD (i + 1) (0, 0)).1 : Int) - (curve.getD i (0, 0)).1) := by
  have found : ((List.range 15).reverse.find? fun k => decide ((curve.getD k (0, 0)).1 ≤ d)) = some i :=
    find?_reverse_range hi (decide_eq_true hle) fun j hj hj15 => decide_eq_false (Nat.not_le_of_lt (habove j hj (by omega)))
  simp only [relativeOutput, found, Option.getD_some, if_neg (Nat.not_le_of_lt (habove 15 hi (by decide)))]

/-- Settles O45: the doses increase, so where d is below point i + 1 it is below every later one, and i is the largest index whose
dose is not above d. -/
theorem outputCurve : Obligations.OutputCurve := by
  intro curve d hlen hinc _ dose out
  refine ⟨relativeOutput_of_last_le, fun i hi hle hlt => relativeOutput_of_largest hi hle fun j hj hj16 => ?_⟩
  obtain rfl | hnext : i + 1 = j ∨ i + 1 < j := by omega
  · exact hlt
  · exact Nat.lt_trans hlt (curveDose_lt hinc hnext (by omega))

end Sys2Proof.Machine
end
